-- ==== Sys2Proof/Word.lean ====
section
/-! DEFINITION. The plain types that commands and state share: words, the two parts, the two domains,
Fyolink ports, frames and the receive context of a frame. No operation lives here. -/

namespace Sys2Proof

/-- A 32-bit register word (R545). -/
abbrev Word := BitVec 32

/-- The two parts of Sendione (R1): the Waivar unit and the Harfo HD132 distributor. -/
inductive Part where
  | unit
  | dist
  deriving DecidableEq, Repr

/-- The two time domains of a hall (R30). -/
inductive Dom where
  | a
  | b
  deriving DecidableEq, Repr

/-- A Fyolink port of the machine: the unit's port to a domain (pages DOMA, DOMB), or distributor port 0 to 131
(R52: 0 to 127 downstream, 128 and 129 upstream, 130 and 131 Rope). -/
inductive PortRef where
  | unit (d : Dom)
  | dist (n : Fin 132)
  deriving DecidableEq, Repr

/-- A frame as R63 lays it out, without its sync header and CRC: TYPE, SEQ and BODY. -/
structure Frame where
  typ : BitVec 6
  seq : BitVec 8
  body : BitVec 64
  deriving DecidableEq, Repr

/-- Where a CRC-good unsequenced frame arrived: port and lane. -/
structure RxU where
  port : PortRef
  lane : Bool
  deriving DecidableEq, Repr

/-- Where a CRC-good sequenced frame (or a header with its payload frames) arrived, and the SEQ of its first frame. `part`
says which frames of the group arrive now: none for all of them; `some (i, n)` for `n` of them from the `i`-th on, the header
being the 0-th (R68 lets other frames stand between them). -/
structure Rx where
  port : PortRef
  lane : Bool
  seq : BitVec 8
  part : Option (Nat × Nat) := none
  deriving DecidableEq, Repr

/-- The header of a message-port request (R268): input lane, CTX_LO, REPLY, TAG and ACK. -/
structure Req where
  lane : BitVec 4
  ctxLo : BitVec 4
  reply : BitVec 10
  tag : BitVec 8
  ack : Bool
  deriving DecidableEq, Repr

/-- The object that an uncorrectable ECC error hits (R305, R336, R343). -/
inductive EccTarget where
  | sem (n : BitVec 16)
  /-- a watch entry: the semaphore on whose queue it stands, the core and the tag of its wait -/
  | watch (n : BitVec 16) (core : BitVec 10) (tag : BitVec 8)
  /-- a watch entry that no wait uses -/
  | watchFree
  | barrier (n : BitVec 8)
  | flow (n : BitVec 10)
  | fence (n : BitVec 12)
  deriving DecidableEq, Repr

/-- What a scrub reads: an object of the unit (R305, R307, R336), or the distributor's gallery table, contexts and accumulator
sets (R470). -/
inductive ScrubTarget where
  | unit (object : EccTarget)
  | dist
  deriving DecidableEq, Repr

/-- The fields of an ARM header and its two payload frames that every phase carries (R71). -/
structure Arm where
  gallery : BitVec 12
  epochLo : BitVec 4
  target : BitVec 48
  mask : BitVec 64
  lid : BitVec 16
  tol : BitVec 16
  /-- UNIT: the origin in phases 0 and 1, the count of armed units in phase 2 -/
  uid : BitVec 20
  deriving DecidableEq, Repr

/-- The fields of a GO (R71). -/
structure Go where
  gallery : BitVec 12
  epochLo : BitVec 4
  lid : BitVec 16
  targetLo : BitVec 32
  deriving DecidableEq, Repr

/-- The fields of an ABORT (R71). -/
structure Abort where
  gallery : BitVec 12
  epochLo : BitVec 4
  lid : BitVec 16
  reason : BitVec 8
  deriving DecidableEq, Repr

/-- The header fields that CMB_UP, CMB_DOWN, COMMIT and ACKCMB share (R71). -/
structure CmbKey where
  gallery : BitVec 12
  epochLo : BitVec 4
  gseq : BitVec 16
  deriving DecidableEq, Repr

/-- The fields of a ROPE header besides KIND and LEN (R71). -/
structure RopeKey where
  gallery : BitVec 12
  epochLo : BitVec 4
  gseq : BitVec 16
  rseq : BitVec 16
  deriving DecidableEq, Repr

/-- The message LCH_START (R291). -/
structure LchStart where
  req : Req
  lid : BitVec 16
  gallery : BitVec 12
  tol : BitVec 16
  target : BitVec 48
  deriving DecidableEq, Repr

/-- The message LCH_CANCEL (R291). -/
structure LchCancel where
  req : Req
  lid : BitVec 16
  gallery : BitVec 12
  deriving DecidableEq, Repr

/-- The message TTB_INSERT (R291). -/
structure TtbInsert where
  req : Req
  index : BitVec 10
  kind : BitVec 3
  target : BitVec 4
  param : BitVec 28
  due : BitVec 48
  deriving DecidableEq, Repr

/-- An edge of a PPSIN input (R115), `frac` units of 2^-6 ns before the present TCLK edge (R112). -/
structure PpsEdge where
  falling : Bool
  frac : BitVec 6
  deriving DecidableEq, Repr

/-- The header fields of a PTP message that the slave uses (R118): domainNumber, sourcePortIdentity, sequenceId,
logMessageInterval and correctionField (signed, units of 2^-16 ns). -/
structure PtpHdr where
  /-- the frame: layer 2 or IPv4/UDP, its VLAN tag, and its source address (a MAC address, or an IPv4 address) -/
  l2 : Bool := false
  vlan : Option (BitVec 12) := none
  addr : BitVec 48 := 0
  domain : BitVec 8
  src : BitVec 64
  port : BitVec 16
  seq : BitVec 16
  log : BitVec 8
  corr : BitVec 64
  deriving DecidableEq, Repr

/-- The data set of an Announce message (R118). -/
structure PtpAnn where
  pri1 : BitVec 8
  cls : BitVec 8
  acc : BitVec 8
  var : BitVec 16
  pri2 : BitVec 8
  gm : BitVec 64
  steps : BitVec 16
  deriving DecidableEq, Repr

/-- A PTP timestamp. -/
structure PtpTime where
  sec : BitVec 48
  ns : BitVec 32
  deriving DecidableEq, Repr

end Sys2Proof
end

