-- ==== Sys2Proof/Syntax.lean ====
section
/-! DEFINITION. The commands of the block: one constructor per row of spec/opcode_table.json, with the row's operands.
A frame that is received carries its fields (R71) and, where it is sequenced, its SEQ; a timer or an internal event
names the object it concerns; a pin event carries the level. -/

namespace Sys2Proof

/-- The commands, in the table's families. -/
inductive Instr where
  -- Fyolink rows (R54 to R109).
  | linkEnableWrite (port : PortRef) (en : Bool)
  | linkCntClr (port : PortRef)
  | signalDetect (port : PortRef) (lane present : Bool)
  | blockLockAcquired (port : PortRef) (lane : Bool)
  | blockLockLost (port : PortRef) (lane : Bool)
  | trainingBlockRx (port : PortRef) (lane rxLock ready : Bool)
  | framesStart (port : PortRef)
  | trainLimitExpiry (port : PortRef)
  | trainRetryTimer (port : PortRef)
  | spareTrainTimeout (port : PortRef)
  | spareRetrainTimer (port : PortRef)
  | linkSilence (port : PortRef)
  | readmitTimer (port : PortRef)
  | admitWaitTimer (port : PortRef)
  | idleRx (rx : RxU) (spareOk rxLane slipEn : Bool) (slip : BitVec 2)
  | crcBadFrameRx (port : PortRef) (lane : Bool) (frame : BitVec 78)
  | reservedTypeFrameRx (rx : Rx) (typ : BitVec 6) (body : BitVec 64)
  | unexpectedFrameRx (rx : Rx) (typ : BitVec 6) (body : BitVec 64)
  | ackTimer (port : PortRef)
  | ackRx (rx : RxU) (ackSeq : BitVec 8)
  | nakRx (rx : RxU) (expSeq : BitVec 8) (reason : BitVec 2)
  | retryTimerExpiry (port : PortRef)
  | laneSwap (port : PortRef)
  | echoIntervalTimer (port : PortRef) (spare : Bool)
  | echoReqRx (rx : RxU) (spare : Bool) (echoId : BitVec 6) (t1 : BitVec 54) (frac : BitVec 6)
  | echoRspRx (rx : RxU) (spare : Bool) (echoId : BitVec 6) (t2 : BitVec 32) (resid : BitVec 24) (frac : BitVec 6)
      (fwdSkew revSkew : Int)
  | echoExchangeTimeout (port : PortRef) (spare : Bool)
  | timeRx (rx : RxU) (ns : BitVec 48) (gen : BitVec 16) (frac : BitVec 6)
  | rootTimeTimer
  -- Epoch, admission and start-up rows (R25 to R35, R523 to R544).
  | epochArm (ch : BitVec 3) (gen : BitVec 16)
  | epochApply (frac : BitVec 6)
  | epochFrameRx (rx : Rx) (gen : BitVec 16) (applied : BitVec 48)
  | tckReload
  | helloTimer (port : PortRef)
  | helloRx (rx : RxU) (kind : BitVec 4) (domB : Bool) (tier : BitVec 2) (dkey : Word) (stepping : BitVec 8)
      (gen : BitVec 16) (valid : Bool)
  | admissionSlot
  | admitRx (rx : Rx) (unitId : BitVec 20) (port : BitVec 8) (domB : Bool) (tier : BitVec 2) (dkey : Word) (childDist : Bool)
  | powerOnReset
  | supplyFault
  | warmReset
  | perst
  | distResetRelease (root domB : Bool) (tier : BitVec 2) (smba : BitVec 3)
  | distSramInitDone
  | unitReset (porst : Bool)
  | unitResetRelease
  | unitSramInitDone
  -- Health and mirror rows of the faults chapter (R454 to R495).
  | healthRx (rx : Rx) (unitId : BitVec 20) (dist : Bool) (kind : BitVec 7) (code : BitVec 12) (detail : BitVec 24)
  | healthVoteSend (port : PortRef)
  | healthDecay
  | expulsionEvaluate
  | healthReadmit (port : Fin 132)
  | wdogFail (engine : BitVec 3)
  | distMemFatal (mem : BitVec 8)
  | soleRoot
  | rootRopeLost
  | leadHandback
  | fltRecRead (part : Part) (ch : BitVec 3)
  | fltFlush (part : Part)
  | fltClrFirst (part : Part)
  -- Event controller and Lantern rows (R418 to R453).
  | hevtEdge (n : BitVec 7) (level : Bool)
  | evinEdge (i : BitVec 4) (level : Bool)
  | evcAssign
  | claimRead (k : BitVec 3) (ch : BitVec 3)
  | eoiWrite (k : BitVec 3) (src : BitVec 9)
  | cpuFlush (k : BitVec 3)
  | pendRead (part : Part) (ch : BitVec 3) (w : BitVec 4)
  | pendWrite (part : Part) (w : BitVec 4) (be : BitVec 4) (data : Word)
  | pendSet (part : Part) (w : BitVec 4) (be : BitVec 4) (data : Word)
  | maskSet (part : Part) (w : BitVec 4) (be : BitVec 4) (data : Word)
  | maskClr (part : Part) (w : BitVec 4) (be : BitVec 4) (data : Word)
  | holdoffExpiry (part : Part) (g : BitVec 4)
  | lanternEnter (psleep : BitVec 8)
  | lanternExit (psleep : BitVec 8)
  | configurationRequest (msixEn fmask : Bool)
  -- Presence rows (R496 to R522).
  | presencePress
  | presenceRx (rx : Rx) (expiry : BitVec 48) (window : BitVec 16)
  | presenceClose
  | presenceExpiry (part : Part)
  | cfgLockChange (part : Part) (low : Bool)
  | sealBreak
  -- Semaphore, watch and message port rows (R265 to R314).
  | semAdd (req : Req) (sem : BitVec 16) (amount : BitVec 32)
  | semSub (req : Req) (sem : BitVec 16) (amount : BitVec 32)
  | semRead (req : Req) (sem : BitVec 16)
  | semWait (req : Req) (take : Bool) (sem : BitVec 16) (tout n : BitVec 32)
  | wchCancel (req : Req) (obj : BitVec 16) (cls : BitVec 4) (wcore : BitVec 10) (wtag : BitVec 8)
  | memWait (req : Req) (addr : BitVec 45) (n : BitVec 48)
  | snoopWrite (addr : BitVec 45) (be : BitVec 8) (data : BitVec 64)
  | watchTimeout (cls : BitVec 4) (obj : BitVec 16) (core : BitVec 10) (tag : BitVec 8)
  | msgBadOp (req : Req) (op : BitVec 6)
  | responseEmit (ready : BitVec 16)
  | ctxClear
  | ctxClearDone
  | eccUncorrectable (target : EccTarget)
  | scrub (target : ScrubTarget) (correctable : Bool)
  | sumpRead (ch : BitVec 3)
  | semCmdAdd
  | semCmdSub
  | semCmdSet
  | semCmdClrFlags
  | semCmdLoadView
  -- Servo rows (R153 to R192).
  | domSwitch
  | rebase
  | rebaseStep
  | parentSwitch
  | srvModeWrite (manual : Bool)
  | handover (part : Part)
  | handoverTimeout (part : Part)
  | holdoverAgeExpiry
  | distMute
  | acquireTimeout
  | calPeriod
  -- Debug rows (R591 to R594).
  | dbgArm
  | dbgTrigger
  | dbgStop
  | dbgInject
  -- Region taps, capture and Drip rows (R193 to R231).
  | syncFrameSend
  | tapSyncFrameRx (region : BitVec 6) (ns : BitVec 64) (crc : BitVec 8)
  | tapDelayUpdate (region : BitVec 6) (loopUnits : BitVec 16)
  | tapReturnLost (region : BitVec 6)
  | tapResync (region : BitVec 6)
  | tapEnWrite (region : BitVec 6) (en : Bool)
  | regionStopEdge (region : BitVec 6) (stopped : Bool)
  | tapReadReq (region : BitVec 6) (port : BitVec 4)
  | captureEdge (kind : BitVec 2) (idx : BitVec 6) (fall : Bool) (frac : BitVec 6)
  | captureRecordEnter
  | capRecRead (ch : BitVec 3)
  | dripArm (k : BitVec 3)
  | dripStop (k : BitVec 3)
  | dripPulseStart (k : BitVec 3)
  | dripPulseEnd (k : BitVec 3)
  -- Launch and timetable rows (R232 to R264, R500, R504).
  | launchOrigStart (msg : Option LchStart)
  | launchOrigCancel (msg : Option LchCancel)
  | launchReqTimeout (gallery : BitVec 12) (lid : BitVec 16)
  | armRequestRx (rx : Rx) (a : Arm)
  | armBroadcastDist (rx : Rx) (a : Arm)
  | armBroadcastUnit (rx : Rx) (a : Arm)
  | censusRx (rx : Rx) (a : Arm) (refused : Bool)
  | launchCutoffExpiry (gallery : BitVec 12) (lid : BitVec 16)
  | goRelay (rx : Rx) (g : Go)
  | goRx (rx : Rx) (g : Go)
  | abortRxUnit (rx : Rx) (a : Abort)
  | abortRelay (rx : Rx) (a : Abort)
  | launchGuardExpiry (gallery : BitVec 12) (lid : BitVec 16)
  | launchFire
  | launchLatenessJudge
  | launchDeadline
  | lchRecRead (ch : BitVec 3)
  | launchTokenRefill
  | reqTokenRefill (port : Fin 132)
  | ttbInsertCmd (msg : Option TtbInsert)
  | ttbCancelCmd
  | ttbLoadCmd
  | ttbStage
  | ttbAct
  -- Barrier, flow counter, fence and deadlock rows (R315 to R358, R627).
  | barEnter (req : Req) (barrier : BitVec 8)
  | barDeadline (barrier : BitVec 8)
  | barReset
  | barEnWrite (be : BitVec 4) (data : Word)
  | flwProd (req : Req) (pair : BitVec 16) (amount : BitVec 32)
  | flwCons (req : Req) (pair : BitVec 16) (amount : BitVec 32)
  | flwLoadView
  | flwReset
  | fenceSignal (src tag : BitVec 16) (wcount : BitVec 32) (sem : BitVec 16) (amount : BitVec 32)
  | drainReport (src tag delta : BitVec 16)
  | fncTimeout
  | fncDiscard
  | fncLoadView
  | applyChannelReady (ready : Bool)
  | deadlock
  | dlkRearm
  -- Combining rows (R359 to R402).
  | cmbData (req : Req) (buf : BitVec 8) (chunk : BitVec 3) (data : BitVec 64)
  | cmbPost (req : Req) (buf : BitVec 8) (gallery : BitVec 12) (op : BitVec 8) (chunks : BitVec 4) (gseq sigSem : BitVec 16)
      (sigEn notify : Bool)
  | cmbRead (req : Req) (buf : BitVec 8) (chunk : BitVec 3)
  | cmbUpRx (rx : Rx) (k : CmbKey) (op : BitVec 8) (repro : Bool) (payload : List (BitVec 64))
  | accSetGrant
  | substTimeout (port : BitVec 7)
  | cmbDeadlineExpiry (gallery : BitVec 12) (gseq : BitVec 16)
  | cmbDownRxDist (rx : Rx) (k : CmbKey) (op : BitVec 8) (repro : Bool) (status : BitVec 4) (payload : List (BitVec 64))
  | cmbDownRxUnit (rx : Rx) (k : CmbKey) (op : BitVec 8) (repro : Bool) (status : BitVec 4) (payload : List (BitVec 64))
  | ackcmbRx (rx : Rx) (k : CmbKey) (good : Bool)
  | cmbAckTimeout (gallery : BitVec 12) (gseq : BitVec 16) (port : BitVec 7)
  | commitRxDist (rx : Rx) (k : CmbKey)
  | commitRxUnit (rx : Rx) (k : CmbKey)
  | heldCommitRelease
  | cmbUnitDeadline (gallery : BitVec 12)
  | cmbGalStateWrite (be : BitVec 4) (data : Word)
  -- Rope record rows (R394 to R396, R184).
  | substHdr (rx : Rx) (k : RopeKey) (port : BitVec 8) (op : BitVec 8) (repro absent : Bool) (dlen : BitVec 7) (all : Bool)
  | substData (rx : Rx) (k : RopeKey) (payload : List (BitVec 64))
  | substReq (rx : Rx) (k : RopeKey) (port : BitVec 8) (on : Bool)
  | resultRecord (rx : Rx) (k : RopeKey) (op : BitVec 6) (status : BitVec 2) (repro : Bool) (payload : List (BitVec 64))
  | syncRecord (rx : Rx) (k : RopeKey) (epoch : BitVec 16) (valid : Bool)
  | launchOpen (rx : Rx) (k : RopeKey) (target : BitVec 48) (mask : BitVec 64) (tol : BitVec 16) (uid : BitVec 20)
  | launchDecision (rx : Rx) (k : RopeKey) (go : Bool) (reason : BitVec 8)
  | launchCensus (rx : Rx) (k : RopeKey) (port : BitVec 8) (uid : BitVec 20) (refused : Bool)
  | launchReq (rx : Rx) (k : RopeKey) (target : BitVec 48) (mask : BitVec 64) (tol : BitVec 16) (uid : BitVec 20)
  | calibrationRecord (rx : Rx) (k : RopeKey) (rhoUp : BitVec 32) (defUp : BitVec 16) (sigma : BitVec 8)
      (defValid rhoValid upPort : Bool)
  -- Root reference, PTP and timed output rows (R110 to R152).
  | xoFail
  | refClockLoss (n : BitVec 2)
  | refPulseTimeout (n : BitVec 2)
  | refSecondMark (n : BitVec 2) (edge : PpsEdge)
  | sourceQualified (src : BitVec 3)
  | wtrExpiry (src : BitVec 3)
  | switchCommit
  | realign
  | htSecondMark (count0 count1 count2 count3 : Word)
  | ptpAnnounceRx (h : PtpHdr) (ann : PtpAnn)
  | ptpSyncRx (h : PtpHdr) (twoStep : Bool) (origin : PtpTime)
  | ptpFollowUpRx (h : PtpHdr) (origin : PtpTime)
  | ptpDelayReqTimer
  | ptpDelayRespRx (h : PtpHdr) (rxTime : PtpTime) (mine : Bool)
  | ptpActivityTimeout
  | ptpCfgCommit (ch : BitVec 3) (be : BitVec 4) (data : Word)
  | frmoutPulse
  | ppsoutPulseEnd
  | arpRequestRx (target : BitVec 32)
  | ptpDiscardedFrame
  -- Thermal rows (R617, R638).
  | thmSample (k : BitVec 2) (temp : BitVec 12)
  | thmSensorFail (k : BitVec 2)
  | thmClrMax
  -- Register access rows (R545 to R571, R634): channel of the unit's port; at the distributor 0 PCI Express, 1 SMBus.
  | registerWrite (part : Part) (ch : BitVec 3) (addr : BitVec 22) (be : BitVec 4) (data : Word)
  | registerRead (part : Part) (ch : BitVec 3) (addr : BitVec 22)
  | regAccessTimeout (part : Part) (ch : BitVec 3) (write : Bool) (addr : BitVec 22)
  | pageLockRead (part : Part) (ch : BitVec 3) (page : BitVec 10)
  | smbusBlockWrite (addr : BitVec 22) (data : Word) (pecOk : Bool)
  | smbusReadRequest (addr : BitVec 22) (pecOk : Bool)
  | smbusBlockRead
  deriving DecidableEq, Repr

end Sys2Proof
end

