-- ==== Sys2Proof/Decode.lean ====
section
/-! DEFINITION. The command that a word of the opcode table spells, and the command that a 128-bit word on an input lane of the
message port is (R268, R269, R291), with the words that such commands are sent as. -/

namespace Sys2Proof

/-- No row of spec/opcode_table.json gives its command any bits, so no word spells a command. -/
def decodeTableWord (_nbits _w : Nat) : Option Instr := none

/-- The header of a request that arrives on an input lane (R268). -/
def requestHeader (lane : BitVec 4) (m : BitVec 128) : Req :=
  { lane := lane, ctxLo := m.extractLsb' 118 4, reply := m.extractLsb' 108 10, tag := m.extractLsb' 100 8,
    ack := m.getLsbD 99 }

/-- The request that an opcode (R269), a header, TAKE and the operand field [95:0] (R291) spell. A reserved opcode is the row
MSG_BAD_OP. -/
def decodeOperands (op : BitVec 6) (r : Req) (take : Bool) (f : BitVec 96) : Instr :=
  match op.toNat with
  | 0x01 => .semAdd r (f.extractLsb' 80 16) (f.extractLsb' 0 32)
  | 0x02 => .semSub r (f.extractLsb' 80 16) (f.extractLsb' 0 32)
  | 0x03 => .semRead r (f.extractLsb' 80 16)
  | 0x04 => .semWait r take (f.extractLsb' 80 16) (f.extractLsb' 32 32) (f.extractLsb' 0 32)
  | 0x05 => .wchCancel r (f.extractLsb' 80 16) (f.extractLsb' 76 4) (f.extractLsb' 66 10) (f.extractLsb' 58 8)
  | 0x06 => .memWait r (f.extractLsb' 51 45) (f.extractLsb' 0 48)
  | 0x08 => .barEnter r (f.extractLsb' 88 8)
  | 0x0A => .flwProd r (f.extractLsb' 80 16) (f.extractLsb' 0 32)
  | 0x0B => .flwCons r (f.extractLsb' 80 16) (f.extractLsb' 0 32)
  | 0x0C => .cmbData r (f.extractLsb' 88 8) (f.extractLsb' 85 3) (f.extractLsb' 0 64)
  | 0x0D => .cmbPost r (f.extractLsb' 88 8) (f.extractLsb' 76 12) (f.extractLsb' 68 8) (f.extractLsb' 64 4)
      (f.extractLsb' 48 16) (f.extractLsb' 32 16) (f.getLsbD 31) (f.getLsbD 30)
  | 0x0E => .cmbRead r (f.extractLsb' 88 8) (f.extractLsb' 85 3)
  | 0x10 => .launchOrigStart (some ⟨r, f.extractLsb' 80 16, f.extractLsb' 68 12, f.extractLsb' 48 16, f.extractLsb' 0 48⟩)
  | 0x11 => .launchOrigCancel (some ⟨r, f.extractLsb' 80 16, f.extractLsb' 68 12⟩)
  | 0x12 => .ttbInsertCmd (some ⟨r, f.extractLsb' 86 10, f.extractLsb' 83 3, f.extractLsb' 79 4, f.extractLsb' 48 28,
      f.extractLsb' 0 48⟩)
  | _ => .msgBadOp r op

/-- The request that arrives on an input lane. -/
def decodeRequest (lane : BitVec 4) (m : BitVec 128) : Instr :=
  decodeOperands (m.extractLsb' 122 6) (requestHeader lane m) (m.getLsbD 98) (m.extractLsb' 0 96)

/-- Codes of R269 that name no request. -/
def requestOpReserved (op : BitVec 6) : Bool :=
  [0x00, 0x07, 0x09, 0x0F].contains op.toNat || decide (0x13 ≤ op.toNat)

/-- A request as its sender sets it: header by R268, reserved bits 0. -/
def requestWord (op : BitVec 6) (r : Req) (take : Bool) (operands : BitVec 96) : BitVec 128 :=
  op ++ r.ctxLo ++ r.reply ++ r.tag ++ BitVec.ofBool r.ack ++ BitVec.ofBool take ++ (0 : BitVec 2) ++ operands

/-- The lane and the word that a message-port command arrives as: none for a command that is no request, and for a MSG_BAD_OP
whose opcode is not reserved. -/
def encodeRequest : Instr → Option (BitVec 4 × BitVec 128)
  | .semAdd r sem amount => some (r.lane, requestWord 0x01 r false (sem ++ (0 : BitVec 48) ++ amount))
  | .semSub r sem amount => some (r.lane, requestWord 0x02 r false (sem ++ (0 : BitVec 48) ++ amount))
  | .semRead r sem => some (r.lane, requestWord 0x03 r false (sem ++ (0 : BitVec 80)))
  | .semWait r take sem tout n => some (r.lane, requestWord 0x04 r take (sem ++ (0 : BitVec 16) ++ tout ++ n))
  | .wchCancel r obj cls wcore wtag =>
    some (r.lane, requestWord 0x05 r false (obj ++ cls ++ wcore ++ wtag ++ (0 : BitVec 58)))
  | .memWait r addr n => some (r.lane, requestWord 0x06 r false (addr ++ (0 : BitVec 3) ++ n))
  | .barEnter r barrier => some (r.lane, requestWord 0x08 r false (barrier ++ (0 : BitVec 88)))
  | .flwProd r pair amount => some (r.lane, requestWord 0x0A r false (pair ++ (0 : BitVec 48) ++ amount))
  | .flwCons r pair amount => some (r.lane, requestWord 0x0B r false (pair ++ (0 : BitVec 48) ++ amount))
  | .cmbData r buf chunk data => some (r.lane, requestWord 0x0C r false (buf ++ chunk ++ (0 : BitVec 21) ++ data))
  | .cmbPost r buf gallery op chunks gseq sigSem sigEn notify =>
    some (r.lane, requestWord 0x0D r false (buf ++ gallery ++ op ++ chunks ++ gseq ++ sigSem ++ BitVec.ofBool sigEn ++
      BitVec.ofBool notify ++ (0 : BitVec 30)))
  | .cmbRead r buf chunk => some (r.lane, requestWord 0x0E r false (buf ++ chunk ++ (0 : BitVec 85)))
  | .launchOrigStart (some x) => some (x.req.lane, requestWord 0x10 x.req false (x.lid ++ x.gallery ++ (0 : BitVec 4) ++
      x.tol ++ x.target))
  | .launchOrigCancel (some x) => some (x.req.lane, requestWord 0x11 x.req false (x.lid ++ x.gallery ++ (0 : BitVec 68)))
  | .ttbInsertCmd (some x) => some (x.req.lane, requestWord 0x12 x.req false (x.index ++ x.kind ++ x.target ++
      (0 : BitVec 3) ++ x.param ++ x.due))
  | .msgBadOp r op => if requestOpReserved op then some (r.lane, requestWord op r false 0) else none
  | _ => none

end Sys2Proof
end

