-- ==== Sys2Proof/Config.lean ====
section
/-! DEFINITION. What an implementation fixes: the unit's configuration (R4, R574), the distributor's straps (R527),
and the values the spec leaves open, each an opaque constant applied to what it may depend on. -/



namespace Sys2Proof.Machine

/-- The unit's configuration, fixed when the RTL is configured and reported in PAGE_CAP (R4, R574, R576). -/
structure UnitCfg where
  /-- true for W64L, false for W1024 -/
  w64 : Bool
  cores : Nat
  procs : Nat
  regions : Nat
  channels : Nat
  tapPorts : Nat
  build : Word
  deriving DecidableEq, Repr

/-- The straps a distributor samples on leaving reset (R527). -/
structure Straps where
  root : Bool
  domB : Bool
  tier : BitVec 2
  smba : BitVec 3
  deriving DecidableEq, Repr

/-- Which part a register file belongs to, with what fixes its reset values. -/
inductive Kind where
  | unit (c : UnitCfg)
  | dist (st : Straps)
  deriving DecidableEq, Repr

/-- The modelled unit: a full-size W1024 (assumption 2). -/
def UnitCfg.w1024 : UnitCfg :=
  { w64 := false, cores := 1024, procs := 8, regions := 64, channels := 8, tapPorts := 16, build := 0 }

/-- The straps of the modelled distributor at reset: a root of domain A (assumption 3). -/
def Straps.rootA : Straps := { root := true, domB := false, tier := 0, smba := 0 }

/-! ## Free values: the spec gives the quantity, not the number (assumption 10). Where the machine may hold more than the
operands show, the first argument is the index of the free value, a counter that each use advances (assumption 5). -/

/-- Whether a quotient whose rounding the spec leaves open rounds up: the index (0 where the operands decide alone), the
numerator and the denominator. -/
opaque Config.roundsUp : Nat → Int → Nat → Bool

/-- x / n as a whole number: exact where n divides x, and otherwise one of the two nearest. -/
def Config.rounded (i : Nat) (x : Int) (n : Nat) : Int :=
  x / (n : Int) + (if x % (n : Int) ≠ 0 ∧ Config.roundsUp i x n = true then 1 else 0)

/-- π · 10^30. -/
def Config.piE30 : Nat := 3141592653589793238462643383280

/-- The increment of the servo's integrator for one sample, in control-word steps of 2^-40: wn² · e · ts with
wn = 2π·BW/2.482 (R158). Arguments: the index, BW in Hz, ts in ns, e in 2^-10 ns. -/
def Config.integStep (i bw ts : Nat) (e : Int) : Int :=
  Config.rounded i ((4 * Config.piE30 ^ 2 * bw ^ 2 * ts * 2 ^ 30 * 10 ^ 6 : Nat) * e) (2482 ^ 2 * 10 ^ 78)

/-- The proportional term 2 · zeta · wn · e of R158 with zeta 1, in control-word steps. Arguments: the index, BW in Hz, e in
2^-10 ns. -/
def Config.propTerm (i bw : Nat) (e : Int) : Int :=
  Config.rounded i ((4 * Config.piE30 * bw * 2 ^ 30 * 1000 : Nat) * e) (2482 * 10 ^ 39)

/-- The phase that a reference's last two second marks predict for the next, where they differ (R121): last, one before. -/
opaque Config.phasePred : Nat → Int → Int → Int

/-- Gains of the root's PI loop at a bandwidth in mHz, in 2^-32 control-word steps for 2^-6 ns of error, less 1: R127 gives the
bandwidth and no gain. -/
opaque Config.rootKi : Nat → Nat
opaque Config.rootKp : Nat → Nat

/-- Increment and proportional term of the root servo (R127): index, bandwidth in mHz, e in 2^-6 ns; control-word steps. A phase
that grows shows TCLK fast, so a positive error lowers the word. -/
def Config.rootInteg (i bw : Nat) (e : Int) : Int := Config.rounded i (-(((Config.rootKi bw + 1 : Nat) : Int) * e)) (2 ^ 32)
def Config.rootProp (i bw : Nat) (e : Int) : Int := Config.rounded i (-(((Config.rootKp bw + 1 : Nat) : Int) * e)) (2 ^ 32)

/-- The PTP slave's filtered offset (R127): the last filtered offset and the new raw one, units of 2^-6 ns. -/
opaque Config.ptpFilter : Nat → Int → Int → Int

/-- A chunk that a combining payload shorter than its operation's chunk count lacks; the spec gives such a payload no
value. The argument is the chunk's place. -/
opaque Config.missingChunk : Nat → BitVec 64

/-- TOLERANCE of a local launch (R256, R261): the spec states none. -/
opaque Config.localTol : Nat

end Sys2Proof.Machine
end

