-- ==== Sys2Proof/Machine/Tab.lean ====
section
/-! DEFINITION. Sparse tables in one canonical form, and the bit-field helpers.
A table is a list of (key, value) pairs with strictly rising keys and no pair whose value is the key's default:
equal tables are equal data. It holds register files, semaphore arrays and per-port records. -/

namespace Sys2Proof.Machine

/-- A sparse table: key and value, keys rising, no default value listed. -/
abbrev Tab (α : Type) := List (Nat × α)

/-- The value at key `k`; `d` where the table lists none. -/
def tabGet {α : Type} (d : α) (k : Nat) : Tab α → α
  | [] => d
  | (k', v) :: t => if k' = k then v else tabGet d k t

/-- The table with value `v` listed at key `k`, keys rising. -/
def tabPut {α : Type} (k : Nat) (v : α) : Tab α → Tab α
  | [] => [(k, v)]
  | (k', v') :: t =>
    if k' < k then (k', v') :: tabPut k v t
    else if k' = k then (k, v) :: t
    else (k, v) :: (k', v') :: t

/-- The table with value `v` at key `k`, kept canonical for the default `d`: writing the default removes the entry. -/
def tabSet {α : Type} [DecidableEq α] (d : α) (k : Nat) (v : α) (t : Tab α) : Tab α :=
  if v = d then t.filter fun x => x.1 != k else tabPut k v t

/-- Every key of the table is at least `lo`, keys rise, and no listed value is the default of its key. -/
def tabWfFrom {α : Type} [DecidableEq α] (d : Nat → α) (lo : Nat) : Tab α → Bool
  | [] => true
  | (k, v) :: t => decide (lo ≤ k) && decide (v ≠ d k) && tabWfFrom d (k + 1) t

/-- The canonical form of a table. -/
def tabWf {α : Type} [DecidableEq α] (d : Nat → α) (t : Tab α) : Bool := tabWfFrom d 0 t

/-- Bits `[lo + w - 1 : lo]` of a register word as a number. -/
def fld (x : BitVec 32) (lo w : Nat) : Nat := (x.toNat >>> lo) % 2 ^ w

/-- The word `x` with bits `[lo + w - 1 : lo]` replaced by the low `w` bits of `v`. -/
def setFld (x : BitVec 32) (lo w v : Nat) : BitVec 32 :=
  let m : BitVec 32 := (BitVec.ofNat 32 (2 ^ w - 1)) <<< lo
  (x &&& ~~~m) ||| ((BitVec.ofNat 32 (v % 2 ^ w)) <<< lo)

/-- Bit `i` of a word. -/
def bitOf (x : BitVec 32) (i : Nat) : Bool := x.toNat.testBit i

/-- The upper and lower halves of a 64-bit quantity. -/
def hi32 (x : BitVec 64) : BitVec 32 := x.extractLsb' 32 32
def lo32 (x : BitVec 64) : BitVec 32 := x.extractLsb' 0 32

/-- A signed number read from the low `w` bits of `n`. -/
def sext (w n : Nat) : Int :=
  let m := n % 2 ^ w
  if m < 2 ^ (w - 1) then (m : Int) else (m : Int) - (2 ^ w : Nat)

/-- The low `w` bits of a signed number, as a number. -/
def wrapBits (w : Nat) (i : Int) : Nat := (i % ((2 ^ w : Nat) : Int)).toNat

/-- A signed number held to the range −`m` to `m`. -/
def clampInt (m i : Int) : Int := if i > m then m else if i < -m then -m else i

/-- A signed number as a 32-bit two's-complement word. -/
def wordOfInt (i : Int) : BitVec 32 := BitVec.ofNat 32 (wrapBits 32 i)

/-- Add one, stopping at `m`. -/
def satInc (m n : Nat) : Nat := if n < m then n + 1 else m

/-- Division of a signed number rounding toward zero. -/
def tdivInt (a b : Int) : Int := Int.tdiv a b

/-- Concatenate a list of (width, value) fields, most significant first, into a number. -/
def packBits : List (Nat × Nat) → Nat
  | [] => 0
  | (w, v) :: t => ((v % 2 ^ w) <<< (t.foldl (fun n f => n + f.1) 0)) ||| packBits t

/-- A 64-bit frame body from its fields, most significant first; the fields are padded with zeros at the bottom. -/
def bodyOf (fs : List (Nat × Nat)) : BitVec 64 :=
  let w := fs.foldl (fun n f => n + f.1) 0
  BitVec.ofNat 64 (packBits fs <<< (64 - w))

/-- Bits `[hi : lo]` of a frame body, numbered as R71 numbers them (the body is bits 79 to 16 of the frame). -/
def bodyBits (b : BitVec 64) (hi lo : Nat) : Nat := (b.toNat >>> (lo - 16)) % 2 ^ (hi - lo + 1)

/-- The first element of a list that passes a test, with its place. -/
def findIdx? {α : Type} (p : α → Bool) : Nat → List α → Option (Nat × α)
  | _, [] => none
  | i, x :: xs => if p x then some (i, x) else findIdx? p (i + 1) xs

end Sys2Proof.Machine
end

