-- ==== Sys2Proof/Machine/Arith.lean ====
section
/-! DEFINITION. The arithmetic of the combining tree: operations, floating-point formats, superaccumulators and their packed
form (R384 to R393). Payloads are lists of 64-bit chunks; lanes are numbers of the lane's width. -/

namespace Sys2Proof.Machine

/-! ## Payloads and lanes (R385) -/

/-- Chunk `i` of a payload; one that a payload shorter than its operation lacks is a free value. -/
def chunkAt (cs : List (BitVec 64)) (i : Nat) : BitVec 64 := cs.getD i (Config.missingChunk i)

/-- The first `n` chunks of a payload as one number, most significant chunk first. -/
def joinChunks (n : Nat) (cs : List (BitVec 64)) : Nat :=
  (List.range n).foldl (fun a i => a * 2 ^ 64 + (chunkAt cs i).toNat) 0

/-- A number as `n` chunks. -/
def toChunks (n x : Nat) : List (BitVec 64) := (List.range n).map fun i => BitVec.ofNat 64 (x >>> (64 * (n - 1 - i)))

/-- The `n` lanes of `w` bits of a number, lane 0 most significant. -/
def splitLanes (w n x : Nat) : List Nat := (List.range n).map fun i => (x >>> (w * (n - 1 - i))) % 2 ^ w

/-- Lanes of `w` bits as one number. -/
def joinLanes (w : Nat) (l : List Nat) : Nat := l.foldl (fun a x => a * 2 ^ w + x % 2 ^ w) 0

/-! ## Operations (R384) -/

/-- The operation BARRIER. -/
def opBarrier : Nat := 0x00

/-- Lane width in bits and lane count of an operation with a payload; none for BARRIER and reserved codes. -/
def opLanes (op : Nat) : Option (Nat × Nat) :=
  if [0x01, 0x05, 0x06, 0x07, 0x08, 0x10, 0x11, 0x20, 0x28].contains op then some (32, 16)
  else if [0x02, 0x03, 0x09, 0x0A, 0x0B, 0x0C, 0x0D, 0x0E, 0x0F, 0x16, 0x17, 0x18, 0x19, 0x23].contains op then some (64, 8)
  else if op = 0x04 then some (128, 4)
  else if [0x12, 0x13, 0x14, 0x15, 0x21, 0x22].contains op then some (16, 32)
  else if op = 0x29 ∨ op = 0x2A then some (16, 16)
  else if op = 0x2B then some (64, 2)
  else none

/-- An operation code that is not reserved. -/
def opDefined (op : Nat) : Bool := op == opBarrier || (opLanes op).isSome

/-- Chunks of a unit's contribution and of a result. -/
def opChunks (op : Nat) : Nat := match opLanes op with
  | some (w, n) => w * n / 64
  | none => 0

/-- Fast-mode and exact-mode FP SUM. -/
def opFast (op : Nat) : Bool := decide (0x20 ≤ op) && decide (op ≤ 0x23)
def opExact (op : Nat) : Bool := decide (0x28 ≤ op) && decide (op ≤ 0x2B)

/-! ## Floating-point formats (R385, R387) -/

/-- A binary format: exponent and fraction bits. -/
structure Fmt where
  e : Nat
  m : Nat
  deriving DecidableEq, Repr

def fF32 : Fmt := ⟨8, 23⟩
def fBf16 : Fmt := ⟨8, 7⟩
def fF16 : Fmt := ⟨5, 10⟩
def fF64 : Fmt := ⟨11, 52⟩

/-- The format of an operation's floating-point lanes. -/
def opFmt (op : Nat) : Fmt :=
  if [0x12, 0x13, 0x21, 0x29].contains op then fBf16
  else if [0x14, 0x15, 0x22, 0x2A].contains op then fF16
  else if [0x16, 0x17, 0x23, 0x2B].contains op then fF64
  else fF32

namespace Fp

/-- Sign, and the magnitude bits below it. -/
def sign (f : Fmt) (x : Nat) : Bool := x.testBit (f.e + f.m)
def mag (f : Fmt) (x : Nat) : Nat := x % 2 ^ (f.e + f.m)
/-- Magnitude bits of an infinity. -/
def infMag (f : Fmt) : Nat := (2 ^ f.e - 1) <<< f.m
def isNan (f : Fmt) (x : Nat) : Bool := decide (infMag f < mag f x)
def isInf (f : Fmt) (x : Nat) : Bool := mag f x == infMag f
/-- The canonical NaN (R387). -/
def nan (f : Fmt) : Nat := infMag f + 2 ^ (f.m - 1)
/-- The value with a sign. -/
def withSign (f : Fmt) (s : Bool) (m : Nat) : Nat := if s then 2 ^ (f.e + f.m) + m else m

/-- The magnitude of a finite value in units of the format's least subnormal. -/
def units (f : Fmt) (x : Nat) : Nat :=
  let ex := mag f x >>> f.m
  let fr := x % 2 ^ f.m
  if ex = 0 then fr else (2 ^ f.m + fr) <<< (ex - 1)

/-- The same with its sign. -/
def toUnits (f : Fmt) (x : Nat) : Int := if sign f x then -(units f x : Int) else (units f x : Int)

/-- Magnitude bits of `n` · 2^-k least subnormals, rounded to nearest, ties to even; an overflow gives an infinity
(R389, R393). -/
def roundMag (f : Fmt) (k n : Nat) : Nat :=
  let len := if n = 0 then 0 else Nat.log2 n + 1
  let sh := max k (len - (f.m + 1))
  let q := n >>> sh
  let r := n % 2 ^ sh
  let half := if sh = 0 then 0 else 2 ^ (sh - 1)
  let up := sh ≠ 0 ∧ (half < r ∨ (r = half ∧ q % 2 = 1))
  let q := if up then q + 1 else q
  let spill := q = 2 ^ (f.m + 1)
  let sh := if spill then sh + 1 else sh
  let q := if spill then q / 2 else q
  let bits := if q < 2 ^ f.m then q else ((sh - k + 1) <<< f.m) + (q - 2 ^ f.m)
  min bits (infMag f)

/-- One rounded addition (R389). -/
def add (f : Fmt) (x y : Nat) : Nat :=
  if isNan f x || isNan f y then nan f
  else if isInf f x || isInf f y then
    if isInf f x && isInf f y && sign f x != sign f y then nan f
    else if isInf f x then x else y
  else
    let s := toUnits f x + toUnits f y
    if s = 0 then (if sign f x && sign f y then withSign f true 0 else 0)
    else withSign f (decide (s < 0)) (roundMag f 0 s.natAbs)

/-- A number whose order is the order of the values, −0 below +0 (R387). -/
def key (f : Fmt) (x : Nat) : Int := if sign f x then -(mag f x : Int) - 1 else (mag f x : Int)

/-- FMAX, or FMIN (R387). -/
def pick (f : Fmt) (max : Bool) (x y : Nat) : Nat :=
  if isNan f x || isNan f y then nan f
  else if (if max then key f y ≤ key f x else key f x ≤ key f y) then x else y

end Fp

/-- ARGMAX, or ARGMIN, of two pairs: value in [63:32], index in [31:0] (R387). -/
def argPick (max : Bool) (x y : Nat) : Nat :=
  let vx := x / 2 ^ 32
  let vy := y / 2 ^ 32
  let low := if x % 2 ^ 32 ≤ y % 2 ^ 32 then x else y
  match Fp.isNan fF32 vx, Fp.isNan fF32 vy with
  | true, true => low
  | true, false => x
  | false, true => y
  | false, false =>
    if Fp.key fF32 vx = Fp.key fF32 vy then low
    else if (if max then Fp.key fF32 vy < Fp.key fF32 vx else Fp.key fF32 vx < Fp.key fF32 vy) then x else y

/-- A lane as it enters a combination: NaNs of the compare operations become canonical (R387). -/
def laneIn (op x : Nat) : Nat :=
  if 0x10 ≤ op ∧ op ≤ 0x17 then (if Fp.isNan (opFmt op) x then Fp.nan (opFmt op) else x)
  else if op = 0x18 ∨ op = 0x19 then
    (if Fp.isNan fF32 (x / 2 ^ 32) then Fp.nan fF32 * 2 ^ 32 + x % 2 ^ 32 else x)
  else x

/-- Combine two lanes of an operation other than FP SUM (R384, R386, R387); `w` is the lane width. -/
def laneOp (op w x y : Nat) : Nat :=
  let sx := sext w x
  let sy := sext w y
  if 0x01 ≤ op ∧ op ≤ 0x04 then (x + y) % 2 ^ w
  else if op = 0x05 ∨ op = 0x09 then (if sy ≤ sx then x else y)
  else if op = 0x06 ∨ op = 0x0A then max x y
  else if op = 0x07 ∨ op = 0x0B then (if sx ≤ sy then x else y)
  else if op = 0x08 ∨ op = 0x0C then min x y
  else if op = 0x0D then x &&& y
  else if op = 0x0E then x ||| y
  else if op = 0x0F then x ^^^ y
  else if op = 0x18 then argPick true x y
  else if op = 0x19 then argPick false x y
  else Fp.pick (opFmt op) (op % 2 == 0) x y

/-! ## Fast-mode sums (R388) -/

/-- Entry of a value in the slots of a lane. -/
def fastEnter (f : Fmt) : List (Option Nat) → Nat → List (Option Nat)
  | [], x => [some x]
  | none :: t, x => some x :: t
  | some y :: t, x => none :: fastEnter f t (Fp.add f y x)

/-- The partial of a lane on completion. -/
def fastDone (f : Fmt) (slots : List (Option Nat)) : Nat :=
  (slots.foldl (fun (r : Option Nat) s => match s, r with
    | some v, none => some v
    | some v, some a => some (Fp.add f v a)
    | none, r => r) none).getD 0

/-- The sum of a lane's values in their order of entry. -/
def fastSum (f : Fmt) (xs : List Nat) : Nat := fastDone f (xs.foldl (fastEnter f) [])

/-! ## Exact-mode sums (R390 to R393) -/

/-- A superaccumulator lane. -/
structure SumAcc where
  int : Int
  nan : Bool
  pinf : Bool
  ninf : Bool
  allnz : Bool
  deriving DecidableEq, Repr

/-- Width of an accumulator, and the LSB weight's distance below the format's least subnormal. -/
def accWidth (op : Nat) : Nat := if op = 0x2B then 2176 else 320
def accShift (op : Nat) : Nat := if op = 0x29 then 16 else if op = 0x2A then 125 else 0

/-- A value of a unit's contribution as an accumulator (R391). -/
def accOf (op x : Nat) : SumAcc :=
  let f := opFmt op
  let s := Fp.sign f x
  if Fp.isNan f x then ⟨0, true, false, false, false⟩
  else if Fp.isInf f x then ⟨0, false, !s, s, false⟩
  else if Fp.mag f x = 0 then ⟨0, false, false, false, s⟩
  else ⟨Fp.toUnits f x * (2 ^ accShift op : Nat), false, false, false, false⟩

/-- Combine two accumulators (R391). -/
def accAdd (a b : SumAcc) : SumAcc :=
  ⟨a.int + b.int, a.nan || b.nan, a.pinf || b.pinf, a.ninf || b.ninf, a.allnz && b.allnz⟩

/-- The rounded value of a lane (R393). -/
def accRound (op : Nat) (a : SumAcc) : Nat :=
  let f := opFmt op
  if a.nan || (a.pinf && a.ninf) then Fp.nan f
  else if a.pinf then Fp.infMag f
  else if a.ninf then Fp.withSign f true (Fp.infMag f)
  else if a.int = 0 then (if a.allnz then Fp.withSign f true 0 else 0)
  else Fp.withSign f (decide (a.int < 0)) (Fp.roundMag f (accShift op) a.int.natAbs)

/-- FLAGS of an accumulator, NAN highest. -/
def accFlags (a : SumAcc) : Nat :=
  (if a.nan then 8 else 0) + (if a.pinf then 4 else 0) + (if a.ninf then 2 else 0) + (if a.allnz then 1 else 0)
def accWithFlags (int : Int) (fl : Nat) : SumAcc := ⟨int, fl.testBit 3, fl.testBit 2, fl.testBit 1, fl.testBit 0⟩

/-- Trailing zero bits of a number, at most `fuel` of them. -/
def tzCount : Nat → Nat → Nat
  | 0, _ => 0
  | k + 1, n => if n % 2 = 0 then tzCount k (n / 2) + 1 else 0

/-- Count of trailing zero bits of INT, 0 for 0. -/
def accTz (op : Nat) (a : SumAcc) : Nat := if a.int = 0 then 0 else tzCount (accWidth op) a.int.natAbs

/-- V of the window form, and whether it fits (R392). -/
def accV (op : Nat) (a : SumAcc) : Int := a.int / (2 ^ accTz op a : Nat)
def accFits (op : Nat) (a : SumAcc) : Bool := decide (-(2 ^ 47 : Nat) ≤ accV op a) && decide (accV op a < (2 ^ 47 : Nat))

/-- The whole accumulator as frames. -/
def accWide (op : Nat) (a : SumAcc) : List (BitVec 64) :=
  let w := accWidth op
  toChunks (w / 64) ((accFlags a) <<< (w - 4) + wrapBits (w - 4) a.int)

/-- The window form of a lane. -/
def accWindow (op : Nat) (a : SumAcc) : BitVec 64 :=
  BitVec.ofNat 64 (packBits [(4, accFlags a), (12, accTz op a), (48, wrapBits 48 (accV op a))])

/-- The packed form of a partial (R392). -/
def accPack (op : Nat) (l : List SumAcc) : List (BitVec 64) :=
  let wide := l.map fun a => !accFits op a
  let desc := (List.range 16).foldl (fun n i => if wide.getD i false then n + 2 ^ (48 + i) else n) 0
  let lanes := l.flatMap fun a => if accFits op a then [accWindow op a] else accWide op a
  if op ≠ 0x2B ∧ wide.all id then lanes else BitVec.ofNat 64 desc :: lanes

/-- Read `n` wide lanes, or lanes whose form `wide` gives, from the frames that follow a descriptor. -/
def accUnpackFrom (op : Nat) (wide : Nat → Bool) : Nat → Nat → List (BitVec 64) → List SumAcc
  | _, 0, _ => []
  | i, n + 1, fs =>
    let k := accWidth op / 64
    if wide i then
      let x := joinChunks k fs
      accWithFlags (sext (accWidth op - 4) x) (x >>> (accWidth op - 4)) :: accUnpackFrom op wide (i + 1) n (fs.drop k)
    else
      let x := (chunkAt fs 0).toNat
      accWithFlags (sext 48 x * (2 ^ ((x >>> 48) % 4096) : Nat)) (x >>> 60) :: accUnpackFrom op wide (i + 1) n (fs.drop 1)

/-- Lanes of an operation. -/
def opLaneCount (op : Nat) : Nat := match opLanes op with
  | some (_, n) => n
  | none => 0

/-- The accumulators of a packed payload (R392). -/
def accUnpack (op : Nat) (fs : List (BitVec 64)) : List SumAcc :=
  let n := opLaneCount op
  if op ≠ 0x2B ∧ fs.length = 80 then accUnpackFrom op (fun _ => true) 0 n fs
  else
    let d := (chunkAt fs 0).toNat
    accUnpackFrom op (fun i => d.testBit (48 + i)) 0 n (fs.drop 1)

/-! ## Combining contributions in their order of acceptance -/

/-- The accumulators of one contribution (R391, R392). -/
def accsOf (op : Nat) (fromUnit : Bool) (p : List (BitVec 64)) : List SumAcc :=
  if fromUnit then (splitLanes ((opLanes op).getD (1, 0)).1 (opLaneCount op) (joinChunks (opChunks op) p)).map (accOf op)
  else accUnpack op p

/-- The sum of the accumulators of some contributions. -/
def accTotal (op : Nat) : List (Bool × List (BitVec 64)) → List SumAcc
  | [] => []
  | [c] => accsOf op c.1 c.2
  | c :: t => List.zipWith accAdd (accsOf op c.1 c.2) (accTotal op t)

/-- The lanes of one contribution (R386: the slots of a unit's saturating sum are sign-extended). -/
def lanesOf (op : Nat) (fromUnit : Bool) (p : List (BitVec 64)) : List Nat :=
  let w := ((opLanes op).getD (1, 0)).1
  let l := splitLanes w (opLaneCount op) (joinChunks (opChunks op) p)
  if fromUnit && (op == 0x03 || op == 0x04) then l.map fun x => wrapBits w (sext (w / 2) x) else l.map (laneIn op)

/-- The lane values of every contribution, lane by lane, in order. -/
def laneColumns (op : Nat) (cs : List (Bool × List (BitVec 64))) : List (List Nat) :=
  (List.range (opLaneCount op)).map fun i => cs.map fun c => (lanesOf op c.1 c.2).getD i 0

/-- A lane's partial from its values in order. -/
def laneFold (op w : Nat) : List Nat → Nat
  | [] => 0
  | x :: t => if opFast op then fastSum (opFmt op) (x :: t) else t.foldl (laneOp op w) x

/-- Lanes of the combination of some contributions, for an operation other than exact mode. -/
def combineLanes (op : Nat) (cs : List (Bool × List (BitVec 64))) : List Nat :=
  let w := ((opLanes op).getD (1, 0)).1
  (laneColumns op cs).map (laneFold op w)

/-- The payload of a partial (R366 to R371, R388, R392). -/
def partialPayload (op : Nat) (cs : List (Bool × List (BitVec 64))) : List (BitVec 64) :=
  if op = opBarrier then []
  else if opExact op then accPack op (accTotal op cs)
  else toChunks (opChunks op) (joinLanes ((opLanes op).getD (1, 0)).1 (combineLanes op cs))

/-- A saturating sum's result slot (R386). -/
def satSlot (op x : Nat) : Nat :=
  let w := if op = 0x03 then 32 else 64
  let v := sext (2 * w) x
  let hi : Int := ((2 ^ (w - 1) - 1 : Nat) : Int)
  let c := if hi < v then hi else if v < -hi - 1 then -hi - 1 else v
  wrapBits w c + (if c = v then 0 else 2 ^ w)

/-- The payload of the lead root's result (R373, R386, R393). -/
def resultPayload (op : Nat) (cs : List (Bool × List (BitVec 64))) : List (BitVec 64) :=
  let w := ((opLanes op).getD (1, 0)).1
  if op = opBarrier then []
  else if opExact op then toChunks (opChunks op) (joinLanes w ((accTotal op cs).map (accRound op)))
  else if op = 0x03 ∨ op = 0x04 then toChunks (opChunks op) (joinLanes w ((combineLanes op cs).map (satSlot op)))
  else toChunks (opChunks op) (joinLanes w (combineLanes op cs))

end Sys2Proof.Machine
end

