-- ==== Sys2Proof/Machine/Flags.lean ====
section
/-! DEFINITION. The happenings a part logs: the code of R462 (owning page and place in its list) and the kind of R454,
from the fault tables of the chapters and R647; and the events each page names (R575, R598). -/

namespace Sys2Proof.Machine

/-- A happening: the page that owns its code, its place in that page's list (R462) and its kind (R454: 0 corrected event,
1 alarm, 2 fault, 3 fatal). -/
structure Hap where
  page : Nat
  idx : Nat
  kind : Nat
  deriving DecidableEq, Repr

/-- CODE of a happening (R462). -/
def hapCode (h : Hap) : BitVec 12 := BitVec.ofNat 12 (h.page * 64 + h.idx)

/-! Link happenings have one place in the lists of DOMA, DOMB and the port pages; their page is that of the port. -/

def lkLaneSwap : Hap := ⟨0, 0, 0⟩
def lkSwapBlocked : Hap := ⟨0, 1, 2⟩
def lkSpareLost : Hap := ⟨0, 2, 2⟩
def lkTrainFail : Hap := ⟨0, 3, 2⟩
def lkLinkDead : Hap := ⟨0, 4, 2⟩
def lkEchoLost : Hap := ⟨0, 5, 2⟩
def lkTimeMismatch : Hap := ⟨0, 6, 2⟩
def lkAdmitWait : Hap := ⟨0, 7, 1⟩
/-- The unit places DKEY_MISMATCH at 8, the distributor at 10 of the port pages (R462). -/
def lkRopeSameDomain : Hap := ⟨0, 8, 2⟩
def lkRopeTierMismatch : Hap := ⟨0, 9, 2⟩
def lkDkeyMismatchDist : Hap := ⟨0, 10, 1⟩
def lkDkeyMismatchUnit : Hap := ⟨0, 8, 1⟩
def lkEpochMismatch : Hap := ⟨0, 9, 2⟩
def lkUnitIdSplit : Hap := ⟨0, 10, 2⟩

/-! Happenings of the unit's pages. -/

def uLimClamp : Hap := ⟨0x02, 0, 2⟩
def uServoUnlock : Hap := ⟨0x02, 1, 2⟩
def uServoInputLost : Hap := ⟨0x02, 2, 2⟩
def uDomainDisagree : Hap := ⟨0x02, 3, 1⟩
def uHandover : Hap := ⟨0x02, 4, 0⟩
def uHandoverCoarse : Hap := ⟨0x02, 5, 2⟩
def uSwitchRefused : Hap := ⟨0x02, 6, 2⟩
def uRebaseDone : Hap := ⟨0x02, 7, 0⟩
def uHoldoverEntered : Hap := ⟨0x02, 8, 2⟩
def uHoldoverExit : Hap := ⟨0x02, 9, 0⟩
def uHoldShort : Hap := ⟨0x02, 10, 2⟩
def uHoldoverAge : Hap := ⟨0x02, 11, 2⟩
def uTapFault : Hap := ⟨0x05, 0, 2⟩
def uTapRange : Hap := ⟨0x05, 1, 2⟩
def uTapLost : Hap := ⟨0x05, 2, 2⟩
def uTapResync : Hap := ⟨0x05, 3, 0⟩
def uCapOverflow : Hap := ⟨0x06, 0, 2⟩
def uDripRefused : Hap := ⟨0x07, 0, 2⟩
def uDripBusy : Hap := ⟨0x07, 1, 2⟩
def uDripAborted : Hap := ⟨0x07, 2, 2⟩
def uLaunchRefused : Hap := ⟨0x08, 0, 2⟩
def uLaunchReqLost : Hap := ⟨0x08, 1, 2⟩
def uLaunchMissed : Hap := ⟨0x08, 2, 2⟩
def uLaunchLate : Hap := ⟨0x08, 3, 0⟩
def uLaunchDeadline : Hap := ⟨0x08, 4, 2⟩
def uLaunchTapInvalid : Hap := ⟨0x08, 5, 2⟩
def uFireWrap : Hap := ⟨0x08, 6, 2⟩
def uLchRecOverflow : Hap := ⟨0x08, 7, 2⟩
def uLaunchSplit : Hap := ⟨0x08, 8, 2⟩
def uTtbRefused : Hap := ⟨0x09, 0, 2⟩
def uTtbLate : Hap := ⟨0x09, 1, 2⟩
def uSemSat : Hap := ⟨0x0A, 0, 1⟩
def uObjRetired : Hap := ⟨0x0A, 1, 2⟩
def uWchFull : Hap := ⟨0x0B, 0, 2⟩
def uWatchTimeout : Hap := ⟨0x0B, 1, 2⟩
def uBarLap : Hap := ⟨0x0C, 0, 2⟩
def uBarDeadline : Hap := ⟨0x0C, 1, 2⟩
def uBarMemberLost : Hap := ⟨0x0C, 2, 1⟩
def uBarAborted : Hap := ⟨0x0C, 3, 2⟩
def uBarHallRefused : Hap := ⟨0x0C, 4, 2⟩
def uBarCfgErr : Hap := ⟨0x0C, 5, 2⟩
def uFlwOver : Hap := ⟨0x0D, 0, 2⟩
def uFlwUnder : Hap := ⟨0x0D, 1, 2⟩
def uFlwMisalign : Hap := ⟨0x0D, 2, 2⟩
def uFncOverflow : Hap := ⟨0x0E, 0, 2⟩
def uFncTimeout : Hap := ⟨0x0E, 1, 2⟩
def uFncDiscard : Hap := ⟨0x0E, 2, 2⟩
def uCmbRefused : Hap := ⟨0x0F, 0, 2⟩
def uCmbDeadline : Hap := ⟨0x0F, 1, 2⟩
def uCmbCfgErr : Hap := ⟨0x0F, 2, 2⟩
def uEvcLostset : Hap := ⟨0x10, 0, 2⟩
def uEvcCfgErr : Hap := ⟨0x10, 1, 2⟩
def uEvcUnrouted : Hap := ⟨0x10, 2, 2⟩
def uNestOverflow : Hap := ⟨0x10, 3, 2⟩
def uEoiErr : Hap := ⟨0x10, 4, 2⟩
def uLtnWake : Hap := ⟨0x11, 0, 0⟩
def uDeadlock : Hap := ⟨0x12, 0, 2⟩
def uPresenceDenied : Hap := ⟨0x13, 0, 2⟩
def uRegTimeout : Hap := ⟨0x13, 1, 2⟩
def uPresenceOpen : Hap := ⟨0x14, 0, 0⟩
def uPresenceLocked : Hap := ⟨0x14, 1, 1⟩
def uPrwWrite : Hap := ⟨0x14, 2, 0⟩
def uLimSuppress : Hap := ⟨0x14, 3, 2⟩
def uLimStop : Hap := ⟨0x14, 4, 2⟩
def uReloadDenied : Hap := ⟨0x14, 5, 2⟩
def uStaleCtx : Hap := ⟨0x15, 0, 2⟩

/-! Happenings of the distributor's pages. -/

def dUnitIdDup : Hap := ⟨0x00, 0, 2⟩
def dEpochRefused : Hap := ⟨0x01, 0, 2⟩
def dRefLos : Hap := ⟨0x02, 0, 2⟩
def dRefFreq : Hap := ⟨0x02, 1, 2⟩
def dRefPhase : Hap := ⟨0x02, 2, 2⟩
def dRefDriftSoft : Hap := ⟨0x02, 3, 1⟩
def dRefDrift : Hap := ⟨0x02, 4, 2⟩
def dDriftSplit : Hap := ⟨0x02, 5, 1⟩
def dDriftUnchecked : Hap := ⟨0x02, 6, 1⟩
def dRefCfgErr : Hap := ⟨0x02, 7, 2⟩
def dRefSwitch : Hap := ⟨0x02, 8, 0⟩
def dSwitchTargetLost : Hap := ⟨0x02, 9, 2⟩
def dLockLost : Hap := ⟨0x02, 10, 2⟩
def dRealignDone : Hap := ⟨0x02, 11, 0⟩
def dRealignRefused : Hap := ⟨0x02, 12, 2⟩
def dRealignAborted : Hap := ⟨0x02, 13, 2⟩
def dRootState : Hap := ⟨0x02, 14, 0⟩
def dHoldoverEntered : Hap := ⟨0x07, 0, 2⟩
def dHoldoverShort : Hap := ⟨0x07, 1, 2⟩
def dFreerunEntered : Hap := ⟨0x07, 2, 2⟩
def dXoFail : Hap := ⟨0x07, 3, 2⟩
def dLimClamp : Hap := ⟨0x09, 0, 2⟩
def dServoUnlock : Hap := ⟨0x09, 1, 2⟩
def dServoInputLost : Hap := ⟨0x09, 2, 2⟩
def dParentDisagree : Hap := ⟨0x09, 3, 1⟩
def dSwitchRefused : Hap := ⟨0x09, 4, 2⟩
def dParentSwitch : Hap := ⟨0x09, 5, 0⟩
def dSrvHoldoverEntered : Hap := ⟨0x09, 6, 2⟩
def dHoldoverExit : Hap := ⟨0x09, 7, 0⟩
def dHoldShort : Hap := ⟨0x09, 8, 2⟩
def dDistMuted : Hap := ⟨0x09, 9, 2⟩
def dDistUnmuted : Hap := ⟨0x09, 10, 0⟩
def dCmbNotMember : Hap := ⟨0x0A, 0, 2⟩
def dCmbPortLost : Hap := ⟨0x0A, 1, 2⟩
def dCmbMemberLost : Hap := ⟨0x0A, 2, 1⟩
def dCmbStale : Hap := ⟨0x0A, 3, 2⟩
def dCmbReproStrict : Hap := ⟨0x0A, 4, 2⟩
def dCmbResilverDone : Hap := ⟨0x0A, 5, 0⟩
def dCmbDeadline : Hap := ⟨0x0A, 6, 2⟩
def dCmbCfgErr : Hap := ⟨0x0A, 7, 2⟩
def dLaunchDup : Hap := ⟨0x0A, 8, 2⟩
def dLaunchNoContext : Hap := ⟨0x0A, 9, 2⟩
def dLaunchSplit : Hap := ⟨0x0A, 10, 2⟩
def dCancelLate : Hap := ⟨0x0A, 11, 0⟩
def dLeadTaken : Hap := ⟨0x0B, 0, 2⟩
def dLeadReturned : Hap := ⟨0x0B, 1, 0⟩
def dRootUnreachable : Hap := ⟨0x0B, 2, 2⟩
def dRootRopeLost : Hap := ⟨0x0B, 3, 2⟩
def dSubtreeLost : Hap := ⟨0x0B, 4, 2⟩
def dHealthWarn : Hap := ⟨0x0C, 0, 1⟩
def dPortExpelled : Hap := ⟨0x0C, 1, 2⟩
def dWouldExpel : Hap := ⟨0x0C, 2, 1⟩
def dPresenceOpen : Hap := ⟨0x0D, 0, 0⟩
def dPresenceClosed : Hap := ⟨0x0D, 1, 0⟩
def dPresenceLocked : Hap := ⟨0x0D, 2, 1⟩
def dPresenceNotReady : Hap := ⟨0x0D, 3, 2⟩
def dSealBroken : Hap := ⟨0x0D, 4, 2⟩
def dPrwWrite : Hap := ⟨0x0D, 5, 0⟩
def dLimReqDrop : Hap := ⟨0x0E, 0, 2⟩
def dEvcLostset : Hap := ⟨0x0F, 0, 2⟩
def dPresenceDenied : Hap := ⟨0x10, 0, 2⟩
def dRegTimeout : Hap := ⟨0x10, 1, 2⟩
def dDistMemFatal : Hap := ⟨0x10, 2, 3⟩
def dWdogFail : Hap := ⟨0x11, 0, 3⟩
def dToutCfgErr : Hap := ⟨0x11, 1, 2⟩
def dCalRank : Hap := ⟨0x12, 0, 2⟩
def dCalMisclose : Hap := ⟨0x12, 1, 2⟩
def dThmWarn : Hap := ⟨0x13, 0, 1⟩
def dThmTrip : Hap := ⟨0x13, 1, 3⟩
def dThmSensorFail : Hap := ⟨0x13, 2, 2⟩

/-! ## Kinds of received reports (R454, R463, R466) -/

/-- The link happenings under a page number. -/
def linkHaps (page : Nat) (l : List Hap) : List Hap := l.map fun h => { h with page := page }

/-- Link happenings of both parts, and those of one part only. -/
def linksBoth : List Hap :=
  [ lkLaneSwap, lkSwapBlocked, lkSpareLost, lkTrainFail,
    lkLinkDead, lkEchoLost, lkTimeMismatch, lkAdmitWait ]
def linksUnit : List Hap := linksBoth ++ [lkDkeyMismatchUnit, lkEpochMismatch, lkUnitIdSplit]
def linksDist : List Hap := linksBoth ++ [lkRopeSameDomain, lkRopeTierMismatch, lkDkeyMismatchDist]

/-- Every happening of the unit and of the distributor (R462). -/
def unitHaps : List Hap :=
  linkHaps 0x03 linksUnit ++ linkHaps 0x04 linksUnit ++
  [ uLimClamp, uServoUnlock, uServoInputLost, uDomainDisagree, uHandover, uHandoverCoarse, uSwitchRefused,
    uRebaseDone, uHoldoverEntered, uHoldoverExit, uHoldShort, uHoldoverAge, uTapFault, uTapRange, uTapLost,
    uTapResync, uCapOverflow, uDripRefused, uDripBusy, uDripAborted, uLaunchRefused, uLaunchReqLost, uLaunchMissed,
    uLaunchLate, uLaunchDeadline, uLaunchTapInvalid, uFireWrap, uLchRecOverflow, uLaunchSplit, uTtbRefused, uTtbLate,
    uSemSat, uObjRetired, uWchFull, uWatchTimeout, uBarLap, uBarDeadline, uBarMemberLost, uBarAborted,
    uBarHallRefused, uBarCfgErr, uFlwOver, uFlwUnder, uFlwMisalign, uFncOverflow, uFncTimeout, uFncDiscard,
    uCmbRefused, uCmbDeadline, uCmbCfgErr, uEvcLostset, uEvcCfgErr, uEvcUnrouted, uNestOverflow, uEoiErr, uLtnWake,
    uDeadlock, uPresenceDenied, uRegTimeout, uPresenceOpen, uPresenceLocked, uPrwWrite, uLimSuppress, uLimStop,
    uReloadDenied, uStaleCtx ]
def distHaps : List Hap :=
  linkHaps 0x3F linksDist ++
  [ dUnitIdDup, dEpochRefused, dRefLos, dRefFreq, dRefPhase, dRefDriftSoft, dRefDrift, dDriftSplit, dDriftUnchecked,
    dRefCfgErr, dRefSwitch, dSwitchTargetLost, dLockLost, dRealignDone, dRealignRefused, dRealignAborted, dRootState,
    dHoldoverEntered, dHoldoverShort, dFreerunEntered, dXoFail, dLimClamp, dServoUnlock, dServoInputLost,
    dParentDisagree, dSwitchRefused, dParentSwitch, dSrvHoldoverEntered, dHoldoverExit, dHoldShort, dDistMuted,
    dDistUnmuted, dCmbNotMember, dCmbPortLost, dCmbMemberLost, dCmbStale, dCmbReproStrict, dCmbResilverDone,
    dCmbDeadline, dCmbCfgErr, dLaunchDup, dLaunchNoContext, dLaunchSplit, dCancelLate, dLeadTaken, dLeadReturned,
    dRootUnreachable, dRootRopeLost, dSubtreeLost, dHealthWarn, dPortExpelled, dWouldExpel, dPresenceOpen,
    dPresenceClosed, dPresenceLocked, dPresenceNotReady, dSealBroken, dPrwWrite, dLimReqDrop, dEvcLostset,
    dPresenceDenied, dRegTimeout, dDistMemFatal, dWdogFail, dToutCfgErr, dCalRank, dCalMisclose, dThmWarn, dThmTrip,
    dThmSensorFail ]

/-- KIND of a reported CODE in a part's code space; a code that names no happening counts as a Fault. -/
def kindOf (dist : Bool) (code : BitVec 12) : Nat :=
  match (if dist then distHaps else unitHaps).find? fun h => hapCode h == code with
  | some h => h.kind
  | none => 2

end Sys2Proof.Machine
end

