-- ==== Sys2Proof/Machine/Operands.lean ====
section
/-! DEFINITION. The register operand: which registers each page holds, the access type and range of every writable field,
the reset value of every register, and what one write does to one register by R12, R554, R555 and R557.
A register absent from these tables reads 0 at reset and has no writable field (R556). -/

namespace Sys2Proof.Machine

/-- Access types of R12 that a write acts on (RO fields are not listed). -/
inductive Acc where
  | rw
  | prw
  | stk
  | cmd
  deriving DecidableEq, Repr

/-- A writable field: lowest bit, width, type and the range R557 holds it to; `zero`: 0 is allowed beside the range. -/
structure Fld where
  lo : Nat
  w : Nat
  acc : Acc
  min : Nat
  max : Nat
  zero : Bool
  deriving DecidableEq, Repr

/-- A register, or an array of `n` registers `stride` bytes apart: page offset, reset value, writable fields. -/
structure RegDesc where
  off : Nat
  reset : Nat
  flds : List Fld
  n : Nat := 1
  stride : Nat := 4
  deriving DecidableEq, Repr

def rw (lo w : Nat) : Fld := ⟨lo, w, .rw, 0, 2 ^ w - 1, false⟩
def rwR (lo w mn mx : Nat) : Fld := ⟨lo, w, .rw, mn, mx, false⟩
def rwZ (lo w mn mx : Nat) : Fld := ⟨lo, w, .rw, mn, mx, true⟩
def prw (lo w : Nat) : Fld := ⟨lo, w, .prw, 0, 2 ^ w - 1, false⟩
def prwR (lo w mn mx : Nat) : Fld := ⟨lo, w, .prw, mn, mx, false⟩
def stk (lo w : Nat) : Fld := ⟨lo, w, .stk, 0, 2 ^ w - 1, false⟩
def cmd (lo w : Nat) : Fld := ⟨lo, w, .cmd, 0, 2 ^ w - 1, false⟩

/-- A value that a field takes (R557). -/
def fldOk (f : Fld) (v : Nat) : Bool := (f.zero && decide (v = 0)) || (decide (f.min ≤ v) && decide (v ≤ f.max))

/-- The common header of every page but the windows (R546). -/
def headerRegs : List RegDesc :=
  [ ⟨0x010, 0, [stk 0 32], 1, 4⟩, ⟨0x014, 0, [rw 0 32], 1, 4⟩, ⟨0x018, 0, [stk 0 32], 1, 4⟩,
    ⟨0x01C, 0xFFFFFFFF, [rw 0 32], 1, 4⟩, ⟨0x024, 0, [rw 0 32], 1, 4⟩ ]

/-- IDN.DKEY and DET_CTL, of both parts (R406, R407). -/
def idnRegs : List RegDesc := [ ⟨0x060, 0x01100000, [], 1, 4⟩, ⟨0x064, 0, [prw 0 8, prw 8 1], 1, 4⟩ ]

/-- Unit SRV page (R580). -/
def uSrvRegs : List RegDesc :=
  [ ⟨0x040, 0, [rw 0 1], 1, 4⟩, ⟨0x044, 0xC8, [rwR 0 10 10 1000], 1, 4⟩, ⟨0x048, 0xA, [rwR 0 7 1 100], 1, 4⟩,
    ⟨0x04C, 4, [rwR 0 8 1 255], 1, 4⟩, ⟨0x050, 0x80, [rwR 0 12 16 4095], 1, 4⟩, ⟨0x054, 0xA, [rwR 0 5 4 16], 1, 4⟩,
    ⟨0x058, 0x80, [rwR 0 12 16 4095], 1, 4⟩, ⟨0x05C, 1, [rwR 0 7 1 64], 1, 4⟩, ⟨0x060, 0x10, [rwR 0 5 10 20], 1, 4⟩,
    ⟨0x064, 0x64, [rwR 0 17 1 100000], 1, 4⟩, ⟨0x068, 0, [rw 0 1, cmd 1 1, cmd 2 1], 1, 4⟩, ⟨0x06C, 0, [rw 0 32], 1, 4⟩,
    ⟨0x070, 0x32000, [], 1, 4⟩ ]

/-- Unit DOMA and DOMB pages (R583, R584). -/
def uDomRegs : List RegDesc :=
  [ ⟨0x040, 1, [rw 0 1, cmd 1 1], 1, 4⟩,
    ⟨0x048, 0x000A0308, [rwR 0 7 2 64, rwR 8 4 1 15, rwR 16 10 1 1000], 1, 4⟩,
    ⟨0x04C, 0x040A000A, [rwR 0 10 1 1000, rwR 16 7 1 100, rwR 24 5 2 16], 1, 4⟩,
    ⟨0x050, 0x10, [rwR 0 9 1 256], 1, 4⟩, ⟨0x064, 0, [rw 0 16], 1, 4⟩ ]

/-- Unit RGN, CAP and PLS pages (R228, R229, R230, R589). -/
def uRgnRegs : List RegDesc := [ ⟨0x100, 1, [rw 0 1, cmd 1 1, rw 8 8], 64, 4⟩ ]
def uCapRegs : List RegDesc :=
  [ ⟨0x044, 0, [rw 8 8, rw 16 10], 1, 4⟩,
    ⟨0x100, 0, [rw 0 6, rw 24 2, rw 26 1, rw 27 1, rw 28 1, rw 29 2, rw 31 1], 16, 0x20⟩,
    ⟨0x108, 0, [rw 0 32], 16, 0x20⟩, ⟨0x10C, 0, [rw 0 32], 16, 0x20⟩,
    ⟨0x110, 0, [rw 0 32], 16, 0x20⟩, ⟨0x114, 0, [rw 0 32], 16, 0x20⟩ ]
def uPlsRegs : List RegDesc :=
  [ ⟨0x100, 0, [rw 0 1, rw 1 1, rw 2 1, rw 3 1], 8, 0x40⟩, ⟨0x104, 0, [cmd 0 1, cmd 1 1], 8, 0x40⟩,
    ⟨0x108, 0, [rw 0 32], 8, 0x40⟩, ⟨0x10C, 0, [rw 0 32], 8, 0x40⟩, ⟨0x110, 0, [rw 0 32], 8, 0x40⟩,
    ⟨0x114, 1, [rw 0 32], 8, 0x40⟩, ⟨0x118, 0, [rw 0 32], 8, 0x40⟩, ⟨0x11C, 0, [rw 0 6], 8, 0x40⟩ ]

/-- Unit LCH and TTB pages (R262, R263). -/
def uLchRegs : List RegDesc :=
  [ ⟨0x040, 0x7D0, [rwR 0 20 100 1000000], 1, 4⟩, ⟨0x044, 0xFA0, [rwR 0 32 1000 0xFFFFFF], 1, 4⟩,
    ⟨0x048, 0x2710, [rwR 0 32 1000 0xFFFFFF], 1, 4⟩, ⟨0x04C, 0xFFFFFFFF, [rw 0 32], 2, 4⟩,
    ⟨0x080, 0, [rw 0 32], 4, 4⟩, ⟨0x090, 0, [rw 0 16, rw 16 12], 1, 4⟩, ⟨0x094, 0, [rw 0 16], 1, 4⟩,
    ⟨0x098, 0, [cmd 0 1, cmd 1 1], 1, 4⟩ ]
def uTtbRegs : List RegDesc :=
  [ ⟨0x040, 0, [rw 0 10], 1, 4⟩, ⟨0x044, 0, [rw 0 32], 2, 4⟩, ⟨0x04C, 0, [rw 0 3, rw 8 8, rw 16 1], 1, 4⟩,
    ⟨0x050, 0, [rw 0 32], 1, 4⟩, ⟨0x054, 0, [rw 0 32], 1, 4⟩, ⟨0x058, 0, [rw 0 32], 1, 4⟩,
    ⟨0x05C, 0, [cmd 0 1, cmd 1 1, cmd 2 1], 1, 4⟩ ]

/-- Unit SEM, WCH and CTX pages (R310, R312, R313). -/
def uSemRegs : List RegDesc :=
  [ ⟨0x040, 0, [rw 0 16], 1, 4⟩, ⟨0x044, 0, [rw 0 32], 1, 4⟩, ⟨0x048, 0, [cmd 0 5], 1, 4⟩ ]
def uWchRegs : List RegDesc := [ ⟨0x040, 0, [rwR 0 32 0 0xFFFFFFFE], 1, 4⟩ ]
def uCtxRegs : List RegDesc := [ ⟨0x040, 0, [cmd 0 1], 1, 4⟩ ]

/-- Unit BAR, FLW, FNC, CMB and DLK pages (R353, R354, R356, R357, R398). -/
def uBarRegs : List RegDesc :=
  [ ⟨0x040, 0, [rw 0 8], 1, 4⟩, ⟨0x044, 0, [rw 0 1, rw 1 1, rw 2 1, rw 4 12], 1, 4⟩, ⟨0x048, 0, [rw 0 32], 1, 4⟩,
    ⟨0x04C, 0, [cmd 0 1], 1, 4⟩, ⟨0x05C, 0, [rw 0 16], 1, 4⟩, ⟨0x100, 0, [rw 0 32], 32, 4⟩ ]
def uFlwRegs : List RegDesc :=
  [ ⟨0x040, 0, [rw 0 10], 1, 4⟩, ⟨0x044, 0, [rw 0 1, rw 1 1, rw 2 1, rw 3 1, rw 8 8, rw 16 10], 1, 4⟩,
    ⟨0x048, 0, [rw 0 32], 1, 4⟩, ⟨0x04C, 0, [rw 0 32], 1, 4⟩, ⟨0x050, 0, [cmd 0 2], 1, 4⟩,
    ⟨0x064, 0, [stk 0 3], 1, 4⟩ ]
def uFncRegs : List RegDesc :=
  [ ⟨0x040, 0xF4240, [rw 0 32], 1, 4⟩, ⟨0x048, 0, [rw 0 12], 1, 4⟩, ⟨0x04C, 0, [cmd 0 2], 1, 4⟩ ]
def uCmbRegs : List RegDesc :=
  [ ⟨0x040, 0x30D40, [rwR 0 32 2000 0xFFFFFFFF], 1, 4⟩, ⟨0x044, 0, [rw 0 12], 1, 4⟩, ⟨0x048, 0, [rw 0 1], 1, 4⟩,
    ⟨0x04C, 0, [rw 0 32], 1, 4⟩, ⟨0x054, 0, [rw 0 8], 1, 4⟩ ]
def uDlkRegs : List RegDesc :=
  [ ⟨0x040, 0xF4240, [rwZ 0 32 1000 0xFFFFFFFF], 1, 4⟩, ⟨0x044, 0, [cmd 0 1], 1, 4⟩, ⟨0x058, 0, [rw 0 10], 1, 4⟩,
    ⟨0x100, 0, [rw 0 32], 32, 4⟩ ]

/-- The event controller page of either part but SRC_CFG, EVIN and CPU registers (R450). -/
def evcRegs (words : Nat) : List RegDesc :=
  [ ⟨0x048, 0, [stk 31 1], 1, 4⟩, ⟨0x080, 0, [cmd 0 32], words, 4⟩, ⟨0x0C0, 0, [cmd 0 32], words, 4⟩,
    ⟨0x100, 0xFFFFFFFE, [rw 1 31], 1, 4⟩, ⟨0x104, 0xFFFFFFFF, [rw 0 32], min (words - 1) 7, 4⟩,
    ⟨0x140, 0, [cmd 0 32], words, 4⟩, ⟨0x180, 0, [cmd 0 32], words, 4⟩,
    ⟨0x200, 0, [stk 0 32], words, 4⟩, ⟨0x240, 0, [rw 0 16], 16, 4⟩ ]
def uEvcRegs : List RegDesc :=
  evcRegs 9 ++
  [ ⟨0x040, 0, [rw 0 3], 1, 4⟩, ⟨0x120, 0x0000FFFF, [rw 0 16], 1, 4⟩,
    ⟨0x2C0, 0, [rw 0 8, rw 8 3], 16, 4⟩, ⟨0x300, 1, [rw 0 1, cmd 1 1], 8, 0x10⟩, ⟨0x308, 0, [cmd 0 9], 8, 0x10⟩,
    ⟨0x400, 0x003F0100, [rw 0 8, rw 8 8, rw 16 5], 1, 4⟩, ⟨0x404, 0x003F0180, [rw 0 8, rw 8 8, rw 16 5], 22, 4⟩,
    ⟨0x480, 0x001F0180, [rw 0 8, rw 8 8, rw 16 5], 45, 4⟩,
    ⟨0x600, 0x001F0180, [rw 0 8, rw 8 8, rw 16 5, rw 21 1], 128, 4⟩,
    ⟨0x800, 0x001F0180, [rw 0 8, rw 8 8, rw 16 5], 16, 4⟩ ]
/-- Distributor EVC page (R448, R450) with the MSI-X structures (R622). -/
def dEvcRegs : List RegDesc :=
  evcRegs 6 ++
  [ ⟨0x400, 0x001F0000, [rw 0 4, rw 16 5], 20, 4⟩, ⟨0x480, 0x001F0000, [rw 0 4, rw 16 5], 132, 4⟩,
    ⟨0x690, 0x001F0000, [rw 0 4, rw 16 5], 1, 4⟩,
    ⟨0xE00, 0, [rw 2 30], 16, 0x10⟩, ⟨0xE04, 0, [rw 0 32], 16, 0x10⟩, ⟨0xE08, 0, [rw 0 32], 16, 0x10⟩,
    ⟨0xE0C, 1, [rw 0 1], 16, 0x10⟩ ]

/-- Unit LTN, LIM and DBG pages (R452, R519, R591), and the FLT commands of both parts (R494). -/
def uLtnRegs : List RegDesc :=
  [ ⟨0x040, 0, [rw 0 1, rw 8 8], 1, 4⟩, ⟨0x044, 0, [rw 0 17], 1, 4⟩, ⟨0x080, 0, [rw 0 9, rw 31 1], 32, 4⟩ ]
def uLimRegs : List RegDesc :=
  [ ⟨0x040, 1, [], 1, 4⟩, ⟨0x044, 0x64, [prwR 0 10 1 500], 1, 4⟩,
    ⟨0x048, 0x8FFF0000, [prw 0 12, prw 16 12, prw 31 1], 1, 4⟩, ⟨0x04C, 0, [prw 0 12, prw 16 12, prw 31 1], 1, 4⟩,
    ⟨0x050, 0x00271008, [prwR 0 8 1 64, prwR 8 24 1000 0xFFFFFF], 1, 4⟩, ⟨0x054, 0xFF, [prw 0 8], 1, 4⟩,
    ⟨0x058, 2, [prwR 0 32 2 0xFFFFFFFF], 1, 4⟩, ⟨0x05C, 0xFFFFFFFF, [prwR 0 32 1 0xFFFFFFFF], 1, 4⟩,
    ⟨0x060, 0, [prw 0 32], 1, 4⟩, ⟨0x064, 0xFFFFFFFF, [prw 0 32], 1, 4⟩, ⟨0x074, 8, [], 1, 4⟩ ]
def uDbgRegs : List RegDesc :=
  [ ⟨0x040, 0x1E, [rw 0 1, rw 1 1, rw 2 1, rw 3 1, rw 4 1, rw 5 1, rwR 6 2 0 1, rw 8 8], 1, 4⟩,
    ⟨0x044, 0xFFFFFFFE, [rw 0 32], 1, 4⟩, ⟨0x048, 0, [rw 0 6, rw 6 1, rw 7 1], 1, 4⟩, ⟨0x04C, 0, [cmd 0 4], 1, 4⟩,
    ⟨0x05C, 0, [rw 0 8], 1, 4⟩, ⟨0x074, 0, [rwR 0 3 0 3, rwR 8 7 0 71], 1, 4⟩ ]
def fltRegs : List RegDesc := [ ⟨0x080, 0, [cmd 0 2], 1, 4⟩ ]

/-- Block registers of a unit page, by page number (R572). -/
def uPageRegs : Nat → List RegDesc
  | 0x00 => idnRegs
  | 0x01 => [ ⟨0x040, 0, [cmd 0 1], 1, 4⟩ ]
  | 0x02 => uSrvRegs
  | 0x03 => uDomRegs
  | 0x04 => uDomRegs
  | 0x05 => uRgnRegs
  | 0x06 => uCapRegs
  | 0x07 => uPlsRegs
  | 0x08 => uLchRegs
  | 0x09 => uTtbRegs
  | 0x0A => uSemRegs
  | 0x0B => uWchRegs
  | 0x0C => uBarRegs
  | 0x0D => uFlwRegs
  | 0x0E => uFncRegs
  | 0x0F => uCmbRegs
  | 0x10 => uEvcRegs
  | 0x11 => uLtnRegs
  | 0x12 => uDlkRegs
  | 0x13 => fltRegs
  | 0x14 => uLimRegs
  | 0x15 => uCtxRegs
  | 0x16 => uDbgRegs
  | _ => []

/-- Distributor CLK page (R601, R602). -/
def dClkRegs : List RegDesc :=
  [ ⟨0x050, 0, [cmd 0 1, prw 16 16], 1, 4⟩, ⟨0x054, 0, [prw 0 32], 2, 4⟩, ⟨0x064, 0x100, [rwR 0 16 64 65535], 1, 4⟩,
    ⟨0x068, 0x000186A0, [rwR 0 29 1000 500000000], 1, 4⟩, ⟨0x06C, 0xFA, [rwR 0 16 2 65535], 1, 4⟩ ]
/-- Distributor SEL, REFn, HLD and PTP pages (R604, R606, R608, R609, R610). REFn.CTL.MODE, REFn.FREQ and SEL.DRIFT have
rules of their own beside their ranges (R114, R115, R142). -/
def dSelRegs : List RegDesc :=
  [ ⟨0x040, 1, [prw 0 1, prw 1 1, cmd 2 1], 1, 4⟩,
    ⟨0x044, 0x00043210, [prw 0 4, prw 4 4, prw 8 4, prw 12 4, prw 16 4], 1, 4⟩,
    ⟨0x048, 0x1DC, [], 1, 4⟩, ⟨0x054, 0x14, [rwR 0 5 1 20], 1, 4⟩,
    ⟨0x058, 0x003203E8, [rwR 0 14 100 10000, rwR 16 14 1 10000], 1, 4⟩, ⟨0x05C, 0xC8, [rwR 0 14 1 10000], 1, 4⟩ ]
def dRefRegs : List RegDesc :=
  [ ⟨0x040, 0, [prw 0 2, prw 2 1], 1, 4⟩, ⟨0x044, 0x00989680, [prwR 0 32 1000000 125000000], 1, 4⟩,
    ⟨0x048, 0x012C000A, [rwR 0 10 1 600, rwR 16 12 5 3600], 1, 4⟩,
    ⟨0x04C, 0x00640064, [rwR 0 10 1 1000, rwR 16 14 10 10000], 1, 4⟩ ]
def dHldRegs : List RegDesc :=
  [ ⟨0x040, 0x0A00, [rw 0 1, rwR 8 7 10 100], 1, 4⟩, ⟨0x044, 0, [rw 0 32], 1, 4⟩,
    ⟨0x048, 0x012C03E8, [rwR 0 14 100 10000, rwR 16 12 0 3600], 1, 4⟩, ⟨0x04C, 0x64, [rwR 0 10 10 1000], 1, 4⟩,
    ⟨0x050, 0x80015180, [rwR 0 20 3600 604800, rw 31 1], 1, 4⟩ ]
def dPtpRegs : List RegDesc :=
  [ ⟨0x040, 0, [prw 0 1], 1, 4⟩, ⟨0x044, 0, [prw 0 32], 1, 4⟩,
    ⟨0x048, 0x300, [prwR 0 7 0 127, prwR 8 4 2 10, prw 12 1, prw 13 1, prw 14 1, prw 15 1, prw 16 12], 1, 4⟩,
    ⟨0x04C, 0, [rw 0 10], 1, 4⟩, ⟨0x050, 0, [rw 0 10], 1, 4⟩, ⟨0x054, 0, [prw 0 32], 1, 4⟩, ⟨0x058, 0, [prw 0 16], 1, 4⟩,
    ⟨0x05C, 0x012C003C, [rwR 0 10 1 600, rwR 16 12 5 3600], 1, 4⟩, ⟨0x060, 0x00640000, [rwR 16 14 10 10000], 1, 4⟩ ]
/-- Distributor SRV page (R611). -/
def dSrvRegs : List RegDesc :=
  [ ⟨0x040, 0, [rw 0 1, cmd 1 1], 1, 4⟩, ⟨0x044, 0x64, [rwR 0 10 10 500], 1, 4⟩, ⟨0x048, 0xA, [rwR 0 7 1 100], 1, 4⟩,
    ⟨0x04C, 4, [rwR 0 8 1 255], 1, 4⟩, ⟨0x050, 0x80, [rwR 0 12 16 4095], 1, 4⟩, ⟨0x054, 0xA, [rwR 0 5 4 16], 1, 4⟩,
    ⟨0x058, 0x80, [rwR 0 12 16 4095], 1, 4⟩, ⟨0x05C, 0x10, [rwR 0 5 10 20], 1, 4⟩,
    ⟨0x060, 0x32, [rwR 0 17 0 100000], 1, 4⟩, ⟨0x064, 0x19000, [], 1, 4⟩ ]
/-- Distributor HLT, TOUT, PRS, LIM, CAL and THM pages (R479, R493, R521, R520, R616, R181, R182, R617). -/
def dHltRegs : List RegDesc :=
  [ ⟨0x040, 1, [rw 0 1], 1, 4⟩, ⟨0x044, 1, [rwR 0 8 1 100], 1, 4⟩, ⟨0x048, 0xA, [rwR 0 8 1 255], 1, 4⟩,
    ⟨0x04C, 0xE080, [rw 0 8, rw 8 8], 1, 4⟩, ⟨0x050, 0x10080101, [rw 0 8, rw 8 8, rw 16 8, rw 24 8], 1, 4⟩,
    ⟨0x054, 0x00204020, [rw 0 8, rw 8 8, rw 16 8], 1, 4⟩,
    ⟨0x058, 0x003C0802, [rw 0 4, rw 8 8, rwR 16 10 1 1000], 1, 4⟩, ⟨0x05C, 0x5A, [rwR 0 7 0 100], 1, 4⟩ ]
def dToutRegs : List RegDesc :=
  [ ⟨0x040, 8, [rwR 0 6 2 64], 1, 4⟩, ⟨0x044, 0x000A0003, [rwR 0 4 1 15, rwR 16 10 1 1000], 1, 4⟩,
    ⟨0x048, 0xA, [rwR 0 7 1 100], 1, 4⟩, ⟨0x04C, 0xA, [rwR 0 10 1 1000], 1, 4⟩, ⟨0x050, 4, [rwR 0 5 2 16], 1, 4⟩,
    ⟨0x054, 0x271, [rwR 0 18 125 250000], 1, 4⟩, ⟨0x058, 0x30D4, [rwR 0 28 250 250000000], 1, 4⟩,
    ⟨0x05C, 0x9C4, [rwR 0 18 25 250000], 1, 4⟩, ⟨0x060, 0xFA, [rwR 0 15 25 25000], 1, 4⟩,
    ⟨0x064, 0xA, [rwR 0 7 1 100], 1, 4⟩ ]
def dPrsRegs : List RegDesc := [ ⟨0x040, 0x78, [prwR 0 12 10 3600], 1, 4⟩, ⟨0x044, 0, [cmd 0 1], 1, 4⟩ ]
def dLimRegs : List RegDesc :=
  [ ⟨0x040, 7, [prw 1 1, prw 2 1], 1, 4⟩, ⟨0x044, 0x64, [prwR 0 10 1 500], 1, 4⟩,
    ⟨0x048, 0x0009C408, [prwR 0 8 1 64, prwR 8 24 250 0xFFFFFF], 1, 4⟩ ]
def dCalRegs : List RegDesc :=
  [ ⟨0x040, 1, [rwR 0 12 1 3600], 1, 4⟩, ⟨0x044, 0xC, [rwR 0 5 8 16], 1, 4⟩, ⟨0x048, 0xA, [rwR 0 8 1 255], 1, 4⟩,
    ⟨0x04C, 0xC8, [rwR 0 14 10 10000], 1, 4⟩, ⟨0x050, 2, [rwR 0 8 1 255], 1, 4⟩,
    ⟨0x058, 0, [rw 0 24, rw 30 1, rw 31 1], 1, 4⟩, ⟨0x200, 0x00140000, [rw 0 16, rw 16 8, rw 31 1], 132, 4⟩ ]
def dThmRegs : List RegDesc :=
  [ ⟨0x054, 0x320, [rwR 0 12 480 920], 1, 4⟩, ⟨0x058, 0x3E8, [], 1, 4⟩, ⟨0x060, 0, [cmd 0 1], 1, 4⟩ ]
/-- Distributor port pages (R618, R478). -/
def dPrtRegs : List RegDesc :=
  [ ⟨0x040, 1, [rw 0 1, cmd 1 1], 1, 4⟩, ⟨0x048, 0, [rw 0 20, rw 31 1], 1, 4⟩, ⟨0x04C, 0x10, [rwR 0 9 1 256], 1, 4⟩,
    ⟨0x06C, 0, [cmd 16 1], 1, 4⟩ ]
/-- A gallery table page, 16 entries of 0x100 bytes (R400). -/
def dGalRegs : List RegDesc :=
  [ ⟨0x00, 0, [rw 0 32], 16, 0x100⟩, ⟨0x04, 0, [rw 0 32], 16, 0x100⟩, ⟨0x08, 0, [rw 0 32], 16, 0x100⟩,
    ⟨0x0C, 0, [rw 0 32], 16, 0x100⟩, ⟨0x10, 0, [stk 0 32], 16, 0x100⟩, ⟨0x14, 0, [stk 0 32], 16, 0x100⟩,
    ⟨0x18, 0, [stk 0 32], 16, 0x100⟩, ⟨0x1C, 0, [stk 0 32], 16, 0x100⟩, ⟨0x20, 0, [rw 0 1], 16, 0x100⟩,
    ⟨0x24, 0, [prw 0 1], 16, 0x100⟩, ⟨0x28, 0, [rw 0 32], 16, 0x100⟩ ]

/-- Block registers of a distributor page, by page number (R595). -/
def dPageRegs (p : Nat) : List RegDesc :=
  if 0x200 ≤ p then (if p ≤ 0x2FF then dGalRegs else [])
  else if 0x100 ≤ p then (if p ≤ 0x183 then dPrtRegs else [])
  else match p with
    | 0x00 => idnRegs
    | 0x01 => dClkRegs
    | 0x02 => dSelRegs
    | 0x03 => dRefRegs
    | 0x04 => dRefRegs
    | 0x05 => dRefRegs
    | 0x06 => dRefRegs
    | 0x07 => dHldRegs
    | 0x08 => dPtpRegs
    | 0x09 => dSrvRegs
    | 0x0A => [ ⟨0x040, 0, [rw 0 1], 1, 4⟩ ]
    | 0x0C => dHltRegs
    | 0x0D => dPrsRegs
    | 0x0E => dLimRegs
    | 0x0F => dEvcRegs
    | 0x10 => fltRegs
    | 0x11 => dToutRegs
    | 0x12 => dCalRegs
    | 0x13 => dThmRegs
    | _ => []

/-- Whether a page number of the part is assigned (R564, R566). -/
def pageAssigned : Kind → Nat → Bool
  | .unit _, p => p ≤ 0x16 || (0x40 ≤ p && p ≤ 0x7F)
  | .dist _, p => p ≤ 0x13 || (0x100 ≤ p && p ≤ 0x183) || (0x200 ≤ p && p ≤ 0x2FF)

/-- Whether a page carries no header: the semaphore window and the gallery table window (R545). -/
def pageWindow : Kind → Nat → Bool
  | .unit _, p => 0x40 ≤ p && p ≤ 0x7F
  | .dist _, p => 0x200 ≤ p && p ≤ 0x2FF

/-- The registers of a page: the header, unless the page is a window, and the block registers. -/
def pageRegs (k : Kind) (p : Nat) : List RegDesc :=
  let blk := match k with
    | .unit _ => uPageRegs p
    | .dist _ => dPageRegs p
  if pageWindow k p || !pageAssigned k p then blk else headerRegs ++ blk

/-- The descriptor that covers page offset `o`, with the register's place in its array. -/
def descAt (o : Nat) : List RegDesc → Option (RegDesc × Nat)
  | [] => none
  | d :: t =>
    let i := (o - d.off) / d.stride
    if d.off ≤ o ∧ (o - d.off) % d.stride = 0 ∧ i < d.n then some (d, i) else descAt o t

/-- Size of an address space of a part: registers that a select register multiplies are held at
`address + 2 ^ 24 * object` (R552). -/
def objAddr (obj addr : Nat) : Nat := addr + 2 ^ 24 * obj

/-- Reset values that the configuration or the straps decide (R228, R262, R399, R450, R519, R312). -/
def resetFix (k : Kind) (p o v : Nat) : Nat :=
  match k with
  | .unit c =>
    if p = 0x05 ∧ 0x100 ≤ o ∧ o < 0x200 then (if (o - 0x100) / 4 < c.regions then v else 0)
    else if p = 0x08 ∧ o = 0x04C then 2 ^ (min c.regions 32) - 1
    else if p = 0x08 ∧ o = 0x050 then 2 ^ (c.regions - 32) - 1
    else if p = 0x10 ∧ 0x300 ≤ o ∧ o < 0x380 ∧ o % 0x10 = 0 then (if (o - 0x300) / 0x10 < c.procs then v else 0)
    else if p = 0x14 ∧ o = 0x054 then (if c.w64 then 3 else v)
    else v
  | .dist st => if p = 0x0A ∧ o = 0x040 then (if st.root then 1 else 0) else v

/-- The reset value of the register at address `a` of a part (R546, R576 to R622). -/
def resetOf (k : Kind) (a : Nat) : Word :=
  let a := a % 2 ^ 24
  let p := a / 0x1000
  let o := a % 0x1000
  match descAt o (pageRegs k p) with
  | some (d, _) => BitVec.ofNat 32 (resetFix k p o d.reset)
  | none => 0

/-- The bytes that byte enables select, as a mask (R554). -/
def beMask (be : BitVec 4) : Nat :=
  (if be.getLsbD 0 then 0xFF else 0) + (if be.getLsbD 1 then 0xFF00 else 0) +
  (if be.getLsbD 2 then 0xFF0000 else 0) + (if be.getLsbD 3 then 0xFF000000 else 0)

/-- `old` with the enabled bytes of `new` (R554). -/
def mergeBytes (be : BitVec 4) (old new : Word) : Word :=
  let m := BitVec.ofNat 32 (beMask be)
  (old &&& ~~~m) ||| (new &&& m)

/-- A write carries a PRW field when the bytes hold a value that differs from the field's current one (R555). -/
def carriesPrw (flds : List Fld) (old merged : Word) : Bool :=
  flds.any fun f => f.acc = .prw && fld merged f.lo f.w != fld old f.lo f.w

/-- What one field becomes (R12, R557): `win` says whether a presence window is open. -/
def writeFld (win : Bool) (be : BitVec 4) (data merged : Word) (x : Word) (f : Fld) : Word :=
  let v := fld merged f.lo f.w
  match f.acc with
  | .rw => if fldOk f v then setFld x f.lo f.w v else x
  | .prw => if win && fldOk f v then setFld x f.lo f.w v else x
  | .stk =>
    let keep := BitVec.ofNat 32 (((2 ^ f.w - 1) <<< f.lo) &&& beMask be) &&& ~~~data
    x &&& ~~~keep
  | .cmd => x

/-- What a write of `data` does to a register that holds `old` (R12, R555, R557). -/
def writeFlds (flds : List Fld) (win : Bool) (be : BitVec 4) (old data : Word) : Word :=
  flds.foldl (writeFld win be data (mergeBytes be old data)) old

/-- The CMD bits that a write sets in enabled bytes (R12, R554). -/
def cmdBits (flds : List Fld) (be : BitVec 4) (data : Word) : Nat :=
  let m := flds.foldl (fun m f => if f.acc = .cmd then m ||| ((2 ^ f.w - 1) <<< f.lo) else m) 0
  (data.toNat &&& beMask be) &&& m

end Sys2Proof.Machine
end

