-- ==== Sys2Proof/Machine/State.lean ====
section
/-! DEFINITION. The state of the block: one Waivar unit and one Harfo distributor, and the queue of waiting commands.
Everything is plain data. Times are counted on `Base.tick`, one TCLK rising edge each (R17). -/

namespace Sys2Proof.Machine

/-! ## Stops -/

/-- Reasons to stop with a fault. No command of the block ends in one: every command has its effect. -/
inductive Fault where
  deriving DecidableEq, Repr

/-- Reasons to refuse a command. -/
inductive Refusal where
  /-- raised by an arm of `exec` whose command has no meaning yet; safe, since nothing follows from it -/
  | notModelled (mnemonic : String)
  deriving DecidableEq, Repr

/-! ## What both parts hold -/

/-- Where a part stands between reset and service (R523 to R532, R471). -/
inductive Phase where
  /-- a supply is out of tolerance (R524) -/
  | unpowered
  /-- a reset is held, or its release sequence has not reached SRAM initialisation -/
  | reset
  /-- the PLL is locked and SRAM is being initialised (R529, R531) -/
  | init
  | run
  /-- a distributor that stopped itself (R471) -/
  | stopped
  deriving DecidableEq, Repr

/-- One entry of the fault log (R457). -/
structure LogEntry where
  ht : BitVec 48
  code : BitVec 12
  kind : BitVec 2
  remote : Bool
  gap : Bool
  rep : BitVec 8
  port : BitVec 8
  obj : BitVec 16
  unitId : BitVec 20
  aux : BitVec 8
  dist : Bool
  /-- the part's tick on which it entered, the model's own: R456 orders the entries of one tick -/
  tick : Nat := 0
  deriving DecidableEq, Repr

/-- One event source (R419, R438, R445): `level` is the level of its input where it has one. -/
structure EvSrc where
  pend : Bool := false
  active : Option (BitVec 3) := none
  count : Nat := 0
  held : Nat := 0
  fresh : Bool := false
  level : Bool := false
  unrouted : Bool := false
  deriving DecidableEq, Repr

/-- One moderation group (R438): TIMING, the tick its timer started and its length in always-on cycles. -/
structure EvGrp where
  timing : Bool := false
  startedAt : Nat := 0
  len : Nat := 0
  deriving DecidableEq, Repr

/-- One entry of a processor's nesting stack (R431): the source and the running priority of its claim. -/
structure Nest where
  src : Nat
  grp : Nat
  deriving DecidableEq, Repr

/-- The event controller (R418 to R451). The unit uses all of it; the distributor uses the sources, the groups
and the MSI-X fields. -/
structure Evc where
  srcs : Tab EvSrc
  grps : Tab EvGrp
  /-- nesting stack of each processor, top first -/
  nests : Tab (List Nest)
  rot : BitVec 3
  evreq : BitVec 8
  psleep : BitVec 8
  lantern : Bool
  waking : Bool
  /-- MSI-X Enable and Function Mask of the PCI Express function (R449) -/
  msixEn : Bool
  fmask : Bool
  /-- vectors that had a pending, unmasked source when last evaluated (R449) -/
  vecPend : BitVec 16
  deriving DecidableEq, Repr

/-- Output pins and lines of both parts that a command can drive. Lines that follow the state at once have no entry here: the
ready outputs are `msgReady` and `fncReady`, SMB_ALERT_N is `smbAlertLow`, ETH_PHY_RST_N is `ethPhyRstLow`, TRD_ACK stands in `tapPorts` and LFIRE in `taps`. -/
inductive Pin where
  | evreq
  | lwake
  | rtsync (region : Nat)
  /-- RLAUNCH_n (R249) -/
  | rlaunch (region : Nat)
  | ppsout
  | frmout
  | holdN
  | rstate
  | refOk
  deriving DecidableEq, Repr

/-- A PTP or ARP frame that the management Ethernet port sends (R118). -/
inductive EthOut where
  /-- a Delay_Req: sequenceId, domainNumber, layer 2 or IPv4/UDP, destination (a MAC address, or an IPv4 address), VLAN ID -/
  | delayReq (seq : BitVec 16) (domain : BitVec 7) (l2 : Bool) (dest : BitVec 48) (vlan : Option (BitVec 12))
  | arpReply (mac : BitVec 48) (ip : BitVec 32)
  deriving DecidableEq, Repr

/-- What the machine sends or drives. `outs` of a part holds what it sent since the last tick, oldest first. -/
inductive Out where
  /-- a frame on the active or spare lane of a port -/
  | frame (port : PortRef) (lane : Bool) (f : Frame)
  /-- a training block on a lane of a port, with its RX_LOCK and READY (R60) -/
  | train (port : PortRef) (lane rxLock ready : Bool)
  /-- a register read completes: channel or path, data, error code (0 none) -/
  | regData (part : Part) (ch : BitVec 3) (data : Word) (err : Nat)
  /-- a register write completes -/
  | regAck (part : Part) (ch : BitVec 3) (err : Nat)
  /-- an SMBus transfer: acknowledged or not, and the bytes returned -/
  | smbus (ack : Bool) (data : List (BitVec 8))
  /-- a message on an output lane of the message port: MSG_OUT_DEST and the bits of R271 (R626) -/
  | msg (lane : Nat) (dest : BitVec 10) (m : BitVec 128)
  | pin (p : Pin) (v : Nat)
  | msix (vector : Nat) (addr : BitVec 64) (data : Word)
  | eth (e : EthOut)
  /-- a tap read: region, read port, NS and flags (R209) -/
  | tapRead (region port : Nat) (ns : BitVec 64) (flags : Nat)
  /-- a signal presented on the apply channel: FNC_APL_DATA, as received (R337, R343, R627) -/
  | apply (signal : BitVec 128)
  /-- a launch fires at a region: LFIRE_n after the step, in reflected Gray code (R249) -/
  | fire (region lfire : Nat)
  /-- a Drip pad takes a level at the hall time of this tick plus `fine` units of 2^-6 ns (R222) -/
  | drip (channel level fine : Nat)
  /-- the delay of RTCLK_n, RTSYNC_n and RLAUNCH_n: whole ticks early, and steps of the delay line (R198, R199) -/
  | tapLine (region k steps : Nat)
  deriving DecidableEq, Repr

/-- What both parts hold: the clock, the counter, the register file, the fault log, the presence window, the event
controller, the block grid of the transmitters and the outputs of the tick. -/
structure Base where
  kind : Kind
  phase : Phase
  /-- tick on which the part went into its last reset, or was released from it -/
  phaseAt : Nat
  /-- TCLK rising edges since the model's start (assumption 1) -/
  tick : Nat
  /-- the hall time counter NS (R15) and whether it is valid (R22) -/
  ns : BitVec 64
  valid : Bool
  /-- MODEL'S OWN: the number of free values drawn (assumption 5) -/
  free : Nat
  /-- registers by byte address in the part's window; unlisted ones hold their reset value -/
  regs : Tab Word
  /-- read latches (R559) and staging halves (R560), by channel and address -/
  latch : Tab Word
  stage : Tab (Option Word)
  /-- fault log, oldest first (R456 to R460) -/
  log : List LogEntry
  logGap : Bool
  first : Option LogEntry
  /-- EXPIRY of the window held (R505) -/
  window : Option (BitVec 64)
  /-- CFG_LOCK_N has been low for 1 ms (R514) -/
  locked : Bool
  evc : Evc
  /-- tick of the next block boundary (R54) and whether a realignment is due (R55) -/
  blk : Nat
  slip : Bool
  outs : List Out
  deriving DecidableEq, Repr

/-! ## Fyolink ports -/

/-- Link states of R104. -/
inductive LinkState where
  | down
  | train
  | up
  | admitted
  | dead
  deriving DecidableEq, Repr

/-- One lane pair of a port: what the receiver sees on it and what the partner reported of it. -/
structure Lane where
  /-- signal detected on the receive lane, and since when it has been absent -/
  signal : Bool := false
  signalAt : Nat := 0
  /-- block lock (R61) -/
  lock : Bool := false
  /-- RX_LOCK and READY of the partner's last training block on this lane (R60) -/
  peerLock : Bool := false
  peerReady : Bool := false
  /-- tick of the last CRC-good frame on the lane -/
  goodAt : Option Nat := none
  /-- declared failed (R90) -/
  failed : Bool := false
  /-- the transmitter sends frames, not training blocks, on the lane -/
  frames : Bool := false
  deriving DecidableEq, Repr

/-- Lane and link state of a port. -/
structure LinkPhy where
  st : LinkState := .down
  /-- tick on which `st` was entered -/
  stAt : Nat := 0
  lane0 : Lane := {}
  lane1 : Lane := {}
  /-- false lane 0, true lane 1: lane transmitted on, lane sequenced frames are received on -/
  txLane : Bool := false
  rxLane : Bool := false
  /-- SPARE_OK and RX_LANE of the partner's last IDLE (R56) -/
  peerSpareOk : Bool := false
  peerRxLane : Bool := false
  /-- tick on which both ends had sent and received READY (R62) -/
  readyAt : Option Nat := none
  /-- tick of the last TRAIN_FAIL (R104) -/
  failAt : Option Nat := none
  waitLogged : Bool := false
  /-- training of a swapped lane: its start, and the last attempt that failed (R90) -/
  spareTrainAt : Option Nat := none
  spareFailAt : Option Nat := none
  deriving DecidableEq, Repr

/-- What the transmitter fills in when a frame starts (R71, R94). -/
inductive Fill where
  | none
  | time
  | echoReq
  | echoRsp (t2 : Nat)
  deriving DecidableEq, Repr

/-- A frame waiting for its transmitter (R80): class, earliest tick (R646), payload frames still to follow, the number of its
header-and-payload group on the port, and for a cut-through frame the input port and the tick of its trigger (R84). -/
structure TxItem where
  cls : Nat
  readyAt : Nat
  seqd : Bool
  typ : BitVec 6
  body : BitVec 64
  fill : Fill
  more : Nat
  grp : Nat := 0
  via : Option (Nat × Nat) := none
  deriving DecidableEq, Repr

/-- Reliable delivery of a port (R72 to R79). -/
structure LinkArq where
  txSeq : BitVec 8 := 0
  rxExp : BitVec 8 := 0
  /-- frames waiting: active lane and spare lane -/
  txq : List TxItem := []
  spq : List TxItem := []
  /-- groups queued so far; the class 5 to 7 group, and the ARM group, whose payload frames are still owed (R68, R80) -/
  groups : Nat := 0
  owed : Option Nat := none
  owedArm : Option Nat := none
  /-- groups that are arriving, by code: the bodies received, header first (R68) -/
  opened : List (Nat × List (BitVec 64)) := []
  /-- replay buffer, oldest first, each frame with the tick of its most recent transmission (R73, R78), and the frames
  of the replay in progress (R77) -/
  replay : List (Frame × Nat) := []
  resend : List Frame := []
  /-- replays of the oldest frame (R105) -/
  replays : Nat := 0
  /-- tick since which an accepted frame is unacknowledged (R75) -/
  ackDue : Option Nat := none
  /-- the last NAK: EXP_SEQ and its tick (R76) -/
  nak : Option (BitVec 8 × Nat) := none
  /-- ticks of the retry bursts in the swap window (R86) -/
  bursts : List Nat := []
  /-- the burst that filled the window found the spare warm: the lanes swap at the next frame boundary (R86, R87) -/
  swapDue : Bool := false
  deriving DecidableEq, Repr

/-- Counters of a port (R109, R585, R618, R620). -/
structure LinkCnt where
  crcErr : Nat := 0
  retries : Nat := 0
  unknown : Nat := 0
  unexpected : Nat := 0
  crcTotal : Nat := 0
  retryTotal : Nat := 0
  swaps : Nat := 0
  echoLosts : Nat := 0
  censusDead : Nat := 0
  cmbLost : Nat := 0
  deriving DecidableEq, Repr

/-- An exchange in flight (R94): its ECHO_ID, T1 in units of 2^-6 ns, and the tick on which it was sent. -/
structure EchoOut where
  id : BitVec 6
  t1 : Nat
  sentAt : Nat
  deriving DecidableEq, Repr

/-- The Echo exchanges of one lane pair (R93 to R98). -/
structure EchoPair where
  nextId : BitVec 6 := 0
  /-- exchanges in flight, oldest first -/
  outs : List EchoOut := []
  lost : Nat := 0
  /-- consecutive completed exchanges, and completed exchanges since admission -/
  good : Nat := 0
  done : Nat := 0
  doneAt : Option Nat := none
  /-- last initiation -/
  initAt : Option Nat := none
  /-- θ and d of the last exchange, units of 2^-6 ns -/
  ofs : Int := 0
  dly : Int := 0
  deriving DecidableEq, Repr

/-- Time on a port: Echo, TIME and EPOCH (R93 to R99, R27, R28). -/
structure LinkTime where
  act : EchoPair := {}
  spare : EchoPair := {}
  /-- ECHO_LOST stands (R98) -/
  echoLost : Bool := false
  /-- raw offsets ρ of the last active-pair exchanges, newest first, units of 2^-6 ns (R183, R184) -/
  raws : List Int := []
  mismatch : Bool := false
  agree : Nat := 0
  genMis : Bool := false
  genAgree : Nat := 0
  peerGen : BitVec 16 := 0
  /-- last EPOCH frame kept before the counter was loaded (R27) -/
  kept : Option (BitVec 16 × BitVec 48) := none
  /-- tick of the last accepted servo sample, and of the last ECHO_RSP or TIME frame or the admission (R586) -/
  inputAt : Option Nat := none
  heardAt : Option Nat := none
  deriving DecidableEq, Repr

/-- A HELLO kept for a port's slot (R536). -/
structure KeptHello where
  kind : BitVec 4
  domB : Bool
  tier : BitVec 2
  gen : BitVec 16
  valid : Bool
  dkey : Word
  stepping : BitVec 8
  at_ : Nat
  deriving DecidableEq, Repr

/-- Admission of a port (R533 to R538, R586, R619). -/
structure LinkAdm where
  hello : Option KeptHello := none
  cause : BitVec 3 := 0
  admits : Nat := 0
  /-- ADMIT_INFO or PEER_INFO, and PEER_DKEY -/
  info : Word := 0
  peerDkey : Word := 0
  idSplit : Bool := false
  /-- the partner is a distributor; the identifier given to a unit partner -/
  childDist : Bool := false
  childId : BitVec 20 := 0
  /-- a HELLO has been sent, and a matching one received, since LINK_UP (R100) -/
  sent : Bool := false
  seen : Bool := false
  sentAt : Option Nat := none
  deriving DecidableEq, Repr

/-- Health of a port (R472 to R478): the score, and what the next vote will report. -/
structure PortHealth where
  score : Nat := 0
  warn : Bool := false
  would : Bool := false
  expelled : Bool := false
  cause : BitVec 3 := 0
  wouldLogged : Bool := false
  /-- LINK_ADMITTED at some time during the last DECAY interval (R474) -/
  lived : Bool := false
  voteLast : Word := 0
  /-- own CRC-bad frames of this vote period, modulo the 16 of one point (R473) -/
  crcSeen : Nat := 0
  vCrc : Nat := 0
  vRetry : Nat := 0
  vSwap : Bool := false
  vSpare : Bool := false
  vEcho : Bool := false
  voteAt : Nat := 0
  /-- ROOT_UNREACHABLE forwarded from this port stands (R615) -/
  rootReport : Bool := false
  deriving DecidableEq, Repr

/-- One Fyolink port of either part. -/
structure LinkPort where
  phy : LinkPhy := {}
  arq : LinkArq := {}
  cnt : LinkCnt := {}
  time : LinkTime := {}
  adm : LinkAdm := {}
  hlth : PortHealth := {}
  deriving DecidableEq, Repr

/-! ## The debug trace (R591 to R594) -/

/-- The frame trace, oldest entry first, and the injection that is armed. -/
structure Dbg where
  held : List (BitVec 128) := []
  running : Bool := false
  trig : Bool := false
  wrapped : Bool := false
  trigIdx : Nat := 0
  /-- entries still accepted after the trigger in ring mode -/
  post : Option Nat := none
  /-- frame cycle of the last frame looked at, and frames accepted in it -/
  cyc : Nat := 0
  cycN : Nat := 0
  /-- armed injection: memory and bit -/
  inject : Option (Nat × Nat) := none
  /-- words that an injection flipped and nothing has touched since: memory and word -/
  flips : List (Nat × Nat) := []
  deriving DecidableEq, Repr

/-! ## The follower servo (R156 to R180) -/

/-- A handover or parent switch that waits for the other source's next exchange (R170 to R172). -/
structure Handover where
  /-- the source to move to: domain B or the alternate parent -/
  dest : Bool
  /-- the active source has failed; a commanded one waits with it not failed -/
  failed : Bool
  /-- tick from which R170's bound counts -/
  since : Nat
  /-- Δ as it stood 8 updates before; none for a coarse handover (R171) -/
  snap : Option Int
  /-- the other source has completed the exchange that ends the wait -/
  due : Bool
  deriving DecidableEq, Repr

/-- What the servo holds beside its registers. Words are control-word steps of 2^-40 (R153); offsets and errors are
units of 2^-10 ns. -/
structure Servo where
  integ : Int := 0
  /-- the word held when acquisition began (R161) -/
  acqWord : Int := 0
  lastErr : Int := 0
  lockRun : Nat := 0
  unlockRun : Nat := 0
  outRun : Nat := 0
  /-- the source has failed: no samples are taken (R170) -/
  failed : Bool := false
  /-- LIM_CLAMP has been logged for the present clamping (R154) -/
  clamped : Bool := false
  /-- θ of the last exchange of each source, units of 2^-6 ns, and whether it is new since the last update of Δ -/
  th0 : Int := 0
  th1 : Int := 0
  new0 : Bool := false
  new1 : Bool := false
  delta : Int := 0
  /-- Δ of the last 8 updates, newest first (R167) -/
  hist : List Int := []
  /-- updates since the later of the two ports was admitted -/
  upd : Nat := 0
  xrun : Nat := 0
  pend : Option Handover := none
  /-- control words of samples taken while LOCK was 1, newest first (R175) -/
  words : List Int := []
  /-- tick of entry to holdover or ISOLATED, and what was logged in it -/
  holdAt : Nat := 0
  ageLogged : Bool := false
  /-- in holdover: consecutive usable exchanges of each source; rejoined, with its first error (R177) -/
  rej0 : Nat := 0
  rej1 : Nat := 0
  rejoined : Bool := false
  rejErr : Int := 0
  /-- tick of the last rebase step (R173) -/
  rebaseAt : Nat := 0
  /-- tick on which the source in use last supplied an exchange, or the counter was loaded (R169) -/
  feedAt : Nat := 0
  deriving DecidableEq, Repr

/-- A calibration record received over Rope (R184). -/
structure CalRec where
  rhoUp : Int
  defUp : Int
  sigma : Nat
  defValid : Bool
  rhoValid : Bool
  upPort : Bool
  deriving DecidableEq, Repr

/-- Calibration state of a distributor (R183 to R189). -/
structure Calib where
  last : Option CalRec := none
  /-- GSEQ of the next calibration record sent, and of the last applied -/
  txSeq : BitVec 16 := 0
  rxSeq : Option (BitVec 16) := none
  lastAt : Nat := 0
  deriving DecidableEq, Repr

/-- A Rope record kept until its frames are acknowledged (R102). -/
structure RopeRec where
  rseq : BitVec 16
  hdr : BitVec 64
  payload : List (BitVec 64)
  deriving DecidableEq, Repr

/-- The Rope session (R102). -/
structure Rope where
  txSeq : BitVec 16 := 0
  rxSeq : BitVec 16 := 0
  sent : List RopeRec := []
  /-- the port that carries ROPE frames: false 130, true 131 -/
  carrier : Bool := false
  /-- tick since which no Rope port has been LINK_ADMITTED -/
  downAt : Nat := 0
  lostLogged : Bool := false
  deriving DecidableEq, Repr

/-! ## Synchronisation objects of the message port (R265 to R313) -/

/-- The last signaller of a semaphore (R308). -/
structure LastSig where
  remote : Bool
  mgmt : Bool
  src : BitVec 16
  ht : BitVec 48
  deriving DecidableEq, Repr

/-- A semaphore (R276, R308). -/
structure SemWord where
  v : BitVec 32 := 0
  satHi : Bool := false
  satLo : Bool := false
  last : Option LastSig := none
  deriving DecidableEq, Repr

/-- A queued wait on a semaphore (R280, R286): it holds a watch entry. `tout` is none for no timeout. -/
structure Wait where
  sem : Nat
  take : Bool
  n : Nat
  core : Nat
  tag : Nat
  tout : Option Nat
  since : Nat
  deriving DecidableEq, Repr

/-- An armed address-watch comparator (R298). -/
structure Cmp where
  core : Nat
  tag : Nat
  addr : Nat
  n : Nat
  tout : Option Nat
  since : Nat
  deriving DecidableEq, Repr

/-- A response in the output queue, and whether it holds a reserve entry (R273, R274). -/
structure OutMsg where
  bits : BitVec 128
  reserve : Bool
  deriving DecidableEq, Repr

/-- Semaphores, watches, comparators, the Sump and the message port's output queue. -/
structure Sems where
  vals : Tab SemWord
  /-- retired semaphores (R305) -/
  retired : Tab Bool
  /-- queued waits in registration order -/
  waits : List Wait
  /-- watch entries retired from the pool -/
  lostEntries : Nat
  fullLogged : Bool
  cmps : Tab (Option Cmp)
  sump : List (BitVec 128)
  outQ : List OutMsg
  /-- responses of paused walks, in order (R273) -/
  paused : List OutMsg
  /-- tick of the context clear in progress (R303), and STALE_CTX logged in this epoch (R270) -/
  clearing : Option Nat
  staleLogged : Bool
  deriving DecidableEq, Repr

/-! ## Region taps, capture and Drip (R193 to R231) -/

/-- What a recorded change of RSTOP_n replaced: its tick, STOP_AT_n and RESUME_AT_n before it, and the firing ticks counted
(R208). -/
structure RegionChg where
  at_ : Nat
  stopAt : BitVec 64
  resumeAt : BitVec 64
  fires : Nat
  deriving DecidableEq, Repr

/-- A region tap (R195 to R207, R249). -/
structure Tap where
  /-- locked by R196, with no invalidating cause since -/
  locked : Bool := false
  /-- the counter: the value loaded and the tick of the load -/
  cnt : BitVec 64 := 0
  cntAt : Nat := 0
  /-- the last good sync frame while waiting for lock: its NS and the tick after its offset 79 -/
  seen : Option (BitVec 64 × Nat) := none
  /-- consecutive frames that disagreed, and that had a bad CRC (R197) -/
  badNs : Nat := 0
  badCrc : Nat := 0
  /-- CAUSE of R202, ERRS, and whether the tap has ever locked -/
  cause : BitVec 3 := 0
  errs : Nat := 0
  everLocked : Bool := false
  /-- RESYNC has been written for a MISMATCH (R203) -/
  resync : Bool := false
  /-- W_n exceeds 8 ns (R201); the applied W_n, units of 2^-6 ns -/
  outRange : Bool := false
  applied : Nat := 0
  /-- synchronised RSTOP_n -/
  stopped : Bool := false
  /-- the last recorded change of RSTOP_n (R208) -/
  chg : Option RegionChg := none
  /-- steps that LFIRE_n has taken, and firing ticks since the region stopped (R249, R650) -/
  fires : BitVec 8 := 0
  stopFires : Nat := 0
  /-- the last three firing ticks, the newest first: launches on one tick advance the count once (R249) -/
  firedAt : List Nat := []
  /-- RLAUNCH_n is asserted -/
  rlaunch : Bool := false
  deriving DecidableEq, Repr

/-- W_n as the unit applies it (R198): the bit streams leave k ticks early, k the smallest whole number of nanoseconds not
less than W_n, and the delay line delays them by the rest, in steps of 2^-6 ns. -/
def Tap.lead (t : Tap) : Nat := (t.applied + 63) / 64
def Tap.line (t : Tap) : Nat := 64 * t.lead - t.applied

/-- LFIRE_n: the fire count as a step of a reflected Gray code (R249). -/
def Tap.lfire (t : Tap) : BitVec 8 := t.fires ^^^ (t.fires >>> 1)

/-- A read port of a tap (R209). -/
structure TapPort where
  ack : Bool := false
  ns : BitVec 64 := 0
  valid : Bool := false
  hold : Bool := false
  deriving DecidableEq, Repr

/-- A capture record before it enters the queue (R216, R217). -/
structure CapRec where
  ns : BitVec 64
  frac : BitVec 6
  chan : BitVec 4
  fall : Bool
  domb : Bool
  hold : Bool
  lost : Bool
  at_ : Nat
  deriving DecidableEq, Repr

/-- What a capture channel remembers: its last recorded edge in units of 2^-6 ns, and edges lost before the next
record (R214) or the next accepted record (R218). -/
structure CapChan where
  last : Option Nat := none
  lostEdge : Bool := false
  lostRec : Bool := false
  deriving DecidableEq, Repr

/-- The capture block: records in flight in time order, the queue, and whether CAP_OVERFLOW stands. -/
structure Cap where
  flight : List CapRec := []
  queue : List (BitVec 64) := []
  chans : Tab CapChan := []
  overLogged : Bool := false
  deriving DecidableEq, Repr

/-- Drip channel states (R230). -/
inductive DripSt where
  | idle
  | armed
  | running
  | done
  deriving DecidableEq, Repr

/-- A Drip channel (R221 to R227, R501). -/
structure Drip where
  st : DripSt := .idle
  /-- NS of the next pulse's start, and pulses emitted or suppressed since ARM -/
  next : Nat := 0
  num : Nat := 0
  /-- a pulse is active, until NS `endAt` -/
  active : Bool := false
  endAt : Nat := 0
  /-- a STOP takes effect at this NS (R225) -/
  stop : Option Nat := none
  suppLogged : Bool := false
  /-- level of the pad -/
  level : Bool := false
  /-- the tick of an arm by a timetable entry, and the entry (R224) -/
  ttbArm : Option (Nat × Nat) := none
  /-- tick of the last arm by a register write (R224) -/
  regArm : Option Nat := none
  deriving DecidableEq, Repr

/-! ## Launch and timetable at a unit (R232 to R264) -/

/-- States of a launch slot (R262). -/
inductive SlotSt where
  | requested
  | armed
  | go
  | await
  deriving DecidableEq, Repr

/-- A launch slot (R233, R236, R239). -/
structure Slot where
  gallery : Nat
  lid : Nat
  /-- the target as NS (R20), and the tolerance -/
  target : Nat
  mask : BitVec 64
  tol : Nat
  epochLo : Nat
  /-- taken as origin, and whether the matching broadcast has been seen (R236) -/
  origin : Bool
  broadcast : Bool
  st : SlotSt
  /-- the GO accepted came from domain B -/
  domb : Bool
  reqAt : Nat
  deriving DecidableEq, Repr

/-- A launch that has fired and whose record is not yet written (R249, R650). -/
structure Fired where
  isLocal : Bool
  gallery : Nat
  lid : Nat
  /-- the target or due time, and the NS at which it fired -/
  target : Nat
  firedNs : Nat
  tol : Nat
  /-- regions that fired -/
  regions : BitVec 64
  tapInv : Bool
  hold : Bool
  domb : Bool
  /-- judged on T + 2: regions still stopped, and the largest lateness so far -/
  judged : Bool
  waiting : BitVec 64
  late : Nat
  deadLogged : Bool
  deriving DecidableEq, Repr

/-- States of a timetable entry (R263). -/
inductive TtbSt where
  | free
  | pending
  | staged
  deriving DecidableEq, Repr

/-- A timetable entry (R256). -/
structure TtbEnt where
  due : Nat := 0
  kind : Nat := 0
  target : Nat := 0
  evt : Bool := false
  param : Nat := 0
  rep : Nat := 0
  count : Nat := 0
  st : TtbSt := .free
  /-- RESULT of ENT_STS -/
  result : Nat := 0
  /-- NS at which it acts once staged: DUE, or the tick after a late staging (R258) -/
  actAt : Nat := 0
  deriving DecidableEq, Repr

/-- Launch and timetable state of a unit. -/
structure Launch where
  slots : Tab (Option Slot)
  /-- fired launches in the order in which their records are due (R48) -/
  fired : List Fired
  /-- fire records (R261), and LCH_REC_OVERFLOW logged in the present full period -/
  recs : List (BitVec 64)
  overLogged : Bool
  /-- target of the last PHASE 1 heard, by gallery and launch ID: later copies are discarded -/
  heard : Tab (Option (BitVec 48))
  /-- launches missed with NO_GO: gallery, launch ID, target (R248) -/
  missed : List (Nat × Nat × Nat)
  /-- gallery and launch ID of the last accepted request, which ORIG_STS follows -/
  orig : Option (Nat × Nat)
  /-- tick of the last launch token (R500) -/
  refillAt : Nat
  ttb : Tab TtbEnt
  /-- tick of the last staging (R258) -/
  stagedAt : Option Nat
  deriving DecidableEq, Repr

/-! ## Barriers, flow counters, fences and deadlock detection (R315 to R358) -/

/-- An accepted barrier entry: its tag and the tick on which it was accepted. -/
structure BarEnt where
  tag : Nat
  at_ : Nat
  deriving DecidableEq, Repr

/-- Participation of a member (R318): the entry counted in the current round, the one counted in the next, and the one
held. IDLE, IN, AHEAD and HELD are none, one, two and three of them. -/
structure BarMem where
  cur : Option BarEnt := none
  next : Option BarEnt := none
  held : Option BarEnt := none
  deriving DecidableEq, Repr

/-- STATE of a barrier (R353). -/
inductive BarSt where
  | disabled
  | opened
  | hallWait
  | stalled
  deriving DecidableEq, Repr

/-- A barrier context (R316 to R331). -/
structure Barrier where
  sense : Bool := false
  st : BarSt := .disabled
  failed : Bool := false
  mems : Tab BarMem := []
  round : BitVec 32 := 0
  expect : Nat := 0
  /-- tick on which the present round became current -/
  roundAt : Nat := 0
  /-- the round that became current is already full: it completes on the following tick (R322) -/
  again : Bool := false
  /-- participation codes at expiry of a deadline, by core (R329) -/
  frozen : Tab Nat := []
  deriving DecidableEq, Repr

/-- A flow counter pair (R332). -/
structure FlowPair where
  p : BitVec 48 := 0
  c : BitVec 48 := 0
  failed : Bool := false
  deriving DecidableEq, Repr

/-- A tracker pair (R341): its stream and DRAINED. -/
structure FncPair where
  src : BitVec 16
  tag : BitVec 16
  drained : BitVec 32
  deriving DecidableEq, Repr

/-- A remote signal (R337), with its tracker pair and the tick of its arrival. -/
structure FncSig where
  pair : Nat
  src : BitVec 16
  tag : BitVec 16
  wcount : BitVec 32
  sem : BitVec 16
  amount : BitVec 32
  at_ : Nat
  logged : Bool
  deriving DecidableEq, Repr

/-- The fence tracker: pairs, signals held, and in W64L covered signals that wait for the apply channel (R627). -/
structure Fence where
  pairs : Tab (Option FncPair)
  /-- pairs retired until reset (R336) -/
  bad : Tab Bool
  held : List FncSig
  covered : List FncSig
  aplReady : Bool
  deriving DecidableEq, Repr

/-- The deadlock detector (R346 to R350). -/
structure Dlk where
  armed : Bool
  fired : Bool
  quiet : Nat
  /-- the quiet count as the tick before left it: the detector fires on the tick that follows (R348) -/
  before : Nat := 0
  snap : Tab (BitVec 64)
  deriving DecidableEq, Repr

/-! ## Combining at a unit (R363 to R383) -/

/-- States of a staging and result buffer (R363). -/
inductive BufSt where
  | free
  | staging
  | posted
  | done
  deriving DecidableEq, Repr

/-- A staging and result buffer. -/
structure CmbBuf where
  st : BufSt := .free
  /-- written chunks -/
  mask : BitVec 8 := 0
  data : List (BitVec 64) := [0, 0, 0, 0, 0, 0, 0, 0]
  gallery : Nat := 0
  gseq : BitVec 16 := 0
  op : Nat := 0
  /-- CMB_STATUS, REPRO and DOMB of R381 -/
  status : Nat := 0
  repro : Bool := false
  domb : Bool := false
  deriving DecidableEq, Repr

/-- A complete copy of a result (R378). -/
structure CmbCopy where
  status : Nat
  epochLo : Nat
  repro : Bool
  payload : List (BitVec 64)
  deriving DecidableEq, Repr

/-- An open operation of the unit's client (R365). -/
structure CmbOp where
  gallery : Nat
  gseq : BitVec 16
  op : Nat
  buf : Nat
  sigSem : Nat
  sigEn : Bool
  notify : Bool
  core : Nat
  tag : Nat
  /-- the hall barrier that posted it (R325) -/
  bar : Option Nat
  postedAt : Nat
  /-- CTX.EPOCH at the post -/
  ctx : Nat
  copyA : Option CmbCopy
  copyB : Option CmbCopy
  commitA : Bool
  commitB : Bool
  /-- the domain whose COMMIT and copy came first: false A, true B -/
  ready : Option Bool
  /-- completes with LOCAL_ABORT (R382, R383) -/
  abort : Bool
  /-- its buffer is still its own -/
  bufOwned : Bool
  deriving DecidableEq, Repr

/-- The unit's combining client. -/
structure Client where
  bufs : Tab CmbBuf
  /-- open operations in order of their posts -/
  ops : List CmbOp
  stale : Tab Bool
  deriving DecidableEq, Repr

structure UnitState where
  base : Base
  portA : LinkPort
  portB : LinkPort
  dbg : Dbg
  sems : Sems
  servo : Servo
  /-- tick of the last transition of TCK.STS.STATE, and whether its ACQUIRE time-out has been logged (R541) -/
  tckAt : Nat
  unlockLogged : Bool
  taps : Tab Tap
  tapPorts : Tab TapPort
  cap : Cap
  drips : Tab Drip
  launch : Launch
  bars : Tab Barrier
  flows : Tab FlowPair
  fnc : Fence
  dlk : Dlk
  cmb : Client
  deriving DecidableEq, Repr
/-! ## Launch and combining at a distributor (R237 to R244, R366 to R379) -/

/-- A census report on a member port (R241). -/
structure Census where
  port : Nat
  count : Nat
  refused : Bool
  deriving DecidableEq, Repr

/-- A launch context (R237, R238). -/
structure LCtx where
  gallery : Nat
  epochLo : Nat
  lid : Nat
  target : Nat
  mask : BitVec 64
  tol : Nat
  uid : Nat
  reports : List Census
  /-- the census is complete and has been sent or decided -/
  sent : Bool
  /-- at a root: this root decides it (R237, R486, R489) -/
  own : Bool
  deriving DecidableEq, Repr

/-- Request tokens of a downstream port (R504): the count, the tick of the last one, LIM_REQ_DROP logged. -/
structure ReqTok where
  n : Nat := 8
  at_ : Nat := 0
  logged : Bool := false
  deriving DecidableEq, Repr

/-- A contribution to a context: port, OPCODE and EPOCH_LO as it carried them, operation's REPRO by R370, whether a unit made
it, payload, and the frame cycle of its arrival (R388). -/
structure Contrib where
  port : Nat
  opcode : Nat
  epochLo : Nat
  repro : Bool
  fromUnit : Bool
  payload : List (BitVec 64)
  cyc : Nat
  deriving DecidableEq, Repr

/-- A combining context (R366). -/
structure CmbCtx where
  gallery : Nat
  gseq : BitVec 16
  epochLo : Nat
  op : Nat
  /-- OPCODE and EPOCH_LO have been taken from a first contribution or result -/
  known : Bool
  members : List Nat
  cons : List Contrib
  mixed : Bool
  /-- a partial carried OPCODE[7]; a member port was lost here while it was open (R373) -/
  lostBelow : Bool
  lostHere : Bool
  openedAt : Nat
  /-- tick from which the lead's deadline runs (R374, R375), and whether it has expired -/
  dlFrom : Nat
  expired : Bool
  /-- it holds an accumulator set, or waits for one since a tick (R371) -/
  acc : Bool
  accWait : Option Nat
  /-- complete: its partial has left, or it waits its turn at the lead -/
  done : Bool
  result : Option CmbCopy
  /-- ports on which the result was sent, with the tick of its last frame; ports that sent GOOD -/
  relayed : List (Nat × Nat)
  good : List Nat
  commit : Bool
  /-- RSEQ of the RESULT record sent for it -/
  rope : Option (BitVec 16)
  /-- the gallery epoch has followed its result (R376) -/
  epochDone : Bool := false
  deriving DecidableEq, Repr

/-- A SUBST_HDR whose SUBST_DATA is due (R395). -/
structure SubstHdr where
  gallery : Nat
  epochLo : Nat
  gseq : BitVec 16
  port : Nat
  op : Nat
  repro : Bool
  deriving DecidableEq, Repr

/-- A result whose group is being relayed as it arrives (R377): the bodies of the CMB_DOWN sent so far, and the ports with the
transmit group on each. -/
structure CmbRelay where
  gallery : Nat
  gseq : BitVec 16
  bodies : List (BitVec 64)
  outs : List (Nat × Nat)
  deriving DecidableEq, Repr

/-- Combining and launch state of a distributor. -/
structure DistCmb where
  ctxs : List CmbCtx
  /-- freed contexts whose result some port has not yet acknowledged with GOOD (R378) -/
  kept : List CmbCtx := []
  /-- the result that is being relayed frame by frame -/
  relay : Option CmbRelay := none
  /-- galleries whose next partial carries OPCODE[7] (R369) -/
  newLost : Tab Bool
  /-- CMB_NOT_MEMBER has been logged, by gallery and port (R360) -/
  notMember : Tab Bool
  /-- subscriptions of this part: the tick of the SUBST_REQ (R368); a CMB_UP has since arrived on the port itself -/
  sub : Tab (Option Nat)
  subSeen : Tab Bool
  /-- ports that the partner subscribes to, and ports that it reported ABSENT -/
  served : Tab Bool
  absent : Tab Bool
  /-- no combining result since reset or unmute (R396) -/
  fresh : Bool
  /-- SYNC records of the set that is arriving: gallery, BASE, EPOCH -/
  sync : List (Nat × BitVec 16 × BitVec 16)
  /-- by gallery: first GSEQ that the lead hands back (R489) -/
  handFrom : Tab (Option (BitVec 16))
  sole : Bool
  subst : Option SubstHdr
  lctxs : List LCtx
  /-- launches whose GO this part has sent: gallery and launch ID (R248, R252) -/
  sentGo : List (Nat × Nat)
  reqTok : Tab ReqTok
  deriving DecidableEq, Repr

/-! ## The root: references, selection and holdover (R110 to R152) -/

/-- A reference source: REF0 to REF3 are 0 to 3, PTP is 4. -/
structure RefSrc where
  /-- monitors: clock activity, pulse or PTP activity, frequency, phase jump, drift (R121) -/
  clk : Bool := false
  pps : Bool := false
  freq : Bool := true
  phase : Bool := true
  drift : Bool := true
  /-- hall seconds for which every monitor has passed, and whether every monitor has passed since the last HT second mark -/
  served : Nat := 0
  whole : Bool := false
  qual : Bool := false
  elig : Bool := false
  everDisq : Bool := false
  wtrDone : Bool := false
  cause : Nat := 0
  /-- outvoted at SOFT (R142) -/
  soft : Bool := false
  /-- tick of the last second mark; phases of the last two, units of 2^-6 ns; marks seen -/
  last : Option Nat := none
  phi : Int := 0
  prev : Int := 0
  marks : Nat := 0
  /-- consecutive hall seconds with a bad count (R121) -/
  badFreq : Nat := 0
  /-- phases at the hall seconds since it qualified, newest first (R139) -/
  hist : List Int := []
  /-- hall seconds since it was last outvoted at HARD (R142) -/
  clean : Nat := 0
  deriving DecidableEq, Repr

/-- An entry of the Flowstone ring (R143): hall second, mean control word, usable. -/
structure FsRec where
  sec : Nat
  word : Int
  usable : Bool
  deriving DecidableEq, Repr

/-- What the root logic holds beside its registers; PPSOUT and the count of hall seconds are of every distributor. -/
structure Root where
  srcs : Tab RefSrc
  /-- phases of the target measured in the switch in progress (R132) -/
  meas : List Int
  err : Int
  lockRun : Nat
  unlockRun : Nat
  integ : Int
  /-- HT second marks seen, and the tick of the last -/
  secs : Nat
  secAt : Option Nat
  /-- Σ word × ticks of the present hall second, and the tick up to which it is summed -/
  acc : Int
  accAt : Nat
  /-- mean control words of the last hall seconds, newest first -/
  means : List Int
  /-- the root has been LOCKED, not switching and without REF_DRIFT_SOFT for the whole present second (R143) -/
  steady : Bool
  recs : List FsRec
  /-- hall second from which the aged model counts (R610) -/
  ageFrom : Nat
  /-- holdover word, and twice the hall second at the centre of its window (R146) -/
  holdWord : Int
  holdCentre : Int
  unchecked : Bool
  split : Bool
  /-- tick of an ARM accepted with no source selected (R25) -/
  armAt : Option Nat
  /-- ticks on which PPSOUT and FRMOUT go low (R149) -/
  ppsEnd : Option Nat
  frmEnd : Option Nat
  /-- tick of a commit whose next choice is due on the tick after it (R134) -/
  commitAt : Option Nat
  /-- AGE.COMP as it stood at the entry to HOLDOVER (R146, R610) -/
  ageComp : Bool
  deriving DecidableEq, Repr

/-- A master heard in Announce messages (R118), with the address of its frames. -/
structure PtpMaster where
  id : BitVec 64
  port : BitVec 16
  addr : BitVec 48
  ann : PtpAnn
  log : BitVec 8
  at_ : Nat
  deriving DecidableEq, Repr

/-- The PTP slave (R118 to R120). Times are in ns, offsets in 2^-16 ns unless said otherwise. -/
structure Ptp where
  masters : List PtpMaster
  sel : Option (BitVec 64 × BitVec 16)
  /-- a two-step Sync that waits for its Follow_Up: sequenceId, receive time and correction -/
  sync : Option (BitVec 16 × Int × Int)
  /-- t2 − t1 of the last Sync -/
  t21 : Option Int
  syncAt : Nat
  syncLog : BitVec 8
  /-- the Delay_Req in flight: sequenceId and transmit time; the next sequenceId, its interval and the last sending -/
  dreq : Option (BitVec 16 × Int)
  dreqSeq : BitVec 16
  dreqLog : BitVec 8
  dreqAt : Option Nat
  mpd : Option Int
  /-- filtered phase, units of 2^-6 ns, and hall seconds of filtered offsets -/
  filt : Int
  filtN : Nat
  deriving DecidableEq, Repr

/-- Admission, health and start-up state of a distributor (R35, R467, R476, R535, R634, R638). -/
structure DistAdm where
  /-- the rotation: the next slot, and the tick on which the last one opened (R535) -/
  slot : Nat
  slotAt : Option Nat
  /-- SRV.STS.LOCK has been 1 since reset (R179, R535); an epoch has been recorded (R27) -/
  lockedOnce : Bool
  epochHeld : Bool
  /-- at a root, the map of identifiers, each with the port it was reported on (R35) -/
  ids : List (Nat × Nat)
  /-- ticks of this part's expulsions, and of expulsions reported from below (R476) -/
  own : List Nat
  sub : List Nat
  /-- tick of the last forwarding, by CODE and OBJ (R467) -/
  fwd : Tab (Option Nat)
  /-- ticks of the last TIME frames of a root, decay and candidate evaluation -/
  timeAt : Nat
  decayAt : Nat
  evalAt : Nat
  /-- RSTATE in bits 2 to 1 and HOLD_N in bit 0, as last driven (R179, R528) -/
  pins : Nat
  /-- sensors whose THM_SENSOR_FAIL has been logged (R638) -/
  thmFailed : BitVec 4
  /-- the SMBus read buffer: data and STATUS, which is 0x0F once a Block Read has returned it; none before the first request
after reset (R634, assumption 122) -/
  smb : Option (Word × Nat)
  deriving DecidableEq, Repr

/-- The Harfo distributor. -/
structure DistState where
  base : Base
  ports : Tab LinkPort
  servo : Servo
  cal : Calib
  rope : Rope
  cmb : DistCmb
  root : Root
  ptp : Ptp
  adm : DistAdm
  /-- the port on which the last sequenced frame was accepted, and the tick (R84) -/
  trig : Option (Nat × Nat) := none
  deriving DecidableEq, Repr

/-- The machine: the commands that wait, first in first out, and the two parts. -/
structure State where
  pending : List Instr
  unit : UnitState
  dist : DistState
  deriving DecidableEq, Repr

/-! ## Reset (R523 to R532) -/

/-- An event controller after reset (R432, R441, R449, R450). -/
def Evc.atReset : Evc :=
  { srcs := [], grps := [], nests := [], rot := 0, evreq := 0, psleep := 0, lantern := false, waking := false,
    msixEn := false, fmask := false, vecPend := 0 }

/-- What both parts hold after a reset at tick `now`: registers at their reset values, an empty log, no window, and the
counter not valid. `now` and `free` are the model's own counts (assumptions 1 and 5). -/
def Base.atReset (k : Kind) (phase : Phase) (now free : Nat) : Base :=
  { kind := k, phase := phase, phaseAt := now, tick := now, ns := 0, valid := false, free := free, regs := [],
    latch := [], stage := [], log := [], logGap := false, first := none, window := none, locked := false,
    evc := Evc.atReset, blk := now, slip := false, outs := [] }

/-- The semaphore block after reset (R276, R286, R290). -/
def Sems.atReset : Sems :=
  { vals := [], retired := [], waits := [], lostEntries := 0, fullLogged := false, cmps := [], sump := [], outQ := [],
    paused := [], clearing := none, staleLogged := false }

/-- Launch and timetable after reset (R233, R256, R261). -/
def Launch.atReset (now : Nat) : Launch :=
  { slots := [], fired := [], recs := [], overLogged := false, heard := [], missed := [], orig := none, refillAt := now,
    ttb := [], stagedAt := none }

/-- A unit after reset (R530, R531): DOWN, every object empty, the deadlock detector armed (R357). -/
def UnitState.atReset (b : Base) : UnitState :=
  { base := b, portA := {}, portB := {}, dbg := {}, sems := Sems.atReset, servo := {}, tckAt := b.tick, unlockLogged := false,
    taps := [], tapPorts := [], cap := {}, drips := [], launch := Launch.atReset b.tick, bars := [], flows := [],
    fnc := { pairs := [], bad := [], held := [], covered := [], aplReady := false },
    dlk := { armed := true, fired := false, quiet := 0, snap := [] },
    cmb := { bufs := [], ops := [], stale := [] } }

/-- Combining and launch at a distributor after reset (R366, R368, R396). -/
def DistCmb.atReset : DistCmb :=
  { ctxs := [], newLost := [], notMember := [], sub := [], subSeen := [], served := [], absent := [], fresh := true,
    sync := [], handFrom := [], sole := false, subst := none, lctxs := [], sentGo := [], reqTok := [] }

/-- The root logic after reset (R129, R143). -/
def Root.atReset (now : Nat) : Root :=
  { srcs := [], meas := [], err := 0, lockRun := 0, unlockRun := 0, integ := 0, secs := 0, secAt := none, acc := 0,
    accAt := now, means := [], steady := false, recs := [], ageFrom := 0, holdWord := 0, holdCentre := 0,
    unchecked := false, split := false, armAt := none, ppsEnd := none, frmEnd := none, commitAt := none, ageComp := false }

/-- The PTP slave after reset (R118). -/
def Ptp.atReset (now : Nat) : Ptp :=
  { masters := [], sel := none, sync := none, t21 := none, syncAt := now, syncLog := 0, dreq := none, dreqSeq := 0,
    dreqLog := 0, dreqAt := none, mpd := none, filt := 0, filtN := 0 }

/-- Admission, health and start-up after reset (R535, R638). `pins` is what RSTATE and HOLD_N drive. -/
def DistAdm.atReset (now pins : Nat) : DistAdm :=
  { slot := 0, slotAt := none, lockedOnce := false, epochHeld := false, ids := [], own := [], sub := [], fwd := [],
    timeAt := now, decayAt := now, evalAt := now, pins := pins, thmFailed := 0, smb := none }

/-- A distributor after reset (R525, R529). -/
def DistState.atReset (b : Base) (pins : Nat) : DistState :=
  { base := b, ports := [], servo := {}, cal := {}, rope := { downAt := b.tick }, cmb := DistCmb.atReset,
    root := Root.atReset b.tick, ptp := Ptp.atReset b.tick, adm := DistAdm.atReset b.tick pins }

/-- A root's base: its counter is valid from the first TCLK edge (R529), which shows NS 1, so that the first tick whose NS is
a multiple of 4, and with it the first block, is the fourth (R54). -/
def Base.rooted (b : Base) : Base := { b with valid := true, blk := b.tick + 4 }

/-- Registers of a domain A root that differ from their reset values: the counter became valid (R529, R598), and CMB.STS
shows LEAD (R372, R399). -/
def leadRegs : Tab Word := [(0x01010, 1), (0x0A044, 0x10000000)]

/-- The machine with both resets just released (assumption 7): a W1024 unit (assumption 2), and a root of domain A
(assumption 3) whose RSTATE and HOLD_N read FREERUN (R130). -/
def State.reset : State :=
  { pending := [],
    unit := UnitState.atReset (Base.atReset (.unit UnitCfg.w1024) .init 0 0),
    dist := DistState.atReset { (Base.atReset (.dist Straps.rootA) .init 0 0).rooted with regs := leadRegs } 1 }

end Sys2Proof.Machine
end

