-- ==== Sys2Proof/Machine/Ops.lean ====
section
/-! DEFINITION. The named operations on what both parts hold: registers, saturating counters, page events, the fault log,
event sources, the presence window and outputs. -/

namespace Sys2Proof.Machine

/-! ## Registers -/

/-- The value a register holds (its reset value until something writes it). -/
def rd (b : Base) (a : Nat) : Word := tabGet (resetOf b.kind a) a b.regs

/-- Give a register a value. -/
def wr (a : Nat) (v : Word) (b : Base) : Base := { b with regs := tabSet (resetOf b.kind a) a v b.regs }

/-- A field of a register, and the register with that field replaced. -/
def rdF (b : Base) (a lo w : Nat) : Nat := fld (rd b a) lo w
def wrF (a lo w v : Nat) (b : Base) : Base := wr a (setFld (rd b a) lo w v) b

/-- A field that holds one bit. -/
def rdB (b : Base) (a i : Nat) : Bool := rdF b a i 1 == 1
def wrB (a i : Nat) (v : Bool) (b : Base) : Base := wrF a i 1 (if v then 1 else 0) b

/-- Count one happening in a field that saturates. -/
def incF (a lo w : Nat) (b : Base) : Base := wrF a lo w (satInc (2 ^ w - 1) (rdF b a lo w)) b

/-- Count one happening in a 32-bit saturating counter. -/
def inc (a : Nat) (b : Base) : Base := incF a 0 32 b

/-- A saturating counter that the model keeps as a number. -/
def cnt32 (n : Nat) : Word := BitVec.ofNat 32 (min n 0xFFFFFFFF)

/-- Give a `_LO`, `_HI` pair a 64-bit value, and read it. -/
def wr64 (a : Nat) (v : BitVec 64) (b : Base) : Base := wr (a + 4) (hi32 v) (wr a (lo32 v) b)
def rd64 (b : Base) (a : Nat) : BitVec 64 := (rd b (a + 4) ++ rd b a : BitVec 64)

/-- Byte address of offset `o` in page `p`. -/
def pageAddr (p o : Nat) : Nat := p * 0x1000 + o

/-- Set bits of PAGE_EVT of a page: page event `i` occurs (R550). -/
def pgEvt (p i : Nat) (b : Base) : Base := wrB (pageAddr p 0x010) i true b

/-- Whether the base is a unit's. -/
def isUnit (b : Base) : Bool := match b.kind with
  | .unit _ => true
  | .dist _ => false

/-- The configuration of a unit's base; the full size where the base is a distributor's, which no unit operation meets. -/
def cfgOf (b : Base) : UnitCfg := match b.kind with
  | .unit c => c
  | .dist _ => UnitCfg.w1024

/-- The straps of a distributor's base. -/
def strapsOf (b : Base) : Straps := match b.kind with
  | .unit _ => Straps.rootA
  | .dist st => st

/-- Add an output. -/
def emit (o : Out) (b : Base) : Base := { b with outs := b.outs ++ [o] }

/-- Draw the next free value's index (assumption 5). -/
def draw (b : Base) : Base := { b with free := b.free + 1 }

/-! ## Hall time -/

/-- The NS value a part reports: 0 while its counter is not valid (R22). -/
def nsNow (b : Base) : BitVec 64 := if b.valid then b.ns else 0

/-- HT48 of the current tick (R15). -/
def ht48 (b : Base) : BitVec 48 := (nsNow b).setWidth 48

/-- The part's own count for Echo timestamps: NS once valid, the tick count before (assumption 9). -/
def localNs (b : Base) : Nat := if b.valid then b.ns.toNat else b.tick

/-- Extension of a `w`-bit shortened time relative to NS `now` (R20, and R94 for the 32-bit field in its own unit). -/
def extendHt (w now v : Nat) : Nat :=
  let lo := if now < 2 ^ (w - 1) then 0 else now - 2 ^ (w - 1)
  lo + (v + 2 ^ w - lo % 2 ^ w) % 2 ^ w

/-- NS extended from HT48 at the part's current time (R20). -/
def extend48 (b : Base) (v : BitVec 48) : BitVec 64 := BitVec.ofNat 64 (extendHt 48 (nsNow b).toNat v.toNat)

/-! ## The presence window -/

/-- The presence window is open: a window is held and NS is below its EXPIRY (R505). -/
def windowOpen (b : Base) : Bool := match b.window with
  | some e => decide (b.ns.toNat < e.toNat)
  | none => false

/-! ## Event sources -/

/-- Page number of the EVC page. -/
def evcPage (b : Base) : Nat := if isUnit b then 0x10 else 0x0F

def srcGet (b : Base) (n : Nat) : EvSrc := tabGet {} n b.evc.srcs
def srcSet (n : Nat) (e : EvSrc) (b : Base) : Base := { b with evc := { b.evc with srcs := tabSet {} n e b.evc.srcs } }
def grpGet (b : Base) (g : Nat) : EvGrp := tabGet {} g b.evc.grps
def grpSet (g : Nat) (e : EvGrp) (b : Base) : Base := { b with evc := { b.evc with grps := tabSet {} g e b.evc.grps } }

/-- SRC_CFG_n (R451). -/
def srcCfg (b : Base) (n : Nat) : Word := rd b (pageAddr (evcPage b) (0x400 + 4 * n))

/-- Whether a source number names a source of the part (R418, R448). -/
def srcExists (b : Base) (n : Nat) : Bool :=
  if isUnit b then n ≤ 22 || (32 ≤ n && n ≤ 76) || (128 ≤ n && n ≤ 271)
  else n ≤ 19 || (32 ≤ n && n ≤ 164)

/-- EVIN_CTL_i.MODE of source 256 + i (R422). -/
def evinMode (b : Base) (n : Nat) : Nat := rdF b (pageAddr 0x10 (0x2C0 + 4 * (n - 256))) 8 3

/-- Whether a source is a level source (R418, R421, R422, R448). -/
def srcLevel (b : Base) (n : Nat) : Bool :=
  if isUnit b then
    n ≤ 22 || (128 ≤ n && n ≤ 255 && bitOf (srcCfg b n) 21) || (256 ≤ n && n ≤ 271 && (evinMode b n == 4 || evinMode b n == 5))
  else n ≤ 163

/-- PAGE_EVT AND PAGE_EVT_EN of a page is not zero (R549, R550). -/
def pageEvtPend (b : Base) (p : Nat) : Bool := (rd b (pageAddr p 0x010) &&& rd b (pageAddr p 0x014)) != 0

/-- The condition of a level source holds (R418, R448, R459, R550). -/
def srcCond (b : Base) (n : Nat) : Bool :=
  if n = 0 then !b.log.isEmpty
  else if n < 32 then pageEvtPend b n
  else if isUnit b then
    (if 256 ≤ n ∧ evinMode b n = 5 then !(srcGet b n).level else (srcGet b n).level)
  else pageEvtPend b (0x100 + (n - 32))

/-- A source is pending (R419): a level source while its condition holds and it is not active. -/
def srcPending (b : Base) (n : Nat) : Bool :=
  srcExists b n && (if srcLevel b n then srcCond b n && (srcGet b n).active.isNone else (srcGet b n).pend)

/-- MASK bit of a source (R446, R450); source 0 cannot be masked (R449). -/
def srcMasked (b : Base) (n : Nat) : Bool :=
  n != 0 && bitOf (rd b (pageAddr (evcPage b) (0x100 + 4 * (n / 32)))) (n % 32)

/-- Make a pulse source pending with `k` more occurrences (R419, R434, R445). -/
def makePending (n k : Nat) (b : Base) : Base :=
  let e := srcGet b n
  srcSet n { e with pend := true, count := (if e.pend then e.count else 0) + k, fresh := true } b

/-- One occurrence of a pulse source, moderated by its group (R419, R438); a timer that runs keeps its length (R439). -/
def occur (n : Nat) (b : Base) : Base :=
  let g := fld (srcCfg b n) 16 5
  let hold := if g < 16 then rdF b (pageAddr (evcPage b) (0x240 + 4 * g)) 0 16 else 0
  if g < 16 ∧ (grpGet b g).timing then srcSet n { srcGet b n with held := (srcGet b n).held + 1 } b
  else if hold = 0 then makePending n 1 b
  else makePending n 1 (grpSet g { timing := true, startedAt := b.tick, len := hold } b)

/-! ## The fault log -/

/-- Page number of the FLT page, and entries the log holds (R458). -/
def fltPage (b : Base) : Nat := if isUnit b then 0x13 else 0x10
def logCap (b : Base) : Nat := if isUnit b then 128 else 1024

/-- Free log entries. -/
def logFree (b : Base) : Nat := logCap b - b.log.length

/-- FLT.CNT_CORR, CNT_ALARM or CNT_FAULT by kind (R458, R494). -/
def cntAddr (b : Base) (kind : Nat) : Nat := pageAddr (fltPage b) (0x058 + 4 * min kind 2)

/-- Two entries record the same happening (R456). -/
def sameHap (x y : LogEntry) : Bool :=
  x.code == y.code && x.port == y.port && x.obj == y.obj && x.unitId == y.unitId && x.remote == y.remote

/-- An entry of the same tick and of a greater CODE, before which R456 places a new entry `e`. -/
def isLater (e x : LogEntry) : Bool := x.tick == e.tick && decide (e.code.toNat < x.code.toNat)

/-- The entries of the log that a new entry follows, and those of its tick that it comes before (R456). -/
def logHead (e : LogEntry) (l : List LogEntry) : List LogEntry := (l.reverse.dropWhile (isLater e)).reverse
def logTail (e : LogEntry) (l : List LogEntry) : List LogEntry := (l.reverse.takeWhile (isLater e)).reverse

/-- The last entry of the log with its REPEAT incremented (R456). -/
def bumpLast : List LogEntry → List LogEntry
  | [] => []
  | [e] => [{ e with rep := if e.rep = 255 then e.rep else e.rep + 1 }]
  | e :: t => e :: bumpLast t

/-- Whether a happening merges into the newest entry before its place (R456). -/
def logMerges (b : Base) (e : LogEntry) : Bool := match (logHead e b.log).getLast? with
  | some l => sameHap l e
  | none => false

/-- Whether the log accepts a new entry of this kind (R458). -/
def logAccepts (b : Base) (e : LogEntry) : Bool := if e.kind = 3 then 1 ≤ logFree b else 2 ≤ logFree b

/-- The first entry held is one that a new entry comes before, or there is none (R456, R460). -/
def beforeFirst (e : LogEntry) (b : Base) : Bool := match b.first with
  | some f => isLater e f
  | none => true

/-- Load FIRST_0 to FIRST_3 with the first Fault or Fatal entry (R460). -/
def loadFirst (e : LogEntry) (b : Base) : Base :=
  if beforeFirst e b && decide (2 ≤ e.kind.toNat) then pgEvt (fltPage b) 0 { b with first := some e } else b

/-- Set the fault bit of a page, where the happening has one (R461). -/
def fltBit (pg : Option (Nat × Nat)) (b : Base) : Base := match pg with
  | some (p, i) => wrB (pageAddr p 0x018) (min i 31) true b
  | none => b

/-- Enter one entry: merge, insert in its place or drop (R456 to R458), count it by kind, and set the page's fault bit
(R461). -/
def addEntry (pg : Option (Nat × Nat)) (e : LogEntry) (b : Base) : Base :=
  let b := inc (cntAddr b e.kind.toNat) b
  if logMerges b e then fltBit pg { b with log := bumpLast (logHead e b.log) ++ logTail e b.log }
  else if logAccepts b e then
    let full := decide (logFree b < 2)
    let b := { b with log := logHead e b.log ++ { e with gap := b.logGap } :: logTail e b.log, logGap := false }
    let a := pageAddr (fltPage b) 0x050
    let b := wrF a 16 16 (rdF b a 16 16 + 1) b
    let b := if !full && decide (logFree b < 2) then pgEvt (fltPage b) 1 b else b
    fltBit pg (loadFirst { e with gap := false } b)
  else inc (pageAddr (fltPage b) 0x054) { b with logGap := true }

/-- The entry of a happening of this part, on the current tick (R457). -/
def mkEntry (b : Base) (code : BitVec 12) (h : Hap) (port obj unitId aux : Nat) : LogEntry :=
  { ht := ht48 b, code := code, kind := BitVec.ofNat 2 h.kind, remote := false, gap := false, rep := 0,
    port := BitVec.ofNat 8 port, obj := BitVec.ofNat 16 obj, unitId := BitVec.ofNat 20 unitId,
    aux := BitVec.ofNat 8 aux, dist := false, tick := b.tick }

/-- Log a happening of page `h.page` of this part with its PORT, OBJ, UNIT and AUX values. -/
def logB (h : Hap) (port obj unitId aux : Nat) (b : Base) : Base :=
  addEntry (some (h.page, h.idx)) (mkEntry b (hapCode h) h port obj unitId aux) b

/-- Page number and CODE page of the pages of a port (R462). -/
def portPage : PortRef → Nat
  | .unit .a => 0x03
  | .unit .b => 0x04
  | .dist n => 0x100 + n.val
def portCodePage : PortRef → Nat
  | .unit .a => 0x03
  | .unit .b => 0x04
  | .dist _ => 0x3F

/-- The number a log entry carries in PORT for a port (R457). -/
def portNum : PortRef → Nat
  | .unit .a => 0
  | .unit .b => 1
  | .dist n => n.val

/-- Log a link happening of a port (R109, R462). -/
def logLink (p : PortRef) (h : Hap) (obj aux : Nat) (b : Base) : Base :=
  let h' : Hap := { h with page := portCodePage p }
  addEntry (some (portPage p, h.idx)) (mkEntry b (hapCode h') h' (portNum p) obj 0 aux) b

/-- No port: PORT reads 0xFF (R457). -/
def noPort : Nat := 0xFF

/-- The 128 bits of a log entry (R457). -/
def entryBits (e : LogEntry) : BitVec 128 :=
  e.ht ++ e.code ++ e.kind ++ BitVec.ofBool e.remote ++ BitVec.ofBool e.gap ++ e.rep ++ e.port ++ e.obj ++ e.unitId ++
  e.aux ++ BitVec.ofBool e.dist ++ (0 : BitVec 2) ++ (1 : BitVec 1)

/-! ## Ports -/

/-- The state of a port, and the machine with a port's state replaced. -/
def unitPort (u : UnitState) : Dom → LinkPort
  | .a => u.portA
  | .b => u.portB
def setUnitPort (u : UnitState) (d : Dom) (lp : LinkPort) : UnitState := match d with
  | .a => { u with portA := lp }
  | .b => { u with portB := lp }
def distPort (d : DistState) (n : Nat) : LinkPort := tabGet {} n d.ports
def setDistPort (n : Nat) (lp : LinkPort) (d : DistState) : DistState := { d with ports := tabSet {} n lp d.ports }

def getPort (s : State) : PortRef → LinkPort
  | .unit d => unitPort s.unit d
  | .dist n => distPort s.dist n.val
def setPort (p : PortRef) (lp : LinkPort) (s : State) : State := match p with
  | .unit d => { s with unit := setUnitPort s.unit d lp }
  | .dist n => { s with dist := setDistPort n.val lp s.dist }

/-- The base of the part a port belongs to, and the machine with that base changed. -/
def baseOf (s : State) : PortRef → Base
  | .unit _ => s.unit.base
  | .dist _ => s.dist.base
def onBaseOf (p : PortRef) (f : Base → Base) (s : State) : State := match p with
  | .unit _ => { s with unit := { s.unit with base := f s.unit.base } }
  | .dist _ => { s with dist := { s.dist with base := f s.dist.base } }
def partBase (s : State) : Part → Base
  | .unit => s.unit.base
  | .dist => s.dist.base
def onPartBase (p : Part) (f : Base → Base) (s : State) : State := match p with
  | .unit => { s with unit := { s.unit with base := f s.unit.base } }
  | .dist => { s with dist := { s.dist with base := f s.dist.base } }

/-- Change the unit, or the distributor. -/
def onUnit (f : UnitState → UnitState) (s : State) : State := { s with unit := f s.unit }
def onDist (f : DistState → DistState) (s : State) : State := { s with dist := f s.dist }
/-- Change the base of the unit, or of the distributor. -/
def uB (f : Base → Base) (u : UnitState) : UnitState := { u with base := f u.base }
def dB (f : Base → Base) (d : DistState) : DistState := { d with base := f d.base }
/-- Change a port. -/
def onPort (p : PortRef) (f : LinkPort → LinkPort) (s : State) : State := setPort p (f (getPort s p)) s

/-- Number of a domain: 0 for A, 1 for B. -/
def domNum : Dom → Nat
  | .a => 0
  | .b => 1
def domOther : Dom → Dom
  | .a => .b
  | .b => .a

end Sys2Proof.Machine
end

