-- ==== Sys2Proof/Machine/Link.lean ====
section
/-! DEFINITION. Fyolink: the debug trace of the unit's frames, the transmit queues and arbitration, reliable delivery,
training and link states, and the settings of a port. -/

namespace Sys2Proof.Machine

/-! ## The unit's frame trace (R591 to R593) -/

/-- Trace entries the configuration holds (R574). -/
def traceCap (u : UnitState) : Nat := if (cfgOf u.base).w64 then 64 else 256

/-- Stop the trace: RUNNING clears and DBG page event 1 is set (R593). -/
def traceStop (u : UnitState) : UnitState :=
  if u.dbg.running then uB (pgEvt 0x16 1) { u with dbg := { u.dbg with running := false, post := none } } else u

/-- The first trigger after ARM (R593): TRIG_HT and the trigger index are recorded; ring mode counts POST down. -/
def traceTrigger (idx : Nat) (u : UnitState) : UnitState :=
  if u.dbg.running && !u.dbg.trig then
    let post := rdF u.base 0x16040 8 8
    let ring := rdF u.base 0x16040 6 2 == 1
    let u := uB (fun b => pgEvt 0x16 0 (wr64 0x16054 (nsNow b) b))
      { u with dbg := { u.dbg with trig := true, trigIdx := idx, post := if ring then some post else none } }
    if ring && post == 0 then traceStop u else u
  else u

/-- A trace entry (R592). -/
def traceEntry (ns : BitVec 64) (sent domb lane crcBad : Bool) (f : Frame) : BitVec 128 :=
  lo32 ns ++ (1 : BitVec 1) ++ BitVec.ofBool sent ++ BitVec.ofBool domb ++ BitVec.ofBool lane ++ BitVec.ofBool crcBad ++
  (0 : BitVec 13) ++ f.typ ++ f.seq ++ f.body

/-- A frame qualifies for the trace (R593). -/
def traceQualifies (u : UnitState) (sent : Bool) (d : Dom) (active : Bool) (f : Frame) : Bool :=
  let c := rd u.base 0x16040
  bitOf c 0 && bitOf c (1 + domNum d) && bitOf c (if sent then 4 else 3) &&
  bitOf (rd u.base 0x16044) (f.typ.toNat % 32) && (active || bitOf c 5)

/-- Show a crossing frame to the trace (R593): at most four qualifying frames in a frame cycle are accepted. -/
def traceFrame (sent crcBad : Bool) (d : Dom) (lane : Bool) (f : Frame) (u : UnitState) : UnitState :=
  let lp := unitPort u d
  let active := lane == (if sent then lp.phy.txLane else lp.phy.rxLane)
  if u.dbg.running && traceQualifies u sent d active f then
    let cyc := u.base.tick / 4
    let n := if u.dbg.cyc = cyc then u.dbg.cycN else 0
    if 4 ≤ n then uB (inc 0x16070) { u with dbg := { u.dbg with cyc := cyc, cycN := n } }
    else
      let e := traceEntry (nsNow u.base) sent (decide (d = .b)) lane crcBad f
      let ring := rdF u.base 0x16040 6 2 == 1
      let spill := ring && decide (traceCap u ≤ u.dbg.held.length)
      let held := (if spill then u.dbg.held.drop 1 else u.dbg.held) ++ [e]
      let u := { u with dbg := { u.dbg with
        held := held, cyc := cyc, cycN := n + 1, wrapped := u.dbg.wrapped || spill,
        trigIdx := if spill then u.dbg.trigIdx - 1 else u.dbg.trigIdx } }
      let wasTrig := u.dbg.trig
      let hit := bitOf (rd u.base 0x16048) 6 && rdF u.base 0x16048 0 6 == f.typ.toNat
      let u := if hit then traceTrigger (held.length - 1) u else u
      if wasTrig then
        match u.dbg.post with
        | some k => if k ≤ 1 then traceStop u else { u with dbg := { u.dbg with post := some (k - 1) } }
        | none => if !ring && decide (traceCap u ≤ held.length) then traceStop u else u
      else if !ring && decide (traceCap u ≤ held.length) then traceStop u else u
  else u

/-! ## Settings of a port (R584, R493, R618) -/

/-- Page address of a port's page. -/
def portReg (p : PortRef) (o : Nat) : Nat := pageAddr (portPage p) o

/-- LINK_CTL.EN. -/
def portEn (s : State) (p : PortRef) : Bool := rdB (baseOf s p) (portReg p 0x040) 0

/-- A setting held in the unit's LINK_TOUT or the distributor's TOUT page. -/
def linkSet (s : State) (p : PortRef) (uOff uLo uW dOff dLo dW : Nat) : Nat := match p with
  | .unit _ => rdF s.unit.base (portReg p uOff) uLo uW
  | .dist _ => rdF s.dist.base (pageAddr 0x11 dOff) dLo dW

def retrySlack (s : State) (p : PortRef) : Nat := linkSet s p 0x048 0 7 0x040 0 6
def swapBursts (s : State) (p : PortRef) : Nat := linkSet s p 0x048 8 4 0x044 0 4
/-- The swap window, training limit and dead time, in ticks. -/
def swapWindow (s : State) (p : PortRef) : Nat := linkSet s p 0x048 16 10 0x044 16 10 * 100000
def trainLimit (s : State) (p : PortRef) : Nat := linkSet s p 0x04C 16 7 0x048 0 7 * 1000000
def readmitDead (s : State) (p : PortRef) : Nat := linkSet s p 0x04C 0 10 0x04C 0 10 * 100000
def echoLossLimit (s : State) (p : PortRef) : Nat := linkSet s p 0x04C 24 5 0x050 0 5
/-- ECHO_CTL.INTERVAL in ticks (R93). -/
def echoInterval (s : State) (p : PortRef) : Nat := match p with
  | .unit _ => rdF s.unit.base (portReg p 0x050) 0 9 * 1000
  | .dist _ => rdF s.dist.base (portReg p 0x04C) 0 9 * 1000

/-- The tick of the part a port belongs to. -/
def nowOf (s : State) (p : PortRef) : Nat := (baseOf s p).tick

/-- Invalid tier strap: IDN.STRAP.ERR (R527, R528). -/
def strapErr (st : Straps) : Bool := !st.root && st.tier == 0

/-- Tier in effect (R527). -/
def distTier (d : DistState) : Nat := if (strapsOf d.base).root then 0 else (strapsOf d.base).tier.toNat
def isRoot (d : DistState) : Bool := (strapsOf d.base).root
def distDomB (d : DistState) : Bool := (strapsOf d.base).domB

/-- A port may leave LINK_DOWN: enabled, in service, not expelled (R477), no strap error (R528), and at a root not an
upstream port (R613). -/
def portServes (s : State) (p : PortRef) : Bool :=
  portEn s p && decide ((baseOf s p).phase = .run) &&
  match p with
  | .unit _ => true
  | .dist n => !(getPort s p).hlth.expelled && !strapErr (strapsOf s.dist.base) &&
      !(isRoot s.dist && (n.val == 128 || n.val == 129))

/-- Role of a distributor port (R52). -/
def isDown (n : Nat) : Bool := n < 128
def isUp (n : Nat) : Bool := n == 128 || n == 129
def isRope (n : Nat) : Bool := n == 130 || n == 131

/-- A port is LINK_ADMITTED. -/
def admitted (lp : LinkPort) : Bool := decide (lp.phy.st = .admitted)
/-- Frames cross the link: LINK_UP or LINK_ADMITTED. -/
def linkRuns (lp : LinkPort) : Bool := decide (lp.phy.st = .up) || admitted lp

def laneOf (phy : LinkPhy) (lane : Bool) : Lane := if lane then phy.lane1 else phy.lane0
def setLane (phy : LinkPhy) (lane : Bool) (l : Lane) : LinkPhy :=
  if lane then { phy with lane1 := l } else { phy with lane0 := l }
def onLane (lane : Bool) (f : Lane → Lane) (lp : LinkPort) : LinkPort :=
  { lp with phy := setLane lp.phy lane (f (laneOf lp.phy lane)) }

/-! ## Transmit queues (R67, R72, R80) -/

/-- TYPE of the payload frames of a header's code (R67). -/
def payTyp (typ : BitVec 6) : BitVec 6 := typ ||| 0x20

/-- A single frame ready `delay` ticks from now (R646). -/
def txOne (now delay cls : Nat) (seqd : Bool) (typ : BitVec 6) (body : BitVec 64) (fill : Fill) : TxItem :=
  { cls := cls, readyAt := now + delay, seqd := seqd, typ := typ, body := body, fill := fill, more := 0 }

/-- A sequenced header with its payload frames (R67): payload frames carry TYPE[5]. -/
def txGroup (now delay cls grp : Nat) (via : Option (Nat × Nat)) (typ : BitVec 6) (hdr : BitVec 64)
    (payload : List (BitVec 64)) : List TxItem :=
  let rec go : List (BitVec 64) → List TxItem
    | [] => []
    | b :: t => { cls := cls, readyAt := now + delay, seqd := true, typ := payTyp typ, body := b, fill := .none,
                  more := t.length, grp := grp, via := via } :: go t
  { cls := cls, readyAt := now + delay, seqd := true, typ := typ, body := hdr, fill := .none,
    more := payload.length, grp := grp, via := via } :: go payload

/-- Queue frames on a port's active or spare lane; a link that does not run takes none. -/
def queueOn (spare : Bool) (items : List TxItem) (lp : LinkPort) : LinkPort :=
  if linkRuns lp then
    if spare then { lp with arq := { lp.arq with spq := lp.arq.spq ++ items } }
    else { lp with arq := { lp.arq with txq := lp.arq.txq ++ items } }
  else lp

/-- The trigger of what a distributor port sends after a delay (R84): the sequenced frame accepted on this tick, if one was. -/
def trigOf (p : PortRef) (delay : Nat) (s : State) : Option (Nat × Nat) := match p with
  | .unit _ => none
  | .dist _ => if delay = 0 then none else s.dist.trig.filter fun x => x.2 == s.dist.base.tick

/-- Send a sequenced frame or group on a port after `delay` ticks. -/
def sendSeq (p : PortRef) (delay cls : Nat) (typ : BitVec 6) (hdr : BitVec 64) (payload : List (BitVec 64))
    (s : State) : State :=
  onPort p (fun lp => queueOn false (txGroup (nowOf s p) delay cls lp.arq.groups (trigOf p delay s) typ hdr payload)
    { lp with arq := { lp.arq with groups := lp.arq.groups + 1 } }) s

/-- Send an unsequenced frame on a port's active (or spare) lane. -/
def sendUns (p : PortRef) (spare : Bool) (cls : Nat) (typ : BitVec 6) (body : BitVec 64) (fill : Fill)
    (s : State) : State :=
  onPort p (queueOn spare [txOne (nowOf s p) 0 cls false typ body fill]) s

/-- The port sends an ACK that covers every frame received in order (R75). -/
def sendAck (p : PortRef) (s : State) : State :=
  let lp := getPort s p
  let body := bodyOf [(8, (lp.arq.rxExp - 1).toNat)]
  let s := sendUns p false 1 0x06 body .none s
  onPort p (fun lp => { lp with arq := { lp.arq with ackDue := none } }) s

/-- The port sends a NAK naming the SEQ it expects, unless it sent one with the same EXP_SEQ less than 16 frame cycles
ago (R76). -/
def sendNak (p : PortRef) (reason : Nat) (s : State) : State :=
  let lp := getPort s p
  let recent := match lp.arq.nak with
    | some (e, t) => e == lp.arq.rxExp && decide (nowOf s p < t + 64)
    | none => false
  if recent then s
  else
    let s := sendUns p false 1 0x07 (bodyOf [(8, lp.arq.rxExp.toNat), (2, reason)]) .none s
    onPort p (fun lp => { lp with arq := { lp.arq with nak := some (lp.arq.rxExp, nowOf s p) } }) s

/-! ## HEALTH reports of the unit and its log (R464, R465) -/

/-- Body of a HEALTH frame (R71). -/
def healthBody (unitId : Nat) (dist : Bool) (kind code detail : Nat) : BitVec 64 :=
  bodyOf [(20, unitId), (1, if dist then 1 else 0), (7, kind), (12, code), (24, detail)]

/-- HEALTH fault reports that a port has not yet transmitted (R465). -/
def unsentReports (lp : LinkPort) : Nat :=
  (lp.arq.txq.filter fun i => i.typ == 0x10 && bodyBits i.body 58 52 == 0x10).length

/-- A part's identifier in its HEALTH frames: IDN.UNIT_ID of a unit. -/
def unitId (u : UnitState) : Nat := rdF u.base 0x00048 0 20

/-- Send one HEALTH fault report on a port, or drop and count it (R465). -/
def sendReport (p : PortRef) (code detail : Nat) (s : State) : State :=
  let lp := getPort s p
  let flt := pageAddr (fltPage (baseOf s p)) 0x064
  if admitted lp && decide (unsentReports lp < 32) then
    let body := match p with
      | .unit _ => healthBody (unitId s.unit) false 0x10 code detail
      | .dist _ => healthBody 0 true 0x10 code detail
    sendSeq p 0 7 0x10 body [] s
  else onBaseOf p (inc flt) s

/-- The domain a unit's port leads to is usable: LINK_ADMITTED and neither R28 nor R34 stands (R586). -/
def domUsable (u : UnitState) (d : Dom) : Bool :=
  let lp := unitPort u d
  admitted lp && !lp.time.genMis && !lp.adm.idSplit

/-- Codes that a unit reports (R464): to the other domain's partner only, or to each usable domain's. -/
def reportsOther (d : Dom) (h : Hap) : Option (List Dom) :=
  if h = lkLinkDead ∨ h = lkEchoLost ∨ h = lkSpareLost ∨ h = lkSwapBlocked ∨ h = lkTimeMismatch then some [domOther d]
  else if h = lkEpochMismatch ∨ h = lkUnitIdSplit ∨ h = lkDkeyMismatchUnit then some [.a, .b]
  else none

/-- Send the report of a happening to the domains given: to the named one always, to both only where usable. -/
def sendReports (ds : List Dom) (code obj aux : Nat) (s : State) : State :=
  let detail := (obj % 65536) * 256 + aux % 256
  match ds with
  | [d] => sendReport (.unit d) code detail s
  | _ =>
    let s := if domUsable s.unit .a then sendReport (.unit .a) code detail s else s
    if domUsable s.unit .b then sendReport (.unit .b) code detail s else s

/-- The trace's ON_FAULT trigger (R593): an entry of kind Fault or Fatal is logged. -/
def traceOnFault (h : Hap) (u : UnitState) : UnitState :=
  if 2 ≤ h.kind ∧ bitOf (rd u.base 0x16048) 7 then traceTrigger (u.dbg.held.length - 1) u else u

/-- Log a link happening at its port's part; a unit reports it as R464 says unless R456 merged it. -/
def logPort (p : PortRef) (h : Hap) (obj aux : Nat) (s : State) : State := match p with
  | .dist _ => onBaseOf p (logLink p h obj aux) s
  | .unit d =>
    let e := mkEntry s.unit.base (hapCode { h with page := portCodePage p }) h (portNum p) obj 0 aux
    let merged := logMerges s.unit.base e
    let s := onUnit (traceOnFault h) (onBaseOf p (logLink p h obj aux) s)
    match reportsOther d h with
    | some ds => if merged then s else sendReports ds (hapCode { h with page := portCodePage p }).toNat obj aux s
    | none => s

/-- Codes of other pages that a unit reports to each usable domain (R464). -/
def reportsBoth (h : Hap) : Bool :=
  h == uDomainDisagree || h == uHandover || h == uHoldoverEntered || h == uHoldoverAge || h == uCmbDeadline ||
  h == uLaunchSplit

/-- Log a happening of a unit page and report it as R464 says. -/
def logU (h : Hap) (port obj uid aux : Nat) (s : State) : State :=
  let merged := logMerges s.unit.base (mkEntry s.unit.base (hapCode h) h port obj uid aux)
  let s := onUnit (fun u => traceOnFault h (uB (logB h port obj uid aux) u)) s
  if reportsBoth h && !merged then sendReports [.a, .b] (hapCode h).toNat obj aux s else s

/-- Log a happening of a distributor page. -/
def logD (h : Hap) (port obj uid aux : Nat) (s : State) : State := onDist (dB (logB h port obj uid aux)) s

/-! ## Health score of a distributor port (R473 to R475) -/

/-- Weights of HLT.WEIGHT_0 and WEIGHT_1 (R479). -/
def hltWeight (d : DistState) (o lo : Nat) : Nat := rdF d.base (pageAddr 0x0C o) lo 8

/-- Add points to a port's score, unless the port has not been admitted during the last DECAY interval (R473, R474);
reaching WARN sets it and logs HEALTH_WARN (R475). -/
def addScore (n : Nat) (pts : Nat) (s : State) : State :=
  let lp := distPort s.dist n
  if !lp.hlth.lived || pts == 0 then s
  else
    let sc := min 255 (lp.hlth.score + pts)
    let warnAt := rdF s.dist.base (pageAddr 0x0C 0x04C) 0 8
    let fire := decide (warnAt ≤ sc) && !lp.hlth.warn
    let s := onDist (setDistPort n { lp with hlth := { lp.hlth with score := sc, warn := lp.hlth.warn || fire } }) s
    if fire then
      let s := logD dHealthWarn n 0 0 0 s
      onDist (fun d => dB (pgEvt (0x100 + n) 4) (dB (pgEvt 0x0C 0) d)) s
    else s

/-- Score a happening of a port at its distributor (a unit scores nothing, R479). -/
def scorePort (p : PortRef) (o lo : Nat) (s : State) : State := match p with
  | .unit _ => s
  | .dist n => addScore n.val (hltWeight s.dist o lo) s

/-! ## Link state changes (R104) -/

/-- Page event of a port's page (R575, R598: the same numbers in both parts). -/
def portEvt (p : PortRef) (i : Nat) (s : State) : State := onBaseOf p (pgEvt (portPage p) i) s

/-- Enter a link state. -/
def setLinkState (p : PortRef) (st : LinkState) (s : State) : State :=
  let lp := getPort s p
  if lp.phy.st = st then s
  else portEvt p 0 (setPort p { lp with phy := { lp.phy with st := st, stAt := nowOf s p } } s)

/-- A lane whose training starts again: the receiver keeps its signal; lock and the partner's reports are gone. -/
def laneRetrain (now : Nat) (l : Lane) : Lane :=
  { signal := l.signal, signalAt := if l.signal then l.signalAt else now, failed := l.failed, goodAt := l.goodAt }

/-- The sequence counts, the replay buffer, the queues and partly received groups are dropped (R104, R106). -/
def dropTraffic (lp : LinkPort) : LinkPort :=
  { lp with arq := {}, adm := { lp.adm with sent := false, seen := false },
            time := { lp.time with act := { lp.time.act with outs := [], good := 0, done := 0, initAt := none },
                                   spare := { lp.time.spare with outs := [], good := 0, done := 0, initAt := none } } }

/-- The lanes start over, lane 0 transmitting (R51, R104). -/
def resetLanes (now : Nat) (lp : LinkPort) : LinkPort :=
  { lp with phy := { lp.phy with lane0 := laneRetrain now lp.phy.lane0, lane1 := laneRetrain now lp.phy.lane1,
                                 txLane := false, rxLane := false, peerSpareOk := false, readyAt := none,
                                 spareTrainAt := none, spareFailAt := none, waitLogged := false } }

/-- Go to LINK_DOWN: the transmitter is idle (R104). -/
def linkDown (p : PortRef) (s : State) : State :=
  setLinkState p .down (onPort p (fun lp => dropTraffic (resetLanes (nowOf s p) lp)) s)

/-- Go to LINK_TRAIN: training blocks on both lanes (R104). -/
def linkTrain (p : PortRef) (s : State) : State :=
  setLinkState p .train (onPort p (fun lp => dropTraffic (resetLanes (nowOf s p) lp)) s)

/-- Test the LINK_DOWN condition: the port may train and a signal is detected; after a TRAIN_FAIL it is tested again
only 100 ms later (R104). -/
def testDown (p : PortRef) (s : State) : State :=
  let lp := getPort s p
  let blocked := match lp.phy.failAt with
    | some t => decide (nowOf s p < t + 100000000)
    | none => false
  if decide (lp.phy.st = .down) && portServes s p && !blocked && (lp.phy.lane0.signal || lp.phy.lane1.signal) then
    linkTrain p (setPort p { lp with phy := { lp.phy with failAt := none } } s)
  else s

/-- READY of this end: block lock on both lanes, or on one with the other declared failed (R60). -/
def readyHere (phy : LinkPhy) : Bool :=
  (phy.lane0.lock && phy.lane1.lock) || (phy.lane0.lock && phy.lane1.failed) || (phy.lane1.lock && phy.lane0.failed)

/-- READY received on every lane that this end intends to use (R62). -/
def readyThere (phy : LinkPhy) : Bool :=
  (phy.lane0.failed || phy.lane0.peerReady) && (phy.lane1.failed || phy.lane1.peerReady) &&
  !(phy.lane0.failed && phy.lane1.failed)

/-- Note the tick on which mutual READY is reached (R62). -/
def noteReady (now : Nat) (lp : LinkPort) : LinkPort :=
  let r := readyHere lp.phy && readyThere lp.phy
  { lp with phy := { lp.phy with readyAt := if r then (match lp.phy.readyAt with
      | some t => some t
      | none => some now) else none } }

/-! ## Reliable delivery (R72 to R79) -/

/-- Mark a CRC-good frame on a lane (R85, R105). -/
def markGood (now : Nat) (lane : Bool) (lp : LinkPort) : LinkPort :=
  onLane lane (fun l => { l with goodAt := some now }) lp

/-- Count FRAME_UNEXPECTED or FRAME_UNKNOWN (R69, R585). -/
def cntUnexpected (lp : LinkPort) : LinkPort :=
  { lp with cnt := { lp.cnt with unexpected := satInc 15 lp.cnt.unexpected } }
def cntUnknown (lp : LinkPort) : LinkPort :=
  { lp with cnt := { lp.cnt with unknown := satInc 15 lp.cnt.unknown } }

/-- Show received frames to the unit's trace. -/
def traceRx (p : PortRef) (lane : Bool) (fs : List Frame) (s : State) : State := match p with
  | .unit d => fs.foldl (fun s f => onUnit (traceFrame false false d lane f) s) s
  | .dist _ => s

/-- Exchanges with a frame in flight are discarded, uncounted (R92). -/
def dropEchoes (lp : LinkPort) : LinkPort :=
  { lp with time := { lp.time with act := { lp.time.act with outs := [] }, spare := { lp.time.spare with outs := [] } } }

/-- A CRC-good sequenced frame has arrived on a lane: the partner has swapped lanes if it was another one (R88, R92). -/
def rxOnLane (now : Nat) (lane : Bool) (lp : LinkPort) : LinkPort :=
  let lp := markGood now lane (if lp.phy.rxLane = lane then lp else dropEchoes lp)
  { lp with phy := { lp.phy with rxLane := lane } }

/-- The frame with the expected SEQ is accepted: the expected value moves on, and an ACK falls due (R74, R75). -/
def acceptNext (now : Nat) (lp : LinkPort) : LinkPort :=
  { lp with arq := { lp.arq with
    rxExp := lp.arq.rxExp + 1,
    ackDue := match lp.arq.ackDue with
      | some t => some t
      | none => some now } }

/-- Note the port on which a distributor accepted its last sequenced frame (R84). -/
def noteTrig (p : PortRef) (s : State) : State := match p with
  | .unit _ => s
  | .dist n => { s with dist := { s.dist with trig := some (n.val, s.dist.base.tick) } }

/-- The sequence test on a CRC-good sequenced frame (R69, R74, R88). The answer says whether it was accepted. -/
def seqTest (p : PortRef) (lane : Bool) (seq : BitVec 8) (s : State) : Bool × State :=
  let diff := seq - (getPort s p).arq.rxExp
  let s := onPort p (rxOnLane (nowOf s p) lane) s
  if diff = 0 then (true, noteTrig p (onPort p (acceptNext (nowOf s p)) s))
  else if 128 ≤ diff.toNat then (false, sendAck p s)
  else (false, sendNak p 1 s)

/-- Bodies received of the group of a code that is arriving; empty where none is. -/
def openedOf (c : Nat) (l : List (Nat × List (BitVec 64))) : List (BitVec 64) :=
  match l.find? fun x => x.1 == c with
  | some x => x.2
  | none => []

/-- The group of a code that is arriving becomes `bs`; none arrives where `bs` is empty. -/
def openedPut (c : Nat) (bs : List (BitVec 64)) (lp : LinkPort) : LinkPort :=
  let l := lp.arq.opened.filter fun x => x.1 != c
  { lp with arq := { lp.arq with opened := if bs.isEmpty then l else (c, bs) :: l } }

/-- An accepted header or payload frame joins its group (R68). A header while a group of its code is incomplete, or a payload
frame without one, is counted as FRAME_UNEXPECTED, and the incomplete group is discarded (R70). -/
def attach (c : Nat) (hdr : Bool) (b : BitVec 64) (lp : LinkPort) : LinkPort :=
  let o := openedOf c lp.arq.opened
  let lp := if hdr == o.isEmpty then lp else cntUnexpected lp
  if hdr then openedPut c [b] lp else if o.isEmpty then lp else openedPut c (o ++ [b]) lp

/-- Receive one CRC-good sequenced frame: `ok` says whether its type is permitted on this port and direction; one that is not
is treated by class and counted (R69). -/
def rxFrame (rx : Rx) (ok : Bool) (c : Nat) (hdr : Bool) (f : Frame) (s : State) : State :=
  let r := seqTest rx.port rx.lane f.seq (traceRx rx.port rx.lane [f] s)
  if r.1 then onPort rx.port (if ok then attach c hdr f.body else cntUnexpected) r.2 else r.2

/-- Receive frames of one group in order, each with the next SEQ; `hdr` says whether the first is its header. -/
def rxFrames (rx : Rx) (ok : Bool) (c : Nat) : Bool → BitVec 8 → List (BitVec 6 × BitVec 64) → State → State
  | _, _, [], s => s
  | hdr, seq, (t, b) :: r, s => rxFrames rx ok c false (seq + 1) r (rxFrame rx ok c hdr { typ := t, seq := seq, body := b } s)

/-- Receive a CRC-good sequenced frame, or the frames of a group that arrive now. The answer says whether the owner may act:
the port permits the type and every frame of the group has now been accepted (R67 to R70). -/
def rxSeq (rx : Rx) (ok : Bool) (fs : List (BitVec 6 × BitVec 64)) (s : State) : Bool × State :=
  if linkRuns (getPort s rx.port) then
    let c := match fs with
      | f :: _ => f.1.toNat % 32
      | [] => 0
    let s := match rx.part with
      | none => rxFrames rx ok c true rx.seq fs s
      | some (i, n) => rxFrames rx ok c (i == 0) rx.seq ((fs.drop i).take n) s
    if ok && openedOf c (getPort s rx.port).arq.opened == fs.map (·.2) then (true, onPort rx.port (openedPut c []) s)
    else (false, s)
  else (false, s)

/-- Receive a CRC-good unsequenced frame (R69). -/
def rxUns (rx : RxU) (ok : Bool) (typ : BitVec 6) (body : BitVec 64) (s : State) : Bool × State :=
  if linkRuns (getPort s rx.port) then
    let s := traceRx rx.port rx.lane [{ typ := typ, seq := 0, body := body }] s
    let s := onPort rx.port (markGood (nowOf s rx.port) rx.lane) s
    if ok then (true, s) else (false, onPort rx.port cntUnexpected s)
  else (false, s)

/-- Drop the frames of the replay buffer that an ACK covers: every frame up to the one it names (R73, R75). -/
def ackFrames (q : BitVec 8) (l : List (Frame × Nat)) : List (Frame × Nat) :=
  match findIdx? (fun x : Frame × Nat => x.1.seq == q) 0 l with
  | some (i, _) => l.drop (i + 1)
  | none => l

/-- Receive an ACK: covered frames leave the replay buffer and the replay in progress (R73). -/
def ackTake (q : BitVec 8) (lp : LinkPort) : LinkPort :=
  let l := ackFrames q lp.arq.replay
  if l.length = lp.arq.replay.length then lp
  else { lp with arq := { lp.arq with
    replay := l, replays := 0, resend := lp.arq.resend.filter fun f => l.any fun x => x.1 == f } }

/-- The spare lane of the transmit direction is warm (R85). -/
def spareWarm (now echoTicks : Nat) (lp : LinkPort) : Bool :=
  let l := laneOf lp.phy (!lp.phy.txLane)
  l.lock && lp.phy.peerSpareOk && l.frames &&
  (match l.goodAt with
    | some t => decide (now ≤ t + 256)
    | none => false) &&
  (match lp.time.spare.doneAt with
    | some t => decide (now ≤ t + 4 * echoTicks)
    | none => false)

/-- Retry bursts inside the sliding window (R86). -/
def burstsIn (now win : Nat) (l : List Nat) : List Nat := l.filter fun t => now < t + win

/-- Resend every unacknowledged frame in order (R77). Where there is one, this is a retry burst, which is counted, scored and
noted in the swap window (R79, R86, R473). -/
def replayAll (p : PortRef) (s : State) : State :=
  let now := nowOf s p
  if (getPort s p).arq.replay.isEmpty then s
  else
    scorePort p 0x050 8 (onPort p (fun lp => { lp with
      arq := { lp.arq with resend := lp.arq.replay.map (·.1), replays := lp.arq.replays + 1,
                           bursts := now :: burstsIn now (swapWindow s p) lp.arq.bursts },
      cnt := { lp.cnt with retries := satInc 255 lp.cnt.retries, retryTotal := satInc 0xFFFFFFFF lp.cnt.retryTotal },
      hlth := { lp.hlth with vRetry := satInc 255 lp.hlth.vRetry } }) s)

/-- A replay that a NAK or the retry timer starts. Where it fills the swap window, the lanes are due to swap if the spare is
warm (R86), and SWAP_BLOCKED is recorded if it is not (R89). -/
def startReplay (p : PortRef) (s : State) : State :=
  let s := replayAll p s
  let lp := getPort s p
  if lp.arq.replay.isEmpty || decide (lp.arq.bursts.length < swapBursts s p) then s
  else if spareWarm (nowOf s p) (echoInterval s p) lp then
    onPort p (fun lp => { lp with arq := { lp.arq with swapDue := true } }) s
  else
    let s := onPort p (fun lp => { lp with arq := { lp.arq with swapDue := false }, hlth := { lp.hlth with vSpare := true } }) s
    scorePort p 0x050 24 (portEvt p 2 (logPort p lkSwapBlocked 0 0 s))

/-- Period of the retry timer in ticks (R78). -/
def retryPeriod (s : State) (p : PortRef) : Nat :=
  let lp := getPort s p
  let path := match lp.time.act.doneAt with
    | some _ => (2 * lp.time.act.dly.toNat + 255) / 256
    | none => 112
  4 * (path + 6 + retrySlack s p)

/-! ## The transmitter (R54, R55, R80, R81) -/

/-- A frame of an ARM group (R66). -/
def isArm (i : TxItem) : Bool := i.typ.toNat % 32 == 0x08

/-- The group whose payload frames are owed once a frame of it has started. -/
def owedAfter (i : TxItem) : Option Nat := if i.more = 0 then none else some i.grp

/-- The frame is in place among the groups: a payload frame belongs to the group that owes it, and nothing that R68 or R80
keeps out stands inside a group. ARM groups, of class 4, keep only each other out; those of classes 5 to 7 every frame of
these classes. -/
def inPlace (a : LinkArq) (i : TxItem) : Bool :=
  if isArm i then (match a.owedArm with
    | some g => i.grp == g
    | none => decide (i.typ.toNat < 32))
  else decide (i.cls ≤ 4) || (match a.owed with
    | some g => i.grp == g && i.seqd
    | none => decide (i.typ.toNat < 32))

/-- An ADMIT waits: it is the first sequenced frame of an admission (R72, R538), so the others wait for it. -/
def admitWaits (a : LinkArq) (i : TxItem) : Bool := i.seqd && i.typ != 0x02 && a.txq.any fun x => x.typ == 0x02

/-- Whether a queued frame may start now: its time has come, a sequenced frame has room in the replay buffer and no
replay before it (R73, R77), and it is in place (R68, R80). -/
def mayStart (now : Nat) (a : LinkArq) (i : TxItem) : Bool :=
  decide (i.readyAt ≤ now) && (!i.seqd || (a.resend.isEmpty && decide (a.replay.length < 128))) && inPlace a i &&
  !admitWaits a i

/-- Of two frames of one class, the first goes first: cut-through frames whose triggers arrived in one frame cycle go in order
of their input ports (R84), all others in order of readiness (R80). -/
def readyFirst (i x : TxItem) : Bool :=
  let byReady := decide (i.readyAt ≤ x.readyAt)
  match i.via, x.via with
  | some (m, t), some (n, v) => if t / 4 = v / 4 ∧ m ≠ n then decide (m < n) else byReady
  | _, _ => byReady

/-- Of two frames that may start, the first goes first: its class is higher, or it is first in their class (R80). -/
def goesFirst (i x : TxItem) : Bool := decide (i.cls < x.cls) || (i.cls == x.cls && readyFirst i x)

/-- The first queued frame of the highest class that may start, with its place. -/
def pickTx (now : Nat) (a : LinkArq) : List TxItem → Nat → Option (Nat × TxItem)
  | [], _ => none
  | i :: t, k =>
    match pickTx now a t (k + 1) with
    | some (j, x) => if mayStart now a i && goesFirst i x then some (k, i) else some (j, x)
    | none => if mayStart now a i then some (k, i) else none

/-- The body with the fields that the transmitter fills in as the frame starts (R71, R94). -/
def fillBody (b : Base) (i : TxItem) : BitVec 64 := match i.fill with
  | .none => i.body
  | .time => (ht48 b ++ i.body.extractLsb' 0 16 : BitVec 64)
  | .echoReq => BitVec.ofNat 64 (((localNs b * 64) % 2 ^ 54) <<< 10) ||| i.body
  | .echoRsp t2 => BitVec.ofNat 64 (((localNs b * 64 - t2) % 2 ^ 24) <<< 8) ||| i.body

/-- Note an ECHO_REQ that leaves: its T1 and lanes (R94). -/
def noteEcho (b : Base) (spare : Bool) (i : TxItem) (lp : LinkPort) : LinkPort :=
  if i.fill = .echoReq then
    let e : EchoOut := { id := BitVec.ofNat 6 (bodyBits i.body 25 20), t1 := localNs b * 64, sentAt := b.tick }
    if spare then { lp with time := { lp.time with spare := { lp.time.spare with outs := lp.time.spare.outs ++ [e] } } }
    else { lp with time := { lp.time with act := { lp.time.act with outs := lp.time.act.outs ++ [e] } } }
  else lp

/-- The IDLE frame of a port (R71). -/
def idleFrame (lp : LinkPort) : Frame :=
  { typ := 0, seq := 0, body := bodyOf [(1, if lp.phy.lane0.lock && lp.phy.lane1.lock then 1 else 0),
                                        (1, if lp.phy.rxLane then 1 else 0)] }

/-- The EPOCH frames that wait start 16 frame cycles after an ADMIT at the earliest (R27, R646). -/
def afterAdmit (now : Nat) (i : TxItem) (q : List TxItem) : List TxItem :=
  if i.typ = 0x02 then q.map fun x => if x.typ = 0x12 then { x with readyAt := max x.readyAt (now + 64) } else x else q

/-- What one port sends on its active lane at a block boundary (R80): class 1 first, then a replay, then the rest, and
IDLE where nothing else may start. -/
def txActive (b : Base) (lp : LinkPort) : LinkPort × List Frame :=
  let a := lp.arq
  match pickTx b.tick a a.txq 0, a.resend with
  | some (k, i), rs =>
    if rs.isEmpty || i.cls == 1 then
      let seq := if i.seqd then a.txSeq else 0
      let f : Frame := { typ := i.typ, seq := seq, body := fillBody b i }
      let a' := { a with txq := afterAdmit b.tick i (a.txq.eraseIdx k),
                         txSeq := if i.seqd then a.txSeq + 1 else a.txSeq,
                         replay := if i.seqd then a.replay ++ [(f, b.tick)] else a.replay,
                         owed := if i.cls ≤ 4 then a.owed else owedAfter i,
                         owedArm := if isArm i then owedAfter i else a.owedArm }
      (noteEcho b false i { lp with arq := a' }, [f])
    else
      match rs with
      | f :: r => ({ lp with arq := { a with resend := r, replay := a.replay.map fun x =>
                       if x.1 = f then (x.1, b.tick) else x } }, [f])
      | [] => (lp, [idleFrame lp])
  | none, f :: r => ({ lp with arq := { a with resend := r, replay := a.replay.map fun x =>
                       if x.1 = f then (x.1, b.tick) else x } }, [f])
  | none, [] => (lp, [idleFrame lp])

/-- What one port sends on its spare lane at a block boundary (R81); a lane that carries no frames sends none. -/
def txSpare (b : Base) (lp : LinkPort) : LinkPort × List Frame :=
  let up := (laneOf lp.phy (!lp.phy.txLane)).frames
  match lp.arq.spq with
  | i :: t =>
    let lp' := { lp with arq := { lp.arq with spq := t } }
    if up then (noteEcho b true i lp', [{ typ := i.typ, seq := 0, body := fillBody b i }]) else (lp', [])
  | [] => (lp, if up then [idleFrame lp] else [])

/-- One block boundary of a port: the frames it starts, in the order active lane, spare lane. -/
def txPort (b : Base) (lp : LinkPort) : LinkPort × List (Bool × Frame) :=
  if linkRuns lp then
    let r := txActive b lp
    let q := txSpare b r.1
    (q.1, r.2.map (fun f => (lp.phy.txLane, f)) ++ q.2.map (fun f => (!lp.phy.txLane, f)))
  else (lp, [])

/-- The lanes on which a port sends training blocks: both in LINK_TRAIN, and a spare that is retrained (R87, R90, R104). -/
def trainLanes (lp : LinkPort) : List Bool :=
  if lp.phy.st = .train then [false, true]
  else if linkRuns lp && lp.phy.spareTrainAt.isSome then [!lp.phy.txLane] else []

/-- A port's training blocks of one block boundary (R60). -/
def emitTrain (p : PortRef) (lp : LinkPort) (b : Base) : Base :=
  (trainLanes lp).foldl (fun b l => emit (.train p l (laneOf lp.phy l).lock (readyHere lp.phy)) b) b

/-- Send the frames that a unit port started: outputs and trace. -/
def unitEmit (d : Dom) (fs : List (Bool × Frame)) (u : UnitState) : UnitState :=
  fs.foldl (fun u x => traceFrame true false d x.1 x.2 (uB (emit (.frame (.unit d) x.1 x.2)) u)) u

/-- Ticks from the end of a block that starts now to the first NS that is a multiple of 4 (R55). -/
def slipTicks (b : Base) : Nat := (4 - b.ns.toNat % 4) % 4

/-- The IDLE with SLIP_EN that realigns the blocks (R55), for the lanes of a port that carry frames. -/
def slipFrames (n : Nat) (lp : LinkPort) : List (Bool × Frame) :=
  let body := bodyOf [(1, if lp.phy.lane0.lock && lp.phy.lane1.lock then 1 else 0), (1, if lp.phy.rxLane then 1 else 0),
                      (1, 1), (2, n)]
  let f : Frame := { typ := 0, seq := 0, body := body }
  if linkRuns lp then
    (if lp.phy.lane0.frames then [(false, f)] else []) ++ (if lp.phy.lane1.frames then [(true, f)] else [])
  else []

/-- The next block boundary of a part after one that starts now; a realignment adds its fill (R54, R55). -/
def blkNext (b : Base) : Base :=
  { b with blk := b.tick + 4 + (if b.slip then slipTicks b else 0), slip := false }

/-- The unit's transmitters on one tick. -/
def unitTx (u : UnitState) : UnitState :=
  if u.base.tick < u.base.blk then u
  else if u.base.slip ∧ slipTicks u.base ≠ 0 then
    let n := slipTicks u.base
    uB blkNext (unitEmit .b (slipFrames n u.portB) (unitEmit .a (slipFrames n u.portA) u))
  else
    let ra := txPort u.base u.portA
    let rb := txPort u.base u.portB
    let u := unitEmit .b rb.2 (unitEmit .a ra.2 { u with portA := ra.1, portB := rb.1 })
    uB (fun b => blkNext (emitTrain (.unit .b) rb.1 (emitTrain (.unit .a) ra.1 b))) u

/-- A port number as a reference to a distributor port. -/
def distRef (n : Nat) : PortRef := if h : n < 132 then .dist ⟨n, h⟩ else .dist 0

/-- The distributor's transmitters on one tick: every port that has traffic. -/
def distTx (d : DistState) : DistState :=
  if d.base.tick < d.base.blk then d
  else if d.base.slip ∧ slipTicks d.base ≠ 0 then
    let n := slipTicks d.base
    dB blkNext (d.ports.foldl (fun d x =>
      dB (fun b => (slipFrames n x.2).foldl (fun b y => emit (.frame (distRef x.1) y.1 y.2) b) b) d) d)
  else
    dB blkNext (d.ports.foldl (fun d x =>
      let r := txPort d.base x.2
      let d := setDistPort x.1 r.1 d
      dB (fun b => emitTrain (distRef x.1) r.1 (r.2.foldl (fun b y => emit (.frame (distRef x.1) y.1 y.2) b) b)) d) d)

end Sys2Proof.Machine
end

