-- ==== Sys2Proof/Machine/Events.lean ====
section
/-! DEFINITION. The event controllers of both parts and Lantern (R418 to R453, R621, R622). -/

namespace Sys2Proof.Machine

/-- A part answers commands: it is out of reset (R525, R530). A stopped distributor still serves its registers (R471). -/
def live (b : Base) : Bool := decide (b.phase = .init) || decide (b.phase = .run) || decide (b.phase = .stopped)

/-- Change the unit, the distributor or the base of a part, if that part is out of reset. -/
def ifUnit (f : State → State) (s : State) : State := if live s.unit.base then f s else s
def ifDist (f : State → State) (s : State) : State := if live s.dist.base then f s else s
def ifPart (p : Part) (f : State → State) (s : State) : State := if live (partBase s p) then f s else s
/-- As above, where the part must be past SRAM initialisation and not stopped. -/
def ifUnitRuns (f : State → State) (s : State) : State := if s.unit.base.phase = .run then f s else s
def ifDistRuns (f : State → State) (s : State) : State := if s.dist.base.phase = .run then f s else s

/-- A register read completes with data (R568). -/
def answer (part : Part) (ch : BitVec 3) (v : Word) (s : State) : State := onPartBase part (emit (.regData part ch v 0)) s

/-! ## Order and assignment (R424 to R430) -/

/-- PRIO of a source, and its group priority under CTL.PRIGROUP (R424); the distributor's sources have none (R448). -/
def srcPrio (b : Base) (n : Nat) : Nat := if isUnit b then fld (srcCfg b n) 0 8 else 0
def srcGrpPrio (b : Base) (n : Nat) : Nat := srcPrio b n >>> rdF b 0x10040 0 3
/-- ROUTE of a source. -/
def srcRoute (b : Base) (n : Nat) : Nat := fld (srcCfg b n) 8 8

/-- Number of sources a part's tables cover. -/
def srcCount (b : Base) : Nat := if isUnit b then 272 else 165

/-- Insert a source into a list ordered by PRIO, then by number (R425). -/
def insSrc (b : Base) (n : Nat) : List Nat → List Nat
  | [] => [n]
  | m :: t => if srcPrio b n < srcPrio b m ∨ (srcPrio b n = srcPrio b m ∧ n ≤ m) then n :: m :: t else m :: insSrc b n t

/-- The pending, unmasked sources in the order of R425; a pulse source may be active too (R419). -/
def pendingAll (b : Base) : List Nat :=
  ((List.range (srcCount b)).filter fun n => srcPending b n && !srcMasked b n).foldl (fun l n => insSrc b n l) []

/-- Those that are not active, which R429 and R431 take. -/
def pendingOrder (b : Base) : List Nat := (pendingAll b).filter fun n => (srcGet b n).active.isNone

/-- CPUk_CTL.EN, and the nesting stack of processor k. -/
def cpuEn (b : Base) (k : Nat) : Bool := decide (k < (cfgOf b).procs) && rdB b (0x10300 + 0x10 * k) 0
def cpuStack (b : Base) (k : Nat) : List Nest := tabGet [] k b.evc.nests
def setStack (k : Nat) (l : List Nest) (b : Base) : Base := { b with evc := { b.evc with nests := tabSet [] k l b.evc.nests } }

/-- A source can pre-empt processor k (R425, R428). -/
def canPreempt (b : Base) (n k : Nat) : Bool := match cpuStack b k with
  | [] => true
  | t :: _ => decide (srcGrpPrio b n < t.grp)

/-- Running priority for the choice of R429: idle counts lowest, that is largest. -/
def runPrio (b : Base) (k : Nat) : Nat := match cpuStack b k with
  | [] => 256
  | t :: _ => t.grp

/-- Of the candidate processors, the one with the lowest running priority; ties go to the first at or after ROT (R429). -/
def pickCpu (b : Base) (cands : List Nat) : Option Nat :=
  ((List.range 8).map fun i => (b.evc.rot.toNat + i) % 8).foldl (fun best k =>
    if cands.contains k then
      match best with
      | none => some k
      | some j => if runPrio b j < runPrio b k then some k else some j
    else best) none

/-- Assign each pending source in order to a free processor (R429): the processors assigned. -/
def assignSrcs (b : Base) : List Nat → List Nat → List Nat
  | [], _ => []
  | n :: t, free =>
    match pickCpu b (free.filter fun k => (srcRoute b n).testBit k && canPreempt b n k) with
    | some k => k :: assignSrcs b t (free.filter fun j => j != k)
    | none => assignSrcs b t free

/-- Log EVC_UNROUTED once for each source that becomes pending with a ROUTE that names no enabled processor (R430). -/
def logUnrouted (s : State) : State :=
  (List.range (srcCount s.unit.base)).foldl (fun s n =>
    let b := s.unit.base
    let e := srcGet b n
    let bad := srcPending b n && !srcMasked b n && e.active.isNone &&
      !(List.range 8).any fun k => (srcRoute b n).testBit k && cpuEn b k
    if bad && !e.unrouted then onUnit (uB (srcSet n { e with unrouted := true })) (logU uEvcUnrouted noPort n 0 0 s)
    else if !bad && e.unrouted then onUnit (uB (srcSet n { e with unrouted := false })) s
    else s) s

/-- EVREQ for the present state: 0 in Lantern (R441), else the assignment of R429. -/
def evreqNow (b : Base) : BitVec 8 :=
  if b.evc.lantern then 0
  else
    let free := (List.range 8).filter fun k => cpuEn b k && decide ((cpuStack b k).length < 8)
    BitVec.ofNat 8 ((assignSrcs b (pendingOrder b) free).foldl (fun m k => m ||| 2 ^ k) 0)

/-- Drive the request lines (R429). -/
def driveEvreq (b : Base) : Base :=
  let r := evreqNow b
  let b' := { b with evc := { b.evc with evreq := r } }
  if r = b.evc.evreq then b' else emit (.pin .evreq r.toNat) b'

/-! ## Claim and end of interrupt (R431 to R437) -/

/-- The source that a claim of processor k takes (R431). -/
def claimable (b : Base) (k : Nat) : Option Nat :=
  (pendingOrder b).find? fun n => (srcRoute b n).testBit k && canPreempt b n k

/-- CLAIM's value with nothing claimed (R432, R433). -/
def claimEmpty (overflow : Bool) : Word :=
  setFld (setFld 0x800001FF 30 1 (if overflow then 1 else 0)) 16 8 0

/-- A read of CPUk_CLAIM: the value it returns and the machine after it (R431 to R433). -/
def claim (k : Nat) (s : State) : Word × State :=
  let b := s.unit.base
  if !cpuEn b k then (claimEmpty false, s)
  else match claimable b k with
    | none => (claimEmpty false, s)
    | some n =>
      if 8 ≤ (cpuStack b k).length then (claimEmpty true, logU uNestOverflow noPort k 0 0 s)
      else
        let e := srcGet b n
        let lvl := srcLevel b n
        let cnt := if lvl then 1 else min 255 e.count
        let e' := { e with active := some (BitVec.ofNat 3 k), pend := if lvl then e.pend else false,
                           count := if lvl then e.count else 0, fresh := if lvl then e.fresh else false }
        let b := setStack k ({ src := n, grp := srcGrpPrio b n } :: cpuStack b k) (srcSet n e' b)
        let b := { b with evc := { b.evc with rot := BitVec.ofNat 3 (k + 1) } }
        (BitVec.ofNat 32 (cnt * 65536 + n), onUnit (uB fun _ => b) s)

/-- A write of a source number to CPUk_EOI (R435). -/
def eoi (k n : Nat) (s : State) : State :=
  let b := s.unit.base
  match cpuStack b k with
  | t :: r =>
    if t.src = n then onUnit (uB fun b => setStack k r (srcSet n { srcGet b n with active := none } b)) s
    else logU uEoiErr noPort n 0 k s
  | [] => logU uEoiErr noPort n 0 k s

/-- CPUk_CTL.FLUSH: the stack empties and every source on it becomes inactive (R437). -/
def cpuFlushOp (k : Nat) (b : Base) : Base :=
  setStack k [] ((cpuStack b k).foldl (fun b t => srcSet t.src { srcGet b t.src with active := none } b) b)

/-! ## MSI-X (R449, R621, R622) -/

/-- The vectors of the distributor that have a pending, unmasked source. -/
def vecPending (b : Base) : BitVec 16 :=
  BitVec.ofNat 16 (((List.range 165).filter fun n => srcPending b n && !srcMasked b n).foldl
    (fun m n => m ||| 2 ^ fld (srcCfg b n) 0 4) 0)

/-- Vector v's message is due: it is sent, or its PBA bit is set while a mask stands; nothing while MSI-X is disabled. -/
def vecSend (v : Nat) (b : Base) : Base :=
  if !b.evc.msixEn then b
  else if b.evc.fmask || rdB b (0x0FE0C + 0x10 * v) 0 then wrB 0x0FF00 v true b
  else emit (.msix v (rd b (0x0FE04 + 0x10 * v) ++ rd b (0x0FE00 + 0x10 * v)) (rd b (0x0FE08 + 0x10 * v)))
        (wrB 0x0FF00 v false b)

/-- SMB_ALERT_N is low (R633): MSI-X is disabled and an unmasked source is pending. -/
def smbAlertLow (b : Base) : Bool := !b.evc.msixEn && vecPending b != 0

/-- Send the messages of the vectors in `m`. -/
def vecSendAll (m : BitVec 16) (b : Base) : Base :=
  (List.range 16).foldl (fun b v => if m.getLsbD v then vecSend v b else b) b

/-- Settle the pending bit array: a held message is sent once the masks clear, or dropped with its sources (R622). -/
def pbaSettle (b : Base) : Base :=
  (List.range 16).foldl (fun b v =>
    if rdB b 0x0FF00 v then
      if !(vecPending b).getLsbD v then wrB 0x0FF00 v false b
      else if b.evc.fmask || rdB b (0x0FE0C + 0x10 * v) 0 then b else vecSend v b
    else b) b

/-- On each tick: vectors that became pending send their message (R449). -/
def msixTick (b : Base) : Base :=
  let now := vecPending b
  let b := vecSendAll (now &&& ~~~b.evc.vecPend) b
  pbaSettle { b with evc := { b.evc with vecPend := now } }

/-- After a write to PEND_w, MASK_CLR_w or MASK_w of the distributor every vector still pending sends again; one that the write
took back sends at its next rise (R449). -/
def msixAgain (b : Base) : Base :=
  if isUnit b then b
  else
    let b := vecSendAll (vecPending b) b
    { b with evc := { b.evc with vecPend := vecPending b } }

/-! ## Plain registers, masks and moderation (R438, R439, R444 to R447) -/

/-- Words in a set of the part's source registers (R450). -/
def evcWords (b : Base) : Nat := if isUnit b then 9 else 6

/-- The value of PEND_w. -/
def pendWord (b : Base) (w : Nat) : Word :=
  BitVec.ofNat 32 ((List.range 32).foldl (fun m i => if srcPending b (32 * w + i) then m + 2 ^ i else m) 0)

/-- The value of ACTIVE_w. -/
def activeWord (b : Base) (w : Nat) : Word :=
  BitVec.ofNat 32 ((List.range 32).foldl (fun m i => if (srcGet b (32 * w + i)).active.isSome then m + 2 ^ i else m) 0)

/-- A read of PEND_w clears its fresh flags (R445). -/
def pendReadOp (w : Nat) (b : Base) : Base :=
  (List.range 32).foldl (fun b i =>
    let e := srcGet b (32 * w + i)
    if e.fresh then srcSet (32 * w + i) { e with fresh := false } b else b) b

/-- Record a lost set of source n (R445). -/
def lostSet (part : Part) (n : Nat) (s : State) : State :=
  let pg := evcPage (partBase s part)
  let s := onPartBase part (fun b =>
    let b := wrB (pageAddr pg (0x200 + 4 * (n / 32))) (n % 32) true b
    let b := incF (pageAddr pg 0x048) 16 15 (wrF (pageAddr pg 0x048) 0 9 n b)
    pgEvt pg 0 (wrB (pageAddr pg 0x048) 31 true b)) s
  match part with
  | .unit => logU uEvcLostset noPort n 0 0 s
  | .dist => logD dEvcLostset noPort n 0 0 s

/-- One source under a write of 0 to its PEND_w bit (R445). -/
def pendClear1 (part : Part) (n : Nat) (s : State) : State :=
  let b := partBase s part
  let e := srcGet b n
  if srcExists b n && !srcLevel b n && e.pend then
    let s := onPartBase part (srcSet n { e with pend := false, count := 0, fresh := false }) s
    if e.fresh then lostSet part n s else s
  else s

/-- A write of PEND_w (R12, R445, R449). -/
def pendWriteOp (part : Part) (w : Nat) (be : BitVec 4) (data : Word) (s : State) : State :=
  if w < evcWords (partBase s part) then
    let clr := (beMask be &&& (0xFFFFFFFF ^^^ data.toNat))
    let s := (List.range 32).foldl (fun s i => if clr.testBit i then pendClear1 part (32 * w + i) s else s) s
    onPartBase part msixAgain s
  else s

/-- A write of PEND_SET_w: each bit written 1 is an occurrence of that pulse source (R447). -/
def pendSetOp (w : Nat) (be : BitVec 4) (data : Word) (b : Base) : Base :=
  let m := data.toNat &&& beMask be
  (List.range 32).foldl (fun b i =>
    let n := 32 * w + i
    if m.testBit i && srcExists b n && !srcLevel b n then occur n b else b) b

/-- Mask or unmask the sources whose bits are written 1 (R446, R449). -/
def maskWriteOp (set : Bool) (w : Nat) (be : BitVec 4) (data : Word) (b : Base) : Base :=
  if w < evcWords b then
    let a := pageAddr (evcPage b) (0x100 + 4 * w)
    let top := if isUnit b && w == 8 then 0x0000FFFF else 0xFFFFFFFF
    let m := BitVec.ofNat 32 (data.toNat &&& beMask be &&& (if w = 0 then 0xFFFFFFFE else top))
    let b := wr a (if set then rd b a ||| m else rd b a &&& ~~~m) b
    if set then b else msixAgain b
  else b

/-- A moderation timer that has run its length (R438): held sources become pending and the timer restarts, or the
group returns to IDLE. -/
def holdoffOp (g : Nat) (b : Base) : Base :=
  let t := grpGet b g
  if t.timing && decide (t.startedAt + t.len * 1000 ≤ b.tick) then
    let held := (List.range (srcCount b)).filter fun n => fld (srcCfg b n) 16 5 == g && decide (0 < (srcGet b n).held)
    if held.isEmpty then grpSet g {} b
    else
      let b := held.foldl (fun b n =>
        let e := srcGet b n
        makePending n e.held (srcSet n { e with held := 0 } b)) b
      let len := rdF b (pageAddr (evcPage b) (0x240 + 4 * g)) 0 16
      grpSet g (if len = 0 then {} else { timing := true, startedAt := b.tick, len := len }) b
  else b

/-- A source's GROUP changes: occurrences it held become pending at once (R439). -/
def groupChanged (n : Nat) (b : Base) : Base :=
  let e := srcGet b n
  if 0 < e.held then makePending n e.held (srcSet n { e with held := 0 } b) else b

/-! ## Inputs (R421, R422) -/

/-- A level of HEVT[n] seen after its synchroniser. -/
def hevtOp (n : Nat) (level : Bool) (b : Base) : Base :=
  let src := 128 + n
  let e := srcGet b src
  let b := srcSet src { e with level := level } b
  if level && !e.level && !srcLevel b src then occur src b else b

/-- A level of EVIN[i] that its filter accepts. -/
def evinOp (i : Nat) (level : Bool) (b : Base) : Base :=
  let src := 256 + i
  let e := srcGet b src
  let b := srcSet src { e with level := level } b
  let m := evinMode b src
  if level != e.level && ((m == 1 && level) || (m == 2 && !level) || m == 3) then occur src b else b

/-! ## Lantern (R440 to R443) -/

/-- A pending, unmasked source is wake-worthy (R442); a level source belongs to no group (R438, R439). -/
def wakeWorthy (b : Base) (n : Nat) : Bool :=
  srcPending b n && !srcMasked b n &&
  (n == 0 ||
    ((List.range 32).any fun j => rdB b (0x11080 + 4 * j) 31 && rdF b (0x11080 + 4 * j) 0 9 == n) &&
      (let g := fld (srcCfg b n) 16 5
       if g < 16 && !srcLevel b n then rdB b 0x11044 g else rdB b 0x11044 16))

/-- Wake the processors if a wake-worthy source exists in Lantern (R443). -/
def lanternWake (s : State) : State :=
  let b := s.unit.base
  if b.evc.lantern && !b.evc.waking then
    match (pendingAll b).find? (wakeWorthy b) with
    | some n =>
      let s := onUnit (uB fun b =>
        let b := { b with evc := { b.evc with waking := true } }
        let b := wr 0x11054 (BitVec.ofNat 32 (2 ^ 31 + n)) (wr64 0x11058 (nsNow b) (inc 0x11050 b))
        pgEvt 0x11 1 (emit (.pin .lwake (rdF b 0x11040 8 8)) b)) s
      logU uLtnWake noPort n 0 0 s
    | none => s
  else s

/-- Every enabled processor, of at least one, holds its PSLEEP input high (R440). -/
def allAsleep (b : Base) (psleep : BitVec 8) : Bool :=
  ((List.range 8).any fun k => cpuEn b k) && (List.range 8).all fun k => !cpuEn b k || psleep.getLsbD k

/-- PSLEEP levels that have held for the cycles R440 asks: the controller enters Lantern. -/
def lanternEnterOp (psleep : BitVec 8) (s : State) : State :=
  let s := onUnit (uB fun b => { b with evc := { b.evc with psleep := psleep } }) s
  let b := s.unit.base
  if rdB b 0x11040 0 && allAsleep b psleep && !b.evc.lantern then
    lanternWake (onUnit (uB fun b =>
      driveEvreq (pgEvt 0x11 0 (inc 0x1104C { b with evc := { b.evc with lantern := true } }))) s)
  else s

/-- Leave Lantern: LWAKE falls and assignment resumes (R440, R441). -/
def lanternLeave (b : Base) : Base :=
  if b.evc.lantern then
    driveEvreq (emit (.pin .lwake 0) { b with evc := { b.evc with lantern := false, waking := false } })
  else b

/-- PSLEEP levels of which one has been low for a cycle. -/
def lanternExitOp (psleep : BitVec 8) (b : Base) : Base :=
  let b := { b with evc := { b.evc with psleep := psleep } }
  if (List.range 8).any (fun k => cpuEn b k && !psleep.getLsbD k) || !rdB b 0x11040 0 then lanternLeave b else b

/-! ## The meanings -/

/-- HEVT_EDGE (R421). -/
def execHevtEdge (n : BitVec 7) (level : Bool) (s : State) : Host.Outcome State Fault Refusal :=
  .next (ifUnit (onUnit (uB (hevtOp n.toNat level))) s)

/-- EVIN_EDGE (R422). -/
def execEvinEdge (i : BitVec 4) (level : Bool) (s : State) : Host.Outcome State Fault Refusal :=
  .next (ifUnit (onUnit (uB (evinOp i.toNat level))) s)

/-- EVC_ASSIGN (R429, R430). -/
def execEvcAssign (s : State) : Host.Outcome State Fault Refusal :=
  .next (ifUnit (fun s => onUnit (uB driveEvreq) (logUnrouted s)) s)

/-- CLAIM_READ (R431 to R433). -/
def execClaimRead (k ch : BitVec 3) (s : State) : Host.Outcome State Fault Refusal :=
  .next (ifUnit (fun s => let r := claim k.toNat s; answer .unit ch r.1 r.2) s)

/-- EOI_WRITE (R435). -/
def execEoiWrite (k : BitVec 3) (src : BitVec 9) (s : State) : Host.Outcome State Fault Refusal :=
  .next (ifUnit (eoi k.toNat src.toNat) s)

/-- CPU_FLUSH (R437). -/
def execCpuFlush (k : BitVec 3) (s : State) : Host.Outcome State Fault Refusal :=
  .next (ifUnit (onUnit (uB (cpuFlushOp k.toNat))) s)

/-- PEND_READ (R445). -/
def execPendRead (part : Part) (ch : BitVec 3) (w : BitVec 4) (s : State) : Host.Outcome State Fault Refusal :=
  .next (ifPart part (fun s => onPartBase part (pendReadOp w.toNat) (answer part ch (pendWord (partBase s part) w.toNat) s)) s)

/-- PEND_WRITE (R445, R449). -/
def execPendWrite (part : Part) (w be : BitVec 4) (data : Word) (s : State) : Host.Outcome State Fault Refusal :=
  .next (ifPart part (pendWriteOp part w.toNat be data) s)

/-- PEND_SET (R447). -/
def execPendSet (part : Part) (w be : BitVec 4) (data : Word) (s : State) : Host.Outcome State Fault Refusal :=
  .next (ifPart part (onPartBase part (pendSetOp w.toNat be data)) s)

/-- MASK_SET (R446). -/
def execMaskSet (part : Part) (w be : BitVec 4) (data : Word) (s : State) : Host.Outcome State Fault Refusal :=
  .next (ifPart part (onPartBase part (maskWriteOp true w.toNat be data)) s)

/-- MASK_CLR (R446, R449). -/
def execMaskClr (part : Part) (w be : BitVec 4) (data : Word) (s : State) : Host.Outcome State Fault Refusal :=
  .next (ifPart part (onPartBase part (maskWriteOp false w.toNat be data)) s)

/-- HOLDOFF_EXPIRY (R438). -/
def execHoldoffExpiry (part : Part) (g : BitVec 4) (s : State) : Host.Outcome State Fault Refusal :=
  .next (ifPart part (onPartBase part (holdoffOp g.toNat)) s)

/-- LANTERN_ENTER (R440, R441, R443). -/
def execLanternEnter (psleep : BitVec 8) (s : State) : Host.Outcome State Fault Refusal :=
  .next (ifUnit (lanternEnterOp psleep) s)

/-- LANTERN_EXIT (R440, R441). -/
def execLanternExit (psleep : BitVec 8) (s : State) : Host.Outcome State Fault Refusal :=
  .next (ifUnit (onUnit (uB (lanternExitOp psleep))) s)

/-- CONFIGURATION_REQUEST (R449, R622): MSI-X Enable and Function Mask of the function. Enabled, every vector that is pending sends
its message; unmasked, those that wait in the pending bit array. -/
def execConfigurationRequest (msixEn fmask : Bool) (s : State) : Host.Outcome State Fault Refusal :=
  .next (ifDist (onDist (dB fun b =>
    let enables := msixEn && !b.evc.msixEn
    let opens := !fmask && b.evc.fmask
    let b := { b with evc := { b.evc with msixEn := msixEn, fmask := fmask } }
    if enables then vecSendAll (vecPending b) b else if opens then pbaSettle b else b)) s)

end Sys2Proof.Machine
end

