-- ==== Sys2Proof/Machine/Presence.lean ====
section
/-! DEFINITION. Physical presence: windows, the jumper and the seal (R505 to R518). -/

namespace Sys2Proof.Machine

/-- The upstream port of the active parent: SRV.STS.ACTIVE (R612). -/
def activeUp (d : DistState) : Nat := if rdB d.base 0x9064 4 then 129 else 128

/-- Numbers of the admitted downstream ports, ascending. -/
def downPorts (d : DistState) : List Nat := (d.ports.filter fun x => isDown x.1 && admitted x.2).map (·.1)

/-- Send one sequenced frame on every admitted downstream port, `delay` ticks from now at the earliest (R82). -/
def sendDown (delay cls : Nat) (typ : BitVec 6) (hdr : BitVec 64) (payload : List (BitVec 64)) (s : State) : State :=
  (downPorts s.dist).foldl (fun s n => sendSeq (distRef n) delay cls typ hdr payload s) s

/-- Ticks of a cut-through, 3 frame cycles (R82). -/
def cutThrough : Nat := 12

/-- Body of a PRESENCE frame (R71). -/
def presenceBody (expiry : BitVec 48) (window : Nat) : BitVec 64 := (expiry ++ BitVec.ofNat 16 window : BitVec 64)

/-- WINDOW of the window a distributor last held (PRS.STS). -/
def distWindow (d : DistState) : Nat := rdF d.base 0x0D048 16 16

/-- A distributor holds a new window: EXPIRY, number and source are recorded (R505, R521). -/
def distOpen (expiry : BitVec 64) (window : Nat) (received : Bool) (b : Base) : Base :=
  let b := { b with window := some expiry }
  let b := wr64 0x0D04C expiry (wrF 0x0D048 16 16 window (wrB 0x0D048 4 received b))
  pgEvt 0x0D 0 b

/-- A distributor's window ends (R511, R522). -/
def distClose (s : State) : State :=
  let s := onDist (dB fun b => pgEvt 0x0D 1 { b with window := none }) s
  logD dPresenceClosed noPort 0 0 0 s

/-- A press (R506 to R508, R514). -/
def pressOp (s : State) : State :=
  let s := onDist (dB fun b => occur 164 (inc 0x0D054 b)) s
  let d := s.dist
  if d.base.locked then logD dPresenceLocked noPort 0 0 0 s
  else if !isRoot d && !d.base.valid then logD dPresenceNotReady noPort 0 0 0 s
  else
    let expiry := d.base.ns + BitVec.ofNat 64 (rdF d.base 0x0D040 0 12 * 1000000000)
    let num := (rdF d.base 0x0D064 0 16 + 1) % 65536
    let s := onDist (dB fun b => distOpen expiry num false (wrF 0x0D064 0 16 num b)) s
    let s := logD dPresenceOpen noPort 0 0 0 s
    sendDown cutThrough 7 0x11 (presenceBody (expiry.setWidth 48) num) [] s

/-- Close a distributor's window at once and tell its subtree (R511). -/
def closeOp (s : State) : State :=
  if windowOpen s.dist.base then
    let num := distWindow s.dist
    let now := s.dist.base.ns
    let s := distClose (onDist (dB (wr64 0x0D04C now)) s)
    sendDown cutThrough 7 0x11 (presenceBody (now.setWidth 48) num) [] s
  else s

/-- A distributor applies a PRESENCE frame of its active parent and cuts it through (R509, R511, R514). -/
def distPresence (n : Nat) (expiry : BitVec 48) (window : Nat) (s : State) : State :=
  let d := s.dist
  if n = activeUp d ∧ admitted (distPort d n) ∧ !d.base.locked ∧ d.base.valid then
    let e := extend48 d.base expiry
    let s :=
      if e.toNat ≤ d.base.ns.toNat then
        (if windowOpen d.base then distClose (onDist (dB (wr64 0x0D04C e)) s)
         else onDist (dB fun b => { b with window := none }) s)
      else onDist (dB (distOpen e window true)) s
    sendDown cutThrough 7 0x11 (presenceBody expiry window) [] s
  else s

/-- A unit applies a PRESENCE frame of a usable domain (R511, R512, R514). -/
def unitPresence (dm : Dom) (expiry : BitVec 48) (window : Nat) (s : State) : State :=
  let b := s.unit.base
  if b.locked then logU uPresenceLocked (domNum dm) 0 0 0 s
  else if b.valid && domUsable s.unit dm then
    let e := extend48 b expiry
    if e.toNat ≤ b.ns.toNat then
      onUnit (uB fun b => (if windowOpen b then pgEvt 0x14 1 else id) (wr64 0x1406C e { b with window := none })) s
    else
      let s := onUnit (uB fun b =>
        pgEvt 0x14 0 (wr64 0x1406C e (wrF 0x14068 16 16 window (wrB 0x14068 1 (decide (dm = .b)) { b with window := some e })))) s
      logU uPresenceOpen (domNum dm) 0 0 0 s
  else s

/-- NS has reached EXPIRY (R505). -/
def expireOp (part : Part) (s : State) : State :=
  let b := partBase s part
  match b.window with
  | some e =>
    if e.toNat ≤ b.ns.toNat then
      match part with
      | .unit => onUnit (uB fun b => pgEvt 0x14 1 { b with window := none }) s
      | .dist => distClose s
    else s
  | none => s

/-- A unit's window closes: RELOAD (R512) or the jumper (R514). -/
def unitCloseWindow (b : Base) : Base :=
  if windowOpen b then pgEvt 0x14 1 (wr64 0x1406C b.ns { b with window := none }) else { b with window := none }

/-- CFG_LOCK_N has read low for 1 ms, or reads high again (R514). -/
def lockOp (part : Part) (low : Bool) (s : State) : State :=
  let s := if low then (match part with
      | .unit => onUnit (uB unitCloseWindow) s
      | .dist => closeOp s) else s
  onPartBase part (fun b => { b with locked := low }) s

/-- The sixteenth consecutive comparison of the seal loop failed (R515). -/
def sealOp (s : State) : State :=
  if rdB s.dist.base 0x0D048 3 then s
  else
    let s := onDist (dB fun b =>
      pgEvt 0x0D 2 (wr64 0x0D05C (nsNow b) (wrB 0x0D048 2 true (wrB 0x0D048 3 true b)))) s
    logD dSealBroken noPort 0 0 0 s

/-- Types that travel down the tree are permitted at a unit and on a distributor's upstream ports (R66). -/
def permDown : PortRef → Bool
  | .unit _ => true
  | .dist n => isUp n.val
/-- Types that travel up the tree are permitted on a distributor's downstream ports (R66). -/
def permUp : PortRef → Bool
  | .unit _ => false
  | .dist n => isDown n.val
/-- Types of Rope links only (R66, R100). -/
def permRope : PortRef → Bool
  | .unit _ => false
  | .dist n => isRope n.val

/-- PRESENCE_PRESS (R506 to R508, R514). -/
def execPresencePress (s : State) : Host.Outcome State Fault Refusal := .next (ifDistRuns pressOp s)

/-- PRESENCE_RX (R509, R511, R512, R514). -/
def execPresenceRx (rx : Rx) (expiry : BitVec 48) (window : BitVec 16) (s : State) : Host.Outcome State Fault Refusal :=
  let r := rxSeq rx (permDown rx.port) [(0x11, presenceBody expiry window.toNat)] s
  if r.1 then
    match rx.port with
    | .unit d => .next (unitPresence d expiry window.toNat r.2)
    | .dist n => .next (distPresence n.val expiry window.toNat r.2)
  else .next r.2

/-- PRESENCE_CLOSE (R511). -/
def execPresenceClose (s : State) : Host.Outcome State Fault Refusal := .next (ifDist closeOp s)

/-- PRESENCE_EXPIRY (R505). -/
def execPresenceExpiry (part : Part) (s : State) : Host.Outcome State Fault Refusal := .next (ifPart part (expireOp part) s)

/-- CFG_LOCK_CHANGE (R514). -/
def execCfgLockChange (part : Part) (low : Bool) (s : State) : Host.Outcome State Fault Refusal :=
  .next (ifPart part (lockOp part low) s)

/-- SEAL_BREAK (R515). -/
def execSealBreak (s : State) : Host.Outcome State Fault Refusal := .next (ifDist sealOp s)

end Sys2Proof.Machine
end

