-- ==== Sys2Proof/Machine/Rope.lean ====
section
/-! DEFINITION. Carriage of ROPE records between mirror partners (R100 to R102, R614). -/

namespace Sys2Proof.Machine

/-- The Rope ports are LINK_ADMITTED. -/
def rope130 (d : DistState) : Bool := admitted (distPort d 130)
def rope131 (d : DistState) : Bool := admitted (distPort d 131)
def ropeUp (d : DistState) : Bool := rope130 d || rope131 d

/-- The port that carries ROPE frames: 130 while it is admitted, 131 otherwise (R102). -/
def ropePort (d : DistState) : Nat := if rope130 d then 130 else 131

/-- A frame or queued frame belongs to a ROPE record. -/
def isRopeTyp (t : BitVec 6) : Bool := t == 0x13 || t == 0x33

/-- Frames of ROPE records that a port has not had acknowledged or not sent. -/
def ropeOwed (lp : LinkPort) : Nat :=
  (lp.arq.replay.filter fun x => isRopeTyp x.1.typ).length + (lp.arq.txq.filter fun i => isRopeTyp i.typ).length

/-- The newest records whose frames number at least `n`: those with a frame still owed. -/
def ropeTail (n : Nat) (l : List RopeRec) : List RopeRec :=
  (l.reverse.foldl (fun (acc : List RopeRec × Nat) r =>
    if acc.2 < n then (r :: acc.1, acc.2 + 1 + r.payload.length) else acc) ([], 0)).1

/-- Header of a ROPE record (R71). -/
def ropeHdr (kind gallery epochLo gseq len rseq : Nat) : BitVec 64 :=
  bodyOf [(8, kind), (12, gallery), (4, epochLo), (16, gseq), (7, len), (1, 0), (16, rseq)]

/-- Send a record to the mirror partner; without an admitted Rope port nothing is sent. -/
def ropeSend (delay kind gallery epochLo gseq : Nat) (payload : List (BitVec 64)) (s : State) : State :=
  let d := s.dist
  if ropeUp d then
    let n := ropePort d
    let r : RopeRec := { rseq := d.rope.txSeq, payload := payload,
                         hdr := ropeHdr kind gallery epochLo gseq payload.length d.rope.txSeq.toNat }
    let kept := ropeTail (ropeOwed (distPort d n)) d.rope.sent
    let s := onDist (fun d => dB (inc 0x0B058)
      { d with rope := { d.rope with txSeq := d.rope.txSeq + 1, sent := kept ++ [r] } }) s
    sendSeq (distRef n) delay 6 0x13 r.hdr payload s
  else s

/-- Send records again, whole and in order, on the port that now carries (R102). -/
def ropeResend (l : List RopeRec) (s : State) : State :=
  l.foldl (fun s r => sendSeq (distRef (ropePort s.dist)) 0 6 0x13 r.hdr r.payload s) s

/-- Carriage is with the port it should be with; a move within a session resends what the old port still owes (R102). -/
def ropeSettle (old : LinkPort) (s : State) : State :=
  let d := s.dist
  let now131 := !rope130 d
  if ropeUp d && now131 != d.rope.carrier then
    let l := ropeTail (ropeOwed old) d.rope.sent
    let s := onDist (fun d => dB (pgEvt 0x0B 1) { d with rope := { d.rope with carrier := now131, sent := l } }) s
    let s := onPort (distRef (if now131 then 130 else 131)) (fun lp =>
      { lp with arq := { lp.arq with txq := lp.arq.txq.filter fun i => !isRopeTyp i.typ, owed := none } }) s
    ropeResend l s
  else s

/-- A Rope port has been admitted: `wasUp` says whether the other one already was (R102). -/
def ropeAdmit (wasUp : Bool) (s : State) : State :=
  let s := onDist (dB (wrB 0x0B040 7 true)) s
  if wasUp then ropeSettle (distPort s.dist 131) s
  else onDist (fun d => { d with rope := { d.rope with
    txSeq := 0, rxSeq := 0, sent := [], carrier := !rope130 d, lostLogged := false } }) s

/-- A Rope port has left LINK_ADMITTED; `old` is what it held before. -/
def ropeLeave (old : LinkPort) (s : State) : State :=
  if ropeUp s.dist then ropeSettle old s
  else onDist (fun d => dB (pgEvt 0x0B 2) { d with rope := { d.rope with downAt := d.base.tick } }) s

/-- Receive a ROPE record of `n` frames on a port: accepted by the link, permitted, and next in RSEQ order (R102). -/
def rxRope (rx : Rx) (rseq : BitVec 16) (hdr : BitVec 64) (payload : List (BitVec 64)) (s : State) : Bool × State :=
  let r := rxSeq rx (permRope rx.port) ((0x13, hdr) :: payload.map fun b => (0x33, b)) s
  if r.1 && admitted (getPort r.2 rx.port) && rseq == r.2.dist.rope.rxSeq then
    (true, onDist (fun d => dB (inc 0x0B05C) { d with rope := { d.rope with rxSeq := d.rope.rxSeq + 1 } }) r.2)
  else (false, r.2)

end Sys2Proof.Machine
end

