-- ==== Sys2Proof/Machine/Servo.lean ====
section
/-! DEFINITION. The follower servo of both parts, handover and parent switch, holdover, the unit's state machine and
the first load of a counter (R22, R36, R37, R153 to R180, R541, R579, R582). -/

namespace Sys2Proof.Machine

/-! ## One servo, two register maps (R580, R611) -/

/-- Addresses of the servo's registers in a part. -/
structure SrvMap where
  page : Nat
  bw : Nat
  slew : Nat
  thr : Nat
  outl : Nat
  tc : Nat
  xchk : Nat
  havg : Nat
  sts : Nat
  cw : Nat
  hword : Nat
  outs : Nat
  hofs0 : Nat
  hofs1 : Nat
  diff : Nat
  hage : Nat
  err : Nat
  cnt : Nat
  steer : Nat
  evDiff : Nat
  deriving DecidableEq, Repr

def srvMap : Part → SrvMap
  | .unit => { page := 0x02, bw := 0x2044, slew := 0x2048, thr := 0x204C, outl := 0x2050, tc := 0x2054, xchk := 0x2058,
               havg := 0x2060, sts := 0x2070, cw := 0x2074, hword := 0x2078, outs := 0x207C, hofs0 := 0x2080,
               hofs1 := 0x2084, diff := 0x2088, hage := 0x2090, err := 0x2094, cnt := 0x2098, steer := 0x14044,
               evDiff := 3 }
  | .dist => { page := 0x09, bw := 0x9044, slew := 0x9048, thr := 0x904C, outl := 0x9050, tc := 0x9054, xchk := 0x9058,
               havg := 0x905C, sts := 0x9064, cw := 0x9068, hword := 0x906C, outs := 0x9070, hofs0 := 0x9074,
               hofs1 := 0x9078, diff := 0x907C, hage := 0x9084, err := 0x9088, cnt := 0x908C, steer := 0x0E044,
               evDiff := 4 }

def servoOf (s : State) : Part → Servo
  | .unit => s.unit.servo
  | .dist => s.dist.servo
def onServo (p : Part) (f : Servo → Servo) (s : State) : State := match p with
  | .unit => { s with unit := { s.unit with servo := f s.unit.servo } }
  | .dist => { s with dist := { s.dist with servo := f s.dist.servo } }

/-- SRV.STS bits: LOCK 0, BW_LIMITED 1, DIFF_VALID 2, HOLDOVER 3, ACTIVE 4, MANUAL or MUTED 5, REBASING or LOADED 6,
PENDING 7. -/
def stsBit (s : State) (p : Part) (i : Nat) : Bool := rdB (partBase s p) (srvMap p).sts i
def setSts (p : Part) (i : Nat) (v : Bool) (s : State) : State := onPartBase p (wrB (srvMap p).sts i v) s

/-- Port of a source: domain A or B of a unit, primary or alternate parent of a distributor. -/
def srcPort : Part → Bool → PortRef
  | .unit, false => .unit .a
  | .unit, true => .unit .b
  | .dist, false => .dist 128
  | .dist, true => .dist 129

/-- Log a servo happening of a part. -/
def logS (p : Part) (hu hd : Hap) (port obj aux : Nat) (s : State) : State := match p with
  | .unit => logU hu port obj 0 aux s
  | .dist => logD hd port obj 0 aux s

def srvEvt (p : Part) (i : Nat) (s : State) : State := onPartBase p (pgEvt (srvMap p).page i) s

/-- A value of 2^-10 ns in units of 2^-6 ns. -/
def unitsOf (x : Int) : Int := Config.rounded 0 x 16

/-! ## The control word (R153, R154, R161, R165) -/

/-- Magnitude that a range of P ppm allows (R154). -/
def ppmWord (p : Nat) : Int := ((p * 2 ^ 40 / 1000000 : Nat) : Int)

/-- The unit is in MANUAL mode (R165). -/
def manual (s : State) (p : Part) : Bool := match p with
  | .unit => rdB s.unit.base 0x2040 0
  | .dist => false

/-- Hold a word within the steering range (R154): the word, and whether it was clamped. -/
def steerLimit (b : Base) (a : Nat) (w : Int) : Int × Bool :=
  let m := min (ppmWord (rdF b a 0 10)) 549755813
  (clampInt m w, decide (clampInt m w ≠ w))

/-- Apply a control word: limited, recorded in SRV.CW, with LIM_CLAMP logged once for each period of clamping
(R154, R155). -/
def applyWord (p : Part) (w : Int) (s : State) : State :=
  let r := steerLimit (partBase s p) (srvMap p).steer w
  let fresh := r.2 && !(servoOf s p).clamped
  let s := onPartBase p (wr (srvMap p).cw (wordOfInt r.1)) s
  let s := onServo p (fun v => { v with clamped := r.2 }) s
  if fresh then logS p uLimClamp dLimClamp noPort 0 0 s else s

/-- The word in effect. -/
def curWord (s : State) (p : Part) : Int := sext 32 (rd (partBase s p) (srvMap p).cw).toNat

/-! ## Bandwidth (R159, R160) -/

/-- The ceiling 1 / (16 · ts) in Hz for the Echo interval of a source's port. -/
def bwCeil (s : State) (p : Part) (src : Bool) : Nat := 1000000000 / (16 * max 1 (echoInterval s (srcPort p src)))

/-- Record BW_EFF and BW_LIMITED, and answer the bandwidth that the loop uses. -/
def loopBw (p : Part) (src : Bool) (s : State) : Nat × State :=
  let set := rdF (partBase s p) (srvMap p).bw 0 10
  let c := bwCeil s p src
  let eff := min set c
  let s := onPartBase p (fun b => wrF (srvMap p).sts 10 10 eff (wrB (srvMap p).sts 1 (decide (c < set)) b)) s
  (if stsBit s p 0 then eff else min (4 * set) c, s)

/-! ## Lock (R162) and its consequences -/

/-- Set or clear LOCK. -/
def setLock (p : Part) (v : Bool) (s : State) : State :=
  if stsBit s p 0 = v then s else srvEvt p 0 (setSts p 0 v s)

/-- LOCK has been regained on a rejoined source: holdover ends (R177), and a muted distributor unmutes (R180). -/
def leaveHoldover (p : Part) (s : State) : State :=
  if stsBit s p 3 then
    let v := servoOf s p
    let age := ((partBase s p).tick - v.holdAt) / 1000
    let s := setSts p 3 false (onPartBase p (wr (srvMap p).hage (BitVec.ofNat 32 (min age 0xFFFFFFFF))) s)
    let port := portNum (srcPort p (stsBit s p 4))
    let s := logS p uHoldoverExit dHoldoverExit port (wrapBits 16 (clampInt 32767 (unitsOf v.rejErr))) 0 (srvEvt p 2 s)
    onServo p (fun v => { v with rejoined := false }) s
  else s

/-- The distributor resumes Echo and TIME downstream (R180), holds RESILVERING and reports DIST_UNMUTED on Rope
(R482). -/
def unmute (s : State) : State :=
  if rdB s.dist.base 0x9064 5 then
    let s := onDist (dB fun b => pgEvt 0x09 3 (wrB 0x0A044 29 true (wrB 0x9064 5 false b))) s
    let s := logD dDistUnmuted noPort 0 0 0 s
    if ropeUp s.dist then sendReport (distRef (ropePort s.dist)) (hapCode dDistUnmuted).toNat 0 s else s
  else s

/-- Judge LOCK on an accepted sample (R162). -/
def judgeLock (p : Part) (e : Int) (s : State) : State :=
  let thr : Int := 16 * (rdF (partBase s p) (srvMap p).thr 0 8 : Nat)
  let v := servoOf s p
  if stsBit s p 0 then
    let run := if 4 * thr < e.natAbs then v.unlockRun + 1 else 0
    let s := onServo p (fun v => { v with unlockRun := run }) s
    if 16 ≤ run then
      let s := setLock p false s
      let s := onServo p (fun v => { v with unlockRun := 0, lockRun := 0, acqWord := curWord s p }) s
      logS p uServoUnlock dServoUnlock noPort 0 0 s
    else s
  else
    let run := if (e.natAbs : Int) ≤ thr then v.lockRun + 1 else 0
    let s := onServo p (fun v => { v with lockRun := run }) s
    if 64 ≤ run then
      let s := leaveHoldover p (setLock p true (onServo p (fun v => { v with lockRun := 0, unlockRun := 0 }) s))
      match p with
      | .unit => s
      | .dist => unmute s
    else s

/-! ## Holdover (R175 to R180) -/

/-- The mean of the last 2^HOLD_AVG words, or none if fewer than 1,024 exist (R175, R582). -/
def holdMean (s : State) (p : Part) : Option Int :=
  let l := (servoOf s p).words.take (2 ^ rdF (partBase s p) (srvMap p).havg 0 5)
  if l.length < 1024 then none
  else
    let sum := l.foldl (· + ·) 0
    some (Config.rounded 0 sum l.length)

/-- Stop a rebase where it stands (R173). -/
def stopRebase (p : Part) (s : State) : State := match p with
  | .unit => if stsBit s .unit 6 then srvEvt .unit 4 (setSts .unit 6 false s) else s
  | .dist => s

/-- Apply the holdover word, or keep the integrator's value and log HOLD_SHORT (R175). -/
def holdWord (p : Part) (s : State) : State :=
  let m := holdMean s p
  let w := m.getD (servoOf s p).integ
  let s := if m.isNone then logS p uHoldShort dHoldShort noPort 0 0 s else s
  let s := if manual s p then s else applyWord p w s
  onServo p (fun v => { v with integ := w, failed := true, holdAt := (partBase s p).tick, ageLogged := false,
                               rej0 := 0, rej1 := 0, rejoined := false, pend := none, lockRun := 0, unlockRun := 0 })
    (onPartBase p (wr (srvMap p).hword (wordOfInt w)) s)

/-- Enter holdover (R175, R179). LOCK is cleared, since it is to become 1 again on the rejoined source (R177). -/
def enterHoldover (p : Part) (s : State) : State :=
  if stsBit s p 3 then s
  else
    let s := setSts p 7 false (stopRebase p (holdWord p s))
    let s := srvEvt p 2 (setSts p 3 true (setLock p false s))
    logS p uHoldoverEntered dSrvHoldoverEntered noPort 0 0 s

/-- Age of the current holdover or ISOLATED period in µs (R175, R176). -/
def holdAgeUs (s : State) (p : Part) : Nat := ((partBase s p).tick - (servoOf s p).holdAt) / 1000

/-- TCK.STS.STATE (R540). -/
def tckState (u : UnitState) : Nat := rdF u.base 0x1044 1 3

/-- The unit is held by its age: HOLD_AGE exceeds ARM_AGE in holdover or ISOLATED (R176). -/
def armAged (s : State) : Bool :=
  (stsBit s .unit 3 || tckState s.unit == 7) && decide (rdF s.unit.base 0x2064 0 17 * 100 < holdAgeUs s .unit)

/-! ## Sources (R36, R98, R99, R169 to R172, R178) -/

/-- A source is usable: its port LINK_ADMITTED and, at a unit, the domain usable by R28 and R34. -/
def srcUsable (s : State) (p : Part) (src : Bool) : Bool := match p with
  | .unit => domUsable s.unit (if src then .b else .a)
  | .dist => admitted (distPort s.dist (if src then 129 else 128))

/-- A source's link supplies servo input: usable, no ECHO_LOST and no TIME_MISMATCH (R98, R99). -/
def srcInput (s : State) (p : Part) (src : Bool) : Bool :=
  let lp := getPort s (srcPort p src)
  srcUsable s p src && !lp.time.echoLost && !lp.time.mismatch

/-- The other source completed an exchange within its last 2 Echo intervals (R170). -/
def srcRecent (s : State) (p : Part) (src : Bool) : Bool :=
  match (getPort s (srcPort p src)).time.act.doneAt with
  | some t => decide ((partBase s p).tick ≤ t + 2 * echoInterval s (srcPort p src))
  | none => false

/-- Δ as it stood 8 updates ago, or none while DIFF_VALID is 0 (R170, R171). -/
def snapDelta (s : State) (p : Part) : Option Int :=
  if stsBit s p 2 then some ((servoOf s p).hist.getLastD (servoOf s p).delta) else none

/-- The conditions of R170, or of R171 for a coarse handover, hold for the source `to`. -/
def canMove (s : State) (p : Part) (dest coarse : Bool) : Bool :=
  srcUsable s p dest && srcRecent s p dest && (stsBit s p 2 || (coarse && decide (16 ≤ (servoOf s p).upd)))

/-- A part's servo runs: its counter is loaded, it is not a root (R613) and not ISOLATED. -/
def servoRuns (s : State) (p : Part) : Bool :=
  (partBase s p).valid && match p with
  | .unit => tckState s.unit != 7
  | .dist => !isRoot s.dist

/-- The active source fails (R169 to R171): a handover is prepared, or holdover begins. -/
def failActive (p : Part) (s : State) : State :=
  let v := servoOf s p
  if !servoRuns s p || stsBit s p 3 then s
  else
    let dest := !stsBit s p 4
    match v.pend with
    | some h =>
      if h.failed then s
      else onServo p (fun v => { v with failed := true, pend := some { h with failed := true, since := (partBase s p).tick } }) s
    | none =>
      if v.failed then s
      else if canMove s p dest true then
        let h : Handover := { dest := dest, failed := true, since := (partBase s p).tick, snap := snapDelta s p,
                              due := false }
        setSts p 7 true (onServo p (fun v => { v with failed := true, pend := some h }) (stopRebase p s))
      else enterHoldover p (onServo p (fun v => { v with failed := true }) s)

/-- An exchange of a source is lost or not usable: the next two have to be consecutive afresh (R177). -/
def rejDrop (p : Part) (src : Bool) (s : State) : State :=
  onServo p (fun v => if src then { v with rej1 := 0 } else { v with rej0 := 0 }) s

/-- A source fails or becomes unusable: the active one by `failActive`; the other drops a commanded handover with
SWITCH_REFUSED, or turns a failed one into holdover (R169, R170, R172). A rejoined source that fails leaves the part in
holdover with nothing rejoined (R177). -/
def sourceFails (p : Part) (src : Bool) (s : State) : State :=
  let s := rejDrop p src s
  if stsBit s p 3 then
    if stsBit s p 4 = src then onServo p (fun v => { v with rejoined := false, failed := true }) s else s
  else if stsBit s p 4 = src then failActive p s
  else
    match (servoOf s p).pend with
    | some h =>
      if h.failed then enterHoldover p s
      else
        let s := setSts p 7 false (onServo p (fun v => { v with pend := none }) s)
        logS p uSwitchRefused dSwitchRefused noPort 0 0 s
    | none => s

/-- A commanded handover or parent switch (R172, R178). -/
def commandSwitch (p : Part) (s : State) : State :=
  let v := servoOf s p
  let dest := !stsBit s p 4
  if v.pend.isSome then s
  else if servoRuns s p && !stsBit s p 3 && canMove s p dest false then
    let h : Handover := { dest := dest, failed := false, since := (partBase s p).tick, snap := snapDelta s p,
                          due := false }
    setSts p 7 true (onServo p (fun v => { v with pend := some h }) (stopRebase p s))
  else logS p uSwitchRefused dSwitchRefused noPort 0 0 s

/-! ## Samples (R156 to R168) -/

/-- The loop of R158 on an accepted sample of error `e`, units of 2^-10 ns. -/
def steer (p : Part) (src : Bool) (e : Int) (s : State) : State :=
  let r := loopBw p src s
  let s := onPartBase p draw r.2
  if manual s p then s
  else
    let v := servoOf s p
    let inc := Config.integStep (partBase s p).free r.1 (echoInterval s (srcPort p src)) e
    let prop := Config.propTerm (partBase s p).free r.1 e
    let want := v.integ + inc + prop
    let slew := ppmWord (rdF (partBase s p) (srvMap p).slew 0 7)
    let acq := if stsBit s p 0 then want else v.acqWord + clampInt slew (want - v.acqWord)
    let lim := (steerLimit (partBase s p) (srvMap p).steer acq).1
    let grow := !((decide (lim < want) && decide (0 < inc)) || (decide (want < lim) && decide (inc < 0)))
    applyWord p acq (onServo p (fun v => { v with integ := if grow then v.integ + inc else v.integ }) s)

/-- Record a word taken while LOCK was 1, for the holdover mean (R175). -/
def noteWord (p : Part) (s : State) : State :=
  if stsBit s p 0 then
    let n := 2 ^ rdF (partBase s p) (srvMap p).havg 0 5
    onServo p (fun v => { v with words := (curWord s p :: v.words).take n }) s
  else s

/-- A sample θ (units of 2^-6 ns) of the source in use (R157, R158, R162, R163). -/
def sample (p : Part) (src : Bool) (theta : Int) (s : State) : State :=
  let m := srvMap p
  let b := partBase s p
  let s := onServo p (fun v => { v with feedAt := b.tick }) s
  let v := servoOf s p
  let e := 16 * theta + sext 32 (rd b (if src then m.hofs1 else m.hofs0)).toNat
  if stsBit s p 0 && decide ((16 * (rdF b m.outl 0 12 : Nat) : Int) < (e - v.lastErr).natAbs) then
    let s := onServo p (fun v => { v with outRun := v.outRun + 1 }) (onPartBase p (inc m.outs) s)
    if 16 ≤ v.outRun + 1 then
      let s := logS p uServoInputLost dServoInputLost (portNum (srcPort p src)) 0 0 (onServo p (fun v => { v with outRun := 0 }) s)
      sourceFails p src s
    else s
  else
    let s := onServo p (fun v => { v with outRun := 0, lastErr := e }) s
    let s := onPartBase p (wr m.err (wordOfInt (unitsOf e))) s
    let s := steer p src e s
    let s := onPort (srcPort p src) (fun lp => { lp with time := { lp.time with inputAt := some (partBase s p).tick } }) s
    judgeLock p e (noteWord p s)

/-- Update Δ once both sources have completed an exchange (R167, R168). DESIGN CHOICE (assumption 126): after the alarm the run
of updates beyond XCHK starts again, so it is raised once more after every further 16. -/
def updateDiff (p : Part) (s : State) : State :=
  let m := srvMap p
  let v := servoOf s p
  if v.new0 && v.new1 then
    let k := rdF (partBase s p) m.tc 0 5
    let x := 16 * (v.th0 - v.th1) - v.delta
    let delta := v.delta + Config.rounded (partBase s p).free x (2 ^ k)
    let upd := v.upd + 1
    let spill := decide ((16 * (rdF (partBase s p) m.xchk 0 12 : Nat) : Int) < x.natAbs)
    let xrun := if spill then v.xrun + 1 else 0
    let s := onServo p (fun v => { v with delta := delta, hist := (delta :: v.hist).take 8, upd := upd,
                                          new0 := false, new1 := false, xrun := if 16 ≤ xrun then 0 else xrun }) s
    let s := onPartBase p (fun b => wr64 m.diff (BitVec.ofInt 64 delta) (draw b)) s
    let s := if 16 ≤ xrun then logS p uDomainDisagree dParentDisagree noPort 0 0 s else s
    if 2 ^ k ≤ upd && !stsBit s p 2 then srvEvt p m.evDiff (setSts p 2 true s) else s
  else s

/-- Restart the count of R167: a port was admitted again, or DIFF_TC changed. -/
def restartDiff (p : Part) (s : State) : State :=
  setSts p 2 false (onServo p (fun v => { v with upd := 0, new0 := false, new1 := false, xrun := 0 }) s)

/-- Complete the handover or parent switch that is due (R170, R171, R178): the new held offset, the active source, the
log, and the new source's first sample. -/
def doHandover (p : Part) (s : State) : State :=
  match (servoOf s p).pend with
  | some h =>
    if h.due then
      let m := srvMap p
      let b := partBase s p
      let d := h.snap.getD (servoOf s p).delta
      let o0 := sext 32 (rd b m.hofs0).toNat
      let o1 := sext 32 (rd b m.hofs1).toNat
      let s := onPartBase p (if h.dest then wr m.hofs1 (wordOfInt (o0 + d)) else wr m.hofs0 (wordOfInt (o1 - d))) s
      let s := setSts p 7 false (setSts p 4 h.dest (stopRebase p s))
      let s := onServo p (fun v => { v with pend := none, failed := false, outRun := 0 }) s
      let s := match p with
        | .unit => s
        | .dist => onPort (srcPort p h.dest) (fun lp => { lp with time := { lp.time with raws := [] } }) s
      let s := srvEvt p 1 (onPartBase p (inc m.cnt) s)
      let obj := wrapBits 16 (clampInt 32767 (unitsOf d))
      let s := match p with
        | .unit => logU (if h.snap.isSome then uHandover else uHandoverCoarse) (if h.dest then 1 else 0) obj 0
            (if h.dest then 0 else 1) s
        | .dist => logD dParentSwitch (if h.dest then 129 else 128) obj 0 (if h.dest then 128 else 129) s
      sample p h.dest (if h.dest then (servoOf s p).th1 else (servoOf s p).th0) s
    else s
  | none => s

/-- The bound of R170 has passed without an exchange of the other source: holdover. -/
def handoverLate (p : Part) (s : State) : State :=
  match (servoOf s p).pend with
  | some h =>
    let q := srcPort p h.dest
    if h.failed && !h.due && decide (h.since + echoLossLimit s q * echoInterval s q < (partBase s p).tick) then enterHoldover p s
    else s
  | none => s

/-- In holdover, a usable exchange of a source: the first to complete two in a row is rejoined; where both are about to,
the preferred one (R177). -/
def rejoin (p : Part) (src : Bool) (theta : Int) (s : State) : State :=
  let v := servoOf s p
  let n := (if src then v.rej1 else v.rej0) + 1
  let other := if src then v.rej0 else v.rej1
  let prefer := match p with
    | .unit => rdB s.unit.base 0x2068 0
    | .dist => rdB s.dist.base 0x9040 0
  let s := onServo p (fun v => if src then { v with rej1 := n } else { v with rej0 := n }) s
  if 2 ≤ n ∧ (src = prefer ∨ other = 0 ∨ 3 ≤ n) then
    let w := sext 32 (rd (partBase s p) (srvMap p).hword).toNat
    let e := 16 * theta + sext 32 (rd (partBase s p) (if src then (srvMap p).hofs1 else (srvMap p).hofs0)).toNat
    let s := setSts p 4 src s
    let s := onServo p (fun v => { v with failed := false, rejoined := true, rejErr := e, integ := w, acqWord := w,
                                          lockRun := 0, outRun := 0, lastErr := e }) s
    sample p src theta s
  else s

/-- A completed active-pair exchange of a source with offset θ (R97, R156, R167, R170, R177). -/
def exchange (p : Part) (src : Bool) (theta : Int) (s : State) : State :=
  let s := onServo p (fun v => if src then { v with th1 := theta, new1 := true } else { v with th0 := theta, new0 := true }) s
  let s := updateDiff p s
  if !servoRuns s p || !srcInput s p src then rejDrop p src s
  else if stsBit s p 3 then
    if (servoOf s p).rejoined then (if stsBit s p 4 = src then sample p src theta s else s)
    else rejoin p src theta s
  else
    match (servoOf s p).pend with
    | some h =>
      if h.dest = src then onServo p (fun v => { v with pend := some { h with due := true } }) s
      else if h.failed then s
      else if stsBit s p 4 = src then sample p src theta s else s
    | none => if stsBit s p 4 = src && !(servoOf s p).failed then sample p src theta s else s

/-- The active source has supplied no input for ECHO_LOSS Echo intervals (R169). -/
def starved (p : Part) (s : State) : State :=
  let src := stsBit s p 4
  let q := srcPort p src
  let limit := echoLossLimit s q * echoInterval s q
  if servoRuns s p && !(servoOf s p).failed && !stsBit s p 3 && decide ((servoOf s p).feedAt + limit < (partBase s p).tick) then
    sourceFails p src s
  else s

/-! ## The first load (R22, R27, R36, R55, R164, R539) -/

/-- Record a kept EPOCH frame whose generation is the part's (R27). -/
def takeKept (p : Part) (q : PortRef) (s : State) : State :=
  match (getPort s q).time.kept with
  | some (g, a) =>
    let (genA, atA) := match p with
      | .unit => (0x1050, 0x1068)
      | .dist => (0x104C, 0x105C)
    if rdF (partBase s p) genA 0 16 = g.toNat then
      let s := onPartBase p (fun b => wr64 atA (extend48 b a) b) s
      match p with
      | .unit => s
      | .dist => onDist (fun d => dB (pgEvt 0x01 1) { d with adm := { d.adm with epochHeld := true } }) s
    else s
  | none => s

/-- Load the counter from a TIME frame of the active source received `frac` / 64 ns into this tick (R164). The load
tick is the next one; the counter is set so that it reads the loaded value there. -/
def loadCounter (p : Part) (src : Bool) (ns48 : BitVec 48) (gen : BitVec 16) (frac : Nat) (s : State) : State :=
  let q := srcPort p src
  let dly := (getPort s q).time.act.dly
  let sum := dly + ((64 - frac : Nat) : Int)
  let v := extend48 (partBase s p) ns48 + BitVec.ofInt 64 ((sum + 32) / 64)
  let s := onPartBase p (fun b => { b with ns := v - 1, valid := true, slip := true }) s
  let s := match p with
    | .unit => onUnit (uB fun b => pgEvt 0x01 0 (wr64 0x1054 v (wr64 0x1068 0 (wr 0x1050 (BitVec.ofNat 32 gen.toNat) b)))) s
    | .dist => onDist (dB fun b => pgEvt 0x01 0 (wrB 0x9064 6 true (wr 0x104C (BitVec.ofNat 32 gen.toNat) b))) s
  let s := setSts p 4 src (onServo p (fun w => { w with integ := 0, acqWord := curWord s p, lockRun := 0, unlockRun := 0,
                                                        failed := false, pend := none, outRun := 0,
                                                        feedAt := (partBase s p).tick }) s)
  takeKept p (srcPort p true) (takeKept p (srcPort p false) s)

/-! ## The unit state machine (R541) -/

/-- A transition of TCK.STS.STATE. -/
def setTck (st : Nat) (s : State) : State :=
  if tckState s.unit = st then s
  else onUnit (fun u => { uB (fun b => pgEvt 0x01 1 (wr64 0x105C (nsNow b) (wrF 0x1044 1 3 st b))) u with
                          tckAt := u.base.tick, unlockLogged := false }) s

/-- A port has completed two exchanges since its admission. -/
def echoTwice (u : UnitState) (d : Dom) : Bool := admitted (unitPort u d) && decide (2 ≤ (unitPort u d).time.act.done)

/-- The active partner by R36 among the ports that meet the ECHO condition. -/
def chooseActive (s : State) : State :=
  let prefB := rdB s.unit.base 0x2068 0
  let a := echoTwice s.unit .a
  let b := echoTwice s.unit .b
  setSts .unit 4 (if prefB then b else (!a && b)) s

/-- A domain's port is barred by R28 or R34. -/
def domBarred (u : UnitState) (d : Dom) : Bool := (unitPort u d).time.genMis || (unitPort u d).adm.idSplit

/-- One test of the unit's state machine: the first row of R541 that applies. -/
def unitFsm (s : State) : State :=
  let u := s.unit
  let st := tckState u
  let anyUp := decide (u.portA.phy.st = .up) || decide (u.portB.phy.st = .up)
  let anyAdm := admitted u.portA || admitted u.portB
  let act : Dom := if stsBit s .unit 4 then .b else .a
  if u.base.phase ≠ .run then s
  else if st = 1 then (if anyUp || anyAdm then setTck 2 s else s)
  else if st = 2 && anyAdm then setTck 3 s
  else if (st = 2 || st = 3 || st = 4) && !u.base.valid && !anyAdm then setTck (if anyUp then 2 else 1) s
  else if st = 3 then
    (if echoTwice u .a || echoTwice u .b then chooseActive (setTck 4 s) else s)
  else if st = 4 && !u.base.valid then
    (if !admitted (unitPort u act) then
      (if echoTwice u .a || echoTwice u .b then chooseActive s else setTck 3 s)
     else s)
  else if u.base.valid && domBarred u .a && domBarred u .b && decide (st ≠ 7) && decide (4 ≤ st) then
    setTck 7 (setSts .unit 7 false (setSts .unit 3 false (setLock .unit false (stopRebase .unit (holdWord .unit s)))))
  else if (st = 4 || st = 5) && stsBit s .unit 3 then setTck 6 s
  else if st = 4 && u.base.valid && stsBit s .unit 0 then setTck 5 s
  else if st = 5 && !stsBit s .unit 0 then setTck 4 s
  else if st = 6 && stsBit s .unit 0 then setTck 5 s
  else s

/-! ## The meanings -/

/-- DOM_SWITCH (R172). -/
def execDomSwitch (s : State) : Host.Outcome State Fault Refusal := .next (ifUnitRuns (commandSwitch .unit) s)

/-- PARENT_SWITCH (R178); at a root it has no effect (R613). -/
def execParentSwitch (s : State) : Host.Outcome State Fault Refusal :=
  .next (ifDistRuns (fun s => if isRoot s.dist then s else commandSwitch .dist s) s)

/-- Held offset of the unit's active domain: its register. -/
def activeHofs (s : State) : Nat := if stsBit s .unit 4 then 0x2084 else 0x2080

/-- SRV.DOM_CTL.REBASE starts a rebase (R173); none starts while a handover or holdover stands. -/
def rebaseOp (s : State) : State :=
  if (servoOf s .unit).pend.isSome || stsBit s .unit 3 then s
  else setSts .unit 6 true (onServo .unit (fun v => { v with rebaseAt := s.unit.base.tick }) s)

/-- REBASE (R173). -/
def execRebase (s : State) : Host.Outcome State Fault Refusal := .next (ifUnitRuns rebaseOp s)

/-- One millisecond of a rebase (R173). -/
def rebaseStepOp (s : State) : State :=
  let v := servoOf s .unit
  if stsBit s .unit 6 && decide (v.rebaseAt + 1000000 ≤ s.unit.base.tick) then
    let rate : Int := (rdF s.unit.base 0x205C 0 7 : Nat)
    let h := sext 32 (rd s.unit.base (activeHofs s)).toNat
    let h' := h - clampInt rate h
    let s := onServo .unit (fun v => { v with rebaseAt := v.rebaseAt + 1000000 })
      (onUnit (uB (wr (activeHofs s) (wordOfInt h'))) s)
    if h' = 0 then logU uRebaseDone noPort 0 0 0 (stopRebase .unit s) else s
  else s

/-- REBASE_STEP (R173). -/
def execRebaseStep (s : State) : Host.Outcome State Fault Refusal := .next (ifUnitRuns rebaseStepOp s)

/-- A change of SRV.CTL.MODE (R165, R166). -/
def modeWriteOp (man : Bool) (s : State) : State :=
  let was := rdB s.unit.base 0x2040 0
  let s := onUnit (uB (wrB 0x2040 0 man)) s
  if was = man then s
  else
    let s := setSts .unit 5 man s
    if man then applyWord .unit (sext 32 (rd s.unit.base 0x206C).toNat) s
    else onServo .unit (fun v => { v with integ := curWord s .unit, acqWord := curWord s .unit }) s

/-- SRV_MODE_WRITE (R165, R166). -/
def execSrvModeWrite (man : Bool) (s : State) : Host.Outcome State Fault Refusal := .next (ifUnit (modeWriteOp man) s)

/-- HANDOVER (R170, R171, R178). -/
def execHandover (part : Part) (s : State) : Host.Outcome State Fault Refusal :=
  .next (ifPart part (fun s => match part with
    | .unit => unitFsm (doHandover .unit s)
    | .dist => doHandover .dist s) s)

/-- HANDOVER_TIMEOUT (R170). -/
def execHandoverTimeout (part : Part) (s : State) : Host.Outcome State Fault Refusal :=
  .next (ifPart part (fun s => match part with
    | .unit => unitFsm (handoverLate .unit s)
    | .dist => handoverLate .dist s) s)

/-- HOLD_AGE exceeds ARM_AGE: HOLDOVER_AGE once per holdover or ISOLATED period (R176). -/
def holdAgeOp (s : State) : State :=
  if armAged s && !(servoOf s .unit).ageLogged then
    logU uHoldoverAge noPort 0 0 0 (onServo .unit (fun v => { v with ageLogged := true }) s)
  else s

/-- HOLDOVER_AGE_EXPIRY (R176). -/
def execHoldoverAgeExpiry (s : State) : Host.Outcome State Fault Refusal := .next (ifUnitRuns holdAgeOp s)

/-- 1 s in ACQUIRE without LOCK: SERVO_UNLOCK once, with AUX 0x01 (R541). -/
def acquireTimeoutOp (s : State) : State :=
  let u := s.unit
  if tckState u = 4 ∧ ¬ stsBit s .unit 0 ∧ ¬ u.unlockLogged ∧ u.tckAt + 1000000000 ≤ u.base.tick then
    logU uServoUnlock noPort 0 0 1 (onUnit (fun u => { u with unlockLogged := true }) s)
  else s

/-- ACQUIRE_TIMEOUT (R541). -/
def execAcquireTimeout (s : State) : Host.Outcome State Fault Refusal := .next (ifUnitRuns acquireTimeoutOp s)

end Sys2Proof.Machine
end

