-- ==== Sys2Proof/Machine/Semaphore.lean ====
section
/-! DEFINITION. The message port, counting semaphores, watches, the Sump, comparators and the SEM page's commands
(R265 to R314). -/

namespace Sys2Proof.Machine

/-! ## The message port (R268 to R275) -/

/-- CTX.EPOCH (R313). -/
def ctxEpoch (u : UnitState) : Nat := rdF u.base 0x15044 0 16

/-- Entries of the output queue for responses, and its reserve (R273, R274). -/
def outCap (u : UnitState) : Nat := if (cfgOf u.base).w64 then 64 else 1024
def reserveCap : Nat := 64

def outUsed (u : UnitState) : Nat := (u.sems.outQ.filter fun m => !m.reserve).length
def reserveUsed (u : UnitState) : Nat := (u.sems.outQ.filter fun m => m.reserve).length
/-- The reserve has room for `n` more messages (R274). -/
def reserveRoom (u : UnitState) (n : Nat) : Bool := decide (reserveUsed u + n ≤ reserveCap)

/-- Lanes of the message port, input and output (R265). -/
def portLanes (u : UnitState) : Nat := if (cfgOf u.base).w64 then 2 else 16

/-- The input lanes' ready is high: SRAM initialised (R532), no context clear (R303), and room in the queue (R273). -/
def msgReady (u : UnitState) : Bool :=
  decide (u.base.phase = .run) && u.sems.clearing.isNone && u.sems.paused.isEmpty && decide (outUsed u < outCap u)

/-- The bits of a response (R271); `ops` is the operand field [95:0]. -/
def respBits (kind ctxLo dest tag status : Nat) (ops : Nat) : BitVec 128 :=
  BitVec.ofNat 6 kind ++ BitVec.ofNat 4 ctxLo ++ BitVec.ofNat 10 dest ++ BitVec.ofNat 8 tag ++ BitVec.ofNat 4 status ++
  BitVec.ofNat 96 ops

/-- Operand fields of DONE, VALUE, RELEASE and ERROR (R292). -/
def doneOps (obj op value : Nat) : Nat := packBits [(16, obj), (6, op), (42, 0), (32, value)]
def valueOps (obj hi lo data : Nat) : Nat := packBits [(16, obj), (1, hi), (1, lo), (14, 0), (64, data)]
def releaseOps (obj cls take lost data : Nat) : Nat :=
  packBits [(16, obj), (4, cls), (1, take), (1, lost), (10, 0), (64, data)]
def errorOps (obj op cause : Nat) : Nat := packBits [(16, obj), (6, op), (8, cause), (66, 0)]

/-- Status codes of R272. -/
def stOk : Nat := 0
def stTimeout : Nat := 1
def stCancelled : Nat := 2
def stAborted : Nat := 3
def stObjFailed : Nat := 4
def stNoWatch : Nat := 5
def stBadObj : Nat := 6
def stBadOp : Nat := 7
def stRefused : Nat := 8
def stNotFound : Nat := 9
def stRecheck : Nat := 10

def onSems (f : Sems → Sems) (u : UnitState) : UnitState := { u with sems := f u.sems }

/-- Place a response in the output queue, or behind the paused walks when it is full; one for a core beyond the
configuration is counted and dropped (R273, R275). -/
def pushResp (kind dest tag status ops : Nat) (u : UnitState) : UnitState :=
  if (cfgOf u.base).cores ≤ dest then uB (inc 0x0B050) u
  else
    let m : OutMsg := { bits := respBits kind (ctxEpoch u) dest tag status ops, reserve := false }
    if u.sems.paused.isEmpty ∧ outUsed u < outCap u then onSems (fun q => { q with outQ := q.outQ ++ [m] }) u
    else onSems (fun q => { q with paused := q.paused ++ [m] }) u

/-- Place a message that answers no request in the reserve (R274); the caller has tested for room. -/
def pushReserve (kind dest tag status ops : Nat) (u : UnitState) : UnitState :=
  if (cfgOf u.base).cores ≤ dest then uB (inc 0x0B050) u
  else onSems (fun q => { q with outQ := q.outQ ++ [{ bits := respBits kind (ctxEpoch u) dest tag status ops, reserve := true }] }) u

/-- DONE, VALUE, RELEASE and ERROR responses to a request (R271). -/
def respDone (r : Req) (obj op value : Nat) (u : UnitState) : UnitState :=
  pushResp 0x20 r.reply.toNat r.tag.toNat stOk (doneOps obj op value) u
def respAck (r : Req) (obj op value : Nat) (u : UnitState) : UnitState := if r.ack then respDone r obj op value u else u
def respError (r : Req) (status obj op cause : Nat) (u : UnitState) : UnitState :=
  pushResp 0x23 r.reply.toNat r.tag.toNat status (errorOps obj op cause) u

/-- NS[31:0] of the current tick, for the DATA fields of R292. -/
def nsLo (u : UnitState) : Nat := (lo32 (nsNow u.base)).toNat

/-- A request is stale: its CTX_LO is not the low 4 bits of CTX.EPOCH (R270). -/
def reqStale (u : UnitState) (r : Req) : Bool := r.ctxLo.toNat != ctxEpoch u % 16

/-- Discard a stale request: counted, and logged with its core once per context epoch (R270, R314). -/
def dropStale (r : Req) (s : State) : State :=
  let s := onUnit (uB (inc 0x1504C)) s
  if s.unit.sems.staleLogged then s
  else logU uStaleCtx noPort r.reply.toNat 0 0 (onUnit (onSems fun q => { q with staleLogged := true }) s)

/-- Opcodes that the configuration permits (R269). -/
def opPermitted (w64 : Bool) (op : Nat) : Bool :=
  if w64 then [0x05, 0x06, 0x08, 0x0A, 0x0B, 0x0C, 0x0D, 0x0E, 0x10, 0x11, 0x12].contains op
  else [0x01, 0x02, 0x03, 0x04, 0x05, 0x08, 0x0A, 0x0B, 0x0C, 0x0D, 0x0E, 0x10, 0x11, 0x12].contains op

/-- A request on object `obj` reaches the unit: a lane that the port lacks (R265) or that is not ready takes none; a stale one
is dropped (R270); an opcode that the configuration lacks is answered BAD_OP with the object (R269, R292); otherwise `f`
applies it. -/
def request (r : Req) (op obj : Nat) (f : State → State) (s : State) : State :=
  if !msgReady s.unit || decide (portLanes s.unit ≤ r.lane.toNat) then s
  else if reqStale s.unit r then dropStale r s
  else if opPermitted (cfgOf s.unit.base).w64 op then f s
  else onUnit (fun u => respError r stBadOp obj op 0 (uB (inc 0x0B050) u)) s

/-! ## ECC injection (R594) -/

/-- A word of a memory is accessed: an injected error in it is corrected and counted (R305, R594). -/
def injTouch (mem key : Nat) (u : UnitState) : UnitState :=
  if u.dbg.flips.contains (mem, key) then
    let u := { u with dbg := { u.dbg with flips := u.dbg.flips.filter fun x => x != (mem, key) } }
    if mem ≤ 1 then uB (inc 0x0A078) u else u
  else u

/-- A word of a memory is written: an injection armed on it flips one bit and completes (R594). -/
def injWrite (mem key : Nat) (u : UnitState) : UnitState :=
  let u := injTouch mem key u
  match u.dbg.inject with
  | some (m, _) =>
    if m = mem then
      uB (wrB 0x16074 15 true) { u with dbg := { u.dbg with inject := none, flips := (mem, key) :: u.dbg.flips } }
    else u
  | none => u

/-! ## Semaphores and the watch pool (R276 to R289) -/

def semGet (u : UnitState) (n : Nat) : SemWord := tabGet {} n u.sems.vals
def semPut (n : Nat) (w : SemWord) (u : UnitState) : UnitState :=
  injWrite 0 n (onSems (fun q => { q with vals := tabSet {} n w q.vals }) u)
def semRetired (u : UnitState) (n : Nat) : Bool := tabGet false n u.sems.retired

/-- Watch entries of the pool, or comparators in W64L (R285, R298, R306). -/
def watchCap (u : UnitState) : Nat := (if (cfgOf u.base).w64 then 32 else 8192) - u.sems.lostEntries
/-- Armed comparators. -/
def cmpUsed (u : UnitState) : Nat := (u.sems.cmps.filter fun x => x.2.isSome).length
def watchUsed (u : UnitState) : Nat := if (cfgOf u.base).w64 then cmpUsed u else u.sems.waits.length
def watchFull (u : UnitState) : Bool := decide (watchCap u ≤ watchUsed u)

/-- WCH.PEAK, the filling event and the end of a full period, after the pool changed (R285, R575). -/
def watchNote (wasFull : Bool) (u : UnitState) : UnitState :=
  let u := if rdF u.base 0x0B048 0 14 < watchUsed u then uB (wrF 0x0B048 0 14 (watchUsed u)) u else u
  if watchFull u then (if wasFull then u else uB (pgEvt 0x0B 0) u)
  else onSems (fun q => { q with fullLogged := false }) u

/-- Log WCH_FULL at the first wait refused in a full period (R285, R298). -/
def watchRefused (obj : Nat) (s : State) : State :=
  if s.unit.sems.fullLogged then s
  else logU uWchFull noPort obj 0 0 (onUnit (onSems fun q => { q with fullLogged := true }) s)

/-- Remove waits from the pool. -/
def dropWaits (keep : Wait → Bool) (u : UnitState) : UnitState :=
  watchNote (watchFull u) (onSems (fun q => { q with waits := q.waits.filter keep }) u)

/-- RELEASE of a semaphore wait (R292): DATA holds NS[31:0] and the value. -/
def releaseWait (w : Wait) (status value : Nat) (u : UnitState) : UnitState :=
  pushResp 0x22 w.core w.tag status (releaseOps w.sem 0 (if w.take then 1 else 0) 0 (nsLo u * 2 ^ 32 + value)) u

/-- The take waits that a value releases from the head of the queue, with the value after each (R281, R282). -/
def walkTakes : Nat → List Wait → List (Wait × Nat) × Nat
  | v, [] => ([], v)
  | v, w :: t =>
    if w.n ≤ v then
      let r := walkTakes (v - w.n) t
      ((w, v - w.n) :: r.1, r.2)
    else ([], v)

def takesOf (u : UnitState) (n : Nat) : List Wait := u.sems.waits.filter fun w => w.sem == n && w.take
def peeksOf (u : UnitState) (n : Nat) : List Wait := u.sems.waits.filter fun w => w.sem == n && !w.take

/-- The waits without the first `k` take waits on semaphore `n`. -/
def cutTakes (n : Nat) : Nat → List Wait → List Wait
  | 0, l => l
  | _, [] => []
  | k + 1, w :: t => if w.sem == n && w.take then cutTakes n k t else w :: cutTakes n (k + 1) t

/-- The watch entries of semaphore `n` are read (R305). -/
def touchWaits (n : Nat) (u : UnitState) : UnitState :=
  if u.sems.waits.any (fun w => w.sem == n) then injTouch 1 n u else u

/-- Test the take queue of semaphore `n` from its head (R282, R286, R287). -/
def walkTake (n : Nat) (u : UnitState) : UnitState :=
  let u := touchWaits n u
  let w := semGet u n
  let r := walkTakes w.v.toNat (takesOf u n)
  if r.1.isEmpty then u
  else
    let u := semPut n { w with v := BitVec.ofNat 32 r.2 } u
    let u := watchNote (watchFull u) (onSems (fun q => { q with waits := cutTakes n r.1.length q.waits }) u)
    r.1.foldl (fun u x => releaseWait x.1 stOk x.2 u) u

/-- Walk the waiters of semaphore `n` after an ADD (R282, R283): peek waits see the value before any take; the RELEASE
responses leave takes first. -/
def walk (n : Nat) (u : UnitState) : UnitState :=
  let u := touchWaits n u
  let v := (semGet u n).v.toNat
  let peeks := (peeksOf u n).filter fun w => w.n ≤ v
  let u := dropWaits (fun w => !peeks.contains w) u
  let u := walkTake n u
  peeks.foldl (fun u w => releaseWait w stOk v u) u

/-- Enter a clamp in the Sump (R289, R290). -/
def sumpAdd (n src : Nat) (remote lo : Bool) (excess : Nat) (s : State) : State :=
  let u := s.unit
  let r : BitVec 128 := ht48 u.base ++ BitVec.ofNat 16 n ++ BitVec.ofNat 16 src ++ BitVec.ofBool remote ++ BitVec.ofBool lo ++
    (1 : BitVec 1) ++ (0 : BitVec 13) ++ BitVec.ofNat 32 excess
  if 32 ≤ u.sems.sump.length then onUnit (uB (inc 0x0A074)) s
  else
    let empty := u.sems.sump.isEmpty
    let s := onUnit (onSems fun q => { q with sump := q.sump ++ [r] }) s
    if empty then logU uSemSat noPort n 0 0 (onUnit (uB fun b => occur 72 (pgEvt 0x0A 0 b)) s) else s

/-- The new last signaller, where an operation changed the value (R308). -/
def signed (u : UnitState) (w : SemWord) (v : Nat) (src : Nat) (remote mgmt : Bool) : Option LastSig :=
  if w.v.toNat = v then w.last else some { remote := remote, mgmt := mgmt, src := BitVec.ofNat 16 src, ht := ht48 u.base }

/-- ADD of `a` to semaphore `n` without the walk (R277). -/
def semAddVal (n a src : Nat) (remote mgmt : Bool) (s : State) : State :=
  let u := injTouch 0 n s.unit
  let w := semGet u n
  let sum := w.v.toNat + a
  let v := min sum 0xFFFFFFFF
  let w' := { w with v := BitVec.ofNat 32 v, satHi := w.satHi || decide (0xFFFFFFFF < sum), last := signed u w v src remote mgmt }
  let s := { s with unit := semPut n w' u }
  if 0xFFFFFFFF < sum then sumpAdd n src remote false (sum - v) s else s

/-- SUB of `a` from semaphore `n` (R277). -/
def semSubVal (n a src : Nat) (remote mgmt : Bool) (s : State) : State :=
  let u := injTouch 0 n s.unit
  let w := semGet u n
  let v := w.v.toNat - a
  let w' := { w with v := BitVec.ofNat 32 v, satLo := w.satLo || decide (w.v.toNat < a), last := signed u w v src remote mgmt }
  let s := { s with unit := semPut n w' u }
  if w.v.toNat < a then sumpAdd n src remote true (a - w.v.toNat) s else s

/-- ADD with its walk, as a remote signal, a commit signal or a command applies it (R277, R279, R381). -/
def semSignal (n a src : Nat) (remote mgmt : Bool) (s : State) : State := onUnit (walk n) (semAddVal n a src remote mgmt s)

/-- A request to a retired semaphore is answered OBJ_FAILED (R305). -/
def onLiveSem (r : Req) (op n : Nat) (f : State → State) (s : State) : State :=
  if semRetired s.unit n then onUnit (respError r stObjFailed n op 0) s else f s

/-- The timeout of a wait (R286): none for no timeout. -/
def waitTout (u : UnitState) (tout : Nat) : Option Nat :=
  let t := if tout = 0 then (rd u.base 0x0B040).toNat else tout
  if t = 0xFFFFFFFF ∨ t = 0 then none else some t

/-- SEM_WAIT (R280, R285). -/
def semWaitOp (r : Req) (take : Bool) (n tout cond : Nat) (s : State) : State :=
  let u := injTouch 0 n s.unit
  let w := semGet u n
  let x : Wait := { sem := n, take := take, n := cond, core := r.reply.toNat, tag := r.tag.toNat, tout := waitTout u tout,
                    since := u.base.tick }
  if !take && decide (cond ≤ w.v.toNat) then { s with unit := releaseWait x stOk w.v.toNat u }
  else if take && decide (cond ≤ w.v.toNat) && (takesOf u n).isEmpty then
    { s with unit := releaseWait x stOk (w.v.toNat - cond) (semPut n { w with v := w.v - BitVec.ofNat 32 cond } u) }
  else if watchFull u then watchRefused n { s with unit := respError r stNoWatch n 0x04 0 u }
  else { s with unit := injWrite 1 n (watchNote false (onSems (fun q => { q with waits := q.waits ++ [x] }) u)) }

/-! ## Comparators (R298 to R302) -/

def cmpGet (u : UnitState) (c : Nat) : Option Cmp := tabGet none c u.sems.cmps
def cmpPut (c : Nat) (x : Option Cmp) (u : UnitState) : UnitState :=
  watchNote (watchFull u) (onSems (fun q => { q with cmps := tabSet none c x q.cmps }) u)

/-- RELEASE of a comparator (R292). -/
def releaseCmp (c : Nat) (x : Cmp) (status data : Nat) (u : UnitState) : UnitState :=
  pushResp 0x22 x.core x.tag status (releaseOps c 1 0 0 data) (cmpPut c none u)

/-- MEM_WAIT (R298, R301). -/
def memWaitOp (r : Req) (addr n : Nat) (s : State) : State :=
  let u := s.unit
  match (List.range 32).find? fun c => (cmpGet u c).isNone with
  | some c =>
    let x : Cmp := { core := r.reply.toNat, tag := r.tag.toNat, addr := addr, n := n, tout := waitTout u 0, since := u.base.tick }
    onUnit (fun u => respDone r c 0x06 0 (cmpPut c (some x) u)) s
  | none => watchRefused 0 (onUnit (respError r stNoWatch 0 0x06 0) s)

/-- A write seen on the snoop channel (R299, R302). -/
def snoopOp (addr : Nat) (be : BitVec 8) (data : BitVec 64) (u : UnitState) : UnitState :=
  (List.range 32).foldl (fun u c =>
    match cmpGet u c with
    | some x =>
      if x.addr = addr then
        if be = 0xFF then (if x.n ≤ data.toNat then releaseCmp c x stOk data.toNat u else u)
        else if be = 0 then u
        else releaseCmp c x stRecheck 0 u
      else u
    | none => u) u

/-! ## Timeouts and cancels (R286 to R288, R301) -/

/-- A timeout has run. -/
def toutDue (u : UnitState) (tout : Option Nat) (since : Nat) : Bool := match tout with
  | some t => decide (since + t ≤ u.base.tick)
  | none => false

/-- Log a wait that timed out (R286, R651). -/
def logTimeout (obj cls core : Nat) (s : State) : State :=
  logU uWatchTimeout noPort obj core cls (onUnit (uB fun b => pgEvt 0x0B 1 (inc 0x0B04C b)) s)

/-- Whether a queued wait is the one an event or a cancel names. -/
def waitIs (n core tag : Nat) (w : Wait) : Bool := w.sem == n && w.core == core && w.tag == tag

/-- Remove the first wait that passes a test, with the list without it. -/
def takeFirst (p : Wait → Bool) : List Wait → Option (Wait × List Wait)
  | [] => none
  | w :: t => if p w then some (w, t) else match takeFirst p t with
    | some (x, r) => some (x, w :: r)
    | none => none

/-- A queued wait leaves without being released by a signal: it completes, and the new take head is tested (R286,
R287). -/
def endWait (w : Wait) (rest : List Wait) (status : Nat) (u : UnitState) : UnitState :=
  let v := (semGet u w.sem).v.toNat
  let u := touchWaits w.sem u
  let u := watchNote (watchFull u) (onSems (fun q => { q with waits := rest }) u)
  let u := releaseWait w status v u
  if w.take then walkTake w.sem u else u

/-- WATCH_TIMEOUT (R286, R301). -/
def watchTimeoutOp (cls obj core tag : Nat) (s : State) : State :=
  if cls = 0 then
    match takeFirst (fun w => waitIs obj core tag w && toutDue s.unit w.tout w.since) s.unit.sems.waits with
    | some (w, rest) => logTimeout obj 0 core (onUnit (endWait w rest stTimeout) s)
    | none => s
  else if cls = 1 then
    match cmpGet s.unit obj with
    | some x => if toutDue s.unit x.tout x.since then logTimeout obj 1 x.core (onUnit (releaseCmp obj x stTimeout 0) s) else s
    | none => s
  else s

/-- WCH_CANCEL (R287): the oldest queued wait of the object, core and tag; a retired semaphore has none (R305). -/
def cancelOp (r : Req) (obj cls core tag : Nat) (s : State) : State :=
  let miss := onUnit (respError r stNotFound obj 0x05 0) s
  if cls = 0 ∧ semRetired s.unit obj = true then onUnit (respError r stObjFailed obj 0x05 0) s
  else if cls = 0 then
    match takeFirst (waitIs obj core tag) s.unit.sems.waits with
    | some (w, rest) => onUnit (fun u => respAck r obj 0x05 0 (endWait w rest stCancelled u)) s
    | none => miss
  else if cls = 1 then
    match cmpGet s.unit obj with
    | some x =>
      if x.core = core ∧ x.tag = tag then onUnit (fun u => respAck r obj 0x05 0 (releaseCmp obj x stCancelled 0 u)) s
      else miss
    | none => miss
  else miss

/-! ## Output (R273) -/

/-- Move responses of paused walks into the queue while it has room (R273). -/
def resume : Nat → UnitState → UnitState
  | 0, u => u
  | k + 1, u =>
    match u.sems.paused with
    | m :: t =>
      if outUsed u < outCap u then resume k (onSems (fun q => { q with paused := t, outQ := q.outQ ++ [m] }) u) else u
    | [] => u

/-- A lane has carried a message on this tick (R265). -/
def laneBusy (u : UnitState) (l : Nat) : Bool := u.base.outs.any fun o => match o with
  | .msg k _ _ => k == l
  | _ => false

/-- RESPONSE_EMIT: the oldest response leaves on the lowest-numbered lane that is ready (R273) and has carried none on this
tick (R265), with its DEST on the sideband (R271, R626). -/
def emitOp (ready : BitVec 16) (u : UnitState) : UnitState :=
  match u.sems.outQ, (List.range (portLanes u)).find? fun l => ready.getLsbD l && !laneBusy u l with
  | m :: t, some l =>
    let u := uB (emit (.msg l (m.bits.extractLsb' 108 10) m.bits)) (onSems (fun q => { q with outQ := t }) u)
    resume u.sems.paused.length u
  | _, _ => u

/-! ## SEM page commands (R308, R311) -/

/-- The selected semaphore. -/
def semSel (u : UnitState) : Nat := rdF u.base 0x0A040 0 16

/-- A SEM page command in W1024 on a semaphore that is in service; elsewhere it has no effect (R305, R311). -/
def semCmd (f : Nat → State → State) (s : State) : State :=
  let n := semSel s.unit
  if (cfgOf s.unit.base).w64 || decide (s.unit.base.phase ≠ .run) then s
  else if semRetired s.unit n then onUnit (uB (wrB 0x0A050 2 true)) s
  else
    let s := f n s
    onUnit (fun u => uB (wr 0x0A04C (semGet u n).v) u) s

/-- A waiter of the debugger view (R310). -/
def waiterWord (w : Wait) : Word :=
  BitVec.ofNat 32 (packBits [(1, 1), (1, if w.take then 1 else 0), (4, 0), (10, w.core), (8, w.tag), (8, 0)])

/-- LOAD_VIEW (R308, R310). -/
def loadView (u : UnitState) : UnitState :=
  let n := semSel u
  let w := semGet u n
  let ws := takesOf u n ++ peeksOf u n
  let word := fun i => match ws[i]? with
    | some x => waiterWord x
    | none => 0
  let sts := packBits [(1, 0), (14, (peeksOf u n).length), (14, (takesOf u n).length),
    (1, if semRetired u n then 1 else 0), (1, if w.satLo then 1 else 0), (1, if w.satHi then 1 else 0)]
  let last := match w.last with
    | some l => (packBits [(1, 1), (1, if l.remote then 1 else 0), (1, if l.mgmt then 1 else 0), (13, 0), (16, l.src.toNat)],
                 l.ht.setWidth 64)
    | none => (0, 0)
  uB (fun b => wr64 0x0A068 last.2 (wr 0x0A064 (BitVec.ofNat 32 last.1) (wr 0x0A060 (word 3) (wr 0x0A05C (word 2)
    (wr 0x0A058 (word 1) (wr 0x0A054 (word 0) (wr 0x0A050 (BitVec.ofNat 32 sts) (wr 0x0A04C w.v b)))))))) u

/-- SEM.CMD.ADD and SUB act as R277 with SRC 0xFFFF; SET replaces the value and walks; CLR_FLAGS clears the flags (R311). -/
def semAddCmd (s : State) : State := semCmd (fun n s => semSignal n (rd s.unit.base 0x0A044).toNat 0xFFFF false true s) s
def semSubCmd (s : State) : State := semCmd (fun n s => semSubVal n (rd s.unit.base 0x0A044).toNat 0xFFFF false true s) s
def semSetCmd (s : State) : State :=
  semCmd (fun n => onUnit fun u => walk n (semPut n { semGet u n with v := rd u.base 0x0A044 } (injTouch 0 n u))) s
def semClrCmd (s : State) : State :=
  semCmd (fun n => onUnit fun u => semPut n { semGet u n with satHi := false, satLo := false } (injTouch 0 n u)) s
/-- SEM.CMD.LOAD_VIEW. -/
def semViewCmd (s : State) : State :=
  if (cfgOf s.unit.base).w64 then s else onUnit (fun u => loadView (touchWaits (semSel u) (injTouch 0 (semSel u) u))) s

/-! ## Read latches (R559) -/

/-- Latch a register's value for a channel, to be returned by a later read (R559). -/
def latch (ch : Nat) (a : Nat) (v : Word) (b : Base) : Base := { b with latch := tabSet 0 (ch * 2 ^ 24 + a) v b.latch }

/-- Latch bits [127:32] of a record into the three registers that follow address `a`. -/
def latchRec (ch a : Nat) (r : BitVec 128) (b : Base) : Base :=
  latch ch (a + 12) (r.extractLsb' 96 32) (latch ch (a + 8) (r.extractLsb' 64 32) (latch ch (a + 4) (r.extractLsb' 32 32) b))

/-- A read of SEM.SUMP_0 (R289). -/
def sumpReadOp (ch : Nat) (u : UnitState) : Word × UnitState :=
  match u.sems.sump with
  | r :: t => (r.extractLsb' 0 32, uB (latchRec ch 0x0A080 r) (onSems (fun q => { q with sump := t }) u))
  | [] => (0, uB (latchRec ch 0x0A080 0) u)

/-! ## The meanings -/

/-- SEM_ADD (R277, R282). -/
def execSemAdd (r : Req) (sem : BitVec 16) (amount : BitVec 32) (s : State) : Host.Outcome State Fault Refusal :=
  .next (request r 0x01 sem.toNat (onLiveSem r 0x01 sem.toNat fun s =>
    let s := semAddVal sem.toNat amount.toNat r.reply.toNat false false s
    let s := onUnit (fun u => respAck r sem.toNat 0x01 (semGet u sem.toNat).v.toNat u) s
    onUnit (walk sem.toNat) s) s)

/-- SEM_SUB (R277). -/
def execSemSub (r : Req) (sem : BitVec 16) (amount : BitVec 32) (s : State) : Host.Outcome State Fault Refusal :=
  .next (request r 0x02 sem.toNat (onLiveSem r 0x02 sem.toNat fun s =>
    let s := semSubVal sem.toNat amount.toNat r.reply.toNat false false s
    onUnit (fun u => respAck r sem.toNat 0x02 (semGet u sem.toNat).v.toNat u) s) s)

/-- SEM_READ (R278). -/
def execSemRead (r : Req) (sem : BitVec 16) (s : State) : Host.Outcome State Fault Refusal :=
  .next (request r 0x03 sem.toNat (onLiveSem r 0x03 sem.toNat (onUnit fun u =>
    let u := injTouch 0 sem.toNat u
    let w := semGet u sem.toNat
    pushResp 0x21 r.reply.toNat r.tag.toNat stOk
      (valueOps sem.toNat (if w.satHi then 1 else 0) (if w.satLo then 1 else 0) (nsLo u * 2 ^ 32 + w.v.toNat)) u)) s)

/-- SEM_WAIT (R280 to R286). -/
def execSemWait (r : Req) (take : Bool) (sem : BitVec 16) (tout n : BitVec 32) (s : State) :
    Host.Outcome State Fault Refusal :=
  .next (request r 0x04 sem.toNat (onLiveSem r 0x04 sem.toNat (semWaitOp r take sem.toNat tout.toNat n.toNat)) s)

/-- WCH_CANCEL (R287). -/
def execWchCancel (r : Req) (obj : BitVec 16) (cls : BitVec 4) (wcore : BitVec 10) (wtag : BitVec 8) (s : State) :
    Host.Outcome State Fault Refusal :=
  .next (request r 0x05 obj.toNat (cancelOp r obj.toNat cls.toNat wcore.toNat wtag.toNat) s)

/-- MEM_WAIT (R298, R301). -/
def execMemWait (r : Req) (addr : BitVec 45) (n : BitVec 48) (s : State) : Host.Outcome State Fault Refusal :=
  .next (request r 0x06 0 (memWaitOp r addr.toNat n.toNat) s)

/-- SNOOP_WRITE (R299, R302); before SRAM initialisation snooped writes are discarded (R532). -/
def execSnoopWrite (addr : BitVec 45) (be : BitVec 8) (data : BitVec 64) (s : State) : Host.Outcome State Fault Refusal :=
  .next (ifUnitRuns (onUnit (snoopOp addr.toNat be data)) s)

/-- WATCH_TIMEOUT (R286, R301). -/
def execWatchTimeout (cls : BitVec 4) (obj : BitVec 16) (core : BitVec 10) (tag : BitVec 8) (s : State) :
    Host.Outcome State Fault Refusal :=
  .next (ifUnitRuns (watchTimeoutOp cls.toNat obj.toNat core.toNat tag.toNat) s)

/-- MSG_BAD_OP (R269): the answer to an opcode that is reserved or not permitted. -/
def execMsgBadOp (r : Req) (op : BitVec 6) (s : State) : Host.Outcome State Fault Refusal :=
  .next (request r op.toNat 0 id s)

/-- RESPONSE_EMIT (R273). -/
def execResponseEmit (ready : BitVec 16) (s : State) : Host.Outcome State Fault Refusal :=
  .next (ifUnitRuns (onUnit (emitOp ready)) s)

/-- ECC_CORR of the page that owns an object (R305, R336): none for a semaphore or a watch entry that W64L lacks, and for a
wait that is not queued. -/
def eccCorr (u : UnitState) : EccTarget → Option Nat
  | .sem _ => if (cfgOf u.base).w64 then none else some 0x0A078
  | .watch n c t => if (cfgOf u.base).w64 || !u.sems.waits.any (waitIs n.toNat c.toNat t.toNat) then none else some 0x0A078
  | .watchFree => if (cfgOf u.base).w64 then none else some 0x0A078
  | .barrier _ => some 0x0C068
  | .flow _ => some 0x0D074
  | .fence _ => some 0x0E070

/-- The injected errors that reading an object's word meets (R594). -/
def eccTouch (t : EccTarget) (u : UnitState) : UnitState := match t with
  | .sem n => injTouch 0 n.toNat u
  | .watch n _ _ => injTouch 1 n.toNat u
  | _ => u

/-- A protected word of the unit is read, and a correctable error in it is corrected and counted (R305, R307, R336). -/
def scrubObject (object : EccTarget) (correctable : Bool) (u : UnitState) : UnitState := match eccCorr u object with
  | some a => if correctable then uB (inc a) (eccTouch object u) else eccTouch object u
  | none => u

/-- A protected word of the distributor is read; FLT.MEM_CORR counts a correctable error in it (R470, R494). -/
def scrubDist (correctable : Bool) (d : DistState) : DistState := if correctable then dB (inc 0x1006C) d else d

/-- SCRUB (R305, R307, R336, R470). The scrubber walks the semaphores; the words of other objects are read by the operations on
them (assumption 133). -/
def execScrub (target : ScrubTarget) (correctable : Bool) (s : State) : Host.Outcome State Fault Refusal := match target with
  | .unit o => .next (ifUnitRuns (onUnit (scrubObject o correctable)) s)
  | .dist => .next (ifDistRuns (onDist (scrubDist correctable)) s)

/-- SUMP_READ (R289); before SRAM initialisation the SEM page answers NOT_READY (R532). -/
def execSumpRead (ch : BitVec 3) (s : State) : Host.Outcome State Fault Refusal :=
  .next (ifUnitRuns (fun s =>
    let r := sumpReadOp ch.toNat s.unit
    answer .unit ch r.1 { s with unit := r.2 }) s)

/-- SEM_CMD_ADD (R311). -/
def execSemCmdAdd (s : State) : Host.Outcome State Fault Refusal := .next (semAddCmd s)

/-- SEM_CMD_SUB (R311). -/
def execSemCmdSub (s : State) : Host.Outcome State Fault Refusal := .next (semSubCmd s)

/-- SEM_CMD_SET (R311). -/
def execSemCmdSet (s : State) : Host.Outcome State Fault Refusal := .next (semSetCmd s)

/-- SEM_CMD_CLR_FLAGS (R311). -/
def execSemCmdClrFlags (s : State) : Host.Outcome State Fault Refusal := .next (semClrCmd s)

/-- SEM_CMD_LOAD_VIEW (R308). -/
def execSemCmdLoadView (s : State) : Host.Outcome State Fault Refusal := .next (ifUnitRuns semViewCmd s)

end Sys2Proof.Machine
end

