-- ==== Sys2Proof/Machine/Die.lean ====
section
/-! DEFINITION. Time inside the die: region taps, capture channels and Drip outputs (R193 to R231, R501, R502). -/

namespace Sys2Proof.Machine

/-! ## Taps -/

/-- Regions of the configuration. -/
def regions (u : UnitState) : Nat := (cfgOf u.base).regions

def tapGet (u : UnitState) (n : Nat) : Tap := tabGet {} n u.taps
def tapPut (n : Nat) (t : Tap) (u : UnitState) : UnitState := { u with taps := tabSet {} n t u.taps }

/-- TAP_CTL_n and its fields (R228). -/
def tapCtlAddr (n : Nat) : Nat := 0x05100 + 4 * n
def tapEn (u : UnitState) (n : Nat) : Bool := decide (n < regions u) && rdB u.base (tapCtlAddr n) 0
def tapTrim (u : UnitState) (n : Nat) : Int := sext 8 (rdF u.base (tapCtlAddr n) 8 8)

/-- A tap is valid (R202). -/
def tapValid (u : UnitState) (n : Nat) : Bool := (tapGet u n).locked && u.base.valid

/-- The tap's counter on the current tick. -/
def tapCount (u : UnitState) (n : Nat) : BitVec 64 := (tapGet u n).cnt + BitVec.ofNat 64 (u.base.tick - (tapGet u n).cntAt)

/-- A locked tap becomes invalid with a cause (R202); RGN.TAP_FAULTS counts all but DISABLED and RELOAD (R588). DESIGN CHOICE
(assumption 129): of the reasons that arise on a tap already invalid only DISABLED replaces CAUSE; RELOAD, LOST and RANGE
leave it, since each names the invalidation of a valid tap. So a tap invalid with MISMATCH that is disabled and enabled again
shows DISABLED, and by R203 locks without RESYNC. -/
def tapFail (n : Nat) (cause : BitVec 3) (u : UnitState) : UnitState :=
  let t := tapGet u n
  let t' := { t with locked := false, seen := none, badNs := 0, badCrc := 0, resync := false,
                     cause := if t.everLocked then cause else t.cause }
  let u' := tapPut n t' u
  if t.locked then
    let u' := uB (pgEvt 0x05 0) u'
    if cause.toNat ≤ 3 then uB (inc 0x05050) u' else u'
  else u'

/-- CRC-8 of R195 over the 64 NS bits, most significant first, from 0xFF. -/
def crc8 (ns : BitVec 64) : BitVec 8 :=
  (List.range 64).foldl (fun (c : BitVec 8) i =>
    let c' := c <<< 1
    if c.getLsbD 7 != ns.getLsbD (63 - i) then c' ^^^ 0x07 else c') 0xFF

/-- The 128 bits of a sync frame, the first bit highest (R195). -/
def syncFrame (ns : BitVec 64) : BitVec 128 := (0xB1 : BitVec 8) ++ ns ++ crc8 ns ++ (0 : BitVec 48)

/-- Start a sync frame on each enabled region's RTSYNC line, k_n ticks ahead of the counter (R195, R198). -/
def syncSendOp (u : UnitState) : UnitState :=
  if u.base.valid then
    (List.range (regions u)).foldl (fun u n =>
      let ns := u.base.ns + BitVec.ofNat 64 (tapGet u n).lead
      if tapEn u n && ns.toNat % 128 == 0 then uB (emit (.pin (.rtsync n) (syncFrame ns).toNat)) u else u) u
  else u

/-- A tap waiting for lock may lock: it is enabled, its W_n is in range, and a MISMATCH has been resynchronised
(R201 to R203; assumption 129). -/
def tapMayLock (u : UnitState) (n : Nat) : Bool :=
  let t := tapGet u n
  tapEn u n && !t.outRange && (t.cause != 1 || t.resync)

/-- A tap locks: it loads NS plus 80, clears ERRS, and logs TAP_RESYNC after a MISMATCH (R196, R203, R228). -/
def tapLock (n : Nat) (ns : BitVec 64) (s : State) : State :=
  let t := tapGet s.unit n
  let s := onUnit (fun u => tapPut n { t with locked := true, cnt := ns + 80, cntAt := u.base.tick, seen := none, errs := 0,
                                              badNs := 0, badCrc := 0, everLocked := true, resync := false }
                              (if u.base.valid then uB (pgEvt 0x05 1) u else u)) s
  if t.cause = 1 ∧ t.resync then logU uTapResync noPort n 0 0 s else s

/-- The end of a sync frame at a tap (R196, R197). -/
def tapSyncOp (n : Nat) (ns : BitVec 64) (crc : BitVec 8) (s : State) : State :=
  let u := s.unit
  let t := tapGet u n
  let good := crc == crc8 ns
  if !tapEn u n then s
  else if t.locked then
    let agree := tapCount u n == ns + 80
    if good && agree then onUnit (tapPut n { t with badNs := 0, badCrc := 0 }) s
    else
      let bc := if good then 0 else t.badCrc + 1
      let bn := if good then t.badNs + 1 else 0
      if 2 ≤ bc ∨ 2 ≤ bn then logU uTapFault noPort n 0 0 (onUnit (tapFail n 1) s)
      else onUnit (tapPut n { t with badNs := bn, badCrc := bc, errs := satInc 127 t.errs }) s
  else if !tapMayLock u n then s
  else if !good then onUnit (tapPut n { t with seen := none }) s
  else
    match t.seen with
    | some (ns0, at0) =>
      if at0 + 128 = u.base.tick ∧ ns0 + 128 = ns then tapLock n ns s
      else onUnit (tapPut n { t with seen := some (ns, u.base.tick) }) s
    | none => onUnit (tapPut n { t with seen := some (ns, u.base.tick) }) s

/-- A 1,024-tick average of L_n (R198, R199, R201). W_n = L_n / 2 + TRIM is compared in half units of 2^-6 ns. The applied
value moves by one step, and k and the delay line change together. -/
def tapDelayOp (n loop : Nat) (s : State) : State :=
  let u := s.unit
  let t := tapGet u n
  let w2 : Int := (loop : Int) + 2 * tapTrim u n
  if !tapEn u n then s
  else if 1024 < w2 then
    let s := onUnit (fun u => if (tapGet u n).locked then tapFail n 3 u else u) s
    let s := onUnit (fun u => tapPut n { tapGet u n with outRange := true } u) s
    if t.outRange then s else logU uTapRange noPort n 0 0 s
  else
    let a : Int := 2 * (t.applied : Int)
    let applied := if a + 2 ≤ w2 then t.applied + 1 else if w2 ≤ a - 2 then t.applied - 1 else t.applied
    let t' := { t with applied := applied, outRange := false }
    onUnit (fun u => tapPut n t' (if applied = t.applied then u else uB (emit (.tapLine n t'.lead t'.line)) u)) s

/-- No RTRET edge for 16 ticks, or the tap lost power (R202). -/
def tapLostOp (n : Nat) (s : State) : State :=
  if (tapGet s.unit n).locked then logU uTapLost noPort n 0 0 (onUnit (tapFail n 2) s) else s

/-- RGN.TAP_CTL_n.RESYNC (R203): a tap invalid with MISMATCH may lock again. -/
def tapResyncOp (n : Nat) (u : UnitState) : UnitState :=
  let t := tapGet u n
  if !t.locked && t.cause == 1 then tapPut n { t with resync := true, seen := none } u else u

/-- A write of RGN.TAP_CTL_n.EN (R202). -/
def tapEnOp (n : Nat) (en : Bool) (u : UnitState) : UnitState :=
  if n < regions u then
    let was := tapEn u n
    let u := uB (wrB (tapCtlAddr n) 0 en) u
    if was && !en then tapFail n 4 u else u
  else u

/-- Every locked tap becomes invalid with RELOAD (R29, R202). -/
def tapsReload (u : UnitState) : UnitState :=
  (List.range (regions u)).foldl (fun u n => if (tapGet u n).locked then tapFail n 5 u else u) u

/-- Addresses of STOP_AT_n and RESUME_AT_n (R228). -/
def stopAtAddr (n : Nat) : Nat := 0x05400 + 8 * n
def resumeAtAddr (n : Nat) : Nat := 0x05600 + 8 * n
def stopAt (u : UnitState) (n : Nat) : Nat := (rd64 u.base (stopAtAddr n)).toNat
def resumeAt (u : UnitState) (n : Nat) : Nat := (rd64 u.base (resumeAtAddr n)).toNat

/-- A change of RSTOP_n reverses the recorded one within one 2-tick synchroniser interval (R208). -/
def reversed (u : UnitState) (n : Nat) : Option RegionChg := match (tapGet u n).chg with
  | some c => if u.base.tick < c.at_ + 2 then some c else none
  | none => none

/-- Neither of two changes within one synchroniser interval is recorded (R208): what the first had replaced is back. -/
def regionBack (n : Nat) (stopped : Bool) (c : RegionChg) (u : UnitState) : UnitState :=
  uB (fun b => wr64 (stopAtAddr n) c.stopAt (wr64 (resumeAtAddr n) c.resumeAt b))
    (tapPut n { tapGet u n with stopped := stopped, chg := none, stopFires := c.fires } u)

/-- A sampled change of RSTOP_n: the stop tick is the sampled tick minus 2, the resume tick the sampled tick (R207). Ticks
that fired from the stop tick on count as stopped (R650). -/
def regionStopOp (n : Nat) (stopped : Bool) (u : UnitState) : UnitState :=
  let t := tapGet u n
  if n < regions u ∧ t.stopped ≠ stopped then
    match reversed u n with
    | some c => regionBack n stopped c u
    | none =>
    let now := nsNow u.base
    let c : RegionChg := { at_ := u.base.tick, stopAt := BitVec.ofNat 64 (stopAt u n), resumeAt := BitVec.ofNat 64 (resumeAt u n), fires := t.stopFires }
    let k := if stopped then (t.firedAt.filter fun x => decide (u.base.tick ≤ x + 2)).length else 0
    let u := tapPut n { t with stopped := stopped, stopFires := k, chg := some c } u
    if stopped then uB (fun b => pgEvt 0x05 2 (wr64 (stopAtAddr n) (BitVec.ofNat 64 (now.toNat - 2)) b)) u
    else uB (fun b => pgEvt 0x05 3 (wr64 (resumeAtAddr n) now b)) u
  else u

/-- A toggle of TRD_REQ at a read port (R209). -/
def tapReadOp (n port : Nat) (u : UnitState) : UnitState :=
  if n < regions u ∧ port < (cfgOf u.base).tapPorts then
    let k := n * 16 + port
    let old := tabGet {} k u.tapPorts
    let ns := tapCount u n
    let v := tapValid u n
    let h := rdB u.base 0x02070 3
    let u := { u with tapPorts := tabSet {} k { ack := !old.ack, ns := ns, valid := v, hold := h } u.tapPorts }
    uB (emit (.tapRead n port ns ((if v then 1 else 0) + (if h then 2 else 0)))) u
  else u

/-! ## Capture (R212 to R220) -/

/-- Resources of the configuration (R211's table). -/
def capChans (u : UnitState) : Nat := if (cfgOf u.base).w64 then 4 else 16
def capPads (u : UnitState) : Nat := if (cfgOf u.base).w64 then 4 else 8
def capCap (u : UnitState) : Nat := if (cfgOf u.base).w64 then 64 else 512
def dripChans (u : UnitState) : Nat := if (cfgOf u.base).w64 then 2 else 8

def capCtlAddr (k : Nat) : Nat := 0x06100 + 0x20 * k
def capChan (u : UnitState) (k : Nat) : CapChan := tabGet {} k u.cap.chans
def capChanPut (k : Nat) (c : CapChan) (u : UnitState) : UnitState :=
  { u with cap := { u.cap with chans := tabSet {} k c u.cap.chans } }

/-- A source of a kind exists (R212). -/
def capSrcExists (u : UnitState) (kind idx : Nat) : Bool :=
  (kind == 0 && decide (idx < capPads u)) || (kind == 1 && decide (idx < regions u)) ||
  (kind == 2 && decide (idx < dripChans u))

/-- A channel is enabled: EN, a source that exists, and an edge selection (R212, R213, R229). -/
def capEnabled (u : UnitState) (k : Nat) : Bool :=
  let c := rd u.base (capCtlAddr k)
  decide (k < capChans u) && bitOf c 31 && capSrcExists u (fld c 24 2) (fld c 0 6) && fld c 29 2 != 3

/-- A channel takes an edge (R212, R213). -/
def capTakes (u : UnitState) (k kind idx : Nat) (fall : Bool) : Bool :=
  let c := rd u.base (capCtlAddr k)
  let e := fld c 29 2
  capEnabled u k && fld c 24 2 == kind && fld c 0 6 == idx && (e == 2 || e == (if fall then 1 else 0))

/-- An edge is outside an enabled window (R215). -/
def capOutside (u : UnitState) (k : Nat) : Bool :=
  let a := capCtlAddr k
  bitOf (rd u.base a) 28 &&
  !(decide ((rd64 u.base (a + 0x08)).toNat ≤ u.base.ns.toNat) && decide (u.base.ns.toNat < (rd64 u.base (a + 0x10)).toNat))

/-- Order of records that enter on one tick: NS, FRAC_HI, channel (R217). -/
def capBefore (x y : CapRec) : Bool :=
  decide (x.ns.toNat * 64 + x.frac.toNat < y.ns.toNat * 64 + y.frac.toNat) ||
  (x.ns == y.ns && x.frac == y.frac && decide (x.chan.toNat < y.chan.toNat))

def capInsert (r : CapRec) : List CapRec → List CapRec
  | [] => [r]
  | x :: t => if capBefore r x then r :: x :: t else x :: capInsert r t

/-- One edge at one channel that takes it (R204, R214, R215, R220). DESIGN CHOICE (assumption 130): INVALID_DROPS counts an
edge once for each channel that takes it, so an edge that no channel takes is not counted; and an edge discarded for invalid
time is counted whether or not it lies in the window. -/
def capEdge1 (k kind idx : Nat) (fall : Bool) (frac : BitVec 6) (u : UnitState) : UnitState :=
  if !u.base.valid || (kind == 1 && !tapValid u idx) then uB (incF 0x06040 16 16) u
  else if capOutside u k then u
  else
    let c := capChan u k
    let t := u.base.ns.toNat * 64 + frac.toNat
    let close := match c.last with
      | some p => decide (t < p + 128)
      | none => false
    if close then capChanPut k { c with lostEdge := true } (uB (inc (capCtlAddr k + 0x18)) u)
    else
      let r : CapRec := { ns := u.base.ns, frac := frac, chan := BitVec.ofNat 4 k, fall := fall,
                          domb := rdB u.base 0x02070 4, hold := rdB u.base 0x02070 3, lost := c.lostEdge,
                          at_ := u.base.tick + 96 }
      let u := capChanPut k { c with last := some t, lostEdge := false } u
      { u with cap := { u.cap with flight := capInsert r u.cap.flight } }

/-- An edge on a capture source. -/
def captureEdgeOp (kind idx : Nat) (fall : Bool) (frac : BitVec 6) (u : UnitState) : UnitState :=
  (List.range (capChans u)).foldl (fun u k => if capTakes u k kind idx fall then capEdge1 k kind idx fall frac u else u) u

/-- The 64 bits of a capture record (R216). -/
def capBits (r : CapRec) (lost : Bool) : BitVec 64 :=
  r.ns.setWidth 48 ++ r.frac ++ r.chan ++ BitVec.ofBool r.fall ++ BitVec.ofBool r.domb ++ BitVec.ofBool r.hold ++
  BitVec.ofBool lost ++ (1 : BitVec 1) ++ (0 : BitVec 1)

/-- Deliver a record as a capture message (R219, R274, R295). -/
def capMessage (bits : BitVec 64) (u : UnitState) : UnitState :=
  if reserveRoom u 1 then
    let m := rd u.base 0x06044
    pushReserve 0x24 (fld m 16 10) (fld m 8 8) stOk bits.toNat u
  else uB (inc 0x06054) u

/-- One record whose 96 ticks have passed (R217 to R219). DESIGN CHOICE (assumption 131): R219 delivers "the channel's records"
as messages, so a record that a full queue discards is delivered too. -/
def capEnter1 (r : CapRec) (s : State) : State :=
  let u := s.unit
  let k := r.chan.toNat
  let c := capChan u k
  let ctl := rd u.base (capCtlAddr k)
  let bits := capBits r (r.lost || c.lostRec)
  let full := decide (capCap u ≤ u.cap.queue.length)
  let s := onUnit (fun u => if bitOf ctl 27 then capMessage bits u else u) s
  if full then
    let s := onUnit (fun u => capChanPut k { c with lostRec := true } (uB (fun b => pgEvt 0x06 1 (inc (capCtlAddr k + 0x18) b)) u)) s
    if u.cap.overLogged then s
    else logU uCapOverflow noPort k 0 0 (onUnit (fun u => { u with cap := { u.cap with overLogged := true } }) s)
  else
    onUnit (fun u =>
      let u := capChanPut k { c with lostRec := false } u
      let u := uB (fun b =>
        let b := inc 0x06050 (if u.cap.queue.isEmpty then pgEvt 0x06 0 b else b)
        if bitOf ctl 26 then occur (48 + k) b else b) u
      { u with cap := { u.cap with queue := u.cap.queue ++ [bits] } }) s

/-- The records due now enter the queue in order. -/
def capEnterOp (s : State) : State :=
  let now := s.unit.base.tick
  let due := s.unit.cap.flight.filter fun r => decide (r.at_ ≤ now)
  let s := onUnit (fun u => { u with cap := { u.cap with flight := u.cap.flight.filter fun r => decide (now < r.at_) } }) s
  due.foldl (fun s r => capEnter1 r s) s

/-- A read of CAP.REC_LO (R219). -/
def capReadOp (ch : Nat) (u : UnitState) : Word × UnitState :=
  match u.cap.queue with
  | r :: t => (lo32 r, uB (latch ch 0x0604C (hi32 r)) { u with cap := { u.cap with queue := t, overLogged := false } })
  | [] => (0, uB (latch ch 0x0604C 0) u)

/-! ## Drip (R221 to R227, R501, R502) -/

def dripGet (u : UnitState) (k : Nat) : Drip := tabGet {} k u.drips
def dripPut (k : Nat) (d : Drip) (u : UnitState) : UnitState := { u with drips := tabSet {} k d u.drips }

/-- A timetable entry. -/
def ttbGet (u : UnitState) (i : Nat) : TtbEnt := tabGet {} i u.launch.ttb

/-- Address of a register of channel k (R230), and its settings. -/
def dripAddr (k o : Nat) : Nat := 0x07100 + 0x40 * k + o
def dripBit (u : UnitState) (k i : Nat) : Bool := rdB u.base (dripAddr k 0x00) i
def dripStart (u : UnitState) (k : Nat) : Nat := (rd64 u.base (dripAddr k 0x08)).toNat
def dripPeriod (u : UnitState) (k : Nat) : Nat := (rd u.base (dripAddr k 0x10)).toNat
def dripWidth (u : UnitState) (k : Nat) : Nat := (rd u.base (dripAddr k 0x14)).toNat
def dripCount (u : UnitState) (k : Nat) : Nat := (rd u.base (dripAddr k 0x18)).toNat
def dripFine (u : UnitState) (k : Nat) : BitVec 6 := BitVec.ofNat 6 (rdF u.base (dripAddr k 0x1C) 0 6)

/-- A channel is ARMED or RUNNING. -/
def dripBusy (u : UnitState) (k : Nat) : Bool := (dripGet u k).st = .armed || (dripGet u k).st = .running

/-- PERIOD, WIDTH and COUNT obey R221. -/
def dripCfgOk (u : UnitState) (k : Nat) : Bool :=
  let p := dripPeriod u k
  let w := dripWidth u k
  p != 1 && decide (1 ≤ w) && (p == 0 || decide (w < p))

/-- The setting is within the LIM page (R223, R502). -/
def dripLimOk (u : UnitState) (k : Nat) : Bool :=
  (!dripBit u k 1 || rdB u.base 0x14054 k) &&
  (dripPeriod u k == 0 || decide ((rd u.base 0x14058).toNat ≤ dripPeriod u k)) &&
  decide (dripWidth u k ≤ (rd u.base 0x1405C).toNat)

/-- End of the output window, and whether every tick of a pulse from `t` lies in the window (R501). -/
def outWinEnd (u : UnitState) : Option Nat :=
  if rd u.base 0x14064 = 0xFFFFFFFF then none else some ((rd u.base 0x14064).toNat * 1000000000)
def inOutWindow (u : UnitState) (t w : Nat) : Bool :=
  decide ((rd u.base 0x14060).toNat * 1000000000 ≤ t) &&
  match outWinEnd u with
  | some e => decide (t + w ≤ e)
  | none => true

/-- The cause that an arming meets first (R223, R649), or 0. -/
def dripRefusal (u : UnitState) (k : Nat) : Nat :=
  if !u.base.valid then 1
  else if dripBusy u k then 2
  else if !dripCfgOk u k then 3
  else if !dripLimOk u k then 4
  else if dripStart u k < u.base.ns.toNat + 16 then 5
  else 0

/-- A channel's pad takes a level, `fine` after the tick: an edge is an output, and an edge at the input buffer (R212, R222). -/
def dripPad (k : Nat) (high : Bool) (fine : BitVec 6) (u : UnitState) : UnitState :=
  let d := dripGet u k
  if d.level = high then u
  else captureEdgeOp 2 k (!high) fine (uB (emit (.drip k (if high then 1 else 0) fine.toNat)) (dripPut k { d with level := high } u))

/-- The pad is active, or at its idle level, by POL (R221); a pad whose driver is disabled stays at its idle level. -/
def dripDrive (k : Nat) (on : Bool) (fine : BitVec 6) (u : UnitState) : UnitState :=
  dripPad k ((on && dripBit u k 1) != dripBit u k 0) fine u

/-- POL or OUT_EN of a channel that is not ARMED or RUNNING has been written: the pad holds its idle level (R221). -/
def dripIdlePad (k : Nat) (u : UnitState) : UnitState := if dripBusy u k then u else dripDrive k false 0 u

/-- A register of a channel that has no effect while the channel is ARMED or RUNNING (R224): its channel. -/
def dripHeld (u : UnitState) (o : Nat) : Option Nat :=
  if 0x100 ≤ o ∧ (o - 0x100) / 0x40 < dripChans u ∧ [0x00, 0x08, 0x0C, 0x10, 0x14, 0x18, 0x1C].contains ((o - 0x100) % 0x40) ∧
      dripBusy u ((o - 0x100) / 0x40) = true then some ((o - 0x100) / 0x40) else none

/-- Enter DONE (R222, R227). -/
def dripDone (k : Nat) (u : UnitState) : UnitState :=
  let u := dripPut k { dripGet u k with st := .done, active := false, stop := none } u
  uB (fun b =>
    let b := pgEvt 0x07 0 b
    if bitOf (rd b (dripAddr k 0x00)) 3 then occur (64 + k) b else b) u

/-- The next pulse would start at or after the end of the window (R501). -/
def dripBeyond (u : UnitState) (k : Nat) : Bool :=
  dripBit u k 1 && match outWinEnd u with
    | some e => decide (e ≤ (dripGet u k).next)
    | none => false

/-- Arm a channel (R223): whether it was armed, and the machine after it. DESIGN CHOICE (assumption 132): an accepted ARM
clears REFUSAL, which R223 writes at a refusal only. -/
def dripArmOp (k : Nat) (s : State) : Bool × State :=
  let u := s.unit
  let r := dripRefusal u k
  if decide (dripChans u ≤ k) then (false, s)
  else if r = 0 then
    let u := dripPut k { dripGet u k with st := .armed, next := dripStart u k, num := 0, active := false, stop := none,
                                          suppLogged := false, ttbArm := none, regArm := none } u
    let u := uB (fun b => inc 0x07044 (wrF (dripAddr k 0x20) 4 3 0 (wr (dripAddr k 0x24) 0 b))) u
    (true, { s with unit := if dripBeyond u k then dripDone k u else u })
  else
    let s := onUnit (uB fun b => pgEvt 0x07 1 (inc 0x07048 (wrF (dripAddr k 0x20) 4 3 r b))) s
    (false, logU uDripRefused noPort k 0 r s)

/-- A register write arms a channel that no timetable entry armed on this tick (R223). -/
def dripArmNow (k : Nat) (s : State) : State :=
  let r := dripArmOp k s
  if r.1 then onUnit (fun u => dripPut k { dripGet u k with regArm := some u.base.tick } u) r.2 else r.2

/-- PLS.CHk_CMD.ARM (R223, R224): where a timetable entry armed the channel on this tick, the register write is the one that
arms it, and the entry completes with BUSY. -/
def dripRegArm (k : Nat) (s : State) : State :=
  let u := s.unit
  let d := dripGet u k
  match d.ttbArm with
  | some (t, i) =>
    if t = u.base.tick ∧ dripBusy u k = true then
      onUnit (fun u => dripPut k { d with ttbArm := none, regArm := some u.base.tick }
        { u with launch := { u.launch with ttb := tabSet {} i { ttbGet u i with result := 3 } u.launch.ttb } }) s
    else dripArmNow k s
  | none => dripArmNow k s

/-- Stop a channel (R225): at the next tick, an active pulse running to its end. -/
def dripStopOp (k : Nat) (u : UnitState) : UnitState :=
  let d := dripGet u k
  if dripBusy u k && d.stop.isNone then dripPut k { d with stop := some (u.base.ns.toNat + 1) } u else u

/-- The tick at which a STOP takes effect has come: a channel with no pulse active or due enters IDLE (R225). -/
def dripSettle1 (k : Nat) (u : UnitState) : UnitState :=
  let d := dripGet u k
  match d.stop with
  | some t => if dripBusy u k && !d.active && decide (t ≤ u.base.ns.toNat) && decide (t < d.next)
      then dripPut k { d with st := .idle, stop := none } u else u
  | none => u

/-- Every channel's STOP that is due. -/
def dripsTick (u : UnitState) : UnitState := u.drips.foldl (fun u x => dripSettle1 x.1 u) u

/-- A channel whose pulse has ended or was suppressed: stopped, used up, past the window, or on to the next (R222, R225,
R501). -/
def dripAfter (k : Nat) (u : UnitState) : UnitState :=
  let d := dripGet u k
  let p := dripPeriod u k
  if d.stop.isSome then dripPut k { d with st := .idle, active := false, stop := none } u
  else if p = 0 ∨ (dripCount u k ≠ 0 ∧ dripCount u k ≤ d.num) then dripDone k u
  else
    let u := dripPut k { d with active := false, next := dripStart u k + d.num * p } u
    if dripBeyond u k then dripDone k u else u

/-- A pulse's start tick (R222, R227, R501): the pad goes active, or the pulse is suppressed. -/
def dripPulseOp (k : Nat) (s : State) : State :=
  let u := s.unit
  let d := dripGet u k
  let stopped := match d.stop with
    | some t => decide (t < d.next)
    | none => false
  if !dripBusy u k || d.active || stopped || decide (u.base.ns.toNat < d.next) then s
  else
    let d' := { d with st := .running, num := d.num + 1 }
    if dripBit u k 1 && !inOutWindow u d.next (dripWidth u k) then
      let s := onUnit (fun u => uB (inc 0x14078) (dripAfter k (dripPut k { d' with suppLogged := true } u))) s
      if d.suppLogged then s else logU uLimSuppress noPort k 0 0 s
    else
      onUnit (fun u =>
        let u := dripPut k { d' with active := true, endAt := d.next + dripWidth u k } u
        let u := dripDrive k true (dripFine u k) (uB (inc (dripAddr k 0x24)) u)
        if dripBit u k 2 then uB (occur (64 + k)) u else u) s

/-- The end of a pulse (R222). -/
def dripEndOp (k : Nat) (u : UnitState) : UnitState :=
  let d := dripGet u k
  if d.active && decide (d.endAt ≤ u.base.ns.toNat) then
    dripAfter k (dripDrive k false (dripFine u k) (dripPut k { d with active := false } u))
  else u

/-- RELOAD (R226): every channel returns its pad to the idle level at once, enters IDLE and logs DRIP_ABORTED. -/
def dripsReload (s : State) : State :=
  (List.range (dripChans s.unit)).foldl (fun s k =>
    logU uDripAborted noPort k 0 0 (onUnit (fun u =>
      let u := dripDrive k false 0 u
      dripPut k { level := (dripGet u k).level } u) s)) s

/-- RELOAD: times before it bound no later edge of a capture channel (R214). -/
def capsReload (u : UnitState) : UnitState :=
  u.cap.chans.foldl (fun u x => capChanPut x.1 { x.2 with last := none } u) u

/-- A write to DRIP_PADS, DRIP_MIN_PERIOD or DRIP_MAX_WIDTH stops the channels it leaves outside the limits (R502). -/
def dripsLimit (s : State) : State :=
  (List.range (dripChans s.unit)).foldl (fun s k =>
    if dripBusy s.unit k && !dripLimOk s.unit k && (dripGet s.unit k).stop.isNone then
      logU uLimStop noPort k 0 0 (onUnit (dripStopOp k) s)
    else s) s

/-! ## The meanings -/

/-- SYNC_FRAME_SEND (R195). -/
def execSyncFrameSend (s : State) : Host.Outcome State Fault Refusal := .next (ifUnit (onUnit syncSendOp) s)

/-- TAP_SYNC_FRAME_RX (R196, R197). -/
def execTapSyncFrameRx (region : BitVec 6) (ns : BitVec 64) (crc : BitVec 8) (s : State) : Host.Outcome State Fault Refusal :=
  .next (ifUnit (tapSyncOp region.toNat ns crc) s)

/-- TAP_DELAY_UPDATE (R198, R199, R201). -/
def execTapDelayUpdate (region : BitVec 6) (loopUnits : BitVec 16) (s : State) : Host.Outcome State Fault Refusal :=
  .next (ifUnit (tapDelayOp region.toNat loopUnits.toNat) s)

/-- TAP_RETURN_LOST (R202). -/
def execTapReturnLost (region : BitVec 6) (s : State) : Host.Outcome State Fault Refusal :=
  .next (ifUnit (tapLostOp region.toNat) s)

/-- TAP_RESYNC (R203). -/
def execTapResync (region : BitVec 6) (s : State) : Host.Outcome State Fault Refusal :=
  .next (ifUnit (onUnit (tapResyncOp region.toNat)) s)

/-- TAP_EN_WRITE (R202). -/
def execTapEnWrite (region : BitVec 6) (en : Bool) (s : State) : Host.Outcome State Fault Refusal :=
  .next (ifUnit (onUnit (tapEnOp region.toNat en)) s)

/-- TAP_READ_REQ (R209). -/
def execTapReadReq (region : BitVec 6) (port : BitVec 4) (s : State) : Host.Outcome State Fault Refusal :=
  .next (ifUnit (onUnit (tapReadOp region.toNat port.toNat)) s)

/-- CAPTURE_EDGE (R213 to R216, R220). -/
def execCaptureEdge (kind : BitVec 2) (idx : BitVec 6) (fall : Bool) (frac : BitVec 6) (s : State) :
    Host.Outcome State Fault Refusal :=
  .next (ifUnit (onUnit (captureEdgeOp kind.toNat idx.toNat fall frac)) s)

/-- CAPTURE_RECORD_ENTER (R217 to R219). -/
def execCaptureRecordEnter (s : State) : Host.Outcome State Fault Refusal := .next (ifUnit capEnterOp s)

/-- CAP_REC_READ (R219). -/
def execCapRecRead (ch : BitVec 3) (s : State) : Host.Outcome State Fault Refusal :=
  .next (ifUnit (fun s =>
    let r := capReadOp ch.toNat s.unit
    answer .unit ch r.1 { s with unit := r.2 }) s)

/-- DRIP_ARM (R223). -/
def execDripArm (k : BitVec 3) (s : State) : Host.Outcome State Fault Refusal :=
  .next (ifUnit (dripRegArm k.toNat) s)

/-- DRIP_STOP (R225). -/
def execDripStop (k : BitVec 3) (s : State) : Host.Outcome State Fault Refusal :=
  .next (ifUnit (onUnit (dripStopOp k.toNat)) s)

/-- DRIP_PULSE_START (R222, R227, R501). -/
def execDripPulseStart (k : BitVec 3) (s : State) : Host.Outcome State Fault Refusal :=
  .next (ifUnit (dripPulseOp k.toNat) s)

/-- DRIP_PULSE_END (R222, R225). -/
def execDripPulseEnd (k : BitVec 3) (s : State) : Host.Outcome State Fault Refusal :=
  .next (ifUnit (onUnit (dripEndOp k.toNat)) s)

end Sys2Proof.Machine
end

