-- ==== Sys2Proof/Machine/Launch.lean ====
section
/-! DEFINITION. Launch at an agreed count, at the unit, and the timetable (R232 to R264, R293, R294, R500, R650). -/

namespace Sys2Proof.Machine

/-! ## Galleries at a unit (R398, R399, R499) -/

/-- CMB.GAL_CTL and GAL_STATE of a gallery. -/
def galCtlAddr (g : Nat) : Nat := objAddr g 0x0F048
def galStateAddr (g : Nat) : Nat := objAddr g 0x0F04C
def galJoined (u : UnitState) (g : Nat) : Bool := rdB u.base (galCtlAddr g) 0
def galBase (u : UnitState) (g : Nat) : Nat := rdF u.base (galStateAddr g) 0 16
def galEpoch (u : UnitState) (g : Nat) : Nat := rdF u.base (galStateAddr g) 16 16

/-- A gallery is permitted by LIM.GAL_RANGE_0 or _1 (R499). -/
def galPermitted (b : Base) (g : Nat) : Bool :=
  [0x14048, 0x1404C].any fun a => rdB b a 31 && decide (rdF b a 0 12 ≤ g) && decide (g ≤ rdF b a 16 12)

/-! ## Launch frames (R71) -/

/-- Header and payload bodies of an ARM. -/
def armHdr (a : Arm) : BitVec 64 := a.gallery ++ a.epochLo ++ a.target
def armTail (a : Arm) (phase : Nat) (refused : Bool) : BitVec 64 :=
  bodyOf [(16, a.lid.toNat), (16, a.tol.toNat), (20, a.uid.toNat), (2, phase), (1, if refused then 1 else 0)]
def goBody (g : Go) : BitVec 64 := bodyOf [(12, g.gallery.toNat), (4, g.epochLo.toNat), (16, g.lid.toNat), (32, g.targetLo.toNat)]
def abortBody (a : Abort) : BitVec 64 := bodyOf [(12, a.gallery.toNat), (4, a.epochLo.toNat), (16, a.lid.toNat), (8, a.reason.toNat)]

/-- Send an ARM, a GO or an ABORT on a port. -/
def sendArm (p : PortRef) (delay phase : Nat) (refused : Bool) (a : Arm) (s : State) : State :=
  sendSeq p delay 4 0x08 (armHdr a) [a.mask, armTail a phase refused] s
def sendAbort (p : PortRef) (delay : Nat) (a : Abort) (s : State) : State := sendSeq p delay 3 0x0A (abortBody a) [] s

/-- Receive an ARM of a phase. -/
def rxArm (rx : Rx) (ok : Bool) (phase : Nat) (refused : Bool) (a : Arm) (s : State) : Bool × State :=
  rxSeq rx ok [(0x08, armHdr a), (0x28, a.mask), (0x28, armTail a phase refused)] s

/-! ## Slots, records and ORIG_STS -/

def onLaunch (f : Launch → Launch) (u : UnitState) : UnitState := { u with launch := f u.launch }

/-- Launch slots and fire record queue entries of the configuration (R233). -/
def slotCap (u : UnitState) : Nat := if (cfgOf u.base).w64 then 16 else 64
def recCap (u : UnitState) : Nat := if (cfgOf u.base).w64 then 32 else 256

def slotGet (u : UnitState) (i : Nat) : Option Slot := tabGet none i u.launch.slots
def slotPut (i : Nat) (x : Option Slot) (u : UnitState) : UnitState :=
  onLaunch (fun l => { l with slots := tabSet none i x l.slots }) u

/-- The lowest free slot. -/
def slotFree (u : UnitState) : Option Nat := (List.range (slotCap u)).find? fun i => (slotGet u i).isNone

/-- A slot of a launch, among those that have only requested it or the others. -/
def slotOf (req : Bool) (u : UnitState) (g lid : Nat) : Option (Nat × Slot) :=
  u.launch.slots.findSome? fun x => match x.2 with
    | some k => if k.gallery = g ∧ k.lid = lid ∧ decide (k.st = .requested) = req then some (x.1, k) else none
    | none => none

/-- The slot that holds a launch: the member's, or else the origin's. Both stand where another unit's PHASE 1 named the same
gallery and launch ID (R236, R239). -/
def slotFind (u : UnitState) (g lid : Nat) : Option (Nat × Slot) := match slotOf false u g lid with
  | some x => some x
  | none => slotOf true u g lid

/-- LCH.ARM_CTL.GUARD. -/
def guard (u : UnitState) : Nat := rdF u.base 0x08040 0 20

/-- ORIG_STS when the launch is the last accepted request (R262). -/
def origNote (g lid st : Nat) (go : Bool) (reason : Nat) (u : UnitState) : UnitState :=
  if u.launch.orig = some (g, lid) then
    uB (fun b => wrF 0x0809C 16 8 reason (wrB 0x0809C 8 go (wrF 0x0809C 0 2 st b))) u
  else u

/-- The 64 bits of a fire record (R261). -/
def recBits (lid g late status reason : Nat) (isLocal hold domb tapInv : Bool) : BitVec 64 :=
  BitVec.ofNat 64 (packBits [(16, lid), (12, if isLocal then 0 else g), (16, min late 0xFFFF), (4, status), (8, reason),
    (1, if isLocal then 1 else 0), (1, if hold then 1 else 0), (1, if domb then 1 else 0), (1, if tapInv then 1 else 0),
    (3, 0), (1, 1)])

/-- The slot that a launch's origin alone holds is freed, with the decision (R236). -/
def freeOrigin (g lid : Nat) (go : Bool) (reason : Nat) (u : UnitState) : UnitState := match slotOf true u g lid with
  | some (i, _) => origNote g lid 3 go reason (slotPut i none u)
  | none => u

/-- Enter a fire record: dropped and counted when the queue is full (R261). -/
def pushRec (r : BitVec 64) (status : Nat) (s : State) : State :=
  let u := s.unit
  if recCap u ≤ u.launch.recs.length then
    let s := onUnit (uB (inc 0x08060)) s
    if u.launch.overLogged then s
    else logU uLchRecOverflow noPort 0 0 0 (onUnit (onLaunch fun l => { l with overLogged := true }) s)
  else
    onUnit (fun u => uB (fun b =>
      let b := occur 76 (pgEvt 0x08 0 b)
      if 2 ≤ status ∧ status ≤ 4 then pgEvt 0x08 1 b else b)
      (onLaunch (fun l => { l with recs := l.recs ++ [r] }) u)) s

/-- A read of LCH.REC_LO (R261). -/
def recReadOp (ch : Nat) (u : UnitState) : Word × UnitState :=
  match u.launch.recs with
  | r :: t => (lo32 r, uB (latch ch 0x0805C (hi32 r)) (onLaunch (fun l => { l with recs := t, overLogged := false }) u))
  | [] => (0, uB (latch ch 0x0805C 0) u)

/-! ## Origin (R235, R236, R293, R500) -/

/-- A request as ORIG_CMD.START or LCH_START makes it. -/
structure OrigReq where
  gallery : Nat
  lid : Nat
  target : Nat
  mask : BitVec 64
  tol : Nat
  deriving DecidableEq, Repr

/-- The cause an origin request meets first, in the order of R235 (R649), or 0. -/
def origRefusal (s : State) (r : OrigReq) : Nat :=
  let u := s.unit
  let now := u.base.ns.toNat
  if !u.base.valid then 1
  else if armAged s then 2
  else if (slotFree u).isNone then 3
  else if r.target < now + (rd u.base 0x08044).toNat then 5
  else if !galPermitted u.base r.gallery || rdF u.base 0x14074 0 8 == 0 then 6
  else if (slotFind u r.gallery r.lid).isSome then 8
  else if now + 2 ^ 47 ≤ r.target then 9
  else 0

/-- The tick from which the next launch token counts, once a token is taken: now, where the count stood at BURST (R500). -/
def tokenSince (u : UnitState) : Nat :=
  if rdF u.base 0x14050 0 8 ≤ rdF u.base 0x14074 0 8 then u.base.tick else u.launch.refillAt

/-- Port of the active partner: SRV.STS.ACTIVE. -/
def activeDom (u : UnitState) : Dom := if rdB u.base 0x02070 4 then .b else .a

/-- Request a launch (R235, R236): the cause of a refusal, or 0, and the machine after it. -/
def origStart (r : OrigReq) (s : State) : Nat × State :=
  let c := origRefusal s r
  if c ≠ 0 then
    let s := onUnit (uB fun b => wrF 0x0809C 4 4 c (wrF 0x0809C 0 2 3 b)) s
    (c, logU uLaunchRefused noPort r.lid 0 c s)
  else
    let u := s.unit
    let ep := galEpoch u r.gallery % 16
    let k : Slot := { gallery := r.gallery, lid := r.lid, target := r.target, mask := r.mask, tol := r.tol, epochLo := ep,
                      origin := true, broadcast := false, st := .requested, domb := false, reqAt := u.base.tick }
    let a : Arm := { gallery := BitVec.ofNat 12 r.gallery, epochLo := BitVec.ofNat 4 ep, target := BitVec.ofNat 48 r.target,
                     mask := r.mask, lid := BitVec.ofNat 16 r.lid, tol := BitVec.ofNat 16 r.tol,
                     uid := BitVec.ofNat 20 (unitId u) }
    let s := onUnit (fun u => uB (fun b => wrF 0x14074 0 8 (rdF b 0x14074 0 8 - 1) (wr 0x0809C 1 b))
      (onLaunch (fun l => { l with orig := some (r.gallery, r.lid), refillAt := tokenSince u })
        (slotPut ((slotFree u).getD 0) (some k) u))) s
    (0, sendArm (.unit (activeDom s.unit)) 16 0 false a s)

/-- The request that the ORIG registers hold. -/
def origRegs (b : Base) : OrigReq :=
  { gallery := rdF b 0x08090 16 12, lid := rdF b 0x08090 0 16, target := (rd64 b 0x08080).toNat, mask := rd64 b 0x08088,
    tol := rdF b 0x08094 0 16 }

/-- LCH_START (R293). -/
def lchStartMsg (m : LchStart) (s : State) : State :=
  let r : OrigReq := { gallery := m.gallery.toNat, lid := m.lid.toNat, target := (extend48 s.unit.base m.target).toNat,
                       mask := 0xFFFFFFFFFFFFFFFF, tol := m.tol.toNat }
  let x := origStart r s
  onUnit (if x.1 = 0 then respDone m.req m.lid.toNat 0x10 0 else respError m.req stRefused m.lid.toNat 0x10 x.1) x.2

/-- A request without broadcast or abort within REQ_TOUT (R236). -/
def reqTimeoutOp (g lid : Nat) (s : State) : State :=
  match slotOf true s.unit g lid with
  | some (i, k) =>
    if ¬ k.broadcast ∧ k.reqAt + (rd s.unit.base 0x08048).toNat ≤ s.unit.base.tick then
      logU uLaunchReqLost noPort lid 0 0 (onUnit (fun u => origNote g lid 3 false 0 (slotPut i none u)) s)
    else s
  | none => s

/-! ## Arming (R239, R240) -/

/-- Region n fires by R240 under a mask. -/
def regionFires (u : UnitState) (mask : BitVec 64) (n : Nat) : Bool :=
  mask.getLsbD n && (rd64 u.base 0x0804C).getLsbD n && tapEn u n

/-- Regions of a set of bits. -/
def regionBits (p : Nat → Bool) : BitVec 64 :=
  BitVec.ofNat 64 ((List.range 64).foldl (fun m n => if p n then m + 2 ^ n else m) 0)

/-- The cause for which a unit refuses to arm first (R239, R649), or 0. `own` is the slot it holds as origin. -/
def armRefusal (s : State) (a : Arm) (target : Nat) (own : Bool) : Nat :=
  let u := s.unit
  if !u.base.valid then 1
  else if armAged s then 2
  else if !own && (slotFree u).isNone then 3
  else if (List.range 64).any fun n => regionFires u a.mask n && !tapValid u n then 4
  else if target < u.base.ns.toNat + guard u then 5
  else if a.epochLo.toNat ≠ galEpoch u a.gallery.toNat % 16 then 7
  else 0

/-- Send PHASE 2 on every usable port (R239). -/
def sendCensus (a : Arm) (armed : Bool) (s : State) : State :=
  let a := { a with uid := if armed then 1 else 0 }
  [Dom.a, Dom.b].foldl (fun s d => if domUsable s.unit d then sendArm (.unit d) 16 2 (!armed) a s else s) s

/-- A member unit arms or refuses (R239), in the slot that it holds as the broadcast's origin (R236) or in a free one. -/
def armOp (a : Arm) (s : State) : State :=
  let u := s.unit
  let g := a.gallery.toNat
  let lid := a.lid.toNat
  let target := (extend48 u.base a.target).toNat
  let own := if a.uid.toNat = unitId u then slotOf true u g lid else none
  let c := armRefusal s a target own.isSome
  if c = 0 then
    let i := match own with
      | some (i, _) => i
      | none => (slotFree u).getD 0
    let k : Slot := { gallery := g, lid := lid, target := target, mask := a.mask, tol := a.tol.toNat,
                      epochLo := a.epochLo.toNat, origin := own.isSome, broadcast := true, st := .armed, domb := false,
                      reqAt := u.base.tick }
    sendCensus a true (onUnit (slotPut i (some k)) s)
  else
    let s := sendCensus a false s
    let s := logU uLaunchRefused noPort lid 0 c s
    pushRec (recBits lid g 0 5 c false false false false) 5 s

/-- A PHASE 1 ARM at a unit: the first copy only (R236, R239). -/
def armBroadcastOp (a : Arm) (s : State) : State :=
  let u := s.unit
  let g := a.gallery.toNat
  let lid := a.lid.toNat
  let key := g * 65536 + lid
  if tabGet none key u.launch.heard = some a.target then s
  else
    let s := onUnit (onLaunch fun l => { l with heard := tabSet none key (some a.target) l.heard }) s
    let s := match slotOf true s.unit g lid with
      | some (i, k) =>
        if a.uid.toNat = unitId s.unit then
          onUnit (fun u => origNote g lid 2 false 0 (slotPut i (some { k with broadcast := true }) u)) s
        else s
      | none => s
    if galJoined u g && galPermitted u.base g && (slotOf false s.unit g lid).isNone then armOp a s else s

/-! ## Decision (R246 to R248, R252) -/

/-- An armed launch is missed (R247): its slot is freed, its record written and LAUNCH_MISSED logged. -/
def missOp (i : Nat) (k : Slot) (reason : Nat) (s : State) : State :=
  let s := onUnit (fun u => origNote k.gallery k.lid 3 false reason (slotPut i none u)) s
  let s := if reason = 0 then
      onUnit (onLaunch fun l => { l with missed := l.missed ++ [(k.gallery, k.lid, k.target)] }) s else s
  let s := pushRec (recBits k.lid k.gallery 0 3 reason false false false false) 3 s
  logU uLaunchMissed noPort k.lid 0 reason s

/-- NS has passed the target minus GUARD. -/
def pastGuard (u : UnitState) (target : Nat) : Bool := decide (target < u.base.ns.toNat + guard u)

/-- An armed launch, or an origin slot after its broadcast, without GO when NS passes the guard (R236, R247). -/
def guardOp (g lid : Nat) (s : State) : State :=
  let s := match slotOf true s.unit g lid with
    | some (_, k) => if pastGuard s.unit k.target ∧ k.broadcast then onUnit (freeOrigin g lid false 0) s else s
    | none => s
  match slotOf false s.unit g lid with
  | some (i, k) => if pastGuard s.unit k.target ∧ k.st = .armed then missOp i k 0 s else s
  | none => s

/-- Report a GO that came after its guard (R248). -/
def lateGo (g lid targetLo : Nat) (s : State) : State :=
  match s.unit.launch.missed.find? fun x => x.1 == g && x.2.1 == lid && x.2.2 % 2 ^ 32 == targetLo with
  | some x =>
    sendReports [.a, .b] (hapCode uLaunchMissed).toNat lid 0
      (onUnit (onLaunch fun l => { l with missed := l.missed.erase x }) s)
  | none => s

/-- A GO at a unit (R236, R246, R248). -/
def goOp (d : Dom) (m : Go) (s : State) : State :=
  let g := m.gallery.toNat
  let lid := m.lid.toNat
  let s := onUnit (freeOrigin g lid true 0) s
  let mismatch := onUnit (uB (inc 0x08064)) s
  match slotOf false s.unit g lid with
  | some (i, k) =>
    let same := decide (m.targetLo.toNat = k.target % 2 ^ 32)
    match k.st with
    | .requested => s
    | .armed =>
      if !same then mismatch
      else if pastGuard s.unit k.target then lateGo g lid m.targetLo.toNat (missOp i k 0 s)
      else onUnit (fun u => origNote g lid 3 true 0 (slotPut i (some { k with st := .go, domb := decide (d = .b) }) u)) s
    | .go => if same then s else mismatch
    | .await => if same then s else mismatch
  | none => lateGo g lid m.targetLo.toNat s

/-- An ABORT at a unit (R236, R246, R247, R487). -/
def abortOp (g lid reason : Nat) (s : State) : State :=
  let s := onUnit (freeOrigin g lid false reason) s
  match slotOf false s.unit g lid with
  | some (i, k) =>
    match k.st with
    | .requested => s
    | .armed => missOp i k reason s
    | .go => logU uLaunchSplit noPort lid 0 0 (onUnit (uB (inc 0x08064)) s)
    | .await => logU uLaunchSplit noPort lid 0 0 (onUnit (uB (inc 0x08064)) s)
  | none => s

/-- Cancel a launch that a slot of this unit holds (R252): whether one does, and the machine after it. A unit that has not
accepted GO misses the launch, an origin's slot as well as a member's. -/
def cancelLaunch (g lid : Nat) (s : State) : Bool × State :=
  match slotFind s.unit g lid with
  | some (i, k) =>
    if k.st = .requested ∨ k.st = .armed then
      let a : Abort := { gallery := BitVec.ofNat 12 g, epochLo := BitVec.ofNat 4 k.epochLo, lid := BitVec.ofNat 16 lid,
                         reason := 0x03 }
      let s := [Dom.a, Dom.b].foldl (fun s d => if domUsable s.unit d then sendAbort (.unit d) 0 a s else s) s
      (true, onUnit (freeOrigin g lid false 3) (missOp i k 3 s))
    else (true, s)
  | none => (false, s)

/-- LCH_CANCEL (R293). -/
def lchCancelMsg (m : LchCancel) (s : State) : State :=
  let x := cancelLaunch m.gallery.toNat m.lid.toNat s
  onUnit (if x.1 then respAck m.req m.lid.toNat 0x11 0 else respError m.req stNotFound m.lid.toNat 0x11 0) x.2

/-! ## Firing and lateness (R249 to R251, R650) -/

/-- Order of records due on one tick (R48): target, then launch ID. -/
def firedBefore (x y : Fired) : Bool :=
  decide (x.target < y.target) ||
  (x.target == y.target && (decide (x.lid < y.lid) || (x.lid == y.lid && decide (x.gallery < y.gallery))))

def firedInsert (x : Fired) : List Fired → List Fired
  | [] => [x]
  | y :: t => if firedBefore x y then x :: y :: t else y :: firedInsert x t

/-- One step of the fire count of region n, once per tick (R249, R650). -/
def fireRegion (n : Nat) (s : State) : State :=
  let u := s.unit
  let t := tapGet u n
  if t.firedAt.head? = some u.base.tick then s
  else
    let k := if t.stopped then t.stopFires + 1 else 0
    let t := { t with fires := t.fires + 1, stopFires := k, firedAt := (u.base.tick :: t.firedAt).take 3 }
    let s := onUnit (fun u => uB (emit (.fire n t.lfire.toNat)) (tapPut n t u)) s
    if k ≠ 0 ∧ k % 256 = 0 then logU uFireWrap noPort n 0 0 s else s

/-- Fire a launch now in the regions of a mask that fire by R240; invalid taps do not fire (R249, R251). -/
def fireOp (isLocal : Bool) (g lid target tol : Nat) (mask : BitVec 64) (domb : Bool) (s : State) : State :=
  let u := s.unit
  let want := (List.range 64).filter fun n => regionFires u mask n
  let good := want.filter fun n => tapValid u n
  let bad := want.filter fun n => !tapValid u n
  let s := good.foldl (fun s n => fireRegion n s) s
  let s := bad.foldl (fun s n => logU uLaunchTapInvalid noPort lid 0 n s) s
  let f : Fired := { isLocal := isLocal, gallery := g, lid := lid, target := target, firedNs := u.base.ns.toNat, tol := tol,
                     regions := regionBits fun n => good.contains n, tapInv := !bad.isEmpty,
                     hold := rdB u.base 0x02070 3, domb := domb, judged := false, waiting := 0,
                     late := u.base.ns.toNat - target, deadLogged := false }
  onUnit (onLaunch fun l => { l with fired := firedInsert f l.fired }) s

/-- The slots whose GO stands and whose target has come, in the order of R48. -/
def dueSlots (u : UnitState) : List (Nat × Slot) :=
  (u.launch.slots.foldl (fun (acc : List (Nat × Slot)) x => match x.2 with
    | some k => if k.st = .go ∧ k.target ≤ u.base.ns.toNat then acc ++ [(x.1, k)] else acc
    | none => acc) [])

/-- LAUNCH_FIRE: every launch whose target tick has come fires (R249). A slot that has fired awaits its record. -/
def launchFireOp (s : State) : State :=
  (dueSlots s.unit).foldl (fun s x =>
    fireOp false x.2.gallery x.2.lid x.2.target x.2.tol x.2.mask x.2.domb
      (onUnit (slotPut x.1 (some { x.2 with st := .await })) s)) s

/-- A launch fires in region n on the tick after NS + k_n (R240, R249): its GO stands, or its entry is staged. -/
def firesNext (u : UnitState) (n : Nat) : Bool :=
  let t := u.base.ns.toNat + (tapGet u n).lead + 1
  u.launch.slots.any (fun x => match x.2 with
    | some k => decide (k.st = .go) && k.target == t && regionFires u k.mask n && tapValid u n
    | none => false) ||
  u.launch.ttb.any fun x => decide (x.2.st = .staged) && x.2.kind == 1 && x.2.actAt == t &&
    decide ((x.2.param >>> 16) % 64 ≤ n) && decide (n ≤ (x.2.param >>> 22) % 64) && regionFires u (BitVec.allOnes 64) n && tapValid u n

/-- RLAUNCH_n is asserted for the one tick that lies k_n + 1 ticks before a firing tick (R249). -/
def launchLines (u : UnitState) : UnitState :=
  (List.range (regions u)).foldl (fun u n =>
    let t := tapGet u n
    let on := firesNext u n
    if t.rlaunch = on then u else uB (emit (.pin (.rlaunch n) (if on then 1 else 0))) (tapPut n { t with rlaunch := on } u)) u

/-- Status of a record by its lateness and tolerance (the table before R650; 0xFFFF by R232). -/
def lateStatus (late tol : Nat) : Nat := if late = 0 then 0 else if late ≤ tol ∨ tol = 0xFFFF then 1 else 2

/-- Write the record of a fired launch and free its slot. -/
def finishFired (f : Fired) (s : State) : State :=
  let st := lateStatus f.late f.tol
  let s := if f.isLocal then s else match slotFind s.unit f.gallery f.lid with
    | some (i, _) => onUnit (slotPut i none) s
    | none => s
  let s := if st = 1 then logU uLaunchLate noPort f.lid 0 0 s
    else if st = 2 ∧ ¬ f.deadLogged then logU uLaunchDeadline noPort f.lid 0 0 s else s
  pushRec (recBits f.lid f.gallery f.late st 0 f.isLocal f.hold f.domb f.tapInv) st s

/-- Region n was stopped at NS `t` (Region stops and lateness). -/
def stoppedAt (u : UnitState) (n t : Nat) : Bool :=
  decide (stopAt u n ≤ t) && ((tapGet u n).stopped || decide (t < resumeAt u n))

/-- Judge one launch (R650): the regions still stopped, and the largest lateness of those that resumed. -/
def judge (u : UnitState) (f : Fired) : Fired :=
  (List.range 64).foldl (fun f n =>
    if f.regions.getLsbD n && stoppedAt u n f.firedNs then
      if !(tapGet u n).stopped then { f with late := max f.late (resumeAt u n - f.target) }
      else { f with waiting := f.waiting ||| BitVec.ofNat 64 (2 ^ n) }
    else f) { f with judged := true }

/-- Replace or remove fired launches: each is kept changed, or finished, in order. -/
def settleFired (f : UnitState → Fired → Fired × Bool) (s : State) : State :=
  let all := s.unit.launch.fired
  let s := onUnit (onLaunch fun l => { l with fired := [] }) s
  all.foldl (fun s x =>
    let r := f s.unit x
    if r.2 then finishFired r.1 s else onUnit (onLaunch fun l => { l with fired := l.fired ++ [r.1] }) s) s

/-- LAUNCH_LATENESS_JUDGE: launches fired at least 2 ticks ago are judged (R650). -/
def judgeOp (s : State) : State :=
  settleFired (fun u f =>
    if !f.judged && decide (f.firedNs + 2 ≤ u.base.ns.toNat) then
      let f := judge u f
      (f, f.waiting == 0)
    else (f, false)) s

/-- LAUNCH_DEADLINE: a judged launch whose regions stay stopped beyond its tolerance (R650). -/
def deadlineOp (s : State) : State :=
  let due := s.unit.launch.fired.filter fun f =>
    f.judged && !f.deadLogged && f.tol != 0xFFFF && decide (f.target + f.tol + 1 ≤ s.unit.base.ns.toNat)
  let mark := fun (f : Fired) => if due.contains f then { f with deadLogged := true } else f
  let s := onUnit (onLaunch fun l => { l with fired := l.fired.map mark }) s
  due.foldl (fun s f => logU uLaunchDeadline noPort f.lid 0 0 s) s

/-- A region resumes: launches that wait on it alone write their records (R650). -/
def resumeLaunches (n : Nat) (s : State) : State :=
  settleFired (fun u f =>
    if f.judged && f.waiting.getLsbD n then
      let w := f.waiting &&& ~~~(BitVec.ofNat 64 (2 ^ n))
      ({ f with waiting := w, late := max f.late (u.base.ns.toNat - f.target) }, w == 0)
    else (f, false)) s

/-- A stop of region n turns out too brief to be recorded (R208): no launch waits on it, and none is late for it. -/
def unstopLaunches (n : Nat) (s : State) : State :=
  settleFired (fun _ f =>
    if f.judged && f.waiting.getLsbD n then
      let w := f.waiting &&& ~~~(BitVec.ofNat 64 (2 ^ n))
      ({ f with waiting := w }, w == 0)
    else (f, false)) s

/-- REGION_STOP_EDGE (R207, R208, R650). -/
def regionEdgeOp (n : Nat) (stopped : Bool) (s : State) : State :=
  let was := (tapGet s.unit n).stopped
  let brief := (reversed s.unit n).isSome
  let s := onUnit (regionStopOp n stopped) s
  if was && !stopped then (if brief then unstopLaunches n s else resumeLaunches n s) else s

/-- RELOAD: every slot, and every local launch whose record is not yet written, completes ABORTED (R29, R254). -/
def launchReload (s : State) : State :=
  let slots := s.unit.launch.slots
  let fired := s.unit.launch.fired.filter fun f => !f.isLocal
  let locals := s.unit.launch.fired.filter fun f => f.isLocal
  let s := onUnit (onLaunch fun l => { l with slots := [], fired := [] }) s
  let s := slots.foldl (fun s x => match x.2 with
    | some k =>
      let f := if k.st = .await then fired.find? fun f => f.gallery == k.gallery && f.lid == k.lid else none
      let late := (f.map (·.late)).getD 0
      pushRec (recBits k.lid k.gallery late 4 0 false ((f.map (·.hold)).getD false) k.domb ((f.map (·.tapInv)).getD false)) 4
        (onUnit (origNote k.gallery k.lid 3 (decide (k.st = .go ∨ k.st = .await)) 0) s)
    | none => s) s
  locals.foldl (fun s f => pushRec (recBits f.lid 0 f.late 4 0 true f.hold false f.tapInv) 4 s) s

/-- LAUNCH_TOKEN_REFILL (R500). -/
def tokenRefill (u : UnitState) : UnitState :=
  if u.launch.refillAt + rdF u.base 0x14050 8 24 ≤ u.base.tick then
    let n := rdF u.base 0x14074 0 8
    let u := onLaunch (fun l => { l with refillAt := u.base.tick }) u
    if n < rdF u.base 0x14050 0 8 then uB (wrF 0x14074 0 8 (n + 1)) u else u
  else u

/-! ## The timetable (R256 to R260) -/

/-- Entries of the configuration (R233). -/
def ttbCap (u : UnitState) : Nat := if (cfgOf u.base).w64 then 128 else 1024
/-- TTB.SEL. -/
def ttbSel (u : UnitState) : Nat := rdF u.base 0x09040 0 10

/-- The ENT registers, which show an entry (R263). -/
def entShow (e : TtbEnt) (b : Base) : Base :=
  wr 0x09058 (BitVec.ofNat 32 e.count) (wr 0x09054 (BitVec.ofNat 32 e.rep) (wr 0x09050 (BitVec.ofNat 32 e.param)
    (wr 0x0904C (BitVec.ofNat 32 (packBits [(1, if e.evt then 1 else 0), (8, e.target), (5, 0), (3, e.kind)]))
      (wr64 0x09044 (BitVec.ofNat 64 e.due) b))))

/-- An entry changes, and the ENT registers with it where SEL names it (R263). -/
def ttbPut (i : Nat) (e : TtbEnt) (u : UnitState) : UnitState :=
  let u := injWrite 2 i (onLaunch (fun l => { l with ttb := tabSet {} i e l.ttb }) u)
  if i = ttbSel u then uB (entShow e) u else u

/-- RESULT codes of ENT_STS. -/
def rDone : Nat := 1
def rLate : Nat := 2
def rBusy : Nat := 3
def rRefused : Nat := 4
def rCancelled : Nat := 5
def rAborted : Nat := 6

/-- The result with which an insertion is refused first (R257, R649), or 0. -/
def insertRefusal (u : UnitState) (i : Nat) (e : TtbEnt) : Nat :=
  if (ttbGet u i).st ≠ .free then rBusy
  else if ttbCap u ≤ i ∨ e.kind = 0 ∨ 5 < e.kind ∨ (e.rep ≠ 0 ∧ e.rep < 64) ∨
      (e.kind = 1 ∧ (e.param >>> 22) % 64 < (e.param >>> 16) % 64) then rRefused
  else if e.due < (nsNow u.base).toNat + 64 then rLate
  else if !u.base.valid then rRefused
  else 0

/-- Insert an entry (R257): the result of a refusal, or 0, and the machine after it. -/
def insertOp (i : Nat) (e : TtbEnt) (s : State) : Nat × State :=
  let r := insertRefusal s.unit i e
  if r = 0 then (0, onUnit (ttbPut i { e with st := .pending, result := 0, actAt := 0 }) s)
  else
    let s := if i < ttbCap s.unit then onUnit (fun u => ttbPut i { ttbGet u i with result := r } u) s else s
    (r, logU uTtbRefused noPort i 0 r s)

/-- The fields of an entry that the ENT registers give. -/
def entRegs (b : Base) : TtbEnt :=
  let c := rd b 0x0904C
  { due := (rd64 b 0x09044).toNat, kind := fld c 0 3, target := fld c 8 8, evt := bitOf c 16, param := (rd b 0x09050).toNat,
    rep := (rd b 0x09054).toNat, count := (rd b 0x09058).toNat }

/-- TTB_INSERT (R294). -/
def ttbInsertMsg (m : TtbInsert) (s : State) : State :=
  let e : TtbEnt := { due := (extend48 s.unit.base m.due).toNat, kind := m.kind.toNat, target := m.target.toNat,
                      param := m.param.toNat }
  let x := insertOp m.index.toNat e s
  onUnit (if x.1 = 0 then respDone m.req m.index.toNat 0x12 0 else respError m.req stRefused m.index.toNat 0x12 x.1) x.2

/-- Of the entries in a state, the first in order of DUE, then of index. -/
def ttbFirst (u : UnitState) (p : TtbEnt → Bool) : Option (Nat × TtbEnt) :=
  u.launch.ttb.foldl (fun best x =>
    if p x.2 then
      match best with
      | some y => if x.2.due < y.2.due then some x else best
      | none => some x
    else best) none

/-- The entry to be staged on this tick (R258). -/
def stageNext (u : UnitState) : Option (Nat × TtbEnt) :=
  if u.launch.stagedAt = some u.base.tick ∨ !u.base.valid then none
  else ttbFirst u fun e => decide (e.st = .pending) && decide (e.due ≤ u.base.ns.toNat + 64)

/-- TTB_STAGE: one entry per tick (R258). -/
def stageOp (u : UnitState) : UnitState :=
  match stageNext u with
  | some (i, e) =>
    let now := u.base.ns.toNat
    ttbPut i { e with st := .staged, actAt := if e.due ≤ now then now + 1 else e.due }
      (onLaunch (fun l => { l with stagedAt := some u.base.tick }) u)
  | none => u

/-- TTB.CMD.CANCEL (R259): a staged entry, or one that is staged on this tick, is not freed. -/
def ttbCancelOp (u : UnitState) : UnitState :=
  let i := ttbSel u
  let e := ttbGet u i
  let now := match stageNext u with
    | some (j, _) => j == i
    | none => false
  if decide (e.st = .pending) && !now then ttbPut i { e with st := .free, result := rCancelled } u else u

/-- TTB.CMD.LOAD and a write of SEL (R263): the ENT registers show the selected entry. -/
def ttbLoadOp (u : UnitState) : UnitState := uB (entShow (ttbGet u (ttbSel u))) u

/-- A write of an ENT register (R263): the selected entry takes it. -/
def ttbEntOp (u : UnitState) : UnitState :=
  let e := ttbGet u (ttbSel u)
  ttbPut (ttbSel u) { entRegs u.base with st := e.st, result := e.result, actAt := e.actAt } u

/-- A timetable entry arms a Drip channel (R224, R260): the result of a refusal, or 0, and the machine after it. A register
write of ARM on the same tick leaves the entry BUSY. -/
def ttbDrip (i k : Nat) (s : State) : Nat × State :=
  if (dripGet s.unit k).regArm = some s.unit.base.tick then (rBusy, s)
  else
    let r := dripArmOp k s
    if r.1 then (0, onUnit (fun u => dripPut k { dripGet u k with ttbArm := some (u.base.tick, i) } u) r.2) else (rRefused, r.2)

/-- The action of entry i (R256, R260): the result of a refusal, or 0, and the machine after it. -/
def ttbAction (i : Nat) (e : TtbEnt) (s : State) : Nat × State :=
  let u := s.unit
  if e.kind = 1 then
    let first := (e.param >>> 16) % 64
    let last := (e.param >>> 22) % 64
    (0, fireOp true 0 (e.param % 65536) e.due Config.localTol
      (regionBits fun n => decide (first ≤ n) && decide (n ≤ last)) false s)
  else if e.kind = 2 then ttbDrip i e.target s
  else if e.kind = 3 then (0, onUnit (dripStopOp e.target) s)
  else if e.kind = 4 then
    let a := capCtlAddr e.target
    if capEnabled u e.target then
      (0, onUnit (uB fun b => wrB a 28 true (wr64 (a + 0x10) (BitVec.ofNat 64 (e.due + e.param))
        (wr64 (a + 0x08) (BitVec.ofNat 64 e.due) b))) s)
    else (rRefused, s)
  else (0, if e.target < 16 then onUnit (uB (occur (32 + e.target))) s else s)

/-- One staged entry acts, then repeats or frees (R256, R258 to R260). -/
def ttbAct1 (i : Nat) (e : TtbEnt) (s : State) : State :=
  let late := decide (e.due < e.actAt)
  let r := ttbAction i e s
  let s := r.2
  let s := if e.evt then onUnit (uB (occur (32 + i % 16))) s else s
  let s := onUnit (uB fun b => pgEvt 0x09 0 (if late then pgEvt 0x09 1 (inc 0x09068 b) else b)) s
  let s := if late then logU uTtbLate noPort i 0 0 s else s
  let res := if r.1 ≠ 0 then r.1 else if late then rLate else rDone
  let spill := e.rep = 0 ∨ e.count = 1
  onUnit (ttbPut i (if spill then { e with st := .free, result := res, count := 0 }
    else { e with st := .pending, result := res, due := e.due + e.rep, count := e.count - 1 })) s

/-- TTB_ACT: staged entries whose tick has come act in index order (R258). -/
def ttbActOp (s : State) : State :=
  let due := s.unit.launch.ttb.filter fun x => decide (x.2.st = .staged) && decide (x.2.actAt ≤ s.unit.base.ns.toNat)
  due.foldl (fun s x => ttbAct1 x.1 x.2 s) s

/-- RELOAD frees every entry with result ABORTED (R260). -/
def ttbReload (u : UnitState) : UnitState :=
  u.launch.ttb.foldl (fun u x => if x.2.st = .free then u else ttbPut x.1 { x.2 with st := .free, result := rAborted } u) u

/-! ## The meanings -/

/-- LAUNCH_ORIG_START (R235, R236, R293). -/
def execLaunchOrigStart (msg : Option LchStart) (s : State) : Host.Outcome State Fault Refusal :=
  match msg with
  | none => .next (ifUnit (fun s => (origStart (origRegs s.unit.base) s).2) s)
  | some m => .next (request m.req 0x10 m.lid.toNat (lchStartMsg m) s)

/-- LAUNCH_ORIG_CANCEL (R252, R293). -/
def execLaunchOrigCancel (msg : Option LchCancel) (s : State) : Host.Outcome State Fault Refusal :=
  match msg with
  | none => .next (ifUnit (fun s => (cancelLaunch (rdF s.unit.base 0x08090 16 12) (rdF s.unit.base 0x08090 0 16) s).2) s)
  | some m => .next (request m.req 0x11 m.lid.toNat (lchCancelMsg m) s)

/-- LAUNCH_REQ_TIMEOUT (R236). -/
def execLaunchReqTimeout (g : BitVec 12) (lid : BitVec 16) (s : State) : Host.Outcome State Fault Refusal :=
  .next (ifUnit (reqTimeoutOp g.toNat lid.toNat) s)

/-- ARM_BROADCAST_UNIT (R239). -/
def execArmBroadcastUnit (rx : Rx) (a : Arm) (s : State) : Host.Outcome State Fault Refusal :=
  let r := rxArm rx (permDown rx.port) 1 false a s
  match rx.port with
  | .unit d => .next (if r.1 && domUsable r.2.unit d then armBroadcastOp a r.2 else r.2)
  | .dist _ => .next r.2

/-- GO_RX (R246, R248). -/
def execGoRx (rx : Rx) (g : Go) (s : State) : Host.Outcome State Fault Refusal :=
  let r := rxSeq rx (permDown rx.port) [(0x09, goBody g)] s
  match rx.port with
  | .unit d => .next (if r.1 && domUsable r.2.unit d then goOp d g r.2 else r.2)
  | .dist _ => .next r.2

/-- ABORT_RX_UNIT (R246, R247, R487). -/
def execAbortRxUnit (rx : Rx) (a : Abort) (s : State) : Host.Outcome State Fault Refusal :=
  let r := rxSeq rx (permDown rx.port) [(0x0A, abortBody a)] s
  match rx.port with
  | .unit d => .next (if r.1 && domUsable r.2.unit d then abortOp a.gallery.toNat a.lid.toNat a.reason.toNat r.2 else r.2)
  | .dist _ => .next r.2

/-- LAUNCH_GUARD_EXPIRY (R236, R247). -/
def execLaunchGuardExpiry (g : BitVec 12) (lid : BitVec 16) (s : State) : Host.Outcome State Fault Refusal :=
  .next (ifUnit (guardOp g.toNat lid.toNat) s)

/-- LAUNCH_FIRE (R249, R251). -/
def execLaunchFire (s : State) : Host.Outcome State Fault Refusal := .next (ifUnit launchFireOp s)

/-- LAUNCH_LATENESS_JUDGE (R650). -/
def execLaunchLatenessJudge (s : State) : Host.Outcome State Fault Refusal := .next (ifUnit judgeOp s)

/-- LAUNCH_DEADLINE (R650). -/
def execLaunchDeadline (s : State) : Host.Outcome State Fault Refusal := .next (ifUnit deadlineOp s)

/-- REGION_STOP_EDGE (R207, R650). -/
def execRegionStopEdge (region : BitVec 6) (stopped : Bool) (s : State) : Host.Outcome State Fault Refusal :=
  .next (ifUnit (regionEdgeOp region.toNat stopped) s)

/-- LCH_REC_READ (R261). -/
def execLchRecRead (ch : BitVec 3) (s : State) : Host.Outcome State Fault Refusal :=
  .next (ifUnit (fun s =>
    let r := recReadOp ch.toNat s.unit
    answer .unit ch r.1 { s with unit := r.2 }) s)

/-- LAUNCH_TOKEN_REFILL (R500). -/
def execLaunchTokenRefill (s : State) : Host.Outcome State Fault Refusal := .next (ifUnit (onUnit tokenRefill) s)

/-- TTB_INSERT_CMD (R257, R294). -/
def execTtbInsertCmd (msg : Option TtbInsert) (s : State) : Host.Outcome State Fault Refusal :=
  match msg with
  | none => .next (ifUnit (fun s => (insertOp (ttbSel s.unit) (entRegs s.unit.base) s).2) s)
  | some m => .next (request m.req 0x12 m.index.toNat (ttbInsertMsg m) s)

/-- TTB_CANCEL_CMD (R259). -/
def execTtbCancelCmd (s : State) : Host.Outcome State Fault Refusal := .next (ifUnit (onUnit ttbCancelOp) s)

/-- TTB_LOAD_CMD (R263). -/
def execTtbLoadCmd (s : State) : Host.Outcome State Fault Refusal := .next (ifUnit (onUnit ttbLoadOp) s)

/-- TTB_STAGE (R258). -/
def execTtbStage (s : State) : Host.Outcome State Fault Refusal := .next (ifUnitRuns (onUnit stageOp) s)

/-- TTB_ACT (R256, R258, R259). -/
def execTtbAct (s : State) : Host.Outcome State Fault Refusal := .next (ifUnitRuns ttbActOp s)

end Sys2Proof.Machine
end

