-- ==== Sys2Proof/Machine/Barrier.lean ====
section
/-! DEFINITION. Barrier rounds and flow counters (R315 to R336, R353 to R355). -/

namespace Sys2Proof.Machine

/-! ## Barriers -/

/-- Barrier contexts and flow counter pairs of the configuration (R315). -/
def barCap (u : UnitState) : Nat := if (cfgOf u.base).w64 then 16 else 256
def flowCap (u : UnitState) : Nat := if (cfgOf u.base).w64 then 64 else 1024

def barGet (u : UnitState) (b : Nat) : Barrier := tabGet {} b u.bars
def barPut (b : Nat) (x : Barrier) (u : UnitState) : UnitState := { u with bars := tabSet {} b x u.bars }
def memGet (x : Barrier) (core : Nat) : BarMem := tabGet {} core x.mems

/-- Per-barrier registers (R353). -/
def barCtlAddr (b : Nat) : Nat := objAddr b 0x0C044
def barHall (u : UnitState) (b : Nat) : Bool := rdB u.base (barCtlAddr b) 1
def barEvt (u : UnitState) (b : Nat) : Bool := rdB u.base (barCtlAddr b) 2
def barGallery (u : UnitState) (b : Nat) : Nat := rdF u.base (barCtlAddr b) 4 12
def barSeqAddr (b : Nat) : Nat := objAddr b 0x0C05C

/-- A core is in the member set (R317). -/
def barMember (u : UnitState) (b core : Nat) : Bool :=
  decide (core < (cfgOf u.base).cores) && rdB u.base (objAddr b (0x0C100 + 4 * (core / 32))) (core % 32)

/-- Size of the member set. -/
def barSize (u : UnitState) (b : Nat) : Nat := ((List.range (cfgOf u.base).cores).filter fun c => barMember u b c).length

/-- CUR_COUNT and NEXT_COUNT. -/
def barCur (x : Barrier) : Nat := (x.mems.filter fun m => m.2.cur.isSome).length
def barNext (x : Barrier) : Nat := (x.mems.filter fun m => m.2.next.isSome).length

/-- Participation code of a member (R318). -/
def memCode (m : BarMem) : Nat := if m.held.isSome then 3 else if m.next.isSome then 2 else if m.cur.isSome then 1 else 0

/-- One RELEASE of a barrier (R324, R326). -/
def releaseBar (b core tag status : Nat) (lost : Bool) (round : BitVec 32) (u : UnitState) : UnitState :=
  pushResp 0x22 core tag status (releaseOps b 2 0 (if lost then 1 else 0) (nsLo u * 2 ^ 32 + round.toNat)) u

/-- Complete the entries that `sel` picks, in ascending core order. -/
def releaseMems (b status : Nat) (lost : Bool) (sel : BarMem → Option BarEnt) (x : Barrier) (u : UnitState) : UnitState :=
  x.mems.foldl (fun u m => match sel m.2 with
    | some e => releaseBar b m.1 e.tag status lost x.round u
    | none => u) u

/-- Complete every entry of a barrier, in the order of R329, and set every member to IDLE. -/
def endEntries (b status : Nat) (u : UnitState) : UnitState :=
  let x := barGet u b
  let u := releaseMems b status false (·.cur) x u
  let u := releaseMems b status false (·.next) x u
  let u := releaseMems b status false (·.held) x u
  barPut b { barGet u b with mems := [], again := false } u

/-- Members after a completion (R322): IN to IDLE, AHEAD to IN, HELD to AHEAD. -/
def shiftMems (x : Tab BarMem) : Tab BarMem :=
  (x.map fun m => (m.1, { cur := m.2.next, next := m.2.held, held := none : BarMem })).filter fun m => m.2 != {}

/-! ## Flow counters -/

def flowGet (u : UnitState) (n : Nat) : FlowPair := tabGet {} n u.flows
def flowPut (n : Nat) (x : FlowPair) (u : UnitState) : UnitState := { u with flows := tabSet {} n x u.flows }
def flowCtlAddr (n : Nat) : Nat := objAddr n 0x0D044
def flowFlagAddr (n : Nat) : Nat := objAddr n 0x0D064

/-- P − C, signed (R332). -/
def flowDiff (x : FlowPair) : Int := (x.p - x.c).toInt

/-- A flag of a pair becomes set: logged, counted, raised and notified once (R333, R335, R355). -/
def flowFlag (n bit : Nat) (h : Hap) (diff : Int) (s : State) : State :=
  if rdB s.unit.base (flowFlagAddr n) bit then s
  else
    let c := rd s.unit.base (flowCtlAddr n)
    let s := onUnit (uB fun b => pgEvt 0x0D 0 (inc 0x0D070 (wrB (flowFlagAddr n) bit true b))) s
    let s := logU h noPort n 0 0 s
    let s := if bitOf c 0 && bitOf c 3 then onUnit (uB (occur 74)) s else s
    if bitOf c 0 && bitOf c 1 then
      onUnit (pushResp 0x22 (fld c 16 10) 0 stOk
        (releaseOps n 3 0 0 (2 ^ (63 - bit) + wrapBits 48 diff))) s
    else s

/-- Check the bounds of a pair after an advance (R333). -/
def flowCheck (n : Nat) (s : State) : State :=
  let d := flowDiff (flowGet s.unit n)
  let s := if ((rd s.unit.base (objAddr n 0x0D048)).toNat : Int) < d then flowFlag n 0 uFlwOver d s else s
  if d < 0 then flowFlag n 1 uFlwUnder d s else s

/-- An advance (R332, R333, R336). -/
def flowAdvance (r : Req) (op : Nat) (prod : Bool) (n amount : Nat) (s : State) : State :=
  let u := s.unit
  let x := flowGet u n
  if flowCap u ≤ n then onUnit (respError r stBadObj n op 0) s
  else if x.failed then onUnit (respError r stObjFailed n op 0) s
  else
    let a := BitVec.ofNat 48 amount
    let s := onUnit (flowPut n (if prod then { x with p := x.p + a } else { x with c := x.c + a })) s
    onUnit (respAck r n op 0) (flowCheck n s)

/-- The check of one pair on an OK completion of its barrier (R335). -/
def flowAlign1 (b n : Nat) (s : State) : State :=
  let u := s.unit
  let c := rd u.base (flowCtlAddr n)
  let x := flowGet u n
  let chk := (rd u.base (objAddr n 0x0D04C)).toNat
  let d := flowDiff x - (chk : Int)
  if bitOf c 0 && bitOf c 2 && fld c 8 8 == b && !x.failed && d != 0 then
    let s := onUnit (fun u => uB (wr (objAddr n 0x0D06C) (wordOfInt d)) (flowPut n { x with c := x.p - BitVec.ofNat 48 chk } u)) s
    let s := onUnit (uB (wrB (flowFlagAddr n) 2 false)) s
    flowFlag n 2 uFlwMisalign (flowDiff x) s
  else s

/-- Every pair that a barrier aligns (R335). -/
def flowAlign (b : Nat) (s : State) : State := (List.range (flowCap s.unit)).foldl (fun s n => flowAlign1 b n s) s

/-! ## Completion of a round (R322, R326) -/

/-- A round completes: its entries are released and the next round becomes current. -/
def completeRound (b status : Nat) (lost : Bool) (s : State) : State :=
  let x := { barGet s.unit b with round := (barGet s.unit b).round + 1 }
  let s := onUnit (releaseMems b status lost (·.cur) x) s
  let mems := shiftMems x.mems
  let y := { x with mems := mems, sense := !x.sense, st := .opened, roundAt := s.unit.base.tick }
  let s := onUnit (barPut b { y with again := decide (barCur y = y.expect) }) s
  if status = stOk then flowAlign b s else s

/-- The result of a hall contribution settles the round of a barrier in HALL_WAIT (R326): `cmbStatus` is 0 OK,
1 MEMBER_LOST, 2 ABORTED, 3 LOCAL_ABORT. -/
def hallSettle (b cmbStatus : Nat) (s : State) : State :=
  if (barGet s.unit b).st = .hallWait then
    if cmbStatus = 0 then completeRound b stOk false s
    else if cmbStatus = 1 then logU uBarMemberLost noPort b 0 0 (completeRound b stOk true s)
    else logU uBarAborted noPort b 0 0 (completeRound b stAborted false s)
  else s

/-! ## The meanings of the flow counter rows -/

/-- FLW_PROD (R332, R333). -/
def execFlwProd (r : Req) (pair : BitVec 16) (amount : BitVec 32) (s : State) : Host.Outcome State Fault Refusal :=
  .next (request r 0x0A pair.toNat (flowAdvance r 0x0A true pair.toNat amount.toNat) s)

/-- FLW_CONS (R332, R333). -/
def execFlwCons (r : Req) (pair : BitVec 16) (amount : BitVec 32) (s : State) : Host.Outcome State Fault Refusal :=
  .next (request r 0x0B pair.toNat (flowAdvance r 0x0B false pair.toNat amount.toNat) s)

/-- FLW.SEL. -/
def flowSel (u : UnitState) : Nat := rdF u.base 0x0D040 0 10

/-- FLW.CMD.LOAD_VIEW (R354): one tick's state of the selected pair. -/
def flowView (u : UnitState) : UnitState :=
  let n := flowSel u
  let x := flowGet u n
  uB (fun b => wrB 0x0D068 0 x.failed (wr64 0x0D05C (x.c.setWidth 64) (wr64 0x0D054 (x.p.setWidth 64) b))) u

/-- FLW.CMD.RESET (R354): P, C, FLAGS and ALIGN_DIFF of the selected pair. -/
def flowClear (n : Nat) (u : UnitState) : UnitState :=
  uB (fun b => wr (objAddr n 0x0D06C) 0 (wr (flowFlagAddr n) 0 b)) (flowPut n { flowGet u n with p := 0, c := 0 } u)

/-- FLW_LOAD_VIEW (R354). -/
def execFlwLoadView (s : State) : Host.Outcome State Fault Refusal := .next (ifUnitRuns (onUnit flowView) s)

/-- FLW_RESET (R354). -/
def execFlwReset (s : State) : Host.Outcome State Fault Refusal :=
  .next (ifUnitRuns (onUnit fun u => flowClear (flowSel u) u) s)

end Sys2Proof.Machine
end

