-- ==== Sys2Proof/Machine/Combine.lean ====
section
/-! DEFINITION. The combining client of the unit: staging, posting, copies, commit and LOCAL_ABORT (R363 to R365, R376,
R378, R380 to R383, R398). -/

namespace Sys2Proof.Machine

/-! ## Frames (R71) -/

/-- Class of a combining frame by its operation (R80). -/
def cmbClass (op : Nat) : Nat := if op = opBarrier then 5 else 6

/-- Headers of CMB_UP and CMB_DOWN, and the bodies of COMMIT and ACKCMB. -/
def cmbUpHdr (g ep gseq opcode len : Nat) (repro : Bool) : BitVec 64 :=
  bodyOf [(12, g), (4, ep), (16, gseq), (8, opcode), (7, len), (1, if repro then 1 else 0)]
def cmbDownHdr (g ep gseq op len : Nat) (repro : Bool) (status : Nat) : BitVec 64 :=
  bodyOf [(12, g), (4, ep), (16, gseq), (8, op), (7, len), (1, if repro then 1 else 0), (4, status)]
def commitBody (g ep gseq : Nat) : BitVec 64 := bodyOf [(12, g), (4, ep), (16, gseq)]
def ackcmbBody (g ep gseq : Nat) (good : Bool) : BitVec 64 :=
  bodyOf [(12, g), (4, ep), (16, gseq), (1, if good then 1 else 0)]

/-- Send an ACKCMB. -/
def sendAckcmb (p : PortRef) (delay op g ep gseq : Nat) (good : Bool) (s : State) : State :=
  sendSeq p delay (cmbClass op) 0x0F (ackcmbBody g ep gseq good) [] s

/-- Receive a CMB_DOWN group, a CMB_UP group, a COMMIT. -/
def rxCmbDown (rx : Rx) (k : CmbKey) (op : Nat) (repro : Bool) (status : Nat) (pl : List (BitVec 64)) (s : State) : Bool × State :=
  rxSeq rx (permDown rx.port)
    ((0x0D, cmbDownHdr k.gallery.toNat k.epochLo.toNat k.gseq.toNat op pl.length repro status) :: pl.map fun b => (0x2D, b)) s
def rxCmbUp (rx : Rx) (k : CmbKey) (op : Nat) (repro : Bool) (pl : List (BitVec 64)) (s : State) : Bool × State :=
  rxSeq rx (permUp rx.port)
    ((0x0C, cmbUpHdr k.gallery.toNat k.epochLo.toNat k.gseq.toNat op pl.length repro) :: pl.map fun b => (0x2C, b)) s
def rxCommit (rx : Rx) (k : CmbKey) (s : State) : Bool × State :=
  rxSeq rx (permDown rx.port) [(0x0E, commitBody k.gallery.toNat k.epochLo.toNat k.gseq.toNat)] s

/-! ## Buffers and operations -/

def onClient (f : Client → Client) (u : UnitState) : UnitState := { u with cmb := f u.cmb }

/-- Staging and result buffers of the configuration (R359). -/
def bufCap (u : UnitState) : Nat := if (cfgOf u.base).w64 then 32 else 256
def bufGet (u : UnitState) (b : Nat) : CmbBuf := tabGet {} b u.cmb.bufs
def bufPut (b : Nat) (x : CmbBuf) (u : UnitState) : UnitState := onClient (fun c => { c with bufs := tabSet {} b x c.bufs }) u

def galStale (u : UnitState) (g : Nat) : Bool := tabGet false g u.cmb.stale
def setStale (g : Nat) (v : Bool) (u : UnitState) : UnitState :=
  let u' := onClient (fun c => { c with stale := tabSet false g v c.stale }) u
  if v && !galStale u g then uB (pgEvt 0x0F 2) u' else u'

/-- An open operation. -/
def opFind (u : UnitState) (g : Nat) (gseq : BitVec 16) : Option CmbOp :=
  u.cmb.ops.find? fun o => o.gallery == g && o.gseq == gseq
def opPut (x : CmbOp) (u : UnitState) : UnitState :=
  onClient (fun c => { c with ops := c.ops.map fun o => if o.gallery = x.gallery ∧ o.gseq = x.gseq then x else o }) u
def opDrop (g : Nat) (gseq : BitVec 16) (u : UnitState) : UnitState :=
  onClient (fun c => { c with ops := c.ops.filter fun o => !(o.gallery == g && o.gseq == gseq) }) u
/-- Open operations of a gallery. -/
def galOps (u : UnitState) (g : Nat) : List CmbOp := u.cmb.ops.filter fun o => o.gallery == g

/-! ## Staging and posting (R363 to R365) -/

/-- CMB_DATA (R363). -/
def cmbDataOp (r : Req) (b chunk : Nat) (data : BitVec 64) (u : UnitState) : UnitState :=
  let x := bufGet u b
  if bufCap u ≤ b then respError r stBadObj b 0x0C 0 u
  else if x.st = .posted then respError r stRefused b 0x0C 7 u
  else
    let mask := if x.st = .staging then x.mask else 0
    let x' := { x with st := .staging, mask := mask ||| BitVec.ofNat 8 (2 ^ chunk), data := x.data.set chunk data }
    respAck r b 0x0C 0 (injWrite 3 b (bufPut b x' u))

/-- A post, from a core or from a hall barrier. -/
structure PostReq where
  gallery : Nat
  gseq : BitVec 16
  op : Nat
  chunks : Nat
  buf : Nat
  sigSem : Nat
  sigEn : Bool
  notify : Bool
  core : Nat
  tag : Nat
  bar : Option Nat
  deriving DecidableEq, Repr

/-- The cause for which a post is refused first (R364, R649), or 0. CMB_OP[5:0] names the operation: a reserved one has no chunk
count of its own, and BARRIER needs no buffer. -/
def postRefusal (u : UnitState) (p : PostReq) : Nat :=
  let x := bufGet u p.buf
  let op := p.op % 64
  let unwritten := (List.range p.chunks).any fun i => !x.mask.getLsbD i
  if !u.base.valid then 1
  else if !galPermitted u.base p.gallery then 2
  else if !galJoined u p.gallery then 3
  else if galStale u p.gallery then 4
  else if 4 ≤ (p.gseq - BitVec.ofNat 16 (galBase u p.gallery)).toNat ∨ (opFind u p.gallery p.gseq).isSome then 5
  else if (opDefined op && p.chunks != opChunks op) || (op != opBarrier && unwritten) then 6
  else if op ≠ opBarrier ∧ x.st ≠ .staging then 7
  else if 64 ≤ p.op ∨ opDefined op = false then 8
  else 0

/-- Send the contribution of an accepted post on every usable port (R365). -/
def sendCmbUp (p : PostReq) (s : State) : State :=
  let pl := (bufGet s.unit p.buf).data.take p.chunks
  let hdr := cmbUpHdr p.gallery (galEpoch s.unit p.gallery % 16) p.gseq.toNat p.op p.chunks true
  [Dom.a, Dom.b].foldl (fun s d =>
    if domUsable s.unit d then sendSeq (.unit d) 16 (cmbClass p.op) 0x0C hdr pl s else s) s

/-- Post an operation: the cause of a refusal, or 0, and the machine after it (R364, R365). -/
def postOp (p : PostReq) (s : State) : Nat × State :=
  let c := postRefusal s.unit p
  if c ≠ 0 then (c, logU uCmbRefused noPort p.gallery 0 c (onUnit (uB (inc 0x0F06C)) s))
  else
    let o : CmbOp := { gallery := p.gallery, gseq := p.gseq, op := p.op, buf := p.buf, sigSem := p.sigSem, sigEn := p.sigEn,
                       notify := p.notify, core := p.core, tag := p.tag, bar := p.bar, postedAt := s.unit.base.tick,
                       ctx := ctxEpoch s.unit, copyA := none, copyB := none, commitA := false, commitB := false,
                       ready := none, abort := false, bufOwned := decide (p.op ≠ opBarrier) }
    let s := sendCmbUp p s
    (0, onUnit (fun u =>
      let x := bufGet u p.buf
      let u := if p.op = opBarrier then u else bufPut p.buf { x with st := .posted, gallery := p.gallery, gseq := p.gseq,
                                                                     op := p.op, status := 0, repro := false, domb := false } u
      uB (inc 0x0F060) (onClient (fun c => { c with ops := c.ops ++ [o] }) u)) s)

/-- CMB_POST (R364, R365). -/
def cmbPostOp (r : Req) (p : PostReq) (s : State) : State :=
  if p.op % 64 ≠ opBarrier ∧ bufCap s.unit ≤ p.buf then onUnit (respError r stBadObj p.buf 0x0D 0) s
  else
    let x := postOp p s
    onUnit (if x.1 = 0 then respAck r p.buf 0x0D 0 else respError r stRefused p.buf 0x0D x.1) x.2

/-- CMB_READ (R364). -/
def cmbReadOp (r : Req) (b chunk : Nat) (u : UnitState) : UnitState :=
  let u := injTouch 3 b u
  let x := bufGet u b
  if bufCap u ≤ b then respError r stBadObj b 0x0E 0 u
  else if x.st ≠ .done then respError r stRefused b 0x0E 7 u
  else if 2 ≤ x.status then respError r stAborted b 0x0E 0 u
  else pushResp 0x21 r.reply.toNat r.tag.toNat stOk (valueOps b 0 0 (x.data.getD chunk 0).toNat) u

/-! ## Commit (R376, R380, R381) -/

/-- RELEASE of CLASS 4 (R381), with the context epoch of the post (R383). -/
def releaseCmb (o : CmbOp) (cst : Nat) (repro domb : Bool) (u : UnitState) : UnitState :=
  let data := packBits [(16, o.gseq.toNat), (12, o.gallery), (2, cst), (1, if repro then 1 else 0), (1, if domb then 1 else 0),
                        (32, nsLo u)]
  if (cfgOf u.base).cores ≤ o.core then uB (inc 0x0B050) u
  else
    let m : OutMsg := { bits := respBits 0x22 o.ctx o.core o.tag (if 2 ≤ cst then stAborted else stOk)
                                  (releaseOps o.buf 4 0 0 data), reserve := true }
    onSems (fun q => { q with outQ := q.outQ ++ [m] }) u

/-- Copy a result's chunks into a buffer. -/
def copyChunks : List (BitVec 64) → List (BitVec 64) → List (BitVec 64)
  | x :: t, _ :: d => x :: copyChunks t d
  | [], d => d
  | _ :: _, [] => []

/-- The buffer of a completed operation is DONE (R381). -/
def bufDone (o : CmbOp) (cst : Nat) (repro domb : Bool) (pl : List (BitVec 64)) (u : UnitState) : UnitState :=
  if o.bufOwned then
    let x := bufGet u o.buf
    injWrite 3 o.buf (bufPut o.buf { x with st := .done, status := cst, repro := repro, domb := domb, data := copyChunks pl x.data } u)
  else u

/-- Counters and page events of a completion (R398, R575). -/
def countCmb (cst : Nat) (b : Base) : Base :=
  if cst ≤ 1 then pgEvt 0x0F 0 (inc 0x0F064 b) else pgEvt 0x0F 1 (inc 0x0F068 b)

/-- What every completion does: buffer, signal, RELEASE and the round of a hall barrier (R381, R326). -/
def completeOp (o : CmbOp) (cst : Nat) (repro domb : Bool) (pl : List (BitVec 64)) (s : State) : State :=
  let s := onUnit (fun u => uB (countCmb cst) (bufDone o cst repro domb pl (opDrop o.gallery o.gseq u))) s
  let s := if o.sigEn && !(cfgOf s.unit.base).w64 && !semRetired s.unit o.sigSem then
      semSignal o.sigSem 1 0xFFFF false true s else s
  let s := if o.notify then onUnit (releaseCmb o cst repro domb) s else s
  match o.bar with
  | some b => hallSettle b cst s
  | none => s

/-- BASE advances and the gallery epoch follows the result (R376, R381). -/
def advanceGal (g : Nat) (c : CmbCopy) (b : Base) : Base :=
  let a := galStateAddr g
  let b := wrF a 0 16 (rdF b a 0 16 + 1) b
  if 1 ≤ c.status ∧ c.epochLo = rdF b a 16 16 % 16 then wrF a 16 16 (rdF b a 16 16 + 1) b else b

/-- A completion may take place: it sends no RELEASE, or the reserve has room (R274). -/
def mayComplete (u : UnitState) (o : CmbOp) : Bool := !o.notify || reserveRoom u 1

/-- The open operation of a gallery that is first in GSEQ order. -/
def firstOpen (u : UnitState) (g : Nat) : Option CmbOp :=
  let base := BitVec.ofNat 16 (galBase u g)
  (galOps u g).foldl (fun best o => match best with
    | some x => if (o.gseq - base).toNat < (x.gseq - base).toNat then some o else best
    | none => some o) none

/-- The aborted operation of a gallery that completes next (R382, R383): one that has an earlier open operation before it
completes after that one, so that every operation completes in its place (R45, R47). -/
def nextAbort (u : UnitState) (g : Nat) : Option CmbOp := (firstOpen u g).filter fun o => o.abort

/-- The operation at BASE with the copy that commits it, where its COMMIT is held and it does not abort (R380). -/
def nextCommit (u : UnitState) (g : Nat) : Option (CmbOp × Bool × CmbCopy) :=
  match opFind u g (BitVec.ofNat 16 (galBase u g)) with
  | some o =>
    if o.abort then none
    else match o.ready with
      | some db => (if db then o.copyB else o.copyA).map fun c => (o, db, c)
      | none => none
  | none => none

/-- One completion of a gallery, if any can take place now. -/
def settleStep (g : Nat) (s : State) : Option State :=
  match nextCommit s.unit g with
  | some (o, db, c) =>
    if mayComplete s.unit o then
      some (completeOp o c.status c.repro db c.payload (onUnit (uB (advanceGal g c)) s))
    else none
  | none =>
    match nextAbort s.unit g with
    | some o => if mayComplete s.unit o then some (completeOp o 3 false false [] s) else none
    | none => none

/-- Completions of a gallery in order, at most four of them being open (R359). -/
def settleGal : Nat → Nat → State → State
  | 0, _, s => s
  | k + 1, g, s => match settleStep g s with
    | some s' => settleGal k g s'
    | none => s

def settle (g : Nat) (s : State) : State := settleGal 4 g s

/-- Galleries with an open operation, each once. -/
def openGals (u : UnitState) : List Nat :=
  u.cmb.ops.foldl (fun l o => if l.contains o.gallery then l else l ++ [o.gallery]) []

def settleAll (s : State) : State := (openGals s.unit).foldl (fun s g => settle g s) s

/-- An operation is ready once a domain's COMMIT and copy are both held; the first such domain counts (R380). -/
def opReady (o : CmbOp) : CmbOp :=
  if o.ready.isSome then o
  else if o.commitA && o.copyA.isSome then { o with ready := some false }
  else if o.commitB && o.copyB.isSome then { o with ready := some true }
  else o

/-- A complete copy of a result arrives at the unit (R378, R380). -/
def unitDownOp (d : Dom) (k : CmbKey) (op : Nat) (c : CmbCopy) (s : State) : State :=
  let g := k.gallery.toNat
  let s := sendAckcmb (.unit d) 8 op g k.epochLo.toNat k.gseq.toNat true s
  match opFind s.unit g k.gseq with
  | some o =>
    let o' := match d with
      | .a => if o.copyA.isSome then o else { o with copyA := some c }
      | .b => if o.copyB.isSome then o else { o with copyB := some c }
    settle g (onUnit (opPut (opReady o')) s)
  | none => s

/-- A COMMIT arrives at the unit (R378, R380). -/
def unitCommitOp (d : Dom) (k : CmbKey) (s : State) : State :=
  let g := k.gallery.toNat
  match opFind s.unit g k.gseq with
  | some o =>
    let held := match d with
      | .a => o.copyA.isSome
      | .b => o.copyB.isSome
    let o' := match d with
      | .a => { o with commitA := true }
      | .b => { o with commitB := true }
    let s := onUnit (opPut (opReady o')) s
    if held then settle g s
    else sendAckcmb (.unit d) 8 o.op g k.epochLo.toNat k.gseq.toNat false (onUnit (uB (inc 0x0F070)) s)
  | none => s

/-! ## Deadline, clear and GAL_STATE (R382, R383, R398) -/

/-- The operation's commit takes place as soon as the reserve has room (R274). -/
def committing (u : UnitState) (o : CmbOp) : Bool := match nextCommit u o.gallery with
  | some x => x.1.gseq == o.gseq
  | none => false

/-- The oldest overdue operation of a gallery in GSEQ order, by its distance from BASE. A COMMIT that is held behind an earlier
operation exempts none (R382). -/
def overdue (u : UnitState) (g : Nat) : Option Nat :=
  let base := BitVec.ofNat 16 (galBase u g)
  let lim := (rd u.base 0x0F040).toNat
  (galOps u g).foldl (fun best o =>
    if !o.abort && !committing u o && decide (o.postedAt + lim ≤ u.base.tick) then
      let n := (o.gseq - base).toNat
      match best with
      | some m => some (min m n)
      | none => some n
    else best) none

/-- The unit's deadline of a gallery (R382). -/
def unitDeadlineOp (g : Nat) (s : State) : State :=
  match overdue s.unit g with
  | some n =>
    let base := BitVec.ofNat 16 (galBase s.unit g)
    let mark := fun (o : CmbOp) => if o.gallery = g ∧ n ≤ (o.gseq - base).toNat then { o with abort := true } else o
    let s := onUnit (fun u => setStale g true (onClient (fun c => { c with ops := c.ops.map mark }) u)) s
    settle g (logU uCmbDeadline noPort g 0 ((galBase s.unit g + n) % 256) s)
  | none => s

/-- A context clear or RELOAD ends every open operation (R383). -/
def clientClear (s : State) : State :=
  let gals := openGals s.unit
  let s := onUnit (fun u => gals.foldl (fun u g => setStale g true u) u) s
  let s := onUnit (onClient fun c =>
    { c with ops := c.ops.map fun o => { o with abort := true, bufOwned := false }, bufs := [] }) s
  settleAll s

/-- CMB.GSEL. -/
def galSel (u : UnitState) : Nat := rdF u.base 0x0F044 0 12

/-- A write of CMB.GAL_STATE (R398). -/
def galStateOp (be : BitVec 4) (data : Word) (s : State) : State :=
  let g := galSel s.unit
  if (galOps s.unit g).isEmpty then
    onUnit (fun u => setStale g false (uB (fun b => wr (galStateAddr g) (mergeBytes be (rd b (galStateAddr g)) data) b) u)) s
  else logU uCmbCfgErr noPort g 0 0 s

/-! ## The meanings -/

/-- CMB_DATA (R363). -/
def execCmbData (r : Req) (buf : BitVec 8) (chunk : BitVec 3) (data : BitVec 64) (s : State) :
    Host.Outcome State Fault Refusal :=
  .next (request r 0x0C buf.toNat (onUnit (cmbDataOp r buf.toNat chunk.toNat data)) s)

/-- CMB_POST (R364, R365). -/
def execCmbPost (r : Req) (buf : BitVec 8) (g : BitVec 12) (op : BitVec 8) (chunks : BitVec 4) (gseq sigSem : BitVec 16)
    (sigEn notify : Bool) (s : State) : Host.Outcome State Fault Refusal :=
  .next (request r 0x0D buf.toNat (cmbPostOp r
    { gallery := g.toNat, gseq := gseq, op := op.toNat, chunks := chunks.toNat, buf := buf.toNat, sigSem := sigSem.toNat,
      sigEn := sigEn, notify := notify, core := r.reply.toNat, tag := r.tag.toNat, bar := none }) s)

/-- CMB_READ (R364). -/
def execCmbRead (r : Req) (buf : BitVec 8) (chunk : BitVec 3) (s : State) : Host.Outcome State Fault Refusal :=
  .next (request r 0x0E buf.toNat (onUnit (cmbReadOp r buf.toNat chunk.toNat)) s)

/-- CMB_DOWN_RX_UNIT (R378, R380). -/
def execCmbDownRxUnit (rx : Rx) (k : CmbKey) (op : BitVec 8) (repro : Bool) (status : BitVec 4) (pl : List (BitVec 64))
    (s : State) : Host.Outcome State Fault Refusal :=
  let r := rxCmbDown rx k op.toNat repro status.toNat pl s
  match rx.port with
  | .unit d => .next (if r.1 && domUsable r.2.unit d then
      unitDownOp d k (op.toNat % 64) { status := status.toNat, epochLo := k.epochLo.toNat, repro := repro, payload := pl } r.2
    else r.2)
  | .dist _ => .next r.2

/-- COMMIT_RX_UNIT (R378, R380). -/
def execCommitRxUnit (rx : Rx) (k : CmbKey) (s : State) : Host.Outcome State Fault Refusal :=
  let r := rxCommit rx k s
  match rx.port with
  | .unit d => .next (if r.1 && domUsable r.2.unit d then unitCommitOp d k r.2 else r.2)
  | .dist _ => .next r.2

/-- HELD_COMMIT_RELEASE (R274, R383). -/
def execHeldCommitRelease (s : State) : Host.Outcome State Fault Refusal := .next (ifUnitRuns settleAll s)

/-- CMB_UNIT_DEADLINE (R382). -/
def execCmbUnitDeadline (g : BitVec 12) (s : State) : Host.Outcome State Fault Refusal :=
  .next (ifUnitRuns (unitDeadlineOp g.toNat) s)

/-- CMB_GAL_STATE_WRITE (R398). -/
def execCmbGalStateWrite (be : BitVec 4) (data : Word) (s : State) : Host.Outcome State Fault Refusal :=
  .next (ifUnitRuns (galStateOp be data) s)

end Sys2Proof.Machine
end

