-- ==== Sys2Proof/Machine/LaunchDist.lean ====
section
/-! DEFINITION. Launch at a distributor: requests, broadcasts, census and decision (R234, R237 to R245, R252, R253, R486,
R504), and gallery membership (R360, R400). -/

namespace Sys2Proof.Machine

/-! ## Galleries at a distributor (R400) -/

/-- Address of a register of gallery g's entry. -/
def galEnt (g o : Nat) : Nat := 0x200000 + 0x100 * g + o
def dGalValid (d : DistState) (g : Nat) : Bool := rdB d.base (galEnt g 0x20) 0
def dGalBase (d : DistState) (g : Nat) : BitVec 16 := BitVec.ofNat 16 (rdF d.base (galEnt g 0x28) 0 16)
def dGalEpoch (d : DistState) (g : Nat) : Nat := rdF d.base (galEnt g 0x28) 16 16
def dGalMember (d : DistState) (g p : Nat) : Bool := rdB d.base (galEnt g (4 * (p / 32))) (p % 32)
def dGalLost (d : DistState) (g p : Nat) : Bool := rdB d.base (galEnt g (0x10 + 4 * (p / 32))) (p % 32)

/-- Member ports of a gallery, ascending. -/
def memberPorts (d : DistState) (g : Nat) : List Nat := (List.range 128).filter fun p => dGalMember d g p

/-- Galleries whose entry is VALID, ascending. -/
def validGalleries (d : DistState) : List Nat :=
  d.base.regs.filterMap fun x =>
    if 0x200000 ≤ x.1 ∧ x.1 < 0x300000 ∧ x.1 % 0x100 = 0x20 ∧ bitOf x.2 0 then some ((x.1 - 0x200000) / 0x100) else none

def onCmb (f : DistCmb → DistCmb) (d : DistState) : DistState := { d with cmb := f d.cmb }

/-- CMB.STS.LEAD and RESILVERING (R399); SRV.STS.MUTED (R612). -/
def isLead (d : DistState) : Bool := rdB d.base 0x0A044 28
def resilvering (d : DistState) : Bool := rdB d.base 0x0A044 29
def muted (d : DistState) : Bool := rdB d.base 0x9064 5

/-- LEAD changes (R372, R484, R489, R614). -/
def setLead (v : Bool) (d : DistState) : DistState :=
  if isLead d = v then d else dB (fun b => pgEvt 0x0B 0 (wr64 0x0B064 (nsNow b) (wrB 0x0A044 28 v b))) d

/-- Upstream ports that are LINK_ADMITTED. -/
def upPorts (d : DistState) : List Nat := [128, 129].filter fun n => admitted (distPort d n)

/-! ## Contexts -/

/-- The context of a launch. -/
def lctxFind (d : DistState) (g lid : Nat) : Option LCtx := d.cmb.lctxs.find? fun c => c.gallery == g && c.lid == lid

def lctxDrop (g lid : Nat) (d : DistState) : DistState :=
  onCmb (fun c => { c with lctxs := c.lctxs.filter fun x => !(x.gallery == g && x.lid == lid) }) d

def lctxPut (x : LCtx) (d : DistState) : DistState :=
  onCmb (fun c => { c with lctxs := c.lctxs.map fun y => if y.gallery = x.gallery ∧ y.lid = x.lid then x else y }) d

/-- The context that an ARM opens. -/
def lctxOf (b : Base) (own : Bool) (a : Arm) : LCtx :=
  { gallery := a.gallery.toNat, epochLo := a.epochLo.toNat, lid := a.lid.toNat, target := (extend48 b a.target).toNat,
    mask := a.mask, tol := a.tol.toNat, uid := a.uid.toNat, reports := [], sent := false,
    own := own }

/-- Open a context; a GO of an earlier launch with its key is no longer this launch's (R248, R252). -/
def lctxOpen (own : Bool) (a : Arm) (d : DistState) : DistState :=
  onCmb (fun c => { c with lctxs := c.lctxs ++ [lctxOf d.base own a],
                           sentGo := c.sentGo.filter fun x => !(x.1 == a.gallery.toNat && x.2 == a.lid.toNat) }) d

/-- Launch contexts of a distributor (R233). -/
def lctxCap : Nat := 1024

/-- TOUT.LAUNCH_CUTOFF in ticks (R493). -/
def cutoff (d : DistState) : Nat := rdF d.base 0x11054 0 18 * 4

/-- NS is later than the target minus the cutoff. -/
def pastCutoff (d : DistState) (target : Nat) : Bool := decide (target < d.base.ns.toNat + cutoff d)

/-! ## Frames down and records to the mirror root -/

/-- PHASE 1, GO and ABORT on every admitted downstream port. -/
def downArm (a : Arm) (s : State) : State := sendDown cutThrough 4 0x08 (armHdr a) [a.mask, armTail a 1 false] s
def downGo (g : Go) (s : State) : State := sendDown cutThrough 3 0x09 (goBody g) [] s
def downAbort (a : Abort) (s : State) : State := sendDown cutThrough 3 0x0A (abortBody a) [] s

/-- The GO of a context. -/
def goOf (c : LCtx) : Go :=
  { gallery := BitVec.ofNat 12 c.gallery, epochLo := BitVec.ofNat 4 c.epochLo, lid := BitVec.ofNat 16 c.lid,
    targetLo := BitVec.ofNat 32 c.target }
def abortOf (g ep lid reason : Nat) : Abort :=
  { gallery := BitVec.ofNat 12 g, epochLo := BitVec.ofNat 4 ep, lid := BitVec.ofNat 16 lid, reason := BitVec.ofNat 8 reason }

/-- Payload of LAUNCH_OPEN and LAUNCH_REQ, and of LAUNCH_DECISION (R394). -/
def launchOpenBody (a : Arm) : List (BitVec 64) :=
  [bodyOf [(48, a.target.toNat)], a.mask, bodyOf [(16, a.tol.toNat), (20, a.uid.toNat)]]
def decisionBody (go : Bool) (reason : Nat) : BitVec 64 := bodyOf [(1, if go then 1 else 0), (8, reason)]

/-- Broadcast an ABORT and mirror the decision; the context, if any, is freed (R237, R243, R244, R253). -/
def rootAbort (g ep lid reason : Nat) (s : State) : State :=
  let s := onDist (lctxDrop g lid) s
  let s := downAbort (abortOf g ep lid reason) s
  ropeSend cutThrough 0x91 g ep lid [decisionBody false reason] s

/-- Broadcast a GO and mirror the decision (R243). -/
def rootGo (c : LCtx) (s : State) : State :=
  let s := onDist (fun d => onCmb (fun q => { q with sentGo := q.sentGo ++ [(c.gallery, c.lid)] }) (lctxDrop c.gallery c.lid d)) s
  let s := downGo (goOf c) s
  ropeSend cutThrough 0x91 c.gallery c.epochLo c.lid [decisionBody true 0] s

/-! ## Census (R241, R243) -/

/-- A member port counts as REFUSED: absent here and reported ABSENT by the mirror partner (R241). -/
def absentBoth (d : DistState) (p : Nat) : Bool := !admitted (distPort d p) && tabGet false p d.cmb.absent

/-- Every member port has reported or counts as REFUSED. -/
def censusDone (d : DistState) (c : LCtx) : Bool :=
  (memberPorts d c.gallery).all fun p => (c.reports.any fun r => r.port == p) || absentBoth d p

/-- Member ports without a report. -/
def censusMissing (d : DistState) (c : LCtx) : List Nat :=
  (memberPorts d c.gallery).filter fun p => !(c.reports.any fun r => r.port == p)

/-- REFUSED and the sum of a complete census. -/
def censusRefused (d : DistState) (c : LCtx) : Bool :=
  (c.reports.any fun r => r.refused && dGalMember d c.gallery r.port) || !(censusMissing d c).isEmpty
def censusCount (d : DistState) (c : LCtx) : Nat :=
  min 0xFFFFF ((c.reports.filter fun r => dGalMember d c.gallery r.port).foldl (fun n r => n + r.count) 0)

/-- The ARM that carries a census upward. -/
def censusArm (c : LCtx) (count : Nat) : Arm :=
  { gallery := BitVec.ofNat 12 c.gallery, epochLo := BitVec.ofNat 4 c.epochLo, target := BitVec.ofNat 48 c.target,
    mask := c.mask, lid := BitVec.ofNat 16 c.lid, tol := BitVec.ofNat 16 c.tol, uid := BitVec.ofNat 20 count }

/-- Send a census on every usable upstream port. -/
def sendCensusUp (c : LCtx) (count : Nat) (refused : Bool) (s : State) : State :=
  (upPorts s.dist).foldl (fun s n => sendArm (distRef n) cutThrough 2 refused (censusArm c count) s) s

/-- The ports that counted as REFUSED are recorded in their PRT pages (R241). -/
def noteDead (c : LCtx) (s : State) : State :=
  (censusMissing s.dist c).foldl (fun s p => onPort (distRef p) (fun lp =>
    { lp with cnt := { lp.cnt with censusDead := satInc 0xFFFFFFFF lp.cnt.censusDead } }) s) s

/-- Test a census: when complete it goes upward, or is decided at the deciding root (R241, R243). -/
def censusTest (g lid : Nat) (s : State) : State :=
  let d := s.dist
  match lctxFind d g lid with
  | some c =>
    if c.sent || !censusDone d c then s
    else if isRoot d && !c.own then s
    else
      let s := noteDead c (onDist (lctxPut { c with sent := true }) s)
      if isRoot d then
        if censusRefused d c then rootAbort g c.epochLo lid 0x01 s
        else if pastCutoff d c.target then rootAbort g c.epochLo lid 0x02 s
        else rootGo c s
      else sendCensusUp c (censusCount d c) (censusRefused d c) s
  | none => s

/-- A census report of a port, the first of its port to count (R241). -/
def censusAdd (g lid p count : Nat) (refused : Bool) (s : State) : State :=
  match lctxFind s.dist g lid with
  | some c =>
    let s := if c.reports.any fun r => r.port == p then s
      else onDist (lctxPut { c with reports := c.reports ++ [{ port := p, count := count, refused := refused }] }) s
    censusTest g lid s
  | none => s

/-- Test every open census. -/
def censusAll (s : State) : State := s.dist.cmb.lctxs.foldl (fun s c => censusTest c.gallery c.lid s) s

/-! ## Requests (R234, R237) -/

/-- The reason with which the deciding root refuses a request first, or 0 (R237, R489). -/
def requestRefusal (d : DistState) (a : Arm) : Nat :=
  if resilvering d then 0x05
  else if a.epochLo.toNat ≠ dGalEpoch d a.gallery.toNat % 16 then 0x04
  else if lctxCap ≤ d.cmb.lctxs.length then 0x05
  else if pastCutoff d (extend48 d.base a.target).toNat then 0x06
  else 0

/-- Decide a request (R234, R237). -/
def decideRequest (a : Arm) (s : State) : State :=
  let g := a.gallery.toNat
  let lid := a.lid.toNat
  if (lctxFind s.dist g lid).isSome then logD dLaunchDup noPort lid 0 0 s
  else
    let r := requestRefusal s.dist a
    if r ≠ 0 then rootAbort g a.epochLo.toNat lid r s
    else
      let s := downArm a (onDist (lctxOpen true a) s)
      let s := ropeSend cutThrough 0x90 g a.epochLo.toNat lid (launchOpenBody a) s
      censusTest g lid s

/-- A request at a root (R237). -/
def rootRequest (a : Arm) (s : State) : State :=
  let d := s.dist
  if isLead d then decideRequest a s
  else if ropeUp d then ropeSend cutThrough 0x93 a.gallery.toNat a.epochLo.toNat a.lid.toNat (launchOpenBody a) s
  else downAbort (abortOf a.gallery.toNat a.epochLo.toNat a.lid.toNat 0x07) s

/-- A port's requests are bounded by tokens (R504), those of a unit's port only, and one is there. -/
def hasToken (d : DistState) (p : Nat) : Bool := (distPort d p).adm.childDist || decide ((tabGet {} p d.cmb.reqTok).n ≠ 0)

/-- A request that finds no token is discarded, counted, and logged once until one passes (R504). -/
def dropRequest (p : Nat) (s : State) : State :=
  let t := tabGet {} p s.dist.cmb.reqTok
  let s := onDist (fun d => dB (fun b => pgEvt 0x0E 0 (inc 0x0E04C b)) (onCmb (fun c => { c with reqTok := tabSet {} p { t with logged := true } c.reqTok }) d)) s
  if t.logged then s else logD dLimReqDrop p 0 0 0 s

/-- A request that is passed takes its token (R504). The next token counts from now where the count stood at BURST. -/
def takeToken (p : Nat) (s : State) : State :=
  if (distPort s.dist p).adm.childDist then s
  else
    let t := tabGet {} p s.dist.cmb.reqTok
    let since := if rdF s.dist.base 0x0E048 0 8 ≤ t.n then s.dist.base.tick else t.at_
    onDist (onCmb fun c => { c with reqTok := tabSet {} p { n := t.n - 1, at_ := since, logged := false } c.reqTok }) s

/-- A root accepts a request or forwards it to the deciding root; one that it refuses, or discards as a duplicate, takes no
token (R234, R237, R649). -/
def rootAccepts (d : DistState) (a : Arm) : Bool :=
  if isLead d then (lctxFind d a.gallery.toNat a.lid.toNat).isNone && requestRefusal d a == 0 else ropeUp d

/-- A PHASE 0 ARM at downstream port p (R82, R237, R481, R504). -/
def requestOp (p : Nat) (a : Arm) (s : State) : State :=
  if muted s.dist then s
  else
    if !hasToken s.dist p then dropRequest p s
    else if isRoot s.dist then rootRequest a (if rootAccepts s.dist a then takeToken p s else s)
    else
      let s := takeToken p s
      sendArm (distRef (activeUp s.dist)) cutThrough 0 false a s

/-! ## Broadcasts below the root (R82, R238, R252) -/

/-- A frame of the active parent. -/
def fromActive (d : DistState) (n : Nat) : Bool := n == activeUp d && admitted (distPort d n) && !muted d

/-- A PHASE 1 ARM of the active parent (R238). -/
def distArmOp (a : Arm) (s : State) : State :=
  let g := a.gallery.toNat
  let lid := a.lid.toNat
  let s := downArm a s
  let d := s.dist
  if (memberPorts d g).isEmpty || (lctxFind d g lid).isSome then s
  else if lctxCap ≤ d.cmb.lctxs.length then
    logD dLaunchNoContext noPort lid 0 0 (sendCensusUp (lctxOf d.base false a) 0 true s)
  else censusTest g lid (onDist (lctxOpen false a) s)

/-- An ABORT that travels upward (R252). -/
def abortUpOp (a : Abort) (s : State) : State :=
  let d := s.dist
  let g := a.gallery.toNat
  let lid := a.lid.toNat
  if muted d then s
  else if isRoot d then
    match lctxFind d g lid with
      | some c => if c.own then rootAbort g c.epochLo lid 0x03 s else s
      | none => if d.cmb.sentGo.contains (g, lid) then logD dCancelLate noPort lid 0 0 s else s
  else sendAbort (distRef (activeUp d)) cutThrough a s

/-- NS has passed the target minus the cutoff with the census incomplete (R243). -/
def cutoffOp (g lid : Nat) (s : State) : State :=
  let d := s.dist
  match lctxFind d g lid with
  | some c => if isRoot d && c.own && pastCutoff d c.target then rootAbort g c.epochLo lid 0x02 s else s
  | none => s

/-- The gallery's epoch has incremented: every open launch of it is aborted at the deciding root (R253). -/
def launchEpoch (g : Nat) (s : State) : State :=
  if isRoot s.dist then
    (s.dist.cmb.lctxs.filter fun c => c.gallery == g && c.own).foldl (fun s c => rootAbort g c.epochLo c.lid 0x04 s) s
  else s

/-- A root has become the deciding root: it decides every open launch, or aborts it past its cutoff (R486). -/
def launchTake (s : State) : State :=
  let s := onDist (onCmb fun q => { q with lctxs := q.lctxs.map fun c => { c with own := true } }) s
  s.dist.cmb.lctxs.foldl (fun s c =>
    if pastCutoff s.dist c.target then rootAbort c.gallery c.epochLo c.lid 0x07 s else censusTest c.gallery c.lid s) s

/-! ## Records of the mirror root (R237, R243, R394) -/

/-- The ARM that a LAUNCH_OPEN or LAUNCH_REQ record stands for. -/
def armOfRecord (k : RopeKey) (target : BitVec 48) (mask : BitVec 64) (tol : BitVec 16) (uid : BitVec 20) : Arm :=
  { gallery := k.gallery, epochLo := k.epochLo, target := target, mask := mask, lid := k.gseq, tol := tol, uid := uid }

/-- LAUNCH_OPEN at the mirror root. -/
def openRecordOp (a : Arm) (s : State) : State :=
  if isRoot s.dist && !(lctxFind s.dist a.gallery.toNat a.lid.toNat).isSome then downArm a (onDist (lctxOpen false a) s) else s

/-- LAUNCH_DECISION at the mirror root: it broadcasts the same decision. -/
def decisionRecordOp (g ep lid : Nat) (go : Bool) (reason : Nat) (s : State) : State :=
  if !isRoot s.dist then s
  else if go then
    match lctxFind s.dist g lid with
    | some c =>
      downGo (goOf c) (onDist (fun d => onCmb (fun q => { q with sentGo := q.sentGo ++ [(g, lid)] }) (lctxDrop g lid d)) s)
    | none => s
  else downAbort (abortOf g ep lid reason) (onDist (lctxDrop g lid) s)

/-- Body of a received record header. -/
def ropeHdrOf (kind len : Nat) (k : RopeKey) : BitVec 64 :=
  ropeHdr kind k.gallery.toNat k.epochLo.toNat k.gseq.toNat len k.rseq.toNat

/-! ## The meanings -/

/-- Number of the distributor port a frame arrived on, where it is one. -/
def distNum : PortRef → Option Nat
  | .unit _ => none
  | .dist n => some n.val

/-- Run `f` on the port number where a frame arrived at an admitted distributor port and was accepted. -/
def onDistRx (rx : Rx) (r : Bool × State) (f : Nat → State → State) : State := match distNum rx.port with
  | some n => if r.1 && admitted (distPort r.2.dist n) then f n r.2 else r.2
  | none => r.2

/-- ARM_REQUEST_RX (R237, R504). -/
def execArmRequestRx (rx : Rx) (a : Arm) (s : State) : Host.Outcome State Fault Refusal :=
  .next (onDistRx rx (rxArm rx (permUp rx.port) 0 false a s) fun n s => requestOp n a s)

/-- ARM_BROADCAST_DIST (R82, R238). -/
def execArmBroadcastDist (rx : Rx) (a : Arm) (s : State) : Host.Outcome State Fault Refusal :=
  .next (onDistRx rx (rxArm rx (permDown rx.port) 1 false a s) fun n s => if fromActive s.dist n then distArmOp a s else s)

/-- CENSUS_RX (R241, R395). -/
def execCensusRx (rx : Rx) (a : Arm) (refused : Bool) (s : State) : Host.Outcome State Fault Refusal :=
  .next (onDistRx rx (rxArm rx (permUp rx.port) 2 refused a s) fun n s =>
    if muted s.dist then s
    else
      let s := if tabGet false n s.dist.cmb.served then
          ropeSend cutThrough 0x92 a.gallery.toNat a.epochLo.toNat a.lid.toNat
            [bodyOf [(8, n), (20, a.uid.toNat), (1, if refused then 1 else 0)]] s else s
      censusAdd a.gallery.toNat a.lid.toNat n a.uid.toNat refused s)

/-- LAUNCH_CUTOFF_EXPIRY (R243). -/
def execLaunchCutoffExpiry (g : BitVec 12) (lid : BitVec 16) (s : State) : Host.Outcome State Fault Refusal :=
  .next (ifDistRuns (cutoffOp g.toNat lid.toNat) s)

/-- GO_RELAY (R82). -/
def execGoRelay (rx : Rx) (g : Go) (s : State) : Host.Outcome State Fault Refusal :=
  .next (onDistRx rx (rxSeq rx (permDown rx.port) [(0x09, goBody g)] s) fun n s =>
    if fromActive s.dist n then downGo g (onDist (lctxDrop g.gallery.toNat g.lid.toNat) s) else s)

/-- ABORT_RELAY (R82, R252). -/
def execAbortRelay (rx : Rx) (a : Abort) (s : State) : Host.Outcome State Fault Refusal :=
  .next (onDistRx rx (rxSeq rx (permDown rx.port || permUp rx.port) [(0x0A, abortBody a)] s) fun n s =>
    if isDown n then abortUpOp a s
    else if fromActive s.dist n then downAbort a (onDist (lctxDrop a.gallery.toNat a.lid.toNat) s) else s)

/-- One request token (R504). -/
def reqRefill (p : Nat) (d : DistState) : DistState :=
  let t := tabGet {} p d.cmb.reqTok
  let r := rd d.base 0x0E048
  if t.at_ + fld r 8 24 * 4 ≤ d.base.tick then
    onCmb (fun c => { c with reqTok := tabSet {} p { t with at_ := d.base.tick, n := if t.n < fld r 0 8 then t.n + 1 else t.n } c.reqTok }) d
  else d

/-- REQ_TOKEN_REFILL (R504). -/
def execReqTokenRefill (port : Fin 132) (s : State) : Host.Outcome State Fault Refusal :=
  .next (ifDist (onDist (reqRefill port.val)) s)

/-- LAUNCH_OPEN (R237, R394). -/
def execLaunchOpen (rx : Rx) (k : RopeKey) (target : BitVec 48) (mask : BitVec 64) (tol : BitVec 16) (uid : BitVec 20)
    (s : State) : Host.Outcome State Fault Refusal :=
  let a := armOfRecord k target mask tol uid
  let r := rxRope rx k.rseq (ropeHdrOf 0x90 3 k) (launchOpenBody a) s
  .next (if r.1 then openRecordOp a r.2 else r.2)

/-- LAUNCH_DECISION (R243, R394). -/
def execLaunchDecision (rx : Rx) (k : RopeKey) (go : Bool) (reason : BitVec 8) (s : State) :
    Host.Outcome State Fault Refusal :=
  let r := rxRope rx k.rseq (ropeHdrOf 0x91 1 k) [decisionBody go reason.toNat] s
  .next (if r.1 then decisionRecordOp k.gallery.toNat k.epochLo.toNat k.gseq.toNat go reason.toNat r.2 else r.2)

/-- LAUNCH_CENSUS (R241, R395). -/
def execLaunchCensus (rx : Rx) (k : RopeKey) (port : BitVec 8) (uid : BitVec 20) (refused : Bool) (s : State) :
    Host.Outcome State Fault Refusal :=
  let body := bodyOf [(8, port.toNat), (20, uid.toNat), (1, if refused then 1 else 0)]
  let r := rxRope rx k.rseq (ropeHdrOf 0x92 1 k) [body] s
  .next (if r.1 then censusAdd k.gallery.toNat k.gseq.toNat port.toNat uid.toNat refused r.2 else r.2)

/-- LAUNCH_REQ (R237). -/
def execLaunchReq (rx : Rx) (k : RopeKey) (target : BitVec 48) (mask : BitVec 64) (tol : BitVec 16) (uid : BitVec 20)
    (s : State) : Host.Outcome State Fault Refusal :=
  let a := armOfRecord k target mask tol uid
  let r := rxRope rx k.rseq (ropeHdrOf 0x93 3 k) (launchOpenBody a) s
  .next (if r.1 && isRoot r.2.dist && isLead r.2.dist then decideRequest a r.2 else r.2)

end Sys2Proof.Machine
end

