-- ==== Sys2Proof/Machine/CombineDist.lean ====
section
/-! DEFINITION. The combining tree at a distributor: contexts, substitution over Rope, results, commit, resilvering
(R360, R361, R366 to R379, R384, R394 to R396, R480, R481, R485, R489). -/

namespace Sys2Proof.Machine

/-! ## Contexts -/

/-- The context of a gallery and GSEQ. -/
def ctxFind (d : DistState) (g : Nat) (q : BitVec 16) : Option CmbCtx :=
  d.cmb.ctxs.find? fun c => c.gallery == g && c.gseq == q
def ctxPut (x : CmbCtx) (d : DistState) : DistState :=
  onCmb (fun c => { c with ctxs := c.ctxs.map fun y => if y.gallery = x.gallery ∧ y.gseq = x.gseq then x else y }) d
def ctxDrop (g : Nat) (q : BitVec 16) (d : DistState) : DistState :=
  onCmb (fun c => { c with ctxs := c.ctxs.filter fun x => !(x.gallery == g && x.gseq == q) }) d
def galCtxs (d : DistState) (g : Nat) : List CmbCtx := d.cmb.ctxs.filter fun c => c.gallery == g

/-- Port p has contributed to a context. -/
def hasCon (c : CmbCtx) (p : Nat) : Bool := c.cons.any fun x => x.port == p

/-- A context still waits for member port p (R367). -/
def awaits (d : DistState) (c : CmbCtx) (p : Nat) : Bool :=
  !c.done && c.result.isNone && c.members.contains p && !dGalLost d c.gallery p && !hasCon c p

/-- Every member port that is not LOST has delivered or been resolved (R367); an exact-mode context holds a set (R371). -/
def ctxComplete (d : DistState) (c : CmbCtx) : Bool :=
  (c.members.all fun p => dGalLost d c.gallery p || hasCon c p) && (!opExact c.op || c.acc || c.mixed)

/-- GSEQ lies in the window BASE to BASE + 7 (R366). -/
def inWindow (d : DistState) (g : Nat) (q : BitVec 16) : Bool := decide ((q - dGalBase d g).toNat < 8)

/-- Accumulator sets in use, and the pool (R359, R371). -/
def accUsed (d : DistState) : Nat := (d.cmb.ctxs.filter fun c => c.acc).length
def accPool : Nat := 2048

/-- A distributor's own determinism key (R406). -/
def ownDkey (b : Base) : Word := rd b 0x00060
/-- The partner of a port carries the part's own key (R370). -/
def keyMatch (d : DistState) (p : Nat) : Bool := (distPort d p).adm.peerDkey == ownDkey d.base

/-- REPRO of all of a context's contributions (R373), and of its partial, clear where it is MIXED (R367, R370). -/
def consRepro (c : CmbCtx) : Bool := c.cons.all fun x => x.repro
def ctxRepro (c : CmbCtx) : Bool := !c.mixed && consRepro c

/-- The contributions as the arithmetic takes them. -/
def ctxInputs (c : CmbCtx) : List (Bool × List (BitVec 64)) := c.cons.map fun x => (x.fromUnit, x.payload)

/-! ## Rope records of substitution (R368, R394, R395, R480, R481) -/

/-- Payload of a SUBST_HDR. -/
def substHdrBody (port op : Nat) (repro absent : Bool) (dlen : Nat) (all : Bool) : BitVec 64 :=
  bodyOf [(8, port), (8, op), (1, if repro then 1 else 0), (1, if absent then 1 else 0), (7, dlen), (1, if all then 1 else 0)]

/-- Report a port ABSENT for one context. -/
def sendAbsent (c : CmbCtx) (p : Nat) (s : State) : State :=
  ropeSend 12 0x80 c.gallery c.epochLo c.gseq.toNat [substHdrBody p 0 false true 0 false] s

/-- Forward a contribution of a subscribed port, with the OPCODE and EPOCH_LO that it carried (R394). -/
def forwardCon (g : Nat) (q : BitVec 16) (x : Contrib) (s : State) : State :=
  let s := ropeSend 12 0x80 g x.epochLo q.toNat [substHdrBody x.port x.opcode x.repro false x.payload.length false] s
  ropeSend 12 0x81 g x.epochLo q.toNat x.payload s

/-- Payload of a SUBST_REQ. -/
def substReqBody (p : Nat) (on : Bool) : BitVec 64 := bodyOf [(8, p), (1, if on then 1 else 0)]

/-- Whether a port stands subscribed. -/
def subscribed (d : DistState) (p : Nat) : Bool := (tabGet none p d.cmb.sub).isSome

/-- CMB.SUBST_w: ports with a standing subscription. -/
def noteSub (p : Nat) (v : Bool) (b : Base) : Base := wrB (0x0A068 + 4 * (p / 32)) (p % 32) v b

/-- Subscribe to a port, once (R368, R480). -/
def subscribe (p : Nat) (s : State) : State :=
  if subscribed s.dist p || !ropeUp s.dist then s
  else
    let s := onDist (fun d => dB (noteSub p true) (onCmb (fun c =>
      { c with sub := tabSet none p (some d.base.tick) c.sub, subSeen := tabSet false p false c.subSeen }) d)) s
    ropeSend 8 0x82 0 0 0 [substReqBody p true] s

/-! ## Results (R372, R373, R377) -/

/-- Member ports on which a result or COMMIT goes down: present and not LOST (R377, R379). -/
def downMembers (d : DistState) (c : CmbCtx) : List Nat :=
  c.members.filter fun p => admitted (distPort d p) && !dGalLost d c.gallery p

/-- Send a context's result on some ports. -/
def sendResult (delay : Nat) (ports : List Nat) (c : CmbCtx) (r : CmbCopy) (s : State) : State :=
  ports.foldl (fun s p =>
    sendSeq (distRef p) delay (cmbClass c.op) 0x0D
      (cmbDownHdr c.gallery r.epochLo c.gseq.toNat c.op r.payload.length r.repro r.status) r.payload s) s

/-- Ports of a relay with the tick of the result's last frame on each. -/
def relayMarks (now delay : Nat) (ports : List Nat) (r : CmbCopy) : List (Nat × Nat) :=
  ports.map fun p => (p, now + delay + 4 * (r.payload.length + 1))

/-- Counters of results sent or relayed (R399). -/
def countResult (r : CmbCopy) (b : Base) : Base :=
  if r.status = 2 then pgEvt 0x0A 1 (inc 0x0A04C b) else if r.status = 1 then pgEvt 0x0A 1 (inc 0x0A050 b) else b

/-- The gallery epoch follows a result in GSEQ order (R376): whether it incremented. -/
def epochFollows (d : DistState) (g : Nat) (r : CmbCopy) : Bool :=
  (r.status == 1 || r.status == 2) && r.epochLo == dGalEpoch d g % 16

/-- Increment a gallery's epoch. -/
def bumpEpoch (g : Nat) (s : State) : State :=
  launchEpoch g (onDist (fun d => dB (wrF (galEnt g 0x28) 16 16 (dGalEpoch d g + 1)) d) s)

/-- The context is no longer fresh (R396). -/
def unfresh (d : DistState) : DistState := onCmb (fun c => { c with fresh := false }) d

/-! ### A result relayed as its frames arrive (R377) -/

/-- Frames of a CMB_DOWN from body `i` on, `len` payload frames in all, in transmit group `grp`. -/
def relayItems (now cls grp len : Nat) : Nat → List (BitVec 64) → List TxItem
  | _, [] => []
  | i, b :: t => { cls := cls, readyAt := now + 12, seqd := true, typ := if i = 0 then 0x0D else payTyp 0x0D, body := b,
                   fill := .none, more := len - i, grp := grp } :: relayItems now cls grp len (i + 1) t

/-- Queued frames of a group whose rest will not come: the last of them owes nothing. -/
def cutGroup (grp : Nat) : List TxItem → List TxItem
  | [] => []
  | i :: t => (if i.grp = grp then { i with more := (t.filter fun x => x.grp == grp).length } else i) :: cutGroup grp t

/-- The result that is being relayed is discarded (R70): what has been relayed of it stays incomplete below. -/
def relayDrop (s : State) : State := match s.dist.cmb.relay with
  | some l =>
    l.outs.foldl (fun s x => onPort (distRef x.1) (fun lp =>
      let gone := !(lp.arq.txq.any fun i => i.grp == x.2) && lp.arq.owed == some x.2
      { lp with arq := { lp.arq with txq := cutGroup x.2 lp.arq.txq, owed := if gone then none else lp.arq.owed } }) s)
      (onDist (onCmb fun c => { c with relay := none }) s)
  | none => s

/-- The relay goes on with the group whose bodies so far are `o`. -/
def relayGoes (d : DistState) (g : Nat) (q : BitVec 16) (o : List (BitVec 64)) : Option CmbRelay := d.cmb.relay.filter fun l =>
  l.gallery == g && l.gseq == q && l.bodies == o.take l.bodies.length

/-- The relay takes the bodies that have arrived since. -/
def relayMore (op len : Nat) (o : List (BitVec 64)) (l : CmbRelay) (s : State) : State :=
  let n := l.bodies.length
  let now := s.dist.base.tick
  let s := l.outs.foldl (fun s x => onPort (distRef x.1)
    (fun lp => queueOn false (relayItems now (cmbClass op) x.2 len n (o.drop n)) lp) s) s
  onDist (onCmb fun c => { c with relay := some { l with bodies := o } }) s

/-- Ports on which a result of a gallery goes down, each with a new transmit group. -/
def relayOpen (ports : List Nat) (g : Nat) (q : BitVec 16) (s : State) : CmbRelay × State :=
  let outs := ports.map fun p => (p, (distPort s.dist p).arq.groups)
  ({ gallery := g, gseq := q, bodies := [], outs := outs },
   ports.foldl (fun s p => onPort (distRef p) (fun lp => { lp with arq := { lp.arq with groups := lp.arq.groups + 1 } }) s) s)

/-- What a result whose context is not open yet is relayed for: the member ports as they stand. -/
def relayCtx (d : DistState) (g : Nat) (q : BitVec 16) (op : Nat) : CmbCtx :=
  { gallery := g, gseq := q, epochLo := 0, op := op, known := false, members := memberPorts d g, cons := [], mixed := false,
    lostBelow := false, lostHere := false, openedAt := 0, dlFrom := 0, expired := false, acc := false, accWait := none,
    done := false, result := none, relayed := [], good := [], commit := false, rope := none }

/-- Bodies `o` of a result's CMB_DOWN have arrived, and not yet all: they go down as they are (R377). -/
def relayPart (g : Nat) (q : BitVec 16) (op len : Nat) (o : List (BitVec 64)) (s : State) : State :=
  if o.isEmpty then s
  else match relayGoes s.dist g q o with
  | some l => relayMore op len o l s
  | none =>
    let s := relayDrop s
    let c := (ctxFind s.dist g q).getD (relayCtx s.dist g q op)
    if !inWindow s.dist g q || c.result.isSome then s
    else
      let r := relayOpen (downMembers s.dist c) g q s
      relayMore op len o r.1 r.2

/-- The rest of a group that is complete goes down where its relay has begun: the ports that have all of it, and the machine
after it. -/
def relayRest (g : Nat) (q : BitVec 16) (op len : Nat) (o : List (BitVec 64)) (s : State) : List Nat × State :=
  match relayGoes s.dist g q o with
  | some l => (l.outs.map (·.1), onDist (onCmb fun c => { c with relay := none }) (relayMore op len o l s))
  | none => ([], relayDrop s)

/-- A result goes down the member ports, but for those that `sent` names, and is recorded in its context. -/
def relayResult (delay : Nat) (sent : List Nat) (c : CmbCtx) (r : CmbCopy) (s : State) : State :=
  let ports := downMembers s.dist c
  let now := s.dist.base.tick
  let s := sendResult delay (ports.filter fun p => !sent.contains p) c r s
  onDist (fun d => dB (countResult r) (unfresh
    (ctxPut { c with result := some r, done := true, acc := false, accWait := none,
                     relayed := relayMarks now delay ports r } d))) s

/-- Status, epoch increment and log of the lead's result: the first row of R373 that applies. -/
def resultRow (d : DistState) (c : CmbCtx) : Nat × Bool × Option Hap :=
  let e := dGalEpoch d c.gallery
  let strict := rdB d.base (galEnt c.gallery 0x24) 0 || bitOf (ownDkey d.base) 15
  if c.mixed || c.epochLo != e % 16 then (2, false, some dCmbStale)
  else if c.expired then (2, true, some dCmbDeadline)
  else if opExact c.op && !ctxRepro c && strict then (2, true, some dCmbReproStrict)
  else if c.lostBelow || c.lostHere then (1, true, some dCmbMemberLost)
  else (0, false, none)

/-- EPOCH_LO of the result: (E − 1)[3:0] for a stale one, E[3:0] otherwise (R373). -/
def resultEpoch (d : DistState) (c : CmbCtx) : Nat :=
  let e := dGalEpoch d c.gallery
  if c.mixed || c.epochLo != e % 16 then (e + 15) % 16 else e % 16

/-- The lead's result (R373). -/
def leadResult (d : DistState) (c : CmbCtx) : CmbCopy :=
  let row := resultRow d c
  { status := row.1, epochLo := resultEpoch d c, repro := consRepro c && !opFast c.op,
    payload := if row.1 = 2 then [] else resultPayload c.op (ctxInputs c) }

/-- Ticks from completion to the CMB_DOWN header at the lead (R397). -/
def leadDelay (c : CmbCtx) : Nat := if c.op = opBarrier then 20 else if opExact c.op then 48 else 24

/-- The payload of a RESULT record (R394). -/
def resultRecBody (op : Nat) (r : CmbCopy) : List (BitVec 64) :=
  bodyOf [(6, op), (2, r.status), (1, if r.repro then 1 else 0), (4, r.payload.length)] :: r.payload

/-- The lead forms and sends the result of a context (R372, R373). -/
def formResult (c : CmbCtx) (s : State) : State :=
  let d := s.dist
  let g := c.gallery
  let row := resultRow d c
  let r := leadResult d c
  let rope := if ropeUp d then some d.rope.txSeq else none
  let s := relayResult (leadDelay c) [] { c with rope := rope, epochDone := true } r s
  let s := onDist (dB (inc 0x0B060)) s
  let s := ropeSend (leadDelay c) 0x83 g r.epochLo c.gseq.toNat (resultRecBody c.op r) s
  let s := match row.2.2 with
    | some h => logD h noPort g 0 (c.gseq.toNat % 256) s
    | none => s
  let s := if opExact c.op && !r.repro && decide (r.status ≠ 2) then onDist (dB (inc 0x0A064)) s else s
  if row.2.1 then bumpEpoch g s else s

/-- The first context of a gallery in GSEQ order from BASE that has no result yet, if every earlier one has (R375). -/
def leadNext (d : DistState) (g : Nat) : Option CmbCtx :=
  (List.range 8).foldl (fun (acc : Option CmbCtx × Bool) i =>
    if acc.2 then acc
    else match ctxFind d g (dGalBase d g + BitVec.ofNat 16 i) with
      | some c => if c.result.isSome then acc else (some c, true)
      | none => (none, true)) (none, false) |>.1

/-- This root decides a context (R372, R489): it is the lead and the GSEQ is not one that the other root keeps, or it hands
back and the GSEQ is below the first it will not decide. -/
def decidesHere (d : DistState) (c : CmbCtx) : Bool :=
  match tabGet none c.gallery d.cmb.handFrom with
  | some q => if distDomB d then decide (32768 ≤ (c.gseq - q).toNat) else isLead d && decide ((c.gseq - q).toNat < 32768)
  | none => isLead d

/-- One result of a gallery at the lead, if one is due; the next context's deadline restarts (R375). -/
def leadStep (g : Nat) (s : State) : Option State :=
  match leadNext s.dist g with
  | some c =>
    if (c.done || c.expired) && decidesHere s.dist c then
      let s := formResult c s
      some (onDist (onCmb fun q => { q with ctxs := q.ctxs.map fun x =>
        if x.gallery = g ∧ x.result.isNone then { x with dlFrom := s.dist.base.tick } else x }) s)
    else none
  | none => none

def leadRun : Nat → Nat → State → State
  | 0, _, s => s
  | k + 1, g, s => match leadStep g s with
    | some s' => leadRun k g s'
    | none => s

/-! ## Commit (R379) -/

/-- Every RESULT frame of the record has been acknowledged, or no Rope carries it (R379, R488). -/
def ropeAcked (d : DistState) (c : CmbCtx) : Bool :=
  d.cmb.sole || !ropeUp d || match c.rope with
    | some q => !((ropeTail (ropeOwed (distPort d (ropePort d))) d.rope.sent).any fun r => r.rseq == q)
    | none => true

/-- The first condition of R379. -/
def commitHeld (d : DistState) (c : CmbCtx) : Bool :=
  c.result.isSome && (if isRoot d then ropeAcked d c else c.commit)

/-- The second condition of R379: GOOD from every present, non-LOST member port whose partner is a unit, and under GATE_DIST
from every one whose partner is a distributor. -/
def goodHeld (d : DistState) (c : CmbCtx) : Bool :=
  (downMembers d c).all fun p => c.good.contains p || ((distPort d p).adm.childDist && !rdB d.base 0x0A040 0)

/-- A port that was sent a context's result has not yet sent GOOD (R378). -/
def goodAwaited (d : DistState) (c : CmbCtx) : Bool :=
  (downMembers d c).any fun p => (c.relayed.any fun x => x.1 == p) && !c.good.contains p

/-- Freed contexts are held for GOOD and for a resend, until every port has sent GOOD or is lost (R378). -/
def keepCtx (c : CmbCtx) (d : DistState) : DistState :=
  let k := d.cmb.kept.filter fun x => (x.gallery != c.gallery || x.gseq != c.gseq) && goodAwaited d x
  onCmb (fun q => { q with kept := if goodAwaited d c then k ++ [c] else k }) d

/-- A context, or a freed one that is held. -/
def ctxHeld (d : DistState) (g : Nat) (q : BitVec 16) : Option CmbCtx := match ctxFind d g q with
  | some c => some c
  | none => d.cmb.kept.find? fun c => c.gallery == g && c.gseq == q

/-- Put a context back where `ctxHeld` found it. -/
def heldPut (c : CmbCtx) (d : DistState) : DistState := if (ctxFind d c.gallery c.gseq).isSome then ctxPut c d else keepCtx c d

/-- Send COMMIT for the context at BASE and free it (R379). -/
def commitStep (g : Nat) (s : State) : Option State :=
  let d := s.dist
  match ctxFind d g (dGalBase d g) with
  | some c =>
    if commitHeld d c && goodHeld d c then
      let ep := match c.result with
        | some r => r.epochLo
        | none => 0
      let s := (downMembers d c).foldl (fun s p =>
        sendSeq (distRef p) 12 5 0x0E (commitBody g ep c.gseq.toNat) [] s) s
      some (onDist (fun d => dB (fun b => wrF (galEnt g 0x28) 0 16 (rdF b (galEnt g 0x28) 0 16 + 1) b)
        (keepCtx c (ctxDrop g c.gseq (unfresh d)))) s)
    else none
  | none => none

def commitRun : Nat → Nat → State → State
  | 0, _, s => s
  | k + 1, g, s => match commitStep g s with
    | some s' => commitRun k g s'
    | none => s

/-- The first context of a gallery in GSEQ order from BASE whose result the gallery epoch has not followed, if it has followed
every earlier one (R376). -/
def epochNext (d : DistState) (g : Nat) : Option CmbCtx :=
  (List.range 8).foldl (fun (acc : Option CmbCtx × Bool) i =>
    if acc.2 then acc
    else match ctxFind d g (dGalBase d g + BitVec.ofNat 16 i) with
      | some c => if c.epochDone then acc else (some c, true)
      | none => (none, true)) (none, false) |>.1

/-- The gallery epoch follows the results that have come, in GSEQ order (R376). -/
def epochRun : Nat → Nat → State → State
  | 0, _, s => s
  | k + 1, g, s => match epochNext s.dist g with
    | some c => match c.result with
      | some r =>
        let bump := epochFollows s.dist g r
        let s := onDist (ctxPut { c with epochDone := true }) s
        epochRun k g (if bump then bumpEpoch g s else s)
      | none => s
    | none => s

/-- Settle a gallery: results in order, the epoch in order, then commits in order. -/
def distSettle (g : Nat) (s : State) : State :=
  let s := epochRun 8 g s
  let s := if isRoot s.dist then leadRun 8 g s else s
  commitRun 8 g s

/-- Galleries with a context, each once. -/
def ctxGals (d : DistState) : List Nat :=
  d.cmb.ctxs.foldl (fun l c => if l.contains c.gallery then l else l ++ [c.gallery]) []
def distSettleAll (s : State) : State := (ctxGals s.dist).foldl (fun s g => distSettle g s) s

/-! ## Completion (R367) -/

/-- Ticks from the last awaited frame to the partial's header (R397). -/
def partDelay (op : Nat) : Nat := if op = opBarrier then 12 else if opExact op then 24 else 16

/-- Send a context's partial on port 128 (R367, R369, R370). -/
def sendPartial (c : CmbCtx) (s : State) : State :=
  let lost := c.lostBelow || tabGet false c.gallery s.dist.cmb.newLost
  let pl := if c.mixed then [] else partialPayload c.op (ctxInputs c)
  let opcode := c.op + (if c.mixed then 0x40 else 0) + (if lost then 0x80 else 0)
  let s := sendSeq (distRef 128) (partDelay c.op) (cmbClass c.op) 0x0C
    (cmbUpHdr c.gallery c.epochLo c.gseq.toNat opcode pl.length (ctxRepro c)) pl s
  onDist (fun d => unfresh (onCmb (fun q => { q with newLost := tabSet false c.gallery false q.newLost }) d)) s

/-- A context is complete, or its deadline completes it in its stead (R367, R374): OPS_DONE and STS.GSEQ (R399, R400;
assumption 135). -/
def countDone (g : Nat) (q : BitVec 16) (s : State) : State :=
  onDist (dB fun b => inc 0x0A048 (wrF (galEnt g 0x2C) 16 16 q.toNat b)) s

/-- Test a context for completion (R367, R371, R372, R396). -/
def completeTest (g : Nat) (q : BitVec 16) (s : State) : State :=
  match ctxFind s.dist g q with
  | some c =>
    if c.done || c.result.isSome || !c.known || !ctxComplete s.dist c then s
    else
      let s := countDone g q (onDist (ctxPut { c with done := true, acc := false, accWait := none }) s)
      if isRoot s.dist then distSettle g s
      else if resilvering s.dist then s
      else sendPartial c s
  | none => s

/-- Test every context of a gallery. -/
def completeGal (g : Nat) (s : State) : State := (galCtxs s.dist g).foldl (fun s c => completeTest g c.gseq s) s

/-! ## Lost and absent ports (R368, R369, R480) -/

/-- A member port becomes lost for a gallery (R369), over the GSEQ `q` where one applies (R402; assumption 136). -/
def portLost (g p q : Nat) (s : State) : State :=
  if dGalLost s.dist g p then s
  else
    let s := onDist (fun d => dB (wrB (galEnt g (0x10 + 4 * (p / 32))) (p % 32) true) (onCmb (fun q =>
      { q with newLost := tabSet false g true q.newLost,
               ctxs := q.ctxs.map fun c =>
                 if c.gallery = g ∧ c.result.isNone ∧ c.members.contains p then { c with lostHere := true } else c }) d)) s
    let s := onPort (distRef p) (fun lp => { lp with cnt := { lp.cnt with cmbLost := satInc 0xFFFFFFFF lp.cnt.cmbLost } }) s
    let s := scorePort (distRef p) 0x054 16 (logD dCmbPortLost p g 0 (q % 256) (onDist (dB (pgEvt 0x0A 0)) s))
    distSettle g (completeGal g s)

/-- Contexts that await an absent port. -/
def absentWaits (d : DistState) (p : Nat) : List CmbCtx :=
  if admitted (distPort d p) then [] else d.cmb.ctxs.filter fun c => awaits d c p

/-- A context opens or a port becomes absent: the port is subscribed to, or lost while Rope is not admitted (R368). -/
def resolveAbsent (p : Nat) (s : State) : State :=
  if admitted (distPort s.dist p) then s
  else if ropeUp s.dist then subscribe p s
  else (absentWaits s.dist p).foldl (fun s c => portLost c.gallery p c.gseq.toNat s) s

/-- Cancel a subscription whose port serves again (R368). -/
def cancelTest (p : Nat) (s : State) : State :=
  let d := s.dist
  if subscribed d p && admitted (distPort d p) && tabGet false p d.cmb.subSeen && !(d.cmb.ctxs.any fun c => awaits d c p) then
    let s := onDist (fun d => dB (noteSub p false) (onCmb (fun c =>
      { c with sub := tabSet none p none c.sub, absent := tabSet false p false c.absent }) d)) s
    ropeSend 8 0x82 0 0 0 [substReqBody p false] s
  else s

/-- A downstream port has left LINK_ADMITTED (R368, R480). -/
def portAbsent (p : Nat) (s : State) : State :=
  let d := s.dist
  let s := if (validGalleries d).any fun g => dGalMember d g p then resolveAbsent p s else s
  let s := if tabGet false p s.dist.cmb.served then
      (s.dist.cmb.ctxs.filter fun c => c.members.contains p && !hasCon c p).foldl (fun s c => sendAbsent c p s) s else s
  censusAll (distSettleAll s)

/-- A downstream port has been admitted: its own contributions are awaited again (R368). -/
def portPresent (p : Nat) (s : State) : State :=
  onDist (onCmb fun c => { c with subSeen := tabSet false p false c.subSeen }) s

/-! ## Opening a context and taking a contribution (R366, R368, R371, R384) -/

/-- A context for a gallery and GSEQ. -/
def ctxNew (d : DistState) (g : Nat) (q : BitVec 16) (ep op : Nat) (known : Bool) : CmbCtx :=
  let exact := opExact op
  let free := decide (accUsed d < accPool)
  { gallery := g, gseq := q, epochLo := ep, op := op, known := known, members := memberPorts d g, cons := [], mixed := false,
    lostBelow := false, lostHere := false, openedAt := d.base.tick, dlFrom := d.base.tick, expired := false,
    acc := exact && free, accWait := if exact && !free then some d.base.tick else none, done := false, result := none,
    relayed := [], good := [], commit := false, rope := none }

/-- Open a context, or give a blank one its operation, its epoch and what an exact-mode one waits for (R366, R371). -/
def ctxOpen (g : Nat) (q : BitVec 16) (ep op : Nat) (s : State) : State :=
  match ctxFind s.dist g q with
  | some c =>
    if c.known || c.result.isSome then s
    else onDist (ctxPut { ctxNew s.dist g q ep op true with good := c.good, commit := c.commit }) s
  | none => onDist (onCmb fun x => { x with ctxs := x.ctxs ++ [ctxNew s.dist g q ep op true] }) s

/-- Hold a context for a result or a COMMIT that came before any contribution: it awaits nothing (R366, R378). -/
def ctxBlank (g : Nat) (q : BitVec 16) (ep : Nat) (s : State) : State :=
  match ctxFind s.dist g q with
  | some _ => s
  | none => onDist (onCmb fun x => { x with ctxs := x.ctxs ++ [ctxNew s.dist g q ep 0 false] }) s

/-- The absent member ports of a context that has just opened are resolved (R368). -/
def ctxResolve (c : CmbCtx) (s : State) : State :=
  c.members.foldl (fun s p =>
    let s := if tabGet false p s.dist.cmb.served && !admitted (distPort s.dist p) then sendAbsent c p s else s
    resolveAbsent p s) s

/-- Put a contribution in its place: order of frame cycles, then of ports (R388). -/
def conInsert (x : Contrib) : List Contrib → List Contrib
  | [] => [x]
  | y :: t => if x.cyc < y.cyc ∨ (x.cyc = y.cyc ∧ x.port < y.port) then x :: y :: t else y :: conInsert x t

/-- Count a discard (R399). -/
def discard (s : State) : State := onDist (dB (inc 0x0A054)) s

/-- Take a contribution of port p into its context (R366); `opcode` is OPCODE as it arrived. -/
def takeCon (g : Nat) (q : BitVec 16) (ep opcode : Nat) (x : Contrib) (s : State) : State :=
  let op := opcode % 64
  if !inWindow s.dist g q then discard (onDist (dB (inc 0x0A058)) s)
  else
    let opens := match ctxFind s.dist g q with
      | some c => !c.known && c.result.isNone
      | none => true
    let s := ctxOpen g q ep op s
    match ctxFind s.dist g q with
    | some c =>
      if c.done || c.result.isSome || hasCon c x.port || !c.members.contains x.port then discard s
      else
        let mixed := c.mixed || decide (op ≠ c.op) || decide (ep ≠ c.epochLo) || opcode.testBit 6
        let c := { c with cons := conInsert x c.cons, mixed := mixed, lostBelow := c.lostBelow || opcode.testBit 7 }
        let s := onDist (ctxPut c) s
        completeTest g q (if opens then ctxResolve c s else s)
    | none => s

/-- CMB_NOT_MEMBER, once for each gallery and port until the entry is written (R360), with the GSEQ (R402). -/
def notMember (g p : Nat) (q : BitVec 16) (s : State) : State :=
  let k := g * 256 + p
  let s := discard s
  if tabGet false k s.dist.cmb.notMember then s
  else logD dCmbNotMember p g 0 (q.toNat % 256) (onDist (onCmb fun c => { c with notMember := tabSet false k true c.notMember }) s)

/-- The contribution is a unit's: its port's partner is not a distributor (R361). -/
def conFromUnit (d : DistState) (p op : Nat) (pl : List (BitVec 64)) : Bool :=
  if opExact op then decide (pl.length = opChunks op) else !(distPort d p).adm.childDist

/-- Port p is a member for a GSEQ (R360): by the membership that an open context took, or by the one that stands (R400). -/
def conMember (d : DistState) (g : Nat) (q : BitVec 16) (p : Nat) : Bool := match ctxFind d g q with
  | some c => if c.known then c.members.contains p else dGalMember d g p
  | none => dGalMember d g p

/-- A CMB_UP at downstream port p (R360, R366, R368, R384, R481). -/
def cmbUpOp (p : Nat) (k : CmbKey) (opcode : Nat) (repro : Bool) (pl : List (BitVec 64)) (s : State) : State :=
  let d := s.dist
  let g := k.gallery.toNat
  let op := opcode % 64
  if muted d then s
  else if !opDefined op then discard s
  else if !dGalValid d g || !conMember d g k.gseq p then notMember g p k.gseq s
  else
    let x : Contrib := { port := p, opcode := opcode, epochLo := k.epochLo.toNat, repro := repro && keyMatch d p, fromUnit := conFromUnit d p op pl, payload := pl,
                         cyc := d.base.tick / 4 }
    let s := onDist (onCmb fun c => { c with subSeen := tabSet false p true c.subSeen }) s
    let s := if tabGet false p d.cmb.served && inWindow d g k.gseq then forwardCon g k.gseq x s else s
    cancelTest p (takeCon g k.gseq k.epochLo.toNat opcode x s)

/-! ## Timers (R368, R371, R374, R378) -/

/-- The oldest waiting context takes a free accumulator set (R371). -/
def accGrant (s : State) : State :=
  let d := s.dist
  if accUsed d < accPool then
    match d.cmb.ctxs.foldl (fun (best : Option CmbCtx) c => match c.accWait, best with
      | some t, some b => if t < b.accWait.getD t then some c else some b
      | some _, none => some c
      | none, b => b) none with
    | some c => completeTest c.gallery c.gseq (onDist (ctxPut { c with acc := true, accWait := none }) s)
    | none => s
  else s

/-- ACC_WAIT counts each frame cycle that a context waits for an accumulator set (R371, R399). -/
def accTick (d : DistState) : DistState :=
  let n := (d.cmb.ctxs.filter fun c => match c.accWait with
    | some t => decide (t < d.base.tick) && (d.base.tick - t) % 4 == 0
    | none => false).length
  if n = 0 then d else dB (fun b => wrF 0x0A060 0 32 (min 0xFFFFFFFF (rdF b 0x0A060 0 32 + n)) b) d

/-- A setting of the TOUT page, in frame cycles, as ticks (R493). -/
def toutTicks (d : DistState) (o w : Nat) : Nat := rdF d.base (0x11000 + o) 0 w * 4

/-- Contexts that have awaited subscribed port p beyond TOUT.CMB_SUBST, or absent port p beyond TOUT.CMB_DEADLINE
(R368, R369). -/
def substOverdue (d : DistState) (p : Nat) : List CmbCtx :=
  (absentWaits d p).filter fun c =>
    (match tabGet none p d.cmb.sub with
      | some t => decide (max t c.openedAt + toutTicks d 0x060 15 ≤ d.base.tick)
      | none => false) ||
    decide (c.openedAt + toutTicks d 0x058 28 ≤ d.base.tick)

/-- SUBST_TIMEOUT (R368, R369). -/
def substTimeoutOp (p : Nat) (s : State) : State :=
  cancelTest p ((substOverdue s.dist p).foldl (fun s c => portLost c.gallery p c.gseq.toNat s) s)

/-- The lead's deadline of a context (R374, R375): a port lost on the same tick is lost first. -/
def ctxDeadlineOp (g : Nat) (q : BitVec 16) (s : State) : State :=
  match ctxFind s.dist g q with
  | some c =>
    let d := s.dist
    let due := isRoot d && decidesHere d c && !c.done && c.result.isNone && !c.expired &&
      decide (c.dlFrom + toutTicks d 0x058 28 ≤ d.base.tick)
    let earlier := (galCtxs d g).any fun x =>
      x.result.isNone && decide ((x.gseq - dGalBase d g).toNat < (q - dGalBase d g).toNat)
    if due && !earlier then
      let s := (c.members.filter fun p => awaits d c p && !admitted (distPort d p)).foldl (fun s p => portLost g p q.toNat s) s
      match ctxFind s.dist g q with
      | some c' =>
        if c'.done || c'.result.isSome then s
        else distSettle g (countDone g q <| onDist (ctxPut { c' with expired := true, acc := false, accWait := none }) s)
      | none => s
    else s
  | none => s

/-- A member port without GOOD within TOUT.CMB_ACK (R378). -/
def ackTimeoutOp (g : Nat) (q : BitVec 16) (p : Nat) (s : State) : State :=
  match ctxHeld s.dist g q with
  | some c =>
    if (c.relayed.any fun x => x.1 == p && decide (x.2 + toutTicks s.dist 0x05C 18 ≤ s.dist.base.tick)) && !c.good.contains p &&
      !dGalLost s.dist g p then distSettle g (portLost g p q.toNat s)
    else s
  | none => s

/-! ## Results and commits from above (R377 to R379) -/

/-- The bodies of a result's CMB_DOWN. -/
def downBodies (g : Nat) (q : BitVec 16) (op : Nat) (r : CmbCopy) : List (BitVec 64) :=
  cmbDownHdr g r.epochLo q.toNat op r.payload.length r.repro r.status :: r.payload

/-- A complete result that comes from above goes down (R377), and is settled with what it lets settle. -/
def relayDown (g : Nat) (q : BitVec 16) (op : Nat) (c : CmbCtx) (r : CmbCopy) (s : State) : State :=
  let x := relayRest g q op r.payload.length (downBodies g q op r) s
  distSettle g (relayResult 12 x.1 { c with op := op } r x.2)

/-- A CMB_DOWN of the parent on port 128 (R376 to R378). -/
def cmbDownOp (k : CmbKey) (op : Nat) (r : CmbCopy) (s : State) : State :=
  let g := k.gallery.toNat
  let ack := sendAckcmb (distRef 128) 12 op g k.epochLo.toNat k.gseq.toNat true
  if !inWindow s.dist g k.gseq then ack s
  else
    let s := ack (ctxBlank g k.gseq k.epochLo.toNat s)
    match ctxFind s.dist g k.gseq with
    | some c =>
      if c.result.isSome then s else relayDown g k.gseq op c r s
    | none => s

/-- A COMMIT of the parent on port 128 (R378, R379). -/
def distCommitOp (k : CmbKey) (s : State) : State :=
  let g := k.gallery.toNat
  if !inWindow s.dist g k.gseq then s
  else
    let s := ctxBlank g k.gseq k.epochLo.toNat s
    match ctxFind s.dist g k.gseq with
    | some c =>
      let s := onDist (ctxPut { c with commit := true }) s
      if c.result.isSome then distSettle g s
      else sendAckcmb (distRef 128) 12 c.op g k.epochLo.toNat k.gseq.toNat false s
    | none => s

/-- An ACKCMB of member port p (R378, R379). -/
def ackcmbOp (p : Nat) (k : CmbKey) (good : Bool) (s : State) : State :=
  let g := k.gallery.toNat
  match ctxHeld s.dist g k.gseq with
  | some c =>
    if good then
      let s := if c.good.contains p then s else onDist (heldPut { c with good := c.good ++ [p] }) s
      distSettle g s
    else match c.result with
      | some r =>
        let mark := relayMarks s.dist.base.tick 12 [p] r
        let s := onDist (fun d => dB (inc 0x0A05C) (heldPut { c with relayed := (c.relayed.filter fun x => x.1 != p) ++ mark } d)) s
        sendResult 12 [p] c r s
      | none => s
  | none => s

/-! ## Records of the mirror partner (R368, R372, R394 to R396, R480, R481, R489) -/

/-- A SUBST_HDR (R368, R481). -/
def substHdrOp (h : SubstHdr) (absent all : Bool) (s : State) : State :=
  let p := h.port
  if absent then
    let s := onDist (onCmb fun c => { c with absent := tabSet false p true c.absent }) s
    let s := if admitted (distPort s.dist p) then s
      else if all then
        ((validGalleries s.dist).filter fun g => dGalMember s.dist g p).foldl (fun s g => portLost g p 0 s) s
      else if dGalValid s.dist h.gallery && conMember s.dist h.gallery h.gseq p then portLost h.gallery p h.gseq.toNat s
      else s
    censusAll (cancelTest p s)
  else onDist (onCmb fun c => { c with subst := some h }) s

/-- A SUBST_DATA: the forwarded contribution is used as if the port had delivered it (R368, R370, R395). -/
def substDataOp (g : Nat) (q : BitVec 16) (pl : List (BitVec 64)) (s : State) : State :=
  match s.dist.cmb.subst with
  | some h =>
    let s := onDist (onCmb fun c => { c with subst := none, absent := tabSet false h.port false c.absent }) s
    if h.gallery = g ∧ h.gseq = q ∧ dGalValid s.dist g ∧ conMember s.dist g q h.port ∧ opDefined (h.op % 64) ∧
        ¬ muted s.dist then
      if dGalLost s.dist g h.port then discard s
      else
        let d := s.dist
        let x : Contrib := { port := h.port, opcode := h.op, epochLo := h.epochLo, repro := h.repro && keyMatch d (ropePort d),
                             fromUnit := conFromUnit d h.port (h.op % 64) pl, payload := pl, cyc := d.base.tick / 4 }
        cancelTest h.port (takeCon g q h.epochLo h.op x s)
    else s
  | none => s

/-- A SUBST_REQ (R368, R480, R481). -/
def substReqOp (p : Nat) (on : Bool) (s : State) : State :=
  let s := onDist (onCmb fun c => { c with served := tabSet false p on c.served }) s
  if !on then s
  else if muted s.dist then ropeSend 12 0x80 0 0 0 [substHdrBody p 0 false true 0 true] s
  else
    (s.dist.cmb.ctxs.filter fun c => c.members.contains p && c.result.isNone).foldl (fun s c =>
      match c.cons.find? fun x => x.port == p with
      | some x => forwardCon c.gallery c.gseq x s
      | none => if admitted (distPort s.dist p) then s else sendAbsent c p s) s

/-- A RESULT record at a root (R372, R376, R489): a returning root that resilvers is not the lead. -/
def resultRecOp (g : Nat) (q : BitVec 16) (op : Nat) (r : CmbCopy) (s : State) : State :=
  if !isRoot s.dist || !inWindow s.dist g q then s
  else
    let s := if resilvering s.dist then onDist (setLead false) s else s
    let s := ctxBlank g q r.epochLo s
    match ctxFind s.dist g q with
    | some c =>
      if c.result.isSome then s else relayDown g q op c r (onDist (dB (inc 0x0B060)) s)
    | none => s

/-- Payload of a SYNC record (R394). -/
def syncBody (epoch : Nat) (valid : Bool) : BitVec 64 := bodyOf [(16, epoch), (1, if valid then 1 else 0)]

/-- Send a set of SYNC records, BASE of each gallery by `f`, and the record that closes it (R396, R489). -/
def sendSync (f : DistState → Nat → BitVec 16) (s : State) : State :=
  let d := s.dist
  let s := (validGalleries d).foldl (fun s g =>
    ropeSend 0 0x84 g (dGalEpoch d g % 16) (f d g).toNat [syncBody (dGalEpoch d g) true] s) s
  ropeSend 0 0x84 0 0 0 [syncBody 0 false] s

/-- The start of a Rope session, or a DIST_UNMUTED report: a set is sent (R396, R482). -/
def sendSyncBase (s : State) : State :=
  sendSync dGalBase (onDist (fun d => dB (wrF 0x0B044 0 13 (min 8191 ((validGalleries d).length + 1))) d) s)

/-- Load the SYNC set that has arrived and end resilvering (R396). -/
def resilverDone (s : State) : State :=
  let l := s.dist.cmb.sync
  let s := onDist (fun d => l.foldl (fun d x =>
    if dGalValid d x.1 then dB (wr (galEnt x.1 0x28) (x.2.2 ++ x.2.1)) d else d) (onCmb (fun c => { c with sync := [] }) d)) s
  logD dCmbResilverDone noPort 0 0 0 (onDist (dB fun b => pgEvt 0x0A 2 (wrB 0x0A044 29 false b)) s)

/-- The domain A root takes the lead that domain B hands back (R489). -/
def leadBack (s : State) : State :=
  let l := s.dist.cmb.sync
  let s := onDist (onCmb fun c => { c with sync := [], handFrom := l.foldl (fun t x => tabSet none x.1 (some x.2.1) t) c.handFrom }) s
  distSettleAll (logD dLeadReturned noPort 0 0 0 (onDist (setLead true) s))

/-- A SYNC record (R396, R489). -/
def syncOp (g : Nat) (base epoch : BitVec 16) (valid : Bool) (s : State) : State :=
  let d := s.dist
  let waitsLead := isRoot d && !distDomB d && !isLead d
  if !resilvering d && !waitsLead then s
  else
    let s := if resilvering d then onDist (dB (wrF 0x0B044 16 13 (min 8191 (d.cmb.sync.length + 1)))) s else s
    if valid then onDist (onCmb fun c => { c with sync := c.sync ++ [(g, base, epoch)] }) s
    else if resilvering d then resilverDone s
    else leadBack s

/-- Free every open combining and launch context (R481, R490). -/
def freeContexts (d : DistState) : DistState :=
  onCmb (fun c => { c with ctxs := [], kept := [], lctxs := [], subst := none, newLost := [] }) d

/-! ## The meanings -/

/-- CMB_UP_RX (R360, R366 to R371, R384). -/
def execCmbUpRx (rx : Rx) (k : CmbKey) (op : BitVec 8) (repro : Bool) (pl : List (BitVec 64)) (s : State) :
    Host.Outcome State Fault Refusal :=
  .next (onDistRx rx (rxCmbUp rx k op.toNat repro pl s) fun n s => cmbUpOp n k op.toNat repro pl s)

/-- ACC_SET_GRANT (R371). -/
def execAccSetGrant (s : State) : Host.Outcome State Fault Refusal := .next (ifDistRuns accGrant s)

/-- SUBST_TIMEOUT (R368, R369). -/
def execSubstTimeout (port : BitVec 7) (s : State) : Host.Outcome State Fault Refusal :=
  .next (ifDistRuns (substTimeoutOp port.toNat) s)

/-- CMB_DEADLINE_EXPIRY (R374, R375). -/
def execCmbDeadlineExpiry (g : BitVec 12) (q : BitVec 16) (s : State) : Host.Outcome State Fault Refusal :=
  .next (ifDistRuns (ctxDeadlineOp g.toNat q) s)

/-- CMB_DOWN_RX_DIST (R376 to R378, R361). -/
def execCmbDownRxDist (rx : Rx) (k : CmbKey) (op : BitVec 8) (repro : Bool) (status : BitVec 4) (pl : List (BitVec 64))
    (s : State) : Host.Outcome State Fault Refusal :=
  let c : CmbCopy := { status := status.toNat, epochLo := k.epochLo.toNat, repro := repro, payload := pl }
  let r := rxCmbDown rx k op.toNat repro status.toNat pl s
  .next (if r.1 then onDistRx rx r fun n s => if n = 128 && !muted s.dist then cmbDownOp k (op.toNat % 64) c s else s
    else onDistRx rx (rx.part.isSome, r.2) fun n s =>
      if n = 128 && !muted s.dist then
        relayPart k.gallery.toNat k.gseq (op.toNat % 64) pl.length (openedOf 0x0D (distPort s.dist n).arq.opened) s
      else s)

/-- ACKCMB_RX (R378, R379). -/
def execAckcmbRx (rx : Rx) (k : CmbKey) (good : Bool) (s : State) : Host.Outcome State Fault Refusal :=
  .next (onDistRx rx (rxSeq rx (permUp rx.port)
      [(0x0F, ackcmbBody k.gallery.toNat k.epochLo.toNat k.gseq.toNat good)] s) fun n s =>
    if muted s.dist then s else ackcmbOp n k good s)

/-- CMB_ACK_TIMEOUT (R378). -/
def execCmbAckTimeout (g : BitVec 12) (q : BitVec 16) (port : BitVec 7) (s : State) : Host.Outcome State Fault Refusal :=
  .next (ifDistRuns (ackTimeoutOp g.toNat q port.toNat) s)

/-- COMMIT_RX_DIST (R378, R379). -/
def execCommitRxDist (rx : Rx) (k : CmbKey) (s : State) : Host.Outcome State Fault Refusal :=
  .next (onDistRx rx (rxCommit rx k s) fun n s => if n = 128 && !muted s.dist then distCommitOp k s else s)

/-- SUBST_HDR (R368, R394). -/
def execSubstHdr (rx : Rx) (k : RopeKey) (port op : BitVec 8) (repro absent : Bool) (dlen : BitVec 7) (all : Bool)
    (s : State) : Host.Outcome State Fault Refusal :=
  let r := rxRope rx k.rseq (ropeHdrOf 0x80 1 k) [substHdrBody port.toNat op.toNat repro absent dlen.toNat all] s
  .next (if r.1 then substHdrOp { gallery := k.gallery.toNat, epochLo := k.epochLo.toNat, gseq := k.gseq,
                                  port := port.toNat % 128, op := op.toNat, repro := repro } absent all r.2
    else r.2)

/-- SUBST_DATA (R395). -/
def execSubstData (rx : Rx) (k : RopeKey) (pl : List (BitVec 64)) (s : State) : Host.Outcome State Fault Refusal :=
  let r := rxRope rx k.rseq (ropeHdrOf 0x81 pl.length k) pl s
  .next (if r.1 then substDataOp k.gallery.toNat k.gseq pl r.2 else r.2)

/-- SUBST_REQ (R368, R480, R481). -/
def execSubstReq (rx : Rx) (k : RopeKey) (port : BitVec 8) (on : Bool) (s : State) : Host.Outcome State Fault Refusal :=
  let r := rxRope rx k.rseq (ropeHdrOf 0x82 1 k) [substReqBody port.toNat on] s
  .next (if r.1 then substReqOp (port.toNat % 128) on r.2 else r.2)

/-- RESULT_RECORD (R372). -/
def execResultRecord (rx : Rx) (k : RopeKey) (op : BitVec 6) (status : BitVec 2) (repro : Bool) (pl : List (BitVec 64))
    (s : State) : Host.Outcome State Fault Refusal :=
  let c : CmbCopy := { status := status.toNat, epochLo := k.epochLo.toNat, repro := repro, payload := pl }
  let r := rxRope rx k.rseq (ropeHdrOf 0x83 (pl.length + 1) k) (resultRecBody op.toNat c) s
  .next (if r.1 then resultRecOp k.gallery.toNat k.gseq op.toNat c r.2
    else onDistRx rx (rx.part.isSome, r.2) fun n s =>
      let got := (openedOf 0x13 (distPort s.dist n).arq.opened).length - 1
      if isRoot s.dist && isRope n then
        relayPart k.gallery.toNat k.gseq op.toNat pl.length ((downBodies k.gallery.toNat k.gseq op.toNat c).take got) s
      else s)

/-- SYNC_RECORD (R396, R489). -/
def execSyncRecord (rx : Rx) (k : RopeKey) (epoch : BitVec 16) (valid : Bool) (s : State) :
    Host.Outcome State Fault Refusal :=
  let r := rxRope rx k.rseq (ropeHdrOf 0x84 1 k) [syncBody epoch.toNat valid] s
  .next (if r.1 then syncOp k.gallery.toNat k.gseq epoch valid r.2 else r.2)

end Sys2Proof.Machine
end

