-- ==== Sys2Proof/Machine/Refs.lean ====
section
/-! DEFINITION. The root's references, selection, servo, drift vote, holdover and realignment, and the timed outputs of
every distributor (R110 to R117, R121 to R150, R601 to R610). -/

namespace Sys2Proof.Machine

/-! ## Sources (R113 to R115, R121, R606) -/

def onRoot (f : Root → Root) (s : State) : State := onDist (fun d => { d with root := f d.root }) s
def srcOf (s : State) (n : Nat) : RefSrc := tabGet {} n s.dist.root.srcs
def onSrc (n : Nat) (f : RefSrc → RefSrc) (s : State) : State :=
  onRoot (fun r => { r with srcs := tabSet {} n (f (tabGet {} n r.srcs)) r.srcs }) s

/-- Page of a source: REF0 to REF3, then PTP. -/
def refPage (n : Nat) : Nat := if n < 4 then 0x03 + n else 0x08
def refReg (n o : Nat) : Nat := pageAddr (refPage n) o

/-- Mode of a source: 0 OFF, 1 CLK_PPS, 2 PPS_ONLY, 3 PTP. -/
def refMode (d : DistState) (n : Nat) : Nat :=
  if n < 4 then rdF d.base (refReg n 0x040) 0 2 else if rdB d.base 0x8040 0 then 3 else 0

/-- QUAL.TIME, QUAL.WTR and MON.PHASE_JUMP of a source. -/
def qualTime (d : DistState) (n : Nat) : Nat := rdF d.base (refReg n (if n < 4 then 0x048 else 0x05C)) 0 10
def qualWtr (d : DistState) (n : Nat) : Nat := rdF d.base (refReg n (if n < 4 then 0x048 else 0x05C)) 16 12
def phaseJump (d : DistState) (n : Nat) : Nat := rdF d.base (refReg n (if n < 4 then 0x04C else 0x060)) 16 14

/-- Every monitor that applies to the source's mode passes (R121). -/
def monitorsPass (d : DistState) (n : Nat) : Bool :=
  let x := tabGet {} n d.root.srcs
  match refMode d n with
  | 0 => false
  | 1 => x.clk && x.pps && x.freq && x.phase && x.drift
  | _ => x.pps && x.phase && x.drift

/-- A division whose rounding the spec does not give. -/
def quot (x : Int) (n : Nat) : Int := Config.rounded 0 x n

/-- The mean of a list. -/
def meanOf (l : List Int) : Int := quot (l.foldl (· + ·) 0) l.length

/-! ## Hall seconds and phase (R111, R112) -/

/-- The part's epoch reference E of a distributor. -/
def epochRef (d : DistState) : Nat := (rd64 d.base 0x105C).toNat

/-- The current tick is an HT second mark (R112). -/
def secondMark (d : DistState) : Bool :=
  d.base.valid && decide ((d.base.ns.toNat + 2 ^ 64 - epochRef d) % 2 ^ 64 % 1000000000 = 0)

/-- A difference of times in ns as the distance to the nearest whole second, −0.5 s to just under +0.5 s. -/
def centred (x : Int) : Int := (x + 500000000) % 1000000000 - 500000000

/-- Phase of a second mark that precedes the current edge by `frac` / 64 ns (R112), units of 2^-6 ns. -/
def markPhase (d : DistState) (frac : Nat) : Int :=
  let x : Int := 64 * ((d.base.ns.toNat : Int) - (epochRef d : Int)) - (frac : Int)
  (x + 32000000000) % 64000000000 - 32000000000

/-! ## Fields of SEL.STS (R605) -/

def selState (d : DistState) : Nat := rdF d.base 0x2048 0 2
def selected (d : DistState) : Nat := rdF d.base 0x2048 2 3
def switching (d : DistState) : Bool := rdB d.base 0x2048 5
def target (d : DistState) : Nat := rdF d.base 0x2048 6 3
def realigning (d : DistState) : Bool := rdB d.base 0x2048 9
def buildout (d : DistState) : Int := sext 64 (rd64 d.base 0x204C).toNat
def setBuildout (b : Int) (s : State) : State := onDist (dB (wr64 0x204C (BitVec.ofInt 64 b))) s
def selPrio (d : DistState) (n : Nat) : Nat := rdF d.base 0x2044 (4 * n) 4

/-- Lock threshold in ns, acquisition and tracking bandwidth in mHz, and the marks a switch measures (R127). -/
def lockThr : Nat → Int
  | 1 => 10
  | 2 => 20
  | _ => 100
def acqBw : Nat → Nat
  | 1 => 1000
  | 2 => 100
  | _ => 10
def trackBw : Nat → Nat
  | 1 => 100
  | 2 => 10
  | _ => 1
def switchMarks : Nat → Nat
  | 1 => 2
  | 2 => 4
  | _ => 16

/-! ## The control word (R127, R132, R146) -/

/-- Apply a control word at the root; the mean of the hall second counts the ticks of the old one. -/
def rootWord (w : Int) (s : State) : State :=
  let now := s.dist.base.tick
  let cur := curWord s .dist
  applyWord .dist w (onRoot (fun r => { r with acc := r.acc + cur * ((now - r.accAt : Nat) : Int), accAt := now }) s)

/-- The mean control word of the last 10 hall seconds, or the present one before any second has passed. -/
def mean10 (s : State) : Int :=
  match s.dist.root.means.take 10 with
  | [] => curWord s .dist
  | l => meanOf l

/-! ## Flowstone and the aged model (R143 to R147) -/

/-- The ring of 16,384 entries, and its usable ones. -/
def fsRing (r : Root) : List FsRec := r.recs.take 16384
def fsUsable (r : Root) : List FsRec := (fsRing r).filter (·.usable)

/-- Usable entries of the window for a loss now (R144). -/
def fsWindow (d : DistState) : List FsRec :=
  let len := rdF d.base 0x7048 0 14
  let guard := rdF d.base 0x7048 16 12
  (fsUsable d.root).filter fun x =>
    decide (x.sec + guard ≤ d.root.secs) && decide (d.root.secs < x.sec + guard + len)

/-- The usable words that the aged model holds (R147). -/
def ageRecs (d : DistState) : List FsRec :=
  let span := rdF d.base 0x7050 0 20
  d.root.recs.filter fun x => x.usable && decide (d.root.ageFrom ≤ x.sec) && decide (d.root.secs < x.sec + span)

/-- Running sums of the least-squares line: n, Σx, Σy, Σx², Σxy. -/
structure AgeSums where
  n : Int
  sx : Int
  sy : Int
  sxx : Int
  sxy : Int
  deriving DecidableEq, Repr

def ageSums (d : DistState) : AgeSums :=
  (ageRecs d).foldl (fun a x =>
    let t : Int := (x.sec : Int)
    { n := a.n + 1, sx := a.sx + t, sy := a.sy + x.word, sxx := a.sxx + t * t, sxy := a.sxy + t * x.word })
    { n := 0, sx := 0, sy := 0, sxx := 0, sxy := 0 }

/-- Slope of the line as numerator and denominator. -/
def ageNum (a : AgeSums) : Int := a.n * a.sxy - a.sx * a.sy
def ageDen (a : AgeSums) : Int := a.n * a.sxx - a.sx * a.sx

/-- The aged model is valid (R147). -/
def ageValid (d : DistState) : Bool :=
  let a := ageSums d
  rdB d.base 0x7054 1 && !rdB d.base 0x7054 2 && decide (0 < ageDen a) &&
  decide ((9 * rdF d.base 0x7050 0 20 : Nat) ≤ 10 * a.n)

/-- Keep AGE_VALID and SLOPE (R610). -/
def noteAge (s : State) : State :=
  let v := ageValid s.dist
  let a := ageSums s.dist
  let s := if v then onDist (dB (wr 0x705C (wordOfInt (quot (ageNum a * 65536) (ageDen a).toNat)))) s else s
  if rdB s.dist.base 0x7054 0 = v then s else onDist (dB fun b => pgEvt 0x07 2 (wrB 0x7054 0 v b)) s

/-! ## Root states (R129 to R131) -/

/-- Drive RSTATE and HOLD_N for the root state (R130); `adm.pins` is the word they then show. -/
def rootPins (d : DistState) : DistState :=
  let st := rdF d.base 0x2048 0 2
  let hold := if st = 3 then 0 else 1
  let d := dB (fun b => emit (.pin .holdN hold) (emit (.pin .rstate st) b)) d
  { d with adm := { d.adm with pins := 2 * st + hold } }

/-- Change the root state, log the transition and keep its time (R129, R604). -/
def setRoot (st : Nat) (h : Hap) (s : State) : State :=
  let old := selState s.dist
  if old = st then s
  else
    let s := onDist (fun d => rootPins (dB (fun b => pgEvt 0x02 0 (wr64 0x2068 (nsNow b) (wrF 0x2048 0 2 st b))) d)) s
    let s := if st = 3 then onDist (dB (pgEvt 0x07 0)) s else if old = 3 then onDist (dB (pgEvt 0x07 1)) s else s
    let s := onRoot (fun r => { r with lockRun := 0, unlockRun := 0, steady := false }) s
    logD h noPort 0 0 (if h = dRootState then st else 0) s

/-- Forget the switch in progress. -/
def endSwitch (s : State) : State :=
  onRoot (fun r => { r with meas := [] }) (onDist (dB fun b => wrF 0x2048 6 3 7 (wrB 0x2048 5 false b)) s)

/-- Stop a realignment where it is (R138). -/
def stopRealign (s : State) : State :=
  if realigning s.dist then
    logD dRealignAborted noPort 0 0 0 (onDist (dB fun b => pgEvt 0x02 2 (wrB 0x2048 9 false b)) s)
  else s

/-- Start a switch to a source (R132, R136, R138): the word is held at its ten-second mean, or as it is where the switch
enters from FREERUN or HOLDOVER or follows a lost target. -/
def startSwitch (n : Nat) (keep : Bool) (s : State) : State :=
  let s := stopRealign s
  let s := if keep then s else rootWord (mean10 s) s
  onRoot (fun r => { r with meas := [], steady := false })
    (onDist (dB fun b => wrF 0x2048 6 3 n (wrB 0x2048 5 true b)) s)

/-- Enter HOLDOVER with the word of R145, or FREERUN where no entry is usable (R129, R144 to R146). DESIGN CHOICE (assumption
125): a realignment under way stops as at a switch, with REALIGN_ABORTED; R138 speaks only of a switch that starts. -/
def loseRoot (s : State) : State :=
  let d := s.dist
  let win := fsWindow d
  let all := fsUsable d.root
  let s := endSwitch (onDist (dB fun b => wrF 0x2048 2 3 7 (wr64 0x7064 (nsNow b) b)) (stopRealign s))
  if all.isEmpty then setRoot 0 dFreerunEntered (rootWord (mean10 s) s)
  else
    let short := decide (win.length < rdF d.base 0x704C 0 10)
    let w := meanOf ((if short then all else win).map (·.word))
    let s := onDist (dB fun b => wrF 0x7054 8 24 0 (wrB 0x7054 3 short (wr 0x7058 (wordOfInt w) b))) s
    let s := if short then logD dHoldoverShort noPort 0 0 0 s else s
    let c := 2 * ((d.root.secs : Int) - (rdF d.base 0x7048 16 12 : Nat)) - (rdF d.base 0x7048 0 14 : Nat)
    let comp := rdB d.base 0x7050 31
    setRoot 3 dHoldoverEntered (onRoot (fun r => { r with holdWord := w, holdCentre := c, ageComp := comp }) s)

/-! ## Eligibility and selection (R122 to R126, R134 to R136) -/

/-- A source is eligible (R123, R124). -/
def eligible (d : DistState) (n : Nat) : Bool :=
  let x := tabGet {} n d.root.srcs
  let st := selState d
  x.qual && selPrio d n != 15 && (!x.everDisq || x.wtrDone || (rdB d.base 0x2040 1 && (st == 0 || st == 3)))

/-- The eligible source of highest priority (R125). -/
def bestSrc (d : DistState) : Option Nat :=
  [0, 1, 2, 3, 4].foldl (fun best n =>
    if eligible d n then
      match best with
      | some m => if selPrio d n < selPrio d m then some n else some m
      | none => some n
    else best) none

/-- Bit n: REFn is qualified (R122). -/
def refOkBits (d : DistState) : Nat :=
  [0, 1, 2, 3].foldl (fun m n => if (tabGet {} n d.root.srcs).qual then m + 2 ^ n else m) 0

/-- Note a source that becomes eligible (R598). -/
def noteElig (n : Nat) (s : State) : State :=
  let e := eligible s.dist n
  let s := if e && !(srcOf s n).elig then onDist (dB (pgEvt (refPage n) 2)) s else s
  onSrc n (fun x => { x with elig := e }) s

/-- Choose a source after eligibility, priorities or the switch have changed (R125, R126, R129, R134 to R136). -/
def choose (s : State) : State :=
  let d := s.dist
  let sel := selected d
  let st := selState d
  if switching d then
    if (tabGet {} (target d) d.root.srcs).qual then s
    else
      let s := logD dSwitchTargetLost noPort 0 0 (target d) (endSwitch s)
      match bestSrc s.dist with
      | some n => startSwitch n true s
      | none => loseRoot s
  else if sel = 7 then
    match bestSrc d with
    | some n => startSwitch n true (setRoot 1 dRootState s)
    | none => s
  else
    let lost := !(tabGet {} sel d.root.srcs).qual || selPrio d sel == 15
    match bestSrc d with
    | some n =>
      if lost then startSwitch n false s
      else if n ≠ sel ∧ rdB d.base 0x2040 0 ∧ selPrio d n < selPrio d sel then startSwitch n (decide (st = 0)) s
      else s
    | none => if lost then loseRoot s else s

/-- Eligibility changed: events, pins and the choice. -/
def reselect (s : State) : State :=
  choose ([0, 1, 2, 3, 4].foldl (fun s n => noteElig n s) s)

/-- The qualification of a source ends (R122, R606, R607). -/
def disqualify (n : Nat) (cause : Nat) (s : State) : State :=
  if (srcOf s n).qual then
    let s := onSrc n (fun x => { x with qual := false, everDisq := true, cause := cause, hist := [], soft := false }) s
    let a := refReg n 0x060
    let s := onDist (dB fun b => pgEvt (refPage n) 1 (if n < 4 then inc a b else b)) s
    reselect (onDist (fun d => dB (emit (.pin .refOk (refOkBits d))) d) s)
  else s

/-- A monitor of a source fails: its cause is logged, its times start from zero, and its qualification ends (R121 to R123). -/
def failMonitor (n cause : Nat) (h : Hap) (was : Bool) (f : RefSrc → RefSrc) (s : State) : State :=
  let s := onSrc n (fun x => { f x with served := 0, whole := false, wtrDone := false }) s
  disqualify n cause (if was then logD h noPort 0 0 n s else s)

/-- A source starts over after its settings have changed (R114, R609). DESIGN CHOICE (assumption 40): a change of a REF source's
mode ends its qualification, and nothing is logged, since R152 names no happening for it. -/
def restartSrc (n : Nat) (s : State) : State :=
  onSrc n (fun x => { ({} : RefSrc) with everDisq := x.everDisq, cause := x.cause }) (disqualify n (srcOf s n).cause s)

/-! ## Epoch (R25, R133, R150, R603) -/

/-- An HT second mark at a distributor: PPSOUT, where LIM.CTL enables it (R149, R150, R504), and the CLK page event. -/
def ppsPulse (s : State) : State :=
  let b := s.dist.base
  let s := onDist (dB (pgEvt 0x01 2)) s
  if rdB b 0x0E040 1 then
    onRoot (fun r => { r with ppsEnd := some (b.tick + rdF b 0x1068 0 29) }) (onDist (dB (emit (.pin .ppsout 1))) s)
  else s

/-- An ARM is pending on the selected source's mark, not on the 1,000 ticks of a root with none (R25). -/
def epochOnMark (d : DistState) : Bool := rdB d.base 0x1050 2 && d.root.armAt.isNone

/-- A window that is open keeps its remaining duration across an epoch: a new window, in the page events (R513, R598). -/
def windowMove (load : BitVec 64) (b : Base) : Base := match b.window with
  | some e =>
    if b.ns.toNat < e.toNat then
      let e' := load + (e - b.ns)
      pgEvt 0x0D 0 (wr64 0x0D04C e' { b with window := some e' })
    else b
  | none => b

/-- A phase against the second marks of before, `psi` being the present edge's own, as a phase against the marks that count from
this edge (R112, R133). -/
def rephase (psi x : Int) : Int := (x - psi + 32000000000) % 64000000000 - 32000000000

/-- The phases that a source has shown, against the second marks of the new epoch. -/
def rebaseSrc (psi : Int) (n : Nat) (s : State) : State :=
  if (srcOf s n).marks = 0 then s
  else
    let s := onSrc n (fun x => { x with phi := rephase psi x.phi, prev := rephase psi x.prev, hist := x.hist.map (rephase psi) }) s
    onDist (dB (wr64 (refReg n (if n < 4 then 0x054 else 0x06C)) (BitVec.ofInt 64 (srcOf s n).phi))) s

/-- The armed epoch takes effect on this edge (R25, R55, R513, R603). The second that it cuts short is no hall second: its sum is
dropped, and a new second starts here (R111, R143). -/
def epochTake (s : State) : State :=
  let psi := markPhase s.dist 0
  let s := [0, 1, 2, 3, 4].foldl (fun s n => rebaseSrc psi n s) s
  let s := onRoot (fun r => { r with meas := r.meas.map (rephase psi), acc := 0, accAt := s.dist.base.tick, steady := false }) s
  let b := s.dist.base
  let load := rd64 b 0x1054
  let gen := rdF b 0x1050 16 16
  let s := onDist (dB fun b => { windowMove load b with ns := load, slip := true }) s
  let s := onDist (dB fun b => pgEvt 0x01 1 (wrB 0x1050 2 false (wrB 0x1050 1 true (wrF 0x104C 0 16 gen (wr64 0x105C load b))))) s
  ppsPulse (onRoot (fun r => { r with armAt := none, secAt := some b.tick }) s)

/-! ## Second marks of a reference (R115, R121, R127, R132) -/

/-- The phase that the previous marks predict (R121); `i` is the index of the free value. -/
def predicted (i : Nat) (x : RefSrc) : Int :=
  if x.marks = 1 ∨ x.phi = x.prev then x.phi else Config.phasePred i x.phi x.prev

/-- A step of the word toward another, at the rate of R137 (R137, R146). -/
def wordStep (d : DistState) : Int := ((rdF d.base 0x2054 0 5 * 2 ^ 40 / 1000000000 : Nat) : Int)

/-- The root servo on a mark of the selected source (R127, R128, R604). During a realignment the word stays within the rate of
R137 of the integrator, which is the loop's measure of the source's frequency (assumption 35). -/
def rootServo (n : Nat) (phi : Int) (s : State) : State :=
  let e := phi - buildout s.dist
  let m := refMode s.dist n
  let bw := if selState s.dist = 2 then trackBw m else acqBw m
  let ok := decide ((e.natAbs : Int) ≤ 64 * lockThr m)
  let i := s.dist.root.integ + Config.rootInteg s.dist.base.free bw e
  let s := onRoot (fun r => { r with err := e, integ := i }) s
  let s := onDist (dB fun b => wrB 0x2048 10 ok (wr 0x2060 (wordOfInt (clampInt 2147483647 e)) (draw b))) s
  let w := i + Config.rootProp s.dist.base.free bw e
  rootWord (if realigning s.dist then i + clampInt (wordStep s.dist) (w - i) else w) s

/-- A second mark of a source with its phase (R121): checks, then the switch or the servo. -/
def refMark (n : Nat) (phi : Int) (s : State) : State :=
  let d := s.dist
  let x := srcOf s n
  let now := d.base.tick
  let early := match x.last with
    | some t => decide (now < t + 999990000)
    | none => false
  let jump := decide (1 ≤ x.marks) && decide ((64 * (phaseJump d n : Nat) : Int) < (phi - predicted d.base.free x).natAbs)
  let note := fun (x : RefSrc) => { x with last := some now, phi := phi, prev := x.phi, marks := min 2 (x.marks + 1),
                                           pps := true }
  let s := onDist (dB fun b => wr64 (refReg n (if n < 4 then 0x054 else 0x06C)) (BitVec.ofInt 64 phi) (draw b)) s
  if early || jump then failMonitor n 3 dRefPhase x.phase (fun x => { note x with phase := false }) s
  else
    let s := onSrc n (fun x => { note x with phase := true }) s
    if switching d then
      if target d = n then onRoot (fun r => { r with meas := r.meas ++ [phi] }) s else s
    else if selected d = n then rootServo n phi s
    else s

/-- An edge of PPSINn at a root: a second mark where it is the edge that PPS_EDGE selects (R115). -/
def refMarkOp (n : Nat) (falling : Bool) (frac : Nat) (s : State) : State :=
  let d := s.dist
  if refMode d n = 0 ∨ !d.base.valid ∨ rdB d.base (refReg n 0x040) 2 ≠ falling then s
  else if epochOnMark d && selected d == n then
    onRoot (fun r => { r with err := 0 }) (setBuildout (-(frac : Int)) (epochTake (refMark n (markPhase d frac) s)))
  else refMark n (markPhase d frac) s

/-- SWITCH_COMMIT (R132, R134). -/
def commitOp (s : State) : State :=
  let d := s.dist
  let n := target d
  if switching d && decide (switchMarks (refMode d n) ≤ d.root.meas.length) then
    let b := meanOf d.root.meas
    let w := curWord s .dist
    let s := endSwitch (setBuildout b s)
    let s := onDist (dB fun x => pgEvt 0x02 1 (inc 0x2070 (wrF 0x2048 2 3 n x))) s
    let s := onRoot (fun r => { r with integ := w, err := 0, lockRun := 0, unlockRun := 0, commitAt := some d.base.tick }) s
    logD dRefSwitch noPort (wrapBits 16 (clampInt 32767 b)) 0 n s
  else s

/-- The tick after a commit: a switch to a better source that waited starts (R134). -/
def afterCommit (s : State) : State := match s.dist.root.commitAt with
  | some t => if t < s.dist.base.tick then choose (onRoot (fun r => { r with commitAt := none }) s) else s
  | none => s

/-- SEL.CTL.REALIGN (R137, R138). -/
def realignOp (s : State) : State :=
  let d := s.dist
  if selState d ≠ 2 ∨ switching d then logD dRealignRefused noPort 0 0 0 s
  else onDist (dB (wrB 0x2048 9 true)) s

/-! ## The drift vote (R139 to R142) -/

def driftInt (d : DistState) : Nat := rdF d.base 0x2058 0 14
def driftSoft (d : DistState) : Nat := rdF d.base 0x2058 16 14
def driftHard (d : DistState) : Nat := rdF d.base 0x205C 0 14

/-- The change of a source's phase over the last integration time, once it has been qualified that long (R139). -/
def excursion (d : DistState) (n : Nat) : Option Int :=
  let x := tabGet {} n d.root.srcs
  if x.qual then
    match x.hist[0]?, x.hist[driftInt d]? with
    | some a, some b => some (a - b)
    | _, _ => none
  else none

/-- |X| of a source against the aged model does not exceed `t` ns (R141): the source's phase against XOIN less the phase
that the model predicts, kept exact. -/
def agreesModel (d : DistState) (x : Int) (t : Nat) : Bool :=
  let a := ageSums d
  let k : Int := (driftInt d : Int)
  let w := (d.root.means.take (driftInt d)).foldl (· + ·) 0
  let sumk := k * (d.root.secs : Int) - k * (k - 1) / 2
  let den := a.n * ageDen a
  let m := k * a.sy * ageDen a + ageNum a * (a.n * sumk - k * a.sx)
  decide ((x * 2 ^ 40 * den - 64000000000 * (w * den - m)).natAbs ≤ 64 * (t : Int) * 2 ^ 40 * den)

/-- Two voters agree at a threshold; 5 is the aged model. -/
def voteAgree (d : DistState) (t i j : Nat) : Bool :=
  match excursion d i, excursion d j with
  | some x, some y => decide ((x - y).natAbs ≤ 64 * t)
  | some x, none => agreesModel d x t
  | none, some y => agreesModel d y t
  | none, none => true

/-- The aged model votes (R141). -/
def qualCount (d : DistState) : Nat := ([0, 1, 2, 3, 4].filter fun n => (tabGet {} n d.root.srcs).qual).length
def modelVotes (d : DistState) : Bool :=
  (qualCount d == 1 || qualCount d == 2) && rdB d.base 0x7054 0 && decide (driftInt d ≤ d.root.means.length)

/-- The voters: judged sources, and the model where it votes. -/
def voters (d : DistState) : List Nat :=
  ([0, 1, 2, 3, 4].filter fun n => (excursion d n).isSome) ++ (if modelVotes d then [5] else [])

/-- A source is outvoted at a threshold (R140, R141). -/
def outvoted (d : DistState) (t i : Nat) : Bool :=
  let vs := (voters d).filter (· != i)
  let no := vs.filter fun j => !voteAgree d t i j
  let yes := (vs.filter (voteAgree d t i)).length + 1
  (excursion d i).isSome && (if qualCount d = 1 then !no.isEmpty
    else decide (yes < no.length) && no.all fun j => no.all fun k => j == k || voteAgree d t j k)

/-- The vote of one hall second for a source (R142). -/
def voteSrc (n : Nat) (soft hard : Bool) (s : State) : State :=
  let x := srcOf s n
  let s := onSrc n (fun x => { x with soft := soft && x.qual }) s
  let s := if soft && !x.soft then logD dRefDriftSoft noPort 0 0 n (onDist (dB (pgEvt 0x02 3)) s) else s
  if hard then failMonitor n 4 dRefDrift x.drift (fun x => { x with drift := false, clean := 0 }) s
  else if x.drift then s
  else onSrc n (fun x => { x with clean := x.clean + 1, drift := decide (driftInt s.dist ≤ x.clean + 1) }) s

def voteBits (p : Nat → Bool) : Nat := [0, 1, 2, 3, 4].foldl (fun m n => if p n then m + 2 ^ n else m) 0

/-- The drift vote of a hall second (R139 to R142, R604). -/
def driftVote (s : State) : State :=
  let d := s.dist
  let soft := outvoted d (driftSoft d)
  let hard := outvoted d (driftHard d)
  let js := voters d
  let none_ := [0, 1, 2, 3, 4].all fun n => !hard n
  let split := none_ && js.any fun i => js.any fun j => decide (i < j) && decide (j < 5) && !voteAgree d (driftHard d) i j
  let model := modelVotes d
  let q := qualCount d
  let unch := (q == 1 || q == 2) && !rdB d.base 0x7054 0
  let word := voteBits soft + 2 ^ 8 * voteBits hard + (if split then 2 ^ 16 else 0) + (if model then 2 ^ 17 else 0) +
    (if unch then 2 ^ 18 else 0)
  let s := onDist (dB (wr 0x2064 (BitVec.ofNat 32 word))) s
  let ev := fun s => onDist (dB (pgEvt 0x02 3)) s
  let s := if split && !d.root.split then logD dDriftSplit noPort 0 0 0 (ev s) else s
  let s := if unch && !d.root.unchecked then logD dDriftUnchecked noPort 0 0 0 (ev s) else s
  let s := onRoot (fun r => { r with split := split, unchecked := unch }) s
  [0, 1, 2, 3, 4].foldl (fun s n => voteSrc n (soft n) (hard n) s) s

/-! ## The HT second mark at a root -/

/-- The frequency monitor of a REF source on the edges counted in the last hall second (R121). -/
def freqMonitor (n count : Nat) (s : State) : State :=
  let d := s.dist
  if refMode d n = 1 then
    let f := (rd d.base (refReg n 0x044)).toNat
    let band := rdF d.base (refReg n 0x04C) 0 10
    let bad := decide (f * band < ((count : Int) - (f : Int)).natAbs * 10000000)
    let x := srcOf s n
    let s := onDist (dB (wr (refReg n 0x05C) (BitVec.ofNat 32 count))) s
    let s := onSrc n (fun x => { x with clk := x.clk || decide (0 < count) }) s
    if bad then
      if 1 ≤ x.badFreq then failMonitor n 2 dRefFreq x.freq (fun x => { x with freq := false, badFreq := 2 }) s
      else onSrc n (fun x => { x with badFreq := 1 }) s
    else onSrc n (fun x => { x with badFreq := 0, freq := true }) s
  else s

/-- The second's mean control word, the Flowstone entry and the start of the next second (R143). -/
def recordSecond (elapsed : Nat) (s : State) : State :=
  let now := s.dist.base.tick
  let cur := curWord s .dist
  let st := selState s.dist
  let soft := (tabGet {} (selected s.dist) s.dist.root.srcs).soft
  onRoot (fun r =>
    let sum := r.acc + cur * ((now - r.accAt : Nat) : Int)
    let w := if elapsed = 0 then cur else quot sum elapsed
    let ent : FsRec := { sec := r.secs, word := w, usable := r.steady && !soft }
    { r with acc := 0, accAt := now, means := (w :: r.means).take 10001, steady := decide (st = 2) && !switching s.dist && !soft,
             recs := if st = 2 then (ent :: r.recs).take 621184 else r.recs }) s

/-- The lock check of R129. -/
def lockCheck (s : State) : State :=
  let d := s.dist
  let n := selected d
  if n = 7 ∨ switching d then s
  else
    let thr := 64 * lockThr (refMode d n)
    let e : Int := d.root.err.natAbs
    if selState d = 1 then
      let run := if e ≤ thr then d.root.lockRun + 1 else 0
      let s := onRoot (fun r => { r with lockRun := run }) s
      if 4 ≤ run then setRoot 2 dRootState s else s
    else if selState d = 2 then
      let run := if 4 * thr < e then d.root.unlockRun + 1 else 0
      let s := onRoot (fun r => { r with unlockRun := run }) s
      if 4 ≤ run then setRoot 1 dLockLost s else s
    else s

/-- One hall second of qualification, wait-to-restore and phase history (R122, R123, R139): it counts where every monitor has
passed since the mark that began it. -/
def serveSrc (n : Nat) (s : State) : State :=
  let pass := monitorsPass s.dist n
  onSrc n (fun x => { x with served := if !pass then 0 else if x.whole then x.served + 1 else x.served, whole := pass,
                             hist := if x.qual then (x.phi :: x.hist).take 10001 else [] }) s

/-- One hall second of holdover (R146). -/
def holdSecond (s : State) : State :=
  let d := s.dist
  if selState d = 3 ∧ !switching d then
    let a := ageSums d
    let aged := d.root.ageComp && rdB d.base 0x7054 0
    let add := if aged then quot (ageNum a * (2 * (d.root.secs : Int) - d.root.holdCentre)) (2 * ageDen a).toNat else 0
    let cur := curWord s .dist
    let s := onDist (dB (incF 0x7054 8 24)) s
    rootWord (cur + clampInt (wordStep d) (d.root.holdWord + add - cur)) s
  else s

/-- One hall second of a realignment (R137). -/
def realignSecond (s : State) : State :=
  let d := s.dist
  if realigning d then
    let b := buildout d
    let b' := b - clampInt (64 * (rdF d.base 0x2054 0 5 : Nat)) b
    let s := setBuildout b' s
    if b' = 0 then logD dRealignDone noPort 0 0 0 (onDist (dB fun x => pgEvt 0x02 2 (wrB 0x2048 9 false x)) s) else s
  else s

/-- What a root does on an HT second mark. -/
def rootSecond (c0 c1 c2 c3 elapsed : Nat) (s : State) : State :=
  let s := freqMonitor 3 c3 (freqMonitor 2 c2 (freqMonitor 1 c1 (freqMonitor 0 c0 s)))
  let s := recordSecond elapsed s
  let s := lockCheck s
  let s := [0, 1, 2, 3, 4].foldl (fun s n => serveSrc n s) s
  let s := driftVote (noteAge s)
  reselect (realignSecond (holdSecond s))

/-! ## The meanings -/

/-- A command to the root logic: without the ROOT strap it does nothing (R110). -/
def ifRoot (f : State → State) (s : State) : State := if isRoot s.dist then ifDistRuns f s else s

/-- XO_FAIL (R117). -/
def execXoFail (s : State) : Host.Outcome State Fault Refusal :=
  .next (ifRoot (fun s => if rdB s.dist.base 0x7054 1 then
    noteAge (logD dXoFail noPort 0 0 0 (onDist (dB fun b => wrB 0x7054 2 true (wrB 0x7054 1 false b)) s)) else s) s)

/-- REF_CLOCK_LOSS (R121). -/
def execRefClockLoss (n : BitVec 2) (s : State) : Host.Outcome State Fault Refusal :=
  .next (ifRoot (fun s => if refMode s.dist n.toNat = 1 then
    failMonitor n.toNat 1 dRefLos (srcOf s n.toNat).clk (fun x => { x with clk := false }) s else s) s)

/-- REF_PULSE_TIMEOUT (R121). -/
def execRefPulseTimeout (n : BitVec 2) (s : State) : Host.Outcome State Fault Refusal :=
  .next (ifRoot (fun s =>
    let x := srcOf s n.toNat
    match x.last with
    | some t => if refMode s.dist n.toNat ≠ 0 ∧ t + 1000010000 < s.dist.base.tick then
        failMonitor n.toNat 1 dRefLos x.pps (fun x => { x with pps := false }) s else s
    | none => s) s)

/-- REF_SECOND_MARK (R25, R115, R121, R127, R132). -/
def execRefSecondMark (n : BitVec 2) (edge : PpsEdge) (s : State) : Host.Outcome State Fault Refusal :=
  .next (ifRoot (refMarkOp n.toNat edge.falling edge.frac.toNat) s)

/-- SOURCE_QUALIFIED (R122). -/
def execSourceQualified (src : BitVec 3) (s : State) : Host.Outcome State Fault Refusal :=
  let n := src.toNat
  .next (ifRoot (fun s =>
    if n ≤ 4 ∧ monitorsPass s.dist n ∧ !(srcOf s n).qual ∧ qualTime s.dist n ≤ (srcOf s n).served then
      let s := onDist (dB (pgEvt (refPage n) 0)) (onSrc n (fun x => { x with qual := true, hist := [] }) s)
      reselect (onDist (fun d => dB (emit (.pin .refOk (refOkBits d))) d) s)
    else s) s)

/-- WTR_EXPIRY (R123). -/
def execWtrExpiry (src : BitVec 3) (s : State) : Host.Outcome State Fault Refusal :=
  let n := src.toNat
  .next (ifRoot (fun s =>
    if n ≤ 4 ∧ monitorsPass s.dist n ∧ (srcOf s n).everDisq ∧ qualWtr s.dist n ≤ (srcOf s n).served then
      reselect (onSrc n (fun x => { x with wtrDone := true }) s)
    else s) s)

/-- SWITCH_COMMIT (R132). -/
def execSwitchCommit (s : State) : Host.Outcome State Fault Refusal := .next (ifRoot commitOp s)

/-- REALIGN (R137, R138). -/
def execRealign (s : State) : Host.Outcome State Fault Refusal := .next (ifRoot realignOp s)

/-- FRMOUT_PULSE (R149, R504): high for the frame cycle that starts on this tick. -/
def execFrmoutPulse (s : State) : Host.Outcome State Fault Refusal :=
  .next (ifDistRuns (fun s =>
    let b := s.dist.base
    if b.valid ∧ rdB b 0x0E040 2 ∧ b.ns.toNat % (4 * rdF b 0x106C 0 16) = 0 then
      onRoot (fun r => { r with frmEnd := some (b.tick + 4) }) (onDist (dB (emit (.pin .frmout 1))) s)
    else s) s)

/-- FRMOUT goes low after one frame cycle (R149). -/
def frmoutEnd (d : DistState) : DistState := match d.root.frmEnd with
  | some t => if t ≤ d.base.tick then
      dB (emit (.pin .frmout 0)) { d with root := { d.root with frmEnd := none } } else d
  | none => d

/-- PPSOUT_PULSE_END (R149). -/
def execPpsoutPulseEnd (s : State) : Host.Outcome State Fault Refusal :=
  .next (ifDistRuns (fun s => match s.dist.root.ppsEnd with
    | some t => if t ≤ s.dist.base.tick then
        onRoot (fun r => { r with ppsEnd := none }) (onDist (dB (emit (.pin .ppsout 0))) s) else s
    | none => s) s)

/-- EPOCH_APPLY (R25): on the selected source's mark, `frac` / 64 ns before this edge, or 1,000 ticks after an ARM with no
source selected. -/
def execEpochApply (frac : BitVec 6) (s : State) : Host.Outcome State Fault Refusal :=
  .next (ifRoot (fun s =>
    let d := s.dist
    if rdB d.base 0x1050 2 then
      match d.root.armAt with
      | some t => if t + 1000 ≤ d.base.tick then epochTake s else s
      | none => if selected d = 7 then s else setBuildout (-(frac.toNat : Int)) (epochTake s)
    else s) s)

end Sys2Proof.Machine
end

