-- ==== Sys2Proof/Machine/Ptp.lean ====
section
/-! DEFINITION. The PTP slave of the root and the HT second mark of every distributor (R112, R118 to R121, R149, R608,
R609). -/

namespace Sys2Proof.Machine

def onPtp (f : Ptp → Ptp) (s : State) : State := onDist (fun d => { d with ptp := f d.ptp }) s

/-- PTP.CTL.EN, DOMAIN and ANN_TO, and the station's MAC address. -/
def ptpEn (d : DistState) : Bool := rdB d.base 0x8040 0
def ptpDomain (d : DistState) : Nat := rdF d.base 0x8048 0 7
def annTimeout (d : DistState) : Nat := rdF d.base 0x8048 8 4
def ptpMac (d : DistState) : BitVec 48 := (rd64 d.base 0x8054).setWidth 48

/-- A frame is of the configured transport, VLAN and domain (R118). DESIGN CHOICE (assumption 128): with VLAN_EN 1 a frame carries
the tag with VID, with VLAN_EN 0 none. -/
def ptpTakes (d : DistState) (h : PtpHdr) : Bool :=
  h.domain.toNat == ptpDomain d && h.l2 == rdB d.base 0x8048 12 &&
  h.vlan == (if rdB d.base 0x8048 15 then some (BitVec.ofNat 12 (rdF d.base 0x8048 16 12)) else none)

/-- Destination of a Delay_Req (R118, R609): multicast, or with DREQ_UNI the selected master. -/
def dreqDest (d : DistState) : BitVec 48 :=
  let multi := if rdB d.base 0x8048 12 then (if rdB d.base 0x8048 13 then 0x0180C200000E else 0x011B19000000) else 0xE0000181
  if rdB d.base 0x8048 14 then
    match d.ptp.masters.find? fun m => d.ptp.sel == some (m.id, m.port) with
    | some m => m.addr
    | none => multi
  else multi

/-- The Delay_Req that the slave sends. -/
def dreqFrame (d : DistState) : EthOut :=
  .delayReq d.ptp.dreqSeq (BitVec.ofNat 7 (ptpDomain d)) (rdB d.base 0x8048 12) (dreqDest d)
    (if rdB d.base 0x8048 15 then some (BitVec.ofNat 12 (rdF d.base 0x8048 16 12)) else none)

/-- Count a frame discarded by R119. -/
def ptpDiscard (s : State) : State := onDist (dB (incF 0x8068 16 16)) s

/-- A log2 interval in ticks. -/
def logTicks (l : BitVec 8) : Nat :=
  let i := l.toInt
  if 0 ≤ i then 1000000000 * 2 ^ i.toNat else 1000000000 / 2 ^ (-i).toNat

/-- A timestamp in ns. -/
def stampNs (t : PtpTime) : Int := ((t.sec.toNat * 1000000000 + t.ns.toNat : Nat) : Int)

/-! ## Selection of the master (R118; the data-set comparison of IEEE 1588, assumption 11) -/

/-- Compare two lists of numbers in order. -/
def lexLt : List Nat → List Nat → Bool
  | a :: s, b :: t => decide (a < b) || (a == b && lexLt s t)
  | _, _ => false

/-- One master is better than another. -/
def betterMaster (x y : PtpMaster) : Bool :=
  let gm := fun (m : PtpMaster) => [m.ann.pri1.toNat, m.ann.cls.toNat, m.ann.acc.toNat, m.ann.var.toNat, m.ann.pri2.toNat, m.ann.gm.toNat]
  let topo := fun (m : PtpMaster) => [m.ann.steps.toNat, m.id.toNat, m.port.toNat]
  if x.ann.gm = y.ann.gm then lexLt (topo x) (topo y) else lexLt (gm x) (gm y)

/-- The best master heard. -/
def bestMaster (l : List PtpMaster) : Option PtpMaster :=
  l.foldl (fun o m => match o with
    | some x => if betterMaster m x then some m else some x
    | none => some m) none

/-- Select the best master; a change forgets the measurements of the one before (R598, R608). DESIGN CHOICE (assumption 127): the
source stays qualified, since no monitor of R121 has failed; the spec does not say what such a change does to it. -/
def chooseMaster (s : State) : State :=
  let p := s.dist.ptp
  let new := (bestMaster p.masters).map fun m => (m.id, m.port)
  if new = p.sel then s
  else
    let s := onPtp (fun p => { p with sel := new, sync := none, t21 := none, dreq := none, dreqAt := none, mpd := none,
                                      filtN := 0, syncAt := s.dist.base.tick, syncLog := 0 }) s
    let w := match new with
      | some (id, port) => (id, packBits [(1, 1), (15, 0), (16, port.toNat)])
      | none => (0, 0)
    onDist (dB fun b => pgEvt 0x08 3 (wr 0x807C (BitVec.ofNat 32 w.2) (wr64 0x8074 w.1 b))) s

/-- An Announce (R118, R119). -/
def announceOp (h : PtpHdr) (a : PtpAnn) (s : State) : State :=
  if !ptpTakes s.dist h then ptpDiscard s
  else
    let m : PtpMaster := { id := h.src, port := h.port, addr := h.addr, ann := a, log := h.log, at_ := s.dist.base.tick }
    let s := onDist (dB (inc 0x8090)) s
    chooseMaster (onPtp (fun p => { p with masters := (p.masters.filter fun x => !(x.id == m.id && x.port == m.port)) ++ [m] }) s)

def fromMaster (d : DistState) (h : PtpHdr) : Bool := d.ptp.sel == some (h.src, h.port)

/-- The origin time of a Sync is known: t2 − t1 in 2^-16 ns, and the activity monitor passes (R120, R121). -/
def syncDone (t1 t2 corr : Int) (s : State) : State :=
  onSrc 4 (fun x => { x with pps := true }) (onPtp (fun p => { p with t21 := some ((t2 - t1) * 65536 - corr), sync := none }) s)

/-- A Sync of the selected master (R118 to R120). -/
def ptpSyncOp (h : PtpHdr) (twoStep : Bool) (origin : PtpTime) (s : State) : State :=
  let l := h.log.toInt
  if !ptpTakes s.dist h ∨ l < -7 ∨ 1 < l then ptpDiscard s
  else if fromMaster s.dist h then
    let b := s.dist.base
    let t2 : Int := ((nsNow b).toNat : Int) - (rdF b 0x804C 0 10 : Nat)
    let s := onDist (dB fun b => wrF 0x807C 16 8 h.log.toNat (inc 0x8084 b)) s
    let s := onPtp (fun p => { p with syncAt := b.tick, syncLog := h.log }) s
    if twoStep then onPtp (fun p => { p with sync := some (h.seq, t2, h.corr.toInt) }) s
    else syncDone (stampNs origin) t2 h.corr.toInt s
  else s

/-- The Follow_Up of the last two-step Sync. -/
def followUpOp (h : PtpHdr) (origin : PtpTime) (s : State) : State :=
  if !ptpTakes s.dist h then ptpDiscard s
  else if fromMaster s.dist h then
    match s.dist.ptp.sync with
    | some (q, t2, c) => if q = h.seq then syncDone (stampNs origin) t2 (c + h.corr.toInt) s else s
    | none => s
  else s

/-- The Delay_Req timer (R118, R120); a zero MAC address sends nothing (R609). -/
def delayReqOp (s : State) : State :=
  let p := s.dist.ptp
  let b := s.dist.base
  let due := match p.dreqAt with
    | some t => decide (t + logTicks p.dreqLog ≤ b.tick)
    | none => true
  if ptpEn s.dist && p.sel.isSome && ptpMac s.dist != 0 && due then
    let t3 : Int := ((nsNow b).toNat : Int) + (rdF b 0x8050 0 10 : Nat)
    let req := dreqFrame s.dist
    let s := onPtp (fun p => { p with dreq := some (p.dreqSeq, t3), dreqSeq := p.dreqSeq + 1, dreqAt := some b.tick }) s
    onDist (dB fun b => inc 0x8088 (emit (.eth req) b)) s
  else s

/-- logMessageInterval of a Delay_Resp, limited to −7 to +4 (R118). -/
def limitLog (l : BitVec 8) : BitVec 8 := if l.toInt < -7 then BitVec.ofInt 8 (-7) else if 4 < l.toInt then 4 else l

/-- A Delay_Resp that answers the request in flight: the mean path delay (R118). -/
def delayRespOp (h : PtpHdr) (rx : PtpTime) (mine : Bool) (s : State) : State :=
  let p := s.dist.ptp
  if !ptpTakes s.dist h then ptpDiscard s
  else if fromMaster s.dist h && mine then
    match p.dreq, p.t21 with
    | some (q, t3), some t21 =>
      if q = h.seq then
        let t43 := (stampNs rx - t3) * 65536 - h.corr.toInt
        let m := quot (t21 + t43) 2
        let s := onPtp (fun p => { p with dreq := none, mpd := some m, dreqLog := limitLog h.log }) s
        onDist (dB fun b => inc 0x808C (wr 0x8080 (BitVec.ofNat 32 (wrapBits 24 (quot m 65536))) b)) s
      else s
    | _, _ => s
  else s

/-- The PTP activity monitor (R121): a master that has fallen silent is dropped. -/
def activityOp (s : State) : State :=
  let p := s.dist.ptp
  let now := s.dist.base.tick
  let fresh := fun (m : PtpMaster) => decide (now ≤ m.at_ + annTimeout s.dist * logTicks m.log)
  match p.sel with
  | some k =>
    let gone := !p.masters.any fun m => (m.id, m.port) == k && fresh m
    let late := decide (p.syncAt + 3 * logTicks p.syncLog < now)
    let s := onPtp (fun p => { p with masters := p.masters.filter fresh }) s
    let s := if gone || late then failMonitor 4 1 dRefLos (srcOf s 4).pps (fun x => { x with pps := false }) s else s
    chooseMaster s
  | none => s

/-- The slave's raw phase of the master's second mark, units of 2^-6 ns (R112). -/
def ptpPhase (d : DistState) : Option Int := match d.ptp.t21, d.ptp.mpd with
  | some t, some m =>
    let x := quot (t - m) 1024 - 64 * (epochRef d : Int)
    some ((x + 32000000000) % 64000000000 - 32000000000)
  | _, _ => none

/-- The filtered offset of a hall second is the master's second mark (R112, R127). -/
def ptpSecond (s : State) : State :=
  match ptpPhase s.dist with
  | some raw =>
    if ptpEn s.dist && (srcOf s 4).pps then
      let p := s.dist.ptp
      let f := if p.filtN = 0 then raw else Config.ptpFilter s.dist.base.free p.filt raw
      refMark 4 f (onPtp (fun p => { p with filt := f, filtN := min 16 (p.filtN + 1) }) s)
    else s
  | none => s

/-- PORT_STATE (R608). -/
def ptpState (d : DistState) : Nat :=
  if !ptpEn d then 0 else if d.ptp.sel.isNone then 1 else if d.ptp.filtN < 16 then 2 else 3

/-- PTP.CFG or MAC has changed (R609): LISTENING, and the source is disqualified. -/
def ptpRestart (s : State) : State :=
  let s := failMonitor 4 1 dRefLos (srcOf s 4).pps (fun x => { x with pps := false }) s
  restartSrc 4 (chooseMaster (onPtp (fun p => { p with masters := [] }) s))

/-- The HT second mark of a distributor (R112, R149), and what a root does on it. -/
def secondOp (c0 c1 c2 c3 : Nat) (s : State) : State :=
  let d := s.dist
  if secondMark d ∧ d.root.secAt ≠ some d.base.tick then
    let elapsed := match d.root.secAt with
      | some t => d.base.tick - t
      | none => 0
    let s := ppsPulse (onRoot (fun r => { r with secs := r.secs + 1, secAt := some d.base.tick }) s)
    if isRoot d then rootSecond c0 c1 c2 c3 elapsed (ptpSecond s) else s
  else s

/-- A command to the enabled slave. -/
def ifPtp (f : State → State) (s : State) : State := ifRoot (fun s => if ptpEn s.dist then f s else s) s

/-! ## The meanings -/

/-- A distributor counts hall time: out of reset and not stopped (R471, R529). -/
def ifDistCounts (f : State → State) (s : State) : State := if s.dist.base.phase = .stopped then s else ifDist f s

/-- HT_SECOND_MARK (R111, R112, R129, R143, R146, R149): the edges counted on REFIN0 to REFIN3 in the second. A root marks seconds
from its release on, while SRAM is initialised too (R529). -/
def execHtSecondMark (c0 c1 c2 c3 : Word) (s : State) : Host.Outcome State Fault Refusal :=
  .next (ifDistCounts (secondOp c0.toNat c1.toNat c2.toNat c3.toNat) s)

/-- PTP_ANNOUNCE_RX (R118, R119). -/
def execPtpAnnounceRx (h : PtpHdr) (a : PtpAnn) (s : State) : Host.Outcome State Fault Refusal :=
  .next (ifPtp (announceOp h a) s)

/-- PTP_SYNC_RX (R118 to R120). -/
def execPtpSyncRx (h : PtpHdr) (twoStep : Bool) (origin : PtpTime) (s : State) : Host.Outcome State Fault Refusal :=
  .next (ifPtp (ptpSyncOp h twoStep origin) s)

/-- PTP_FOLLOW_UP_RX (R118). -/
def execPtpFollowUpRx (h : PtpHdr) (origin : PtpTime) (s : State) : Host.Outcome State Fault Refusal :=
  .next (ifPtp (followUpOp h origin) s)

/-- PTP_DELAY_REQ_TIMER (R118). -/
def execPtpDelayReqTimer (s : State) : Host.Outcome State Fault Refusal := .next (ifPtp delayReqOp s)

/-- PTP_DELAY_RESP_RX (R118). -/
def execPtpDelayRespRx (h : PtpHdr) (rxTime : PtpTime) (mine : Bool) (s : State) : Host.Outcome State Fault Refusal :=
  .next (ifPtp (delayRespOp h rxTime mine) s)

/-- PTP_ACTIVITY_TIMEOUT (R121). -/
def execPtpActivityTimeout (s : State) : Host.Outcome State Fault Refusal := .next (ifPtp activityOp s)

/-- ARP_REQUEST_RX (R118, R609). -/
def execArpRequestRx (ip : BitVec 32) (s : State) : Host.Outcome State Fault Refusal :=
  .next (ifRoot (fun s =>
    if ip = rd s.dist.base 0x8044 ∧ ptpMac s.dist ≠ 0 then
      onDist (fun d => dB (emit (.eth (.arpReply (ptpMac d) ip))) d) s
    else s) s)

/-- PTP_DISCARDED_FRAME (R119). -/
def execPtpDiscardedFrame (s : State) : Host.Outcome State Fault Refusal := .next (ifPtp ptpDiscard s)

end Sys2Proof.Machine
end

