-- ==== Sys2Proof/Machine/Calib.lean ====
section
/-! DEFINITION. Link calibration (R181 to R189, R616). -/

namespace Sys2Proof.Machine

def onCal (f : Calib → Calib) (s : State) : State := onDist (fun d => { d with cal := f d.cal }) s

/-- Exchanges that an average covers (R184). -/
def calAvg (d : DistState) : Nat := 2 ^ rdF d.base 0x12044 0 5

/-- The stored default of a port (R181): valid, SIGMA in ps and VALUE in 2^-10 ns. -/
structure CalDef where
  valid : Bool
  sigma : Nat
  value : Int
  deriving DecidableEq, Repr

def calDef (d : DistState) (n : Nat) : CalDef :=
  let w := rd d.base (0x12200 + 4 * n)
  { valid := bitOf w 31, sigma := max 1 (fld w 16 8), value := sext 16 (fld w 0 16) }

/-- A link's raw offsets: the mean of the last 2^AVG, in 2^-10 ns, and whether they number that many. -/
def rawMean (d : DistState) (n : Nat) : Int × Bool :=
  let k := calAvg d
  let l := (distPort d n).time.raws.take k
  (if l.isEmpty then 0 else quot (16 * l.foldl (· + ·) 0) l.length, decide (k ≤ l.length))

/-- The active upstream port. -/
def activeUpPort (d : DistState) : Nat := if rdB d.base 0x9064 4 then 129 else 128

/-! ## Held asymmetries (R189) -/

/-- CAL.ASYM_n of ports 128 to 131. -/
def asymAddr (n : Nat) : Nat := 0x120C0 + 4 * (n - 128)
def asymHeld (d : DistState) (n : Nat) : Int := sext 16 (rdF d.base (asymAddr n) 0 16)
def asymSolved (d : DistState) (n : Nat) : Bool := rdB d.base (asymAddr n) 31

/-- A port's asymmetry in 2^-10 ns (R96, R189): the held value, or a downstream port's stored default. -/
def asymOf (s : State) : PortRef → Int
  | .unit d => sext 16 (rdF s.unit.base (pageAddr (portPage (.unit d)) 0x064) 0 16)
  | .dist n =>
    if n.val < 128 then (let c := calDef s.dist n.val; if c.valid then c.value else 0)
    else asymHeld s.dist n.val

/-- Rounded to the nearest 2^-6 ns (R189). The spec gives no rule for the middle, where it is one of the two nearest
(assumption 10). -/
def asymRound (v : Int) : Int := if v % 16 = 8 then Config.rounded 0 v 16 else (v + 8) / 16

/-- Give a link that has never been solved its valid default, or 0 (R187). -/
def calUnsolved (n : Nat) (s : State) : State :=
  if asymSolved s.dist n then s
  else
    let c := calDef s.dist n
    onDist (dB (wrF (asymAddr n) 0 16 (wrapBits 16 (if c.valid then c.value else 0)))) s

/-- Move a held value toward its solution by at most MAX_STEP (R189). -/
def calMove (n : Nat) (goal : Int) (s : State) : State :=
  let s := calUnsolved n s
  let old := asymHeld s.dist n
  let step : Int := (rdF s.dist.base 0x12050 0 8 : Nat)
  let new := old + clampInt step (goal - old)
  let s := onDist (dB fun b => wrB (asymAddr n) 31 true (wrF (asymAddr n) 0 16 (wrapBits 16 new) b)) s
  if new = old then s else onDist (dB (pgEvt 0x12 0)) s

/-! ## The solve (R185 to R188) -/

/-- One link's share of the misclosure, σ² / s · m (R186). -/
def calShare (sigma total : Nat) (m : Int) : Int := Config.rounded 0 (((sigma * sigma : Nat) : Int) * m) total

/-- A rank-deficient solve (R187). -/
def calRank (s : State) : State :=
  if rdB s.dist.base 0x12054 0 then s
  else logD dCalRank noPort 0 0 0 (onDist (dB fun b => pgEvt 0x12 1 (wrB 0x12054 0 true b)) s)

/-- Apply a solution: the active upstream port, the carrying Rope port and the other one (R186). -/
def calApply (au ar : Int) (s : State) : State :=
  let d := s.dist
  let c := ropePort d
  let o := if c = 130 then 131 else 130
  let s := calMove c ar (calMove (activeUpPort d) au s)
  if (distPort d o).time.raws.isEmpty then s
  else calMove o (ar - ((rawMean d c).1 - (rawMean d o).1)) s

/-- The loop equation can be formed (R185). -/
def calFormed (d : DistState) : Option CalRec :=
  match d.cal.last with
  | some r =>
    let p := rd d.base 0x12058
    let act := rdB d.base 0x9064 4
    if (rawMean d (activeUpPort d)).2 && (rawMean d (ropePort d)).2 && r.rhoValid && bitOf p 31 && bitOf p 30 == act && r.upPort == act
    then some r else none
  | none => none

/-- One solve (R185 to R188). Whatever it finds, a link that was never solved first takes its valid default (R187). -/
def calSolve (s : State) : State :=
  let s := [128, 129, 130, 131].foldl (fun s n => calUnsolved n s) s
  let d := s.dist
  let s := onDist (dB fun b => wrB 0x12054 2 false (wrB 0x12054 1 (calFormed d).isSome b)) s
  match calFormed d with
  | none => calRank s
  | some r =>
    let u := calDef d (activeUpPort d)
    let x := calDef d (ropePort d)
    let c := (rawMean d (activeUpPort d)).1 - r.rhoUp - (rawMean d (ropePort d)).1 + sext 24 (rdF d.base 0x12058 0 24)
    let s := onDist (dB (inc 0x12064)) s
    let good := (if u.valid then 1 else 0) + (if r.defValid then 1 else 0) + (if x.valid then 1 else 0)
    let ok := fun s => onDist (dB (wrB 0x12054 0 false)) s
    if good = 3 then
      let m := c - (u.value - r.defUp - x.value)
      let rs := max 1 r.sigma
      let sm := rdF d.base 0x12048 0 8
      let tot := u.sigma * u.sigma + rs * rs + x.sigma * x.sigma + sm * sm
      let s := onDist (dB (wr 0x12060 (wordOfInt m))) (ok s)
      if (rdF d.base 0x1204C 0 14 : Nat) * 1024 < m.natAbs * 1000 then
        logD dCalMisclose noPort 0 0 0 (onDist (dB fun b => pgEvt 0x12 2 (wrB 0x12054 2 true b)) s)
      else calApply (u.value + calShare u.sigma tot m) (x.value - calShare x.sigma tot m) s
    else if good = 2 then
      let s := onDist (dB (wr 0x12060 0)) (ok s)
      if !u.valid then calApply (c + r.defUp + x.value) x.value s
      else if !r.defValid then calApply u.value x.value s
      else calApply u.value (u.value - r.defUp - c) s
    else calRank s

/-- ROPE_DIFF and the averages that the page shows (R183, R616). -/
def calNote (s : State) : State :=
  let d := s.dist
  let r := rawMean d (ropePort d)
  let diff := wrapBits 24 (r.1 - asymHeld d (ropePort d))
  let w := packBits [(1, if r.2 then 1 else 0), (7, 0), (24, diff)]
  onDist (dB fun b => wr 0x1206C (wordOfInt r.1) (wr 0x12068 (wordOfInt (rawMean d (activeUpPort d)).1)
    (wr 0x1205C (BitVec.ofNat 32 w) b))) s

/-- Payload of a calibration record (R184). -/
def calPayload (rhoUp : Int) (defUp : Int) (sigma : Nat) (defValid rhoValid upPort : Bool) : BitVec 64 :=
  BitVec.ofNat 64 (packBits [(32, wrapBits 32 rhoUp), (16, wrapBits 16 defUp), (8, sigma), (1, if defValid then 1 else 0),
    (1, if rhoValid then 1 else 0), (1, if upPort then 1 else 0), (5, 0)])

/-- Send a calibration record (R184). GSEQ counts the records, so none is counted while no Rope port is up to take one. -/
def calSend (s : State) : State :=
  if !ropeUp s.dist then s else
  let d := s.dist
  let p := activeUpPort d
  let c := rd d.base (0x12200 + 4 * p)
  let r := rawMean d p
  let v := r.2 && admitted (distPort d p)
  let s := ropeSend 0 0xC1 0 0 d.cal.txSeq.toNat
    [calPayload r.1 (sext 16 (fld c 0 16)) (fld c 16 8) (bitOf c 31) v (p == 129)] s
  onCal (fun c => { c with txSeq := c.txSeq + 1 }) s

/-- CAL_PERIOD (R184): a root sends nothing and solves no loop (R183). -/
def calPeriodOp (s : State) : State :=
  let d := s.dist
  if d.cal.lastAt + rdF d.base 0x12040 0 12 ≤ d.root.secs then
    let s := onCal (fun c => { c with lastAt := d.root.secs }) s
    calNote (if isRoot d then [130, 131].foldl (fun s n => calUnsolved n s) s else calSolve (calSend s))
  else s

/-- A calibration record follows the last one applied (R184). -/
def calFollows (d : DistState) (gseq : BitVec 16) : Bool := match d.cal.rxSeq with
  | some q => decide (0 < (gseq - q).toNat) && decide ((gseq - q).toNat < 32768)
  | none => true

/-! ## The meanings -/

/-- CAL_PERIOD (R183 to R189). -/
def execCalPeriod (s : State) : Host.Outcome State Fault Refusal := .next (ifDistRuns calPeriodOp s)

/-- CALIBRATION_RECORD (R184). -/
def execCalibrationRecord (rx : Rx) (k : RopeKey) (rhoUp : BitVec 32) (defUp : BitVec 16) (sigma : BitVec 8)
    (defValid rhoValid upPort : Bool) (s : State) : Host.Outcome State Fault Refusal :=
  let pl := calPayload rhoUp.toInt defUp.toInt sigma.toNat defValid rhoValid upPort
  let r := rxRope rx k.rseq (ropeHdr 0xC1 k.gallery.toNat k.epochLo.toNat k.gseq.toNat 1 k.rseq.toNat) [pl] s
  .next (if r.1 && calFollows r.2.dist k.gseq then
    let c : CalRec := { rhoUp := rhoUp.toInt, defUp := defUp.toInt, sigma := sigma.toNat, defValid := defValid,
                        rhoValid := rhoValid, upPort := upPort }
    onDist (dB (wr 0x12070 rhoUp)) (onCal (fun x => { x with last := some c, rxSeq := some k.gseq }) r.2)
  else r.2)

end Sys2Proof.Machine
end

