-- ==== Sys2Proof/Machine/Hooks.lean ====
section
/-! DEFINITION. What follows a port that leaves or enters LINK_ADMITTED: servo, substitution, Rope session, reports and
the identifier map (R27, R35, R102, R104, R106, R169, R368, R396, R467, R480 to R484, R490, R510). -/

namespace Sys2Proof.Machine

def onAdm (f : DistAdm → DistAdm) (d : DistState) : DistState := { d with adm := f d.adm }

/-- The distributor is at tier 1. -/
def tierOne (d : DistState) : Bool := !isRoot d && distTier d == 1

/-! ## HEALTH frames of a distributor (R35, R465, R467) -/

/-- Send a HEALTH frame on the upstream port of the active parent. -/
def healthUp (body : BitVec 64) (s : State) : State := sendSeq (distRef (activeUp s.dist)) 0 7 0x10 body [] s

/-- IDN.IDMAP counts the map (R600). -/
def noteIds (d : DistState) : DistState :=
  dB (wr 0x0004C (BitVec.ofNat 32 (if isRoot d then d.adm.ids.length else 0))) d

/-- Note a duplicate identifier (R35, R600). -/
def dupId (uid n : Nat) (s : State) : State :=
  logD dUnitIdDup n 0 0 0 (onDist (dB (wr 0x00050 (BitVec.ofNat 32 (2 ^ 31 + uid)))) s)

/-- An identifier is reported admitted at a root, on port `n`: whether it is new (R35). -/
def idAdmitted (uid n : Nat) (s : State) : Bool × State :=
  if s.dist.adm.ids.any fun x => x.1 == uid then (false, dupId uid n s)
  else (true, onDist (fun d => noteIds (onAdm (fun a => { a with ids := a.ids ++ [(uid, n)] }) d)) s)

/-- An identifier is reported withdrawn at a root. -/
def idWithdrawn (uid n : Nat) (s : State) : State :=
  onDist (fun d => noteIds (onAdm (fun a => { a with ids := a.ids.filter fun x => !(x.1 == uid && x.2 == n) }) d)) s

/-- Body of KIND 0x01 and 0x02 frames. -/
def idBody (uid : Nat) (gone : Bool) : BitVec 64 := healthBody uid false (if gone then 2 else 1) 0 0

/-! ## Rope (R102, R396, R490, R615) -/

/-- The end of a Rope session: subscriptions lapse, a set that was arriving is dropped, absent ports that are awaited are
lost (R368), and a distributor that was resilvering has lost its subtree (R490). -/
def ropeEnd (s : State) : State :=
  let s := onDist (fun d => dB (fun b => wr 0x0A074 0 (wr 0x0A070 0 (wr 0x0A06C 0 (wr 0x0A068 0 b))))
    (onCmb (fun c => { c with sub := [], subSeen := [], served := [], absent := [], sync := [], subst := none }) d)) s
  let s := if resilvering s.dist then
      logD dSubtreeLost noPort 0 0 0 (onDist (fun d => dB (fun b => pgEvt 0x0B 3 (inc 0x0B06C b)) (freeContexts d)) s)
    else s
  let s := (List.range 128).foldl (fun s p => resolveAbsent p s) s
  censusAll (distSettleAll s)

/-- Ports that are members of some VALID gallery and absent. -/
def absentMembers (d : DistState) : List Nat :=
  (List.range 128).filter fun p => !admitted (distPort d p) && (validGalleries d).any fun g => dGalMember d g p

/-- The start of a Rope session: SYNC is sent, a fresh distributor resilvers (R396), absent ports are subscribed (R368),
and a sole root of domain A is sole no longer (R489). -/
def ropeStart (s : State) : State :=
  let s := onDist (onCmb fun c => { c with sole := c.sole && distDomB s.dist }) s
  let s := if s.dist.cmb.fresh then onDist (dB (wrB 0x0A044 29 true)) s else s
  (absentMembers s.dist).foldl (fun s p => subscribe p s) (sendSyncBase s)

/-- ROOT_UNREACHABLE reports stand no longer (R615). -/
def dropReports (d : DistState) : DistState :=
  d.ports.foldl (fun d x => setDistPort x.1 { x.2 with hlth := { x.2.hlth with rootReport := false } } d) d

/-! ## A port leaves LINK_ADMITTED -/

/-- The parent a distributor will load from, where the chosen one is lost before the load (R539). -/
def rechoose (s : State) : State :=
  let ok := fun n => admitted (distPort s.dist n) && decide (2 ≤ (distPort s.dist n).time.act.done)
  if s.dist.base.valid || ok (activeUp s.dist) then s
  else if ok 128 then setSts .dist 4 false s
  else if ok 129 then setSts .dist 4 true s
  else s

/-- Both upstream ports of a tier-1 distributor are LINK_DEAD (R483). -/
def rootLost (s : State) : State :=
  if tierOne s.dist && decide ((distPort s.dist 128).phy.st = .dead) && decide ((distPort s.dist 129).phy.st = .dead) then
    let s := logD dRootUnreachable noPort 0 0 0 s
    if ropeUp s.dist then sendReport (distRef (ropePort s.dist)) (hapCode dRootUnreachable).toNat 0 s else s
  else s

/-- A downstream port has left LINK_ADMITTED (R35, R368, R480, R615). -/
def downGone (n : Nat) (old : LinkPort) (s : State) : State :=
  let s := onPort (distRef n) (fun lp => { lp with hlth := { lp.hlth with rootReport := false } }) s
  let uid := old.adm.childId.toNat
  let s := if old.adm.childDist then s
    else if isRoot s.dist then idWithdrawn uid n s else healthUp (idBody uid true) s
  portAbsent n s

/-- A port has left LINK_ADMITTED; `old` is what it held before. -/
def portGone (p : PortRef) (old : LinkPort) (s : State) : State :=
  if !admitted old || admitted (getPort s p) then s
  else match p with
    | .unit d => unitFsm (sourceFails .unit (decide (d = .b)) s)
    | .dist n =>
      if isDown n.val then downGone n.val old s
      else if isUp n.val then
        rootLost (rechoose (sourceFails .dist (n.val == 129) (if n.val = 128 then relayDrop s else s)))
      else
        let s := ropeLeave old (relayDrop s)
        if ropeUp s.dist then s else ropeEnd s

/-- Run a change of a port's link state and what follows if it leaves LINK_ADMITTED. -/
def leaving (p : PortRef) (f : State → State) (s : State) : State := portGone p (getPort s p) (f s)

/-- A link goes dead (R105, R106). An upstream port that was not admitted may be the second one to be dead (R483). -/
def linkDead (p : PortRef) (s : State) : State :=
  let was := admitted (getPort s p)
  let s := leaving p (fun s =>
    let s := logPort p lkLinkDead 0 0 s
    let s := scorePort p 0x054 8 s
    setLinkState p .dead (onPort p dropTraffic s)) s
  match p with
  | .unit _ => s
  | .dist n => if isUp n.val && !was then rootLost s else s

/-- A port returns from LINK_ADMITTED to LINK_UP (R538). -/
def linkReturn (p : PortRef) (s : State) : State :=
  leaving p (fun s => setLinkState p .up (onPort p (fun lp =>
    let lp := dropTraffic lp
    { lp with phy := { lp.phy with waitLogged := false } }) s)) s

/-! ## A port enters LINK_ADMITTED -/

/-- Count an admission and start what a port holds per admission. -/
def admitPort (p : PortRef) (s : State) : State :=
  setLinkState p .admitted (onPort p (fun lp =>
    { lp with adm := { lp.adm with admits := satInc 255 lp.adm.admits, cause := 0 },
              hlth := { lp.hlth with lived := true, voteAt := nowOf s p },
              time := { lp.time with raws := [], heardAt := some (nowOf s p), inputAt := none } }) s)

/-- Log DKEY_MISMATCH of an accepted partner, and keep its key (R409, R651). -/
def compareKey (p : PortRef) (h : Hap) (key : Word) (s : State) : State :=
  let s := onPort p (fun lp => { lp with adm := { lp.adm with peerDkey := key } }) s
  if key = ownDkey (baseOf s p) then s
  else logPort p h (fld key 16 16) (fld key 0 8) s

/-- A unit's port is admitted (R104, R167, R541). -/
def unitAdmitted (d : Dom) (s : State) : State := unitFsm (restartDiff .unit (admitPort (.unit d) s))

/-- An upstream port is admitted. -/
def upAdmitted (n : Fin 132) (s : State) : State := restartDiff .dist (admitPort (.dist n) s)

/-- A Rope port is admitted (R100, R102, R615). -/
def ropeAdmitted (n : Fin 132) (s : State) : State :=
  let wasUp := ropeUp s.dist
  let s := onDist dropReports (ropeAdmit wasUp (admitPort (.dist n) s))
  if wasUp then s else ropeStart s

/-- The body of an EPOCH frame (R27, R71). -/
def epochBody (gen : Nat) (applied : BitVec 48) : BitVec 64 := (BitVec.ofNat 16 gen ++ applied : BitVec 64)

/-- Whether a distributor holds an epoch (R27). -/
def epochHeld (d : DistState) : Bool := if isRoot d then rdB d.base 0x1050 1 else d.adm.epochHeld

/-- The current PRESENCE follows an ADMIT while a window is open (R510). -/
def presenceAfter (n : Nat) (s : State) : State :=
  match s.dist.base.window with
  | some e => if windowOpen s.dist.base then
      sendSeq (distRef n) 0 7 0x11 (presenceBody (e.setWidth 48) (distWindow s.dist)) [] s else s
  | none => s

/-- What follows the ADMIT of a downstream port (R27, R35, R368, R510). -/
def downAdmitted (n : Nat) (s : State) : State :=
  let d := s.dist
  let s := if epochHeld d then
      sendSeq (distRef n) 0 7 0x12 (epochBody (rdF d.base 0x104C 0 16) ((rd64 d.base 0x105C).setWidth 48)) [] s else s
  let s := presenceAfter n s
  let lp := distPort s.dist n
  let s := portPresent n s
  if lp.adm.childDist then s
  else if isRoot s.dist then
    let r := idAdmitted lp.adm.childId.toNat n s
    if r.1 then r.2 else leaving (distRef n) (fun s => setLinkState (distRef n) .up (onPort (distRef n) dropTraffic s)) r.2
  else healthUp (idBody lp.adm.childId.toNat false) s

end Sys2Proof.Machine
end

