-- ==== Sys2Proof/Machine/LinkRows.lean ====
section
/-! DEFINITION. Fyolink commands: enable, training, silence, lane swap and reliable delivery (R54 to R92, R104 to R109). -/

namespace Sys2Proof.Machine

/-- A port's part is in service. -/
def ifPort (p : PortRef) (f : State → State) (s : State) : State := match p with
  | .unit _ => ifUnitRuns f s
  | .dist _ => ifDistRuns f s

/-- 256 frame cycles, in ticks (R105). -/
def silence : Nat := 1024

/-! ## Enable and signal (R104, R587) -/

/-- LINK_CTL.EN takes a value: a disabled port goes to LINK_DOWN, and an active source fails with it (R104, R587, R620). -/
def enableOp (p : PortRef) (en : Bool) (s : State) : State :=
  let s := onBaseOf p (wrB (portReg p 0x040) 0 en) s
  if en then testDown p s
  else
    let s := leaving p (linkDown p) s
    match p with
    | .unit _ => unitFsm s
    | .dist _ => s

/-- CNT_CLR: the four counters of LINK_STS (R585). -/
def cntClear (lp : LinkPort) : LinkPort :=
  { lp with cnt := { lp.cnt with crcErr := 0, retries := 0, unknown := 0, unexpected := 0 } }

/-- In LINK_TRAIN, READY follows what the receiver holds (R60, R62). -/
def noteTrain (now : Nat) (lp : LinkPort) : LinkPort := if lp.phy.st = .train then noteReady now lp else lp

/-- A receive lane's signal appears or goes; block lock goes with it, and in LINK_TRAIN READY with that. -/
def signalOp (p : PortRef) (lane present : Bool) (s : State) : State :=
  let now := nowOf s p
  let s := onPort p (fun lp => noteTrain now (onLane lane (fun l =>
    if l.signal = present then l
    else { l with signal := present, signalAt := now, lock := l.lock && present }) lp)) s
  if present then testDown p s else s

/-! ## Training (R60 to R62, R90, R104) -/

/-- The lane holds signal, so that a receiver can lock to it. -/
def laneHeard (p : PortRef) (lane : Bool) (s : State) : Bool := (laneOf (getPort s p).phy lane).signal

/-- A receiver gains or loses block lock on a lane (R61). -/
def lockOpLane (p : PortRef) (lane v : Bool) (s : State) : State :=
  let now := nowOf s p
  let lp := getPort s p
  if v && !(laneHeard p lane s && (decide (lp.phy.st = .train) || linkRuns lp)) then s
  else onPort p (fun lp => noteTrain now (onLane lane (fun l => { l with lock := v }) lp)) s

/-- A training block on a locked lane (R60). -/
def trainBlockOp (p : PortRef) (lane rxLock ready : Bool) (s : State) : State :=
  let now := nowOf s p
  if (laneOf (getPort s p).phy lane).lock then
    onPort p (fun lp => noteTrain now (onLane lane (fun l => { l with peerLock := rxLock, peerReady := ready }) lp)) s
  else s

/-- SWAP_BLOCKED, SPARE_LOST or LANE_SWAP on a port: its page event, and for the first two its vote and score. -/
def spareLost (p : PortRef) (s : State) : State :=
  let s := onPort p (fun lp => { lp with hlth := { lp.hlth with vSpare := true } }) s
  scorePort p 0x050 24 (portEvt p 2 (logPort p lkSpareLost 0 0 s))

/-- A lane trained at LINK_UP: it carries frames. -/
def laneUp (now : Nat) (l : Lane) : Lane :=
  if l.lock && l.peerReady then { l with frames := true, failed := false, goodAt := some now } else { l with frames := false }

/-- Frames start on the trained lanes of a port in LINK_TRAIN (R62, R104). -/
def trainDone (p : PortRef) (s : State) : State :=
  let now := nowOf s p
  let s := onPort p (fun lp =>
    let a := laneUp now lp.phy.lane0
    let b := laneUp now lp.phy.lane1
    { dropTraffic lp with phy := { lp.phy with lane0 := a, lane1 := b, txLane := !a.frames, rxLane := !a.frames,
                                               waitLogged := false } }) s
  let s := setLinkState p .up s
  let one := !((getPort s p).phy.lane0.frames && (getPort s p).phy.lane1.frames)
  let s := if one then spareLost p (onPort p (fun lp => { lp with phy := { lp.phy with spareFailAt := some now } }) s) else s
  match p with
  | .unit _ => unitFsm s
  | .dist _ => s

/-- A retrained spare lane carries frames again (R90): the partner reports lock on both of its receive lanes. -/
def spareDone (p : PortRef) (s : State) : State :=
  onPort p (fun lp =>
    let lp := onLane (!lp.phy.txLane) (fun l => { l with frames := true, failed := false }) lp
    { lp with phy := { lp.phy with spareTrainAt := none },
              time := { lp.time with spare := { lp.time.spare with doneAt := none } } }) s

/-- 64 blocks after mutual READY the transmitter starts frames (R62); a spare that retrains needs 128 blocks (R648). -/
def framesOp (p : PortRef) (s : State) : State :=
  let lp := getPort s p
  let now := nowOf s p
  if lp.phy.st = .train then
    match lp.phy.readyAt with
    | some t => if t + 256 ≤ now then trainDone p s else s
    | none => s
  else match lp.phy.spareTrainAt with
    | some t => if linkRuns lp && lp.phy.peerSpareOk && decide (t + 512 ≤ now) then spareDone p s else s
    | none => s

/-- TOUT.TRAIN.LIMIT has elapsed in LINK_TRAIN (R104). -/
def trainFailOp (p : PortRef) (s : State) : State :=
  let lp := getPort s p
  if lp.phy.st = .train ∧ lp.phy.stAt + trainLimit s p ≤ nowOf s p then
    let s := scorePort p 0x054 8 (logPort p lkTrainFail 0 0 s)
    linkDown p (onPort p (fun lp => { lp with phy := { lp.phy with failAt := some (nowOf s p) } }) s)
  else s

/-- In LINK_TRAIN with block lock on one lane only, the other lane is declared failed at the training limit (R60, R104, R108;
assumption 26). -/
def declareFailed (now : Nat) (lp : LinkPort) : LinkPort :=
  if lp.phy.lane0.lock && !lp.phy.lane1.lock then noteReady now (onLane true (fun l => { l with failed := true }) lp)
  else if lp.phy.lane1.lock && !lp.phy.lane0.lock then noteReady now (onLane false (fun l => { l with failed := true }) lp)
  else lp

/-- A lane has not trained within TOUT.TRAIN.LIMIT: the one that retrains after a swap (R90), or one of the two that train in
LINK_TRAIN. -/
def spareFailOp (p : PortRef) (s : State) : State :=
  let now := nowOf s p
  if (getPort s p).phy.st = .train then
    (if (getPort s p).phy.stAt + trainLimit s p ≤ now then onPort p (declareFailed now) s else s)
  else match (getPort s p).phy.spareTrainAt with
  | some t =>
    if linkRuns (getPort s p) && decide (t + trainLimit s p ≤ now) then
      spareLost p (onPort p (fun lp =>
        let lp := onLane (!lp.phy.txLane) (fun l => { l with failed := true }) lp
        { lp with phy := { lp.phy with spareTrainAt := none, spareFailAt := some now } }) s)
    else s
  | none => s

/-- A failed lane is retrained every 100 ms while its port is admitted (R90). -/
def spareRetryOp (p : PortRef) (s : State) : State :=
  let now := nowOf s p
  match (getPort s p).phy.spareFailAt with
  | some t =>
    if admitted (getPort s p) && decide (t + 100000000 ≤ now) then
      onPort p (fun lp =>
        let lp := onLane (!lp.phy.txLane) (fun l => { l with frames := false }) lp
        { lp with phy := { lp.phy with spareTrainAt := some now, spareFailAt := none } }) s
    else s
  | none => s

/-! ## Silence, dead links and admission waits (R104, R105, R107) -/

/-- No CRC-good frame has arrived on either lane for 256 frame cycles. -/
def silent (now : Nat) (phy : LinkPhy) : Bool :=
  let quiet := fun (l : Lane) => match l.goodAt with
    | some t => decide (t + silence ≤ now)
    | none => true
  quiet phy.lane0 && quiet phy.lane1 && decide (phy.stAt + silence ≤ now || phy.st = .admitted)

/-- No signal on any receive lane for 256 frame cycles. -/
def noSignal (now : Nat) (phy : LinkPhy) : Bool :=
  !phy.lane0.signal && !phy.lane1.signal && decide (max (max phy.lane0.signalAt phy.lane1.signalAt) phy.stAt + silence ≤ now)

/-- LINK_SILENCE by state (R104, R105). -/
def silenceOp (p : PortRef) (s : State) : State :=
  let lp := getPort s p
  let now := nowOf s p
  if lp.phy.st = .train then (if noSignal now lp.phy then linkDown p s else s)
  else if lp.phy.st = .up then (if silent now lp.phy then testDown p (linkDown p s) else s)
  else if lp.phy.st = .admitted then (if silent now lp.phy then linkDead p s else s)
  else s

/-- TOUT.READMIT.DEAD has elapsed in LINK_DEAD (R104, R107). -/
def readmitOp (p : PortRef) (s : State) : State :=
  let lp := getPort s p
  if lp.phy.st = .dead ∧ lp.phy.stAt + readmitDead s p ≤ nowOf s p then linkTrain p s else s

/-- 1 s in LINK_UP without admission (R104). -/
def admitWaitOp (p : PortRef) (s : State) : State :=
  let lp := getPort s p
  if lp.phy.st = .up ∧ ¬ lp.phy.waitLogged ∧ lp.phy.stAt + 1000000000 ≤ nowOf s p then
    logPort p lkAdmitWait 0 0 (onPort p (fun lp => { lp with phy := { lp.phy with waitLogged := true } }) s)
  else s

/-! ## Frames without an owner (R56, R64, R69, R76) -/

/-- Body of an IDLE frame (R71). -/
def idleBody (spareOk rxLane slipEn : Bool) (slip : Nat) : BitVec 64 :=
  bodyOf [(1, if spareOk then 1 else 0), (1, if rxLane then 1 else 0), (1, if slipEn then 1 else 0), (2, slip)]

/-- A distributor's own CRC-bad frame scores W_CRC with the first of every 16 of a vote period (R473). -/
def scoreCrc (p : PortRef) (s : State) : State := match p with
  | .unit _ => s
  | .dist n =>
    let k := (distPort s.dist n.val).hlth.crcSeen
    let s := onPort p (fun lp => { lp with hlth := { lp.hlth with crcSeen := (k + 1) % 16 } }) s
    if k = 0 then scorePort p 0x050 0 s else s

/-- A CRC-bad frame on a lane (R64, R76, R109, R473). -/
def crcBadOp (p : PortRef) (lane : Bool) (f : BitVec 78) (s : State) : State :=
  if linkRuns (getPort s p) then
    let fr : Frame := { typ := f.extractLsb' 72 6, seq := f.extractLsb' 64 8, body := f.extractLsb' 0 64 }
    let s := match p with
      | .unit d => onUnit (traceFrame false true d lane fr) s
      | .dist _ => s
    let s := onPort p (fun lp => { lp with
      cnt := { lp.cnt with crcErr := satInc 255 lp.cnt.crcErr, crcTotal := satInc 0xFFFFFFFF lp.cnt.crcTotal },
      hlth := { lp.hlth with vCrc := satInc 255 lp.hlth.vCrc } }) s
    sendNak p 0 (scoreCrc p s)
  else s

/-- TYPE[4:0] is reserved: 0x0B, or 0x14 to 0x1F (R66). -/
def typReserved (t : BitVec 6) : Bool := let c := t.toNat % 32; c == 0x0B || decide (0x14 ≤ c)

/-- A TYPE is of class S (R66). -/
def typSeq (t : BitVec 6) : Bool :=
  32 ≤ t.toNat || !(([0x00, 0x01, 0x03, 0x04, 0x05, 0x06, 0x07, 0x0B] : List Nat).contains t.toNat)

/-- A frame of a reserved type (R69). -/
def reservedOp (rx : Rx) (t : BitVec 6) (body : BitVec 64) (s : State) : State :=
  if typReserved t then
    let r := if typSeq t then rxSeq rx true [(t, body)] s else rxUns ⟨rx.port, rx.lane⟩ true t body s
    if r.1 then onPort rx.port cntUnknown r.2 else r.2
  else s

/-- The port is one on which a frame of this code may arrive (R66, R100). -/
def typPermitted (p : PortRef) (t : Nat) : Bool :=
  if t = 0x00 ∨ (4 ≤ t ∧ t ≤ 7) then true
  else if t = 0x01 ∨ t = 0x10 then permUp p || permRope p
  else if t = 0x08 ∨ t = 0x0A then permUp p || permDown p
  else if t = 0x0C ∨ t = 0x0F then permUp p
  else if t = 0x13 then permRope p
  else permDown p

/-- A type that has payload frames (R66). -/
def typGrouped (code : Nat) : Bool := [0x08, 0x0C, 0x0D, 0x13].contains code

/-- A frame of a permitted type is out of place: a payload frame without an open header of its type, or a header while one is
open (R70). -/
def outOfPlace (p : PortRef) (t : BitVec 6) (s : State) : Bool :=
  let o := (openedOf (t.toNat % 32) (getPort s p).arq.opened).isEmpty
  if 32 ≤ t.toNat then o else typGrouped (t.toNat % 32) && !o

/-- A frame of a defined type that the port or direction does not permit (R69), or a header or payload frame out of place
(R70). -/
def unexpectedOp (rx : Rx) (t : BitVec 6) (body : BitVec 64) (s : State) : State :=
  let code := t.toNat % 32
  if typReserved t || !linkRuns (getPort s rx.port) then s
  else if !typPermitted rx.port code then
    if typSeq t then rxFrame rx false code false { typ := t, seq := rx.seq, body := body } s
    else (rxUns ⟨rx.port, rx.lane⟩ false t body s).2
  else if outOfPlace rx.port t s then
    rxFrame rx true code (decide (t.toNat < 32)) { typ := t, seq := rx.seq, body := body } s
  else s

/-! ## Acknowledgement and replay (R72 to R79, R105) -/

/-- An accepted frame has been unacknowledged for 4 frame cycles (R75). -/
def ackDueOp (p : PortRef) (s : State) : State :=
  match (getPort s p).arq.ackDue with
  | some t => if linkRuns (getPort s p) && decide (t + 16 ≤ nowOf s p) then sendAck p s else s
  | none => s

/-- An ACK (R73); at a root it may release a commit that waits for Rope (R379). -/
def ackOp (p : PortRef) (q : BitVec 8) (s : State) : State :=
  let s := onPort p (ackTake q) s
  match p with
  | .unit _ => s
  | .dist n => if isRope n.val && isRoot s.dist then distSettleAll s else s

/-- A replay is due: it starts, or after 16 replays of the oldest frame the admitted link is dead (R105). -/
def replayOrDead (p : PortRef) (s : State) : State :=
  if 16 ≤ (getPort s p).arq.replays && admitted (getPort s p) then linkDead p s else startReplay p s

/-- The retry timer expires (R78): it counts from the most recent sending of the oldest frame, and a replay that has not yet
resent that frame is still to send it. -/
def retryOp (p : PortRef) (s : State) : State :=
  let lp := getPort s p
  match lp.arq.replay with
  | (f, t) :: _ =>
    if linkRuns lp && !lp.arq.resend.contains f && decide (t + retryPeriod s p ≤ nowOf s p) then replayOrDead p s else s
  | [] => s

/-- A NAK that names a frame of the replay buffer starts a replay (R77). -/
def nakOp (p : PortRef) (q : BitVec 8) (s : State) : State :=
  if (getPort s p).arq.replay.any fun x => x.1.seq == q then replayOrDead p s else s

/-- The port after its transmitter has moved to the spare lane, before the replay: the former active lane trains, and
exchanges in flight are discarded (R87, R92). -/
def swapLanes (now : Nat) (lp : LinkPort) : LinkPort :=
  let old := lp.phy.txLane
  let lp := dropEchoes (onLane old (fun l => { l with frames := false }) lp)
  { lp with
    phy := { lp.phy with txLane := !old, spareTrainAt := some now, spareFailAt := none },
    arq := { lp.arq with swapDue := false },
    cnt := { lp.cnt with swaps := satInc 0xFFFFFFFF lp.cnt.swaps },
    hlth := { lp.hlth with vSwap := true },
    time := { lp.time with spare := { lp.time.spare with doneAt := none } } }

/-- The transmitter moves to its spare lane, and starts there with a replay (R86, R87, R92). -/
def swapOp (p : PortRef) (s : State) : State :=
  let lp := getPort s p
  if linkRuns lp && lp.arq.swapDue && spareWarm (nowOf s p) (echoInterval s p) lp then
    let s := replayAll p (onPort p (swapLanes (nowOf s p)) s)
    scorePort p 0x050 16 (portEvt p 2 (logPort p lkLaneSwap 0 0 s))
  else s

/-! ## The meanings -/

/-- LINK_ENABLE_WRITE (R104, R587). -/
def execLinkEnableWrite (p : PortRef) (en : Bool) (s : State) : Host.Outcome State Fault Refusal :=
  .next (match p with
    | .unit _ => ifUnit (enableOp p en) s
    | .dist _ => ifDist (enableOp p en) s)

/-- LINK_CNT_CLR (R585). -/
def execLinkCntClr (p : PortRef) (s : State) : Host.Outcome State Fault Refusal :=
  .next (match p with
    | .unit _ => ifUnit (onPort p cntClear) s
    | .dist _ => ifDist (onPort p cntClear) s)

/-- SIGNAL_DETECT (R104). -/
def execSignalDetect (p : PortRef) (lane present : Bool) (s : State) : Host.Outcome State Fault Refusal :=
  .next (signalOp p lane present s)

/-- BLOCK_LOCK_ACQUIRED (R61). -/
def execBlockLockAcquired (p : PortRef) (lane : Bool) (s : State) : Host.Outcome State Fault Refusal :=
  .next (ifPort p (lockOpLane p lane true) s)

/-- BLOCK_LOCK_LOST (R61). -/
def execBlockLockLost (p : PortRef) (lane : Bool) (s : State) : Host.Outcome State Fault Refusal :=
  .next (ifPort p (lockOpLane p lane false) s)

/-- TRAINING_BLOCK_RX (R60). -/
def execTrainingBlockRx (p : PortRef) (lane rxLock ready : Bool) (s : State) : Host.Outcome State Fault Refusal :=
  .next (ifPort p (trainBlockOp p lane rxLock ready) s)

/-- FRAMES_START (R62, R104). -/
def execFramesStart (p : PortRef) (s : State) : Host.Outcome State Fault Refusal := .next (ifPort p (framesOp p) s)

/-- TRAIN_LIMIT_EXPIRY (R104). -/
def execTrainLimitExpiry (p : PortRef) (s : State) : Host.Outcome State Fault Refusal := .next (ifPort p (trainFailOp p) s)

/-- TRAIN_RETRY_TIMER (R104). -/
def execTrainRetryTimer (p : PortRef) (s : State) : Host.Outcome State Fault Refusal := .next (ifPort p (testDown p) s)

/-- SPARE_TRAIN_TIMEOUT (R90). -/
def execSpareTrainTimeout (p : PortRef) (s : State) : Host.Outcome State Fault Refusal := .next (ifPort p (spareFailOp p) s)

/-- SPARE_RETRAIN_TIMER (R90). -/
def execSpareRetrainTimer (p : PortRef) (s : State) : Host.Outcome State Fault Refusal := .next (ifPort p (spareRetryOp p) s)

/-- LINK_SILENCE (R104, R105). -/
def execLinkSilence (p : PortRef) (s : State) : Host.Outcome State Fault Refusal :=
  .next (ifPort p (fun s => match p with
    | .unit _ => unitFsm (silenceOp p s)
    | .dist _ => silenceOp p s) s)

/-- READMIT_TIMER (R107). -/
def execReadmitTimer (p : PortRef) (s : State) : Host.Outcome State Fault Refusal := .next (ifPort p (readmitOp p) s)

/-- ADMIT_WAIT_TIMER (R104). -/
def execAdmitWaitTimer (p : PortRef) (s : State) : Host.Outcome State Fault Refusal := .next (ifPort p (admitWaitOp p) s)

/-- IDLE_RX (R56, R85). -/
def execIdleRx (rx : RxU) (spareOk rxLane slipEn : Bool) (slip : BitVec 2) (s : State) : Host.Outcome State Fault Refusal :=
  .next (ifPort rx.port (fun s =>
    let r := rxUns rx true 0x00 (idleBody spareOk rxLane slipEn slip.toNat) s
    if r.1 then onPort rx.port (fun lp => { lp with phy := { lp.phy with peerSpareOk := spareOk, peerRxLane := rxLane } }) r.2
    else r.2) s)

/-- CRC_BAD_FRAME_RX (R64, R76). -/
def execCrcBadFrameRx (p : PortRef) (lane : Bool) (frame : BitVec 78) (s : State) : Host.Outcome State Fault Refusal :=
  .next (ifPort p (crcBadOp p lane frame) s)

/-- RESERVED_TYPE_FRAME_RX (R69). -/
def execReservedTypeFrameRx (rx : Rx) (typ : BitVec 6) (body : BitVec 64) (s : State) : Host.Outcome State Fault Refusal :=
  .next (ifPort rx.port (reservedOp rx typ body) s)

/-- UNEXPECTED_FRAME_RX (R69, R70). -/
def execUnexpectedFrameRx (rx : Rx) (typ : BitVec 6) (body : BitVec 64) (s : State) : Host.Outcome State Fault Refusal :=
  .next (ifPort rx.port (unexpectedOp rx typ body) s)

/-- ACK_TIMER (R75). -/
def execAckTimer (p : PortRef) (s : State) : Host.Outcome State Fault Refusal := .next (ifPort p (ackDueOp p) s)

/-- ACK_RX (R73). -/
def execAckRx (rx : RxU) (ackSeq : BitVec 8) (s : State) : Host.Outcome State Fault Refusal :=
  .next (ifPort rx.port (fun s =>
    let r := rxUns rx true 0x06 (bodyOf [(8, ackSeq.toNat)]) s
    if r.1 then ackOp rx.port ackSeq r.2 else r.2) s)

/-- NAK_RX (R77). -/
def execNakRx (rx : RxU) (expSeq : BitVec 8) (reason : BitVec 2) (s : State) : Host.Outcome State Fault Refusal :=
  .next (ifPort rx.port (fun s =>
    let r := rxUns rx true 0x07 (bodyOf [(8, expSeq.toNat), (2, reason.toNat)]) s
    if r.1 then (match rx.port with
      | .unit _ => unitFsm (nakOp rx.port expSeq r.2)
      | .dist _ => nakOp rx.port expSeq r.2)
    else r.2) s)

/-- RETRY_TIMER_EXPIRY (R78, R105). -/
def execRetryTimerExpiry (p : PortRef) (s : State) : Host.Outcome State Fault Refusal :=
  .next (ifPort p (fun s => match p with
    | .unit _ => unitFsm (retryOp p s)
    | .dist _ => retryOp p s) s)

/-- LANE_SWAP (R86, R87). -/
def execLaneSwap (p : PortRef) (s : State) : Host.Outcome State Fault Refusal := .next (ifPort p (swapOp p) s)

end Sys2Proof.Machine
end

