-- ==== Sys2Proof/Machine/EchoTime.lean ====
section
/-! DEFINITION. Echo, TIME and EPOCH frames (R27, R28, R83, R93 to R99, R164, R180, R539). -/

namespace Sys2Proof.Machine

def pairOf (lp : LinkPort) (spare : Bool) : EchoPair := if spare then lp.time.spare else lp.time.act
def onPair (spare : Bool) (f : EchoPair → EchoPair) (lp : LinkPort) : LinkPort :=
  if spare then { lp with time := { lp.time with spare := f lp.time.spare } }
  else { lp with time := { lp.time with act := f lp.time.act } }

/-- A muted distributor sends no ECHO_REQ, ECHO_RSP or TIME on its downstream ports (R180). -/
def echoMuted (s : State) : PortRef → Bool
  | .unit _ => false
  | .dist n => isDown n.val && muted s.dist

/-- Servo part and source that a port feeds, if it feeds one (R97, R103). -/
def portSource : PortRef → Option (Part × Bool)
  | .unit d => some (.unit, decide (d = .b))
  | .dist n => if n.val = 128 then some (.dist, false) else if n.val = 129 then some (.dist, true) else none

/-! ## Lost exchanges (R98) -/

/-- ECHO_LOST is raised on a port: the link supplies no servo input, and at the active source the part hands over. -/
def echoLostOp (p : PortRef) (s : State) : State :=
  let s := onPort p (fun lp => { lp with
    time := { lp.time with echoLost := true, act := { lp.time.act with lost := 0 } },
    cnt := { lp.cnt with echoLosts := satInc 0xFFFFFFFF lp.cnt.echoLosts },
    hlth := { lp.hlth with vEcho := true } }) s
  let s := scorePort p 0x054 0 (portEvt p 3 (logPort p lkEchoLost 0 0 s))
  match portSource p with
  | some (part, src) => sourceFails part src s
  | none => s

/-- An exchange is past its time: one interval has gone by since its t1. -/
def echoOver (now gap : Nat) (e : EchoOut) : Bool := decide (e.sentAt + gap ≤ now)

/-- Every exchange of a pair that is past its time is lost, and counted. -/
def loseOver (now gap : Nat) (x : EchoPair) : EchoPair :=
  { x with outs := x.outs.filter fun e => !echoOver now gap e, good := 0,
           lost := x.lost + (x.outs.filter (echoOver now gap)).length }

/-- Exchanges are lost one interval after their t1. -/
def exchangeLost (p : PortRef) (spare : Bool) (s : State) : State :=
  if (pairOf (getPort s p) spare).outs.any (echoOver (nowOf s p) (echoInterval s p)) then
    let s := onPort p (onPair spare (loseOver (nowOf s p) (echoInterval s p))) s
    let s := if spare then s else match portSource p with
      | some (part, src) => rejDrop part src s
      | none => s
    let lp := getPort s p
    if !spare && !lp.time.echoLost && decide (echoLossLimit s p ≤ lp.time.act.lost) then echoLostOp p s else s
  else s

/-! ## Initiating and answering (R93, R94) -/

/-- An exchange of a pair is due (R93): on the active pair once per interval, on the spare pair half an interval after each
exchange of the active pair. -/
def echoDue (s : State) (p : PortRef) (spare : Bool) : Bool :=
  let lp := getPort s p
  let now := nowOf s p
  let gap := echoInterval s p
  match lp.time.act.initAt with
  | some t =>
    if spare then decide (t + gap / 2 ≤ now) && (match lp.time.spare.initAt with
      | some u => decide (u < t + gap / 2)
      | none => true)
    else decide (t + gap ≤ now)
  | none => !spare

/-- Body of an ECHO_REQ before its T1 is filled in (R71). -/
def echoReqBody (id : Nat) (spare : Bool) : BitVec 64 := bodyOf [(54, 0), (6, id), (1, if spare then 1 else 0)]

/-- Initiate an exchange. -/
def echoStart (p : PortRef) (spare : Bool) (s : State) : State :=
  if admitted (getPort s p) && !echoMuted s p && echoDue s p spare then
    let x := pairOf (getPort s p) spare
    let s := onPort p (onPair spare fun x => { x with nextId := x.nextId + 1, initAt := some (nowOf s p) }) s
    sendUns p spare 4 0x04 (echoReqBody x.nextId.toNat spare) .echoReq s
  else s

/-- A receive timestamp, `frac` / 64 ns into the present tick, in units of 2^-6 ns (R58). DESIGN CHOICE (assumption 123): a
frame's command stands at one tick for the whole block, and its stamp is that tick's, though R58 stamps the first bit and R82
counts a cut-through from the last. -/
def stampOf (s : State) (p : PortRef) (frac : Nat) : Nat := localNs (baseOf s p) * 64 + frac

/-- Answer an ECHO_REQ on the pair it names (R94). -/
def echoAnswer (p : PortRef) (spare : Bool) (id frac : Nat) (s : State) : State :=
  if linkRuns (getPort s p) && !echoMuted s p then
    let t2 := stampOf s p frac
    sendUns p spare 4 0x05 (bodyOf [(32, t2), (24, 0), (6, id), (1, if spare then 1 else 0)]) (.echoRsp t2) s
  else s

/-! ## Completing an exchange (R95 to R99, R183, R539) -/

/-- The asymmetry that applies to an exchange, in 2^-6 ns (R96): the held value refers to lane 0 of each direction, and half of
a direction's skew counts where the frame travelled on lane 1. -/
def asymUsed (s : State) (p : PortRef) (fwdLane revLane : Bool) (fwdSkew revSkew : Int) : Int :=
  asymRound (asymOf s p) + (if fwdLane then tdivInt fwdSkew 2 else 0) - (if revLane then tdivInt revSkew 2 else 0)

/-- Delay and raw offset of an exchange (R95). -/
def echoDelay (t1 t2 t3 t4 : Int) : Int := tdivInt ((t4 - t1) - (t3 - t2)) 2
def echoRaw (t1 t2 t3 t4 : Int) : Int := tdivInt ((t2 - t1) - (t4 - t3)) 2

/-- The first upstream port to complete two exchanges is the one the counter loads from (R539). -/
def chooseParent (n : Nat) (s : State) : State :=
  let d := s.dist
  let other := if n = 128 then 129 else 128
  let o := distPort d other
  if d.base.valid || isRoot d || (distPort d n).time.act.done ≠ 2 then s
  else if admitted o && decide (2 ≤ o.time.act.done) then
    if o.time.act.done = 2 ∧ o.time.act.doneAt = some d.base.tick then setSts .dist 4 (rdB d.base 0x9040 0) s else s
  else setSts .dist 4 (n == 129) s

/-- A completed active-pair exchange feeds the servo, the load choice and the state machine. -/
def echoFeed (p : PortRef) (theta : Int) (s : State) : State := match p with
  | .unit d => unitFsm (exchange .unit (decide (d = .b)) theta s)
  | .dist n => if isUp n.val then exchange .dist (n.val == 129) theta (chooseParent n.val s) else s

/-- An ECHO_RSP for an exchange in flight (R95 to R98). -/
def echoDone (p : PortRef) (spare lane : Bool) (id : BitVec 6) (t2w resid frac : Nat) (fwdSkew revSkew : Int) (s : State) :
    State :=
  let lp := getPort s p
  let now := nowOf s p
  match (pairOf lp spare).outs.find? fun e => e.id == id with
  | some e =>
    if admitted lp && !echoOver now (echoInterval s p) e then
      let t2 := extendHt 32 e.t1 t2w
      let t1 : Int := e.t1
      let t4 : Int := stampOf s p frac
      let dly := echoDelay t1 t2 (t2 + resid) t4
      let raw := echoRaw t1 t2 (t2 + resid) t4
      let theta := raw - asymUsed s p (lp.phy.txLane != spare) lane fwdSkew revSkew
      let s := onPort p (onPair spare fun x =>
        { x with outs := x.outs.filter fun e => e.id != id, lost := 0, good := x.good + 1, done := x.done + 1, doneAt := some now, ofs := theta, dly := dly }) s
      if spare then s
      else
        let s := onPort p (fun lp => { lp with time := { lp.time with
          heardAt := some now, raws := (raw :: lp.time.raws).take 65536,
          echoLost := lp.time.echoLost && decide (lp.time.act.good < 2) } }) s
        echoFeed p theta s
    else s
  | none => s

/-! ## TIME (R28, R83, R99, R164) -/

/-- Send TIME on every admitted downstream port (R83), `delay` ticks after the command's tick (assumption 123). -/
def timeDown (delay : Nat) (s : State) : State :=
  if muted s.dist then s
  else
    let gen := BitVec.ofNat 64 (rdF s.dist.base 0x104C 0 16)
    (downPorts s.dist).foldl (fun s n =>
      onPort (distRef n) (queueOn false [txOne s.dist.base.tick delay 4 false 0x03 gen .time]) s) s

/-- A part is aligned for R99. -/
def aligned (s : State) : Part → Bool
  | .unit => tckState s.unit == 5
  | .dist => stsBit s .dist 0

/-- The comparison of R99 on a TIME frame: of the active source while the part is aligned, and of any source on which
TIME_MISMATCH stands, until two consecutive frames agree. TIME_MISMATCH is raised once while it stands (assumption 124). -/
def timeCheck (p : PortRef) (part : Part) (src : Bool) (ns : BitVec 48) (s : State) : State :=
  let b := partBase s part
  let lp := getPort s p
  if b.valid && ((stsBit s part 4 == src && aligned s part) || lp.time.mismatch) then
    let want : Int := (extend48 b ns).toNat + (lp.time.act.dly + 32) / 64
    if 2 < (want - (b.ns.toNat : Int)).natAbs then
      let s := onPort p (fun lp => { lp with time := { lp.time with mismatch := true, agree := 0 } }) s
      if lp.time.mismatch then s
      else
        let s := onPort p (fun lp => { lp with hlth := { lp.hlth with vEcho := true } }) s
        scorePort p 0x054 0 (portEvt p 3 (logPort p lkTimeMismatch 0 0 s))
    else if lp.time.mismatch then
      onPort p (fun lp => { lp with time := { lp.time with
        agree := lp.time.agree + 1, mismatch := decide (lp.time.agree + 1 < 2) } }) s
    else s
  else s

/-- The unit's judgement of a domain's generation (R28). -/
def genCheck (d : Dom) (gen : BitVec 16) (s : State) : State :=
  let p := PortRef.unit d
  let lp := getPort s p
  if !s.unit.base.valid then s
  else if rdF s.unit.base 0x1050 0 16 = gen.toNat then
    if lp.time.genMis then
      onPort p (fun lp => { lp with time := { lp.time with
        genAgree := lp.time.genAgree + 1, genMis := decide (lp.time.genAgree + 1 < 2) } }) s
    else s
  else
    let s := onPort p (fun lp => { lp with time := { lp.time with genMis := true, genAgree := 0 } }) s
    if lp.time.genMis then s else sourceFails .unit (decide (d = .b)) (logPort p lkEpochMismatch 0 0 s)

/-- A TIME frame at a unit (R28, R99, R164, R541). -/
def unitTime (d : Dom) (ns : BitVec 48) (gen : BitVec 16) (frac : Nat) (s : State) : State :=
  let src := decide (d = .b)
  if tckState s.unit = 4 && !s.unit.base.valid then
    if stsBit s .unit 4 == src && echoTwice s.unit d then unitFsm (loadCounter .unit src ns gen frac s) else s
  else unitFsm (timeCheck (.unit d) .unit src ns (genCheck d gen s))

/-- A TIME frame on an upstream port of a distributor (R83, R99, R164, R539). -/
def distTime (n : Nat) (ns : BitVec 48) (gen : BitVec 16) (frac : Nat) (s : State) : State :=
  let src := n == 129
  if isRoot s.dist then s
  else if stsBit s .dist 4 != src then timeCheck (distRef n) .dist src ns s
  else
    let s := if !s.dist.base.valid then
        (if 2 ≤ (distPort s.dist n).time.act.done then loadCounter .dist src ns gen frac s else s)
      else timeCheck (distRef n) .dist src ns s
    if s.dist.base.valid then timeDown cutThrough s else s

/-- A CRC-good TIME frame on an admitted port. -/
def timeOp (p : PortRef) (ns : BitVec 48) (gen : BitVec 16) (frac : Nat) (s : State) : State :=
  if admitted (getPort s p) then
    let s := onPort p (fun lp => { lp with time := { lp.time with peerGen := gen, heardAt := some (nowOf s p) } }) s
    match p with
    | .unit d => unitTime d ns gen frac s
    | .dist n => distTime n.val ns gen frac s
  else s

/-- The root's TIME frames (R83). -/
def rootTime (s : State) : State :=
  let d := s.dist
  if isRoot d && d.base.valid && decide (d.adm.timeAt + rdF d.base 0x1064 0 16 * 4 ≤ d.base.tick) then
    timeDown 0 (onDist (onAdm fun a => { a with timeAt := d.base.tick }) s)
  else s

/-! ## EPOCH (R27) -/

/-- Keep an EPOCH frame until the counter is loaded. -/
def keepEpoch (p : PortRef) (gen : BitVec 16) (applied : BitVec 48) (s : State) : State :=
  onPort p (fun lp => { lp with time := { lp.time with kept := some (gen, applied) } }) s

/-- An EPOCH frame (R27): recorded, kept, and at a distributor cut through from the active parent. -/
def epochOp (p : PortRef) (gen : BitVec 16) (applied : BitVec 48) (s : State) : State :=
  if !admitted (getPort s p) then s
  else match p with
    | .unit d =>
      let b := s.unit.base
      if !b.valid then keepEpoch p gen applied s
      else if domUsable s.unit d && rdF b 0x1050 0 16 == gen.toNat then
        onUnit (uB fun b => wr64 0x1068 (extend48 b applied) b) s
      else s
    | .dist n =>
      let d := s.dist
      let s := if !d.base.valid then keepEpoch p gen applied s
        else if n.val = activeUp d ∧ rdF d.base 0x104C 0 16 = gen.toNat then
          onDist (fun d => onAdm (fun a => { a with epochHeld := true })
            (dB (fun b => pgEvt 0x01 1 (wr64 0x105C (extend48 b applied) b)) d)) s
        else s
      if n.val = activeUp d then sendDown cutThrough 7 0x12 (epochBody gen.toNat applied) [] s else s

/-! ## The meanings -/

/-- ECHO_INTERVAL_TIMER (R93). -/
def execEchoIntervalTimer (p : PortRef) (spare : Bool) (s : State) : Host.Outcome State Fault Refusal :=
  .next (ifPort p (echoStart p spare) s)

/-- ECHO_REQ_RX (R94). -/
def execEchoReqRx (rx : RxU) (spare : Bool) (echoId : BitVec 6) (t1 : BitVec 54) (frac : BitVec 6) (s : State) :
    Host.Outcome State Fault Refusal :=
  .next (ifPort rx.port (fun s =>
    let r := rxUns rx true 0x04 (bodyOf [(54, t1.toNat), (6, echoId.toNat), (1, if spare then 1 else 0)]) s
    if r.1 then echoAnswer rx.port spare echoId.toNat frac.toNat r.2 else r.2) s)

/-- ECHO_RSP_RX (R95 to R98). -/
def execEchoRspRx (rx : RxU) (spare : Bool) (echoId : BitVec 6) (t2 : BitVec 32) (resid : BitVec 24) (frac : BitVec 6)
    (fwdSkew revSkew : Int) (s : State) : Host.Outcome State Fault Refusal :=
  .next (ifPort rx.port (fun s =>
    let body := bodyOf [(32, t2.toNat), (24, resid.toNat), (6, echoId.toNat), (1, if spare then 1 else 0)]
    let r := rxUns rx true 0x05 body s
    if r.1 then echoDone rx.port spare rx.lane echoId t2.toNat resid.toNat frac.toNat fwdSkew revSkew r.2 else r.2) s)

/-- ECHO_EXCHANGE_TIMEOUT (R98). -/
def execEchoExchangeTimeout (p : PortRef) (spare : Bool) (s : State) : Host.Outcome State Fault Refusal :=
  .next (ifPort p (fun s => match p with
    | .unit _ => unitFsm (exchangeLost p spare s)
    | .dist _ => exchangeLost p spare s) s)

/-- TIME_RX (R28, R83, R99, R164). -/
def execTimeRx (rx : RxU) (ns : BitVec 48) (gen : BitVec 16) (frac : BitVec 6) (s : State) : Host.Outcome State Fault Refusal :=
  .next (ifPort rx.port (fun s =>
    let r := rxUns rx (permDown rx.port) 0x03 (ns ++ gen : BitVec 64) s
    if r.1 then timeOp rx.port ns gen frac.toNat r.2 else r.2) s)

/-- ROOT_TIME_TIMER (R83). -/
def execRootTimeTimer (s : State) : Host.Outcome State Fault Refusal := .next (ifDistRuns rootTime s)

/-- EPOCH_FRAME_RX (R27). -/
def execEpochFrameRx (rx : Rx) (gen : BitVec 16) (applied : BitVec 48) (s : State) : Host.Outcome State Fault Refusal :=
  .next (ifPort rx.port (fun s =>
    let r := rxSeq rx (permDown rx.port) [(0x12, epochBody gen.toNat applied)] s
    if r.1 then epochOp rx.port gen applied r.2 else r.2) s)

end Sys2Proof.Machine
end

