-- ==== Sys2Proof/Machine/Admission.lean ====
section
/-! DEFINITION. HELLO, the admission rotation and ADMIT (R33, R34, R72, R100, R101, R409, R533 to R539, R586, R619). -/

namespace Sys2Proof.Machine

/-! ## HELLO (R71, R534) -/

/-- Body of a HELLO frame (R71). -/
def helloBody (kind : Nat) (domB : Bool) (tier : Nat) (dkey : Word) (stepping gen : Nat) (valid : Bool) : BitVec 64 :=
  bodyOf [(4, kind), (1, if domB then 1 else 0), (2, tier), (32, dkey.toNat), (8, stepping), (16, gen),
          (1, if valid then 1 else 0)]

/-- The HELLO that a port sends (R534). -/
def ownHello (s : State) : PortRef → BitVec 64
  | .unit _ =>
    let b := s.unit.base
    helloBody (if (cfgOf b).w64 then 2 else 1) false 0 (ownDkey b) 1 (rdF b 0x1050 0 16) b.valid
  | .dist n =>
    let b := s.dist.base
    helloBody (if isRope n.val then 5 else 3) (distDomB s.dist) (distTier s.dist) (ownDkey b) 1 (rdF b 0x104C 0 16) b.valid

/-- A port that sends HELLO while in LINK_UP: every port but a downstream one (R534). -/
def sendsHello : PortRef → Bool
  | .unit _ => true
  | .dist n => !isDown n.val

/-- A Rope port that has sent and received HELLO is admitted (R100). -/
def ropeTest (n : Fin 132) (s : State) : State :=
  let lp := distPort s.dist n.val
  if decide (lp.phy.st = .up) && lp.adm.sent && lp.adm.seen then ropeAdmitted n s else s

/-- Send HELLO on a port in LINK_UP, once every 1 ms (R534); the receive count returns to 0 (R72). -/
def helloOp (p : PortRef) (s : State) : State :=
  let lp := getPort s p
  let now := nowOf s p
  let due := match lp.adm.sentAt with
    | some t => decide (t + 1000000 ≤ now) || !lp.adm.sent
    | none => true
  if decide (lp.phy.st = .up) && sendsHello p && due then
    let s := sendUns p false 7 0x01 (ownHello s p) .none s
    let s := onPort p (fun lp => { lp with adm := { lp.adm with sent := true, sentAt := some now },
                                           arq := { lp.arq with rxExp := 0, ackDue := none, nak := none } }) s
    match p with
    | .unit _ => s
    | .dist n => if isRope n.val then ropeTest n s else s
  else s

/-- PRT.PEER_INFO from a HELLO (R619). -/
def helloInfo (domB : Bool) (tier stepping : Nat) (valid : Bool) : Word :=
  BitVec.ofNat 32 (packBits [(1, 1), (1, 0), (6, 0), (8, 0), (8, stepping), (1, if valid then 1 else 0), (2, tier),
    (1, if domB then 1 else 0), (4, 0)])

/-- A HELLO on a downstream port is kept for its slot; an admitted port returns to LINK_UP (R536, R538). -/
def downHello (n : Fin 132) (h : KeptHello) (s : State) : State :=
  let s := onPort (.dist n) (fun lp => { lp with adm := { lp.adm with hello := some h } }) s
  if admitted (distPort s.dist n.val) then linkReturn (.dist n) s else s

/-- A HELLO on a Rope port (R100, R101, R409, R615). -/
def ropeHello (n : Fin 132) (h : KeptHello) (s : State) : State :=
  let s := onDist (dB fun b => wrF 0x0B040 12 2 h.tier.toNat (wrB 0x0B040 14 h.domB b)) s
  let lp := distPort s.dist n.val
  if h.kind ≠ 5 ∨ lp.phy.st ≠ .up then s
  else
    let same := h.domB == distDomB s.dist
    let tier := h.tier.toNat != distTier s.dist
    let s := if same then logPort (.dist n) lkRopeSameDomain 0 0 s else s
    let s := if tier then logPort (.dist n) lkRopeTierMismatch 0 0 s else s
    if same || tier then s
    else
      let s := compareKey (.dist n) lkDkeyMismatchDist h.dkey s
      ropeTest n (onPort (.dist n) (fun lp => { lp with adm := { lp.adm with seen := true } }) s)

/-- A CRC-good HELLO at a distributor. -/
def helloRxOp (n : Fin 132) (h : KeptHello) (s : State) : State :=
  let s := onPort (.dist n) (fun lp => { lp with adm := { lp.adm with info := helloInfo h.domB h.tier.toNat h.stepping.toNat h.valid } }) s
  if isDown n.val then downHello n h s else ropeHello n h s

/-! ## The rotation (R535, R536) -/

/-- The rotation runs (R535). -/
def rotationRuns (d : DistState) : Bool :=
  decide (d.base.phase = .run) && !muted d && (if isRoot d then rdB d.base 0x1050 1 else d.adm.lockedOnce)

/-- A HELLO comes from a unit, or from a child distributor. -/
def fromUnit (h : KeptHello) : Bool := h.kind == 1 || h.kind == 2

/-- The first check of R536 that a kept HELLO fails; 0 for none. -/
def admitCause (d : DistState) (n : Nat) (h : KeptHello) : Nat :=
  let child := h.kind == 3
  if fromUnit h && !rdB d.base (0x100048 + 0x1000 * n) 31 then 1
  else if !fromUnit h && !child then 2
  else if child && h.domB != distDomB d then 3
  else if child && h.tier.toNat != distTier d + 1 then 4
  else if child && h.valid && h.gen.toNat != rdF d.base 0x104C 0 16 then 5
  else 0

/-- Body of an ADMIT frame (R71). -/
def admitBody (uid port : Nat) (domB : Bool) (tier : Nat) (dkey : Word) (child : Bool) : BitVec 64 :=
  bodyOf [(20, uid), (8, port), (1, if domB then 1 else 0), (2, tier), (32, dkey.toNat), (1, if child then 1 else 0)]

/-- Ticks of the 16 frame cycles within which ADMIT is sent, its earliest start (R536, R646). -/
def admitDelay : Nat := 64

/-- Admit a downstream port: ADMIT, LINK_ADMITTED and what follows it (R104, R409, R536). -/
def admitNow (n : Fin 132) (h : KeptHello) (s : State) : State :=
  let p := PortRef.dist n
  let d := s.dist
  let uid := if fromUnit h then rdF d.base (0x100048 + 0x1000 * n.val) 0 20 else 0
  let s := sendSeq p admitDelay 7 0x02 (admitBody uid n.val (distDomB d) (distTier d) (ownDkey d.base) (!fromUnit h)) [] s
  let s := onPort p (fun lp => { lp with adm := { lp.adm with childDist := !fromUnit h, childId := BitVec.ofNat 20 uid } }) s
  let s := compareKey p lkDkeyMismatchDist h.dkey s
  downAdmitted n.val (portEvt p 1 (admitPort p s))

/-- Examine the kept HELLO of the port whose slot opens (R536). -/
def examine (n : Fin 132) (s : State) : State :=
  let p := PortRef.dist n
  let lp := getPort s p
  match lp.adm.hello with
  | some h =>
    if decide (lp.phy.st = .up) && decide (s.dist.base.tick ≤ h.at_ + 2000000) && !lp.hlth.expelled then
      let c := admitCause s.dist n.val h
      if c = 0 then admitNow n h s
      else portEvt p 1 (onPort p (fun lp => { lp with adm := { lp.adm with cause := BitVec.ofNat 3 c } }) s)
    else s
  | none => s

/-- The next slot of the rotation opens, 200 µs after the last (R535). -/
def slotOp (s : State) : State :=
  let d := s.dist
  let due := match d.adm.slotAt with
    | some t => decide (t + 200000 ≤ d.base.tick)
    | none => true
  if rotationRuns d && due then
    let n := d.adm.slot % 128
    let s := onDist (onAdm fun a => { a with slot := (n + 1) % 128, slotAt := some d.base.tick }) s
    examine (if h : n < 132 then ⟨n, h⟩ else 0) s
  else s

/-! ## ADMIT (R34, R538, R586, R619) -/

/-- ADMIT_INFO of a unit port (R586). -/
def admitInfo (refused : Bool) (tier uid port : Nat) : Word :=
  BitVec.ofNat 32 (packBits [(1, 1), (1, if refused then 1 else 0), (2, tier), (20, uid), (8, port)])

/-- An ADMIT at a unit port (R34, R409, R538, R577, R586). -/
def unitAdmit (d : Dom) (uid port : Nat) (domB : Bool) (tier : Nat) (dkey : Word) (s : State) : State :=
  let p := PortRef.unit d
  let held := rdB s.unit.base 0x00048 31
  let split := held && rdF s.unit.base 0x00048 0 20 != uid
  let bad := domB != decide (d = .b)
  let refused := bad || split
  let s := onPort p (fun lp => { lp with adm := { lp.adm with info := admitInfo refused tier uid port } }) s
  let s := portEvt p 1 s
  if bad then s
  else if split then
    logPort p lkUnitIdSplit 0 0 (onPort p (fun lp => { lp with adm := { lp.adm with idSplit := true } }) s)
  else
    let s := onUnit (uB (wr 0x00048 (BitVec.ofNat 32 (2 ^ 31 + uid)))) s
    let s := onPort p (fun lp => { lp with adm := { lp.adm with idSplit := false } }) s
    let s := compareKey p lkDkeyMismatchUnit dkey s
    if admitted (getPort s p) then s else unitAdmitted d s

/-- PRT.PEER_INFO from an ADMIT (R619). -/
def admitPeer (port tier : Nat) (domB : Bool) : Word :=
  BitVec.ofNat 32 (packBits [(1, 1), (1, 1), (6, 0), (8, port), (8, 0), (1, 1), (2, tier), (1, if domB then 1 else 0), (4, 0)])

/-- An ADMIT at an upstream port of a distributor. -/
def distAdmit (n : Fin 132) (port tier : Nat) (domB : Bool) (dkey : Word) (s : State) : State :=
  let p := PortRef.dist n
  let s := onPort p (fun lp => { lp with adm := { lp.adm with info := admitPeer port tier domB, peerDkey := dkey } }) s
  if admitted (getPort s p) then s else portEvt p 1 (upAdmitted n s)

/-! ## The meanings -/

/-- HELLO_TIMER (R72, R534). -/
def execHelloTimer (p : PortRef) (s : State) : Host.Outcome State Fault Refusal := .next (ifPort p (helloOp p) s)

/-- HELLO_RX (R100, R101, R536, R538). -/
def execHelloRx (rx : RxU) (kind : BitVec 4) (domB : Bool) (tier : BitVec 2) (dkey : Word) (stepping : BitVec 8)
    (gen : BitVec 16) (valid : Bool) (s : State) : Host.Outcome State Fault Refusal :=
  .next (ifPort rx.port (fun s =>
    let body := helloBody kind.toNat domB tier.toNat dkey stepping.toNat gen.toNat valid
    let r := rxUns rx (permUp rx.port || permRope rx.port) 0x01 body s
    if r.1 then
      match rx.port with
      | .unit _ => r.2
      | .dist n => helloRxOp n { kind := kind, domB := domB, tier := tier, gen := gen, valid := valid, dkey := dkey,
                                 stepping := stepping, at_ := r.2.dist.base.tick } r.2
    else r.2) s)

/-- ADMISSION_SLOT (R535, R536). -/
def execAdmissionSlot (s : State) : Host.Outcome State Fault Refusal := .next (ifDistRuns slotOp s)

/-- ADMIT_RX (R34, R538). -/
def execAdmitRx (rx : Rx) (unitId : BitVec 20) (port : BitVec 8) (domB : Bool) (tier : BitVec 2) (dkey : Word)
    (childDist : Bool) (s : State) : Host.Outcome State Fault Refusal :=
  .next (ifPort rx.port (fun s =>
    let body := admitBody unitId.toNat port.toNat domB tier.toNat dkey childDist
    let r := rxSeq rx (permDown rx.port) [(0x02, body)] s
    if r.1 then
      match rx.port with
      | .unit d => unitAdmit d unitId.toNat port.toNat domB tier.toNat dkey r.2
      | .dist n => distAdmit n port.toNat tier.toNat domB dkey r.2
    else r.2) s)

end Sys2Proof.Machine
end

