-- ==== Sys2Proof/Machine/Context.lean ====
section
/-! DEFINITION. Barrier entry, deadline and control, the fence tracker, the deadlock detector, the context clear and
retired objects (R303 to R306, R315 to R331, R336 to R352, R627). -/

namespace Sys2Proof.Machine

/-! ## Barriers (R318 to R330) -/

/-- The current count reaches EXPECT: the round completes, or the hall contribution is posted (R322, R325). -/
def barReach (b : Nat) (s : State) : State :=
  let u := s.unit
  let x := barGet u b
  if x.st = .opened ∧ 0 < x.expect ∧ barCur x = x.expect then
    if barHall u b then
      let seq := (rd u.base (barSeqAddr b)).setWidth 16
      let s := onUnit (fun u => uB (wrF (barSeqAddr b) 0 16 (seq.toNat + 1))
        (barPut b { x with st := .hallWait, again := false } u)) s
      let r := postOp { gallery := barGallery u b, gseq := seq, op := opBarrier, chunks := 0, buf := 0, sigSem := 0,
                        sigEn := false, notify := false, core := 0, tag := 0, bar := some b } s
      if r.1 = 0 then r.2 else logU uBarHallRefused noPort b 0 0 (completeRound b stAborted false r.2)
    else completeRound b stOk false s
  else s

/-- The cause of an entry's refusal (R320), as STATUS and CAUSE; status 0 is no refusal. -/
def barRefusal (u : UnitState) (b core : Nat) : Nat × Nat :=
  let x := barGet u b
  if barCap u ≤ b then (stBadObj, 0)
  else if x.failed then (stObjFailed, 0)
  else if !barMember u b core then (stRefused, 1)
  else if x.st = .disabled then (stRefused, 2)
  else if x.st = .stalled then (stRefused, 3)
  else if (memGet x core).held.isSome then (stRefused, 4)
  else (0, 0)

/-- BAR_LAP: logged, counted and raised (R319, R353, R575). -/
def barLap (b : Nat) (s : State) : State :=
  let s := logU uBarLap noPort b 0 0 (onUnit (uB fun x => pgEvt 0x0C 1 (inc 0x0C060 x)) s)
  if barEvt s.unit b then onUnit (uB (occur 73)) s else s

/-- The participation of a member after an accepted entry (R319). -/
def memEnter (m : BarMem) (e : BarEnt) : BarMem :=
  if m.cur.isNone then { m with cur := some e }
  else if m.next.isNone then { m with next := some e }
  else { m with held := some e }

/-- An entry (R319, R320). -/
def barEnterOp (r : Req) (b : Nat) (s : State) : State :=
  let u := s.unit
  let core := r.reply.toNat
  let c := barRefusal u b core
  if c.1 ≠ 0 then
    let s := if c.2 = 4 then barLap b s else s
    onUnit (respError r c.1 b 0x08 c.2) s
  else
    let x := barGet u b
    let m := memGet x core
    let e : BarEnt := { tag := r.tag.toNat, at_ := u.base.tick }
    let s := onUnit (barPut b { x with mems := tabSet {} core (memEnter m e) x.mems }) s
    if m.cur.isNone then barReach b s
    else if m.next.isNone then s
    else barLap b s

/-- The tick from which the deadline of the current round runs (R328). -/
def barFrom (x : Barrier) : Option Nat :=
  let first := x.mems.foldl (fun o m => match m.2.cur, o with
    | some e, some t => some (min t e.at_)
    | some e, none => some e.at_
    | none, o => o) none
  first.map fun t => max t x.roundAt

/-- The deadline of a barrier has run (R328). -/
def barDue (u : UnitState) (b : Nat) : Bool :=
  let x := barGet u b
  let d := (rd u.base (objAddr b 0x0C048)).toNat
  match barFrom x with
  | some t => decide (x.st = .opened) && !x.failed && decide (d ≠ 0) && decide (t + d ≤ u.base.tick)
  | none => false

/-- A barrier stalls (R329). -/
def barDeadlineOp (b : Nat) (s : State) : State :=
  if barDue s.unit b then
    let x := barGet s.unit b
    let absent := min 255 (x.expect - barCur x)
    let codes := x.mems.map fun m => (m.1, memCode m.2)
    let s := logU uBarDeadline noPort b 0 absent (onUnit (uB fun y => pgEvt 0x0C 0 (inc 0x0C064 y)) s)
    let s := if barEvt s.unit b then onUnit (uB (occur 73)) s else s
    onUnit (fun u =>
      let u := endEntries b stTimeout u
      barPut b { barGet u b with st := .stalled, frozen := codes } u) s
  else s

/-- BAR.SEL. -/
def barSel (u : UnitState) : Nat := rdF u.base 0x0C040 0 8

/-- A barrier in the state that R318 gives an enabled one, its ROUND kept. -/
def barFresh (u : UnitState) (b : Nat) : UnitState :=
  barPut b { barGet u b with st := .opened, sense := false, mems := [], again := false, frozen := [],
                             expect := barSize u b, roundAt := u.base.tick } u

/-- BAR.CMD.RESET of a barrier (R330). -/
def barResetOp (b : Nat) (s : State) : State :=
  let x := barGet s.unit b
  if x.failed || decide (x.st = .disabled) then s
  else if x.st = .hallWait then logU uBarCfgErr noPort b 0 0 s
  else onUnit (fun u => barFresh (endEntries b stAborted u) b) s

/-- A write of BAR.CTL of a barrier (R318, R326, R330). -/
def barCtlOp (b : Nat) (be : BitVec 4) (data : Word) (s : State) : State :=
  let u := s.unit
  let old := rd u.base (barCtlAddr b)
  let new := writeFlds [rw 0 3, rw 4 12] true be old data
  let x := barGet u b
  if barCap u ≤ b then s
  else if bitOf new 1 && !galPermitted u.base (fld new 4 12) then logU uBarCfgErr noPort b 0 0 s
  else if decide (x.st = .hallWait) && !bitOf new 0 then logU uBarCfgErr noPort b 0 0 s
  else
    let s := onUnit (uB (wr (barCtlAddr b) new)) s
    if x.failed then s
    else if !bitOf old 0 && bitOf new 0 then onUnit (fun u => barFresh u b) s
    else if bitOf old 0 && !bitOf new 0 then
      onUnit (fun u =>
        let u := endEntries b stAborted u
        barPut b { barGet u b with st := .disabled } u) s
    else s

/-- A write of MEMBER_w or HALL_SEQ of a barrier, which EN = 1 forbids (R317, R327). -/
def barGuarded (b a : Nat) (logged : Bool) (be : BitVec 4) (flds : List Fld) (data : Word) (s : State) : State :=
  let u := s.unit
  if barCap u ≤ b then s
  else if rdB u.base (barCtlAddr b) 0 then (if logged then logU uBarCfgErr noPort b 0 0 s else s)
  else onUnit (uB fun x => wr (objAddr b a) (writeFlds flds true be (rd x (objAddr b a)) data) x) s

/-- STATE of a member in STATE_w (R329, R353): what a deadline kept is shown until the barrier is reset, a disabled one's too. -/
def barStateCode (x : Barrier) (core : Nat) : Nat :=
  if x.st = .stalled ∨ x.st = .disabled then tabGet 0 core x.frozen else memCode (memGet x core)

/-! ## The fence tracker (R337 to R345) -/

def fncPairs (u : UnitState) : Nat := if (cfgOf u.base).w64 then 256 else 4096
def fncHeldCap (u : UnitState) : Nat := if (cfgOf u.base).w64 then 128 else 2048

def onFnc (f : Fence → Fence) (u : UnitState) : UnitState := { u with fnc := f u.fnc }
def fncGet (u : UnitState) (p : Nat) : Option FncPair := tabGet none p u.fnc.pairs
def fncBad (u : UnitState) (p : Nat) : Bool := tabGet false p u.fnc.bad
def fncPut (p : Nat) (x : Option FncPair) (u : UnitState) : UnitState :=
  onFnc (fun f => { f with pairs := tabSet none p x f.pairs }) u

/-- Signals held pending: a covered signal that waits for the apply channel is held too (R627). -/
def fncHeld (u : UnitState) : List FncSig := u.fnc.held ++ u.fnc.covered

/-- FNC_SIG_READY (R340, R531, R532). -/
def fncReady (u : UnitState) : Bool := decide (u.base.phase = .run) && u.sems.clearing.isNone && decide ((fncHeld u).length < fncHeldCap u)

/-- The pair of a stream, and the lowest free pair. -/
def fncFind (u : UnitState) (src tag : BitVec 16) : Option (Nat × FncPair) :=
  u.fnc.pairs.findSome? fun x => match x.2 with
    | some p => if p.src = src ∧ p.tag = tag then some (x.1, p) else none
    | none => none
def fncFree (u : UnitState) : Option Nat :=
  (List.range (fncPairs u)).find? fun p => (fncGet u p).isNone && !fncBad u p

/-- Signals discarded (R344). -/
def fncCount (n : Nat) (u : UnitState) : UnitState :=
  uB (fun b => wr 0x0E064 (BitVec.ofNat 32 (min 0xFFFFFFFF ((rd b 0x0E064).toNat + n))) b) u

/-- No pair is free for a stream: OVERFLOW is set, logged once in the context (R344) with the stream, SRC in OBJ and the low
bits of TAG in AUX (R358; assumption 134). -/
def fncOver (src tag : BitVec 16) (s : State) : State :=
  if rdB s.unit.base 0x0E044 25 then s
  else logU uFncOverflow noPort src.toNat 0 (tag.toNat % 256) (onUnit (uB fun b => pgEvt 0x0E 0 (wrB 0x0E044 25 true b)) s)

/-- The tracker pair of a stream, allocated on its first signal or report (R341). -/
def fncPair (src tag : BitVec 16) (s : State) : Option Nat × State :=
  match fncFind s.unit src tag with
  | some (p, _) => (some p, s)
  | none =>
    match fncFree s.unit with
    | some p => (some p, onUnit (fncPut p (some { src := src, tag := tag, drained := 0 })) s)
    | none => (none, fncOver src tag s)

/-- DRAINED of a pair. -/
def fncDrained (u : UnitState) (p : Nat) : BitVec 32 := match fncGet u p with
  | some x => x.drained
  | none => 0

/-- A signal is covered (R341). -/
def fncCovered (u : UnitState) (g : FncSig) : Bool := decide ((fncDrained u g.pair - g.wcount).toNat < 2 ^ 31)

/-- Apply one signal (R343). -/
def fncApply (g : FncSig) (s : State) : State :=
  let n := g.sem.toNat
  if (cfgOf s.unit.base).w64 then onUnit (onFnc fun f => { f with covered := f.covered ++ [g] }) s
  else if semRetired s.unit n then logU uObjRetired noPort n 0 0 (onUnit (fncCount 1) s)
  else semSignal n g.amount.toNat g.src.toNat true false (onUnit (uB (inc 0x0E060)) s)

/-- Order of covered signals of one stream: ascending WCOUNT relative to DRAINED, then arrival (R342). -/
def fncInsert (d : BitVec 32) (g : FncSig) : List FncSig → List FncSig
  | [] => [g]
  | h :: t => if (d - h.wcount).toNat < (d - g.wcount).toNat then g :: h :: t else h :: fncInsert d g t

/-- A remote signal (R341, R342, R344); a lowered ready takes none (R340). -/
def fenceSignalOp (src tag : BitVec 16) (wcount : BitVec 32) (sem : BitVec 16) (amount : BitVec 32) (s : State) : State :=
  if !fncReady s.unit then s
  else
    let r := fncPair src tag s
    match r.1 with
    | none => onUnit (fncCount 1) r.2
    | some p =>
      let g : FncSig := { pair := p, src := src, tag := tag, wcount := wcount, sem := sem, amount := amount,
                          at_ := r.2.unit.base.tick, logged := false }
      if fncBad r.2.unit p then onUnit (fncCount 1) r.2
      else if fncCovered r.2.unit g then fncApply g r.2
      else onUnit (onFnc fun f => { f with held := f.held ++ [g] }) r.2

/-- A drain report (R342, R344); one received during a context clear is discarded (R352). -/
def drainOp (src tag delta : BitVec 16) (s : State) : State :=
  if s.unit.sems.clearing.isSome then s
  else
    let r := fncPair src tag s
    match r.1 with
    | none => r.2
    | some p =>
      if fncBad r.2.unit p then r.2
      else
        let d := fncDrained r.2.unit p + delta.setWidth 32
        let s := onUnit (fncPut p (some { src := src, tag := tag, drained := d })) r.2
        let go := s.unit.fnc.held.filter fun g => g.pair == p && fncCovered s.unit g
        let s := onUnit (onFnc fun f => { f with held := f.held.filter fun g => !go.contains g }) s
        (go.foldl (fun l g => fncInsert d g l) []).foldl (fun s g => fncApply g s) s

/-- A held signal has outlived FNC.TOUT (R345). -/
def fncLate (u : UnitState) (g : FncSig) : Bool :=
  let t := (rd u.base 0x0E040).toNat
  !g.logged && decide (t ≠ 0) && decide (g.at_ + t < u.base.tick)

/-- FNC_TIMEOUT of every signal that is overdue (R345). -/
def fncTimeoutOp (s : State) : State :=
  let late := (fncHeld s.unit).filter (fncLate s.unit)
  let mark := fun (g : FncSig) => if fncLate s.unit g then { g with logged := true } else g
  let s := onUnit (onFnc fun f => { f with held := f.held.map mark, covered := f.covered.map mark }) s
  late.foldl (fun s g => logU uFncTimeout noPort g.pair 0 0 (onUnit (uB fun b => pgEvt 0x0E 1 (inc 0x0E068 b)) s)) s

/-- Discard the held signals of a pair; the number discarded (R345). -/
def fncDrop (p : Nat) (u : UnitState) : UnitState :=
  let n := ((fncHeld u).filter fun g => g.pair == p).length
  let keep := fun (g : FncSig) => g.pair != p
  fncCount n (onFnc (fun f => { f with held := f.held.filter keep, covered := f.covered.filter keep }) u)

/-- FNC.SEL. -/
def fncSel (u : UnitState) : Nat := rdF u.base 0x0E048 0 12

/-- FNC.CMD.LOAD_VIEW (R356). -/
def fncView (u : UnitState) : UnitState :=
  let p := fncSel u
  let l := (fncHeld u).filter fun g => g.pair == p
  let oldest := match l with
    | g :: t => (t.foldl (fun (m : FncSig) g => if g.at_ < m.at_ then g else m) g).wcount
    | [] => 0
  let key := match fncGet u p with
    | some x => BitVec.ofNat 32 (packBits [(16, x.src.toNat), (16, x.tag.toNat)])
    | none => 0
  let sts := packBits [(1, if (fncGet u p).isSome then 1 else 0), (1, if fncBad u p then 1 else 0), (18, 0), (12, l.length)]
  uB (fun b => wr 0x0E05C oldest (wr 0x0E058 (BitVec.ofNat 32 sts) (wr 0x0E054 (fncDrained u p) (wr 0x0E050 key b)))) u

/-! ## The deadlock detector (R346 to R350) -/

/-- A core is active (R346). -/
def dlkActive (u : UnitState) (core : Nat) : Bool :=
  decide (core < (cfgOf u.base).cores) && rdB u.base (0x12100 + 4 * (core / 32)) (core % 32)

/-- A wait that the unit holds for a core: tick of acceptance, CLASS, OBJ, TAG and COND of R349. -/
structure DlkWait where
  at_ : Nat
  cls : Nat
  obj : Nat
  tag : Nat
  cond : Nat
  deriving DecidableEq, Repr

/-- Entries of a barrier that a core still waits for, with the round that each counts toward. -/
def dlkBar (b : Nat) (x : Barrier) (core : Nat) : List DlkWait :=
  let m := memGet x core
  let one := fun (e : Option BarEnt) (k : Nat) => match e with
    | some e => [{ at_ := e.at_, cls := 2, obj := b, tag := e.tag, cond := x.round.toNat + k : DlkWait }]
    | none => []
  one m.cur 1 ++ one m.next 2 ++ one m.held 3

/-- Every wait that the unit holds for a core (R346). -/
def dlkWaits (u : UnitState) (core : Nat) : List DlkWait :=
  ((u.sems.waits.filter fun w => w.core == core).map fun w =>
    { at_ := w.since, cls := 0, obj := w.sem, tag := w.tag, cond := w.n : DlkWait }) ++
  (u.sems.cmps.foldr (fun c l => match c.2 with
    | some x => if x.core = core then { at_ := x.since, cls := 1, obj := c.1, tag := x.tag, cond := x.n : DlkWait } :: l else l
    | none => l) []) ++
  u.bars.foldr (fun b l => dlkBar b.1 b.2 core ++ l) []

/-- The wait accepted first. -/
def dlkFirst : List DlkWait → Option DlkWait
  | [] => none
  | w :: t => match dlkFirst t with
    | some x => if x.at_ < w.at_ then some x else some w
    | none => some w

def dlkCores (u : UnitState) (p : Nat → Bool) : List Nat := (List.range (cfgOf u.base).cores).filter p
/-- An active core is waiting (R346). -/
def dlkWaiting (u : UnitState) (core : Nat) : Bool := dlkActive u core && !(dlkWaits u core).isEmpty

/-- The unit is quiet (R347). -/
def dlkQuiet (u : UnitState) : Bool :=
  let act := dlkCores u (dlkActive u)
  !act.isEmpty && act.all (dlkWaiting u) && (fncHeld u).isEmpty && u.cmb.ops.isEmpty &&
  (u.launch.slots.all fun x => x.2.isNone) && (u.launch.ttb.all fun x => decide (x.2.st = .free)) &&
  u.sems.outQ.isEmpty && u.sems.paused.isEmpty

/-- One tick of the quiet count (R348). -/
def dlkTick (u : UnitState) : UnitState :=
  { u with dlk := { u.dlk with before := u.dlk.quiet, quiet := if dlkQuiet u then satInc 0xFFFFFFFF u.dlk.quiet else 0 } }

/-- The snapshot entry of a core (R349): only an active core is waiting (R346). -/
def dlkEntry (u : UnitState) (core : Nat) : BitVec 64 :=
  if dlkActive u core then
    match dlkFirst (dlkWaits u core) with
    | some w => BitVec.ofNat 64 (packBits [(1, 1), (1, 1), (4, w.cls), (2, 0), (16, w.obj), (8, w.tag), (32, w.cond)])
    | none => BitVec.ofNat 64 (packBits [(1, 1), (63, 0)])
  else 0

/-- The detector fires, on the tick that follows the WINDOW-th quiet one (R348). -/
def deadlockOp (s : State) : State :=
  let u := s.unit
  let win := (rd u.base 0x12040).toNat
  if u.dlk.armed && decide (win ≠ 0) && decide (win ≤ u.dlk.before) then
    let snap := (List.range (cfgOf u.base).cores).foldr (fun c (t : Tab (BitVec 64)) =>
      let e := dlkEntry u c
      if e = 0 then t else (c, e) :: t) []
    let s := onUnit (fun u => uB (fun b => occur 75 (pgEvt 0x12 0 (inc 0x12064 (wr64 0x12050 (nsNow b) b))))
      { u with dlk := { u.dlk with snap := snap, fired := true, armed := false } }) s
    logU uDeadlock noPort 0 0 0 s
  else s

/-! ## The context clear (R303, R351, R383) -/

/-- Step 2: queued waits and comparators complete with ABORTED. -/
def clearWaits (u : UnitState) : UnitState :=
  let sems := u.sems.waits.foldl (fun l w => if l.contains w.sem then l else l ++ [w.sem]) []
  let u1 := sems.foldl (fun v n =>
    (takesOf u n ++ peeksOf u n).foldl (fun v w => releaseWait w stAborted (semGet u n).v.toNat v) v) u
  let u2 := dropWaits (fun _ => false) u1
  (List.range 32).foldl (fun v c => match cmpGet v c with
    | some x => releaseCmp c x stAborted 0 v
    | none => v) u2

/-- Step 2 for barriers, in ascending order (R351). -/
def clearBars (u : UnitState) : UnitState :=
  (List.range (barCap u)).foldl (fun u b =>
    let x := barGet u b
    if x.failed then u
    else if x.st = .disabled then (if x = {} then u else barPut b { x with sense := false, mems := [], again := false, frozen := [] } u)
    else barFresh (endEntries b stAborted u) b) u

/-- Step 4: the objects return to zero, and WCH.PEAK starts again (R312). -/
def clearObjects (u : UnitState) : UnitState :=
  let u := onSems (fun q => { q with vals := q.vals.filter fun x => tabGet false x.1 q.retired, sump := [] }) u
  let u := uB (fun b => wrF 0x0B048 0 14 0 (wr 0x0A074 0 b)) u
  let live := (List.range (flowCap u)).filter fun n => !(flowGet u n).failed
  let u := live.foldl (fun u n => flowClear n u) u
  let u := fncCount (fncHeld u).length u
  let u := onFnc (fun f => { f with pairs := [], held := [], covered := [] }) u
  let u := uB (wrB 0x0E044 25 false) u
  { u with dlk := { u.dlk with snap := [], fired := false, armed := true, quiet := 0, before := 0 } }

/-- CTX.CMD.CLEAR (R303). -/
def ctxClearOp (s : State) : State :=
  if s.unit.sems.clearing.isSome then s
  else
    let s := onUnit (fun u => onSems (fun q => { q with clearing := some u.base.tick }) u) s
    let s := onUnit (fun u => clearBars (clearWaits u)) s
    let s := onUnit (uB fun b => wrF 0x15044 0 16 (rdF b 0x15044 0 16 + 1) b) s
    let s := onUnit (onSems fun q => { q with staleLogged := false }) s
    onUnit clearObjects (clientClear s)

/-- Step 5: the clear ends when its 4,096 ticks have run and every completion has been placed (R303, R383). -/
def ctxClearDoneOp (u : UnitState) : UnitState :=
  match u.sems.clearing with
  | some t =>
    if t + 4096 ≤ u.base.tick ∧ u.sems.paused.isEmpty ∧ u.cmb.ops.isEmpty then
      uB (pgEvt 0x15 0) (onSems (fun q => { q with clearing := none }) u)
    else u
  | none => u

/-! ## Retired objects (R305, R306, R336) -/

/-- Retire a semaphore: its queued waits complete with OBJ_FAILED. -/
def retireSem (n : Nat) (s : State) : State :=
  if semRetired s.unit n then s
  else
    let u := s.unit
    let v := (semGet u n).v.toNat
    let ws := takesOf u n ++ peeksOf u n
    let s := onUnit (fun u =>
      let u := onSems (fun q => { q with retired := tabSet false n true q.retired }) u
      let u := dropWaits (fun w => w.sem != n) u
      ws.foldl (fun u w => releaseWait w stObjFailed v u) u) s
    logU uObjRetired noPort n 0 0 (onUnit (uB (pgEvt 0x0A 1)) s)

/-- Remove a watch entry from the pool (R306). -/
def loseEntry (u : UnitState) : UnitState :=
  watchNote (watchFull u) (onSems (fun q => { q with lostEntries := q.lostEntries + 1 }) u)

/-- An uncorrectable error hits an object (R305, R336). -/
def eccOp (t : EccTarget) (s : State) : State :=
  let w64 := (cfgOf s.unit.base).w64
  match t with
  | .sem n => if w64 then s else retireSem n.toNat s
  | .watch n core tag =>
    if w64 || !(s.unit.sems.waits.any (waitIs n.toNat core.toNat tag.toNat)) then s
    else retireSem n.toNat (onUnit loseEntry s)
  | .watchFree => if w64 || watchFull s.unit then s else onUnit loseEntry s
  | .barrier b =>
    let x := barGet s.unit b.toNat
    if barCap s.unit ≤ b.toNat ∨ x.failed then s
    else
      let s := onUnit (fun u =>
        let u := endEntries b.toNat stObjFailed u
        let y := barGet u b.toNat
        barPut b.toNat { y with failed := true, st := if y.st = .hallWait then .opened else y.st } u) s
      logU uObjRetired noPort b.toNat 0 2 s
  | .flow n =>
    if flowCap s.unit ≤ n.toNat ∨ (flowGet s.unit n.toNat).failed then s
    else logU uObjRetired noPort n.toNat 0 3 (onUnit (fun u => flowPut n.toNat { flowGet u n.toNat with failed := true } u) s)
  | .fence p =>
    if fncPairs s.unit ≤ p.toNat ∨ fncBad s.unit p.toNat then s
    else
      let s := onUnit (fun u => fncDrop p.toNat (onFnc (fun f => { f with bad := tabSet false p.toNat true f.bad }) u)) s
      logU uObjRetired noPort p.toNat 0 5 s

/-! ## The tick -/

/-- A signal as the channel presented it (R337). -/
def fncBits (g : FncSig) : BitVec 128 := g.src ++ g.tag ++ g.wcount ++ g.sem ++ (0 : BitVec 16) ++ g.amount

/-- A covered signal is presented on the apply channel, unchanged, while its ready is high (R343, R627). -/
def applyTick (u : UnitState) : UnitState :=
  match u.fnc.covered with
  | g :: t =>
    if u.fnc.aplReady then
      uB (fun b => inc 0x0E060 (emit (.apply (fncBits g)) b)) (onFnc (fun f => { f with covered := t }) u)
    else u
  | [] => u

/-- FNC.BACKPRESSURE counts the ticks with signal ready low, those of SRAM initialisation too (R356, R532). -/
def fncTick (u : UnitState) : UnitState := if fncReady u then u else uB (inc 0x0E06C) u

/-- What the objects of this chapter do on a tick: rounds that are already full (R322), the apply channel, the back-pressure
counter of the message port (R273) and the quiet count (R348). -/
def contextTick (s : State) : State :=
  let full := (s.unit.bars.filter fun x => x.2.again).map (·.1)
  let s := full.foldl (fun s b => barReach b s) s
  let s := onUnit (fun u => if outCap u ≤ outUsed u then uB (inc 0x0B054) u else u) s
  onUnit (fun u => dlkTick (applyTick u)) s

/-! ## The meanings -/

/-- BAR_ENTER (R316, R319 to R325). -/
def execBarEnter (r : Req) (b : BitVec 8) (s : State) : Host.Outcome State Fault Refusal :=
  .next (request r 0x08 b.toNat (barEnterOp r b.toNat) s)

/-- BAR_DEADLINE (R328, R329). -/
def execBarDeadline (b : BitVec 8) (s : State) : Host.Outcome State Fault Refusal :=
  .next (ifUnitRuns (barDeadlineOp b.toNat) s)

/-- BAR_RESET (R330). -/
def execBarReset (s : State) : Host.Outcome State Fault Refusal :=
  .next (ifUnitRuns (fun s => barResetOp (barSel s.unit) s) s)

/-- BAR_EN_WRITE (R318, R326, R330). -/
def execBarEnWrite (be : BitVec 4) (data : Word) (s : State) : Host.Outcome State Fault Refusal :=
  .next (ifUnitRuns (fun s => barCtlOp (barSel s.unit) be data s) s)

/-- FENCE_SIGNAL (R337, R341 to R344). -/
def execFenceSignal (src tag : BitVec 16) (wcount : BitVec 32) (sem : BitVec 16) (amount : BitVec 32) (s : State) :
    Host.Outcome State Fault Refusal :=
  .next (ifUnitRuns (fenceSignalOp src tag wcount sem amount) s)

/-- DRAIN_REPORT (R339, R342). -/
def execDrainReport (src tag delta : BitVec 16) (s : State) : Host.Outcome State Fault Refusal :=
  .next (ifUnitRuns (drainOp src tag delta) s)

/-- FNC_TIMEOUT (R345). -/
def execFncTimeout (s : State) : Host.Outcome State Fault Refusal := .next (ifUnitRuns fncTimeoutOp s)

/-- FNC_DISCARD (R345). -/
def execFncDiscard (s : State) : Host.Outcome State Fault Refusal :=
  .next (ifUnitRuns (fun s =>
    let p := fncSel s.unit
    logU uFncDiscard noPort p 0 0 (onUnit (fncDrop p) s)) s)

/-- FNC_LOAD_VIEW (R356). -/
def execFncLoadView (s : State) : Host.Outcome State Fault Refusal := .next (ifUnitRuns (onUnit fncView) s)

/-- APPLY_CHANNEL_READY (R627): the channel exists in W64L only. -/
def execApplyChannelReady (ready : Bool) (s : State) : Host.Outcome State Fault Refusal :=
  .next (ifUnitRuns (fun s => if (cfgOf s.unit.base).w64 then onUnit (onFnc fun f => { f with aplReady := ready }) s else s) s)

/-- DEADLOCK (R348, R349). -/
def execDeadlock (s : State) : Host.Outcome State Fault Refusal := .next (ifUnitRuns deadlockOp s)

/-- DLK_REARM (R350). -/
def execDlkRearm (s : State) : Host.Outcome State Fault Refusal :=
  .next (ifUnitRuns (onUnit fun u => { u with dlk := { u.dlk with fired := false, armed := true, quiet := 0, before := 0 } }) s)

/-- CTX_CLEAR (R303, R351, R383). -/
def execCtxClear (s : State) : Host.Outcome State Fault Refusal := .next (ifUnitRuns ctxClearOp s)

/-- CTX_CLEAR_DONE (R303). -/
def execCtxClearDone (s : State) : Host.Outcome State Fault Refusal := .next (ifUnitRuns (onUnit ctxClearDoneOp) s)

/-- ECC_UNCORRECTABLE (R305, R306, R336). -/
def execEccUncorrectable (t : EccTarget) (s : State) : Host.Outcome State Fault Refusal := .next (ifUnitRuns (eccOp t) s)

end Sys2Proof.Machine
end

