-- ==== Sys2Proof/Machine/Health.lean ====
section
/-! DEFINITION. HEALTH frames, health scores and expulsion, watchdog and memory faults, the lead at the roots, thermal
protection and the fault log's commands (R180, R454 to R491, R617, R638). -/

namespace Sys2Proof.Machine

/-! ## A received HEALTH frame (R35, R466, R467, R473, R481, R482, R484) -/

/-- The REMOTE entry of a fault report (R457, R463, R466). -/
def remoteEntry (b : Base) (n uid : Nat) (dist : Bool) (code : BitVec 12) (obj aux : Nat) : LogEntry :=
  { ht := ht48 b, code := code, kind := BitVec.ofNat 2 (kindOf dist code), remote := true, gap := false, rep := 0,
    port := BitVec.ofNat 8 n, obj := BitVec.ofNat 16 obj, unitId := BitVec.ofNat 20 uid, aux := BitVec.ofNat 8 aux,
    dist := dist, tick := b.tick }

/-- Forward a report upward unless one of the same key went less than 1 ms ago; the rest are counted (R467). -/
def forwardLimited (key : Nat) (body : BitVec 64) (s : State) : State :=
  let d := s.dist
  let recent := match tabGet none key d.adm.fwd with
    | some t => decide (d.base.tick < t + 1000000)
    | none => false
  if isRoot d then s
  else if recent then onDist (dB (inc 0x10068)) s
  else healthUp body (onDist (onAdm fun a => { a with fwd := tabSet none key (some d.base.tick) a.fwd }) s)

/-- Codes of the reports that R467 forwards or that a distributor acts on. -/
def codeMissed : BitVec 12 := hapCode uLaunchMissed
def codeSplit : BitVec 12 := hapCode uLaunchSplit
def codeExpelled : BitVec 12 := hapCode dPortExpelled
def codeUnreachable : BitVec 12 := hapCode dRootUnreachable
def codeUnmuted : BitVec 12 := hapCode dDistUnmuted

/-- A unit's LAUNCH_MISSED or LAUNCH_SPLIT (R248, R467). -/
def launchReport (code : BitVec 12) (obj : Nat) (body : BitVec 64) (s : State) : State :=
  if isRoot s.dist then
    if code = codeSplit ∨ s.dist.cmb.sentGo.any (fun x => x.2 == obj) then logD dLaunchSplit noPort obj 0 0 s else s
  else forwardLimited (code.toNat * 65536 + obj) body s

/-- ROOT_UNREACHABLE of another distributor (R467, R484, R615). -/
def unreachableReport (n : Nat) (body : BitVec 64) (s : State) : State :=
  if isRope n then (if tierOne s.dist then forwardLimited (2 ^ 28 + n) body s else s)
  else if isRoot s.dist && (distPort s.dist n).adm.childDist then
    onPort (distRef n) (fun lp => { lp with hlth := { lp.hlth with rootReport := true } }) s
  else s

/-- A fault report (R466, R467, R482). -/
def faultReport (n uid : Nat) (dist : Bool) (code : BitVec 12) (detail : Nat) (body : BitVec 64) (s : State) : State :=
  let obj := detail / 256 % 65536
  let aux := detail % 256
  let s := onDist (dB fun b => addEntry none (remoteEntry b n uid dist code obj aux) b) s
  if !dist && (code == codeMissed || code == codeSplit) then launchReport code obj body s
  else if dist && code == codeExpelled then
    let s := onDist (onAdm fun a => { a with sub := s.dist.base.tick :: a.sub }) s
    if isRoot s.dist then s else healthUp body s
  else if dist && code == codeUnreachable then unreachableReport n body s
  else if dist && code == codeUnmuted && isRope n then sendSyncBase s
  else s

/-- KIND 0x01 and 0x02: forwarded to the root, where they keep the map (R35, R467). -/
def idReport (n uid : Nat) (gone : Bool) (body : BitVec 64) (s : State) : State :=
  if isRoot s.dist then (if gone then idWithdrawn uid n s else (idAdmitted uid n s).2)
  else healthUp body s

/-- Points of a partner's vote (R472, R473). -/
def votePoints (d : DistState) (detail : Nat) : Nat :=
  (detail / 65536 % 256 + 15) / 16 * hltWeight d 0x050 0 + detail / 256 % 256 * hltWeight d 0x050 8 +
  (if detail.testBit 7 then hltWeight d 0x050 16 else 0) + (if detail.testBit 6 then hltWeight d 0x050 24 else 0) +
  (if detail.testBit 5 then hltWeight d 0x054 0 else 0)

/-- A health vote (R472, R473, R618). -/
def voteOp (n detail : Nat) (s : State) : State :=
  addScore n (votePoints s.dist detail) (onPort (distRef n) (fun lp =>
    { lp with hlth := { lp.hlth with voteLast := BitVec.ofNat 32 (2 ^ 31 + detail) } }) s)

/-- A HEALTH frame on an admitted downstream or Rope port. -/
def healthOp (n uid : Nat) (dist : Bool) (kind : Nat) (code : BitVec 12) (detail : Nat) (body : BitVec 64) (s : State) :
    State :=
  if muted s.dist && isDown n then s
  else if kind = 0x01 ∨ kind = 0x02 then (if isDown n then idReport n uid (kind == 2) body s else s)
  else if kind = 0x10 then faultReport n uid dist code detail body s
  else if kind = 0x20 then voteOp n detail s
  else s

/-! ## Votes (R472) -/

/-- DETAIL of a port's vote. -/
def voteDetail (h : PortHealth) : Nat :=
  packBits [(8, h.vCrc), (8, h.vRetry), (1, if h.vSwap then 1 else 0), (1, if h.vSpare then 1 else 0),
            (1, if h.vEcho then 1 else 0), (5, 0)]

/-- The vote period of a port in ticks: 1 ms at a unit, HLT.VOTE.PERIOD at a distributor. -/
def votePeriod (s : State) : PortRef → Nat
  | .unit _ => 1000000
  | .dist _ => rdF s.dist.base 0x0C044 0 8 * 1000000

/-- A port that sends votes (R472). -/
def votes : PortRef → Bool
  | .unit _ => true
  | .dist n => !isDown n.val

/-- Send a port's vote and start the next one. -/
def voteSend (p : PortRef) (s : State) : State :=
  let lp := getPort s p
  let now := nowOf s p
  if admitted lp && votes p && decide (lp.hlth.voteAt + votePeriod s p ≤ now) then
    let body := match p with
      | .unit _ => healthBody (unitId s.unit) false 0x20 0 (voteDetail lp.hlth)
      | .dist _ => healthBody 0 true 0x20 0 (voteDetail lp.hlth)
    let s := onPort p (fun lp => { lp with hlth := { lp.hlth with
      vCrc := 0, vRetry := 0, vSwap := false, vSpare := false, vEcho := false, voteAt := now } }) s
    sendSeq p 0 7 0x10 body [] s
  else s

/-! ## Decay, expulsion and readmission (R474 to R477) -/

def hltWarn (d : DistState) : Nat := rdF d.base 0x0C04C 0 8
def hltExpel (d : DistState) : Nat := rdF d.base 0x0C04C 8 8

/-- One port's decay (R474, R475). -/
def decayPort (warn : Nat) (lp : LinkPort) : LinkPort :=
  let sc := lp.hlth.score - (lp.hlth.score + 15) / 16
  let w := lp.hlth.warn && decide (warn ≤ sc)
  { lp with hlth := { lp.hlth with score := sc, warn := w, lived := admitted lp, would := lp.hlth.would && w,
                                   cause := if w || lp.hlth.expelled then lp.hlth.cause else 0,
                                   wouldLogged := lp.hlth.wouldLogged && w } }

/-- HLT.DECAY has elapsed (R474). -/
def decayOp (d : DistState) : DistState :=
  if d.adm.decayAt + rdF d.base 0x0C048 0 8 * 100000000 ≤ d.base.tick then
    let d := onAdm (fun a => { a with decayAt := d.base.tick }) d
    d.ports.foldl (fun e x => setDistPort x.1 (decayPort (hltWarn d) x.2) e) d
  else d

/-- Expulsions of a list within HLT.BUDGET.WIN. -/
def inBudget (d : DistState) (l : List Nat) : Nat :=
  (l.filter fun t => d.base.tick < t + rdF d.base 0x0C058 16 10 * 1000000000).length

/-- Downstream ports that are enabled. -/
def downEnabled (d : DistState) : Nat :=
  ((List.range 128).filter fun n => rdB d.base (0x100040 + 0x1000 * n) 0).length

/-- The other port of an upstream or Rope pair. -/
def pairPort (n : Nat) : Nat := if n % 2 = 0 then n + 1 else n - 1

/-- The first condition of R476 that fails for a candidate; 0 for none. -/
def expelCause (d : DistState) (n : Nat) : Nat :=
  let left := (downPorts d).length - (if admitted (distPort d n) then 1 else 0)
  let other := distPort d (pairPort n)
  if rdF d.base 0x0C058 0 4 ≤ inBudget d d.adm.own then 1
  else if rdF d.base 0x0C058 8 8 ≤ inBudget d d.adm.own + inBudget d d.adm.sub then 2
  else if isDown n && decide (left < (rdF d.base 0x0C05C 0 7 * downEnabled d + 99) / 100) then 3
  else if !isDown n && !(admitted other && !other.hlth.warn) then 4
  else if !rdB d.base 0x0C040 0 then 5
  else 0

/-- Expel a port (R477). -/
def expelPort (n : Nat) (s : State) : State :=
  let p := distRef n
  let s := leaving p (linkDown p) (onPort p (fun lp => { lp with hlth := { lp.hlth with expelled := true } }) s)
  let s := onDist (fun d => dB (fun b => inc 0x0C064 (pgEvt 0x0C 1 (pgEvt (0x100 + n) 4 b)))
    (onAdm (fun a => { a with own := d.base.tick :: a.own }) d)) s
  let s := logD dPortExpelled n 0 0 0 s
  if isRoot s.dist then s else sendReport (distRef (activeUp s.dist)) codeExpelled.toNat 0 s

/-- Mark a candidate that stays (R476). -/
def wouldExpel (n cause : Nat) (s : State) : State :=
  let p := distRef n
  let h := (getPort s p).hlth
  let s := onPort p (fun lp => { lp with hlth := { lp.hlth with would := true, cause := BitVec.ofNat 3 cause, wouldLogged := true } }) s
  let s := if h.would then s else onDist (dB (pgEvt 0x0C 2)) s
  if h.wouldLogged then s else logD dWouldExpel n 0 0 cause (onDist (dB (inc 0x0C068)) s)

/-- Insert a candidate in descending score, then ascending port. -/
def insCand (x : Nat × Nat) : List (Nat × Nat) → List (Nat × Nat)
  | [] => [x]
  | y :: t => if y.2 < x.2 ∨ (x.2 = y.2 ∧ x.1 < y.1) then x :: y :: t else y :: insCand x t

/-- The candidates of R476, in the order in which they are considered. -/
def candidates (d : DistState) : List Nat :=
  ((d.ports.filter fun x => decide (hltExpel d ≤ x.2.hlth.score) && x.2.hlth.lived && !x.2.hlth.expelled).foldl
    (fun l x => insCand (x.1, x.2.hlth.score) l) []).map (·.1)

/-- The count of CRC-bad frames toward the next point starts anew with each vote period (R473). -/
def crcPeriod (d : DistState) : DistState :=
  d.ports.foldl (fun e x => setDistPort x.1 { x.2 with hlth := { x.2.hlth with crcSeen := 0 } } e) d

/-- A vote period has passed: candidates are expelled or marked (R476). -/
def evaluateOp (s : State) : State :=
  let d := s.dist
  if d.adm.evalAt + rdF d.base 0x0C044 0 8 * 1000000 ≤ d.base.tick then
    let s := onDist (fun d => crcPeriod (onAdm (fun a => { a with evalAt := d.base.tick }) d)) s
    (candidates d).foldl (fun s n =>
      let c := expelCause s.dist n
      if c = 0 then expelPort n s else wouldExpel n c s) s
  else s

/-- PRT.HEALTH.READMIT (R477). -/
def healthReadmitOp (n : Fin 132) (s : State) : State :=
  testDown (.dist n) (onPort (.dist n) (fun lp => { lp with hlth := { lp.hlth with
    expelled := false, would := false, wouldLogged := false, warn := false, score := 0, cause := 0 } }) s)

/-! ## The part stops itself (R469 to R471, R638) -/

/-- The distributor stops: it drives no lane, PPSOUT or FRMOUT (R471). -/
def distStop (s : State) : State :=
  let s := (s.dist.ports.map (·.1)).foldl (fun s n => linkDown (distRef n) s) s
  onDist (fun d => { dB (fun b =>
    { emit (.pin .frmout 0) (emit (.pin .ppsout 0) b) with phase := .stopped }) d with
    root := { d.root with ppsEnd := none, frmEnd := none } }) s

/-- WDOG_FAIL (R469). -/
def wdogOp (engine : Nat) (s : State) : State := distStop (logD dWdogFail noPort 0 0 engine s)

/-- DIST_MEM_FATAL (R470). -/
def memFatalOp (mem : Nat) (s : State) : State := distStop (logD dDistMemFatal noPort 0 0 mem s)

/-! ## Thermal (R617, R638) -/

def thmTemp (k : Nat) : Nat := 0x13040 + 4 * k
/-- A sensor's last valid sample. -/
def thmValid (b : Base) (k : Nat) : Option Int :=
  if rdB b (thmTemp k) 31 then some (sext 12 (rdF b (thmTemp k) 0 12)) else none
def thmAbove (b : Base) (k : Nat) : Bool := match thmValid b k with
  | some t => decide (((rdF b 0x13054 0 12 : Nat) : Int) ≤ t)
  | none => false

/-- THM.STS (R617). -/
def thmSts (b : Base) : Nat :=
  let m := (List.range 4).foldl (fun m k => if thmAbove b k then m + 2 ^ k else m) 0
  m + (if m = 0 then 0 else 16)

/-- THM.STS changes with a sample or with WARN: the log, and the page events (R598, R638). -/
def thmJudge (s : State) : State :=
  let old := rdB s.dist.base 0x1305C 4
  let m := thmSts s.dist.base
  let s := onDist (dB (wr 0x1305C (BitVec.ofNat 32 m))) s
  if m ≠ 0 ∧ ¬ old then logD dThmWarn noPort 0 0 0 (onDist (dB (pgEvt 0x13 0)) s)
  else if m = 0 ∧ old then onDist (dB (pgEvt 0x13 1)) s
  else s

/-- A sensor's sample (R617, R638). -/
def thmSampleOp (k temp : Nat) (s : State) : State :=
  let t := sext 12 temp
  let first := (List.range 4).all fun j => (thmValid s.dist.base j).isNone
  let s := onDist (dB fun b =>
    let b := wr (thmTemp k) (BitVec.ofNat 32 (2 ^ 31 + temp)) b
    if first ∨ sext 12 (rdF b 0x13050 0 12) < t then wrF 0x13050 0 12 temp b else b) s
  let s := thmJudge s
  if 1000 ≤ t ∧ s.dist.base.phase ≠ .stopped then distStop (logD dThmTrip noPort k 0 0 s) else s

/-- A sensor is not VALID 10 ms after reset (R638). -/
def thmFailOp (k : Nat) (s : State) : State :=
  let d := s.dist
  if (thmValid d.base k).isNone && !d.adm.thmFailed.getLsbD k && decide (d.base.phaseAt + 10000000 ≤ d.base.tick) then
    logD dThmSensorFail noPort k 0 0 (onDist (onAdm fun a => { a with thmFailed := a.thmFailed ||| BitVec.ofNat 4 (2 ^ k) }) s)
  else s

/-! ## Muting (R180, R481) -/

/-- HOLD_MUTE has passed in holdover (R180). -/
def muteOp (s : State) : State :=
  let d := s.dist
  let v := servoOf s .dist
  if !isRoot d && stsBit s .dist 3 && !muted d && decide (v.holdAt + rdF d.base 0x9060 0 17 * 1000 ≤ d.base.tick) then
    logD dDistMuted noPort 0 0 0
      (onDist (fun d => dB (fun b => pgEvt 0x09 3 (wrB 0x9064 5 true b)) (freeContexts (onCmb (fun c => { c with fresh := true }) d))) s)
  else s

/-! ## The lead (R484 to R489) -/

/-- Neither Rope port has been admitted for `n` ticks. -/
def ropeDownFor (d : DistState) (n : Nat) : Bool := !ropeUp d && decide (d.rope.downAt + n ≤ d.base.tick)

/-- Standing ROOT_UNREACHABLE reports, and admitted downstream ports whose partners are distributors (R484, R615). -/
def rootReports (d : DistState) : Nat := (d.ports.filter fun x => isDown x.1 && x.2.hlth.rootReport).length
def childPorts (d : DistState) : Nat :=
  (d.ports.filter fun x => isDown x.1 && admitted x.2 && x.2.adm.childDist).length

/-- This root becomes sole root (R484 to R486). -/
def soleOp (s : State) : State :=
  let d := s.dist
  if isRoot d && !d.cmb.sole && ropeDownFor d 1024 && decide (childPorts d < 2 * rootReports d) then
    let s := onDist (fun d => setLead true (onCmb (fun c => { c with sole := true, handFrom := [] }) d)) s
    launchTake (distSettleAll (logD dLeadTaken noPort 0 0 0 s))
  else s

/-- The first condition has held for 50 µs without the second (R484): 12,756 frame cycles of Rope down. -/
def ropeLostOp (s : State) : State :=
  let d := s.dist
  if isRoot d && !d.cmb.sole && !d.rope.lostLogged && ropeDownFor d 51024 && decide (2 * rootReports d ≤ childPorts d) then
    logD dRootRopeLost noPort 0 0 0 (onDist (fun d => { d with rope := { d.rope with lostLogged := true } }) s)
  else s

/-- The first GSEQ of a gallery that this root will not decide: the one after its last result in order (R489). -/
def handBase (d : DistState) (g : Nat) : BitVec 16 :=
  (List.range 8).foldl (fun q _ => match ctxFind d g q with
    | some c => if c.result.isSome then q + 1 else q
    | none => q) (dGalBase d g)

/-- The domain B sole root hands the lead back (R489). -/
def handbackOp (s : State) : State :=
  let d := s.dist
  if isRoot d && distDomB d && d.cmb.sole && isLead d && ropeUp d then
    let s := sendSync handBase s
    let from' := (validGalleries d).foldl (fun t g => tabSet none g (some (handBase d g)) t) d.cmb.handFrom
    let s := onDist (fun d => setLead false (onCmb (fun c => { c with sole := false, handFrom := from' }) d)) s
    logD dLeadReturned noPort 0 0 0 s
  else s

/-! ## The fault log's commands (R459, R460) -/

/-- Word i of a log entry. -/
def entryWord (e : Option LogEntry) (i : Nat) : Word := match e with
  | some e => (entryBits e).extractLsb' (32 * i) 32
  | none => 0

/-- A read of REC_0: the oldest entry leaves, and REC_1 to REC_3 are latched for the path. -/
def recRead (ch : Nat) (b : Base) : Word × Base :=
  let e := b.log.head?
  let a := pageAddr (fltPage b) 0x040
  (entryWord e 0, latch ch (a + 12) (entryWord e 3) (latch ch (a + 8) (entryWord e 2) (latch ch (a + 4) (entryWord e 1)
    { b with log := b.log.drop 1 })))

/-! ## The meanings -/

/-- HEALTH_RX (R35, R466, R467, R473). -/
def execHealthRx (rx : Rx) (unitId : BitVec 20) (dist : Bool) (kind : BitVec 7) (code : BitVec 12) (detail : BitVec 24)
    (s : State) : Host.Outcome State Fault Refusal :=
  .next (ifPort rx.port (fun s =>
    let body := healthBody unitId.toNat dist kind.toNat code.toNat detail.toNat
    onDistRx rx (rxSeq rx (permUp rx.port || permRope rx.port) [(0x10, body)] s) fun n s =>
      healthOp n unitId.toNat dist kind.toNat code detail.toNat body s) s)

/-- HEALTH_VOTE_SEND (R472). -/
def execHealthVoteSend (p : PortRef) (s : State) : Host.Outcome State Fault Refusal := .next (ifPort p (voteSend p) s)

/-- HEALTH_DECAY (R474). -/
def execHealthDecay (s : State) : Host.Outcome State Fault Refusal := .next (ifDistRuns (onDist decayOp) s)

/-- EXPULSION_EVALUATE (R476). -/
def execExpulsionEvaluate (s : State) : Host.Outcome State Fault Refusal := .next (ifDistRuns evaluateOp s)

/-- HEALTH_READMIT (R477). -/
def execHealthReadmit (n : Fin 132) (s : State) : Host.Outcome State Fault Refusal := .next (ifDist (healthReadmitOp n) s)

/-- WDOG_FAIL (R469, R471). -/
def execWdogFail (engine : BitVec 3) (s : State) : Host.Outcome State Fault Refusal :=
  .next (ifDistRuns (wdogOp engine.toNat) s)

/-- DIST_MEM_FATAL (R470, R471). -/
def execDistMemFatal (mem : BitVec 8) (s : State) : Host.Outcome State Fault Refusal :=
  .next (ifDistRuns (memFatalOp mem.toNat) s)

/-- THM_SAMPLE (R617, R638). -/
def execThmSample (k : BitVec 2) (temp : BitVec 12) (s : State) : Host.Outcome State Fault Refusal :=
  .next (ifDist (thmSampleOp k.toNat temp.toNat) s)

/-- THM_SENSOR_FAIL (R638). -/
def execThmSensorFail (k : BitVec 2) (s : State) : Host.Outcome State Fault Refusal := .next (ifDist (thmFailOp k.toNat) s)

/-- THM_CLR_MAX (R617). -/
def execThmClrMax (s : State) : Host.Outcome State Fault Refusal :=
  .next (ifDist (onDist (dB (wr 0x13050 0))) s)

/-- DIST_MUTE (R180, R481). -/
def execDistMute (s : State) : Host.Outcome State Fault Refusal := .next (ifDistRuns muteOp s)

/-- SOLE_ROOT (R484 to R486). -/
def execSoleRoot (s : State) : Host.Outcome State Fault Refusal := .next (ifDistRuns soleOp s)

/-- ROOT_ROPE_LOST (R484). -/
def execRootRopeLost (s : State) : Host.Outcome State Fault Refusal := .next (ifDistRuns ropeLostOp s)

/-- LEAD_HANDBACK (R489). -/
def execLeadHandback (s : State) : Host.Outcome State Fault Refusal := .next (ifDistRuns handbackOp s)

/-- FLT_REC_READ (R459). -/
def execFltRecRead (part : Part) (ch : BitVec 3) (s : State) : Host.Outcome State Fault Refusal :=
  .next (ifPart part (fun s =>
    let r := recRead ch.toNat (partBase s part)
    answer part ch r.1 (onPartBase part (fun _ => r.2) s)) s)

/-- FLT_FLUSH (R459). -/
def execFltFlush (part : Part) (s : State) : Host.Outcome State Fault Refusal :=
  .next (ifPart part (onPartBase part fun b => { b with log := [] }) s)

/-- FLT_CLR_FIRST (R460). -/
def execFltClrFirst (part : Part) (s : State) : Host.Outcome State Fault Refusal :=
  .next (ifPart part (onPartBase part fun b => { b with first := none }) s)

end Sys2Proof.Machine
end

