-- ==== Sys2Proof/Machine/Startup.lean ====
section
/-! DEFINITION. Resets, start-up and RELOAD (R29, R406, R407, R498, R523 to R532, R541, R579), and the commands of the
debug trace (R593, R594). -/

namespace Sys2Proof.Machine

/-! ## What a reset keeps -/

/-- The registers of `l` take the values they have in `old`. -/
def keepRegs (l : List Nat) (old new : Base) : Base := l.foldl (fun b a => wr a (rd old a) b) new

/-- Addresses of the PAGE_LOCK registers that hold something (R553). -/
def lockAddrs (b : Base) : List Nat := (b.regs.map (·.1)).filter fun a => decide (a < 2 ^ 24) && a % 0x1000 == 0x020

/-- IDN.DKEY formed from DET_CTL on release (R406, R407). -/
def formDkey (b : Base) : Base :=
  wr 0x00060 (BitVec.ofNat 32 (0x01100000 + rdF b 0x00064 8 1 * 2 ^ 15 + rdF b 0x00064 0 8)) b

/-- RSTATE in bits 2 to 1 and HOLD_N in bit 0 (R130, R179, R528). -/
def pinWord (d : DistState) : Nat :=
  if strapErr (strapsOf d.base) then 0
  else
    let st :=
      if isRoot d then rdF d.base 0x2048 0 2
      else if rdB d.base 0x9064 3 then 3
      else if rdB d.base 0x9064 0 then 2
      else if d.adm.lockedOnce then 1 else 0
    2 * st + (if st = 3 then 0 else 1)

/-- Drive RSTATE and HOLD_N where they change. -/
def drivePins (d : DistState) : DistState :=
  let w := pinWord d
  if d.adm.pins = w then d
  else dB (fun b => emit (.pin .holdN (w % 2)) (emit (.pin .rstate (w / 2)) b)) (onAdm (fun a => { a with pins := w }) d)

/-! ## The distributor (R523 to R529) -/

/-- The registers that RST_N keeps (R525, R553). -/
def distKept (b : Base) : List Nat := [0x00064, 0x07040] ++ lockAddrs b

/-- A distributor held in reset: PPSOUT, FRMOUT and REF_OK low, every port idle, the seal fuse as it was (R515, R524, R525). -/
def distHeld (phase : Phase) (keep : List Nat) (d : DistState) : DistState :=
  let old := d.base
  let b := keepRegs keep old (Base.atReset old.kind phase old.tick old.free)
  let b := wrB 0x0D048 2 (rdB old 0x0D048 2) { b with outs := old.outs }
  DistState.atReset (emit (.pin .refOk 0) (emit (.pin .frmout 0) (emit (.pin .ppsout 0) b))) d.adm.pins

/-- A supply leaves its tolerance (R524): power-on reset holds until powerOnOp. -/
def supplyFaultOp (s : State) : State := onDist (distHeld .unpowered []) s

/-- The supplies have been in tolerance for 2 ms (R523). -/
def powerOnOp (s : State) : State :=
  if s.dist.base.phase = .unpowered then onDist (distHeld .reset []) s else s

/-- RST_N low (R525); no further effect during power-on reset. -/
def warmResetOp (s : State) : State :=
  if s.dist.base.phase = .unpowered then s else onDist (fun d => distHeld .reset (distKept d.base) d) s

/-- PERST_N, hot reset or link-down reset (R526, R621): the MSI-X structures return to their reset values. -/
def perstOp (s : State) : State :=
  onDist (dB fun b => { b with regs := b.regs.filter fun x => !(decide (0x0FE00 ≤ x.1) && decide (x.1 < 0x0FF08)),
                               evc := { b.evc with msixEn := false, fmask := false, vecPend := 0 } }) s

/-- A base whose straps, and with them its reset values, become those of `k`; every register that holds something keeps
it. -/
def recast (k : Kind) (b : Base) : Base :=
  b.regs.foldl (fun n x => wr x.1 x.2 n) { b with kind := k, regs := [] }

/-- The straps in effect (R527). -/
def sampled (root domB : Bool) (tier : BitVec 2) (smba : BitVec 3) : Straps :=
  { root := root, domB := domB, tier := if root then 0 else tier, smba := smba }

/-- Leaving reset (R407, R116, R372, R527 to R529): the straps are sampled and the PLL locks with control word 0. -/
def distReleaseOp (st : Straps) (s : State) : State :=
  if s.dist.base.phase = .reset then
    let old := s.dist.base
    let b := formDkey { recast (.dist st) old with phase := .init, phaseAt := old.tick, blk := old.tick + (if st.root then 4 else 0) }
    let b := if st.root then pgEvt 0x01 0 (wrB 0x07054 1 (rdB b 0x07040 0) { b with valid := true, ns := 0 }) else b
    let b := if st.root && !st.domB then wrB 0x0A044 28 true b else b
    onDist (fun d => drivePins (DistState.atReset b d.adm.pins)) s
  else s

/-- SRAM holds zero: the enabled ports start training (R529). -/
def distInitOp (s : State) : State :=
  let b := s.dist.base
  if b.phase = .init ∧ b.phaseAt + 262144 ≤ b.tick then
    (List.range 132).foldl (fun s n => testDown (distRef n) s)
      (onDist (dB fun b => { b with phase := .run }) s)
  else s

/-- ETH_PHY_RST_N is low: the distributor is held in reset, or the ROOT strap is 0 (R633). -/
def ethPhyRstLow (d : DistState) : Bool := decide (d.base.phase = .unpowered) || decide (d.base.phase = .reset) || !isRoot d

/-! ## The unit (R530 to R532) -/

/-- The trace's settings and what it reports, which a reset leaves as they are (R593). -/
def traceRegs : List Nat := [0x16040, 0x16044, 0x16048, 0x16054, 0x16058, 0x1605C, 0x16070]

/-- A unit held in reset (R530, R541, R553, R593): pads idle, ready low, the trace emptied. -/
def unitHeld (porst : Bool) (u : UnitState) : UnitState :=
  let old := u.base
  let keep := (if porst then [] else [0x00064]) ++ traceRegs ++ lockAddrs old
  let b := keepRegs keep old (Base.atReset old.kind .reset old.tick old.free)
  let b := { b with outs := old.outs }
  let pads := (List.range (dripChans u)).filter fun k => (dripGet u k).level
  let b := pads.foldl (fun b k => emit (.drip k 0 0) b) b
  let b := emit (.pin .lwake 0) (emit (.pin .evreq 0) b)
  { UnitState.atReset b with dbg := { u.dbg with held := [], inject := none, flips := [] } }

/-- Release: the time domain runs and IDN.DKEY takes DET_CTL (R407, R531). -/
def unitReleaseOp (s : State) : State :=
  if s.unit.base.phase = .reset then
    onUnit (fun u => { uB (fun b => formDkey { b with phase := .init, phaseAt := b.tick, blk := b.tick }) u with
                       tckAt := u.base.tick }) s
  else s

/-- Ticks of SRAM initialisation (R531). -/
def unitInitTicks (u : UnitState) : Nat := if (cfgOf u.base).w64 then 2048 else 16384

/-- SRAM holds zero: ready is raised, the unit enters TRAIN and its ports train (R531, R541). -/
def unitInitOp (s : State) : State :=
  let b := s.unit.base
  if b.phase = .init ∧ b.phaseAt + unitInitTicks s.unit ≤ b.tick then
    let s := onUnit (uB fun b => { b with phase := .run }) s
    unitFsm (testDown (.unit .b) (testDown (.unit .a) (setTck 1 s)))
  else s

/-! ## RELOAD (R29, R174, R226, R254, R260, R383, R498, R512, R579) -/

/-- Judge both domains afresh: the next load brings the unit its generation (R28, R29). -/
def genForget (lp : LinkPort) : LinkPort := { lp with time := { lp.time with genMis := false, genAgree := 0 } }

/-- Both held offsets return to 0, DIFF_VALID clears and a rebase stops (R174). -/
def servoReload (s : State) : State :=
  let s := restartDiff .unit (stopRebase .unit s)
  let s := onUnit (uB fun b => wr 0x2080 0 (wr 0x2084 0 b)) s
  setSts .unit 3 false (setSts .unit 7 false (setLock .unit false (onServo .unit (fun v => { v with pend := none }) s)))

/-- TCK.CTL.RELOAD (R29, R498). -/
def reloadOp (s : State) : State :=
  if tckState s.unit ≠ 7 then logU uReloadDenied noPort 0 0 0 s
  else
    let s := onUnit (uB (wr 0x2090 (cnt32 (holdAgeUs s .unit)))) s
    let s := dripsReload (clientClear (onUnit ttbReload (launchReload s)))
    let s := servoReload (onUnit (fun u => capsReload (tapsReload u)) s)
    let s := onUnit (uB fun b => inc 0x1064 (unitCloseWindow b)) s
    let s := onUnit (fun u => { u with portA := genForget u.portA, portB := genForget u.portB }) s
    unitFsm (chooseActive (onUnit (uB fun b => { b with valid := false }) (setTck 4 s)))

/-! ## The debug commands (R593, R594) -/

/-- CMD.ARM: the trace is emptied and runs. -/
def dbgArmOp (u : UnitState) : UnitState :=
  { u with dbg := { u.dbg with held := [], running := true, trig := false, wrapped := false, trigIdx := 0, post := none } }

/-- CMD.TRIGGER: the entry newest at the command is the one named. -/
def dbgTriggerOp (u : UnitState) : UnitState := traceTrigger (u.dbg.held.length - 1) u

/-- CMD.INJECT arms one error on INJ_CTL's memory and bit; nothing while one is armed. -/
def dbgInjectOp (u : UnitState) : UnitState :=
  if u.dbg.inject.isSome then u
  else { u with dbg := { u.dbg with inject := some (rdF u.base 0x16074 0 3, rdF u.base 0x16074 8 7) } }

/-! ## The meanings -/

/-- TCK_RELOAD (R29, R498). -/
def execTckReload (s : State) : Host.Outcome State Fault Refusal := .next (ifUnit reloadOp s)

/-- POWER_ON_RESET (R523). -/
def execPowerOnReset (s : State) : Host.Outcome State Fault Refusal := .next (powerOnOp s)

/-- SUPPLY_FAULT (R524). -/
def execSupplyFault (s : State) : Host.Outcome State Fault Refusal := .next (supplyFaultOp s)

/-- WARM_RESET (R525). -/
def execWarmReset (s : State) : Host.Outcome State Fault Refusal := .next (warmResetOp s)

/-- PERST (R526, R621). -/
def execPerst (s : State) : Host.Outcome State Fault Refusal := .next (ifDist perstOp s)

/-- DIST_RESET_RELEASE (R527 to R529). -/
def execDistResetRelease (root domB : Bool) (tier : BitVec 2) (smba : BitVec 3) (s : State) :
    Host.Outcome State Fault Refusal := .next (distReleaseOp (sampled root domB tier smba) s)

/-- DIST_SRAM_INIT_DONE (R529). -/
def execDistSramInitDone (s : State) : Host.Outcome State Fault Refusal := .next (distInitOp s)

/-- UNIT_RESET (R530). -/
def execUnitReset (porst : Bool) (s : State) : Host.Outcome State Fault Refusal := .next (onUnit (unitHeld porst) s)

/-- UNIT_RESET_RELEASE (R531). -/
def execUnitResetRelease (s : State) : Host.Outcome State Fault Refusal := .next (unitReleaseOp s)

/-- UNIT_SRAM_INIT_DONE (R531). -/
def execUnitSramInitDone (s : State) : Host.Outcome State Fault Refusal := .next (unitInitOp s)

/-- DBG_ARM (R593). -/
def execDbgArm (s : State) : Host.Outcome State Fault Refusal := .next (ifUnit (onUnit dbgArmOp) s)

/-- DBG_TRIGGER (R593). -/
def execDbgTrigger (s : State) : Host.Outcome State Fault Refusal := .next (ifUnit (onUnit dbgTriggerOp) s)

/-- DBG_STOP (R593). -/
def execDbgStop (s : State) : Host.Outcome State Fault Refusal := .next (ifUnit (onUnit traceStop) s)

/-- DBG_INJECT (R594). -/
def execDbgInject (s : State) : Host.Outcome State Fault Refusal := .next (ifUnit (onUnit dbgInjectOp) s)

end Sys2Proof.Machine
end

