-- ==== Sys2Proof/Machine/RegView.lean ====
section
/-! DEFINITION. What a register reads as, where it is not simply what was last written to it (R546 to R551, R571 to R622
and the register tables of the chapters). No view changes anything. -/

namespace Sys2Proof.Machine

/-- A bit of a field list. -/
def b1 (v : Bool) : Nat × Nat := (1, if v then 1 else 0)
/-- A word from its fields, most significant first. -/
def wordOf (fs : List (Nat × Nat)) : Word := BitVec.ofNat 32 (packBits fs)
/-- A mask of the bits `i` below 32 for which `p (32 * w + i)` holds. -/
def maskOf (w : Nat) (p : Nat → Bool) : Word :=
  BitVec.ofNat 32 ((List.range 32).foldl (fun m i => if p (32 * w + i) then m + 2 ^ i else m) 0)
/-- Place of an offset in an array of `n` registers `stride` bytes apart from `base`. -/
def arrIx (o base stride n : Nat) : Option Nat :=
  if base ≤ o ∧ (o - base) % stride = 0 ∧ (o - base) / stride < n then some ((o - base) / stride) else none
/-- A half of a 64-bit view. -/
def half (hi : Bool) (v : BitVec 64) : Word := if hi then hi32 v else lo32 v

/-! ## The common header (R546 to R551, R573, R574, R596, R597) -/

/-- PAGE_ID (R547). -/
def pageId (b : Base) (p : Nat) : Word :=
  let part := if isUnit b then (if (cfgOf b).w64 then 2 else 1) else 3
  wordOf [(8, 1), (4, part), (4, 1), (6, 0), (10, p)]

/-- PAGE_CAP of a unit page (R574). -/
def unitCap (u : UnitState) (p : Nat) : Word :=
  let c := cfgOf u.base
  let w := c.w64
  let n : Nat := match p with
    | 0x00 => (if w then 2 else 1) + c.procs * 2 ^ 4 + c.regions * 2 ^ 8 + c.channels * 2 ^ 15 + c.tapPorts * 2 ^ 19
    | 0x05 => c.regions
    | 0x06 => capChans u + capPads u * 2 ^ 5 + capCap u * 2 ^ 9
    | 0x07 => dripChans u
    | 0x08 => slotCap u + recCap u * 2 ^ 8
    | 0x09 => ttbCap u
    | 0x0A => if w then 0 else 65536
    | 0x0B => if w then 32 * 2 ^ 16 else 8192
    | 0x0C => barCap u
    | 0x0D => flowCap u
    | 0x0E => fncPairs u + fncHeldCap u * 2 ^ 16
    | 0x0F => bufCap u
    | 0x10 => c.procs
    | 0x11 => 32
    | 0x12 => if w then 64 else 1024
    | 0x13 => 128
    | 0x16 => traceCap u
    | _ => 0
  BitVec.ofNat 32 n

/-- ROLE of a port (R597). -/
def portRole (n : Nat) : Nat := if n < 128 then 0 else if n = 128 then 1 else if n = 129 then 2 else 3

/-- PAGE_CAP of a distributor page (R597). -/
def distCap (d : DistState) (p : Nat) : Word :=
  let root := if isRoot d then 1 else 0
  let n : Nat :=
    if 0x100 ≤ p then (p - 0x100) + portRole (p - 0x100) * 2 ^ 8
    else if p = 0x00 then 132 + 128 * 2 ^ 8 + root * 2 ^ 16
    else if p ≤ 0x08 then root
    else match p with
      | 0x0A => 4096 + 2048 * 2 ^ 16 + 8 * 2 ^ 28
      | 0x0F => 165 + 16 * 2 ^ 8
      | 0x10 => 1024
      | 0x12 => 132
      | 0x13 => 4
      | _ => 0
  BitVec.ofNat 32 n

/-- LINK_STS.STATE (R585). -/
def linkCode : LinkState → Nat
  | .down => 0
  | .train => 1
  | .up => 2
  | .admitted => 3
  | .dead => 4

/-- PAGE_STS[27:0] of a distributor page (R596). -/
def distPageSts (d : DistState) (p : Nat) : Nat :=
  if 0x100 ≤ p then
    let lp := distPort d (p - 0x100)
    packBits [b1 lp.hlth.would, b1 lp.hlth.expelled, b1 lp.hlth.warn, b1 (admitted lp), (3, linkCode lp.phy.st)]
  else if p = 0x02 ∧ isRoot d then selState d else 0

/-- PAGE_STS (R549). -/
def pageSts (b : Base) (p specific : Nat) : Word :=
  wordOf [b1 (pageEvtPend b p), b1 ((rd b (pageAddr p 0x018) &&& rd b (pageAddr p 0x01C)) != 0),
          b1 (rdB b (pageAddr p 0x020) 31), b1 (windowOpen b), (28, specific)]

/-! ## Shared views -/

/-- IDN.DET_CTL with PENDING (R407). -/
def detCtl (b : Base) : Word :=
  let v := rdF b 0x00064 0 9
  let k := rdF b 0x00060 15 1 * 2 ^ 8 + rdF b 0x00060 0 8
  wordOf [b1 (v != k), (22, 0), (9, v)]

/-- FLT.STS (R494). -/
def fltSts (b : Base) : Word :=
  wordOf [(16, rdF b (pageAddr (fltPage b) 0x050) 16 16), (4, 0), b1 (decide (logFree b < 2)), (11, b.log.length)]

/-- LINK_STS (R585). -/
def linkSts (s : State) (p : PortRef) : Word :=
  let lp := getPort s p
  wordOf [(4, min 15 lp.cnt.unexpected), (4, min 15 lp.cnt.unknown), (8, min 255 lp.cnt.crcErr), (8, min 255 lp.cnt.retries), (1, 0),
          b1 (laneOf lp.phy (!lp.phy.txLane)).failed, b1 (spareWarm (nowOf s p) (echoInterval s p) lp), b1 lp.phy.txLane,
          b1 lp.phy.rxLane, (3, linkCode lp.phy.st)]

/-- The Echo results of a port: θ and d of its active or spare pair (R97). -/
def echoView (lp : LinkPort) (spare dly : Bool) : Word :=
  let e := if spare then lp.time.spare else lp.time.act
  wordOfInt (if dly then e.dly else e.ofs)

/-- SRV.HOLD_AGE: the current holdover or ISOLATED period, or the last one (R175, R176). -/
def holdAgeView (s : State) (p : Part) : Word :=
  let open_ := stsBit s p 3 || (match p with
    | .unit => tckState s.unit == 7
    | .dist => false)
  if open_ then cnt32 (holdAgeUs s p) else rd (partBase s p) (srvMap p).hage

/-- FIRST_0 to FIRST_3, or words of a log entry. -/
def firstWord (b : Base) (i : Nat) : Word := entryWord b.first i

/-- The event controller's views of a part (R450, R451); the unit's CPU registers have their own, and the distributor's SRC_CFG
has no LEVEL (R448). -/
def evcView (b : Base) (o : Nat) : Option Word :=
  let w := evcWords b
  if o = 0x044 then
    let first := (pendingAll b).headD 0x1FF
    some (wordOf [(9, first), (8, b.evc.evreq.toNat), b1 b.evc.lantern])
  else if o = 0x04C then some (BitVec.ofNat 32 b.evc.rot.toNat)
  else match arrIx o 0x080 4 w with
  | some i => some (pendWord b i)
  | none =>
  match arrIx o 0x1C0 4 w with
  | some i => some (activeWord b i)
  | none =>
  match arrIx o 0x280 4 16 with
  | some g =>
    let t := grpGet b g
    let held := (List.range (srcCount b)).any fun n => fld (srcCfg b n) 16 5 == g && decide (0 < (srcGet b n).held)
    let left := if t.timing then t.len - (b.tick - t.startedAt) / 1000 else 0
    some (wordOf [(16, left), (14, 0), b1 (t.timing && held), b1 t.timing])
  | none =>
  match arrIx o 0x400 4 (srcCount b) with
  | some n =>
    if srcExists b n then
      let e := srcGet b n
      let v := setFld (setFld (srcCfg b n) 21 1 (if isUnit b && srcLevel b n then 1 else 0)) 22 1 (if srcPending b n then 1 else 0)
      let a := match e.active with
        | some k => 8 + k.toNat
        | none => 0
      some (setFld v 23 4 (if a = 0 then 0 else 1 + (a - 8) * 2))
    else some 0
  | none => none

/-! ## The unit's pages -/

/-- PORT_STS of a unit port (R586); INPUT reads 0 once the port has left LINK_ADMITTED, as the example of R587 shows. -/
def unitPortSts (s : State) (dm : Dom) : Word :=
  let lp := unitPort s.unit dm
  let now := s.unit.base.tick
  let ei := echoInterval s (.unit dm)
  let silent := admitted lp && (match lp.time.heardAt with
    | some t => decide (t + 4 * ei < now)
    | none => decide (lp.phy.stAt + 4 * ei < now))
  let input := admitted lp && (match lp.time.inputAt with
    | some t => decide (now ≤ t + 2 * ei)
    | none => false)
  wordOf [(16, lp.time.peerGen.toNat), (9, 0), b1 silent, b1 lp.adm.idSplit, b1 lp.time.genMis, b1 lp.time.mismatch, b1 input,
          b1 (decide (dm = activeDom s.unit) && admitted lp), b1 (domUsable s.unit dm)]

/-- DOMA and DOMB (R583). -/
def unitDomView (s : State) (dm : Dom) (o : Nat) : Option Word :=
  let lp := unitPort s.unit dm
  match o with
  | 0x044 => some (linkSts s (.unit dm))
  | 0x054 => some (echoView lp false false)
  | 0x058 => some (echoView lp false true)
  | 0x05C => some (echoView lp true false)
  | 0x060 => some (echoView lp true true)
  | 0x068 => some lp.adm.peerDkey
  | 0x06C => some lp.adm.info
  | 0x070 => some (unitPortSts s dm)
  | 0x074 => some (cnt32 lp.cnt.retryTotal)
  | 0x078 => some (cnt32 lp.cnt.crcTotal)
  | 0x07C => some (cnt32 lp.cnt.swaps)
  | _ => none

/-- RGN (R228, R588). -/
def rgnView (u : UnitState) (o : Nat) : Option Word :=
  let isRgn := fun n => decide (n < regions u)
  match o with
  | 0x040 => some (maskOf 0 fun n => isRgn n && tapValid u n)
  | 0x044 => some (maskOf 1 fun n => isRgn n && tapValid u n)
  | 0x048 => some (maskOf 0 fun n => isRgn n && (tapGet u n).stopped)
  | 0x04C => some (maskOf 1 fun n => isRgn n && (tapGet u n).stopped)
  | _ => match arrIx o 0x200 4 (regions u) with
    | some n =>
      let t := tapGet u n
      some (wordOf [b1 (tapValid u n), b1 t.stopped, (3, t.cause.toNat), (7, min 127 t.errs), (10, 0), (10, t.applied)])
    | none => none

/-- CAP.STS (R589). -/
def capSts (u : UnitState) : Word :=
  let n := u.cap.queue.length
  wordOf [(16, rdF u.base 0x06040 16 16), (5, 0), b1 (decide (capCap u ≤ n)), (10, n)]

/-- STATE of a Drip channel (R230). -/
def dripCode : DripSt → Nat
  | .idle => 0
  | .armed => 1
  | .running => 2
  | .done => 3

/-- PLS (R230, R590). -/
def plsView (u : UnitState) (o : Nat) : Option Word :=
  if o = 0x040 then
    let m := fun c => (List.range (dripChans u)).foldl (fun m k => if dripCode (dripGet u k).st = c then m + 2 ^ k else m) 0
    some (wordOf [(8, 0), (8, m 3), (8, m 2), (8, m 1)])
  else match arrIx o 0x120 0x40 (dripChans u) with
    | some k => some (wordOf [(3, rdF u.base (dripAddr k 0x20) 4 3), (2, 0), (2, dripCode (dripGet u k).st)])
    | none => none

/-- STATE of a slot (R262). -/
def slotCode : SlotSt → Nat
  | .requested => 1
  | .armed => 2
  | .go => 3
  | .await => 4

/-- LCH (R262). -/
def lchView (u : UnitState) (o : Nat) : Option Word :=
  if o = 0x054 then
    some (wordOf [(9, u.launch.recs.length), (1, 0), (7, (u.launch.slots.filter fun x => x.2.isSome).length)])
  else if 0x400 ≤ o ∧ (o - 0x400) / 0x10 < slotCap u then
    let k := slotGet u ((o - 0x400) / 0x10)
    some (match k, o % 0x10 with
      | some k, 0x0 => BitVec.ofNat 32 k.target
      | some k, 0x4 => BitVec.ofNat 32 (k.target >>> 32)
      | some k, 0x8 => wordOf [(4, k.epochLo), (12, k.gallery), (16, k.lid)]
      | some k, 0xC => wordOf [b1 k.domb, (3, slotCode k.st)]
      | _, _ => 0)
  else none

/-- STATE of a timetable entry (R263). -/
def ttbCode : TtbSt → Nat
  | .free => 0
  | .pending => 1
  | .staged => 2

/-- TTB (R263). -/
def ttbView (u : UnitState) (o : Nat) : Option Word :=
  match o with
  | 0x060 =>
    let e := ttbGet u (ttbSel u)
    some (wordOf [(3, e.result), (2, 0), (2, ttbCode e.st)])
  | 0x064 =>
    let used := (u.launch.ttb.filter fun x => decide (x.2.st ≠ .free)).length
    let first := ((List.range (ttbCap u)).find? fun i => decide ((ttbGet u i).st = .free)).getD 0
    some (wordOf [(10, first), (4, 0), b1 (decide (ttbCap u ≤ used)), (11, used)])
  | _ => none

/-- SEM (R310). -/
def semView (u : UnitState) (o : Nat) : Option Word :=
  if (cfgOf u.base).w64 then some 0
  else match o with
    | 0x070 => some (BitVec.ofNat 32 u.sems.sump.length)
    | 0x07C => some (BitVec.ofNat 32 (u.sems.retired.filter fun x => x.2).length)
    | _ => none

/-- WCH (R312). -/
def wchView (u : UnitState) (o : Nat) : Option Word :=
  if o = 0x044 then some (wordOf [(14, watchCap u), (1, 0), b1 (watchFull u), (14, watchUsed u)])
  else if 0x100 ≤ o ∧ o < 0x500 then
    if (cfgOf u.base).w64 then
      match cmpGet u ((o - 0x100) / 0x20), o % 0x20 with
      | some x, 0x00 => some (wordOf [(1, 1), (5, 0), (10, x.core), (8, x.tag), (8, 0)])
      | some x, 0x04 => some (BitVec.ofNat 32 (8 * x.addr))
      | some x, 0x08 => some (BitVec.ofNat 32 ((8 * x.addr) >>> 32))
      | some x, 0x0C => some (BitVec.ofNat 32 x.n)
      | some x, 0x10 => some (BitVec.ofNat 32 (x.n >>> 32))
      | _, _ => some 0
    else some 0
  else none

/-- STATE of a barrier (R353). -/
def barCode : BarSt → Nat
  | .disabled => 0
  | .opened => 1
  | .hallWait => 2
  | .stalled => 3

/-- BAR (R353). -/
def barView (u : UnitState) (o : Nat) : Option Word :=
  let b := barSel u
  let x := barGet u b
  match o with
  | 0x050 => some (wordOf [(11, barNext x), (11, barCur x), b1 x.failed, (2, barCode x.st), b1 x.sense])
  | 0x054 => some (BitVec.ofNat 32 x.expect)
  | 0x058 => some x.round
  | _ => match arrIx o 0x200 4 64 with
    | some w => some (BitVec.ofNat 32 ((List.range 16).foldl (fun m i => m + barStateCode x (16 * w + i) * 4 ^ i) 0))
    | none => none

/-- FNC (R356). -/
def fncStsView (u : UnitState) : Word :=
  wordOf [b1 (rdB u.base 0x0E044 25), (13, (u.fnc.pairs.filter fun x => x.2.isSome).length), (12, (fncHeld u).length)]

/-- STATE of a buffer (R398). -/
def bufCode : BufSt → Nat
  | .free => 0
  | .staging => 1
  | .posted => 2
  | .done => 3

/-- CMB (R398). -/
def cmbView (u : UnitState) (o : Nat) : Option Word :=
  let g := galSel u
  let x := bufGet u (rdF u.base 0x0F054 0 8)
  match o with
  | 0x050 => some (wordOf [b1 (galStale u g), (3, (galOps u g).length)])
  | 0x058 => some (wordOf [(12, x.gallery), (8, x.mask.toNat), (6, 0), (2, bufCode x.st)])
  | 0x05C => some (wordOf [b1 x.domb, b1 x.repro, (2, x.status), (6, x.op), (16, x.gseq.toNat)])
  | _ => match arrIx o 0x100 4 16 with
    | some i => some (half (decide (i % 2 = 0)) (x.data.getD (i / 2) 0))
    | none => none

/-- The unit's EVC page (R450): the shared views, EVIN_CTL and the CPU registers. -/
def unitEvcView (b : Base) (o : Nat) : Option Word :=
  match arrIx o 0x2C0 4 16 with
  | some i => some (setFld (rd b (pageAddr 0x10 o)) 16 1 (if (srcGet b (256 + i)).level then 1 else 0))
  | none =>
  match arrIx o 0x30C 0x10 8 with
  | some k =>
    let st := cpuStack b k
    let top := (st.head?.map (·.src)).getD 0x1FF
    let idle := st.isEmpty
    some (wordOf [b1 (b.evc.psleep.getLsbD k), b1 (b.evc.evreq.getLsbD k), b1 idle, (8, if idle then 0 else runPrio b k),
                  (9, top), (4, st.length)])
  | none => evcView b o

/-- LTN.STS (R452). -/
def ltnSts (b : Base) : Word := wordOf [(8, b.evc.psleep.toNat), (6, 0), b1 b.evc.waking, b1 b.evc.lantern]

/-- DLK (R357). -/
def dlkView (u : UnitState) (o : Nat) : Option Word :=
  let e := tabGet 0 (rdF u.base 0x12058 0 10) u.dlk.snap
  match o with
  | 0x048 => some (wordOf [(11, (dlkCores u (dlkActive u)).length), (11, (dlkCores u (dlkWaiting u)).length), b1 (dlkQuiet u),
                           b1 u.dlk.fired, b1 u.dlk.armed])
  | 0x04C => some (cnt32 u.dlk.quiet)
  | 0x05C => some (lo32 e)
  | 0x060 => some (hi32 e)
  | _ => none

/-- DBG (R591, R592). -/
def dbgView (u : UnitState) (o : Nat) : Option Word :=
  let e := u.dbg.held.getD (rdF u.base 0x1605C 0 8) 0
  match o with
  | 0x050 => some (wordOf [(9, u.dbg.trigIdx), (4, 0), b1 u.dbg.wrapped, b1 u.dbg.trig, b1 u.dbg.running, (9, u.dbg.held.length)])
  | 0x060 => some (e.extractLsb' 0 32)
  | 0x064 => some (e.extractLsb' 32 32)
  | 0x068 => some (e.extractLsb' 64 32)
  | 0x06C => some (e.extractLsb' 96 32)
  | _ => none

/-- What a unit register shows that is not stored; pages 0x40 to 0x7F are the semaphore window (R309). -/
def unitView (s : State) (p o : Nat) : Option Word :=
  let u := s.unit
  let b := u.base
  if 0x40 ≤ p then some (if (cfgOf b).w64 then 0 else (semGet u ((p - 0x40) * 1024 + o / 4)).v)
  else match p, o with
  | 0x00, 0x040 => some (BitVec.ofNat 32 (cfgOf b).cores)
  | 0x00, 0x044 => some (cfgOf b).build
  | 0x00, 0x064 => some (detCtl b)
  | 0x01, 0x044 => some (wordOf [(3, tckState u), b1 b.valid])
  | 0x01, 0x048 => some (lo32 (nsNow b))
  | 0x01, 0x04C => some (hi32 (nsNow b))
  | 0x02, 0x090 => some (holdAgeView s .unit)
  | 0x03, o => unitDomView s .a o
  | 0x04, o => unitDomView s .b o
  | 0x05, o => rgnView u o
  | 0x06, 0x040 => some (capSts u)
  | 0x07, o => plsView u o
  | 0x08, o => lchView u o
  | 0x09, o => ttbView u o
  | 0x0A, o => semView u o
  | 0x0B, o => wchView u o
  | 0x0C, o => barView u o
  | 0x0E, 0x044 => some (fncStsView u)
  | 0x0F, o => cmbView u o
  | 0x10, o => unitEvcView b o
  | 0x11, 0x048 => some (ltnSts b)
  | 0x12, o => dlkView u o
  | 0x13, 0x050 => some (fltSts b)
  | 0x13, o => (arrIx o 0x070 4 4).map (firstWord b)
  | 0x14, 0x068 => some (wordOf [(16, rdF b 0x14068 16 16), (13, 0), b1 b.locked, b1 (rdB b 0x14068 1), b1 (windowOpen b)])
  | 0x15, 0x048 => some (wordOf [b1 u.sems.clearing.isSome])
  | 0x16, o => dbgView u o
  | _, _ => none

/-- Registers that a select register multiplies: where the selected object's copy is held (R353, R354, R398). -/
def unitAddr (u : UnitState) (p o : Nat) : Nat :=
  let a := pageAddr p o
  if p = 0x0C ∧ (o = 0x044 ∨ o = 0x048 ∨ o = 0x05C ∨ (0x100 ≤ o ∧ o < 0x180)) then objAddr (barSel u) a
  else if p = 0x0D ∧ (o = 0x044 ∨ o = 0x048 ∨ o = 0x04C ∨ o = 0x064 ∨ o = 0x06C) then objAddr (flowSel u) a
  else if p = 0x0F ∧ (o = 0x048 ∨ o = 0x04C) then objAddr (galSel u) a
  else a

/-! ## The distributor's pages -/

/-- IDN.STRAP (R527). -/
def strapWord (st : Straps) : Word :=
  wordOf [b1 (strapErr st), (3, st.smba.toNat), (2, if st.root then 0 else st.tier.toNat), b1 st.domB, b1 st.root]

/-- STS of a source: REFn.STS, or PTP.STS[31:0] (R607, R608). -/
def refSts (d : DistState) (n : Nat) : Word :=
  let m := refMode d n
  if m = 0 then 0
  else
    let x := tabGet {} n d.root.srcs
    let pass := monitorsPass d n
    let wtr := x.everDisq && !x.wtrDone && pass
    let left := if !x.qual && pass then qualTime d n - x.served else if wtr then qualWtr d n - x.served else 0
    let clkMode := decide (m = 1)
    wordOf [(12, left), (1, 0), (3, x.cause), (5, 0), b1 wtr, b1 x.soft, b1 x.drift, b1 x.phase,
            b1 (decide (n < 4) && (!clkMode || x.freq)), b1 x.pps, b1 (decide (n < 4) && (!clkMode || x.clk)),
            b1 (switching d && target d == n), b1 (selected d == n), b1 (eligible d n), b1 x.qual]

/-- HLD.USABLE (R610). -/
def hldUsable (d : DistState) : Word :=
  wordOf [(15, (fsWindow d).length), (1, 0), (15, (fsUsable d.root).length)]

/-- CMB.STS (R399). -/
def distCmbSts (d : DistState) : Word :=
  wordOf [b1 (resilvering d), b1 (isLead d), (12, accUsed d), (16, d.cmb.ctxs.length)]

/-- SYNC records wait for a Rope port's transmitter (R615). -/
def syncSending (d : DistState) : Bool :=
  let waits := fun (lp : LinkPort) => lp.arq.txq.any fun i => i.typ == 0x13 && i.body.toNat >>> 56 == 0x84
  waits (distPort d 130) || waits (distPort d 131)

/-- MIR.STS (R615). -/
def mirSts (d : DistState) : Word :=
  let b := d.base
  let sending := syncSending d
  wordOf [(16, if isRoot d then rootReports d else 0), (1, 0), b1 (rdB b 0x0B040 14), (2, rdF b 0x0B040 12 2), (3, 0), b1 sending,
          b1 (rdB b 0x0B040 7), b1 (sending && isRoot d && !d.cmb.sole && !d.cmb.handFrom.isEmpty), b1 (resilvering d), b1 d.cmb.sole,
          b1 (isLead d), b1 (d.rope.carrier && ropeUp d), b1 (rope131 d), b1 (rope130 d)]

/-- HLT.STS (R479). -/
def hltSts (d : DistState) : Word :=
  wordOf [(8, (d.ports.filter fun x => x.2.hlth.would).length), (8, min 255 (inBudget d (d.adm.own ++ d.adm.sub))),
          (4, 0), (4, min 15 (inBudget d d.adm.own))]

/-- PRS.STS (R521). -/
def prsSts (b : Base) : Word :=
  let v := rd b 0x0D048
  wordOf [(16, fld v 16 16), (11, 0), b1 (bitOf v 4), b1 (bitOf v 3), b1 (bitOf v 2), b1 b.locked, b1 (windowOpen b)]

/-- PRT.ADMIT_STS (R537, R620). -/
def admitSts (n : Nat) (lp : LinkPort) : Word :=
  let h := lp.adm.hello
  wordOf [b1 (admitted lp), (3, if isDown n then lp.adm.cause.toNat else 0), (4, (h.map fun x => x.kind.toNat).getD 0),
          (16, (h.map fun x => x.gen.toNat).getD 0), (8, min 255 lp.adm.admits)]

/-- PRT.HEALTH (R478). -/
def healthWord (h : PortHealth) : Word :=
  wordOf [(3, h.cause.toNat), b1 h.expelled, b1 h.would, b1 h.warn, (8, min 255 h.score)]

/-- A port page (R618 to R620). -/
def prtView (s : State) (n o : Nat) : Option Word :=
  let lp := distPort s.dist n
  match o with
  | 0x044 => some (linkSts s (distRef n))
  | 0x048 => if isDown n then none else some 0
  | 0x050 => some (echoView lp false false)
  | 0x054 => some (echoView lp false true)
  | 0x058 => some (echoView lp true false)
  | 0x05C => some (echoView lp true true)
  | 0x060 => some lp.adm.peerDkey
  | 0x064 => some lp.adm.info
  | 0x068 => some (admitSts n lp)
  | 0x06C => some (healthWord lp.hlth)
  | 0x070 => some (cnt32 lp.cnt.retryTotal)
  | 0x074 => some (cnt32 lp.cnt.crcTotal)
  | 0x078 => some (cnt32 lp.cnt.swaps)
  | 0x07C => some (cnt32 lp.cnt.echoLosts)
  | 0x080 => some (if isUp n then 0 else lp.hlth.voteLast)
  | 0x084 => some (if isRope n then 0 else cnt32 lp.cnt.censusDead)
  | 0x088 => some (if isRope n then 0 else cnt32 lp.cnt.cmbLost)
  | _ => none

/-- A gallery's STS (R400). -/
def galStsView (d : DistState) (g : Nat) : Word :=
  let l := galCtxs d g
  wordOf [(16, rdF d.base (galEnt g 0x2C) 16 16), (11, 0), b1 (l.any fun c => c.mixed), (4, l.length)]

/-- SRV of a root (R613). -/
def rootSrvView (d : DistState) (o : Nat) : Option Word :=
  match o with
  | 0x064 => some (setFld (resetOf d.base.kind 0x9064) 6 1 1)
  | 0x06C => some (rd d.base 0x7058)
  | _ => if 0x070 ≤ o ∧ o ≤ 0x08C then some (resetOf d.base.kind (pageAddr 0x09 o)) else none

/-- Pages of the root logic: without the ROOT strap they read their reset values (R110). -/
def rootOnly (p : Nat) : Bool := decide (0x02 ≤ p) && decide (p ≤ 0x08)

/-- What a distributor register shows that is not stored. -/
def distView (s : State) (p o : Nat) : Option Word :=
  let d := s.dist
  let b := d.base
  if 0x200 ≤ p then (if o % 0x100 = 0x2C then some (galStsView d (16 * (p - 0x200) + o / 0x100)) else none)
  else if 0x100 ≤ p then prtView s (p - 0x100) o
  else if rootOnly p && !isRoot d then some (resetOf b.kind (pageAddr p o))
  else match p, o with
    | 0x00, 0x040 => some (strapWord (strapsOf b))
    | 0x00, 0x064 => some (detCtl b)
    | 0x01, 0x040 => some (lo32 (nsNow b))
    | 0x01, 0x044 => some (hi32 (nsNow b))
    | 0x01, 0x048 => some (wordOf [b1 b.valid])
    | 0x03, 0x050 => some (refSts d 0)
    | 0x04, 0x050 => some (refSts d 1)
    | 0x05, 0x050 => some (refSts d 2)
    | 0x06, 0x050 => some (refSts d 3)
    | 0x07, 0x060 => some (hldUsable d)
    | 0x08, 0x064 => some (refSts d 4)
    | 0x08, 0x068 => some (wordOf [(16, rdF b 0x8068 16 16), (13, 0), (3, ptpState d)])
    | 0x09, 0x084 => if isRoot d then rootSrvView d o else some (holdAgeView s .dist)
    | 0x09, o => if isRoot d then rootSrvView d o else none
    | 0x0A, 0x044 => some (distCmbSts d)
    | 0x0B, 0x040 => some (mirSts d)
    | 0x0B, o => (arrIx o 0x048 4 4).map fun w => maskOf w fun i => tabGet false i d.cmb.served
    | 0x0C, 0x060 => some (hltSts d)
    | 0x0D, 0x048 => some (prsSts b)
    | 0x0F, o => evcView b o
    | 0x10, 0x050 => some (fltSts b)
    | 0x10, o => (arrIx o 0x070 4 4).map (firstWord b)
    | _, _ => none

/-! ## The value of a register -/

/-- A header register of a page (R546, R548). -/
def headView (s : State) (part : Part) (p o : Nat) : Option Word :=
  let b := partBase s part
  match o with
  | 0x000 => some (pageId b p)
  | 0x004 => some (match part with
    | .unit => unitCap s.unit p
    | .dist => distCap s.dist p)
  | 0x008 => some 0
  | 0x00C => some (match part with
    | .unit => pageSts b p 0
    | .dist => if rootOnly p && !isRoot s.dist then 0 else pageSts b p (distPageSts s.dist p))
  | _ => none

/-- The value that a register of an assigned page holds, or shows. -/
def regValue (s : State) (part : Part) (p o : Nat) : Word :=
  let b := partBase s part
  let head := if pageWindow b.kind p then none else headView s part p o
  match head with
  | some v => v
  | none =>
    let stored := match part with
      | .unit => unitAddr s.unit p o
      | .dist => pageAddr p o
    let view := if o < 0x040 && !pageWindow b.kind p then none else match part with
      | .unit => unitView s p o
      | .dist => distView s p o
    view.getD (rd b stored)

end Sys2Proof.Machine
end

