-- ==== Sys2Proof/Machine/RegWrite.lean ====
section
/-! DEFINITION. What an accepted register write does: groups that are staged (R559, R560, R609), field types and ranges
(R12, R554 to R557, R599), what follows a change (R582, R584 to R587, R601 to R617) and the commands (R558). -/

namespace Sys2Proof.Machine

/-! ## Pairs and records (R559, R560) -/

/-- The _LO, _HI pairs and the records of a unit page: first offset, words, stride, count. -/
def unitGroups : Nat → List (Nat × Nat × Nat × Nat)
  | 0x01 => [(0x048, 2, 8, 1), (0x054, 2, 8, 1), (0x05C, 2, 8, 1), (0x068, 2, 8, 1)]
  | 0x02 => [(0x088, 2, 8, 1)]
  | 0x03 => [(0x048, 2, 8, 1)]
  | 0x04 => [(0x048, 2, 8, 1)]
  | 0x05 => [(0x040, 2, 8, 2), (0x400, 2, 8, 64), (0x600, 2, 8, 64)]
  | 0x06 => [(0x048, 2, 8, 1), (0x108, 2, 0x20, 16), (0x110, 2, 0x20, 16)]
  | 0x07 => [(0x108, 2, 0x40, 8)]
  | 0x08 => [(0x04C, 2, 8, 1), (0x058, 2, 8, 1), (0x080, 2, 8, 2), (0x400, 2, 0x10, 64)]
  | 0x09 => [(0x044, 2, 8, 1)]
  | 0x0A => [(0x068, 2, 8, 1), (0x080, 4, 0x10, 1)]
  | 0x0B => [(0x104, 2, 0x20, 32), (0x10C, 2, 0x20, 32)]
  | 0x0D => [(0x054, 2, 8, 2)]
  | 0x11 => [(0x058, 2, 8, 1)]
  | 0x12 => [(0x050, 2, 8, 1), (0x05C, 2, 8, 1)]
  | 0x13 => [(0x040, 4, 0x10, 1), (0x070, 4, 0x10, 1)]
  | 0x14 => [(0x06C, 2, 8, 1)]
  | 0x16 => [(0x054, 2, 8, 1), (0x060, 4, 0x10, 1)]
  | _ => []

/-- Those of a distributor page. -/
def distGroups : Nat → List (Nat × Nat × Nat × Nat)
  | 0x00 => [(0x044, 2, 8, 1)]
  | 0x01 => [(0x040, 2, 8, 1), (0x054, 2, 8, 2)]
  | 0x02 => [(0x04C, 2, 8, 1), (0x058, 2, 8, 1), (0x068, 2, 8, 1)]
  | 0x03 => [(0x054, 2, 8, 1)]
  | 0x04 => [(0x054, 2, 8, 1)]
  | 0x05 => [(0x054, 2, 8, 1)]
  | 0x06 => [(0x054, 2, 8, 1)]
  | 0x07 => [(0x048, 2, 8, 1), (0x064, 2, 8, 1)]
  | 0x08 => [(0x044, 4, 0x10, 1), (0x054, 2, 8, 1), (0x064, 2, 8, 3)]
  | 0x09 => [(0x07C, 2, 8, 1)]
  | 0x0B => [(0x064, 2, 8, 1)]
  | 0x0D => [(0x04C, 2, 8, 1), (0x05C, 2, 8, 1)]
  | 0x10 => [(0x040, 4, 0x10, 1), (0x070, 4, 0x10, 1)]
  | _ => []

/-- The group that offset `o` belongs to: its first offset, its words, and the place of `o` in it. -/
def groupIn (o : Nat) : List (Nat × Nat × Nat × Nat) → Option (Nat × Nat × Nat)
  | [] => none
  | (b, w, st, n) :: t =>
    let k := (o - b) / st
    let r := (o - b) % st
    if b ≤ o ∧ k < n ∧ r < 4 * w ∧ r % 4 = 0 then some (b + k * st, w, r / 4) else groupIn o t

def groupAt (part : Part) (p o : Nat) : Option (Nat × Nat × Nat) := groupIn o (match part with
  | .unit => unitGroups p
  | .dist => distGroups p)

/-- Key of a channel's latch or staging half. -/
def chKey (ch p o : Nat) : Nat := ch * 2 ^ 24 + pageAddr p o

/-! ## Writable fields of the configuration -/

/-- Whether a unit register exists in the configuration, for the objects that the page's select register names. -/
def unitHas (u : UnitState) (p o : Nat) : Bool :=
  let w64 := (cfgOf u.base).w64
  match p with
  | 0x05 => o < 0x100 || decide ((o - 0x100) / 4 < regions u)
  | 0x06 => o < 0x100 || decide ((o - 0x100) / 0x20 < capChans u)
  | 0x07 => o < 0x100 || decide ((o - 0x100) / 0x40 < dripChans u)
  | 0x0A => !w64
  | 0x0C => o == 0x040 || (decide (barSel u < barCap u) && (o < 0x100 || !w64 || decide (o < 0x108)))
  | 0x0D => o == 0x040 || decide (flowSel u < flowCap u)
  | 0x10 => !(0x300 ≤ o && o < 0x380 && o % 0x10 == 0) || decide ((o - 0x300) / 0x10 < (cfgOf u.base).procs)
  | _ => true

/-- The writable fields of a register (R12): none where nothing can be written. -/
def fldsAt (s : State) (part : Part) (p o : Nat) : List Fld :=
  let l := match descAt o (pageRegs (partBase s part).kind p) with
    | some (d, _) => d.flds
    | none => []
  match part with
  | .unit =>
    if p = 0x0A ∧ (cfgOf s.unit.base).w64 = true then []
    else if o < 0x040 then l
    else if !unitHas s.unit p o then []
    else if p = 0x14 ∧ o = 0x054 then [prw 0 (dripChans s.unit)]
    else if p = 0x08 ∧ o = 0x04C then [rw 0 (min 32 (regions s.unit))]
    else if p = 0x08 ∧ o = 0x050 then [rw 0 (regions s.unit - 32)]
    else l
  | .dist => if 0x100 ≤ p ∧ p < 0x200 ∧ o = 0x048 ∧ !isDown (p - 0x100) then [] else l

/-- Where a register's value is held. -/
def heldAt (s : State) (part : Part) (p o : Nat) : Nat := match part with
  | .unit => unitAddr s.unit p o
  | .dist => pageAddr p o

/-! ## Protected fields (R13, R518, R555, R599) -/

/-- OBJ and AUX that name a register in the log. -/
def regObj (p o : Nat) : Nat := p + o / 0x400 * 2 ^ 14
def regAux (o : Nat) : Nat := o / 4 % 256

/-- Log a happening of the part that has one name in both. -/
def logPart (part : Part) (hu hd : Hap) (obj aux : Nat) (s : State) : State := match part with
  | .unit => logU hu noPort obj 0 aux s
  | .dist => logD hd noPort obj 0 aux s

/-- An accepted PRW write: the log, the unit's page event (R575) and PRS.LAST_PRW. -/
def acceptPrw (part : Part) (p o : Nat) (s : State) : State :=
  let s := match part with
    | .unit => onUnit (uB (pgEvt 0x14 2)) s
    | .dist => onDist (dB (wr 0x0D058 (wordOf [(1, 1), (9, 0), (12, o), (10, p)]))) s
  logPart part uPrwWrite dPrwWrite (regObj p o) (regAux o) s

/-- A PRW field that a write inside a window gives a value. -/
def takesPrw (flds : List Fld) (old merged : Word) : Bool :=
  flds.any fun f => decide (f.acc = .prw) && fld merged f.lo f.w != fld old f.lo f.w &&
    fldOk f (fld merged f.lo f.w)

/-! ## One write of one register or of a group -/

/-- A register of a write: offset, byte enables, data. -/
structure RegW where
  o : Nat
  be : BitVec 4
  data : Word
  deriving DecidableEq, Repr

def regOld (s : State) (part : Part) (p : Nat) (w : RegW) : Word := rd (partBase s part) (heldAt s part p w.o)
def regMerged (s : State) (part : Part) (p : Nat) (w : RegW) : Word := mergeBytes w.be (regOld s part p w) w.data

/-- A reserved encoding that takes a value of its own: REFn.CTL.MODE (R114), EVIN_CTL.MODE (R422), ROUTE 0 of source 0
(R449). -/
def settleWord (part : Part) (p o : Nat) (v : Word) : Word := match part with
  | .unit =>
    if p = 0x10 ∧ 0x2C0 ≤ o ∧ o < 0x300 ∧ 6 ≤ fld v 8 3 then setFld v 8 3 0
    else if p = 0x10 ∧ o = 0x400 ∧ fld v 8 8 = 0 then setFld v 8 8 1
    else v
  | .dist => if 0x03 ≤ p ∧ p ≤ 0x06 ∧ o = 0x040 ∧ fld v 0 2 = 3 then setFld v 0 2 0 else v

/-- Store one register of a write; `win` says whether a presence window is open. -/
def storeOne (part : Part) (p : Nat) (win : Bool) (flds : List Fld) (w : RegW) (s : State) : State :=
  let v := settleWord part p w.o (writeFlds flds win w.be (regOld s part p w) w.data)
  onPartBase part (wr (heldAt s part p w.o) v) s

/-- Store the registers of a write, judging their PRW fields as one (R555, R599). `flds` gives each its fields. -/
def store (part : Part) (p : Nat) (flds : Nat → List Fld) (ws : List RegW) (s : State) : State :=
  let win := windowOpen (partBase s part)
  let carried := ws.any fun w => carriesPrw (flds w.o) (regOld s part p w) (regMerged s part p w)
  let taken := ws.any fun w => takesPrw (flds w.o) (regOld s part p w) (regMerged s part p w)
  let at_ := (ws.getLast?.map (·.o)).getD 0
  let s := ws.foldl (fun s w => storeOne part p win (flds w.o) w s) s
  if carried && !win then logPart part uPresenceDenied dPresenceDenied (regObj p at_) (regAux at_) s
  else if taken && win then acceptPrw part p at_ s
  else s

/-- A field of a write lies outside its range (R479, R493). -/
def outOfRange (flds : List Fld) (v : Word) : Bool :=
  flds.any fun f => decide (f.acc = .rw) && !fldOk f (fld v f.lo f.w)

/-- Pages HLT and TOUT: a write out of range leaves the register unchanged (R475, R479, R493). -/
def refusesWhole (s : State) (part : Part) (p : Nat) (w : RegW) : Bool := match part with
  | .unit => false
  | .dist =>
    let v := regMerged s .dist p w
    decide (0x040 ≤ w.o) && (p == 0x0C || p == 0x11) &&
      (outOfRange (fldsAt s .dist p w.o) v || (p == 0x0C && w.o == 0x04C && decide (fld v 8 8 ≤ fld v 0 8)))

/-- The check of SEL.DRIFT: the SOFT and HARD that the commit would leave (R142, R604). -/
def driftBad (s : State) (ws : List RegW) : Bool := match ws with
  | [lo, hi] =>
    let f := fldsAt s .dist 0x02
    let soft := fld (writeFlds (f 0x058) true lo.be (regOld s .dist 0x02 lo) lo.data) 16 14
    let hard := fld (writeFlds (f 0x05C) true hi.be (regOld s .dist 0x02 hi) hi.data) 0 14
    decide (hard < soft)
  | _ => false

/-- REFn.FREQ out of its range (R115). -/
def freqBad (s : State) (p : Nat) (w : RegW) : Bool :=
  let v := regMerged s .dist p w
  decide (0x03 ≤ p) && decide (p ≤ 0x06) && w.o == 0x044 && v != regOld s .dist p w &&
    windowOpen s.dist.base && !(decide (1000000 ≤ v.toNat) && decide (v.toNat ≤ 125000000))

/-- Store a write with the checks of whole registers (R115, R142, R422, R475, R479, R493). -/
def storeChecked (part : Part) (p : Nat) (ws : List RegW) (s : State) : State :=
  let flds := fldsAt s part p
  match part with
    | .unit =>
      let evin := ws.any fun w => p == 0x10 && decide (0x2C0 ≤ w.o) && decide (w.o < 0x300) && w.be.getLsbD 1 &&
        decide (6 ≤ fld w.data 8 3)
      let n := 256 + ((ws.map (·.o)).headD 0x2C0 - 0x2C0) / 4
      let s := store .unit p flds ws s
      if evin then logU uEvcCfgErr noPort n 0 0 s else s
    | .dist =>
      if ws.any fun w => refusesWhole s .dist p w then logD dToutCfgErr noPort 0 0 0 s
      else if p = 0x02 ∧ driftBad s ws then
        let only := fun o => if o = 0x058 then [rwR 0 14 100 10000] else []
        logD dRefCfgErr noPort 0 0 0 (store .dist p only ws s)
      else if ws.any fun w => freqBad s p w then logD dRefCfgErr noPort 0 0 (p - 3) (store .dist p flds ws s)
      else store .dist p flds ws s

/-! ## Groups that are staged (R560, R609) -/

/-- A channel's staging half of a register: what it wrote since the last commit, or the value the register holds. -/
def staged (s : State) (part : Part) (ch p o : Nat) : Word :=
  (tabGet none (chKey ch p o) (partBase s part).stage).getD (rd (partBase s part) (heldAt s part p o))

def setStage (part : Part) (ch p o : Nat) (v : Option Word) (s : State) : State :=
  onPartBase part (fun b => { b with stage := tabSet none (chKey ch p o) v b.stage }) s

/-- The group whose registers are written through a staging half: its first register is writable. -/
def stagedGroup (s : State) (part : Part) (p o : Nat) : Option (Nat × Nat × Nat) :=
  match groupAt part p o with
  | some (b, n, i) => if (fldsAt s part p b).isEmpty then none else some (b, n, i)
  | none => none

/-- A write of fields: staged, or stored at once, a group on the write of its last register. -/
def putReg (part : Part) (ch p : Nat) (w : RegW) (s : State) : State :=
  match stagedGroup s part p w.o with
  | some (b, n, i) =>
    if i + 1 < n then setStage part ch p w.o (some (mergeBytes w.be (staged s part ch p w.o) w.data)) s
    else
      let los := (List.range (n - 1)).map fun j => b + 4 * j
      let ws := los.map (fun o => { o := o, be := 0xF, data := staged s part ch p o : RegW }) ++ [w]
      storeChecked part p ws (los.foldl (fun s o => setStage part ch p o none s) s)
  | none => storeChecked part p [w] s

/-! ## Registers whose write is an operation of its own -/

/-- A write of PAGE_LOCK (R552); in W64L the SEM page takes none (R311). -/
def lockWrite (part : Part) (p : Nat) (be : BitVec 4) (data : Word) (s : State) : State :=
  if part = .unit ∧ p = 0x0A ∧ (cfgOf s.unit.base).w64 = true then s else
  onPartBase part (fun b =>
    let a := pageAddr p 0x020
    let old := rd b a
    let new := mergeBytes be old data
    wr a (if !bitOf new 31 then 0 else if bitOf old 31 then setFld 0x80000000 0 16 (fld new 0 16) else old) b) s

/-- PEND_w, PEND_SET_w, MASK_SET_w and MASK_CLR_w of an event controller (R445 to R447). -/
def evcOwn (part : Part) (o : Nat) (be : BitVec 4) (data : Word) (s : State) : Option State :=
  let w := evcWords (partBase s part)
  match arrIx o 0x080 4 w, arrIx o 0x0C0 4 w, arrIx o 0x140 4 w, arrIx o 0x180 4 w with
  | some i, _, _, _ => some (pendWriteOp part i be data s)
  | _, some i, _, _ => some (onPartBase part (pendSetOp i be data) s)
  | _, _, some i, _ => some (onPartBase part (maskWriteOp true i be data) s)
  | _, _, _, some i => some (onPartBase part (maskWriteOp false i be data) s)
  | _, _, _, _ => none

/-- A source of the unit's event controller is active (R426). -/
def anyActive (b : Base) : Bool := b.evc.srcs.any fun x => x.2.active.isSome

/-- Unit registers whose write is an operation of its own. -/
def unitOwn (p o : Nat) (be : BitVec 4) (data : Word) (s : State) : Option State :=
  let b := barSel s.unit
  if p = 0x0C ∧ o = 0x044 then some (barCtlOp b be data s)
  else if p = 0x0C ∧ o = 0x05C then some (barGuarded b 0x0C05C false be [rw 0 16] data s)
  else if p = 0x0C ∧ 0x100 ≤ o ∧ o < 0x180 ∧ unitHas s.unit p o then
    some (barGuarded b (pageAddr p o) true be [rw 0 32] data s)
  else if p = 0x07 ∧ (dripHeld s.unit o).isSome then some (logU uDripBusy noPort ((dripHeld s.unit o).getD 0) 0 0 s)
  else if p = 0x0F ∧ o = 0x04C then some (galStateOp be data s)
  else if p = 0x02 ∧ o = 0x040 then some (if be.getLsbD 0 then modeWriteOp (bitOf data 0) s else s)
  else if p = 0x10 ∧ o = 0x040 ∧ be.getLsbD 0 ∧ anyActive s.unit.base then some (logU uEvcCfgErr noPort 0 0 0 s)
  else if p = 0x10 then evcOwn .unit o be data s
  else none

/-- Gallery STATE (R400). -/
def galEntryState (p o : Nat) (s : State) : Option State :=
  let g := 16 * (p - 0x200) + o / 0x100
  if 0x200 ≤ p ∧ o % 0x100 = 0x28 ∧ dGalValid s.dist g then some (logD dCmbCfgErr noPort g 0 0 s) else none

/-- Distributor registers whose write is an operation of its own. -/
def distOwn (p o : Nat) (be : BitVec 4) (data : Word) (s : State) : Option State :=
  if rootOnly p && !isRoot s.dist then some s
  else if p = 0x0F then evcOwn .dist o be data s
  else galEntryState p o s

/-! ## What follows a change -/

/-- Whether a register differs between two states. -/
def changed (a : Nat) (b c : Base) : Bool := rd b a != rd c a
def changedF (a lo w : Nat) (b c : Base) : Bool := rdF b a lo w != rdF c a lo w

/-- The holdover average restarts (R582). -/
def restartAvg (part : Part) (s : State) : State := onServo part (fun v => { v with words := [] }) s

/-- The GROUP of a pulse source has changed (R439). -/
def groupMove (part : Part) (o : Nat) (old : Base) (s : State) : State :=
  let b := partBase s part
  match arrIx o 0x400 4 (srcCount b) with
  | some n => if changedF (pageAddr (evcPage b) o) 16 5 old b && !srcLevel b n then onPartBase part (groupChanged n) s else s
  | none => s

/-- LINK_CTL.EN has changed (R104, R587, R620). -/
def linkEnMoved (port : PortRef) (old : Base) (s : State) : State :=
  let a := portReg port 0x040
  if changedF a 0 1 old (baseOf s port) then enableOp port (rdB (baseOf s port) a 0) s else s

/-- TAP_CTL_n.EN has changed (R202): the store has been made. -/
def tapEnMoved (n : Nat) (old : Base) (s : State) : State :=
  if changedF (tapCtlAddr n) 0 1 old s.unit.base && !tapEn s.unit n then onUnit (tapFail n 4) s else s

/-- What follows a write of a unit register; `old` is the base before it. -/
def unitAfter (p o : Nat) (be : BitVec 4) (old : Base) (s : State) : State :=
  let b := s.unit.base
  let a := pageAddr p o
  match p with
  | 0x02 =>
    if o = 0x054 ∧ changed a old b then restartDiff .unit s
    else if o = 0x060 ∧ changed a old b then restartAvg .unit s
    else if o = 0x06C ∧ manual s .unit then applyWord .unit (sext 32 (rd b a).toNat) s
    else s
  | 0x03 => if o = 0x040 then linkEnMoved (.unit .a) old s else s
  | 0x04 => if o = 0x040 then linkEnMoved (.unit .b) old s else s
  | 0x05 => match arrIx o 0x100 4 (regions s.unit) with
    | some n => tapEnMoved n old s
    | none => s
  | 0x07 => match arrIx o 0x100 0x40 (dripChans s.unit) with
    | some k => onUnit (dripIdlePad k) s
    | none => s
  | 0x09 =>
    if o = 0x040 then onUnit ttbLoadOp s
    else if 0x044 ≤ o ∧ o < 0x05C then onUnit ttbEntOp s
    else s
  | 0x10 => groupMove .unit o old s
  | 0x11 => if o = 0x040 ∧ be.getLsbD 0 ∧ !rdB b a 0 then onUnit (uB lanternLeave) s else s
  | 0x14 =>
    if o = 0x044 ∧ changed a old b then
      applyWord .unit (if manual s .unit then sext 32 (rd b 0x206C).toNat else curWord s .unit) s
    else if o = 0x050 then
      onUnit (fun u => uB (fun b => wrF 0x14074 0 8 (min (rdF b 0x14074 0 8) (rdF b 0x14050 0 8)) b) (onLaunch (fun l =>
        { l with refillAt := if rdF old 0x14050 0 8 ≤ rdF b 0x14074 0 8 then b.tick else l.refillAt }) u)) s
    else if o = 0x054 ∨ o = 0x058 ∨ o = 0x05C then dripsLimit s
    else s
  | 0x16 =>
    if o = 0x040 ∧ be.getLsbD 0 ∧ !rdB b a 0 then onUnit traceStop s
    else if o = 0x074 then onUnit (uB (wrB 0x16074 15 false)) s
    else s
  | _ => s

/-- The averages of ρ at the upstream and Rope ports restart (R616). -/
def restartRaws (s : State) : State :=
  [128, 129, 130, 131].foldl (fun s n => onPort (distRef n) (fun lp => { lp with time := { lp.time with raws := [] } }) s) s

/-- No port's request tokens exceed the new BURST (R504); where they stood at the old one, the next counts from now. -/
def capReqTok (old : Base) (d : DistState) : DistState :=
  let m := rdF d.base 0x0E048 0 8
  (List.range 128).foldl (fun d p => onCmb (fun c =>
    let x := tabGet {} p c.reqTok
    { c with reqTok := tabSet {} p { x with n := min x.n m, at_ := if rdF old 0x0E048 0 8 ≤ x.n then d.base.tick else x.at_ } c.reqTok }) d) d

/-- LIM.CTL has cleared PPSOUT_EN or FRMOUT_EN: the output is driven low (R504). -/
def outsLimit (old : Base) (s : State) : State :=
  let off := fun i => rdB old 0x0E040 i && !rdB s.dist.base 0x0E040 i
  let s := if off 1 then onRoot (fun r => { r with ppsEnd := none }) (onDist (dB (emit (.pin .ppsout 0))) s) else s
  if off 2 then onRoot (fun r => { r with frmEnd := none }) (onDist (dB (emit (.pin .frmout 0))) s) else s

/-- The steering range has changed: the word in effect is held to it (R154). -/
def steerMoved (s : State) : State :=
  if isRoot s.dist then rootWord (curWord s .dist) s else applyWord .dist (curWord s .dist) s

/-- CFG fields that are PRW: CFG_0 whole and CFG_1 (R609). -/
def ptpCfgMoved (old new : Base) : Bool := changed 0x08044 old new || changed 0x08048 old new

/-- Member ports that are absent are subscribed to (R368). -/
def membersMoved (s : State) : State :=
  if s.dist.base.phase = .run then (absentMembers s.dist).foldl (fun s p => subscribe p s) s else s

/-- What follows a write of a block register below the port pages. -/
def distAfterLow (p o : Nat) (old : Base) (s : State) : State :=
  let b := s.dist.base
  let a := pageAddr p o
  let root := isRoot s.dist
  match p with
  | 0x02 => if (o = 0x040 ∨ o = 0x044) ∧ changed a old b then reselect s else s
  | 0x07 =>
    if o = 0x050 ∧ changedF a 0 20 old b then noteAge (onRoot (fun r => { r with ageFrom := r.secs }) s) else s
  | 0x08 =>
    if o = 0x040 ∧ changed a old b then ptpRestart s
    else if o = 0x050 ∧ ptpCfgMoved old b then ptpRestart s
    else if o = 0x058 ∧ (changed 0x08054 old b || changed 0x08058 old b) then ptpRestart s
    else s
  | 0x09 =>
    if root then s
    else if o = 0x054 ∧ changed a old b then restartDiff .dist s
    else if o = 0x05C ∧ changed a old b then restartAvg .dist s
    else s
  | 0x0E =>
    if o = 0x040 then outsLimit old s
    else if o = 0x044 ∧ changed a old b then steerMoved s
    else if o = 0x048 then onDist (capReqTok old) s
    else s
  | 0x0F =>
    if 0x100 ≤ o ∧ o < 0x118 then onDist (dB msixAgain) s
    else if 0xE00 ≤ o ∧ o < 0xF00 then onDist (dB pbaSettle) s
    else groupMove .dist o old s
  | 0x12 => if o = 0x044 ∧ changed a old b then restartRaws s else s
  | 0x13 => if o = 0x054 then thmJudge s else s
  | _ => if 0x03 ≤ p ∧ p ≤ 0x06 ∧ o = 0x040 ∧ changedF a 0 2 old b then restartSrc (p - 3) s else s

/-- A gallery's entry has been written: CMB_NOT_MEMBER may be logged for it again (R360). -/
def entryWritten (g : Nat) (d : DistState) : DistState :=
  onCmb (fun c => { c with notMember := c.notMember.filter fun x => x.1 / 256 != g }) d

/-- What follows a write of a distributor register; `old` is the base before it. -/
def distAfter (p o : Nat) (old : Base) (s : State) : State :=
  if 0x200 ≤ p then
    let s := onDist (entryWritten (16 * (p - 0x200) + o / 0x100)) s
    if o % 0x100 < 0x10 ∨ o % 0x100 = 0x20 then membersMoved s else s
  else if 0x100 ≤ p then (if o = 0x040 then linkEnMoved (distRef (p - 0x100)) old s else s)
  else distAfterLow p o old s

/-! ## Commands (R558) -/

/-- Do `f` if a bit of a command word is set. -/
def onBit (m i : Nat) (f : State → State) (s : State) : State := if m.testBit i then f s else s

/-- SEM.CMD: the lowest of bits 3 to 0, then LOAD_VIEW (R310). -/
def semCmds (m : Nat) (s : State) : State :=
  let s := if m.testBit 0 then semAddCmd s else if m.testBit 1 then semSubCmd s
    else if m.testBit 2 then semSetCmd s else if m.testBit 3 then semClrCmd s else s
  onBit m 4 semViewCmd s

/-- FNC.CMD.DISCARD (R345). -/
def fncDiscard (s : State) : State :=
  let p := fncSel s.unit
  logU uFncDiscard noPort p 0 0 (onUnit (fncDrop p) s)

/-- FLT.CMD (R459, R460). -/
def fltCmds (part : Part) (m : Nat) (s : State) : State :=
  onBit m 1 (onPartBase part fun b => { b with log := [] }) (onBit m 0 (onPartBase part fun b => { b with first := none }) s)

/-- LCH.ORIG_CMD: CANCEL acts if both are written (R262). -/
def origCmds (m : Nat) (s : State) : State :=
  if m.testBit 1 then (cancelLaunch (rdF s.unit.base 0x08090 16 12) (rdF s.unit.base 0x08090 0 16) s).2
  else if m.testBit 0 then (origStart (origRegs s.unit.base) s).2 else s

/-- DLK.CMD.REARM (R350). -/
def dlkRearm (u : UnitState) : UnitState := { u with dlk := { u.dlk with fired := false, armed := true, quiet := 0, before := 0 } }

/-- The commands of the unit's time and link pages: `m` holds the CMD bits that act. -/
def unitCmdsA (p o m : Nat) (s : State) : State :=
  match p with
  | 0x01 => onBit m 0 reloadOp s
  | 0x02 => onBit m 2 (ifUnitRuns rebaseOp) (onBit m 1 (ifUnitRuns (commandSwitch .unit)) s)
  | 0x03 => onBit m 1 (onPort (.unit .a) cntClear) s
  | 0x04 => onBit m 1 (onPort (.unit .b) cntClear) s
  | 0x05 => match arrIx o 0x100 4 64 with
    | some n => onBit m 1 (onUnit (tapResyncOp n)) s
    | none => s
  | 0x07 => match arrIx o 0x104 0x40 8 with
    | some k => if m.testBit 1 then onUnit (dripStopOp k) s else onBit m 0 (dripRegArm k) s
    | none => s
  | 0x08 => origCmds m s
  | _ =>
    onBit m 2 (onUnit ttbLoadOp) (onBit m 1 (onUnit ttbCancelOp)
      (onBit m 0 (fun s => (insertOp (ttbSel s.unit) (entRegs s.unit.base) s).2) s))

/-- The commands of the unit's other pages; EOI is a number, written with its low byte. -/
def unitCmdsB (p o m : Nat) (be : BitVec 4) (s : State) : State :=
  match p with
  | 0x0A => semCmds m s
  | 0x0C => onBit m 0 (fun s => barResetOp (barSel s.unit) s) s
  | 0x0D => onBit m 1 (onUnit fun u => flowClear (flowSel u) u) (onBit m 0 (onUnit flowView) s)
  | 0x0E => onBit m 1 fncDiscard (onBit m 0 (onUnit fncView) s)
  | 0x10 => match arrIx o 0x308 0x10 8, arrIx o 0x300 0x10 8 with
    | some k, _ => if be.getLsbD 0 then eoi k (m % 512) s else s
    | _, some k => onBit m 1 (onUnit (uB (cpuFlushOp k))) s
    | _, _ => s
  | 0x12 => onBit m 0 (onUnit dlkRearm) s
  | 0x13 => fltCmds .unit m s
  | 0x15 => onBit m 0 ctxClearOp s
  | 0x16 =>
    onBit m 3 (onUnit dbgInjectOp) (onBit m 2 (onUnit traceStop) (onBit m 1 (onUnit dbgTriggerOp) (onBit m 0 (onUnit dbgArmOp) s)))
  | _ => s

/-- The first condition that refuses an ARM, or 0 (R603). -/
def armCode (d : DistState) : Nat :=
  let b := d.base
  if !windowOpen b then 1
  else if !(downPorts d).isEmpty then 2
  else if rdF b 0x01050 16 16 == rdF b 0x0104C 0 16 then 3
  else if !isRoot d then 4
  else if rdB b 0x01050 2 then 5
  else 0

/-- CLK.EPOCH_CTL.ARM (R24, R25, R603). -/
def armEpochOp (s : State) : State :=
  let d := s.dist
  let c := armCode d
  if c ≠ 0 then logD dEpochRefused noPort 0 0 c s
  else
    onRoot (fun r => { r with armAt := if selected d = 7 then some d.base.tick else none }) (onDist (dB (wrB 0x01050 2 true)) s)

/-- The commands of the distributor's pages. -/
def distCmds (p m : Nat) (s : State) : State :=
  if 0x100 ≤ p then
    if h : p - 0x100 < 132 then
      onBit m 16 (healthReadmitOp ⟨p - 0x100, h⟩) (onBit m 1 (onPort (.dist ⟨p - 0x100, h⟩) cntClear) s)
    else s
  else match p with
    | 0x01 => onBit m 0 armEpochOp s
    | 0x02 => onBit m 2 (ifDistRuns realignOp) s
    | 0x09 => onBit m 1 (ifDistRuns fun s => if isRoot s.dist then s else commandSwitch .dist s) s
    | 0x0D => onBit m 0 closeOp s
    | 0x10 => fltCmds .dist m s
    | 0x13 => onBit m 0 (onDist (dB (wr 0x13050 0))) s
    | _ => s

/-! ## The write -/

/-- A write that the register block serves: fields first, then what follows them, then the commands. -/
def writeReg (part : Part) (ch p o : Nat) (be : BitVec 4) (data : Word) (s : State) : State :=
  let window := pageWindow (partBase s part).kind p
  let own := match part with
    | .unit => if window then some s else unitOwn p o be data s
    | .dist => distOwn p o be data s
  match own with
  | some s' => s'
  | none =>
    if o = 0x020 ∧ !window then lockWrite part p be data s
    else
      let old := partBase s part
      let flds := fldsAt s part p o
      let s := if flds.isEmpty then s else putReg part ch p { o := o, be := be, data := data } s
      let m := cmdBits flds be data
      match part with
      | .unit =>
        if o < 0x040 then s
        else
          let s := unitAfter p o be old s
          if flds.any fun f => f.acc = .cmd then (if p ≤ 0x09 then unitCmdsA p o m s else unitCmdsB p o m be s) else s
      | .dist =>
        if o < 0x040 ∧ !window then s
        else
          let s := distAfter p o old s
          if flds.any fun f => f.acc = .cmd then distCmds p m s else s

end Sys2Proof.Machine
end

