-- ==== Sys2Proof/Machine/RegAccess.lean ====
section
/-! DEFINITION. Register accesses of both parts: error responses, reads and their side effects and latches, writes, and
SMBus transactions (R545 to R571, R532, R634). -/

namespace Sys2Proof.Machine

/-! ## Error responses (R532, R564 to R571) -/

/-- Unit pages that SRAM initialisation keeps closed (R532). -/
def needsSram (p : Nat) : Bool := [0x0A, 0x0B, 0x0C, 0x0D, 0x0E, 0x0F, 0x12, 0x15].contains p || decide (0x40 ≤ p)

/-- The semaphore that a window register shows is retired (R306). -/
def windowFailed (s : State) (part : Part) (p o : Nat) : Bool := match part with
  | .unit => decide (0x40 ≤ p) && !(cfgOf s.unit.base).w64 && semRetired s.unit ((p - 0x40) * 1024 + o / 4)
  | .dist => false

/-- The channel exists: a request channel of the unit (R562), or a path of the distributor (R563). -/
def chExists (s : State) (part : Part) (ch : Nat) : Bool := match part with
  | .unit => decide (ch < (cfgOf s.unit.base).channels)
  | .dist => decide (ch < 2)

/-- CODE of R569 with which an access completes, 0 for none. -/
def accessCode (s : State) (part : Part) (ch addr : Nat) (write : Bool) : Nat :=
  let p := addr / 0x1000
  let b := partBase s part
  if addr % 4 ≠ 0 then 5
  else if !pageAssigned b.kind p || (decide (part = .dist) && decide (ch = 1) && pageWindow b.kind p) then 1
  else if decide (part = .unit) && decide (b.phase ≠ .run) && needsSram p then 2
  else if !write && windowFailed s part p (addr % 0x1000) then 4
  else 0

/-- Record an error response in IDN.REG_ERR and REG_ERR_CNT (R570, R571). -/
def noteError (part : Part) (ch addr code : Nat) (write : Bool) (s : State) : State :=
  let w := wordOf [(1, 1), b1 write, (3, code), (3, ch), (4, 0), (10, addr / 0x1000), (10, addr % 0x1000 / 4)]
  onPartBase part (fun b => inc 0x0006C (wr 0x00068 w b)) s

/-- The code that the response itself carries: the unit's port signals it, PCI Express does not (R569). -/
def shownCode (part : Part) (code : Nat) : Nat := match part with
  | .unit => code
  | .dist => 0

/-! ## Reads (R559, R561) -/

/-- A read of PAGE_LOCK takes the lock (R552); the pages of an absent root logic have none (R110). -/
def lockRead (part : Part) (p : Nat) (s : State) : Word × State :=
  let a := pageAddr p 0x020
  let v := rd (partBase s part) a
  let absent := match part with
    | .unit => p == 0x0A && (cfgOf s.unit.base).w64
    | .dist => rootOnly p && !isRoot s.dist
  (v, if absent || bitOf v 31 then s else onPartBase part (wr a 0x80000000) s)

/-- A read of PEND_w (R445). -/
def pendRead (part : Part) (w : Nat) (s : State) : Word × State :=
  (pendWord (partBase s part) w, onPartBase part (pendReadOp w) s)

/-- Reads that act on a unit (R219, R261, R289, R431, R445, R459, R594). -/
def unitActs (ch p o : Nat) (s : State) : Option (Word × State) :=
  let u := s.unit
  if 0x40 ≤ p then
    let n := (p - 0x40) * 1024 + o / 4
    some (regValue s .unit p o, if (cfgOf u.base).w64 then s else onUnit (injTouch 0 n) s)
  else match p, o with
    | 0x06, 0x048 => let r := capReadOp ch u; some (r.1, { s with unit := r.2 })
    | 0x08, 0x058 => let r := recReadOp ch u; some (r.1, { s with unit := r.2 })
    | 0x0A, 0x080 => let r := sumpReadOp ch u; some (r.1, { s with unit := r.2 })
    | 0x13, 0x040 => let r := recRead ch u.base; some (r.1, onUnit (uB fun _ => r.2) s)
    | 0x10, o => match arrIx o 0x304 0x10 8, arrIx o 0x080 4 9 with
      | some k, _ => some (claim k s)
      | _, some w => some (pendRead .unit w s)
      | _, _ => none
    | _, _ => none

/-- Reads that act on a distributor. -/
def distActs (ch p o : Nat) (s : State) : Option (Word × State) :=
  match p, o with
  | 0x10, 0x040 => let r := recRead ch s.dist.base; some (r.1, onDist (dB fun _ => r.2) s)
  | 0x0F, o => (arrIx o 0x080 4 6).map fun w => pendRead .dist w s
  | _, _ => none

/-- Reads that act (R561). -/
def readActs (part : Part) (ch p o : Nat) (s : State) : Option (Word × State) :=
  if o = 0x020 ∧ !pageWindow (partBase s part).kind p then some (lockRead part p s)
  else match part with
    | .unit => unitActs ch p o s
    | .dist => distActs ch p o s

/-- Latch the registers of a group that follow its first, as they stand on this tick (R559). -/
def latchRest (part : Part) (ch p b n : Nat) (s : State) : State :=
  (List.range (n - 1)).foldl (fun t i => onPartBase part (latch ch (pageAddr p (b + 4 * (i + 1))) (regValue s part p (b + 4 * (i + 1)))) t) s

/-- A read that the register block serves. -/
def readReg (part : Part) (ch p o : Nat) (s : State) : Word × State :=
  match readActs part ch p o s with
  | some r => r
  | none => match groupAt part p o with
    | some (b, n, i) =>
      if i = 0 then (regValue s part p o, latchRest part ch p b n s)
      else (tabGet 0 (chKey ch p o) (partBase s part).latch, s)
    | none => (regValue s part p o, s)

/-! ## Accesses -/

/-- A read: the data, the code and the machine after it. -/
def readAccess (part : Part) (ch addr : Nat) (s : State) : Word × Nat × State :=
  let c := accessCode s part ch addr false
  if c ≠ 0 then (0xFFFFFFFF, c, noteError part ch addr c false s)
  else
    let r := readReg part ch (addr / 0x1000) (addr % 0x1000) s
    (r.1, 0, r.2)

/-- A write: the code and the machine after it. -/
def writeAccess (part : Part) (ch addr : Nat) (be : BitVec 4) (data : Word) (s : State) : Nat × State :=
  let c := accessCode s part ch addr true
  if c ≠ 0 then (c, noteError part ch addr c true s)
  else (0, writeReg part ch (addr / 0x1000) (addr % 0x1000) be data s)

/-- An access is taken by a live part on a channel that exists. -/
def ifChannel (part : Part) (ch : Nat) (f : State → State) (s : State) : State :=
  if chExists s part ch then ifPart part f s else s

/-- A read with its response. -/
def readRow (part : Part) (ch : BitVec 3) (addr : Nat) (s : State) : State :=
  let r := readAccess part ch.toNat addr s
  onPartBase part (emit (.regData part ch r.1 (shownCode part r.2.1))) r.2.2

/-- A write with its response. -/
def writeRow (part : Part) (ch : BitVec 3) (addr : Nat) (be : BitVec 4) (data : Word) (s : State) : State :=
  let r := writeAccess part ch.toNat addr be data s
  onPartBase part (emit (.regAck part ch (shownCode part r.1))) r.2

/-- The addressed block has not answered within 2,000 ticks (R569, R570). -/
def timeoutRow (part : Part) (ch : BitVec 3) (write : Bool) (addr : Nat) (s : State) : State :=
  let p := addr / 0x1000
  let o := addr % 0x1000
  let s := noteError part ch.toNat addr 3 write (logPart part uRegTimeout dRegTimeout (regObj p o) (regAux o) s)
  onPartBase part (emit (if write then .regAck part ch (shownCode part 3) else .regData part ch 0xFFFFFFFF (shownCode part 3))) s

/-! ## SMBus (R634) -/

/-- The bytes of a word, most significant first. -/
def wordBytes (w : Word) : List (BitVec 8) := [w.extractLsb' 24 8, w.extractLsb' 16 8, w.extractLsb' 8 8, w.extractLsb' 0 8]

/-- Answer an SMBus transaction. -/
def smbAnswer (ack : Bool) (data : List (BitVec 8)) (s : State) : State := onDist (dB (emit (.smbus ack data))) s

/-- Block Write 0x01: a write of one register. -/
def smbWrite (addr : Nat) (data : Word) (pecOk : Bool) (s : State) : State :=
  if pecOk then smbAnswer true [] (writeAccess .dist 1 addr 0xF data s).2 else smbAnswer false [] s

/-- Block Write 0x02: a register is read into the path's buffer. -/
def smbRequest (addr : Nat) (pecOk : Bool) (s : State) : State :=
  if pecOk then
    let r := readAccess .dist 1 addr s
    smbAnswer true [] (onDist (onAdm fun a => { a with smb := some (r.1, r.2.1) }) r.2.2)
  else smbAnswer false [] s

/-- Block Read 0x03: the buffer, with STATUS 0x0F where no read was requested since the last Block Read; the data stand. -/
def smbRead (s : State) : State :=
  let r := s.dist.adm.smb.getD (0, 0x0F)
  smbAnswer true (BitVec.ofNat 8 r.2 :: wordBytes r.1) (onDist (onAdm fun a => { a with smb := some (r.1, 0x0F) }) s)

/-! ## The meanings -/

/-- REGISTER_WRITE (R554 to R571). -/
def execRegisterWrite (part : Part) (ch : BitVec 3) (addr : BitVec 22) (be : BitVec 4) (data : Word) (s : State) :
    Host.Outcome State Fault Refusal :=
  .next (ifChannel part ch.toNat (writeRow part ch addr.toNat be data) s)

/-- REGISTER_READ (R554 to R571). -/
def execRegisterRead (part : Part) (ch : BitVec 3) (addr : BitVec 22) (s : State) : Host.Outcome State Fault Refusal :=
  .next (ifChannel part ch.toNat (readRow part ch addr.toNat) s)

/-- REG_ACCESS_TIMEOUT (R569, R570). -/
def execRegAccessTimeout (part : Part) (ch : BitVec 3) (write : Bool) (addr : BitVec 22) (s : State) :
    Host.Outcome State Fault Refusal :=
  .next (ifChannel part ch.toNat (timeoutRow part ch write addr.toNat) s)

/-- PAGE_LOCK_READ (R552). -/
def execPageLockRead (part : Part) (ch : BitVec 3) (page : BitVec 10) (s : State) : Host.Outcome State Fault Refusal :=
  .next (ifChannel part ch.toNat (readRow part ch (pageAddr page.toNat 0x020)) s)

/-- EPOCH_ARM (R24, R603): a write of CLK.EPOCH_CTL with GEN and ARM. -/
def execEpochArm (ch : BitVec 3) (gen : BitVec 16) (s : State) : Host.Outcome State Fault Refusal :=
  .next (ifChannel .dist ch.toNat (writeRow .dist ch 0x01050 0xF (gen ++ (1 : BitVec 16))) s)

/-- PTP_CFG_COMMIT (R609): a write of PTP.CFG_3. -/
def execPtpCfgCommit (ch : BitVec 3) (be : BitVec 4) (data : Word) (s : State) : Host.Outcome State Fault Refusal :=
  .next (ifChannel .dist ch.toNat (writeRow .dist ch 0x08050 be data) s)

/-- SMBUS_BLOCK_WRITE (R634). -/
def execSmbusBlockWrite (addr : BitVec 22) (data : Word) (pecOk : Bool) (s : State) : Host.Outcome State Fault Refusal :=
  .next (ifDist (smbWrite addr.toNat data pecOk) s)

/-- SMBUS_READ_REQUEST (R634). -/
def execSmbusReadRequest (addr : BitVec 22) (pecOk : Bool) (s : State) : Host.Outcome State Fault Refusal :=
  .next (ifDist (smbRequest addr.toNat pecOk) s)

/-- SMBUS_BLOCK_READ (R634). -/
def execSmbusBlockRead (s : State) : Host.Outcome State Fault Refusal := .next (ifDist smbRead s)

end Sys2Proof.Machine
end

