-- ==== Sys2Proof/Machine/Tick.lean ====
section
/-! DEFINITION. One TCLK rising edge (R17, R54): what the parts do with no command, in place of idling on an empty queue
(assumption 1). -/

namespace Sys2Proof.Machine

/-- The clock of a part: the outputs of the last tick are gone, and NS counts while it is valid (R15, R17, R22). -/
def clockBase (b : Base) : Base :=
  { b with outs := [], tick := b.tick + 1, ns := if b.valid then b.ns + 1 else b.ns }

/-- The unit's HT second mark: TCK page event 2 (R112, R575). -/
def unitSecond (b : Base) : Base :=
  if b.valid && decide (((b.ns.toNat : Int) - ((rd64 b 0x01068).toNat : Int)) % 1000000000 = 0) then pgEvt 0x01 2 b else b

/-- A unit's tick: a handover that is due, a source that supplies nothing (R169), Drip channels that stop, the launch lines,
the transmitters, Lantern and the state machine of R540, and the synchronisation objects once SRAM is initialised. -/
def unitTick (s : State) : State :=
  let s := onUnit (fun u => fncTick (launchLines (dripsTick u))) s
  let s := starved .unit (doHandover .unit (onUnit (uB unitSecond) s))
  let s := unitFsm (lanternWake (onUnit unitTx s))
  ifUnitRuns contextTick s

/-- SRV.STS.LOCK has been 1 since reset, and the pins that follow it (R179, R528). -/
def noteLock (d : DistState) : DistState :=
  drivePins (onAdm (fun a => { a with lockedOnce := a.lockedOnce || rdB d.base 0x9064 0 }) d)

/-- A distributor's tick: the parent switch, at a root the choice after a commit, contexts that wait for accumulators, the
transmitters, MSI-X, FRMOUT and the pins. -/
def distTick (s : State) : State :=
  let s := afterCommit (starved .dist (doHandover .dist s))
  onDist (fun d => noteLock (frmoutEnd (dB msixTick (distTx (accTick d))))) s

/-- One tick of the machine. -/
def tickOp (s : State) : State :=
  let s := onDist (dB clockBase) (onUnit (uB clockBase) s)
  ifDist distTick (ifUnit unitTick s)

end Sys2Proof.Machine
end

