-- ==== Sys2Proof/Machine/Dispatch.lean ====
section
/-! DEFINITION. One arm per command: a direct call of its meaning. -/

namespace Sys2Proof.Machine

/-- The effect of a command on everything but the queue. -/
def exec (i : Instr) (s : State) : Host.Outcome State Fault Refusal :=
  match i with
  | .linkEnableWrite port en => Sys2Proof.Machine.execLinkEnableWrite port en s
  | .linkCntClr port => Sys2Proof.Machine.execLinkCntClr port s
  | .signalDetect port lane present => Sys2Proof.Machine.execSignalDetect port lane present s
  | .blockLockAcquired port lane => Sys2Proof.Machine.execBlockLockAcquired port lane s
  | .blockLockLost port lane => Sys2Proof.Machine.execBlockLockLost port lane s
  | .trainingBlockRx port lane rxLock ready => Sys2Proof.Machine.execTrainingBlockRx port lane rxLock ready s
  | .framesStart port => Sys2Proof.Machine.execFramesStart port s
  | .trainLimitExpiry port => Sys2Proof.Machine.execTrainLimitExpiry port s
  | .trainRetryTimer port => Sys2Proof.Machine.execTrainRetryTimer port s
  | .spareTrainTimeout port => Sys2Proof.Machine.execSpareTrainTimeout port s
  | .spareRetrainTimer port => Sys2Proof.Machine.execSpareRetrainTimer port s
  | .linkSilence port => Sys2Proof.Machine.execLinkSilence port s
  | .readmitTimer port => Sys2Proof.Machine.execReadmitTimer port s
  | .admitWaitTimer port => Sys2Proof.Machine.execAdmitWaitTimer port s
  | .idleRx rx spareOk rxLane slipEn slip => Sys2Proof.Machine.execIdleRx rx spareOk rxLane slipEn slip s
  | .crcBadFrameRx port lane frame => Sys2Proof.Machine.execCrcBadFrameRx port lane frame s
  | .reservedTypeFrameRx rx typ body => Sys2Proof.Machine.execReservedTypeFrameRx rx typ body s
  | .unexpectedFrameRx rx typ body => Sys2Proof.Machine.execUnexpectedFrameRx rx typ body s
  | .ackTimer port => Sys2Proof.Machine.execAckTimer port s
  | .ackRx rx ackSeq => Sys2Proof.Machine.execAckRx rx ackSeq s
  | .nakRx rx expSeq reason => Sys2Proof.Machine.execNakRx rx expSeq reason s
  | .retryTimerExpiry port => Sys2Proof.Machine.execRetryTimerExpiry port s
  | .laneSwap port => Sys2Proof.Machine.execLaneSwap port s
  | .echoIntervalTimer port spare => Sys2Proof.Machine.execEchoIntervalTimer port spare s
  | .echoReqRx rx spare echoId t1 frac => Sys2Proof.Machine.execEchoReqRx rx spare echoId t1 frac s
  | .echoRspRx rx spare echoId t2 resid frac fwdSkew revSkew => Sys2Proof.Machine.execEchoRspRx rx spare echoId t2 resid frac fwdSkew revSkew s
  | .echoExchangeTimeout port spare => Sys2Proof.Machine.execEchoExchangeTimeout port spare s
  | .timeRx rx ns gen frac => Sys2Proof.Machine.execTimeRx rx ns gen frac s
  | .rootTimeTimer => Sys2Proof.Machine.execRootTimeTimer s
  | .epochArm ch gen => Sys2Proof.Machine.execEpochArm ch gen s
  | .epochApply frac => Sys2Proof.Machine.execEpochApply frac s
  | .epochFrameRx rx gen applied => Sys2Proof.Machine.execEpochFrameRx rx gen applied s
  | .tckReload => Sys2Proof.Machine.execTckReload s
  | .helloTimer port => Sys2Proof.Machine.execHelloTimer port s
  | .helloRx rx kind domB tier dkey stepping gen valid => Sys2Proof.Machine.execHelloRx rx kind domB tier dkey stepping gen valid s
  | .admissionSlot => Sys2Proof.Machine.execAdmissionSlot s
  | .admitRx rx unitId port domB tier dkey childDist => Sys2Proof.Machine.execAdmitRx rx unitId port domB tier dkey childDist s
  | .powerOnReset => Sys2Proof.Machine.execPowerOnReset s
  | .supplyFault => Sys2Proof.Machine.execSupplyFault s
  | .warmReset => Sys2Proof.Machine.execWarmReset s
  | .perst => Sys2Proof.Machine.execPerst s
  | .distResetRelease root domB tier smba => Sys2Proof.Machine.execDistResetRelease root domB tier smba s
  | .distSramInitDone => Sys2Proof.Machine.execDistSramInitDone s
  | .unitReset porst => Sys2Proof.Machine.execUnitReset porst s
  | .unitResetRelease => Sys2Proof.Machine.execUnitResetRelease s
  | .unitSramInitDone => Sys2Proof.Machine.execUnitSramInitDone s
  | .healthRx rx unitId dist kind code detail => Sys2Proof.Machine.execHealthRx rx unitId dist kind code detail s
  | .healthVoteSend port => Sys2Proof.Machine.execHealthVoteSend port s
  | .healthDecay => Sys2Proof.Machine.execHealthDecay s
  | .expulsionEvaluate => Sys2Proof.Machine.execExpulsionEvaluate s
  | .healthReadmit port => Sys2Proof.Machine.execHealthReadmit port s
  | .wdogFail engine => Sys2Proof.Machine.execWdogFail engine s
  | .distMemFatal mem => Sys2Proof.Machine.execDistMemFatal mem s
  | .soleRoot => Sys2Proof.Machine.execSoleRoot s
  | .rootRopeLost => Sys2Proof.Machine.execRootRopeLost s
  | .leadHandback => Sys2Proof.Machine.execLeadHandback s
  | .fltRecRead part ch => Sys2Proof.Machine.execFltRecRead part ch s
  | .fltFlush part => Sys2Proof.Machine.execFltFlush part s
  | .fltClrFirst part => Sys2Proof.Machine.execFltClrFirst part s
  | .hevtEdge n level => Sys2Proof.Machine.execHevtEdge n level s
  | .evinEdge i0 level => Sys2Proof.Machine.execEvinEdge i0 level s
  | .evcAssign => Sys2Proof.Machine.execEvcAssign s
  | .claimRead k ch => Sys2Proof.Machine.execClaimRead k ch s
  | .eoiWrite k src => Sys2Proof.Machine.execEoiWrite k src s
  | .cpuFlush k => Sys2Proof.Machine.execCpuFlush k s
  | .pendRead part ch w => Sys2Proof.Machine.execPendRead part ch w s
  | .pendWrite part w be data => Sys2Proof.Machine.execPendWrite part w be data s
  | .pendSet part w be data => Sys2Proof.Machine.execPendSet part w be data s
  | .maskSet part w be data => Sys2Proof.Machine.execMaskSet part w be data s
  | .maskClr part w be data => Sys2Proof.Machine.execMaskClr part w be data s
  | .holdoffExpiry part g => Sys2Proof.Machine.execHoldoffExpiry part g s
  | .lanternEnter psleep => Sys2Proof.Machine.execLanternEnter psleep s
  | .lanternExit psleep => Sys2Proof.Machine.execLanternExit psleep s
  | .configurationRequest msixEn fmask => Sys2Proof.Machine.execConfigurationRequest msixEn fmask s
  | .presencePress => Sys2Proof.Machine.execPresencePress s
  | .presenceRx rx expiry window => Sys2Proof.Machine.execPresenceRx rx expiry window s
  | .presenceClose => Sys2Proof.Machine.execPresenceClose s
  | .presenceExpiry part => Sys2Proof.Machine.execPresenceExpiry part s
  | .cfgLockChange part low => Sys2Proof.Machine.execCfgLockChange part low s
  | .sealBreak => Sys2Proof.Machine.execSealBreak s
  | .semAdd req sem amount => Sys2Proof.Machine.execSemAdd req sem amount s
  | .semSub req sem amount => Sys2Proof.Machine.execSemSub req sem amount s
  | .semRead req sem => Sys2Proof.Machine.execSemRead req sem s
  | .semWait req take sem tout n => Sys2Proof.Machine.execSemWait req take sem tout n s
  | .wchCancel req obj cls wcore wtag => Sys2Proof.Machine.execWchCancel req obj cls wcore wtag s
  | .memWait req addr n => Sys2Proof.Machine.execMemWait req addr n s
  | .snoopWrite addr be data => Sys2Proof.Machine.execSnoopWrite addr be data s
  | .watchTimeout cls obj core tag => Sys2Proof.Machine.execWatchTimeout cls obj core tag s
  | .msgBadOp req op => Sys2Proof.Machine.execMsgBadOp req op s
  | .responseEmit ready => Sys2Proof.Machine.execResponseEmit ready s
  | .ctxClear => Sys2Proof.Machine.execCtxClear s
  | .ctxClearDone => Sys2Proof.Machine.execCtxClearDone s
  | .eccUncorrectable target => Sys2Proof.Machine.execEccUncorrectable target s
  | .scrub target correctable => Sys2Proof.Machine.execScrub target correctable s
  | .sumpRead ch => Sys2Proof.Machine.execSumpRead ch s
  | .semCmdAdd => Sys2Proof.Machine.execSemCmdAdd s
  | .semCmdSub => Sys2Proof.Machine.execSemCmdSub s
  | .semCmdSet => Sys2Proof.Machine.execSemCmdSet s
  | .semCmdClrFlags => Sys2Proof.Machine.execSemCmdClrFlags s
  | .semCmdLoadView => Sys2Proof.Machine.execSemCmdLoadView s
  | .domSwitch => Sys2Proof.Machine.execDomSwitch s
  | .rebase => Sys2Proof.Machine.execRebase s
  | .rebaseStep => Sys2Proof.Machine.execRebaseStep s
  | .parentSwitch => Sys2Proof.Machine.execParentSwitch s
  | .srvModeWrite manual => Sys2Proof.Machine.execSrvModeWrite manual s
  | .handover part => Sys2Proof.Machine.execHandover part s
  | .handoverTimeout part => Sys2Proof.Machine.execHandoverTimeout part s
  | .holdoverAgeExpiry => Sys2Proof.Machine.execHoldoverAgeExpiry s
  | .distMute => Sys2Proof.Machine.execDistMute s
  | .acquireTimeout => Sys2Proof.Machine.execAcquireTimeout s
  | .calPeriod => Sys2Proof.Machine.execCalPeriod s
  | .dbgArm => Sys2Proof.Machine.execDbgArm s
  | .dbgTrigger => Sys2Proof.Machine.execDbgTrigger s
  | .dbgStop => Sys2Proof.Machine.execDbgStop s
  | .dbgInject => Sys2Proof.Machine.execDbgInject s
  | .syncFrameSend => Sys2Proof.Machine.execSyncFrameSend s
  | .tapSyncFrameRx region ns crc => Sys2Proof.Machine.execTapSyncFrameRx region ns crc s
  | .tapDelayUpdate region loopUnits => Sys2Proof.Machine.execTapDelayUpdate region loopUnits s
  | .tapReturnLost region => Sys2Proof.Machine.execTapReturnLost region s
  | .tapResync region => Sys2Proof.Machine.execTapResync region s
  | .tapEnWrite region en => Sys2Proof.Machine.execTapEnWrite region en s
  | .regionStopEdge region stopped => Sys2Proof.Machine.execRegionStopEdge region stopped s
  | .tapReadReq region port => Sys2Proof.Machine.execTapReadReq region port s
  | .captureEdge kind idx fall frac => Sys2Proof.Machine.execCaptureEdge kind idx fall frac s
  | .captureRecordEnter => Sys2Proof.Machine.execCaptureRecordEnter s
  | .capRecRead ch => Sys2Proof.Machine.execCapRecRead ch s
  | .dripArm k => Sys2Proof.Machine.execDripArm k s
  | .dripStop k => Sys2Proof.Machine.execDripStop k s
  | .dripPulseStart k => Sys2Proof.Machine.execDripPulseStart k s
  | .dripPulseEnd k => Sys2Proof.Machine.execDripPulseEnd k s
  | .launchOrigStart msg => Sys2Proof.Machine.execLaunchOrigStart msg s
  | .launchOrigCancel msg => Sys2Proof.Machine.execLaunchOrigCancel msg s
  | .launchReqTimeout gallery lid => Sys2Proof.Machine.execLaunchReqTimeout gallery lid s
  | .armRequestRx rx a => Sys2Proof.Machine.execArmRequestRx rx a s
  | .armBroadcastDist rx a => Sys2Proof.Machine.execArmBroadcastDist rx a s
  | .armBroadcastUnit rx a => Sys2Proof.Machine.execArmBroadcastUnit rx a s
  | .censusRx rx a refused => Sys2Proof.Machine.execCensusRx rx a refused s
  | .launchCutoffExpiry gallery lid => Sys2Proof.Machine.execLaunchCutoffExpiry gallery lid s
  | .goRelay rx g => Sys2Proof.Machine.execGoRelay rx g s
  | .goRx rx g => Sys2Proof.Machine.execGoRx rx g s
  | .abortRxUnit rx a => Sys2Proof.Machine.execAbortRxUnit rx a s
  | .abortRelay rx a => Sys2Proof.Machine.execAbortRelay rx a s
  | .launchGuardExpiry gallery lid => Sys2Proof.Machine.execLaunchGuardExpiry gallery lid s
  | .launchFire => Sys2Proof.Machine.execLaunchFire s
  | .launchLatenessJudge => Sys2Proof.Machine.execLaunchLatenessJudge s
  | .launchDeadline => Sys2Proof.Machine.execLaunchDeadline s
  | .lchRecRead ch => Sys2Proof.Machine.execLchRecRead ch s
  | .launchTokenRefill => Sys2Proof.Machine.execLaunchTokenRefill s
  | .reqTokenRefill port => Sys2Proof.Machine.execReqTokenRefill port s
  | .ttbInsertCmd msg => Sys2Proof.Machine.execTtbInsertCmd msg s
  | .ttbCancelCmd => Sys2Proof.Machine.execTtbCancelCmd s
  | .ttbLoadCmd => Sys2Proof.Machine.execTtbLoadCmd s
  | .ttbStage => Sys2Proof.Machine.execTtbStage s
  | .ttbAct => Sys2Proof.Machine.execTtbAct s
  | .barEnter req barrier => Sys2Proof.Machine.execBarEnter req barrier s
  | .barDeadline barrier => Sys2Proof.Machine.execBarDeadline barrier s
  | .barReset => Sys2Proof.Machine.execBarReset s
  | .barEnWrite be data => Sys2Proof.Machine.execBarEnWrite be data s
  | .flwProd req pair amount => Sys2Proof.Machine.execFlwProd req pair amount s
  | .flwCons req pair amount => Sys2Proof.Machine.execFlwCons req pair amount s
  | .flwLoadView => Sys2Proof.Machine.execFlwLoadView s
  | .flwReset => Sys2Proof.Machine.execFlwReset s
  | .fenceSignal src tag wcount sem amount => Sys2Proof.Machine.execFenceSignal src tag wcount sem amount s
  | .drainReport src tag delta => Sys2Proof.Machine.execDrainReport src tag delta s
  | .fncTimeout => Sys2Proof.Machine.execFncTimeout s
  | .fncDiscard => Sys2Proof.Machine.execFncDiscard s
  | .fncLoadView => Sys2Proof.Machine.execFncLoadView s
  | .applyChannelReady ready => Sys2Proof.Machine.execApplyChannelReady ready s
  | .deadlock => Sys2Proof.Machine.execDeadlock s
  | .dlkRearm => Sys2Proof.Machine.execDlkRearm s
  | .cmbData req buf chunk data => Sys2Proof.Machine.execCmbData req buf chunk data s
  | .cmbPost req buf gallery op chunks gseq sigSem sigEn notify => Sys2Proof.Machine.execCmbPost req buf gallery op chunks gseq sigSem sigEn notify s
  | .cmbRead req buf chunk => Sys2Proof.Machine.execCmbRead req buf chunk s
  | .cmbUpRx rx k op repro payload => Sys2Proof.Machine.execCmbUpRx rx k op repro payload s
  | .accSetGrant => Sys2Proof.Machine.execAccSetGrant s
  | .substTimeout port => Sys2Proof.Machine.execSubstTimeout port s
  | .cmbDeadlineExpiry gallery gseq => Sys2Proof.Machine.execCmbDeadlineExpiry gallery gseq s
  | .cmbDownRxDist rx k op repro status payload => Sys2Proof.Machine.execCmbDownRxDist rx k op repro status payload s
  | .cmbDownRxUnit rx k op repro status payload => Sys2Proof.Machine.execCmbDownRxUnit rx k op repro status payload s
  | .ackcmbRx rx k good => Sys2Proof.Machine.execAckcmbRx rx k good s
  | .cmbAckTimeout gallery gseq port => Sys2Proof.Machine.execCmbAckTimeout gallery gseq port s
  | .commitRxDist rx k => Sys2Proof.Machine.execCommitRxDist rx k s
  | .commitRxUnit rx k => Sys2Proof.Machine.execCommitRxUnit rx k s
  | .heldCommitRelease => Sys2Proof.Machine.execHeldCommitRelease s
  | .cmbUnitDeadline gallery => Sys2Proof.Machine.execCmbUnitDeadline gallery s
  | .cmbGalStateWrite be data => Sys2Proof.Machine.execCmbGalStateWrite be data s
  | .substHdr rx k port op repro absent dlen all => Sys2Proof.Machine.execSubstHdr rx k port op repro absent dlen all s
  | .substData rx k payload => Sys2Proof.Machine.execSubstData rx k payload s
  | .substReq rx k port on => Sys2Proof.Machine.execSubstReq rx k port on s
  | .resultRecord rx k op status repro payload => Sys2Proof.Machine.execResultRecord rx k op status repro payload s
  | .syncRecord rx k epoch valid => Sys2Proof.Machine.execSyncRecord rx k epoch valid s
  | .launchOpen rx k target mask tol uid => Sys2Proof.Machine.execLaunchOpen rx k target mask tol uid s
  | .launchDecision rx k go reason => Sys2Proof.Machine.execLaunchDecision rx k go reason s
  | .launchCensus rx k port uid refused => Sys2Proof.Machine.execLaunchCensus rx k port uid refused s
  | .launchReq rx k target mask tol uid => Sys2Proof.Machine.execLaunchReq rx k target mask tol uid s
  | .calibrationRecord rx k rhoUp defUp sigma defValid rhoValid upPort => Sys2Proof.Machine.execCalibrationRecord rx k rhoUp defUp sigma defValid rhoValid upPort s
  | .xoFail => Sys2Proof.Machine.execXoFail s
  | .refClockLoss n => Sys2Proof.Machine.execRefClockLoss n s
  | .refPulseTimeout n => Sys2Proof.Machine.execRefPulseTimeout n s
  | .refSecondMark n edge => Sys2Proof.Machine.execRefSecondMark n edge s
  | .sourceQualified src => Sys2Proof.Machine.execSourceQualified src s
  | .wtrExpiry src => Sys2Proof.Machine.execWtrExpiry src s
  | .switchCommit => Sys2Proof.Machine.execSwitchCommit s
  | .realign => Sys2Proof.Machine.execRealign s
  | .htSecondMark count0 count1 count2 count3 => Sys2Proof.Machine.execHtSecondMark count0 count1 count2 count3 s
  | .ptpAnnounceRx h ann => Sys2Proof.Machine.execPtpAnnounceRx h ann s
  | .ptpSyncRx h twoStep origin => Sys2Proof.Machine.execPtpSyncRx h twoStep origin s
  | .ptpFollowUpRx h origin => Sys2Proof.Machine.execPtpFollowUpRx h origin s
  | .ptpDelayReqTimer => Sys2Proof.Machine.execPtpDelayReqTimer s
  | .ptpDelayRespRx h rxTime mine => Sys2Proof.Machine.execPtpDelayRespRx h rxTime mine s
  | .ptpActivityTimeout => Sys2Proof.Machine.execPtpActivityTimeout s
  | .ptpCfgCommit ch be data => Sys2Proof.Machine.execPtpCfgCommit ch be data s
  | .frmoutPulse => Sys2Proof.Machine.execFrmoutPulse s
  | .ppsoutPulseEnd => Sys2Proof.Machine.execPpsoutPulseEnd s
  | .arpRequestRx target => Sys2Proof.Machine.execArpRequestRx target s
  | .ptpDiscardedFrame => Sys2Proof.Machine.execPtpDiscardedFrame s
  | .thmSample k temp => Sys2Proof.Machine.execThmSample k temp s
  | .thmSensorFail k => Sys2Proof.Machine.execThmSensorFail k s
  | .thmClrMax => Sys2Proof.Machine.execThmClrMax s
  | .registerWrite part ch addr be data => Sys2Proof.Machine.execRegisterWrite part ch addr be data s
  | .registerRead part ch addr => Sys2Proof.Machine.execRegisterRead part ch addr s
  | .regAccessTimeout part ch write addr => Sys2Proof.Machine.execRegAccessTimeout part ch write addr s
  | .pageLockRead part ch page => Sys2Proof.Machine.execPageLockRead part ch page s
  | .smbusBlockWrite addr data pecOk => Sys2Proof.Machine.execSmbusBlockWrite addr data pecOk s
  | .smbusReadRequest addr pecOk => Sys2Proof.Machine.execSmbusReadRequest addr pecOk s
  | .smbusBlockRead => Sys2Proof.Machine.execSmbusBlockRead s

end Sys2Proof.Machine
end

