-- ==== Sys2Proof/Safety.lean ====
section
/-! DEFINITION. What holds of every state a run reaches, in the terms the claims use. -/

namespace Sys2Proof.Machine

/-- A part's base is in order: it is the part it should be, its register file stands in canonical form, and the fault log
holds at most 128 entries at the unit and 1,024 at the distributor (R458). -/
structure BaseOk (unit : Bool) (b : Base) : Prop where
  part : isUnit b = unit
  regs : tabWf (resetOf b.kind) b.regs = true
  log : b.log.length ≤ logCap b

/-- The invariant of the machine: each part's base is in order. -/
def State.Inv (s : State) : Prop := BaseOk true s.unit.base ∧ BaseOk false s.dist.base

/-- A part that does not step: it is in the same phase, with the same straps or configuration, the same tick, and the same
hall time and validity. -/
structure SameClock (b b' : Base) : Prop where
  kind : b'.kind = b.kind
  phase : b'.phase = b.phase
  tick : b'.tick = b.tick
  ns : b'.ns = b.ns
  valid : b'.valid = b.valid

/-- The part a port belongs to. -/
def portPart : PortRef → Part
  | .unit _ => .unit
  | .dist _ => .dist

/-- The part at which a command happens. -/
def commandPart : Instr → Part
  | .linkEnableWrite x _ => portPart x
  | .linkCntClr x => portPart x
  | .signalDetect x _ _ => portPart x
  | .blockLockAcquired x _ => portPart x
  | .blockLockLost x _ => portPart x
  | .trainingBlockRx x _ _ _ => portPart x
  | .framesStart x => portPart x
  | .trainLimitExpiry x => portPart x
  | .trainRetryTimer x => portPart x
  | .spareTrainTimeout x => portPart x
  | .spareRetrainTimer x => portPart x
  | .linkSilence x => portPart x
  | .readmitTimer x => portPart x
  | .admitWaitTimer x => portPart x
  | .idleRx x _ _ _ _ => portPart x.port
  | .crcBadFrameRx x _ _ => portPart x
  | .reservedTypeFrameRx x _ _ => portPart x.port
  | .unexpectedFrameRx x _ _ => portPart x.port
  | .ackTimer x => portPart x
  | .ackRx x _ => portPart x.port
  | .nakRx x _ _ => portPart x.port
  | .retryTimerExpiry x => portPart x
  | .laneSwap x => portPart x
  | .echoIntervalTimer x _ => portPart x
  | .echoReqRx x _ _ _ _ => portPart x.port
  | .echoRspRx x _ _ _ _ _ _ _ => portPart x.port
  | .echoExchangeTimeout x _ => portPart x
  | .timeRx x _ _ _ => portPart x.port
  | .epochFrameRx x _ _ => portPart x.port
  | .helloTimer x => portPart x
  | .helloRx x _ _ _ _ _ _ _ => portPart x.port
  | .admitRx x _ _ _ _ _ _ => portPart x.port
  | .healthRx x _ _ _ _ _ => portPart x.port
  | .healthVoteSend x => portPart x
  | .fltRecRead x _ => x
  | .fltFlush x => x
  | .fltClrFirst x => x
  | .pendRead x _ _ => x
  | .pendWrite x _ _ _ => x
  | .pendSet x _ _ _ => x
  | .maskSet x _ _ _ => x
  | .maskClr x _ _ _ => x
  | .holdoffExpiry x _ => x
  | .presenceRx x _ _ => portPart x.port
  | .presenceExpiry x => x
  | .cfgLockChange x _ => x
  | .handover x => x
  | .handoverTimeout x => x
  | .armRequestRx x _ => portPart x.port
  | .armBroadcastDist x _ => portPart x.port
  | .armBroadcastUnit x _ => portPart x.port
  | .censusRx x _ _ => portPart x.port
  | .goRelay x _ => portPart x.port
  | .goRx x _ => portPart x.port
  | .abortRxUnit x _ => portPart x.port
  | .abortRelay x _ => portPart x.port
  | .cmbUpRx x _ _ _ _ => portPart x.port
  | .cmbDownRxDist x _ _ _ _ _ => portPart x.port
  | .cmbDownRxUnit x _ _ _ _ _ => portPart x.port
  | .ackcmbRx x _ _ => portPart x.port
  | .commitRxDist x _ => portPart x.port
  | .commitRxUnit x _ => portPart x.port
  | .substHdr x _ _ _ _ _ _ _ => portPart x.port
  | .substData x _ _ => portPart x.port
  | .substReq x _ _ _ => portPart x.port
  | .resultRecord x _ _ _ _ _ => portPart x.port
  | .syncRecord x _ _ _ => portPart x.port
  | .launchOpen x _ _ _ _ _ => portPart x.port
  | .launchDecision x _ _ _ => portPart x.port
  | .launchCensus x _ _ _ _ => portPart x.port
  | .launchReq x _ _ _ _ _ => portPart x.port
  | .calibrationRecord x _ _ _ _ _ _ _ => portPart x.port
  | .registerWrite x _ _ _ _ => x
  | .registerRead x _ _ => x
  | .regAccessTimeout x _ _ _ => x
  | .pageLockRead x _ _ => x
  | .tckReload | .unitReset .. | .unitResetRelease | .unitSramInitDone | .hevtEdge .. | .evinEdge .. | .evcAssign
  | .claimRead .. | .eoiWrite .. | .cpuFlush .. | .lanternEnter .. | .lanternExit .. | .semAdd .. | .semSub ..
  | .semRead .. | .semWait .. | .wchCancel .. | .memWait .. | .snoopWrite .. | .watchTimeout .. | .msgBadOp ..
  | .responseEmit .. | .ctxClear | .ctxClearDone | .eccUncorrectable .. | .scrub (.unit _) _ | .sumpRead .. | .semCmdAdd
  | .semCmdSub | .semCmdSet | .semCmdClrFlags | .semCmdLoadView | .domSwitch | .rebase | .rebaseStep
  | .srvModeWrite .. | .holdoverAgeExpiry | .acquireTimeout | .dbgArm | .dbgTrigger | .dbgStop | .dbgInject
  | .syncFrameSend | .tapSyncFrameRx .. | .tapDelayUpdate .. | .tapReturnLost .. | .tapResync .. | .tapEnWrite ..
  | .regionStopEdge .. | .tapReadReq .. | .captureEdge .. | .captureRecordEnter | .capRecRead .. | .dripArm ..
  | .dripStop .. | .dripPulseStart .. | .dripPulseEnd .. | .launchOrigStart .. | .launchOrigCancel ..
  | .launchReqTimeout .. | .launchGuardExpiry .. | .launchFire | .launchLatenessJudge | .launchDeadline
  | .lchRecRead .. | .launchTokenRefill | .ttbInsertCmd .. | .ttbCancelCmd | .ttbLoadCmd | .ttbStage | .ttbAct
  | .barEnter .. | .barDeadline .. | .barReset | .barEnWrite .. | .flwProd .. | .flwCons .. | .flwLoadView
  | .flwReset | .fenceSignal .. | .drainReport .. | .fncTimeout | .fncDiscard | .fncLoadView | .applyChannelReady ..
  | .deadlock | .dlkRearm | .cmbData .. | .cmbPost .. | .cmbRead .. | .heldCommitRelease | .cmbUnitDeadline ..
  | .cmbGalStateWrite .. => .unit
  | .rootTimeTimer | .epochArm .. | .epochApply .. | .admissionSlot | .powerOnReset | .supplyFault | .warmReset
  | .perst | .distResetRelease .. | .distSramInitDone | .healthDecay | .expulsionEvaluate | .healthReadmit ..
  | .wdogFail .. | .distMemFatal .. | .soleRoot | .rootRopeLost | .leadHandback | .configurationRequest ..
  | .presencePress | .presenceClose | .sealBreak | .parentSwitch | .distMute | .calPeriod | .launchCutoffExpiry ..
  | .reqTokenRefill .. | .accSetGrant | .substTimeout .. | .cmbDeadlineExpiry .. | .cmbAckTimeout .. | .xoFail
  | .refClockLoss .. | .refPulseTimeout .. | .refSecondMark .. | .sourceQualified .. | .wtrExpiry .. | .switchCommit
  | .realign | .htSecondMark .. | .ptpAnnounceRx .. | .ptpSyncRx .. | .ptpFollowUpRx .. | .ptpDelayReqTimer
  | .ptpDelayRespRx .. | .ptpActivityTimeout | .ptpCfgCommit .. | .frmoutPulse | .ppsoutPulseEnd | .arpRequestRx ..
  | .ptpDiscardedFrame | .thmSample .. | .thmSensorFail .. | .thmClrMax | .smbusBlockWrite .. | .smbusReadRequest ..
  | .smbusBlockRead | .scrub .dist _ => .dist

/-- The part that a machine `s` shares with `s₀` whatever happened at part `P`: the other one. -/
def OtherSame (P : Part) (s₀ s : State) : Prop := match P with
  | .unit => s.dist = s₀.dist
  | .dist => s.unit = s₀.unit

/-! ## When a command finds what it acts on -/

/-- A part runs: out of reset, SRAM initialised, not stopped (R471, R529, R531). -/
abbrev unitRuns (s : State) : Prop := s.unit.base.phase = .run
abbrev distRuns (s : State) : Prop := s.dist.base.phase = .run
abbrev portRuns (p : PortRef) (s : State) : Prop := (baseOf s p).phase = .run

/-- Frames cross a port's link: its part runs and the link is LINK_UP or LINK_ADMITTED. -/
abbrev linkServes (p : PortRef) (s : State) : Prop := portRuns p s ∧ linkRuns (getPort s p) = true

/-- A sequenced frame or a whole group arrives in sequence on a link that serves (R69, R74). -/
abbrev inOrder (rx : Rx) (s : State) : Prop :=
  linkServes rx.port s ∧ rx.seq = (getPort s rx.port).arq.rxExp ∧ rx.part = none

/-- The same on distributor port `n`, which is LINK_ADMITTED. -/
abbrev inOrderAdmitted (rx : Rx) (n : Fin 132) (s : State) : Prop :=
  rx.port = .dist n ∧ inOrder rx s ∧ (getPort s rx.port).phy.st = .admitted

/-- A ROPE record arrives in sequence on an admitted Rope port, next in RSEQ order (R102). -/
abbrev ropeNext (rx : Rx) (k : RopeKey) (s : State) : Prop :=
  permRope rx.port = true ∧ inOrder rx s ∧ (getPort s rx.port).phy.st = .admitted ∧ k.rseq = s.dist.rope.rxSeq

/-- The message port takes a request now: ready is high on a lane that the port has (R265), its CTX_LO is current (R270) and
the configuration has its opcode (R269). -/
abbrev accepts (r : Req) (op : Nat) (s : State) : Prop :=
  msgReady s.unit = true ∧ r.lane.toNat < portLanes s.unit ∧ reqStale s.unit r = false ∧
    opPermitted (cfgOf s.unit.base).w64 op = true

/-- The distributor runs as the root of its domain (R3). -/
abbrev rootRuns (s : State) : Prop := isRoot s.dist = true ∧ distRuns s

/-! ## Whole-machine rules -/

/-- The commands that may load a part's hall time counter or stop it: a TIME frame's first load (R22), an epoch (R25, R27),
a root's first second mark, RELOAD (R29), a register write of the unit that can carry RELOAD, and the resets and releases. -/
def mayLoadTime : Instr → Bool
  | .timeRx .. | .epochApply .. | .refSecondMark .. | .tckReload | .powerOnReset | .supplyFault | .warmReset
  | .distResetRelease .. | .unitReset .. | .unitResetRelease => true
  | .registerWrite x _ _ _ _ => decide (x = .unit)
  | _ => false

/-- The commands that reset a distributor (R524, R525). -/
def distReset : Instr → Bool
  | .supplyFault | .warmReset => true
  | _ => false

end Sys2Proof.Machine
end

