-- ==== Sys2Proof/Certificates/Slice0/Obligations.lean ====
section
/-! DEFINITION. The statements for the provers, family by family. A command's clause says that it answers a next state under
hypotheses on the state and operands, and what that state is; what the state given does not name is as before. -/

open Sys2Proof Sys2Proof.Machine


/-! ## The machine -/

/-- A step with a command waiting runs the command at the front of the queue on the machine with the queue's rest. -/
def Obligations.StepRunsFrontCommand : Prop :=
  ∀ (c : Instr) (q : List Instr) (s : State), s.pending = c :: q → step s = exec c { s with pending := q }

/-- On an empty queue a step is one TCLK rising edge (the model's choice, log entry 1): the tick of both parts advances by 1,
and NS advances by exactly 1 at each part whose counter is valid (R17) and keeps its value at one whose counter is not. -/
def Obligations.EmptyQueueIsOneTick : Prop :=
  ∀ s : State, s.pending = [] → ∃ t, step s = .next t ∧ t.pending = [] ∧
    t.unit.base.tick = s.unit.base.tick + 1 ∧ t.dist.base.tick = s.dist.base.tick + 1 ∧
    t.unit.base.valid = s.unit.base.valid ∧ t.dist.base.valid = s.dist.base.valid ∧
    t.unit.base.ns = (if s.unit.base.valid then s.unit.base.ns + 1 else s.unit.base.ns) ∧
    t.dist.base.ns = (if s.dist.base.valid then s.dist.base.ns + 1 else s.dist.base.ns)

/-- Every command answers a next state, and no command touches the queue: what waits is served in order. -/
def Obligations.CommandsLeaveTheQueue : Prop :=
  ∀ (c : Instr) (s : State), ∃ t, exec c s = .next t ∧ t.pending = s.pending

/-- A command changes the part at which it happens and leaves the other part exactly as it is. -/
def Obligations.CommandsStayAtTheirPart : Prop :=
  ∀ (c : Instr) (s : State), ∃ t, exec c s = .next t ∧ OtherSame (commandPart c) s t

/-- The machine after reset is in order: each part is the part it is, its register file is canonical, its log is within
bounds. That reset holds a full-size W1024 unit and a root of domain A just released from reset is the model's choice
(log entries 2, 3 and 7). -/
def Obligations.ResetIsInOrder : Prop := State.reset.Inv

/-- The invariant holds after every step from every state in which it holds: each part is the part it is, its register file
is canonical, and its fault log holds no more entries than R458 gives it. -/
def Obligations.EveryStepKeepsInv : Prop :=
  ∀ s t : State, s.Inv → step s = .next t → t.Inv

/-- Hall time never steps (R18): every command but those that may load or stop a counter (a first load, an epoch, RELOAD, a
reset or release) leaves NS and VALID of both parts as they are. -/
def Obligations.HallTimeNeverSteps : Prop :=
  ∀ (c : Instr) (s : State), mayLoadTime c = false → ∃ t, exec c s = .next t ∧
    t.unit.base.ns = s.unit.base.ns ∧ t.unit.base.valid = s.unit.base.valid ∧
    t.dist.base.ns = s.dist.base.ns ∧ t.dist.base.valid = s.dist.base.valid

/-- A stopped distributor stays stopped until it is reset (R471): no command but a supply fault or RST_N, and no tick, takes
it out of that phase. -/
def Obligations.StoppedUntilReset : Prop :=
  ∀ s : State, s.dist.base.phase = .stopped →
    (∀ c, distReset c = false → ∃ t, exec c s = .next t ∧ t.dist.base.phase = .stopped) ∧
    (s.pending = [] → ∃ t, step s = .next t ∧ t.dist.base.phase = .stopped)

/-! ## Fyolink -/

/-- A port in LINK_DOWN that may train goes to LINK_TRAIN (R104): at the end of a training wait with a signal on a lane, when
a signal appears on a lane, when it is enabled; and one in LINK_DEAD when the dead time has run (R107). The port then holds
no traffic and no sequence counts, and every other port is as it was. A signal that appears or goes is held on its lane, and
block lock goes with it; a timer that finds its port in another state, disabled, without signal or not yet due does nothing.
-/
def Obligations.LinksTrain : Prop :=
  ∀ (p : PortRef) (s : State), portRuns p s →
    (∀ c : Instr,
      (getPort s p).phy.st = .down ∧ (∀ t, (getPort s p).phy.failAt = some t → t + 100000000 ≤ nowOf s p) ∧
        (c = .trainRetryTimer p ∧ portServes s p = true ∧
            ((getPort s p).phy.lane0.signal || (getPort s p).phy.lane1.signal) = true ∨
          (∃ lane, c = .signalDetect p lane true) ∧ portServes s p = true ∨
          c = .linkEnableWrite p true ∧ portServes (onBaseOf p (wrB (portReg p 0x040) 0 true) s) p = true ∧
            ((getPort s p).phy.lane0.signal || (getPort s p).phy.lane1.signal) = true) ∨
        c = .readmitTimer p ∧ (getPort s p).phy.st = .dead ∧ (getPort s p).phy.stAt + readmitDead s p ≤ nowOf s p →
      ∃ t, exec c s = .next t ∧ (getPort t p).phy.st = .train ∧ (getPort t p).phy.stAt = nowOf s p ∧
        (getPort t p).arq = {} ∧ ∀ q, q ≠ p → getPort t q = getPort s q) ∧
    (∀ lane present, ∃ t, exec (.signalDetect p lane present) s = .next t ∧
      (laneOf (getPort t p).phy lane).signal = present ∧
      ((laneOf (getPort s p).phy lane).signal = true → present = false → (laneOf (getPort t p).phy lane).lock = false) ∧
      ∀ q, q ≠ p → getPort t q = getPort s q) ∧
    ((getPort s p).phy.st ≠ .down ∨ portServes s p = false ∨
        (∃ t, (getPort s p).phy.failAt = some t ∧ nowOf s p < t + 100000000) ∨
        ((getPort s p).phy.lane0.signal || (getPort s p).phy.lane1.signal) = false →
      exec (.trainRetryTimer p) s = .next s) ∧
    ((getPort s p).phy.st ≠ .dead ∨ nowOf s p < (getPort s p).phy.stAt + readmitDead s p →
      exec (.readmitTimer p) s = .next s)

/-- A port goes to LINK_DOWN: when it is disabled, from any state, with what follows a port that leaves LINK_ADMITTED; at
the training limit, with TRAIN_FAIL logged and scored (R104, R473); and in LINK_TRAIN after 256 frame cycles without a
signal (R104). Without a CRC-good frame on either lane for 256 frame cycles, a port in LINK_UP goes to LINK_DOWN, where the
LINK_DOWN condition is tested, and one in LINK_ADMITTED is LINK_DEAD (R104, R105). Otherwise neither timer changes anything
but that a unit's servo follows its links. -/
def Obligations.LinksFall : Prop :=
  ∀ (d : Dom) (n : Fin 132) (s : State),
    (live s.unit.base = true → exec (.linkEnableWrite (.unit d) false) s =
      .next (unitFsm (leaving (.unit d) (linkDown (.unit d)) (onBaseOf (.unit d) (wrB (portReg (.unit d) 0x040) 0 false) s)))) ∧
    (live s.dist.base = true → exec (.linkEnableWrite (.dist n) false) s =
      .next (leaving (.dist n) (linkDown (.dist n)) (onBaseOf (.dist n) (wrB (portReg (.dist n) 0x040) 0 false) s))) ∧
    (∀ p, portRuns p s → (getPort s p).phy.st = .train → (getPort s p).phy.stAt + trainLimit s p ≤ nowOf s p →
      exec (.trainLimitExpiry p) s = .next (linkDown p (onPort p (fun lp => { lp with phy := { lp.phy with
        failAt := some (nowOf s p) } }) (scorePort p 0x054 8 (logPort p lkTrainFail 0 0 s))))) ∧
    (∀ p, portRuns p s → (getPort s p).phy.st ≠ .train ∨ nowOf s p < (getPort s p).phy.stAt + trainLimit s p →
      exec (.trainLimitExpiry p) s = .next s) ∧
    (∀ p, portRuns p s → ∃ u, (exec (.linkSilence p) s = .next (match p with
        | .unit _ => unitFsm u
        | .dist _ => u)) ∧
      ((getPort s p).phy.st = .train → u = if noSignal (nowOf s p) (getPort s p).phy then linkDown p s else s) ∧
      ((getPort s p).phy.st = .up → u = if silent (nowOf s p) (getPort s p).phy then testDown p (linkDown p s) else s) ∧
      ((getPort s p).phy.st = .admitted → u = if silent (nowOf s p) (getPort s p).phy then linkDead p s else s) ∧
      ((getPort s p).phy.st = .down ∨ (getPort s p).phy.st = .dead → u = s)) ∧
    (distRuns s → (getPort s (.dist n)).phy.st = .train → noSignal (nowOf s (.dist n)) (getPort s (.dist n)).phy = true →
      ∃ t, exec (.linkSilence (.dist n)) s = .next t ∧ (getPort t (.dist n)).phy.st = .down ∧ (getPort t (.dist n)).arq = {} ∧
        ∀ q, q ≠ .dist n → getPort t q = getPort s q) ∧
    (distRuns s → (getPort s (.dist n)).phy.st = .admitted → silent (nowOf s (.dist n)) (getPort s (.dist n)).phy = true →
      exec (.linkSilence (.dist n)) s = .next (linkDead (.dist n) s)) ∧
    (unitRuns s → (getPort s (.unit d)).phy.st = .admitted → silent (nowOf s (.unit d)) (getPort s (.unit d)).phy = true →
      exec (.linkSilence (.unit d)) s = .next (unitFsm (linkDead (.unit d) s)))

/-- Training a lane (R60 to R62, R90, R108): block lock follows the receiver where it hears a signal, a training block on a
locked lane carries the partner's lock and READY, and mutual READY is noted on the tick it is reached; 64 blocks later the
port is LINK_UP. At the training limit, a lane without lock beside a locked one is declared failed (the model's choice of the
moment, log entry 26), and a spare lane that retrains and has not trained is failed and SPARE_LOST is logged. A retrained
spare carries frames after 128 blocks once the partner has lock on both its lanes. A failed lane is retrained every 100 ms
while the port is admitted. -/
def Obligations.LanesTrain : Prop :=
  ∀ (p : PortRef) (s : State) (lane : Bool), portRuns p s →
    ((getPort s p).phy.st = .train ∨ linkRuns (getPort s p) = true → laneHeard p lane s = true →
      exec (.blockLockAcquired p lane) s =
        .next (onPort p (fun lp => noteTrain (nowOf s p) (onLane lane (fun l => { l with lock := true }) lp)) s)) ∧
    (laneHeard p lane s = false → exec (.blockLockAcquired p lane) s = .next s) ∧
    (exec (.blockLockLost p lane) s =
      .next (onPort p (fun lp => noteTrain (nowOf s p) (onLane lane (fun l => { l with lock := false }) lp)) s)) ∧
    ((laneOf (getPort s p).phy lane).lock = true → ∀ rxLock ready, exec (.trainingBlockRx p lane rxLock ready) s =
      .next (onPort p (fun lp => noteTrain (nowOf s p)
        (onLane lane (fun l => { l with peerLock := rxLock, peerReady := ready }) lp)) s)) ∧
    ((laneOf (getPort s p).phy lane).lock = false → ∀ rxLock ready, exec (.trainingBlockRx p lane rxLock ready) s = .next s) ∧
    (∀ lp, lp.phy.st = .train → noteTrain (nowOf s p) lp = noteReady (nowOf s p) lp) ∧
    (∀ lp, readyHere lp.phy = true → readyThere lp.phy = true → lp.phy.readyAt = none →
      (noteReady (nowOf s p) lp).phy.readyAt = some (nowOf s p)) ∧
    (∀ t, (getPort s p).phy.st = .train → (getPort s p).phy.readyAt = some t → t + 256 ≤ nowOf s p →
      exec (.framesStart p) s = .next (trainDone p s) ∧ (getPort (trainDone p s) p).phy.st = .up) ∧
    (∀ t, linkRuns (getPort s p) = true → (getPort s p).phy.spareTrainAt = some t → (getPort s p).phy.peerSpareOk = true →
      t + 512 ≤ nowOf s p → ∃ u, exec (.framesStart p) s = .next u ∧ (getPort u p).phy.spareTrainAt = none ∧
        (laneOf (getPort u p).phy (!(getPort s p).phy.txLane)).frames = true ∧ ∀ q, q ≠ p → getPort u q = getPort s q) ∧
    ((getPort s p).phy.st = .train → (getPort s p).phy.stAt + trainLimit s p ≤ nowOf s p →
      (laneOf (getPort s p).phy lane).lock = true → (laneOf (getPort s p).phy (!lane)).lock = false →
      exec (.spareTrainTimeout p) s = .next (onPort p (fun lp => noteReady (nowOf s p)
        (onLane (!lane) (fun l => { l with failed := true }) lp)) s)) ∧
    (∀ t, (getPort s p).phy.spareTrainAt = some t → linkRuns (getPort s p) = true → t + trainLimit s p ≤ nowOf s p →
      exec (.spareTrainTimeout p) s = .next (spareLost p (onPort p (fun lp =>
        let lp := onLane (!lp.phy.txLane) (fun l => { l with failed := true }) lp
        { lp with phy := { lp.phy with spareTrainAt := none, spareFailAt := some (nowOf s p) } }) s))) ∧
    (∀ t, (getPort s p).phy.spareFailAt = some t → (getPort s p).phy.st = .admitted → t + 100000000 ≤ nowOf s p →
      exec (.spareRetrainTimer p) s = .next (onPort p (fun lp =>
        let lp := onLane (!lp.phy.txLane) (fun l => { l with frames := false }) lp
        { lp with phy := { lp.phy with spareTrainAt := some (nowOf s p), spareFailAt := none } }) s))

/-- What a distributor's port counts (R69, R70, R76, R585): CNT_CLR clears the four counters of LINK_STS and nothing else; a
CRC-bad frame is counted in both counters and a NAK stands recorded; a sequenced frame of a reserved type in sequence counts
as unknown, one that the port does not permit as unexpected, and each counter stops at its maximum. A frame that finds its
group out of place is counted too (R70): a payload frame without an open header is accepted and discarded, and a header while
one is open discards the incomplete group and opens its own. -/
def Obligations.LinksCount : Prop :=
  ∀ (n : Fin 132) (s : State) (lane : Bool),
    (live s.dist.base = true → ∃ t, exec (.linkCntClr (.dist n)) s = .next t ∧
      (getPort t (.dist n)).cnt.crcErr = 0 ∧ (getPort t (.dist n)).cnt.retries = 0 ∧
      (getPort t (.dist n)).cnt.unknown = 0 ∧ (getPort t (.dist n)).cnt.unexpected = 0 ∧
      (getPort t (.dist n)).cnt.retryTotal = (getPort s (.dist n)).cnt.retryTotal ∧
      (getPort t (.dist n)).cnt.crcTotal = (getPort s (.dist n)).cnt.crcTotal ∧
      (getPort t (.dist n)).phy = (getPort s (.dist n)).phy ∧ (getPort t (.dist n)).arq = (getPort s (.dist n)).arq ∧
      t.dist.base = s.dist.base ∧ t.unit = s.unit ∧ ∀ q, q ≠ .dist n → getPort t q = getPort s q) ∧
    (∀ f, linkServes (.dist n) s → ∃ t, exec (.crcBadFrameRx (.dist n) lane f) s = .next t ∧
      (getPort t (.dist n)).cnt.crcErr = satInc 255 (getPort s (.dist n)).cnt.crcErr ∧
      (getPort t (.dist n)).cnt.crcTotal = satInc 0xFFFFFFFF (getPort s (.dist n)).cnt.crcTotal ∧
      (getPort t (.dist n)).arq.rxExp = (getPort s (.dist n)).arq.rxExp ∧
      (getPort t (.dist n)).arq.nak.isSome = true ∧ ∀ q, q ≠ .dist n → getPort t q = getPort s q) ∧
    (∀ seq typ body, inOrder ⟨.dist n, lane, seq, none⟩ s → typReserved typ = true → typSeq typ = true →
      ∃ t, exec (.reservedTypeFrameRx ⟨.dist n, lane, seq, none⟩ typ body) s = .next t ∧
        (getPort t (.dist n)).cnt.unknown = satInc 15 (getPort s (.dist n)).cnt.unknown ∧
        (getPort t (.dist n)).arq.rxExp = (getPort s (.dist n)).arq.rxExp + 1 ∧
        ∀ q, q ≠ .dist n → getPort t q = getPort s q) ∧
    (∀ seq typ body, inOrder ⟨.dist n, lane, seq, none⟩ s → typReserved typ = false → typSeq typ = true →
      typPermitted (.dist n) (typ.toNat % 32) = false →
      ∃ t, exec (.unexpectedFrameRx ⟨.dist n, lane, seq, none⟩ typ body) s = .next t ∧
        (getPort t (.dist n)).cnt.unexpected = satInc 15 (getPort s (.dist n)).cnt.unexpected ∧
        (getPort t (.dist n)).arq.rxExp = (getPort s (.dist n)).arq.rxExp + 1 ∧
        ∀ q, q ≠ .dist n → getPort t q = getPort s q) ∧
    (∀ seq typ body, inOrder ⟨.dist n, lane, seq, none⟩ s → typReserved typ = false → typPermitted (.dist n) (typ.toNat % 32) = true →
      outOfPlace (.dist n) typ s = true → ∃ t, exec (.unexpectedFrameRx ⟨.dist n, lane, seq, none⟩ typ body) s = .next t ∧
        (getPort t (.dist n)).cnt.unexpected = satInc 15 (getPort s (.dist n)).cnt.unexpected ∧
        (getPort t (.dist n)).arq.rxExp = (getPort s (.dist n)).arq.rxExp + 1 ∧
        openedOf (typ.toNat % 32) (getPort t (.dist n)).arq.opened = (if typ.toNat < 32 then [body] else []) ∧
        ∀ q, q ≠ .dist n → getPort t q = getPort s q)

/-- The sequence test of R74 on one frame of a reserved type at a distributor port: in sequence, the expected SEQ moves on by
one and an acknowledgement is due; a frame behind the expected SEQ leaves it and is answered with an ACK; one ahead of it
leaves it and is answered with a NAK that names the expected SEQ, unless such a NAK left less than 16 frame cycles ago (R76).
The frames of a group may come in parts, other frames between them (R68): a header and its first payload frames in sequence
stand open, and the rest completes them, at any port and for every type it permits. -/
def Obligations.SequenceTest : Prop :=
  (∀ (rx : Rx) (n : Fin 132) (s : State) (typ : BitVec 6) (body : BitVec 64), rx.port = .dist n → linkServes rx.port s →
    typReserved typ = true → typSeq typ = true → rx.part = none →
    (rx.seq = (getPort s rx.port).arq.rxExp → ∃ t, exec (.reservedTypeFrameRx rx typ body) s = .next t ∧
      (getPort t rx.port).arq.rxExp = (getPort s rx.port).arq.rxExp + 1 ∧ (getPort t rx.port).arq.ackDue.isSome = true) ∧
    (128 ≤ (rx.seq - (getPort s rx.port).arq.rxExp).toNat → ∃ t, exec (.reservedTypeFrameRx rx typ body) s = .next t ∧
      (getPort t rx.port).arq.rxExp = (getPort s rx.port).arq.rxExp ∧ (getPort t rx.port).arq.ackDue = none ∧
      (getPort t rx.port).arq.txq = (getPort s rx.port).arq.txq ++
        [txOne (nowOf s rx.port) 0 1 false 0x06 (bodyOf [(8, ((getPort s rx.port).arq.rxExp - 1).toNat)]) .none]) ∧
    (0 < (rx.seq - (getPort s rx.port).arq.rxExp).toNat → (rx.seq - (getPort s rx.port).arq.rxExp).toNat < 128 →
      (∀ e k, (getPort s rx.port).arq.nak = some (e, k) → e ≠ (getPort s rx.port).arq.rxExp ∨ k + 64 ≤ nowOf s rx.port) →
      ∃ t, exec (.reservedTypeFrameRx rx typ body) s = .next t ∧
      (getPort t rx.port).arq.rxExp = (getPort s rx.port).arq.rxExp ∧
      (getPort t rx.port).arq.nak = some ((getPort s rx.port).arq.rxExp, nowOf s rx.port) ∧
      (getPort t rx.port).arq.txq = (getPort s rx.port).arq.txq ++
        [txOne (nowOf s rx.port) 0 1 false 0x07 (bodyOf [(8, (getPort s rx.port).arq.rxExp.toNat), (2, 1)]) .none])) ∧
  (∀ (rx : Rx) (s : State) (f : BitVec 6 × BitVec 64) (a b : List (BitVec 6 × BitVec 64)), inOrder rx s → b ≠ [] →
    ∃ u, rxSeq { rx with part := some (0, a.length + 1) } true (f :: (a ++ b)) s = (false, u) ∧
      openedOf (f.1.toNat % 32) (getPort u rx.port).arq.opened = f.2 :: a.map (·.2) ∧
      (getPort u rx.port).arq.rxExp = rx.seq + BitVec.ofNat 8 (a.length + 1) ∧
      ∃ v, rxSeq { rx with seq := rx.seq + BitVec.ofNat 8 (a.length + 1), part := some (a.length + 1, b.length) } true
          (f :: (a ++ b)) u = (true, v) ∧
        openedOf (f.1.toNat % 32) (getPort v rx.port).arq.opened = [] ∧
        (getPort v rx.port).arq.rxExp = rx.seq + BitVec.ofNat 8 (a.length + b.length + 1))

/-- Reliable delivery at a distributor port (R73, R75, R77, R78, R105): an ACK that is due leaves; an ACK frame drops the
frames it covers from the replay buffer; a NAK that names a frame of the buffer starts a replay and any other NAK leaves the
buffers; the retry timer, counted from the oldest frame's most recent sending, starts a replay, and in LINK_ADMITTED after 16
replays of the oldest frame the link is dead whichever of the two asks for the next. An IDLE records the partner's lane state
(R56, R85). -/
def Obligations.DeliveryIsReliable : Prop :=
  ∀ (n : Fin 132) (s : State) (lane : Bool), linkServes (.dist n) s →
    (∀ k, (getPort s (.dist n)).arq.ackDue = some k → k + 16 ≤ nowOf s (.dist n) →
      exec (.ackTimer (.dist n)) s = .next (sendAck (.dist n) s)) ∧
    (∀ q, isRope n.val = false → ∃ t, exec (.ackRx ⟨.dist n, lane⟩ q) s = .next t ∧
      (getPort t (.dist n)).arq.replay = ackFrames q (getPort s (.dist n)).arq.replay ∧
      (getPort t (.dist n)).arq.txq = (getPort s (.dist n)).arq.txq ∧ t.dist.base = s.dist.base ∧
      ∀ x, x ≠ .dist n → getPort t x = getPort s x) ∧
    (∀ q r, (getPort s (.dist n)).arq.replay.any (fun x => x.1.seq == q) = true →
      (getPort s (.dist n)).arq.replays < 16 ∨ (getPort s (.dist n)).phy.st = .up →
      exec (.nakRx ⟨.dist n, lane⟩ q r) s = .next (startReplay (.dist n)
        (rxUns ⟨.dist n, lane⟩ true 0x07 (bodyOf [(8, q.toNat), (2, r.toNat)]) s).2)) ∧
    (∀ q r, (getPort s (.dist n)).arq.replay.any (fun x => x.1.seq == q) = true →
      16 ≤ (getPort s (.dist n)).arq.replays → (getPort s (.dist n)).phy.st = .admitted →
      exec (.nakRx ⟨.dist n, lane⟩ q r) s = .next (linkDead (.dist n)
        (rxUns ⟨.dist n, lane⟩ true 0x07 (bodyOf [(8, q.toNat), (2, r.toNat)]) s).2)) ∧
    (∀ q r, (getPort s (.dist n)).arq.replay.any (fun x => x.1.seq == q) = false →
      ∃ t, exec (.nakRx ⟨.dist n, lane⟩ q r) s = .next t ∧ (getPort t (.dist n)).arq = (getPort s (.dist n)).arq) ∧
    (∀ x k l, (getPort s (.dist n)).arq.replay = (x, k) :: l → x ∉ (getPort s (.dist n)).arq.resend →
      k + retryPeriod s (.dist n) ≤ nowOf s (.dist n) →
      ((getPort s (.dist n)).arq.replays < 16 ∨ (getPort s (.dist n)).phy.st = .up → exec (.retryTimerExpiry (.dist n)) s = .next (startReplay (.dist n) s)) ∧
      (16 ≤ (getPort s (.dist n)).arq.replays → (getPort s (.dist n)).phy.st = .admitted →
        exec (.retryTimerExpiry (.dist n)) s = .next (linkDead (.dist n) s))) ∧
    (∀ spareOk rxLane slipEn slip, ∃ t, exec (.idleRx ⟨.dist n, lane⟩ spareOk rxLane slipEn slip) s = .next t ∧
      (getPort t (.dist n)).phy.peerSpareOk = spareOk ∧ (getPort t (.dist n)).phy.peerRxLane = rxLane ∧
      (getPort t (.dist n)).arq = (getPort s (.dist n)).arq ∧ ∀ x, x ≠ .dist n → getPort t x = getPort s x)

/-- A replay resends every unacknowledged frame from the oldest, is counted and scored, and enters the swap window (R77, R79,
R86, R473). Where it fills the window the lanes are due to swap if the spare is warm, and SWAP_BLOCKED is recorded if it is
not (R86, R89). A port that is due to swap moves its transmitter to the spare lane: the old lane retrains, exchanges in flight
are discarded, the swap is counted and LANE_SWAP is logged, and it starts there with a replay (R87, R92). A port that has
waited 1 s in LINK_UP without admission logs ADMIT_WAIT once (R104). -/
def Obligations.LaneSwapAndAdmitWait : Prop :=
  ∀ (p : PortRef) (s : State), portRuns p s →
    ((getPort s p).arq.replay ≠ [] →
      (getPort (replayAll p s) p).arq.resend = (getPort s p).arq.replay.map (·.1) ∧
      (getPort (replayAll p s) p).arq.replays = (getPort s p).arq.replays + 1 ∧
      (getPort (replayAll p s) p).cnt.retries = satInc 255 (getPort s p).cnt.retries ∧
      (getPort (replayAll p s) p).cnt.retryTotal = satInc 0xFFFFFFFF (getPort s p).cnt.retryTotal ∧
      (getPort (replayAll p s) p).arq.bursts = nowOf s p :: burstsIn (nowOf s p) (swapWindow s p) (getPort s p).arq.bursts) ∧
    ((getPort s p).arq.replay = [] → replayAll p s = s) ∧
    (∀ u, u = replayAll p s → (getPort u p).arq.replay ≠ [] → swapBursts u p ≤ (getPort u p).arq.bursts.length →
      (spareWarm (nowOf u p) (echoInterval u p) (getPort u p) = true → (getPort (startReplay p s) p).arq.swapDue = true) ∧
      (spareWarm (nowOf u p) (echoInterval u p) (getPort u p) = false →
        (getPort (startReplay p s) p).arq.swapDue = false ∧ (getPort (startReplay p s) p).hlth.vSpare = true)) ∧
    (linkRuns (getPort s p) = true → (getPort s p).arq.swapDue = true →
      spareWarm (nowOf s p) (echoInterval s p) (getPort s p) = true →
      ∃ u, u = replayAll p (onPort p (swapLanes (nowOf s p)) s) ∧
        exec (.laneSwap p) s = .next (scorePort p 0x050 16 (portEvt p 2 (logPort p lkLaneSwap 0 0 u))) ∧
        (getPort u p).phy.txLane = (!(getPort s p).phy.txLane) ∧ (getPort u p).phy.spareTrainAt = some (nowOf s p) ∧
        (laneOf (getPort u p).phy (getPort s p).phy.txLane).frames = false ∧
        (getPort u p).arq.resend = (if (getPort s p).arq.replay = [] then (getPort s p).arq.resend
          else (getPort s p).arq.replay.map (·.1)) ∧
        (getPort u p).time.act.outs = [] ∧ (getPort u p).time.spare.outs = [] ∧ (getPort u p).time.spare.doneAt = none ∧
        (getPort u p).cnt.swaps = satInc 0xFFFFFFFF (getPort s p).cnt.swaps ∧ (getPort u p).hlth.vSwap = true) ∧
    (linkRuns (getPort s p) = false ∨ (getPort s p).arq.swapDue = false ∨
      spareWarm (nowOf s p) (echoInterval s p) (getPort s p) = false → exec (.laneSwap p) s = .next s) ∧
    ((getPort s p).phy.st = .up → (getPort s p).phy.waitLogged = false → (getPort s p).phy.stAt + 1000000000 ≤ nowOf s p →
      exec (.admitWaitTimer p) s = .next (logPort p lkAdmitWait 0 0 (onPort p (fun lp => { lp with phy := { lp.phy with
        waitLogged := true } }) s))) ∧
    ((getPort s p).phy.st ≠ .up ∨ (getPort s p).phy.waitLogged = true → exec (.admitWaitTimer p) s = .next s)
/-! ## Echo, TIME and EPOCH -/

/-- Echo at a distributor port that is not muted (R93 to R98): on an admitted port an exchange that is due leaves as an
ECHO_REQ, and no other; an ECHO_REQ is answered on the pair it names; the ECHO_RSP of an exchange in flight completes it
within one interval of its T1, with the delay and the offset of R95 less the asymmetry of R96, on the pair it names and on no
other; an exchange not answered within one interval is lost and counted, and on the active pair the limit raises ECHO_LOST,
once. The clauses on the active pair are for the ports that feed no servo. -/
def Obligations.EchoExchanges : Prop :=
  ∀ (n : Fin 132) (s : State) (lane spare : Bool) (p : PortRef), p = .dist n → linkServes p s → echoMuted s p = false →
    ((getPort s p).phy.st = .admitted → echoDue s p spare = true →
      exec (.echoIntervalTimer p spare) s =
        .next (sendUns p spare 4 0x04 (echoReqBody (pairOf (getPort s p) spare).nextId.toNat spare) .echoReq
          (onPort p (onPair spare fun x => { x with nextId := x.nextId + 1, initAt := some (nowOf s p) }) s))) ∧
    ((getPort s p).phy.st = .up ∨ echoDue s p spare = false → exec (.echoIntervalTimer p spare) s = .next s) ∧
    (∀ id t1 frac, ∃ t, exec (.echoReqRx ⟨p, lane⟩ spare id t1 frac) s = .next t ∧
      (getPort t p).arq = { (getPort s p).arq with
        txq := (getPort s p).arq.txq ++ (if spare then [] else [txOne (nowOf s p) 0 4 false 0x05
          (bodyOf [(32, stampOf s p frac.toNat), (24, 0), (6, id.toNat), (1, 0)]) (.echoRsp (stampOf s p frac.toNat))]),
        spq := (getPort s p).arq.spq ++ (if spare then [txOne (nowOf s p) 0 4 false 0x05
          (bodyOf [(32, stampOf s p frac.toNat), (24, 0), (6, id.toNat), (1, 1)]) (.echoRsp (stampOf s p frac.toNat))]
          else []) } ∧
      t.dist.base = s.dist.base ∧ ∀ q, q ≠ p → getPort t q = getPort s q) ∧
    (∀ e id t2 resid frac f r, spare = true ∨ isUp n.val = false → (getPort s p).phy.st = .admitted →
      (pairOf (getPort s p) spare).outs.find? (fun x => x.id == id) = some e → echoOver (nowOf s p) (echoInterval s p) e = false →
      ∃ t, exec (.echoRspRx ⟨p, lane⟩ spare id t2 resid frac f r) s = .next t ∧
        (pairOf (getPort t p) spare).outs = (pairOf (getPort s p) spare).outs.filter (fun x => x.id != id) ∧
        (pairOf (getPort t p) spare).lost = 0 ∧ (pairOf (getPort t p) spare).doneAt = some (nowOf s p) ∧
        (pairOf (getPort t p) spare).dly = echoDelay e.t1 (extendHt 32 e.t1 t2.toNat)
          (extendHt 32 e.t1 t2.toNat + resid.toNat) (stampOf s p frac.toNat) ∧
        (pairOf (getPort t p) spare).ofs = echoRaw e.t1 (extendHt 32 e.t1 t2.toNat)
          (extendHt 32 e.t1 t2.toNat + resid.toNat) (stampOf s p frac.toNat) -
            asymUsed s p ((getPort s p).phy.txLane != spare) lane f r ∧
        pairOf (getPort t p) (!spare) = pairOf (getPort s p) (!spare) ∧ t.dist.base = s.dist.base ∧
        ∀ q, q ≠ p → getPort t q = getPort s q) ∧
    (spare = true ∨ isUp n.val = false → (pairOf (getPort s p) spare).outs.any (echoOver (nowOf s p) (echoInterval s p)) = true →
      ∃ u, u = onPort p (onPair spare (loseOver (nowOf s p) (echoInterval s p))) s ∧
        (spare = true → exec (.echoExchangeTimeout p spare) s = .next u) ∧
        (spare = false → exec (.echoExchangeTimeout p spare) s =
          .next (if !(getPort s p).time.echoLost && decide (echoLossLimit s p ≤ (getPort u p).time.act.lost) then echoLostOp p u
            else u)) ∧
        (isUp n.val = false → (getPort (echoLostOp p u) p).time.echoLost = true)) ∧
    ((pairOf (getPort s p) spare).outs.any (echoOver (nowOf s p) (echoInterval s p)) = false →
      exec (.echoExchangeTimeout p spare) s = .next s)

/-- TIME and EPOCH (R22, R27, R28, R83, R99, R164): a TIME frame on a unit's port or on an upward port of a distributor is
received and acted on by its part; on any other port of a distributor it is not permitted, counts as unexpected and leaves the
base; the root sends TIME downward at the frame cycles' interval and not before; an EPOCH frame in sequence is acted on at a
port that permits it and counted as unexpected at any other. -/
def Obligations.TimeFrames : Prop :=
  ∀ (s : State) (lane : Bool),
    (∀ (d : Dom) (ns : BitVec 48) (gen : BitVec 16) (frac : BitVec 6), linkServes (.unit d) s →
      exec (.timeRx ⟨.unit d, lane⟩ ns gen frac) s =
        .next (timeOp (.unit d) ns gen frac.toNat (rxUns ⟨.unit d, lane⟩ true 0x03 (ns ++ gen) s).2)) ∧
    (∀ (n : Fin 132) (ns : BitVec 48) (gen : BitVec 16) (frac : BitVec 6), linkServes (.dist n) s →
      (isUp n.val = true → exec (.timeRx ⟨.dist n, lane⟩ ns gen frac) s =
        .next (timeOp (.dist n) ns gen frac.toNat (rxUns ⟨.dist n, lane⟩ true 0x03 (ns ++ gen) s).2)) ∧
      (isUp n.val = false → ∃ t, exec (.timeRx ⟨.dist n, lane⟩ ns gen frac) s = .next t ∧ t.dist.base = s.dist.base ∧
        (getPort t (.dist n)).cnt.unexpected = satInc 15 (getPort s (.dist n)).cnt.unexpected)) ∧
    (rootRuns s → s.dist.base.valid = true → s.dist.adm.timeAt + rdF s.dist.base 0x1064 0 16 * 4 ≤ s.dist.base.tick →
      exec .rootTimeTimer s = .next (timeDown 0 (onDist (onAdm fun a => { a with timeAt := s.dist.base.tick }) s))) ∧
    (∀ (rx : Rx) (gen : BitVec 16) (applied : BitVec 48), inOrder rx s → permDown rx.port = true →
      exec (.epochFrameRx rx gen applied) s =
        .next (epochOp rx.port gen applied (rxSeq rx true [(0x12, epochBody gen.toNat applied)] s).2)) ∧
    (rootRuns s → s.dist.base.valid = false ∨ s.dist.base.tick < s.dist.adm.timeAt + rdF s.dist.base 0x1064 0 16 * 4 →
      exec .rootTimeTimer s = .next s) ∧
    (∀ (rx : Rx) (gen : BitVec 16) (applied : BitVec 48), inOrder rx s → permDown rx.port = false →
      ∃ t, exec (.epochFrameRx rx gen applied) s = .next t ∧ t.dist.base = s.dist.base ∧
        (getPort t rx.port).cnt.unexpected = satInc 15 (getPort s rx.port).cnt.unexpected)

/-- The first load (R22, R164): a TIME frame of the active partner at a unit in ACQUIRE whose counter is not valid makes the
counter valid, once two exchanges with that partner have completed; before that it does not. -/
def Obligations.FirstLoad : Prop :=
  ∀ (s : State) (d : Dom) (lane : Bool) (ns : BitVec 48) (gen : BitVec 16) (frac : BitVec 6), linkServes (.unit d) s →
    (getPort s (.unit d)).phy.st = .admitted → s.unit.base.valid = false → tckState s.unit = 4 →
    stsBit s .unit 4 = decide (d = .b) →
    ∃ t, exec (.timeRx ⟨.unit d, lane⟩ ns gen frac) s = .next t ∧
      t.unit.base.valid = decide (2 ≤ (getPort s (.unit d)).time.act.done) ∧ t.dist = s.dist

/-! ## Admission -/

/-- HELLO and ADMIT (R34, R72, R534 to R538, R619): a port in LINK_UP that sends HELLO and has sent none, or sent the last one
1 ms ago, sends it and expects SEQ 0 again, and a Rope port is then tested for admission; a HELLO on a downstream or Rope port is kept and acted on; the next
slot of the rotation opens 200 µs after the last and examines its port; an ADMIT in sequence is acted on by its part. -/
def Obligations.AdmissionRuns : Prop :=
  ∀ s : State,
    (∀ (p : PortRef) (u : State), portRuns p s → (getPort s p).phy.st = .up → sendsHello p = true →
      ((getPort s p).adm.sentAt = none ∨ (∃ t, (getPort s p).adm.sentAt = some t ∧ t + 1000000 ≤ nowOf s p)) → u = onPort p (fun lp => { lp with
          adm := { lp.adm with sent := true, sentAt := some (nowOf s p) },
          arq := { lp.arq with rxExp := 0, ackDue := none, nak := none } })
        (sendUns p false 7 0x01 (ownHello s p) .none s) →
      (∀ n, p = .dist n → isRope n.val = true → exec (.helloTimer p) s = .next (ropeTest n u)) ∧
      ((∀ n, p = .dist n → isRope n.val = false) → exec (.helloTimer p) s = .next u)) ∧
    (∀ (n : Fin 132) (lane : Bool) (kind : BitVec 4) (domB : Bool) (tier : BitVec 2) (dkey : Word) (stepping : BitVec 8)
        (gen : BitVec 16) (valid : Bool), linkServes (.dist n) s → (permUp (.dist n) || permRope (.dist n)) = true →
      exec (.helloRx ⟨.dist n, lane⟩ kind domB tier dkey stepping gen valid) s =
        .next (helloRxOp n { kind := kind, domB := domB, tier := tier, gen := gen, valid := valid, dkey := dkey,
                             stepping := stepping, at_ := s.dist.base.tick }
          (rxUns ⟨.dist n, lane⟩ true 0x01 (helloBody kind.toNat domB tier.toNat dkey stepping.toNat gen.toNat valid) s).2)) ∧
    (rotationRuns s.dist = true → (∀ t, s.dist.adm.slotAt = some t → t + 200000 ≤ s.dist.base.tick) →
      ∃ t, exec .admissionSlot s = .next t ∧
        t = examine (if h : s.dist.adm.slot % 128 < 132 then ⟨s.dist.adm.slot % 128, h⟩ else 0)
          (onDist (onAdm fun a => { a with slot := (s.dist.adm.slot % 128 + 1) % 128, slotAt := some s.dist.base.tick }) s)) ∧
    (∀ (d : Dom) (lane : Bool) (seq : BitVec 8) (uid : BitVec 20) (port : BitVec 8) (domB : Bool) (tier : BitVec 2) (dkey : Word)
        (child : Bool), inOrder ⟨.unit d, lane, seq, none⟩ s →
      exec (.admitRx ⟨.unit d, lane, seq, none⟩ uid port domB tier dkey child) s =
        .next (unitAdmit d uid.toNat port.toNat domB tier.toNat dkey
          (rxSeq ⟨.unit d, lane, seq, none⟩ true [(0x02, admitBody uid.toNat port.toNat domB tier.toNat dkey child)] s).2)) ∧
    (∀ (n : Fin 132) (lane : Bool) (seq : BitVec 8) (uid : BitVec 20) (port : BitVec 8) (domB : Bool) (tier : BitVec 2)
        (dkey : Word) (child : Bool), isUp n.val = true → inOrder ⟨.dist n, lane, seq, none⟩ s →
      exec (.admitRx ⟨.dist n, lane, seq, none⟩ uid port domB tier dkey child) s =
        .next (distAdmit n port.toNat tier.toNat domB dkey
          (rxSeq ⟨.dist n, lane, seq, none⟩ true [(0x02, admitBody uid.toNat port.toNat domB tier.toNat dkey child)] s).2))

/-! ## Resets and start-up -/

/-- The distributor's resets and start-up (R523 to R529): a supply fault holds it unpowered with every register but the fuse's
at its reset value, and it leaves that state into reset when the supplies have settled; RST_N keeps DET_CTL, XO_CTL and the page
locks, and nothing else but the fuse; release samples the straps and starts SRAM initialisation; 262,144
ticks later the distributor runs; PERST returns the MSI-X structures to their reset values and changes no other register
(R526). -/
def Obligations.DistributorStartsUp : Prop :=
  ∀ s : State,
    (∃ t, exec .supplyFault s = .next t ∧ t.unit = s.unit ∧ t.dist.base.phase = .unpowered ∧ t.dist.base.valid = false ∧
      t.dist.base.ns = 0 ∧ t.dist.base.kind = s.dist.base.kind ∧ t.dist.base.log = [] ∧ t.dist.ports = [] ∧
      (∀ a, a ≠ 0x0D048 → rd t.dist.base a = resetOf s.dist.base.kind a) ∧
      rdB t.dist.base 0x0D048 2 = rdB s.dist.base 0x0D048 2) ∧
    (s.dist.base.phase = .unpowered → ∃ t, exec .powerOnReset s = .next t ∧ t.unit = s.unit ∧ t.dist.base.phase = .reset) ∧
    (s.dist.base.phase ≠ .unpowered → exec .powerOnReset s = .next s ∧
      ∃ t, exec .warmReset s = .next t ∧ t.unit = s.unit ∧ t.dist.base.phase = .reset ∧ t.dist.base.valid = false ∧
        t.dist.base.log = [] ∧ t.dist.ports = [] ∧
        (∀ a ∈ distKept s.dist.base, rd t.dist.base a = rd s.dist.base a) ∧
        (∀ a, a ∉ distKept s.dist.base → a ≠ 0x0D048 → rd t.dist.base a = resetOf s.dist.base.kind a)) ∧
    (s.dist.base.phase = .unpowered → exec .warmReset s = .next s) ∧
    (∀ root domB tier smba, s.dist.base.phase = .reset → ∃ t, exec (.distResetRelease root domB tier smba) s = .next t ∧
      t.unit = s.unit ∧ t.dist.base.phase = .init ∧ t.dist.base.phaseAt = s.dist.base.tick ∧
      t.dist.base.kind = .dist (sampled root domB tier smba) ∧ (root = true → t.dist.base.valid = true ∧ t.dist.base.ns = 0)) ∧
    (s.dist.base.phase = .init → s.dist.base.phaseAt + 262144 ≤ s.dist.base.tick →
      ∃ t, exec .distSramInitDone s = .next t ∧ t.unit = s.unit ∧ t.dist.base.phase = .run) ∧
    (live s.dist.base = true → ∃ t, exec .perst s = .next t ∧ t.unit = s.unit ∧ t.dist.ports = s.dist.ports ∧
      t.dist.base.phase = s.dist.base.phase ∧ t.dist.base.ns = s.dist.base.ns ∧ t.dist.base.evc.msixEn = false ∧
      (∀ a, ¬(0x0FE00 ≤ a ∧ a < 0x0FF08) → rd t.dist.base a = rd s.dist.base a) ∧
      (∀ a, 0x0FE00 ≤ a → a < 0x0FF08 → rd t.dist.base a = resetOf s.dist.base.kind a))

/-- The unit's resets and start-up (R22, R29, R530, R531): a reset holds it with NS 0 and VALID 0, its log and ports empty and
every register it does not keep at its reset value; release starts SRAM initialisation, and when that is done the unit runs;
RELOAD in the state it needs makes the counter not valid, and in any other is denied and logged. -/
def Obligations.UnitStartsUp : Prop :=
  ∀ s : State,
    (∀ porst, ∃ t, exec (.unitReset porst) s = .next t ∧ t.dist = s.dist ∧ t.unit.base.phase = .reset ∧
      t.unit.base.valid = false ∧ t.unit.base.ns = 0 ∧ t.unit.base.log = [] ∧ t.unit.portA = {} ∧ t.unit.portB = {} ∧
      t.unit.base.kind = s.unit.base.kind ∧
      (∀ a, a ∉ (if porst then [] else [0x00064]) ++ traceRegs ++ lockAddrs s.unit.base →
        rd t.unit.base a = resetOf s.unit.base.kind a)) ∧
    (s.unit.base.phase = .reset → ∃ t, exec .unitResetRelease s = .next t ∧ t.dist = s.dist ∧ t.unit.base.phase = .init ∧
      t.unit.base.phaseAt = s.unit.base.tick ∧ t.unit.base.valid = s.unit.base.valid) ∧
    (s.unit.base.phase = .init → s.unit.base.phaseAt + unitInitTicks s.unit ≤ s.unit.base.tick →
      ∃ t, exec .unitSramInitDone s = .next t ∧ t.dist = s.dist ∧ t.unit.base.phase = .run) ∧
    (live s.unit.base = true → tckState s.unit = 7 → ∃ t, exec .tckReload s = .next t ∧ t.dist = s.dist ∧
      t.unit.base.valid = false) ∧
    (live s.unit.base = true → tckState s.unit ≠ 7 →
      exec .tckReload s = .next (logU uReloadDenied noPort 0 0 0 s))

/-! ## The debug trace -/

/-- DBG.CMD (R593, R594): ARM empties the trace and starts it, TRIGGER names its newest entry, STOP ends it, and INJECT arms
one error on the memory and bit of INJ_CTL unless one is armed. -/
def Obligations.DebugTrace : Prop :=
  ∀ s : State, live s.unit.base = true →
    (exec .dbgArm s = .next { s with unit := { s.unit with dbg := { s.unit.dbg with
      held := [], running := true, trig := false, wrapped := false, trigIdx := 0, post := none } } }) ∧
    (exec .dbgTrigger s = .next { s with unit := traceTrigger (s.unit.dbg.held.length - 1) s.unit }) ∧
    (exec .dbgStop s = .next { s with unit := traceStop s.unit }) ∧
    (s.unit.dbg.inject = none → exec .dbgInject s = .next { s with unit := { s.unit with dbg := { s.unit.dbg with
      inject := some (rdF s.unit.base 0x16074 0 3, rdF s.unit.base 0x16074 8 7) } } }) ∧
    (s.unit.dbg.inject.isSome = true → exec .dbgInject s = .next s)

/-! ## Health, expulsion and stopping -/

/-- Health of ports (R466, R472 to R477): a HEALTH frame in sequence on an admitted downstream or Rope port is acted on by its
kind; an admitted port that votes sends its vote each period and starts counting again; at the decay interval a lone port's
score s loses ceil(s / 16); a sole candidate is expelled, or marked with the first condition that fails; READMIT clears the
port's expulsion and score and leaves every other port. A vote, a decay or an evaluation that is not due does nothing, and an
evaluation with no candidate notes only that it took place. -/
def Obligations.HealthOfPorts : Prop :=
  ∀ (s : State) (n : Fin 132), distRuns s →
    (∀ rx uid dist kind code detail, (permUp rx.port || permRope rx.port) = true → inOrderAdmitted rx n s →
      exec (.healthRx rx uid dist kind code detail) s =
        .next (healthOp n.val uid.toNat dist kind.toNat code detail.toNat
          (healthBody uid.toNat dist kind.toNat code.toNat detail.toNat)
          (rxSeq rx true [(0x10, healthBody uid.toNat dist kind.toNat code.toNat detail.toNat)] s).2)) ∧
    (isDown n.val = false → (getPort s (.dist n)).phy.st = .admitted →
      (getPort s (.dist n)).hlth.voteAt + votePeriod s (.dist n) ≤ s.dist.base.tick →
      exec (.healthVoteSend (.dist n)) s = .next (sendSeq (.dist n) 0 7 0x10
        (healthBody 0 true 0x20 0 (voteDetail (getPort s (.dist n)).hlth)) []
        (onPort (.dist n) (fun lp => { lp with hlth := { lp.hlth with
          vCrc := 0, vRetry := 0, vSwap := false, vSpare := false, vEcho := false, voteAt := s.dist.base.tick } }) s))) ∧
    (∀ lp, s.dist.adm.decayAt + rdF s.dist.base 0x0C048 0 8 * 100000000 ≤ s.dist.base.tick → s.dist.ports = [(n.val, lp)] →
      lp ≠ {} → ∃ t, exec .healthDecay s = .next t ∧ t.dist.base = s.dist.base ∧ t.unit = s.unit ∧
        (getPort t (.dist n)).hlth.score = lp.hlth.score - (lp.hlth.score + 15) / 16 ∧
        (getPort t (.dist n)).hlth.lived = admitted lp ∧ (getPort t (.dist n)).phy = lp.phy) ∧
    (s.dist.adm.evalAt + rdF s.dist.base 0x0C044 0 8 * 1000000 ≤ s.dist.base.tick → candidates s.dist = [n.val] →
      (expelCause (onAdm (fun a => { a with evalAt := s.dist.base.tick }) s.dist) n.val = 0 →
        exec .expulsionEvaluate s = .next (expelPort n.val (onDist (onAdm fun a => { a with evalAt := s.dist.base.tick }) s))) ∧
      (∀ c, expelCause (onAdm (fun a => { a with evalAt := s.dist.base.tick }) s.dist) n.val = c + 1 →
        exec .expulsionEvaluate s =
          .next (wouldExpel n.val (c + 1) (onDist (onAdm fun a => { a with evalAt := s.dist.base.tick }) s)))) ∧
    ((getPort s (.dist n)).phy.st ≠ .admitted ∨ votes (.dist n) = false ∨
      s.dist.base.tick < (getPort s (.dist n)).hlth.voteAt + votePeriod s (.dist n) →
      exec (.healthVoteSend (.dist n)) s = .next s) ∧
    (s.dist.base.tick < s.dist.adm.decayAt + rdF s.dist.base 0x0C048 0 8 * 100000000 → exec .healthDecay s = .next s) ∧
    (s.dist.base.tick < s.dist.adm.evalAt + rdF s.dist.base 0x0C044 0 8 * 1000000 → exec .expulsionEvaluate s = .next s) ∧
    (s.dist.adm.evalAt + rdF s.dist.base 0x0C044 0 8 * 1000000 ≤ s.dist.base.tick → candidates s.dist = [] →
      exec .expulsionEvaluate s = .next (onDist (onAdm fun a => { a with evalAt := s.dist.base.tick }) s)) ∧
    (∃ t, exec (.healthReadmit n) s = .next t ∧ (getPort t (.dist n)).hlth.expelled = false ∧
      (getPort t (.dist n)).hlth.would = false ∧ (getPort t (.dist n)).hlth.score = 0 ∧
      portEn t (.dist n) = portEn s (.dist n) ∧ ∀ q, q ≠ .dist n → getPort t q = getPort s q)

/-- A distributor stops itself (R469 to R471, R638): a watchdog, a fatal memory error or a temperature of 125 °C or more puts
it in the stopped phase, with no frame queued on any port; its hall time stands as it was. Below the trip point a sample is
recorded and the distributor goes on. -/
def Obligations.DistributorStops : Prop :=
  ∀ s : State, distRuns s →
    (∀ engine : BitVec 3, ∃ t, exec (.wdogFail engine) s = .next t ∧ t.dist.base.phase = .stopped ∧ t.unit = s.unit ∧
      t.dist.base.ns = s.dist.base.ns ∧ t.dist.base.kind = s.dist.base.kind ∧ ∀ n : Fin 132, (getPort t (.dist n)).arq = {}) ∧
    (∀ mem : BitVec 8, ∃ t, exec (.distMemFatal mem) s = .next t ∧ t.dist.base.phase = .stopped ∧ t.unit = s.unit ∧
      t.dist.base.ns = s.dist.base.ns ∧ t.dist.base.kind = s.dist.base.kind ∧ ∀ n : Fin 132, (getPort t (.dist n)).arq = {}) ∧
    (∀ (k : BitVec 2) (temp : BitVec 12), 1000 ≤ temp.toInt →
      ∃ t, exec (.thmSample k temp) s = .next t ∧ t.dist.base.phase = .stopped ∧ t.unit = s.unit ∧
        t.dist.base.ns = s.dist.base.ns ∧ ∀ n : Fin 132, (getPort t (.dist n)).arq = {}) ∧
    (∀ (k : BitVec 2) (temp : BitVec 12), temp.toInt < 1000 →
      ∃ t, exec (.thmSample k temp) s = .next t ∧ t.dist.base.phase = .run ∧ t.dist.ports = s.dist.ports ∧
        rd t.dist.base (thmTemp k.toNat) = BitVec.ofNat 32 (2 ^ 31 + temp.toNat))

/-- Sensors (R617, R638): a sensor without a valid sample 10 ms after reset is logged once, and one that has
its sample, or is still within the 10 ms, is not; CLR_MAX clears MAX alone. -/
def Obligations.SensorsReport : Prop :=
  ∀ s : State, live s.dist.base = true →
    (∀ k : BitVec 2, thmValid s.dist.base k.toNat = none → s.dist.adm.thmFailed.getLsbD k.toNat = false →
      s.dist.base.phaseAt + 10000000 ≤ s.dist.base.tick →
      exec (.thmSensorFail k) s = .next (logD dThmSensorFail noPort k.toNat 0 0
        (onDist (onAdm fun a => { a with thmFailed := a.thmFailed ||| BitVec.ofNat 4 (2 ^ k.toNat) }) s))) ∧
    (∀ k : BitVec 2, s.dist.adm.thmFailed.getLsbD k.toNat = true ∨ thmValid s.dist.base k.toNat ≠ none ∨
      s.dist.base.tick < s.dist.base.phaseAt + 10000000 → exec (.thmSensorFail k) s = .next s) ∧
    (∃ t, exec .thmClrMax s = .next t ∧ rd t.dist.base 0x13050 = 0 ∧ t.unit = s.unit ∧ t.dist.ports = s.dist.ports ∧
      ∀ a, a ≠ 0x13050 → rd t.dist.base a = rd s.dist.base a)

/-- Muting and the lead (R180, R484 to R489): a distributor that is no root mutes when HOLD_MUTE has passed in holdover; a
root whose Rope ports have been down for 1,024 ticks, with more than half of its children's reports standing, takes the lead
as sole root; one whose Rope ports have then been down for 50 µs more without those reports logs the loss; a domain B sole root
hands the lead back once Rope carries again. Where one of these conditions fails nothing happens. -/
def Obligations.MuteAndLead : Prop :=
  ∀ s : State, distRuns s →
    (isRoot s.dist = false → stsBit s .dist 3 = true → muted s.dist = false →
      (servoOf s .dist).holdAt + rdF s.dist.base 0x9060 0 17 * 1000 ≤ s.dist.base.tick →
      ∃ t, exec .distMute s = .next t ∧ muted t.dist = true ∧ t.dist.ports = s.dist.ports ∧ t.unit = s.unit) ∧
    (isRoot s.dist = true → s.dist.cmb.sole = false → ropeDownFor s.dist 1024 = true →
      childPorts s.dist < 2 * rootReports s.dist → ∃ t, exec .soleRoot s = .next t ∧ t.unit = s.unit ∧
        t = launchTake (distSettleAll (logD dLeadTaken noPort 0 0 0
          (onDist (fun d => setLead true (onCmb (fun c => { c with sole := true, handFrom := [] }) d)) s)))) ∧
    (isRoot s.dist = true → s.dist.cmb.sole = false → s.dist.rope.lostLogged = false → ropeDownFor s.dist 51024 = true →
      2 * rootReports s.dist ≤ childPorts s.dist → exec .rootRopeLost s = .next (logD dRootRopeLost noPort 0 0 0
        { s with dist := { s.dist with rope := { s.dist.rope with lostLogged := true } } })) ∧
    (isRoot s.dist = true → distDomB s.dist = true → s.dist.cmb.sole = true → isLead s.dist = true → ropeUp s.dist = true →
      ∃ t, exec .leadHandback s = .next t ∧ isLead t.dist = false ∧ t.dist.cmb.sole = false ∧ t.unit = s.unit) ∧
    (isRoot s.dist = true ∨ stsBit s .dist 3 = false ∨ muted s.dist = true ∨
      s.dist.base.tick < (servoOf s .dist).holdAt + rdF s.dist.base 0x9060 0 17 * 1000 → exec .distMute s = .next s) ∧
    (isRoot s.dist = false ∨ s.dist.cmb.sole = true ∨ ropeDownFor s.dist 1024 = false ∨
      2 * rootReports s.dist ≤ childPorts s.dist → exec .soleRoot s = .next s) ∧
    (isRoot s.dist = false ∨ s.dist.cmb.sole = true ∨ s.dist.rope.lostLogged = true ∨ ropeDownFor s.dist 51024 = false ∨
      childPorts s.dist < 2 * rootReports s.dist → exec .rootRopeLost s = .next s) ∧
    (isRoot s.dist = false ∨ distDomB s.dist = false ∨ s.dist.cmb.sole = false ∨ isLead s.dist = false ∨
      ropeUp s.dist = false → exec .leadHandback s = .next s)

/-! ## The fault log -/

/-- Keeping entries (R456, R458). An entry takes its place before the entries of its own tick with a greater CODE and after all
others, and nothing else moves. One equal to the newest before its place in CODE, PORT, OBJ, UNIT and REMOTE adds none. Any other
of kind 0 to 2 is entered while at least two entries are free, one of kind 3 while one is, with GAP where one was dropped before
it; one that finds no entry it may use is dropped, counted in FLT.LOST, and the next accepted entry carries GAP. The count of
its kind goes up by one, saturating, whether or not the entry is kept. -/
def Obligations.LogKeepsItsEntries : Prop :=
  ∀ (pg : Option (Nat × Nat)) (e : LogEntry) (b : Base),
    logHead e b.log ++ logTail e b.log = b.log ∧
    (∀ x ∈ logTail e b.log, x.tick = e.tick ∧ e.code.toNat < x.code.toNat) ∧
    (∀ x, (logHead e b.log).getLast? = some x → x.tick ≠ e.tick ∨ x.code.toNat ≤ e.code.toNat) ∧
    (logMerges b e = true → (addEntry pg e b).log = bumpLast (logHead e b.log) ++ logTail e b.log) ∧
    (logMerges b e = false →
      rd (addEntry pg e b) (cntAddr b e.kind.toNat) =
        (if rd b (cntAddr b e.kind.toNat) = 0xFFFFFFFF then 0xFFFFFFFF else rd b (cntAddr b e.kind.toNat) + 1) ∧
      (b.log.length + (if e.kind = 3 then 1 else 2) ≤ (if isUnit b then 128 else 1024) →
        (addEntry pg e b).log = logHead e b.log ++ { e with gap := b.logGap } :: logTail e b.log ∧
        (addEntry pg e b).logGap = false) ∧
      ((if isUnit b then 128 else 1024) < b.log.length + (if e.kind = 3 then 1 else 2) →
        (addEntry pg e b).log = b.log ∧ (addEntry pg e b).logGap = true ∧
        rd (addEntry pg e b) (pageAddr (fltPage b) 0x054) =
          (if rd b (pageAddr (fltPage b) 0x054) = 0xFFFFFFFF then 0xFFFFFFFF else rd b (pageAddr (fltPage b) 0x054) + 1)))

/-- FIRST (R460): while it is empty it takes the first entry of kind Fault or Fatal that the log takes, and no other entry;
while it holds one no entry changes it, but one that comes before it by its CODE on the same tick; CLR_FIRST empties it; removal
from the log does not change it; and FIRST_0 to FIRST_3 read its four words, 0 when it holds none. -/
def Obligations.FirstFaultStays : Prop :=
  (∀ (pg : Option (Nat × Nat)) (e : LogEntry) (b : Base),
    (∀ f, b.first = some f → f.tick ≠ e.tick ∨ f.code.toNat ≤ e.code.toNat ∨ e.kind.toNat < 2 ∨ logMerges b e = true ∨
      logAccepts b e = false → (addEntry pg e b).first = some f) ∧
    (∀ f, b.first = some f → f.tick = e.tick → e.code.toNat < f.code.toNat → 2 ≤ e.kind.toNat → logMerges b e = false →
      logAccepts b e = true → (addEntry pg e b).first = some { e with gap := false }) ∧
    (b.first = none → e.kind.toNat < 2 ∨ logMerges b e = true ∨ logAccepts b e = false → (addEntry pg e b).first = none) ∧
    (b.first = none → 2 ≤ e.kind.toNat → logMerges b e = false → logAccepts b e = true →
      (addEntry pg e b).first = some { e with gap := false })) ∧
  (∀ (s : State) (part : Part), live (partBase s part) = true → ∃ t, exec (.fltClrFirst part) s = .next t ∧
    (partBase t part).first = none) ∧
  (∀ (ch : Nat) (b : Base), (recRead ch b).2.first = b.first) ∧
  (∀ (s : State) (i : Nat), i < 4 → regValue s .unit 0x13 (0x070 + 4 * i) = entryWord s.unit.base.first i ∧
    regValue s .dist 0x10 (0x070 + 4 * i) = entryWord s.dist.base.first i) ∧
  ∀ i, entryWord none i = 0

/-- The log's commands (R459, R460) at either part: a read of REC_0 returns bits [31:0] of the oldest entry, removes it and
leaves the others; FLUSH empties the log; CLR_FIRST empties FIRST; and no register changes. -/
def Obligations.LogCommands : Prop :=
  ∀ (s : State) (part : Part) (ch : BitVec 3), live (partBase s part) = true →
    (∃ t, exec (.fltRecRead part ch) s = .next t ∧ (partBase t part).log = (partBase s part).log.drop 1 ∧
      (partBase t part).outs = (partBase s part).outs ++ [.regData part ch (entryWord (partBase s part).log.head? 0) 0] ∧
      (partBase t part).first = (partBase s part).first ∧ (partBase t part).regs = (partBase s part).regs) ∧
    (∃ t, exec (.fltFlush part) s = .next t ∧ (partBase t part).log = [] ∧
      (partBase t part).first = (partBase s part).first ∧ (partBase t part).regs = (partBase s part).regs) ∧
    (∃ t, exec (.fltClrFirst part) s = .next t ∧ (partBase t part).first = none ∧
      (partBase t part).log = (partBase s part).log ∧ (partBase t part).regs = (partBase s part).regs)

/-! ## The event controller and Lantern -/

/-- Writing 1 to a bit of PEND_SET_w is an occurrence of that pulse source, moderated like any other; bits of level sources
and of sources that are absent have no effect, nor has a bit written as 0 (R447). -/
def Obligations.PendSetOccurs : Prop :=
  ∀ (s : State) (part : Part) (w : BitVec 4) (i : Fin 32), live (partBase s part) = true →
    ((srcExists (partBase s part) (32 * w.toNat + i) && !srcLevel (partBase s part) (32 * w.toNat + i)) = true →
      exec (.pendSet part w 0xF (BitVec.ofNat 32 (2 ^ i.val))) s = .next (onPartBase part (occur (32 * w.toNat + i)) s)) ∧
    (srcLevel (partBase s part) (32 * w.toNat + i) = true ∨ srcExists (partBase s part) (32 * w.toNat + i) = false →
      exec (.pendSet part w 0xF (BitVec.ofNat 32 (2 ^ i.val))) s = .next s) ∧
    (∀ be, exec (.pendSet part w be 0) s = .next s) ∧ ∀ data, exec (.pendSet part w 0 data) s = .next s

/-- Inputs and moderation (R419, R421, R422, R438): a host event that rises, on a pulse source, is an occurrence, and an EVIN
edge is one where its mode says so; a source in no group, or in an idle group without a hold-off, becomes pending at once; in an
idle group with a hold-off it becomes pending and the group's timer starts; in a timing group it is held; and a timer that has
run with nothing held returns its group to idle, with a held source makes its occurrences pending and starts again, and one
that has not run does nothing.
Pending and mask words (R445, R446): a read of PEND_w returns the word and clears its fresh flags; a write of 0 to one bit
acts on that source alone; a write to MASK_SET_w or MASK_CLR_w acts on the bits written as 1 and on no other register. -/
def Obligations.SourcesOccur : Prop :=
  ((∀ (s : State) (n : BitVec 7), live s.unit.base = true → (srcGet s.unit.base (128 + n.toNat)).level = false →
    bitOf (srcCfg s.unit.base (128 + n.toNat)) 21 = false → isUnit s.unit.base = true →
    exec (.hevtEdge n true) s = .next (onUnit (uB fun b => occur (128 + n.toNat)
      (srcSet (128 + n.toNat) { srcGet b (128 + n.toNat) with level := true } b)) s)) ∧
  (∀ (s : State) (n : BitVec 7), live s.unit.base = true → exec (.hevtEdge n false) s =
    .next (onUnit (uB fun b => srcSet (128 + n.toNat) { srcGet b (128 + n.toNat) with level := false } b) s)) ∧
  (∀ (s : State) (i : BitVec 4) (level : Bool), live s.unit.base = true →
    exec (.evinEdge i level) s = .next (onUnit (uB fun _ =>
      (if level ≠ (srcGet s.unit.base (256 + i.toNat)).level ∧
          (evinMode s.unit.base (256 + i.toNat) = 1 ∧ level = true ∨ evinMode s.unit.base (256 + i.toNat) = 2 ∧ level = false ∨
            evinMode s.unit.base (256 + i.toNat) = 3) then occur (256 + i.toNat) else id)
        (srcSet (256 + i.toNat) { srcGet s.unit.base (256 + i.toNat) with level := level } s.unit.base)) s)) ∧
  (∀ (n : Nat) (b : Base), 16 ≤ fld (srcCfg b n) 16 5 → occur n b = makePending n 1 b) ∧
  (∀ (n g : Nat) (b : Base), fld (srcCfg b n) 16 5 = g → g < 16 →
    ((grpGet b g).timing = true → occur n b = srcSet n { srcGet b n with held := (srcGet b n).held + 1 } b) ∧
    ((grpGet b g).timing = false → rdF b (pageAddr (evcPage b) (0x240 + 4 * g)) 0 16 = 0 → occur n b = makePending n 1 b) ∧
    ((grpGet b g).timing = false → 0 < rdF b (pageAddr (evcPage b) (0x240 + 4 * g)) 0 16 → occur n b = makePending n 1 (grpSet g
      { timing := true, startedAt := b.tick, len := rdF b (pageAddr (evcPage b) (0x240 + 4 * g)) 0 16 } b))) ∧
  (∀ (s : State) (part : Part) (g : BitVec 4), live (partBase s part) = true → (grpGet (partBase s part) g.toNat).timing = true →
    (grpGet (partBase s part) g.toNat).startedAt + (grpGet (partBase s part) g.toNat).len * 1000 ≤ (partBase s part).tick →
    (∀ n, n < srcCount (partBase s part) → fld (srcCfg (partBase s part) n) 16 5 = g.toNat →
      (srcGet (partBase s part) n).held = 0) →
    exec (.holdoffExpiry part g) s = .next (onPartBase part (grpSet g.toNat {}) s))) ∧
  (∀ (s : State) (part : Part) (g : BitVec 4) (n : Nat), live (partBase s part) = true →
    (grpGet (partBase s part) g.toNat).timing = true →
    (grpGet (partBase s part) g.toNat).startedAt + (grpGet (partBase s part) g.toNat).len * 1000 ≤ (partBase s part).tick →
    (List.range (srcCount (partBase s part))).filter (fun m => fld (srcCfg (partBase s part) m) 16 5 == g.toNat &&
      decide (0 < (srcGet (partBase s part) m).held)) = [n] →
    exec (.holdoffExpiry part g) s = .next (onPartBase part (fun b =>
      let b' := makePending n (srcGet b n).held (srcSet n { srcGet b n with held := 0 } b)
      let len := rdF b' (pageAddr (evcPage b') (0x240 + 4 * g.toNat)) 0 16
      grpSet g.toNat (if len = 0 then {} else { timing := true, startedAt := b'.tick, len := len }) b') s)) ∧
  (∀ (s : State) (part : Part) (g : BitVec 4), live (partBase s part) = true →
    (grpGet (partBase s part) g.toNat).timing = false ∨ (partBase s part).tick <
      (grpGet (partBase s part) g.toNat).startedAt + (grpGet (partBase s part) g.toNat).len * 1000 →
    exec (.holdoffExpiry part g) s = .next s) ∧
  (∀ (s : State) (n : BitVec 7), live s.unit.base = true →
    (srcGet s.unit.base (128 + n.toNat)).level = true ∨ srcLevel s.unit.base (128 + n.toNat) = true →
    ∃ t, exec (.hevtEdge n true) s = .next t ∧ (srcGet t.unit.base (128 + n.toNat)).level = true ∧
      (srcGet t.unit.base (128 + n.toNat)).count = (srcGet s.unit.base (128 + n.toNat)).count ∧
      t.unit.base.regs = s.unit.base.regs ∧ t.dist = s.dist) ∧
  (∀ (s : State) (part : Part) (w : BitVec 4), live (partBase s part) = true →
    (∀ ch, exec (.pendRead part ch w) s = .next (onPartBase part (fun b => pendReadOp w.toNat
      (emit (.regData part ch (pendWord (partBase s part) w.toNat) 0) b)) s)) ∧
    (w.toNat < evcWords (partBase s part) → ∀ i : Fin 32,
      exec (.pendWrite part w 0xF (~~~ (BitVec.ofNat 32 (2 ^ i.val)))) s =
        .next (onPartBase part msixAgain (pendClear1 part (32 * w.toNat + i) s))) ∧
    (0 < w.toNat → w.toNat < (if isUnit (partBase s part) then 8 else 6) → ∀ data,
      (∃ t, exec (.maskSet part w 0xF data) s = .next t ∧
        rd (partBase t part) (pageAddr (evcPage (partBase s part)) (0x100 + 4 * w.toNat)) =
          (rd (partBase s part) (pageAddr (evcPage (partBase s part)) (0x100 + 4 * w.toNat)) ||| data) ∧
        ∀ a, a ≠ pageAddr (evcPage (partBase s part)) (0x100 + 4 * w.toNat) → rd (partBase t part) a = rd (partBase s part) a) ∧
      (part = .unit → isUnit s.unit.base = true → ∃ t, exec (.maskClr part w 0xF data) s = .next t ∧
        rd (partBase t part) (pageAddr (evcPage (partBase s part)) (0x100 + 4 * w.toNat)) =
          (rd (partBase s part) (pageAddr (evcPage (partBase s part)) (0x100 + 4 * w.toNat)) &&& ~~~ data) ∧
        ∀ a, a ≠ pageAddr (evcPage (partBase s part)) (0x100 + 4 * w.toNat) → rd (partBase t part) a = rd (partBase s part) a)))

/-- CLAIM (R425, R431 to R433) returns the first claimable source with its count and makes it active on the processor, its
pending state cleared where it is a pulse source, with count 1 where it is a level source; the stack takes it, and ROT moves past the processor. A processor that is
not enabled, or has nothing to claim, reads EMPTY and nothing changes. FLUSH empties the stack (R437), and the assignment
drives the request lines (R429, R430). -/
def Obligations.ClaimsAreTaken : Prop :=
  ∀ (s : State) (k ch : BitVec 3), live s.unit.base = true →
    (∀ n, cpuEn s.unit.base k.toNat = true → claimable s.unit.base k.toNat = some n →
      (cpuStack s.unit.base k.toNat).length < 8 → srcLevel s.unit.base n = false →
      ∃ t, exec (.claimRead k ch) s = .next t ∧ t.dist = s.dist ∧
        t.unit.base.outs = s.unit.base.outs ++ [.regData .unit ch
          (BitVec.ofNat 32 (min 255 (srcGet s.unit.base n).count * 65536 + n)) 0] ∧
        cpuStack t.unit.base k.toNat = { src := n, grp := srcGrpPrio s.unit.base n } :: cpuStack s.unit.base k.toNat ∧
        (srcGet t.unit.base n).active = some k ∧ (srcGet t.unit.base n).pend = false ∧ (srcGet t.unit.base n).count = 0 ∧
        t.unit.base.evc.rot = k + 1 ∧ t.unit.base.regs = s.unit.base.regs) ∧
    (∀ n, cpuEn s.unit.base k.toNat = true → claimable s.unit.base k.toNat = some n →
      (cpuStack s.unit.base k.toNat).length < 8 → srcLevel s.unit.base n = true →
      ∃ t, exec (.claimRead k ch) s = .next t ∧ t.dist = s.dist ∧
        t.unit.base.outs = s.unit.base.outs ++ [.regData .unit ch (BitVec.ofNat 32 (65536 + n)) 0] ∧
        cpuStack t.unit.base k.toNat = { src := n, grp := srcGrpPrio s.unit.base n } :: cpuStack s.unit.base k.toNat ∧
        (srcGet t.unit.base n).active = some k ∧ (srcGet t.unit.base n).level = (srcGet s.unit.base n).level ∧
        t.unit.base.evc.rot = k + 1 ∧ t.unit.base.regs = s.unit.base.regs) ∧
    (∀ n, cpuEn s.unit.base k.toNat = true → claimable s.unit.base k.toNat = some n →
      8 ≤ (cpuStack s.unit.base k.toNat).length → exec (.claimRead k ch) s =
        .next (answer .unit ch (claimEmpty true) (logU uNestOverflow noPort k.toNat 0 0 s))) ∧
    ((cpuEn s.unit.base k.toNat = false ∨ claimable s.unit.base k.toNat = none) →
      exec (.claimRead k ch) s = .next (answer .unit ch (claimEmpty false) s)) ∧
    (∃ t, exec (.cpuFlush k) s = .next t ∧ cpuStack t.unit.base k.toNat = [] ∧ t.unit.base.regs = s.unit.base.regs ∧
      ∀ e ∈ cpuStack s.unit.base k.toNat, (srcGet t.unit.base e.src).active = none) ∧
    (exec .evcAssign s = .next (onUnit (uB driveEvreq) (logUnrouted s)))

/-- A write of a source number to CPUk_EOI (R435): the top of the stack is removed, its source becomes inactive and the
running priority becomes that of the new top; any other number, or an empty stack, has no effect and logs EOI_ERR. -/
def Obligations.EndOfInterrupt : Prop :=
  ∀ (s : State) (k : BitVec 3) (n : BitVec 9), live s.unit.base = true →
    (∀ g l, cpuStack s.unit.base k.toNat = { src := n.toNat, grp := g } :: l →
      ∃ t, exec (.eoiWrite k n) s = .next t ∧ t.dist = s.dist ∧ cpuStack t.unit.base k.toNat = l ∧
        runPrio t.unit.base k.toNat = (match l with | [] => 256 | e :: _ => e.grp) ∧
        (srcGet t.unit.base n.toNat).active = none ∧ t.unit.base.regs = s.unit.base.regs ∧
        (∀ j, j ≠ k.toNat → cpuStack t.unit.base j = cpuStack s.unit.base j) ∧
        ∀ m, m ≠ n.toNat → srcGet t.unit.base m = srcGet s.unit.base m) ∧
    ((∀ e l, cpuStack s.unit.base k.toNat = e :: l → e.src ≠ n.toNat) →
      exec (.eoiWrite k n) s = .next (logU uEoiErr noPort n.toNat 0 k.toNat s))

/-- Lantern (R440, R441, R443) and MSI-X (R449): with every enabled processor asleep and Lantern enabled the controller
enters and its request lines fall; it leaves when an enabled processor is awake, and stays where every
one sleeps; where it may not enter, the change is noted in PSLEEP alone; a configuration request that
neither enables MSI-X nor opens the function's mask sets the two bits and sends nothing; one that enables MSI-X sends for every
vector with a pending source, and one that only opens the mask for those that wait in the pending bit array (R622). -/
def Obligations.LanternAndMsix : Prop :=
  ∀ (s : State) (psleep : BitVec 8),
    (live s.unit.base = true → rdB s.unit.base 0x11040 0 = true → allAsleep s.unit.base psleep = true →
      s.unit.base.evc.lantern = false → exec (.lanternEnter psleep) s =
        .next (lanternWake (onUnit (uB fun b => driveEvreq (pgEvt 0x11 0 (inc 0x1104C
          { b with evc := { b.evc with psleep := psleep, lantern := true } }))) s))) ∧
    (live s.unit.base = true → s.unit.base.evc.lantern = true →
      (List.range 8).any (fun k => cpuEn s.unit.base k && !psleep.getLsbD k) = true →
      exec (.lanternExit psleep) s = .next (onUnit (uB fun b => lanternLeave { b with evc := { b.evc with psleep := psleep } }) s) ∧
      ∃ t, exec (.lanternExit psleep) s = .next t ∧ t.unit.base.evc.lantern = false) ∧
    (live s.unit.base = true →
      (rdB s.unit.base 0x11040 0 = false ∨ allAsleep { s.unit.base with evc := { s.unit.base.evc with psleep := psleep } } psleep = false ∨
        s.unit.base.evc.lantern = true → exec (.lanternEnter psleep) s =
          .next (onUnit (uB fun b => { b with evc := { b.evc with psleep := psleep } }) s)) ∧
      (rdB s.unit.base 0x11040 0 = true →
        (List.range 8).any (fun k => cpuEn s.unit.base k && !psleep.getLsbD k) = false → exec (.lanternExit psleep) s =
          .next (onUnit (uB fun b => { b with evc := { b.evc with psleep := psleep } }) s))) ∧
    (∀ en mask, live s.dist.base = true →
      ((en = true → s.dist.base.evc.msixEn = true) → (mask = false → s.dist.base.evc.fmask = false) →
        exec (.configurationRequest en mask) s = .next (onDist (dB fun b =>
          { b with evc := { b.evc with msixEn := en, fmask := mask } }) s)) ∧
      (en = true → s.dist.base.evc.msixEn = false →
        exec (.configurationRequest en mask) s = .next (onDist (dB fun b =>
          vecSendAll (vecPending { b with evc := { b.evc with msixEn := en, fmask := mask } })
            { b with evc := { b.evc with msixEn := en, fmask := mask } }) s)) ∧
      ((en = true → s.dist.base.evc.msixEn = true) → mask = false → s.dist.base.evc.fmask = true →
        exec (.configurationRequest en mask) s = .next (onDist (dB fun b =>
          pbaSettle { b with evc := { b.evc with msixEn := en, fmask := mask } }) s)))

/-! ## Physical presence -/

/-- Presence at a distributor (R505 to R511, R514, R515): a press of one that is not locked opens a window that ends LEN
seconds from now; a locked one opens none, nor does one that is no root while its counter is invalid; CLOSE ends an open window and does nothing to a closed one; the broken seal is
recorded once.
Windows at either part (R505, R509, R512, R514): a PRESENCE frame in sequence is applied by the part it reaches; a window ends
when NS reaches its EXPIRY and not before; a part that becomes locked has no open window, and one that is unlocked again opens
none. -/
def Obligations.PresenceWindows : Prop :=
  (∀ s : State,
    (distRuns s → s.dist.base.locked = false → s.dist.base.valid = true ∨ isRoot s.dist = true →
      ∃ t, exec .presencePress s = .next t ∧ t.unit = s.unit ∧ t.dist.base.window =
        some (s.dist.base.ns + BitVec.ofNat 64 (rdF s.dist.base 0x0D040 0 12 * 1000000000)) ∧
        t.dist.base.ns = s.dist.base.ns) ∧
    (distRuns s → s.dist.base.locked = true → ∃ t, exec .presencePress s = .next t ∧
      t.dist.base.window = s.dist.base.window ∧ t.dist.ports = s.dist.ports) ∧
    (distRuns s → s.dist.base.locked = false → s.dist.base.valid = false → isRoot s.dist = false →
      ∃ t, exec .presencePress s = .next t ∧ t.dist.base.window = s.dist.base.window ∧ t.dist.ports = s.dist.ports) ∧
    (live s.dist.base = true → windowOpen s.dist.base = true → ∃ t, exec .presenceClose s = .next t ∧ t.unit = s.unit ∧
      windowOpen t.dist.base = false ∧ t.dist.base.ns = s.dist.base.ns) ∧
    (live s.dist.base = true → windowOpen s.dist.base = false → exec .presenceClose s = .next s) ∧
    (live s.dist.base = true → rdB s.dist.base 0x0D048 3 = false → ∃ t, exec .sealBreak s = .next t ∧
      rdB t.dist.base 0x0D048 2 = true ∧ rdB t.dist.base 0x0D048 3 = true ∧ rd64 t.dist.base 0x0D05C = nsNow s.dist.base) ∧
    (live s.dist.base = true → rdB s.dist.base 0x0D048 3 = true → exec .sealBreak s = .next s)) ∧
  (∀ (s : State) (expiry : BitVec 48) (window : BitVec 16),
    (∀ d lane seq, inOrder ⟨.unit d, lane, seq, none⟩ s → exec (.presenceRx ⟨.unit d, lane, seq, none⟩ expiry window) s =
      .next (unitPresence d expiry window.toNat
        (rxSeq ⟨.unit d, lane, seq, none⟩ true [(0x11, presenceBody expiry window.toNat)] s).2)) ∧
    (∀ (n : Fin 132) lane seq, isUp n.val = true → inOrder ⟨.dist n, lane, seq, none⟩ s →
      exec (.presenceRx ⟨.dist n, lane, seq, none⟩ expiry window) s = .next (distPresence n.val expiry window.toNat
        (rxSeq ⟨.dist n, lane, seq, none⟩ true [(0x11, presenceBody expiry window.toNat)] s).2)) ∧
    (∀ part e, live (partBase s part) = true → (partBase s part).window = some e →
      (e.toNat ≤ (partBase s part).ns.toNat → ∃ t, exec (.presenceExpiry part) s = .next t ∧
        (partBase t part).window = none ∧ (partBase t part).ns = (partBase s part).ns) ∧
      ((partBase s part).ns.toNat < e.toNat → exec (.presenceExpiry part) s = .next s)) ∧
    (∀ part, live (partBase s part) = true → (partBase s part).window = none → exec (.presenceExpiry part) s = .next s) ∧
    (∀ part, live (partBase s part) = true →
      (∃ t, exec (.cfgLockChange part true) s = .next t ∧ (partBase t part).locked = true ∧ windowOpen (partBase t part) = false) ∧
      exec (.cfgLockChange part false) s = .next (onPartBase part (fun b => { b with locked := false }) s)))

/-! ## Semaphores and watches -/

/-- ADD and SUB (R277): an accepted SEM_ADD of A to a live semaphore leaves the lesser of value + A and 0xFFFFFFFF there, sets
SAT_HI where the sum was clamped and leaves SAT_LO; DONE answers it where ACK asks for it, and then its waiters are walked
(R282). A SEM_SUB leaves the greater of value - A and 0 and sets SAT_LO where it was clamped. Where no one waits on it, each
leaves every other semaphore, the queue of waits and the distributor as they were. A retired semaphore answers OBJ_FAILED
(R305). -/
def Obligations.SemaphoresSaturate : Prop :=
  ∀ (r : Req) (sem : BitVec 16) (a : BitVec 32) (s : State),
    (semRetired s.unit sem.toNat = false → accepts r 0x01 s →
      exec (.semAdd r sem a) s = .next (onUnit (walk sem.toNat) (onUnit (fun u =>
        respAck r sem.toNat 0x01 (semGet u sem.toNat).v.toNat u) (semAddVal sem.toNat a.toNat r.reply.toNat false false s))) ∧
      (semGet (semAddVal sem.toNat a.toNat r.reply.toNat false false s).unit sem.toNat).v.toNat =
        min ((semGet s.unit sem.toNat).v.toNat + a.toNat) 0xFFFFFFFF) ∧
    (semRetired s.unit sem.toNat = false → accepts r 0x01 s → (∀ w ∈ s.unit.sems.waits, w.sem ≠ sem.toNat) →
      ∃ t, exec (.semAdd r sem a) s = .next t ∧
      (semGet t.unit sem.toNat).v.toNat = min ((semGet s.unit sem.toNat).v.toNat + a.toNat) 0xFFFFFFFF ∧
      (semGet t.unit sem.toNat).satHi = ((semGet s.unit sem.toNat).satHi ||
        decide (0xFFFFFFFF < (semGet s.unit sem.toNat).v.toNat + a.toNat)) ∧
      (semGet t.unit sem.toNat).satLo = (semGet s.unit sem.toNat).satLo ∧
      (∀ m, m ≠ sem.toNat → semGet t.unit m = semGet s.unit m) ∧ t.unit.sems.waits = s.unit.sems.waits ∧ t.dist = s.dist) ∧
    (semRetired s.unit sem.toNat = false → accepts r 0x02 s → ∃ t, exec (.semSub r sem a) s = .next t ∧
      (semGet t.unit sem.toNat).v.toNat = (semGet s.unit sem.toNat).v.toNat - a.toNat ∧
      (semGet t.unit sem.toNat).satLo = ((semGet s.unit sem.toNat).satLo ||
        decide ((semGet s.unit sem.toNat).v.toNat < a.toNat)) ∧
      (semGet t.unit sem.toNat).satHi = (semGet s.unit sem.toNat).satHi ∧
      (∀ m, m ≠ sem.toNat → semGet t.unit m = semGet s.unit m) ∧ t.unit.sems.waits = s.unit.sems.waits ∧ t.dist = s.dist) ∧
    (semRetired s.unit sem.toNat = true → accepts r 0x01 s →
      exec (.semAdd r sem a) s = .next (onUnit (respError r stObjFailed sem.toNat 0x01 0) s)) ∧
    (semRetired s.unit sem.toNat = true → accepts r 0x02 s →
      exec (.semSub r sem a) s = .next (onUnit (respError r stObjFailed sem.toNat 0x02 0) s))

/-- The walk of a take queue (R281, R282) on a value: it releases a front part of the queue; the released waits and the value
that is left add up to the value before; and the next wait, if there is one, asks for more than is left. -/
def Obligations.TakesComeInOrder : Prop :=
  ∀ (v : Nat) (l : List Wait),
    (walkTakes v l).1.map (·.1) = l.take (walkTakes v l).1.length ∧
    (((walkTakes v l).1.map fun x => x.1.n).sum + (walkTakes v l).2 = v) ∧
    (∀ w, l[(walkTakes v l).1.length]? = some w → (walkTakes v l).2 < w.n) ∧
    (walkTakes v l).1.map (·.2) = (List.range (walkTakes v l).1.length).map fun i =>
      v - ((l.take (i + 1)).map (·.n)).sum

/-- Waits (R280, R285 to R287, R301): an accepted SEM_WAIT whose condition holds is released at once, a take with the value
reduced and only where no take is queued; another joins the queue of waits, or is refused with NO_WATCH where the pool is full.
WCH_CANCEL removes the oldest matching wait, or the comparator that it names, and answers NOT_FOUND where there is none and
OBJ_FAILED for a retired semaphore (R305). A wait or a comparator whose timeout has run is removed and logged; one whose timeout
has not run stays. A wait is shown on a semaphore whose word holds no injected error (R594). -/
def Obligations.WaitsAreQueued : Prop :=
  ∀ (r : Req) (sem : BitVec 16) (tout n : BitVec 32) (s : State),
    (semRetired s.unit sem.toNat = false → s.unit.dbg.flips.contains (0, sem.toNat) = false → accepts r 0x04 s →
      (n.toNat ≤ (semGet s.unit sem.toNat).v.toNat →
        exec (.semWait r false sem tout n) s = .next (onUnit (pushResp 0x22 r.reply.toNat r.tag.toNat stOk
          (releaseOps sem.toNat 0 0 0 (nsLo s.unit * 2 ^ 32 + (semGet s.unit sem.toNat).v.toNat))) s)) ∧
      (n.toNat ≤ (semGet s.unit sem.toNat).v.toNat → takesOf s.unit sem.toNat = [] →
        ∃ t, exec (.semWait r true sem tout n) s = .next t ∧
          (semGet t.unit sem.toNat).v = (semGet s.unit sem.toNat).v - n ∧ t.unit.sems.waits = s.unit.sems.waits) ∧
      (∀ take, (semGet s.unit sem.toNat).v.toNat < n.toNat ∨ (take = true ∧ takesOf s.unit sem.toNat ≠ []) →
        watchFull s.unit = false →
        ∃ t w, exec (.semWait r take sem tout n) s = .next t ∧ t.unit.sems.waits = s.unit.sems.waits ++ [w] ∧
          w.sem = sem.toNat ∧ w.take = take ∧ w.n = n.toNat ∧ w.core = r.reply.toNat ∧ w.tag = r.tag.toNat ∧
          w.tout = waitTout s.unit tout.toNat ∧ semGet t.unit sem.toNat = semGet s.unit sem.toNat) ∧
      (∀ take, (semGet s.unit sem.toNat).v.toNat < n.toNat ∨ (take = true ∧ takesOf s.unit sem.toNat ≠ []) →
        watchFull s.unit = true →
        exec (.semWait r take sem tout n) s =
          .next (watchRefused sem.toNat { s with unit := respError r stNoWatch sem.toNat 0x04 0 s.unit }))) ∧
    (∀ take, semRetired s.unit sem.toNat = true → accepts r 0x04 s →
      exec (.semWait r take sem tout n) s = .next (onUnit (respError r stObjFailed sem.toNat 0x04 0) s)) ∧
    (∀ core tag, accepts r 0x05 s →
      (semRetired s.unit sem.toNat = true →
        exec (.wchCancel r sem 0 core tag) s = .next (onUnit (respError r stObjFailed sem.toNat 0x05 0) s)) ∧
      (∀ w rest, semRetired s.unit sem.toNat = false →
        takeFirst (waitIs sem.toNat core.toNat tag.toNat) s.unit.sems.waits = some (w, rest) →
        exec (.wchCancel r sem 0 core tag) s =
          .next (onUnit (fun u => respAck r sem.toNat 0x05 0 (endWait w rest stCancelled u)) s)) ∧
      (semRetired s.unit sem.toNat = false → takeFirst (waitIs sem.toNat core.toNat tag.toNat) s.unit.sems.waits = none →
        exec (.wchCancel r sem 0 core tag) s = .next (onUnit (respError r stNotFound sem.toNat 0x05 0) s)) ∧
      (∀ x, cmpGet s.unit sem.toNat = some x → x.core = core.toNat → x.tag = tag.toNat →
        exec (.wchCancel r sem 1 core tag) s =
          .next (onUnit (fun u => respAck r sem.toNat 0x05 0 (releaseCmp sem.toNat x stCancelled 0 u)) s)) ∧
      ((∀ x, cmpGet s.unit sem.toNat = some x → x.core ≠ core.toNat ∨ x.tag ≠ tag.toNat) →
        exec (.wchCancel r sem 1 core tag) s = .next (onUnit (respError r stNotFound sem.toNat 0x05 0) s)) ∧
      (∀ cls : BitVec 4, 2 ≤ cls.toNat →
        exec (.wchCancel r sem cls core tag) s = .next (onUnit (respError r stNotFound sem.toNat 0x05 0) s))) ∧
    (∀ (core : BitVec 10) (tag : BitVec 8), unitRuns s →
      (∀ w rest, takeFirst (fun w => waitIs sem.toNat core.toNat tag.toNat w && toutDue s.unit w.tout w.since)
          s.unit.sems.waits = some (w, rest) →
        exec (.watchTimeout 0 sem core tag) s =
          .next (logTimeout sem.toNat 0 core.toNat (onUnit (endWait w rest stTimeout) s))) ∧
      (takeFirst (fun w => waitIs sem.toNat core.toNat tag.toNat w && toutDue s.unit w.tout w.since)
          s.unit.sems.waits = none → exec (.watchTimeout 0 sem core tag) s = .next s) ∧
      (∀ x, cmpGet s.unit sem.toNat = some x → toutDue s.unit x.tout x.since = true →
        exec (.watchTimeout 1 sem core tag) s =
          .next (logTimeout sem.toNat 1 x.core (onUnit (releaseCmp sem.toNat x stTimeout 0) s))) ∧
      ((∀ x, cmpGet s.unit sem.toNat = some x → toutDue s.unit x.tout x.since = false) →
        exec (.watchTimeout 1 sem core tag) s = .next s) ∧
      (∀ cls : BitVec 4, 2 ≤ cls.toNat → exec (.watchTimeout cls sem core tag) s = .next s))

/-- The comparators of W64L (R298, R299, R302): an accepted MEM_WAIT takes the first free comparator and answers with its
number, or is refused with NO_WATCH where all 32 are armed; a snooped write of all eight bytes to the word that one comparator
watches releases it when the word is at least N, a partial write releases it with RECHECK, and a write of no byte, or to a word
that none watches, changes nothing.
The SEM page (R289, R305, R308, R311): with a live semaphore selected in W1024, SET replaces its value with OPERAND and leaves
its flags, CLR_FLAGS clears both flags and leaves the value, ADD and SUB saturate; LOAD_VIEW loads the view registers; on a
retired one the four commands only set its FAILED status; in W64L, and before SRAM is initialised, they change nothing. A read
of SUMP_0 returns and removes the oldest record, and returns 0 where there is none. -/
def Obligations.ComparatorsWatch : Prop :=
  (∀ (s : State) (addr : BitVec 45),
    (∀ (r : Req) (n : BitVec 48) (c : Nat), accepts r 0x06 s → (List.range 32).find? (fun c => (cmpGet s.unit c).isNone) = some c →
      exec (.memWait r addr n) s = .next (onUnit (fun u => respDone r c 0x06 0 (cmpPut c (some
        { core := r.reply.toNat, tag := r.tag.toNat, addr := addr.toNat, n := n.toNat, tout := waitTout u 0,
          since := u.base.tick }) u)) s)) ∧
    (∀ (r : Req) (n : BitVec 48), accepts r 0x06 s → (List.range 32).find? (fun c => (cmpGet s.unit c).isNone) = none →
      exec (.memWait r addr n) s = .next (watchRefused 0 (onUnit (respError r stNoWatch 0 0x06 0) s))) ∧
    (∀ (x : Cmp) (c : Nat) (data : BitVec 64), unitRuns s → c < 32 → cmpGet s.unit c = some x → x.addr = addr.toNat →
      (∀ d y, d ≠ c → cmpGet s.unit d = some y → y.addr ≠ addr.toNat) →
      (x.n ≤ data.toNat → exec (.snoopWrite addr 0xFF data) s = .next (onUnit (releaseCmp c x stOk data.toNat) s)) ∧
      (data.toNat < x.n → exec (.snoopWrite addr 0xFF data) s = .next s) ∧
      (∀ be : BitVec 8, be ≠ 0xFF → be ≠ 0 →
        exec (.snoopWrite addr be data) s = .next (onUnit (releaseCmp c x stRecheck 0) s))) ∧
    (∀ data : BitVec 64, exec (.snoopWrite addr 0 data) s = .next s) ∧
    (∀ (be : BitVec 8) (data : BitVec 64), (∀ d y, cmpGet s.unit d = some y → y.addr ≠ addr.toNat) →
      exec (.snoopWrite addr be data) s = .next s)) ∧
  (∀ s : State, unitRuns s → (cfgOf s.unit.base).w64 = false → semRetired s.unit (semSel s.unit) = false →
    ((∀ w ∈ s.unit.sems.waits, w.sem ≠ semSel s.unit) →
      (∃ t, exec .semCmdSet s = .next t ∧ semGet t.unit (semSel s.unit) =
        { semGet s.unit (semSel s.unit) with v := rd s.unit.base 0x0A044 } ∧ t.dist = s.dist) ∧
      (∃ t, exec .semCmdAdd s = .next t ∧ (semGet t.unit (semSel s.unit)).v.toNat =
        min ((semGet s.unit (semSel s.unit)).v.toNat + (rd s.unit.base 0x0A044).toNat) 0xFFFFFFFF ∧ t.dist = s.dist)) ∧
    (exec .semCmdAdd s = .next (onUnit (fun u => uB (wr 0x0A04C (semGet u (semSel s.unit)).v) u)
      (semSignal (semSel s.unit) (rd s.unit.base 0x0A044).toNat 0xFFFF false true s))) ∧
    (∃ t, exec .semCmdSub s = .next t ∧ (semGet t.unit (semSel s.unit)).v.toNat =
      (semGet s.unit (semSel s.unit)).v.toNat - (rd s.unit.base 0x0A044).toNat ∧ t.dist = s.dist) ∧
    (∃ t, exec .semCmdClrFlags s = .next t ∧ semGet t.unit (semSel s.unit) =
      { semGet s.unit (semSel s.unit) with satHi := false, satLo := false } ∧
      (∀ m, m ≠ semSel s.unit → semGet t.unit m = semGet s.unit m) ∧ t.dist = s.dist)) ∧
  (∀ s : State, unitRuns s → (cfgOf s.unit.base).w64 = false →
    (semRetired s.unit (semSel s.unit) = true →
      ∀ c ∈ [Instr.semCmdAdd, .semCmdSub, .semCmdSet, .semCmdClrFlags],
        exec c s = .next (onUnit (uB (wrB 0x0A050 2 true)) s)) ∧
    (exec .semCmdLoadView s = .next (onUnit (fun u => loadView (touchWaits (semSel u) (injTouch 0 (semSel u) u))) s))) ∧
  (∀ s : State, ((cfgOf s.unit.base).w64 = true ∨ ¬ unitRuns s) →
    ∀ c ∈ [Instr.semCmdAdd, .semCmdSub, .semCmdSet, .semCmdClrFlags, .semCmdLoadView], exec c s = .next s) ∧
  (∀ (s : State) (ch : BitVec 3), unitRuns s →
    (∀ x l, s.unit.sems.sump = x :: l → ∃ t, exec (.sumpRead ch) s = .next t ∧ t.unit.sems.sump = l ∧
      t.unit.base.outs = s.unit.base.outs ++ [.regData .unit ch (x.extractLsb' 0 32) 0] ∧ t.unit.base.regs = s.unit.base.regs) ∧
    (s.unit.sems.sump = [] →
      exec (.sumpRead ch) s = .next (answer .unit ch 0 (onUnit (uB (latchRec ch.toNat 0x0A080 0)) s))))

/-- The message port (R265, R268, R269, R270, R273, R278): a lane that is not ready, or that the port lacks, takes no request; a stale
request is dropped and counted; the word of a request (R268, R291) spells that request, with every operand at every value;
a request whose opcode the configuration lacks is answered BAD_OP with its object and counted;
the oldest response leaves, with its destination, on the lowest ready lane that has carried none on this tick; SEM_READ
answers the value and changes no semaphore; scrubbing a correctable error counts it on the page that owns the object (R305,
R336), at the distributor in FLT.MEM_CORR (R470). -/
def Obligations.MessagePort : Prop :=
  (∀ i lane m, encodeRequest i = some (lane, m) → decodeRequest lane m = i) ∧
  ∀ (s : State) (r : Req),
    (∀ c lane m, encodeRequest c = some (lane, m) →
      (msgReady s.unit = false ∨ portLanes s.unit ≤ lane.toNat → exec c s = .next s) ∧
      (msgReady s.unit = true → lane.toNat < portLanes s.unit → reqStale s.unit (requestHeader lane m) = true →
        exec c s = .next (dropStale (requestHeader lane m) s))) ∧
    (∀ op : BitVec 6, msgReady s.unit = true → r.lane.toNat < portLanes s.unit → reqStale s.unit r = false →
      opPermitted (cfgOf s.unit.base).w64 op.toNat = false → exec (.msgBadOp r op) s =
        .next (onUnit (fun u => respError r stBadOp 0 op.toNat 0 (uB (inc 0x0B050) u)) s)) ∧
    (∀ op : BitVec 6, msgReady s.unit = true → reqStale s.unit r = true → r.lane.toNat < portLanes s.unit →
      exec (.msgBadOp r op) s = .next (dropStale r s)) ∧
    (∀ op : BitVec 6, msgReady s.unit = false → exec (.msgBadOp r op) s = .next s) ∧
    (msgReady s.unit = true → r.lane.toNat < portLanes s.unit → reqStale s.unit r = false →
      (cfgOf s.unit.base).w64 = true → ∀ (sem : BitVec 16) (a : BitVec 32) (take : Bool) (tout n : BitVec 32),
        exec (.semAdd r sem a) s =
          .next (onUnit (fun u => respError r stBadOp sem.toNat 0x01 0 (uB (inc 0x0B050) u)) s) ∧
        exec (.semSub r sem a) s =
          .next (onUnit (fun u => respError r stBadOp sem.toNat 0x02 0 (uB (inc 0x0B050) u)) s) ∧
        exec (.semRead r sem) s =
          .next (onUnit (fun u => respError r stBadOp sem.toNat 0x03 0 (uB (inc 0x0B050) u)) s) ∧
        exec (.semWait r take sem tout n) s =
          .next (onUnit (fun u => respError r stBadOp sem.toNat 0x04 0 (uB (inc 0x0B050) u)) s)) ∧
    (msgReady s.unit = true → r.lane.toNat < portLanes s.unit → reqStale s.unit r = false →
      (cfgOf s.unit.base).w64 = false → ∀ (addr : BitVec 45) (n : BitVec 48),
        exec (.memWait r addr n) s =
          .next (onUnit (fun u => respError r stBadOp 0 0x06 0 (uB (inc 0x0B050) u)) s)) ∧
    (∀ ready m l k, unitRuns s → s.unit.sems.outQ = m :: l →
      (List.range (portLanes s.unit)).find? (fun i => ready.getLsbD i && !laneBusy s.unit i) = some k →
      ∃ t, exec (.responseEmit ready) s = .next t ∧ (s.unit.sems.paused = [] → t.unit.sems.outQ = l) ∧
        t.unit.base.outs = s.unit.base.outs ++ [.msg k (m.bits.extractLsb' 108 10) m.bits] ∧
        t.unit.base.regs = s.unit.base.regs) ∧
    (∀ ready, s.unit.sems.outQ = [] ∨
      (List.range (portLanes s.unit)).find? (fun i => ready.getLsbD i && !laneBusy s.unit i) = none →
      exec (.responseEmit ready) s = .next s) ∧
    (∀ sem : BitVec 16, accepts r 0x03 s → semRetired s.unit sem.toNat = false →
      s.unit.dbg.flips.contains (0, sem.toNat) = false →
      exec (.semRead r sem) s = .next (onUnit (pushResp 0x21 r.reply.toNat r.tag.toNat stOk
        (valueOps sem.toNat (if (semGet s.unit sem.toNat).satHi then 1 else 0) (if (semGet s.unit sem.toNat).satLo then 1 else 0)
          (nsLo s.unit * 2 ^ 32 + (semGet s.unit sem.toNat).v.toNat))) s)) ∧
    (∀ sem : BitVec 16, accepts r 0x03 s → semRetired s.unit sem.toNat = true →
      exec (.semRead r sem) s = .next (onUnit (respError r stObjFailed sem.toNat 0x03 0) s)) ∧
    (∀ sem : BitVec 16, unitRuns s → (cfgOf s.unit.base).w64 = false →
      exec (.scrub (.unit (.sem sem)) true) s = .next (onUnit (fun u => uB (inc 0x0A078) (injTouch 0 sem.toNat u)) s) ∧
      exec (.scrub (.unit (.sem sem)) false) s = .next (onUnit (injTouch 0 sem.toNat) s)) ∧
    (∀ (b : BitVec 8) (n : BitVec 10) (p : BitVec 12), unitRuns s →
      exec (.scrub (.unit (.barrier b)) true) s = .next (onUnit (uB (inc 0x0C068)) s) ∧
      exec (.scrub (.unit (.flow n)) true) s = .next (onUnit (uB (inc 0x0D074)) s) ∧
      exec (.scrub (.unit (.fence p)) true) s = .next (onUnit (uB (inc 0x0E070)) s)) ∧
    (∀ (e : EccTarget) (k : Bool), eccCorr s.unit e = none → exec (.scrub (.unit e) k) s = .next s) ∧
    (distRuns s → exec (.scrub .dist true) s = .next (onDist (dB (inc 0x1006C)) s)) ∧
    (∀ k, s.dist.base.phase ≠ .run ∨ k = false → exec (.scrub .dist k) s = .next s)

/-! ## Barriers, flow counters, fences and the deadlock detector -/

/-- Barriers (R318 to R330). An accepted entry of a member that is IDLE counts toward the current round, one of a member that is
IN makes it AHEAD, one of a member that is AHEAD makes it HELD and logs BAR_LAP; an entry that R320 refuses is answered with its
STATUS and CAUSE and changes no barrier. A deadline that is due stalls the barrier and one that is not changes nothing. RESET of
an open or stalled barrier returns every member to IDLE with SENSE 0 and ROUND as it was, in HALL_WAIT only logs, and has no
effect on one that is disabled or retired. Writing EN from 0 to 1 opens it, from 1 to 0 disables it; a write that R326 or R330
forbids only logs. -/
def Obligations.BarriersCount : Prop :=
  ∀ (r : Req) (b : BitVec 8) (s : State),
    (accepts r 0x08 s → barRefusal s.unit b.toNat r.reply.toNat = (0, 0) →
      ((memGet (barGet s.unit b.toNat) r.reply.toNat).cur.isSome = true →
        (memGet (barGet s.unit b.toNat) r.reply.toNat).next = none →
        ∃ t, exec (.barEnter r b) s = .next t ∧ t.dist = s.dist ∧
          memCode (memGet (barGet t.unit b.toNat) r.reply.toNat) = 2 ∧
          (barGet t.unit b.toNat).round = (barGet s.unit b.toNat).round ∧
          ∀ c, c ≠ b.toNat → barGet t.unit c = barGet s.unit c) ∧
      ((memGet (barGet s.unit b.toNat) r.reply.toNat).cur.isSome = true →
        (memGet (barGet s.unit b.toNat) r.reply.toNat).next.isSome = true →
        ∃ t, exec (.barEnter r b) s = .next (barLap b.toNat t) ∧ t.dist = s.dist ∧
          memCode (memGet (barGet t.unit b.toNat) r.reply.toNat) = 3 ∧
          (barGet t.unit b.toNat).round = (barGet s.unit b.toNat).round ∧
          ∀ c, c ≠ b.toNat → barGet t.unit c = barGet s.unit c) ∧
      ((memGet (barGet s.unit b.toNat) r.reply.toNat).cur = none →
        exec (.barEnter r b) s = .next (barReach b.toNat (onUnit (barPut b.toNat { barGet s.unit b.toNat with
          mems := tabSet {} r.reply.toNat { memGet (barGet s.unit b.toNat) r.reply.toNat with
            cur := some { tag := r.tag.toNat, at_ := s.unit.base.tick } } (barGet s.unit b.toNat).mems }) s)))) ∧
    (accepts r 0x08 s → barRefusal s.unit b.toNat r.reply.toNat = (stRefused, 4) →
      exec (.barEnter r b) s = .next (onUnit (respError r stRefused b.toNat 0x08 4) (barLap b.toNat s))) ∧
    (accepts r 0x08 s → barCap s.unit ≤ b.toNat →
      exec (.barEnter r b) s = .next (onUnit (respError r stBadObj b.toNat 0x08 0) s)) ∧
    (accepts r 0x08 s → b.toNat < barCap s.unit → (barGet s.unit b.toNat).failed = true →
      exec (.barEnter r b) s = .next (onUnit (respError r stObjFailed b.toNat 0x08 0) s)) ∧
    (accepts r 0x08 s → b.toNat < barCap s.unit → (barGet s.unit b.toNat).failed = false →
      (barMember s.unit b.toNat r.reply.toNat = false →
        exec (.barEnter r b) s = .next (onUnit (respError r stRefused b.toNat 0x08 1) s)) ∧
      (barMember s.unit b.toNat r.reply.toNat = true → (barGet s.unit b.toNat).st = .disabled →
        exec (.barEnter r b) s = .next (onUnit (respError r stRefused b.toNat 0x08 2) s)) ∧
      (barMember s.unit b.toNat r.reply.toNat = true → (barGet s.unit b.toNat).st = .stalled →
        exec (.barEnter r b) s = .next (onUnit (respError r stRefused b.toNat 0x08 3) s))) ∧
    (unitRuns s → barDue s.unit b.toNat = false → exec (.barDeadline b) s = .next s) ∧
    (unitRuns s → barDue s.unit b.toNat = true → ∃ t, exec (.barDeadline b) s = .next t ∧
      (barGet t.unit b.toNat).st = .stalled ∧ (barGet t.unit b.toNat).mems = []) ∧
    (unitRuns s → (barGet s.unit (barSel s.unit)).failed = false →
      (barGet s.unit (barSel s.unit)).st = .opened ∨ (barGet s.unit (barSel s.unit)).st = .stalled →
      ∃ t, exec .barReset s = .next t ∧ (barGet t.unit (barSel s.unit)).st = .opened ∧
        (barGet t.unit (barSel s.unit)).mems = [] ∧ (barGet t.unit (barSel s.unit)).sense = false ∧
        (barGet t.unit (barSel s.unit)).round = (barGet s.unit (barSel s.unit)).round ∧ t.dist = s.dist) ∧
    (unitRuns s → (barGet s.unit (barSel s.unit)).failed = false → (barGet s.unit (barSel s.unit)).st = .hallWait →
      exec .barReset s = .next (logU uBarCfgErr noPort (barSel s.unit) 0 0 s)) ∧
    ((barGet s.unit (barSel s.unit)).failed = true ∨ (barGet s.unit (barSel s.unit)).st = .disabled →
      exec .barReset s = .next s) ∧
    (unitRuns s → barSel s.unit < barCap s.unit → (barGet s.unit (barSel s.unit)).failed = false →
      (barGet s.unit (barSel s.unit)).st = .disabled → rd s.unit.base (barCtlAddr (barSel s.unit)) = 0 →
      ∃ t, exec (.barEnWrite 0xF 1) s = .next t ∧ (barGet t.unit (barSel s.unit)).st = .opened ∧
        (barGet t.unit (barSel s.unit)).mems = [] ∧ (barGet t.unit (barSel s.unit)).sense = false ∧ t.dist = s.dist) ∧
    (∀ (be : BitVec 4) (data new : Word), unitRuns s → barSel s.unit < barCap s.unit →
      new = writeFlds [rw 0 3, rw 4 12] true be (rd s.unit.base (barCtlAddr (barSel s.unit))) data →
      ((bitOf new 1 = true ∧ galPermitted s.unit.base (fld new 4 12) = false) ∨
        ((barGet s.unit (barSel s.unit)).st = .hallWait ∧ bitOf new 0 = false) →
        exec (.barEnWrite be data) s = .next (logU uBarCfgErr noPort (barSel s.unit) 0 0 s)) ∧
      (bitOf new 1 = false ∨ galPermitted s.unit.base (fld new 4 12) = true → (barGet s.unit (barSel s.unit)).st ≠ .hallWait →
        ((barGet s.unit (barSel s.unit)).failed = true ∨
            bitOf new 0 = bitOf (rd s.unit.base (barCtlAddr (barSel s.unit))) 0 →
          exec (.barEnWrite be data) s = .next (onUnit (uB (wr (barCtlAddr (barSel s.unit)) new)) s)) ∧
        ((barGet s.unit (barSel s.unit)).failed = false → bitOf new 0 = false →
          bitOf (rd s.unit.base (barCtlAddr (barSel s.unit))) 0 = true →
          ∃ t, exec (.barEnWrite be data) s = .next t ∧ (barGet t.unit (barSel s.unit)).st = .disabled ∧
            (barGet t.unit (barSel s.unit)).mems = [] ∧ t.dist = s.dist))) ∧
    (∀ (be : BitVec 4) (data : Word), barCap s.unit ≤ barSel s.unit → exec (.barEnWrite be data) s = .next s)

/-- FLW_PROD advances P, and FLW_CONS advances C, by AMOUNT modulo 2^48 (R332), on a pair that exists and is in service; the
other count, and every other pair, is as it was. A pair that the configuration lacks is answered BAD_OBJ, a retired one
OBJ_FAILED (R336). RESET zeroes both counts and the flags of the selected pair, and LOAD_VIEW loads its view (R354).
OVER and UNDER (R333): a flag that an advance sets is counted and logged with the pair, raises the event and notifies where CTL
asks for it; one already set does nothing again. -/
def Obligations.FlowsAdvance : Prop :=
  (∀ (r : Req) (n : BitVec 16) (a : BitVec 32) (s : State),
    (n.toNat < flowCap s.unit → (flowGet s.unit n.toNat).failed = false →
      (accepts r 0x0A s → ∃ t, exec (.flwProd r n a) s = .next t ∧ t.dist = s.dist ∧
        flowGet t.unit n.toNat = { flowGet s.unit n.toNat with p := (flowGet s.unit n.toNat).p + a.setWidth 48 } ∧
        ∀ m, m ≠ n.toNat → flowGet t.unit m = flowGet s.unit m) ∧
      (accepts r 0x0B s → ∃ t, exec (.flwCons r n a) s = .next t ∧ t.dist = s.dist ∧
        flowGet t.unit n.toNat = { flowGet s.unit n.toNat with c := (flowGet s.unit n.toNat).c + a.setWidth 48 } ∧
        ∀ m, m ≠ n.toNat → flowGet t.unit m = flowGet s.unit m)) ∧
    (flowCap s.unit ≤ n.toNat →
      (accepts r 0x0A s → exec (.flwProd r n a) s = .next (onUnit (respError r stBadObj n.toNat 0x0A 0) s)) ∧
      (accepts r 0x0B s → exec (.flwCons r n a) s = .next (onUnit (respError r stBadObj n.toNat 0x0B 0) s))) ∧
    (n.toNat < flowCap s.unit → (flowGet s.unit n.toNat).failed = true →
      (accepts r 0x0A s → exec (.flwProd r n a) s = .next (onUnit (respError r stObjFailed n.toNat 0x0A 0) s)) ∧
      (accepts r 0x0B s → exec (.flwCons r n a) s = .next (onUnit (respError r stObjFailed n.toNat 0x0B 0) s)))) ∧
  (∀ s : State, unitRuns s →
    (∃ t, exec .flwReset s = .next t ∧ t.dist = s.dist ∧
      flowGet t.unit (flowSel s.unit) = { flowGet s.unit (flowSel s.unit) with p := 0, c := 0 } ∧
      rd t.unit.base (flowFlagAddr (flowSel s.unit)) = 0 ∧
      ∀ m, m ≠ flowSel s.unit → flowGet t.unit m = flowGet s.unit m) ∧
    (∃ t, exec .flwLoadView s = .next t ∧ t.unit.flows = s.unit.flows ∧
      rd64 t.unit.base 0x0D054 = (flowGet s.unit (flowSel s.unit)).p.setWidth 64 ∧
      rd64 t.unit.base 0x0D05C = (flowGet s.unit (flowSel s.unit)).c.setWidth 64)) ∧
  (∀ (n bit : Nat) (h : Hap) (d : Int) (s : State),
    (rdB s.unit.base (flowFlagAddr n) bit = true → flowFlag n bit h d s = s) ∧
    (∀ L, L = logU h noPort n 0 0 (onUnit (uB fun b =>
        pgEvt 0x0D 0 (inc 0x0D070 (wrB (flowFlagAddr n) bit true b))) s) →
      ∀ c, c = rd s.unit.base (flowCtlAddr n) → rdB s.unit.base (flowFlagAddr n) bit = false →
      (bitOf c 0 = false ∨ (bitOf c 3 = false ∧ bitOf c 1 = false) → flowFlag n bit h d s = L) ∧
      (bitOf c 0 = true → bitOf c 3 = true → bitOf c 1 = false →
        flowFlag n bit h d s = onUnit (uB (occur 74)) L) ∧
      (bitOf c 0 = true → bitOf c 3 = false → bitOf c 1 = true →
        flowFlag n bit h d s = onUnit (pushResp 0x22 (fld c 16 10) 0 stOk
          (releaseOps n 3 0 0 (2 ^ (63 - bit) + wrapBits 48 d))) L) ∧
      (bitOf c 0 = true → bitOf c 3 = true → bitOf c 1 = true →
        flowFlag n bit h d s = onUnit (pushResp 0x22 (fld c 16 10) 0 stOk
          (releaseOps n 3 0 0 (2 ^ (63 - bit) + wrapBits 48 d))) (onUnit (uB (occur 74)) L))))

/-- The fence tracker (R339 to R345): a signal whose writes have drained is applied and one whose writes have not is held; a
drain report advances DRAINED of its stream and takes from the held signals those that it covers; a new stream takes the lowest
free pair, and where none is free the signal is counted and OVERFLOW is set. A signal is not taken while ready is low, and one of
a retired pair is counted; a report during a context clear is discarded (R352). A held signal that is overdue is counted and
logged once, and where none is the timeout does nothing; DISCARD drops the held signals of the selected pair and logs it, and
LOAD_VIEW loads its view. In W64L the apply channel's ready is followed (R627); W1024 has no such channel. -/
def Obligations.FencesHold : Prop :=
  ∀ (s : State) (src tag : BitVec 16), unitRuns s →
    (∀ (p : Nat) (x : FncPair), fncFind s.unit src tag = some (p, x) → fncGet s.unit p = some x →
      (fncBad s.unit p = false →
        (∀ wcount sem amount, fncReady s.unit = true → 2 ^ 31 ≤ (x.drained - wcount).toNat →
          exec (.fenceSignal src tag wcount sem amount) s = .next (onUnit (onFnc fun f => { f with held := f.held ++
            [{ pair := p, src := src, tag := tag, wcount := wcount, sem := sem, amount := amount, at_ := s.unit.base.tick,
               logged := false }] }) s)) ∧
        (∀ wcount sem amount, fncReady s.unit = true → (x.drained - wcount).toNat < 2 ^ 31 →
          exec (.fenceSignal src tag wcount sem amount) s = .next (fncApply
            { pair := p, src := src, tag := tag, wcount := wcount, sem := sem, amount := amount, at_ := s.unit.base.tick,
              logged := false } s)) ∧
        (∀ delta : BitVec 16, s.unit.sems.clearing = none →
          ∃ t, exec (.drainReport src tag delta) s = .next t ∧ t.dist = s.dist ∧
            fncGet t.unit p = some { src := src, tag := tag, drained := x.drained + delta.setWidth 32 } ∧
            t.unit.fnc.held = (s.unit.fnc.held.filter fun g =>
              !(g.pair == p && decide ((x.drained + delta.setWidth 32 - g.wcount).toNat < 2 ^ 31))) ∧
            (s.unit.fnc.held = [] → t.unit.base = s.unit.base ∧ t.unit.sems = s.unit.sems))) ∧
      (fncBad s.unit p = true →
        (∀ wcount sem amount, fncReady s.unit = true →
          exec (.fenceSignal src tag wcount sem amount) s = .next (onUnit (fncCount 1) s)) ∧
        (∀ delta, exec (.drainReport src tag delta) s = .next s))) ∧
    (∀ p, fncFind s.unit src tag = none → fncFree s.unit = some p →
      (∀ delta : BitVec 16, s.unit.sems.clearing = none → s.unit.fnc.held = [] →
        ∃ t, exec (.drainReport src tag delta) s = .next t ∧ t.dist = s.dist ∧
          fncGet t.unit p = some { src := src, tag := tag, drained := delta.setWidth 32 } ∧
          t.unit.base = s.unit.base ∧ t.unit.sems = s.unit.sems) ∧
      (∀ wcount sem amount, fncReady s.unit = true → 2 ^ 31 ≤ (0 - wcount : BitVec 32).toNat →
        ∃ t g, exec (.fenceSignal src tag wcount sem amount) s = .next t ∧ t.dist = s.dist ∧
          fncGet t.unit p = some { src := src, tag := tag, drained := 0 } ∧ t.unit.fnc.held = s.unit.fnc.held ++ [g] ∧
          g.pair = p ∧ g.wcount = wcount ∧ g.sem = sem ∧ g.amount = amount)) ∧
    (fncFind s.unit src tag = none → fncFree s.unit = none →
      (∀ wcount sem amount, fncReady s.unit = true →
        exec (.fenceSignal src tag wcount sem amount) s = .next (onUnit (fncCount 1) (fncOver src tag s))) ∧
      (∀ delta, s.unit.sems.clearing = none → exec (.drainReport src tag delta) s = .next (fncOver src tag s))) ∧
    (∀ wcount sem amount, fncReady s.unit = false → exec (.fenceSignal src tag wcount sem amount) s = .next s) ∧
    (∀ delta, s.unit.sems.clearing.isSome = true → exec (.drainReport src tag delta) s = .next s) ∧
    ((∀ g ∈ fncHeld s.unit, fncLate s.unit g = false) → exec .fncTimeout s = .next s) ∧
    (∀ g, s.unit.fnc.held = [g] → s.unit.fnc.covered = [] → fncLate s.unit g = true →
      exec .fncTimeout s = .next (logU uFncTimeout noPort g.pair 0 0 (onUnit (uB fun b => pgEvt 0x0E 1 (inc 0x0E068 b))
        (onUnit (onFnc fun f => { f with held := [{ g with logged := true }] }) s)))) ∧
    (exec .fncDiscard s = .next (logU uFncDiscard noPort (fncSel s.unit) 0 0 (onUnit (fncDrop (fncSel s.unit)) s))) ∧
    (exec .fncLoadView s = .next (onUnit fncView s)) ∧
    (∀ ready, (cfgOf s.unit.base).w64 = true →
      exec (.applyChannelReady ready) s = .next (onUnit (onFnc fun f => { f with aplReady := ready }) s)) ∧
    (∀ ready, (cfgOf s.unit.base).w64 = false → exec (.applyChannelReady ready) s = .next s)

/-- REARM clears FIRED, sets ARMED and restarts the quiet count, and keeps the snapshot (R350); the detector fires when armed
and the unit has been quiet for WINDOW ticks before this one, takes the snapshot of every core (R349) and is then disarmed
(R348); one that is disarmed, off or not yet quiet for the window does nothing. -/
def Obligations.DeadlockDetector : Prop :=
  ∀ s : State, unitRuns s →
    (∃ t, exec .dlkRearm s = .next t ∧
      t.unit.dlk = { fired := false, armed := true, quiet := 0, before := 0, snap := s.unit.dlk.snap } ∧
      t.unit.base = s.unit.base ∧ t.unit.sems = s.unit.sems ∧ t.dist = s.dist) ∧
    (s.unit.dlk.armed = true → rd s.unit.base 0x12040 ≠ 0 → (rd s.unit.base 0x12040).toNat ≤ s.unit.dlk.before →
      ∃ t, exec .deadlock s = .next t ∧ t.unit.dlk.fired = true ∧ t.unit.dlk.armed = false ∧
        (∀ c, c < (cfgOf s.unit.base).cores → tabGet 0 c t.unit.dlk.snap = dlkEntry s.unit c) ∧
        t.unit.dlk.quiet = s.unit.dlk.quiet ∧ t.unit.sems = s.unit.sems ∧ t.dist = s.dist) ∧
    (s.unit.dlk.armed = false ∨ rd s.unit.base 0x12040 = 0 ∨ s.unit.dlk.before < (rd s.unit.base 0x12040).toNat →
      exec .deadlock s = .next s)

/-- The context clear (R303, R351): CLEAR empties the queue of waits, sets every semaphore that is in service to 0, clears the
Sump, zeroes the flow counters and empties the fence tracker; one written while CLEARING stands has no effect; it is over 4,096
ticks later when every completion has been placed, and not before. -/
def Obligations.ContextClears : Prop :=
  ∀ s : State, unitRuns s →
    (s.unit.sems.clearing = none → ∃ t, exec .ctxClear s = .next t ∧ t.dist = s.dist ∧ t.unit.sems.waits = [] ∧
      t.unit.sems.sump = [] ∧ t.unit.sems.clearing = some s.unit.base.tick ∧
      (∀ n, semRetired s.unit n = false → semGet t.unit n = {}) ∧
      (∀ n, semRetired t.unit n = semRetired s.unit n) ∧
      (∀ n, n < flowCap t.unit → (flowGet t.unit n).failed = false →
        (flowGet t.unit n).p = 0 ∧ (flowGet t.unit n).c = 0) ∧
      t.unit.fnc.pairs = [] ∧ t.unit.fnc.held = [] ∧ t.unit.fnc.covered = [] ∧
      t.unit.dlk = { fired := false, armed := true, quiet := 0, before := 0, snap := [] }) ∧
    (s.unit.sems.clearing.isSome = true → exec .ctxClear s = .next s) ∧
    (∀ k, s.unit.sems.clearing = some k → k + 4096 ≤ s.unit.base.tick → s.unit.sems.paused = [] → s.unit.cmb.ops = [] →
      ∃ t, exec .ctxClearDone s = .next t ∧ t.unit.sems = { s.unit.sems with clearing := none } ∧ t.dist = s.dist) ∧
    (∀ k, s.unit.sems.clearing = some k →
      s.unit.base.tick < k + 4096 ∨ s.unit.sems.paused ≠ [] ∨ s.unit.cmb.ops ≠ [] → exec .ctxClearDone s = .next s) ∧
    (s.unit.sems.clearing = none → exec .ctxClearDone s = .next s)

/-- An uncorrectable error (R305, R306, R336) retires its semaphore, barrier, flow pair or fence pair; a semaphore's waits
leave the queue. An error in a queued watch entry retires its semaphore and takes the entry from the pool, one in a free entry
only takes the entry. An error on an object that is retired already, or that the configuration lacks, changes nothing. -/
def Obligations.ObjectsRetire : Prop :=
  ∀ s : State, unitRuns s →
    (∀ n : BitVec 16, (cfgOf s.unit.base).w64 = false → semRetired s.unit n.toNat = false →
      ∃ t, exec (.eccUncorrectable (.sem n)) s = .next t ∧ semRetired t.unit n.toNat = true ∧ t.dist = s.dist ∧
        (∀ w ∈ t.unit.sems.waits, w.sem ≠ n.toNat) ∧ ∀ m, m ≠ n.toNat → semRetired t.unit m = semRetired s.unit m) ∧
    (∀ n : BitVec 16, semRetired s.unit n.toNat = true → exec (.eccUncorrectable (.sem n)) s = .next s) ∧
    (∀ (n : BitVec 16) (c : BitVec 10) (k : BitVec 8), (cfgOf s.unit.base).w64 = true →
      exec (.eccUncorrectable (.sem n)) s = .next s ∧ exec (.eccUncorrectable (.watch n c k)) s = .next s ∧
      exec (.eccUncorrectable .watchFree) s = .next s) ∧
    (∀ (n : BitVec 16) (c : BitVec 10) (k : BitVec 8), (cfgOf s.unit.base).w64 = false →
      (s.unit.sems.waits.any (waitIs n.toNat c.toNat k.toNat) = true →
        ∃ t, exec (.eccUncorrectable (.watch n c k)) s = .next t ∧ semRetired t.unit n.toNat = true ∧ t.dist = s.dist ∧
          t.unit.sems.lostEntries = s.unit.sems.lostEntries + 1) ∧
      (s.unit.sems.waits.any (waitIs n.toNat c.toNat k.toNat) = false →
        exec (.eccUncorrectable (.watch n c k)) s = .next s)) ∧
    ((cfgOf s.unit.base).w64 = false → watchFull s.unit = false →
      exec (.eccUncorrectable .watchFree) s = .next (onUnit loseEntry s)) ∧
    (watchFull s.unit = true → exec (.eccUncorrectable .watchFree) s = .next s) ∧
    (∀ b : BitVec 8, b.toNat < barCap s.unit → (barGet s.unit b.toNat).failed = false →
      ∃ t, exec (.eccUncorrectable (.barrier b)) s = .next t ∧ (barGet t.unit b.toNat).failed = true ∧ t.dist = s.dist) ∧
    (∀ b : BitVec 8, barCap s.unit ≤ b.toNat ∨ (barGet s.unit b.toNat).failed = true →
      exec (.eccUncorrectable (.barrier b)) s = .next s) ∧
    (∀ n : BitVec 10, n.toNat < flowCap s.unit → (flowGet s.unit n.toNat).failed = false →
      ∃ t, exec (.eccUncorrectable (.flow n)) s = .next t ∧ t.dist = s.dist ∧
        flowGet t.unit n.toNat = { flowGet s.unit n.toNat with failed := true }) ∧
    (∀ n : BitVec 10, flowCap s.unit ≤ n.toNat ∨ (flowGet s.unit n.toNat).failed = true →
      exec (.eccUncorrectable (.flow n)) s = .next s) ∧
    (∀ p : BitVec 12, p.toNat < fncPairs s.unit → fncBad s.unit p.toNat = false →
      ∃ t, exec (.eccUncorrectable (.fence p)) s = .next t ∧ fncBad t.unit p.toNat = true ∧ t.dist = s.dist) ∧
    (∀ p : BitVec 12, fncPairs s.unit ≤ p.toNat ∨ fncBad s.unit p.toNat = true →
      exec (.eccUncorrectable (.fence p)) s = .next s)

/-! ## The servos -/

/-- The servo's commands (R165, R170 to R173, R176, R178, R541, R613): a commanded switch that meets the conditions stands
pending and stops a rebase, one that does not is refused and logged, and once a switch is pending nothing more is asked; a root
has no parent to switch; a switch whose source is due completes, with the active source the new one's, and one whose source does
not come in time ends in holdover; a rebase starts outside handover and holdover and moves the held offset toward 0 by no more
than RATE each millisecond; MODE moves between AUTO and MANUAL; HOLDOVER_AGE and the ACQUIRE timeout are logged once each. A
part that does not run, and a timer that is not due, change nothing. -/
def Obligations.ServoCommands : Prop :=
  ∀ s : State,
    (unitRuns s → (servoOf s .unit).pend = none → servoRuns s .unit = true → stsBit s .unit 3 = false →
      canMove s .unit (!stsBit s .unit 4) false = true → ∃ t, exec .domSwitch s = .next t ∧
        stsBit t .unit 7 = true ∧ stsBit t .unit 4 = stsBit s .unit 4 ∧ stsBit t .unit 6 = false ∧ t.dist = s.dist ∧
        (servoOf t .unit).pend = some
          { dest := !stsBit s .unit 4, failed := false,
            since := s.unit.base.tick, snap := snapDelta s .unit, due := false }) ∧
    (unitRuns s → (servoOf s .unit).pend = none →
      servoRuns s .unit = false ∨ stsBit s .unit 3 = true ∨ canMove s .unit (!stsBit s .unit 4) false = false →
      exec .domSwitch s = .next (logU uSwitchRefused noPort 0 0 0 s)) ∧
    (unitRuns s → (servoOf s .unit).pend.isSome = true → exec .domSwitch s = .next s) ∧
    (distRuns s → isRoot s.dist = true → exec .parentSwitch s = .next s) ∧
    (distRuns s → isRoot s.dist = false → (servoOf s .dist).pend = none →
      s.dist.base.valid = false ∨ stsBit s .dist 3 = true ∨ canMove s .dist (!stsBit s .dist 4) false = false →
      exec .parentSwitch s = .next (logD dSwitchRefused noPort 0 0 0 s)) ∧
    (distRuns s → (servoOf s .dist).pend.isSome = true → exec .parentSwitch s = .next s) ∧
    (distRuns s → isRoot s.dist = false → (servoOf s .dist).pend = none → s.dist.base.valid = true →
      stsBit s .dist 3 = false → canMove s .dist (!stsBit s .dist 4) false = true →
      ∃ t, exec .parentSwitch s = .next t ∧ stsBit t .dist 7 = true ∧ t.unit = s.unit ∧
        (servoOf t .dist).pend = some
          { dest := !stsBit s .dist 4, failed := false,
            since := s.dist.base.tick, snap := snapDelta s .dist, due := false }) ∧
    (∀ h, unitRuns s → (servoOf s .unit).pend = some h → h.due = true →
      exec (.handover .unit) s = .next (unitFsm (doHandover .unit s))) ∧
    (∀ h, distRuns s → (servoOf s .dist).pend = some h → h.due = true →
      exec (.handover .dist) s = .next (doHandover .dist s)) ∧
    (unitRuns s → (∀ h, (servoOf s .unit).pend = some h → h.due = false) →
      exec (.handover .unit) s = .next (unitFsm s)) ∧
    (distRuns s → (∀ h, (servoOf s .dist).pend = some h → h.due = false) → exec (.handover .dist) s = .next s) ∧
    (∀ h, distRuns s → (servoOf s .dist).pend = some h → h.failed = true → h.due = false →
      h.since + echoLossLimit s (srcPort .dist h.dest) * echoInterval s (srcPort .dist h.dest) < s.dist.base.tick →
      exec (.handoverTimeout .dist) s = .next (enterHoldover .dist s)) ∧
    (distRuns s → (∀ h, (servoOf s .dist).pend = some h → h.failed = false ∨ h.due = true ∨ s.dist.base.tick ≤
        h.since + echoLossLimit s (srcPort .dist h.dest) * echoInterval s (srcPort .dist h.dest)) →
      exec (.handoverTimeout .dist) s = .next s) ∧
    (∀ h, unitRuns s → (servoOf s .unit).pend = some h → h.failed = true → h.due = false →
      h.since + echoLossLimit s (srcPort .unit h.dest) * echoInterval s (srcPort .unit h.dest) < s.unit.base.tick →
      exec (.handoverTimeout .unit) s = .next (unitFsm (enterHoldover .unit s))) ∧
    (unitRuns s → (∀ h, (servoOf s .unit).pend = some h → h.failed = false ∨ h.due = true ∨ s.unit.base.tick ≤
        h.since + echoLossLimit s (srcPort .unit h.dest) * echoInterval s (srcPort .unit h.dest)) →
      exec (.handoverTimeout .unit) s = .next (unitFsm s)) ∧
    (unitRuns s → (servoOf s .unit).pend = none → stsBit s .unit 3 = false →
      ∃ t, exec .rebase s = .next t ∧ stsBit t .unit 6 = true ∧ t.dist = s.dist ∧
        (servoOf t .unit) = { servoOf s .unit with rebaseAt := s.unit.base.tick }) ∧
    ((servoOf s .unit).pend.isSome = true ∨ stsBit s .unit 3 = true → exec .rebase s = .next s) ∧
    (unitRuns s → stsBit s .unit 6 = true → (servoOf s .unit).rebaseAt + 1000000 ≤ s.unit.base.tick →
      ((sext 32 (rd s.unit.base (activeHofs s)).toNat).natAbs ≤ rdF s.unit.base 0x205C 0 7 →
        ∃ t, exec .rebaseStep s = .next t ∧ rd t.unit.base (activeHofs s) = 0 ∧ stsBit t .unit 6 = false ∧ t.dist = s.dist) ∧
      (rdF s.unit.base 0x205C 0 7 < (sext 32 (rd s.unit.base (activeHofs s)).toNat).natAbs →
        ∃ t, exec .rebaseStep s = .next t ∧ stsBit t .unit 6 = true ∧ t.dist = s.dist ∧
          rd t.unit.base (activeHofs s) = wordOfInt (sext 32 (rd s.unit.base (activeHofs s)).toNat -
            clampInt (rdF s.unit.base 0x205C 0 7 : Nat) (sext 32 (rd s.unit.base (activeHofs s)).toNat)) ∧
          (servoOf t .unit) = { servoOf s .unit with rebaseAt := (servoOf s .unit).rebaseAt + 1000000 })) ∧
    (stsBit s .unit 6 = false ∨ s.unit.base.tick < (servoOf s .unit).rebaseAt + 1000000 →
      exec .rebaseStep s = .next s) ∧
    (∀ man, live s.unit.base = true → rdB s.unit.base 0x2040 0 = !man → ∃ t, exec (.srvModeWrite man) s = .next t ∧
      rdB t.unit.base 0x2040 0 = man ∧ stsBit t .unit 5 = man ∧ t.dist = s.dist) ∧
    (∀ man, live s.unit.base = true → rdB s.unit.base 0x2040 0 = man →
      exec (.srvModeWrite man) s = .next (onUnit (uB (wrB 0x2040 0 man)) s)) ∧
    (∀ man, live s.unit.base = false → exec (.srvModeWrite man) s = .next s) ∧
    (unitRuns s → armAged s = true → (servoOf s .unit).ageLogged = false → exec .holdoverAgeExpiry s =
      .next (logU uHoldoverAge noPort 0 0 0 (onServo .unit (fun v => { v with ageLogged := true }) s))) ∧
    (armAged s = false ∨ (servoOf s .unit).ageLogged = true → exec .holdoverAgeExpiry s = .next s) ∧
    (unitRuns s → tckState s.unit = 4 → stsBit s .unit 0 = false → s.unit.unlockLogged = false →
      s.unit.tckAt + 1000000000 ≤ s.unit.base.tick → exec .acquireTimeout s =
        .next (logU uServoUnlock noPort 0 0 1 (onUnit (fun u => { u with unlockLogged := true }) s))) ∧
    (tckState s.unit ≠ 4 ∨ stsBit s .unit 0 = true ∨ s.unit.unlockLogged = true ∨
      s.unit.base.tick < s.unit.tckAt + 1000000000 → exec .acquireTimeout s = .next s) ∧
    (¬ unitRuns s → ∀ c ∈ [Instr.domSwitch, .rebase, .rebaseStep, .holdoverAgeExpiry, .acquireTimeout],
      exec c s = .next s) ∧
    (¬ distRuns s → exec .parentSwitch s = .next s) ∧
    (∀ p : Part, live (partBase s p) = false → exec (.handover p) s = .next s ∧ exec (.handoverTimeout p) s = .next s)

/-! ## Time inside the die -/

/-- Taps (R195 to R203, R207 to R209): a sync frame leaves on the line of each enabled region whose count, k_n ticks ahead, is a
multiple of 128; a tap that has taken two good frames 128 ticks and 128 ns apart locks to the second plus 80; a good frame
clears a locked tap's run of bad ones, the first bad frame counts, and the second in a row makes it invalid with MISMATCH; the
applied delay moves by no more than one unit, and a delay out of range makes the tap invalid; a lost return does so with LOST; EN
going to 0 unlocks the tap; a toggle of TRD_REQ answers with the tap's count; a stop is recorded two ticks before it was sampled,
and a resume lets its launches go on, but neither of two changes within one synchroniser interval is recorded. A region or a
read port that the configuration lacks, and a unit that is in reset, take nothing. -/
def Obligations.TapsKeepTime : Prop :=
  ∀ (n : BitVec 6) (s : State), live s.unit.base = true →
    (∃ t, exec .syncFrameSend s = .next t ∧ t.dist = s.dist ∧ t.unit.taps = s.unit.taps ∧
      t.unit.base.outs = s.unit.base.outs ++ (if s.unit.base.valid then
        ((List.range (regions s.unit)).filter fun m => tapEn s.unit m &&
          (s.unit.base.ns + BitVec.ofNat 64 (tapGet s.unit m).lead).toNat % 128 == 0).map fun m =>
            .pin (.rtsync m) (syncFrame (s.unit.base.ns + BitVec.ofNat 64 (tapGet s.unit m).lead)).toNat else [])) ∧
    (∀ ns crc, tapEn s.unit n.toNat = false → exec (.tapSyncFrameRx n ns crc) s = .next s) ∧
    (∀ ns k, tapMayLock s.unit n.toNat = true → (tapGet s.unit n.toNat).locked = false →
      (tapGet s.unit n.toNat).seen = some (ns, k) → k + 128 = s.unit.base.tick →
      ∃ t, exec (.tapSyncFrameRx n (ns + 128) (crc8 (ns + 128))) s = .next t ∧ (tapGet t.unit n.toNat).locked = true ∧
        (tapGet t.unit n.toNat).cnt = ns + 208 ∧ (tapGet t.unit n.toNat).errs = 0 ∧ t.dist = s.dist ∧
        ∀ m, m ≠ n.toNat → tapGet t.unit m = tapGet s.unit m) ∧
    (∀ ns, tapMayLock s.unit n.toNat = true → (tapGet s.unit n.toNat).locked = false →
      (∀ ns0 k, (tapGet s.unit n.toNat).seen = some (ns0, k) → k + 128 ≠ s.unit.base.tick ∨ ns0 + 128 ≠ ns) →
      exec (.tapSyncFrameRx n ns (crc8 ns)) s =
        .next (onUnit (tapPut n.toNat { tapGet s.unit n.toNat with seen := some (ns, s.unit.base.tick) }) s)) ∧
    (∀ ns crc, tapMayLock s.unit n.toNat = true → (tapGet s.unit n.toNat).locked = false → crc ≠ crc8 ns →
      exec (.tapSyncFrameRx n ns crc) s = .next (onUnit (tapPut n.toNat { tapGet s.unit n.toNat with seen := none }) s)) ∧
    (∀ ns crc, tapMayLock s.unit n.toNat = false → (tapGet s.unit n.toNat).locked = false →
      exec (.tapSyncFrameRx n ns crc) s = .next s) ∧
    (∀ ns, tapEn s.unit n.toNat = true → (tapGet s.unit n.toNat).locked = true →
      (tapCount s.unit n.toNat = ns + 80 → exec (.tapSyncFrameRx n ns (crc8 ns)) s =
        .next (onUnit (tapPut n.toNat { tapGet s.unit n.toNat with badNs := 0, badCrc := 0 }) s)) ∧
      (tapCount s.unit n.toNat ≠ ns + 80 → (tapGet s.unit n.toNat).badNs = 0 →
        exec (.tapSyncFrameRx n ns (crc8 ns)) s = .next (onUnit (tapPut n.toNat { tapGet s.unit n.toNat with
          badNs := 1, badCrc := 0, errs := satInc 127 (tapGet s.unit n.toNat).errs }) s)) ∧
      (∀ crc, crc ≠ crc8 ns → (tapGet s.unit n.toNat).badCrc = 0 →
        exec (.tapSyncFrameRx n ns crc) s = .next (onUnit (tapPut n.toNat { tapGet s.unit n.toNat with
          badNs := 0, badCrc := 1, errs := satInc 127 (tapGet s.unit n.toNat).errs }) s))) ∧
    (∀ ns crc, tapEn s.unit n.toNat = true → (tapGet s.unit n.toNat).locked = true →
      (tapGet s.unit n.toNat).everLocked = true →
      (crc ≠ crc8 ns ∧ 1 ≤ (tapGet s.unit n.toNat).badCrc) ∨
        (crc = crc8 ns ∧ tapCount s.unit n.toNat ≠ ns + 80 ∧ 1 ≤ (tapGet s.unit n.toNat).badNs) →
      ∃ t, exec (.tapSyncFrameRx n ns crc) s = .next t ∧ (tapGet t.unit n.toNat).locked = false ∧
        (tapGet t.unit n.toNat).cause = 1 ∧ t.dist = s.dist ∧ ∀ m, m ≠ n.toNat → tapGet t.unit m = tapGet s.unit m) ∧
    (∀ loop : BitVec 16, tapEn s.unit n.toNat = true → (loop.toNat : Int) + 2 * tapTrim s.unit n.toNat ≤ 1024 →
      ∃ t, exec (.tapDelayUpdate n loop) s = .next t ∧ t.unit.base.regs = s.unit.base.regs ∧ t.dist = s.dist ∧
        (tapGet t.unit n.toNat).outRange = false ∧ (tapGet t.unit n.toNat).locked = (tapGet s.unit n.toNat).locked ∧
        (tapGet t.unit n.toNat).applied =
          (if 2 * ((tapGet s.unit n.toNat).applied : Int) + 2 ≤ (loop.toNat : Int) + 2 * tapTrim s.unit n.toNat then
            (tapGet s.unit n.toNat).applied + 1
          else if (loop.toNat : Int) + 2 * tapTrim s.unit n.toNat ≤ 2 * ((tapGet s.unit n.toNat).applied : Int) - 2 then
            (tapGet s.unit n.toNat).applied - 1
          else (tapGet s.unit n.toNat).applied) ∧
        (tapGet t.unit n.toNat).applied ≤ (tapGet s.unit n.toNat).applied + 1 ∧
        (tapGet s.unit n.toNat).applied ≤ (tapGet t.unit n.toNat).applied + 1 ∧
        ((tapGet t.unit n.toNat).applied = (tapGet s.unit n.toNat).applied → t.unit.base = s.unit.base)) ∧
    (∀ loop : BitVec 16, tapEn s.unit n.toNat = true → 1024 < (loop.toNat : Int) + 2 * tapTrim s.unit n.toNat →
      ∃ t, exec (.tapDelayUpdate n loop) s = .next t ∧ (tapGet t.unit n.toNat).outRange = true ∧
        (tapGet t.unit n.toNat).locked = false ∧ t.dist = s.dist) ∧
    (∀ loop : BitVec 16, tapEn s.unit n.toNat = false → exec (.tapDelayUpdate n loop) s = .next s) ∧
    ((tapGet s.unit n.toNat).locked = true → exec (.tapReturnLost n) s =
      .next (logU uTapLost noPort n.toNat 0 0 (onUnit (tapFail n.toNat 2) s))) ∧
    ((tapGet s.unit n.toNat).locked = false → exec (.tapReturnLost n) s = .next s) ∧
    ((tapGet s.unit n.toNat).locked = false → (tapGet s.unit n.toNat).cause = 1 →
      ∃ t, exec (.tapResync n) s = .next t ∧ (tapGet t.unit n.toNat).resync = true ∧ t.unit.base = s.unit.base) ∧
    ((tapGet s.unit n.toNat).locked = true ∨ (tapGet s.unit n.toNat).cause ≠ 1 → exec (.tapResync n) s = .next s) ∧
    (∀ en, n.toNat < regions s.unit → ∃ t, exec (.tapEnWrite n en) s = .next t ∧ tapEn t.unit n.toNat = en ∧ t.dist = s.dist ∧
      (en = true ∨ tapEn s.unit n.toNat = false → t.unit.taps = s.unit.taps) ∧
      (en = false → tapEn s.unit n.toNat = true → (tapGet t.unit n.toNat).locked = false)) ∧
    (∀ port, n.toNat < regions s.unit → port.toNat < (cfgOf s.unit.base).tapPorts →
      ∃ t, exec (.tapReadReq n port) s = .next t ∧
      tabGet {} (n.toNat * 16 + port.toNat) t.unit.tapPorts =
        { ack := !(tabGet {} (n.toNat * 16 + port.toNat) s.unit.tapPorts).ack, ns := tapCount s.unit n.toNat,
          valid := tapValid s.unit n.toNat, hold := rdB s.unit.base 0x02070 3 } ∧ t.unit.taps = s.unit.taps) ∧
    (∀ port, regions s.unit ≤ n.toNat ∨ (cfgOf s.unit.base).tapPorts ≤ port.toNat →
      exec (.tapReadReq n port) s = .next s) ∧
    (n.toNat < regions s.unit → reversed s.unit n.toNat = none → (tapGet s.unit n.toNat).stopped = false →
      ∃ t, exec (.regionStopEdge n true) s = .next t ∧
        (tapGet t.unit n.toNat).stopped = true ∧ stopAt t.unit n.toNat = (nsNow s.unit.base).toNat - 2 ∧ t.dist = s.dist) ∧
    ((tapGet s.unit n.toNat).stopped = true → reversed s.unit n.toNat = none → exec (.regionStopEdge n false) s =
      .next (resumeLaunches n.toNat (onUnit (regionStopOp n.toNat false) s))) ∧
    (∀ c, n.toNat < regions s.unit → reversed s.unit n.toNat = some c →
      ((tapGet s.unit n.toNat).stopped = false →
        exec (.regionStopEdge n true) s = .next (onUnit (regionBack n.toNat true c) s)) ∧
      ((tapGet s.unit n.toNat).stopped = true →
        exec (.regionStopEdge n false) s = .next (unstopLaunches n.toNat (onUnit (regionBack n.toNat false c) s)))) ∧
    (exec (.regionStopEdge n true) s = .next (onUnit (regionStopOp n.toNat true) s)) ∧
    ((tapGet s.unit n.toNat).stopped = true → exec (.regionStopEdge n true) s = .next s) ∧
    ((tapGet s.unit n.toNat).stopped = false → exec (.regionStopEdge n false) s = .next s) ∧
    (∀ en, regions s.unit ≤ n.toNat → exec (.tapEnWrite n en) s = .next s)

/-- Capture (R213 to R220): an edge that one channel takes, in the channel's window and 128 units after its last, makes a record
that enters the flight; an edge while the counter is not valid, or that no channel takes, makes none; the records whose time has
come leave their flight, and where none is due nothing changes; a read of REC_LO takes the oldest record of the queue, and on an
empty queue reads 0 and takes none.
Drip outputs (R222 to R225, R501): an arming that no cause refuses makes the channel ARMED for its START, or DONE where START
lies beyond the output window; a refused one leaves every channel as it is; an arming on the tick on which a timetable entry
armed the channel leaves it armed and the entry BUSY. STOP is noted for the next tick, on which a channel that waits becomes
IDLE; on one that is neither ARMED nor RUNNING, and a second time, it does nothing. A pulse starts on its tick and ends WIDTH
later, or is suppressed outside the output window; the last one ends in DONE, one of a stopped channel in IDLE, and another is
followed by the next. -/
def Obligations.CaptureAndDrip : Prop :=
  (∀ (s : State), live s.unit.base = true →
    (∀ kind idx fall frac, exec (.captureEdge kind idx fall frac) s =
      .next (onUnit (captureEdgeOp kind.toNat idx.toNat fall frac) s)) ∧
    (∀ kind idx fall frac k, k < capChans s.unit → capTakes s.unit k kind.toNat idx.toNat fall = true →
      (∀ j, j ≠ k → capTakes s.unit j kind.toNat idx.toNat fall = false) → s.unit.base.valid = true →
      kind ≠ 1 ∨ tapValid s.unit idx.toNat = true → capOutside s.unit k = false →
      (∀ p, (capChan s.unit k).last = some p → p + 128 ≤ s.unit.base.ns.toNat * 64 + frac.toNat) →
      ∃ t, exec (.captureEdge kind idx fall frac) s = .next t ∧ t.dist = s.dist ∧
        t.unit.cap.queue = s.unit.cap.queue ∧ t.unit.cap.flight = capInsert
          { ns := s.unit.base.ns, frac := frac, chan := BitVec.ofNat 4 k, fall := fall,
            domb := rdB s.unit.base 0x02070 4, hold := rdB s.unit.base 0x02070 3,
            lost := (capChan s.unit k).lostEdge, at_ := s.unit.base.tick + 96 } s.unit.cap.flight) ∧
    (∀ kind idx fall frac, (∀ k, k < capChans s.unit → capTakes s.unit k kind.toNat idx.toNat fall = false) →
      exec (.captureEdge kind idx fall frac) s = .next s) ∧
    (∀ kind idx fall frac, s.unit.base.valid = false → ∃ t, exec (.captureEdge kind idx fall frac) s = .next t ∧
      t.unit.cap = s.unit.cap ∧ t.unit.taps = s.unit.taps ∧ t.unit.sems = s.unit.sems ∧ t.dist = s.dist) ∧
    (∃ t, exec .captureRecordEnter s = .next t ∧ t.dist = s.dist ∧
      t.unit.cap.flight = s.unit.cap.flight.filter fun r => decide (s.unit.base.tick < r.at_)) ∧
    ((∀ r ∈ s.unit.cap.flight, s.unit.base.tick < r.at_) → exec .captureRecordEnter s = .next s) ∧
    (∀ ch r q, s.unit.cap.queue = r :: q → ∃ t, exec (.capRecRead ch) s = .next t ∧ t.unit.cap.queue = q ∧
      t.unit.base.outs = s.unit.base.outs ++ [.regData .unit ch (lo32 r) 0] ∧ t.dist = s.dist) ∧
    (∀ ch, s.unit.cap.queue = [] → ∃ t, exec (.capRecRead ch) s = .next t ∧ t.unit.cap = s.unit.cap ∧
      t.unit.base.outs = s.unit.base.outs ++ [.regData .unit ch 0 0] ∧ t.dist = s.dist)) ∧
  (∀ (k : BitVec 3) (s : State), live s.unit.base = true →
    (k.toNat < dripChans s.unit → dripRefusal s.unit k.toNat = 0 →
      (dripBit s.unit k.toNat 1 = false ∨ (∀ e, outWinEnd s.unit = some e → dripStart s.unit k.toNat < e) →
        ∃ t, exec (.dripArm k) s = .next t ∧ dripGet t.unit k.toNat =
            { st := .armed, next := dripStart s.unit k.toNat, endAt := (dripGet s.unit k.toNat).endAt,
              level := (dripGet s.unit k.toNat).level, regArm := some s.unit.base.tick } ∧ t.dist = s.dist ∧
          ∀ j, j ≠ k.toNat → dripGet t.unit j = dripGet s.unit j) ∧
      (∀ e, dripBit s.unit k.toNat 1 = true → outWinEnd s.unit = some e → e ≤ dripStart s.unit k.toNat →
        ∃ t, exec (.dripArm k) s = .next t ∧ (dripGet t.unit k.toNat).st = .done ∧ t.dist = s.dist ∧
          ∀ j, j ≠ k.toNat → dripGet t.unit j = dripGet s.unit j)) ∧
    (dripRefusal s.unit k.toNat ≠ 0 → dripBusy s.unit k.toNat = false ∨
        (∀ i, (dripGet s.unit k.toNat).ttbArm ≠ some (s.unit.base.tick, i)) →
      ∃ t, exec (.dripArm k) s = .next t ∧ t.unit.drips = s.unit.drips ∧ t.dist = s.dist) ∧
    (∀ i, dripBusy s.unit k.toNat = true → (dripGet s.unit k.toNat).ttbArm = some (s.unit.base.tick, i) →
      ∃ t, exec (.dripArm k) s = .next t ∧ (dripGet t.unit k.toNat).st = (dripGet s.unit k.toNat).st ∧
        ttbGet t.unit i = { ttbGet s.unit i with result := rBusy } ∧ t.unit.base = s.unit.base ∧ t.dist = s.dist) ∧
    (dripBusy s.unit k.toNat = false ∨ (dripGet s.unit k.toNat).stop.isSome = true → exec (.dripStop k) s = .next s) ∧
    (dripBusy s.unit k.toNat = true → (dripGet s.unit k.toNat).stop = none → ∃ t, exec (.dripStop k) s = .next t ∧
      dripGet t.unit k.toNat = { dripGet s.unit k.toNat with stop := some (s.unit.base.ns.toNat + 1) } ∧
      t.unit.base = s.unit.base ∧ t.dist = s.dist ∧ ∀ j, j ≠ k.toNat → dripGet t.unit j = dripGet s.unit j) ∧
    (∀ x, dripBusy s.unit k.toNat = true → (dripGet s.unit k.toNat).active = false → (dripGet s.unit k.toNat).stop = some x →
      x ≤ s.unit.base.ns.toNat → x < (dripGet s.unit k.toNat).next →
      (dripGet (dripSettle1 k.toNat s.unit) k.toNat).st = .idle) ∧
    (dripBusy s.unit k.toNat = true → (∀ x, (dripGet s.unit k.toNat).stop = some x → (dripGet s.unit k.toNat).next ≤ x) →
      (dripGet s.unit k.toNat).active = false → (dripGet s.unit k.toNat).next ≤ s.unit.base.ns.toNat →
      (dripBit s.unit k.toNat 1 = false ∨
          inOutWindow s.unit (dripGet s.unit k.toNat).next (dripWidth s.unit k.toNat) = true →
        ∃ t, exec (.dripPulseStart k) s = .next t ∧ (dripGet t.unit k.toNat).active = true ∧
          (dripGet t.unit k.toNat).st = .running ∧ (dripGet t.unit k.toNat).num = (dripGet s.unit k.toNat).num + 1 ∧
          (dripGet t.unit k.toNat).endAt = (dripGet s.unit k.toNat).next + dripWidth s.unit k.toNat ∧ t.dist = s.dist) ∧
      (dripBit s.unit k.toNat 1 = true →
          inOutWindow s.unit (dripGet s.unit k.toNat).next (dripWidth s.unit k.toNat) = false →
        ∃ t, exec (.dripPulseStart k) s = .next t ∧ (dripGet t.unit k.toNat).active = false ∧
          (dripGet t.unit k.toNat).num = (dripGet s.unit k.toNat).num + 1 ∧
          (dripGet t.unit k.toNat).level = (dripGet s.unit k.toNat).level ∧ t.dist = s.dist)) ∧
    (dripBusy s.unit k.toNat = false ∨ (dripGet s.unit k.toNat).active = true ∨
      (∃ x, (dripGet s.unit k.toNat).stop = some x ∧ x < (dripGet s.unit k.toNat).next) ∨
      s.unit.base.ns.toNat < (dripGet s.unit k.toNat).next → exec (.dripPulseStart k) s = .next s) ∧
    ((dripGet s.unit k.toNat).active = true → (dripGet s.unit k.toNat).endAt ≤ s.unit.base.ns.toNat →
      ((dripGet s.unit k.toNat).stop = none →
        dripPeriod s.unit k.toNat = 0 ∨ (dripCount s.unit k.toNat ≠ 0 ∧
          dripCount s.unit k.toNat ≤ (dripGet s.unit k.toNat).num) → ∃ t, exec (.dripPulseEnd k) s = .next t ∧
        (dripGet t.unit k.toNat).st = .done ∧ (dripGet t.unit k.toNat).active = false ∧ t.dist = s.dist) ∧
      ((dripGet s.unit k.toNat).stop.isSome = true → ∃ t, exec (.dripPulseEnd k) s = .next t ∧
        (dripGet t.unit k.toNat).st = .idle ∧ (dripGet t.unit k.toNat).active = false ∧ t.dist = s.dist) ∧
      ((dripGet s.unit k.toNat).stop = none → dripPeriod s.unit k.toNat ≠ 0 → dripCount s.unit k.toNat = 0 ∨
          (dripGet s.unit k.toNat).num < dripCount s.unit k.toNat → dripBit s.unit k.toNat 1 = false →
        ∃ t, exec (.dripPulseEnd k) s = .next t ∧ (dripGet t.unit k.toNat).active = false ∧
          (dripGet t.unit k.toNat).st = (dripGet s.unit k.toNat).st ∧ (dripGet t.unit k.toNat).next =
            dripStart s.unit k.toNat + (dripGet s.unit k.toNat).num * dripPeriod s.unit k.toNat ∧ t.dist = s.dist)) ∧
    ((dripGet s.unit k.toNat).active = false ∨ s.unit.base.ns.toNat < (dripGet s.unit k.toNat).endAt →
      exec (.dripPulseEnd k) s = .next s)) ∧
  (∀ s : State, live s.unit.base = false → (∀ kind idx fall frac, exec (.captureEdge kind idx fall frac) s = .next s) ∧
    exec .captureRecordEnter s = .next s ∧ ∀ k, exec (.dripArm k) s = .next s ∧ exec (.dripStop k) s = .next s ∧
      exec (.dripPulseStart k) s = .next s ∧ exec (.dripPulseEnd k) s = .next s)

/-! ## Launch -/

/-- Launch at the unit's origin (R235, R236, R252, R293, R500): a request that no cause refuses takes the lowest free slot and
one token, and ORIG_STS names it; a refused one leaves every slot and is logged with its cause; over the message port each
answers. A cancel of a launch whose GO has not come sends ABORT on each usable domain and misses the launch; one of a launch
that fired or that no slot holds changes nothing. A request whose broadcast has not come within REQ_TOUT frees its slot; a token
returns each refill period, up to BURST. -/
def Obligations.LaunchOrigin : Prop :=
  ∀ (s : State),
    (live s.unit.base = true → origRefusal s (origRegs s.unit.base) = 0 → ∃ t i, exec (.launchOrigStart none) s = .next t ∧
      slotFree s.unit = some i ∧ t.dist = s.dist ∧ (∀ j, j ≠ i → slotGet t.unit j = slotGet s.unit j) ∧
      rdF t.unit.base 0x14074 0 8 + 1 = rdF s.unit.base 0x14074 0 8 ∧
      slotGet t.unit i = some
        { gallery := (origRegs s.unit.base).gallery, lid := (origRegs s.unit.base).lid,
          target := (origRegs s.unit.base).target, mask := (origRegs s.unit.base).mask, tol := (origRegs s.unit.base).tol,
          epochLo := galEpoch s.unit (origRegs s.unit.base).gallery % 16, origin := true, broadcast := false,
          st := .requested, domb := false, reqAt := s.unit.base.tick }) ∧
    (live s.unit.base = true → origRefusal s (origRegs s.unit.base) ≠ 0 → ∃ t, exec (.launchOrigStart none) s = .next t ∧
      t.unit.launch = s.unit.launch ∧ rdF t.unit.base 0x0809C 4 4 = origRefusal s (origRegs s.unit.base) ∧
      rdF t.unit.base 0x0809C 0 2 = 3 ∧ t.dist = s.dist) ∧
    (∀ m, accepts m.req 0x10 s → exec (.launchOrigStart (some m)) s = .next (lchStartMsg m s)) ∧
    (live s.unit.base = true → slotFind s.unit (rdF s.unit.base 0x08090 16 12) (rdF s.unit.base 0x08090 0 16) = none →
      exec (.launchOrigCancel none) s = .next s) ∧
    (∀ g lid i k s', live s.unit.base = true → g = rdF s.unit.base 0x08090 16 12 → lid = rdF s.unit.base 0x08090 0 16 →
      slotFind s.unit g lid = some (i, k) →
      (k.st = .requested ∨ k.st = .armed →
        s' = [Dom.a, Dom.b].foldl (fun s d => if domUsable s.unit d then sendAbort (.unit d) 0
          { gallery := BitVec.ofNat 12 g, epochLo := BitVec.ofNat 4 k.epochLo, lid := BitVec.ofNat 16 lid, reason := 0x03 } s
          else s) s →
        exec (.launchOrigCancel none) s = .next (onUnit (freeOrigin g lid false 3) (missOp i k 3 s'))) ∧
      (k.st = .requested ∨ k.st = .armed → domUsable s.unit .a = false → domUsable s.unit .b = false →
        exec (.launchOrigCancel none) s = .next (onUnit (freeOrigin g lid false 3) (missOp i k 3 s))) ∧
      (k.st = .go ∨ k.st = .await → exec (.launchOrigCancel none) s = .next s)) ∧
    (∀ m, accepts m.req 0x11 s → exec (.launchOrigCancel (some m)) s = .next (lchCancelMsg m s)) ∧
    (∀ (g : BitVec 12) (lid : BitVec 16) i k, live s.unit.base = true → slotOf true s.unit g.toNat lid.toNat = some (i, k) →
      (k.broadcast = false → k.reqAt + (rd s.unit.base 0x08048).toNat ≤ s.unit.base.tick →
        exec (.launchReqTimeout g lid) s = .next (logU uLaunchReqLost noPort lid.toNat 0 0
          (onUnit (fun u => origNote g.toNat lid.toNat 3 false 0 (slotPut i none u)) s))) ∧
      (k.broadcast = true ∨ s.unit.base.tick < k.reqAt + (rd s.unit.base 0x08048).toNat →
        exec (.launchReqTimeout g lid) s = .next s)) ∧
    (∀ (g : BitVec 12) (lid : BitVec 16), slotOf true s.unit g.toNat lid.toNat = none →
      exec (.launchReqTimeout g lid) s = .next s) ∧
    (live s.unit.base = true → s.unit.launch.refillAt + rdF s.unit.base 0x14050 8 24 ≤ s.unit.base.tick →
      ∃ t, exec .launchTokenRefill s = .next t ∧ t.unit.launch.refillAt = s.unit.base.tick ∧ t.dist = s.dist ∧
        rdF t.unit.base 0x14074 0 8 = (if rdF s.unit.base 0x14074 0 8 < rdF s.unit.base 0x14050 0 8 then
          rdF s.unit.base 0x14074 0 8 + 1 else rdF s.unit.base 0x14074 0 8)) ∧
    (s.unit.base.tick < s.unit.launch.refillAt + rdF s.unit.base 0x14050 8 24 → exec .launchTokenRefill s = .next s) ∧
    (live s.unit.base = false → ∀ c ∈ [Instr.launchOrigStart none, .launchOrigCancel none, .launchTokenRefill],
      exec c s = .next s)

/-- Launch at a member unit (R239, R246 to R252, R261, R650): a broadcast, a GO and an ABORT in sequence from a usable domain
are acted on, and one that is not accepted, or of a domain that is not usable, leaves only what receiving it leaves; an armed
launch without GO is missed when NS passes its guard and its slot is freed, an origin's slot after its broadcast likewise; a GO
for an armed launch before the guard makes it due, and its target tick fires it; judging and the deadline settle what has fired,
and do nothing where nothing is due; a read of REC_LO takes the oldest fire record. -/
def Obligations.LaunchAtMembers : Prop :=
  ∀ (s : State),
    (∀ (d : Dom) (lane : Bool) (seq : BitVec 8), inOrder ⟨.unit d, lane, seq, none⟩ s → domUsable s.unit d = true →
      (∀ a, exec (.armBroadcastUnit ⟨.unit d, lane, seq, none⟩ a) s =
        .next (armBroadcastOp a (rxArm ⟨.unit d, lane, seq, none⟩ true 1 false a s).2)) ∧
      (∀ g, exec (.goRx ⟨.unit d, lane, seq, none⟩ g) s =
        .next (goOp d g (rxSeq ⟨.unit d, lane, seq, none⟩ true [(0x09, goBody g)] s).2)) ∧
      (∀ g i k, slotOf false s.unit g.gallery.toNat g.lid.toNat = some (i, k) →
        (∀ j x, slotOf true s.unit g.gallery.toNat g.lid.toNat = some (j, x) → j ≠ i) →
        k.st = .armed → g.targetLo.toNat = k.target % 2 ^ 32 →
        s.unit.base.ns.toNat + guard s.unit ≤ k.target → ∃ t, exec (.goRx ⟨.unit d, lane, seq, none⟩ g) s = .next t ∧
          slotGet t.unit i = some { k with st := .go, domb := decide (d = .b) }) ∧
      (∀ a, exec (.abortRxUnit ⟨.unit d, lane, seq, none⟩ a) s =
        .next (abortOp a.gallery.toNat a.lid.toNat a.reason.toNat
          (rxSeq ⟨.unit d, lane, seq, none⟩ true [(0x0A, abortBody a)] s).2))) ∧
    (∀ (rx : Rx) (a : Arm) (r : Bool × State), r = rxArm rx (permDown rx.port) 1 false a s →
      r.1 = false ∨ (∀ d, rx.port = .unit d → domUsable r.2.unit d = false) → exec (.armBroadcastUnit rx a) s = .next r.2) ∧
    (∀ (rx : Rx) (g : Go) (r : Bool × State), r = rxSeq rx (permDown rx.port) [(0x09, goBody g)] s →
      r.1 = false ∨ (∀ d, rx.port = .unit d → domUsable r.2.unit d = false) → exec (.goRx rx g) s = .next r.2) ∧
    (∀ (rx : Rx) (a : Abort) (r : Bool × State), r = rxSeq rx (permDown rx.port) [(0x0A, abortBody a)] s →
      r.1 = false ∨ (∀ d, rx.port = .unit d → domUsable r.2.unit d = false) → exec (.abortRxUnit rx a) s = .next r.2) ∧
    (∀ (g : BitVec 12) (lid : BitVec 16), live s.unit.base = true →
      (∀ i k, slotOf true s.unit g.toNat lid.toNat = none → slotOf false s.unit g.toNat lid.toNat = some (i, k) →
        (k.target < s.unit.base.ns.toNat + guard s.unit → k.st = .armed →
          exec (.launchGuardExpiry g lid) s = .next (missOp i k 0 s)) ∧
        (s.unit.base.ns.toNat + guard s.unit ≤ k.target ∨ k.st ≠ .armed → exec (.launchGuardExpiry g lid) s = .next s)) ∧
      (∀ i k, slotOf true s.unit g.toNat lid.toNat = some (i, k) → slotOf false s.unit g.toNat lid.toNat = none →
        (k.target < s.unit.base.ns.toNat + guard s.unit → k.broadcast = true →
          exec (.launchGuardExpiry g lid) s = .next (onUnit (freeOrigin g.toNat lid.toNat false 0) s)) ∧
        (s.unit.base.ns.toNat + guard s.unit ≤ k.target ∨ k.broadcast = false →
          exec (.launchGuardExpiry g lid) s = .next s)) ∧
      (slotOf true s.unit g.toNat lid.toNat = none → slotOf false s.unit g.toNat lid.toNat = none →
        exec (.launchGuardExpiry g lid) s = .next s)) ∧
    (live s.unit.base = true → exec .launchFire s = .next (launchFireOp s)) ∧
    (∀ i k, live s.unit.base = true → dueSlots s.unit = [(i, k)] → exec .launchFire s =
      .next (fireOp false k.gallery k.lid k.target k.tol k.mask k.domb (onUnit (slotPut i (some { k with st := .await })) s))) ∧
    (dueSlots s.unit = [] → exec .launchFire s = .next s) ∧
    (live s.unit.base = true → exec .launchLatenessJudge s = .next (judgeOp s)) ∧
    ((∀ f ∈ s.unit.launch.fired, f.judged = true ∨ s.unit.base.ns.toNat < f.firedNs + 2) →
      exec .launchLatenessJudge s = .next s) ∧
    (live s.unit.base = true → exec .launchDeadline s = .next (deadlineOp s)) ∧
    ((∀ f ∈ s.unit.launch.fired, f.judged = false ∨ f.deadLogged = true ∨ f.tol = 0xFFFF ∨
        s.unit.base.ns.toNat < f.target + f.tol + 1) → exec .launchDeadline s = .next s) ∧
    (∀ ch r q, live s.unit.base = true → s.unit.launch.recs = r :: q → ∃ t, exec (.lchRecRead ch) s = .next t ∧
      t.unit.launch.recs = q ∧ t.unit.base.outs = s.unit.base.outs ++ [.regData .unit ch (lo32 r) 0] ∧ t.dist = s.dist) ∧
    (∀ ch, live s.unit.base = true → s.unit.launch.recs = [] → ∃ t, exec (.lchRecRead ch) s = .next t ∧
      t.unit.launch = s.unit.launch ∧ t.unit.base.outs = s.unit.base.outs ++ [.regData .unit ch 0 0] ∧ t.dist = s.dist)

/-- The timetable (R256 to R260, R263, R294): an insertion that no cause refuses makes its entry PENDING and one refused
leaves its result there and the others as they are; CANCEL frees a pending entry that is not being staged, with result
CANCELLED; LOAD shows an entry in the ENT registers; the first due entry is staged 64 ns ahead, one per tick; staged entries act
on their tick, and where none is due nothing changes. -/
def Obligations.TimetableRuns : Prop :=
  ∀ s : State,
    (live s.unit.base = true → insertRefusal s.unit (ttbSel s.unit) (entRegs s.unit.base) = 0 →
      ∃ t, exec (.ttbInsertCmd none) s = .next t ∧ t.dist = s.dist ∧
        ttbGet t.unit (ttbSel s.unit) = { entRegs s.unit.base with st := .pending, result := 0, actAt := 0 } ∧
        ∀ j, j ≠ ttbSel s.unit → ttbGet t.unit j = ttbGet s.unit j) ∧
    (live s.unit.base = true → insertRefusal s.unit (ttbSel s.unit) (entRegs s.unit.base) ≠ 0 →
      ∃ t, exec (.ttbInsertCmd none) s = .next t ∧ t.dist = s.dist ∧
        (ttbGet t.unit (ttbSel s.unit)).st = (ttbGet s.unit (ttbSel s.unit)).st ∧
        (ttbSel s.unit < ttbCap s.unit → (ttbGet t.unit (ttbSel s.unit)).result =
          insertRefusal s.unit (ttbSel s.unit) (entRegs s.unit.base)) ∧
        ∀ j, j ≠ ttbSel s.unit → ttbGet t.unit j = ttbGet s.unit j) ∧
    (∀ m, accepts m.req 0x12 s → exec (.ttbInsertCmd (some m)) s = .next (ttbInsertMsg m s)) ∧
    (live s.unit.base = true → (ttbGet s.unit (ttbSel s.unit)).st = .pending →
      (∀ j e, stageNext s.unit = some (j, e) → j ≠ ttbSel s.unit) →
      ∃ t, exec .ttbCancelCmd s = .next t ∧ t.dist = s.dist ∧
        ttbGet t.unit (ttbSel s.unit) = { ttbGet s.unit (ttbSel s.unit) with st := .free, result := rCancelled } ∧
        ∀ j, j ≠ ttbSel s.unit → ttbGet t.unit j = ttbGet s.unit j) ∧
    ((ttbGet s.unit (ttbSel s.unit)).st ≠ .pending ∨ (∃ e, stageNext s.unit = some (ttbSel s.unit, e)) →
      exec .ttbCancelCmd s = .next s) ∧
    (live s.unit.base = true → ∃ t, exec .ttbLoadCmd s = .next t ∧ t.unit.launch = s.unit.launch ∧ t.dist = s.dist ∧
      rd t.unit.base 0x09054 = BitVec.ofNat 32 (ttbGet s.unit (ttbSel s.unit)).rep ∧
      rd t.unit.base 0x09050 = BitVec.ofNat 32 (ttbGet s.unit (ttbSel s.unit)).param ∧
      rd t.unit.base 0x09058 = BitVec.ofNat 32 (ttbGet s.unit (ttbSel s.unit)).count ∧
      rd64 t.unit.base 0x09044 = BitVec.ofNat 64 (ttbGet s.unit (ttbSel s.unit)).due) ∧
    (∀ i e, unitRuns s → stageNext s.unit = some (i, e) → ∃ t, exec .ttbStage s = .next t ∧ t.dist = s.dist ∧
      ttbGet t.unit i = { e with st := .staged,
                                 actAt := if e.due ≤ s.unit.base.ns.toNat then s.unit.base.ns.toNat + 1 else e.due } ∧
      t.unit.launch.stagedAt = some s.unit.base.tick ∧ ∀ j, j ≠ i → ttbGet t.unit j = ttbGet s.unit j) ∧
    (stageNext s.unit = none → exec .ttbStage s = .next s) ∧
    (unitRuns s → exec .ttbAct s = .next (ttbActOp s)) ∧
    (∀ i e, unitRuns s → s.unit.launch.ttb = [(i, e)] → e.st = .staged → e.actAt ≤ s.unit.base.ns.toNat →
      exec .ttbAct s = .next (ttbAct1 i e s)) ∧
    ((∀ x ∈ s.unit.launch.ttb, x.2.st ≠ .staged ∨ s.unit.base.ns.toNat < x.2.actAt) → exec .ttbAct s = .next s) ∧
    (live s.unit.base = false → ∀ c ∈ [Instr.ttbInsertCmd none, .ttbCancelCmd, .ttbLoadCmd, .ttbStage, .ttbAct],
      exec c s = .next s)

/-- Launch at a distributor (R82, R234, R237, R238, R241, R243, R252, R395, R504): in sequence on an admitted port, a request
goes through the port's tokens, a broadcast and a GO of the active parent are relayed, an ABORT travels on, and a census report
of a member port counts, and is passed on Rope where the other root asked for the port; nothing of these passes while muted, or
from a parent that is not the active one, and a frame that is not accepted leaves only what receiving it leaves; the cutoff
aborts a launch whose census is not complete; a token returns to a port each refill period. -/
def Obligations.LaunchAtDistributors : Prop :=
  ∀ (s : State),
    (∀ (n : Fin 132) (rx : Rx), inOrderAdmitted rx n s →
      (∀ a, permUp rx.port = true → exec (.armRequestRx rx a) s = .next (requestOp n a (rxArm rx true 0 false a s).2)) ∧
      (∀ a, permUp rx.port = true → muted s.dist = true →
        exec (.armRequestRx rx a) s = .next (rxArm rx true 0 false a s).2) ∧
      (∀ a, permDown rx.port = true → n.val = activeUp s.dist → muted s.dist = false →
        exec (.armBroadcastDist rx a) s = .next (distArmOp a (rxArm rx true 1 false a s).2)) ∧
      (∀ a, permDown rx.port = true → muted s.dist = true ∨ n.val ≠ activeUp s.dist →
        exec (.armBroadcastDist rx a) s = .next (rxArm rx true 1 false a s).2) ∧
      (∀ a refused, permUp rx.port = true → muted s.dist = false → tabGet false n.val s.dist.cmb.served = false →
        exec (.censusRx rx a refused) s = .next (censusAdd a.gallery.toNat a.lid.toNat n a.uid.toNat refused
          (rxArm rx true 2 refused a s).2)) ∧
      (∀ a refused, permUp rx.port = true → muted s.dist = false → tabGet false n.val s.dist.cmb.served = true →
        exec (.censusRx rx a refused) s = .next (censusAdd a.gallery.toNat a.lid.toNat n a.uid.toNat refused
          (ropeSend cutThrough 0x92 a.gallery.toNat a.epochLo.toNat a.lid.toNat
            [bodyOf [(8, n.val), (20, a.uid.toNat), (1, if refused then 1 else 0)]] (rxArm rx true 2 refused a s).2))) ∧
      (∀ a refused, permUp rx.port = true → muted s.dist = true →
        exec (.censusRx rx a refused) s = .next (rxArm rx true 2 refused a s).2) ∧
      (∀ g, permDown rx.port = true → n.val = activeUp s.dist → muted s.dist = false → exec (.goRelay rx g) s =
        .next (downGo g (onDist (lctxDrop g.gallery.toNat g.lid.toNat) (rxSeq rx true [(0x09, goBody g)] s).2))) ∧
      (∀ g, permDown rx.port = true → muted s.dist = true ∨ n.val ≠ activeUp s.dist →
        exec (.goRelay rx g) s = .next (rxSeq rx true [(0x09, goBody g)] s).2) ∧
      (∀ a, permUp rx.port = true → isDown n = true →
        exec (.abortRelay rx a) s = .next (abortUpOp a (rxSeq rx true [(0x0A, abortBody a)] s).2)) ∧
      (∀ a, permDown rx.port = true → isDown n = false → n.val = activeUp s.dist → muted s.dist = false →
        exec (.abortRelay rx a) s = .next (downAbort a (onDist (lctxDrop a.gallery.toNat a.lid.toNat)
          (rxSeq rx true [(0x0A, abortBody a)] s).2))) ∧
      (∀ a, permDown rx.port = true → isDown n = false → muted s.dist = true ∨ n.val ≠ activeUp s.dist →
        exec (.abortRelay rx a) s = .next (rxSeq rx true [(0x0A, abortBody a)] s).2)) ∧
    (∀ (rx : Rx) (a : Arm), ((rxArm rx (permUp rx.port) 0 false a s).1 = false →
        exec (.armRequestRx rx a) s = .next (rxArm rx (permUp rx.port) 0 false a s).2) ∧
      ((rxArm rx (permDown rx.port) 1 false a s).1 = false →
        exec (.armBroadcastDist rx a) s = .next (rxArm rx (permDown rx.port) 1 false a s).2) ∧
      (∀ refused, (rxArm rx (permUp rx.port) 2 refused a s).1 = false →
        exec (.censusRx rx a refused) s = .next (rxArm rx (permUp rx.port) 2 refused a s).2)) ∧
    (∀ (rx : Rx) (g : Go), (rxSeq rx (permDown rx.port) [(0x09, goBody g)] s).1 = false →
      exec (.goRelay rx g) s = .next (rxSeq rx (permDown rx.port) [(0x09, goBody g)] s).2) ∧
    (∀ (rx : Rx) (a : Abort), (rxSeq rx (permDown rx.port || permUp rx.port) [(0x0A, abortBody a)] s).1 = false →
      exec (.abortRelay rx a) s = .next (rxSeq rx (permDown rx.port || permUp rx.port) [(0x0A, abortBody a)] s).2) ∧
    (∀ (g : BitVec 12) (lid : BitVec 16) c, distRuns s → lctxFind s.dist g.toNat lid.toNat = some c →
      (isRoot s.dist = true → c.own = true → c.target < s.dist.base.ns.toNat + cutoff s.dist →
        exec (.launchCutoffExpiry g lid) s = .next (rootAbort g.toNat c.epochLo lid.toNat 0x02 s)) ∧
      (isRoot s.dist = false ∨ c.own = false ∨ s.dist.base.ns.toNat + cutoff s.dist ≤ c.target →
        exec (.launchCutoffExpiry g lid) s = .next s)) ∧
    (∀ (g : BitVec 12) (lid : BitVec 16), lctxFind s.dist g.toNat lid.toNat = none →
      exec (.launchCutoffExpiry g lid) s = .next s) ∧
    (∀ n : Fin 132, live s.dist.base = true → exec (.reqTokenRefill n) s = .next (onDist (reqRefill n.val) s)) ∧
    (∀ n : Fin 132, s.dist.base.tick < (tabGet {} n.val s.dist.cmb.reqTok).at_ + fld (rd s.dist.base 0x0E048) 8 24 * 4 →
      exec (.reqTokenRefill n) s = .next s)

/-! ## Combining -/

/-- Combining at the unit (R363 to R365, R378, R380 to R383, R398): a chunk written to a buffer that is not POSTED stages it;
a post that no cause refuses opens an operation, and one refused opens none; reads of a buffer leave it; a buffer that the
configuration lacks is answered BAD_OBJ; results and COMMITs in sequence from a usable domain are acted on, and others leave only
what receiving them leaves; what is held completes as soon as it may; a deadline that has run aborts from its operation on, and
one that has not changes nothing; GAL_STATE is written, and the gallery no longer stale, only while the gallery has no open
operation. -/
def Obligations.CombiningAtUnits : Prop :=
  ∀ (s : State),
    (∀ r (buf : BitVec 8) (chunk : BitVec 3) data, accepts r 0x0C s → buf.toNat < bufCap s.unit →
      ((bufGet s.unit buf.toNat).st ≠ .posted → ∃ t, exec (.cmbData r buf chunk data) s = .next t ∧ t.dist = s.dist ∧
        bufGet t.unit buf.toNat =
          { bufGet s.unit buf.toNat with
            st := .staging,
            mask := (if (bufGet s.unit buf.toNat).st = .staging then (bufGet s.unit buf.toNat).mask else 0) |||
              BitVec.ofNat 8 (2 ^ chunk.toNat),
            data := (bufGet s.unit buf.toNat).data.set chunk.toNat data } ∧
        ∀ c, c ≠ buf.toNat → bufGet t.unit c = bufGet s.unit c) ∧
      ((bufGet s.unit buf.toNat).st = .posted →
        exec (.cmbData r buf chunk data) s = .next (onUnit (respError r stRefused buf.toNat 0x0C 7) s))) ∧
    (∀ r (buf : BitVec 8) chunk data, accepts r 0x0C s → bufCap s.unit ≤ buf.toNat →
      exec (.cmbData r buf chunk data) s = .next (onUnit (respError r stBadObj buf.toNat 0x0C 0) s)) ∧
    (∀ r (buf : BitVec 8) (g : BitVec 12) (op : BitVec 8) (chunks : BitVec 4) (gseq sigSem : BitVec 16) sigEn notify p,
      accepts r 0x0D s → p = PostReq.mk g.toNat gseq op.toNat chunks.toNat buf.toNat sigSem.toNat
        sigEn notify r.reply.toNat r.tag.toNat none →
      (op.toNat % 64 = opBarrier ∨ buf.toNat < bufCap s.unit →
        (postRefusal s.unit p = 0 → ∃ t o, exec (.cmbPost r buf g op chunks gseq sigSem sigEn notify) s = .next t ∧
          t.unit.cmb.ops = s.unit.cmb.ops ++ [o] ∧ o.gallery = g.toNat ∧ o.gseq = gseq ∧ o.op = op.toNat ∧
          o.ready = none ∧ o.abort = false ∧ o.notify = notify ∧ o.postedAt = s.unit.base.tick) ∧
        (postRefusal s.unit p ≠ 0 → ∃ t, exec (.cmbPost r buf g op chunks gseq sigSem sigEn notify) s = .next t ∧
          t.unit.cmb = s.unit.cmb)) ∧
      (op.toNat % 64 ≠ opBarrier → bufCap s.unit ≤ buf.toNat →
        exec (.cmbPost r buf g op chunks gseq sigSem sigEn notify) s =
          .next (onUnit (respError r stBadObj buf.toNat 0x0D 0) s))) ∧
    (∀ r buf chunk, accepts r 0x0E s → ∃ t, exec (.cmbRead r buf chunk) s = .next t ∧ t.unit.cmb = s.unit.cmb ∧
      t = onUnit (cmbReadOp r buf.toNat chunk.toNat) s) ∧
    (∀ (d : Dom) (lane : Bool) (seq : BitVec 8), inOrder ⟨.unit d, lane, seq, none⟩ s → domUsable s.unit d = true →
      (∀ k op repro status pl,
        exec (.cmbDownRxUnit ⟨.unit d, lane, seq, none⟩ k op repro status pl) s = .next (unitDownOp d k (op.toNat % 64)
          { status := status.toNat, epochLo := k.epochLo.toNat, repro := repro, payload := pl }
          (rxCmbDown ⟨.unit d, lane, seq, none⟩ k op.toNat repro status.toNat pl s).2)) ∧
      (∀ k, exec (.commitRxUnit ⟨.unit d, lane, seq, none⟩ k) s =
        .next (unitCommitOp d k (rxCommit ⟨.unit d, lane, seq, none⟩ k s).2))) ∧
    (∀ (rx : Rx) k (op : BitVec 8) repro (status : BitVec 4) pl (r : Bool × State),
      r = rxCmbDown rx k op.toNat repro status.toNat pl s →
      r.1 = false ∨ (∀ d, rx.port = .unit d → domUsable r.2.unit d = false) →
      exec (.cmbDownRxUnit rx k op repro status pl) s = .next r.2) ∧
    (∀ (rx : Rx) k (r : Bool × State), r = rxCommit rx k s →
      r.1 = false ∨ (∀ d, rx.port = .unit d → domUsable r.2.unit d = false) → exec (.commitRxUnit rx k) s = .next r.2) ∧
    (unitRuns s → exec .heldCommitRelease s = .next (settleAll s)) ∧
    ((∀ g, settleStep g s = none) → exec .heldCommitRelease s = .next s) ∧
    (∀ (g : BitVec 12), unitRuns s → exec (.cmbUnitDeadline g) s = .next (unitDeadlineOp g.toNat s)) ∧
    (∀ (g : BitVec 12), overdue s.unit g.toNat = none → exec (.cmbUnitDeadline g) s = .next s) ∧
    (∀ be data, unitRuns s → galOps s.unit (galSel s.unit) = [] → ∃ t, exec (.cmbGalStateWrite be data) s = .next t ∧
      rd t.unit.base (galStateAddr (galSel s.unit)) =
        mergeBytes be (rd s.unit.base (galStateAddr (galSel s.unit))) data ∧
      galStale t.unit (galSel s.unit) = false ∧ t.dist = s.dist) ∧
    (∀ be data, unitRuns s → galOps s.unit (galSel s.unit) ≠ [] → exec (.cmbGalStateWrite be data) s =
      .next (logU uCmbCfgErr noPort (galSel s.unit) 0 0 s)) ∧
    (¬ unitRuns s → exec .heldCommitRelease s = .next s ∧ (∀ g, exec (.cmbUnitDeadline g) s = .next s) ∧
      ∀ be data, exec (.cmbGalStateWrite be data) s = .next s)

/-- Combining at a distributor (R360, R366 to R379, R384): in sequence on an admitted port, a contribution, an ACKCMB, and on
port 128 a result and a COMMIT, are acted on, and none of them while muted; a result that arrives in parts is relayed as it
comes; a frame that is not accepted leaves only what receiving it leaves. A full pool, or no context that waits, grants no
accumulator set; a substitution, a lead's deadline and an ACKCMB timeout run on their ports and contexts, and on a context that
is not open, or a port whose answer is not awaited, do nothing. -/
def Obligations.CombiningAtDistributors : Prop :=
  ∀ (s : State),
    (∀ (n : Fin 132) (rx : Rx), inOrderAdmitted rx n s →
      (∀ k op repro pl, permUp rx.port = true → exec (.cmbUpRx rx k op repro pl) s =
        .next (cmbUpOp n k op.toNat repro pl (rxCmbUp rx k op.toNat repro pl s).2)) ∧
      (∀ k op repro pl, permUp rx.port = true → muted s.dist = true → exec (.cmbUpRx rx k op repro pl) s =
        .next (rxCmbUp rx k op.toNat repro pl s).2) ∧
      (∀ k op repro status pl, n = 128 → muted s.dist = false → exec (.cmbDownRxDist rx k op repro status pl) s =
        .next (cmbDownOp k (op.toNat % 64)
          { status := status.toNat, epochLo := k.epochLo.toNat, repro := repro, payload := pl }
          (rxCmbDown rx k op.toNat repro status.toNat pl s).2)) ∧
      (∀ k op repro status pl, permDown rx.port = true → n ≠ 128 ∨ muted s.dist = true →
        exec (.cmbDownRxDist rx k op repro status pl) s = .next (rxCmbDown rx k op.toNat repro status.toNat pl s).2) ∧
      (∀ k good, permUp rx.port = true → muted s.dist = false → exec (.ackcmbRx rx k good) s =
        .next (ackcmbOp n k good (rxSeq rx true
          [(0x0F, ackcmbBody k.gallery.toNat k.epochLo.toNat k.gseq.toNat good)] s).2)) ∧
      (∀ k good, permUp rx.port = true → muted s.dist = true → exec (.ackcmbRx rx k good) s =
        .next (rxSeq rx true [(0x0F, ackcmbBody k.gallery.toNat k.epochLo.toNat k.gseq.toNat good)] s).2) ∧
      (∀ k, n = 128 → muted s.dist = false → exec (.commitRxDist rx k) s = .next (distCommitOp k (rxCommit rx k s).2)) ∧
      (∀ k, permDown rx.port = true → n ≠ 128 ∨ muted s.dist = true →
        exec (.commitRxDist rx k) s = .next (rxCommit rx k s).2)) ∧
    (∀ (rx : Rx) (k : CmbKey) (op : BitVec 8) repro pl, (rxCmbUp rx k op.toNat repro pl s).1 = false →
      exec (.cmbUpRx rx k op repro pl) s = .next (rxCmbUp rx k op.toNat repro pl s).2) ∧
    (∀ (rx : Rx) (k : CmbKey) (op : BitVec 8) repro (status : BitVec 4) pl (r : Bool × State),
      r = rxCmbDown rx k op.toNat repro status.toNat pl s → r.1 = false →
      (rx.part = none → exec (.cmbDownRxDist rx k op repro status pl) s = .next r.2) ∧
      (rx.part.isSome = true → rx.port = .dist 128 → admitted (distPort r.2.dist 128) = true → muted r.2.dist = false →
        exec (.cmbDownRxDist rx k op repro status pl) s = .next (relayPart k.gallery.toNat k.gseq (op.toNat % 64) pl.length
          (openedOf 0x0D (distPort r.2.dist 128).arq.opened) r.2))) ∧
    (∀ (rx : Rx) (k : CmbKey) good (r : Bool × State), r = rxSeq rx (permUp rx.port)
        [(0x0F, ackcmbBody k.gallery.toNat k.epochLo.toNat k.gseq.toNat good)] s → r.1 = false →
      exec (.ackcmbRx rx k good) s = .next r.2) ∧
    (∀ (rx : Rx) (k : CmbKey), (rxCommit rx k s).1 = false → exec (.commitRxDist rx k) s = .next (rxCommit rx k s).2) ∧
    (distRuns s → exec .accSetGrant s = .next (accGrant s)) ∧
    (accPool ≤ accUsed s.dist ∨ (∀ c ∈ s.dist.cmb.ctxs, c.accWait = none) → exec .accSetGrant s = .next s) ∧
    (∀ p : BitVec 7, distRuns s → exec (.substTimeout p) s = .next (substTimeoutOp p.toNat s)) ∧
    (∀ p : BitVec 7, distRuns s → substOverdue s.dist p.toNat = [] →
      exec (.substTimeout p) s = .next (cancelTest p.toNat s)) ∧
    (∀ g q, distRuns s → exec (.cmbDeadlineExpiry g q) s = .next (ctxDeadlineOp g.toNat q s)) ∧
    (∀ g q, isRoot s.dist = false ∨ ctxFind s.dist g.toNat q = none → exec (.cmbDeadlineExpiry g q) s = .next s) ∧
    (∀ g q c, ctxFind s.dist g.toNat q = some c → c.done = true ∨ c.result.isSome = true ∨ c.expired = true ∨
      s.dist.base.tick < c.dlFrom + toutTicks s.dist 0x058 28 → exec (.cmbDeadlineExpiry g q) s = .next s) ∧
    (∀ g q p, distRuns s → exec (.cmbAckTimeout g q p) s = .next (ackTimeoutOp g.toNat q p.toNat s)) ∧
    (∀ g q p, ctxHeld s.dist g.toNat q = none → exec (.cmbAckTimeout g q p) s = .next s) ∧
    (∀ g q p c, ctxHeld s.dist g.toNat q = some c → c.good.contains p.toNat = true ∨
      (∀ x ∈ c.relayed, x.1 = p.toNat → s.dist.base.tick < x.2 + toutTicks s.dist 0x05C 18) →
      exec (.cmbAckTimeout g q p) s = .next s) ∧
    (¬ distRuns s → exec .accSetGrant s = .next s ∧ (∀ p, exec (.substTimeout p) s = .next s) ∧
      ∀ g q p, exec (.cmbDeadlineExpiry g q) s = .next s ∧ exec (.cmbAckTimeout g q p) s = .next s)

/-- The records of the mirror partner (R102, R184, R237, R241, R243, R368, R372, R394 to R396): a record that is in sequence
and next in RSEQ order is taken once, counted, and acted on; a calibration record only where it follows the last one applied;
a record that is not taken leaves only what receiving it leaves, but for a result whose group is still arriving, which is
relayed as it comes. -/
def Obligations.RopeRecordsAct : Prop :=
  ∀ (s : State) (rx : Rx) (k : RopeKey),
    (ropeNext rx k s →
      (∀ hdr pl, (rxRope rx k.rseq hdr pl s).2.dist.rope.rxSeq = s.dist.rope.rxSeq + 1) ∧
      (∀ port op repro absent dlen all, exec (.substHdr rx k port op repro absent dlen all) s = .next (substHdrOp
        { gallery := k.gallery.toNat, epochLo := k.epochLo.toNat, gseq := k.gseq, port := port.toNat % 128, op := op.toNat,
          repro := repro } absent all (rxRope rx k.rseq (ropeHdrOf 0x80 1 k)
            [substHdrBody port.toNat op.toNat repro absent dlen.toNat all] s).2)) ∧
      (∀ pl, exec (.substData rx k pl) s =
        .next (substDataOp k.gallery.toNat k.gseq pl (rxRope rx k.rseq (ropeHdrOf 0x81 pl.length k) pl s).2)) ∧
      (∀ port on, exec (.substReq rx k port on) s = .next (substReqOp (port.toNat % 128) on
        (rxRope rx k.rseq (ropeHdrOf 0x82 1 k) [substReqBody port.toNat on] s).2)) ∧
      (∀ op status repro pl c, c = CmbCopy.mk status.toNat k.epochLo.toNat repro pl →
        exec (.resultRecord rx k op status repro pl) s = .next (resultRecOp k.gallery.toNat k.gseq op.toNat c
          (rxRope rx k.rseq (ropeHdrOf 0x83 (pl.length + 1) k) (resultRecBody op.toNat c) s).2)) ∧
      (∀ epoch valid, exec (.syncRecord rx k epoch valid) s = .next (syncOp k.gallery.toNat k.gseq epoch valid
        (rxRope rx k.rseq (ropeHdrOf 0x84 1 k) [syncBody epoch.toNat valid] s).2)) ∧
      (∀ target mask tol uid, exec (.launchOpen rx k target mask tol uid) s = .next (openRecordOp
        (armOfRecord k target mask tol uid) (rxRope rx k.rseq (ropeHdrOf 0x90 3 k)
          (launchOpenBody (armOfRecord k target mask tol uid)) s).2)) ∧
      (∀ go reason, exec (.launchDecision rx k go reason) s = .next (decisionRecordOp k.gallery.toNat k.epochLo.toNat
        k.gseq.toNat go reason.toNat (rxRope rx k.rseq (ropeHdrOf 0x91 1 k) [decisionBody go reason.toNat] s).2)) ∧
      (∀ port uid refused, exec (.launchCensus rx k port uid refused) s = .next (censusAdd k.gallery.toNat k.gseq.toNat
        port.toNat uid.toNat refused (rxRope rx k.rseq (ropeHdrOf 0x92 1 k)
          [bodyOf [(8, port.toNat), (20, uid.toNat), (1, if refused then 1 else 0)]] s).2)) ∧
      (∀ target mask tol uid, isRoot s.dist = true → isLead s.dist = true → exec (.launchReq rx k target mask tol uid) s =
        .next (decideRequest (armOfRecord k target mask tol uid) (rxRope rx k.rseq (ropeHdrOf 0x93 3 k)
          (launchOpenBody (armOfRecord k target mask tol uid)) s).2)) ∧
      (∀ target mask tol uid, isRoot s.dist = false ∨ isLead s.dist = false →
        exec (.launchReq rx k target mask tol uid) s = .next (rxRope rx k.rseq (ropeHdrOf 0x93 3 k)
          (launchOpenBody (armOfRecord k target mask tol uid)) s).2) ∧
      (∀ rhoUp defUp sigma defValid rhoValid upPort, calFollows s.dist k.gseq = true →
        ∃ t, exec (.calibrationRecord rx k rhoUp defUp sigma defValid rhoValid upPort) s = .next t ∧
          t.dist.cal.rxSeq = some k.gseq ∧ t.dist.cal.last = some
            { rhoUp := rhoUp.toInt, defUp := defUp.toInt, sigma := sigma.toNat, defValid := defValid,
              rhoValid := rhoValid, upPort := upPort }) ∧
      (∀ rhoUp defUp sigma defValid rhoValid upPort, calFollows s.dist k.gseq = false →
        ∃ t, exec (.calibrationRecord rx k rhoUp defUp sigma defValid rhoValid upPort) s = .next t ∧
          t.dist.cal = s.dist.cal)) ∧
    (∀ port op repro absent dlen all (r : Bool × State), r = rxRope rx k.rseq (ropeHdrOf 0x80 1 k)
        [substHdrBody port.toNat op.toNat repro absent dlen.toNat all] s → r.1 = false →
      exec (.substHdr rx k port op repro absent dlen all) s = .next r.2) ∧
    (∀ pl (r : Bool × State), r = rxRope rx k.rseq (ropeHdrOf 0x81 pl.length k) pl s → r.1 = false →
      exec (.substData rx k pl) s = .next r.2) ∧
    (∀ port on (r : Bool × State), r = rxRope rx k.rseq (ropeHdrOf 0x82 1 k) [substReqBody port.toNat on] s → r.1 = false →
      exec (.substReq rx k port on) s = .next r.2) ∧
    (∀ op status repro pl c (r : Bool × State), c = CmbCopy.mk status.toNat k.epochLo.toNat repro pl →
      r = rxRope rx k.rseq (ropeHdrOf 0x83 (pl.length + 1) k) (resultRecBody op.toNat c) s → r.1 = false →
      (rx.part = none → exec (.resultRecord rx k op status repro pl) s = .next r.2) ∧
      (∀ n : Fin 132, rx.part.isSome = true → rx.port = .dist n → isRope n = true → isRoot r.2.dist = true →
        admitted (distPort r.2.dist n) = true → exec (.resultRecord rx k op status repro pl) s =
          .next (relayPart k.gallery.toNat k.gseq op.toNat pl.length ((downBodies k.gallery.toNat k.gseq op.toNat c).take
            ((openedOf 0x13 (distPort r.2.dist n).arq.opened).length - 1)) r.2))) ∧
    (∀ epoch valid (r : Bool × State), r = rxRope rx k.rseq (ropeHdrOf 0x84 1 k) [syncBody epoch.toNat valid] s →
      r.1 = false → exec (.syncRecord rx k epoch valid) s = .next r.2) ∧
    (∀ target mask tol uid (r : Bool × State), r = rxRope rx k.rseq (ropeHdrOf 0x90 3 k)
        (launchOpenBody (armOfRecord k target mask tol uid)) s → r.1 = false →
      exec (.launchOpen rx k target mask tol uid) s = .next r.2) ∧
    (∀ go reason (r : Bool × State), r = rxRope rx k.rseq (ropeHdrOf 0x91 1 k) [decisionBody go reason.toNat] s →
      r.1 = false → exec (.launchDecision rx k go reason) s = .next r.2) ∧
    (∀ port uid refused (r : Bool × State), r = rxRope rx k.rseq (ropeHdrOf 0x92 1 k)
        [bodyOf [(8, port.toNat), (20, uid.toNat), (1, if refused then 1 else 0)]] s → r.1 = false →
      exec (.launchCensus rx k port uid refused) s = .next r.2) ∧
    (∀ target mask tol uid (r : Bool × State), r = rxRope rx k.rseq (ropeHdrOf 0x93 3 k)
        (launchOpenBody (armOfRecord k target mask tol uid)) s → r.1 = false →
      exec (.launchReq rx k target mask tol uid) s = .next r.2) ∧
    (∀ rhoUp defUp sigma defValid rhoValid upPort (r : Bool × State), r = rxRope rx k.rseq
        (ropeHdr 0xC1 k.gallery.toNat k.epochLo.toNat k.gseq.toNat 1 k.rseq.toNat)
        [calPayload rhoUp.toInt defUp.toInt sigma.toNat defValid rhoValid upPort] s → r.1 = false →
      exec (.calibrationRecord rx k rhoUp defUp sigma defValid rhoValid upPort) s = .next r.2)

/-! ## The root: references and PTP -/

/-- The root's references (R25, R110, R112, R115, R117, R121 to R123, R132, R137, R138, R149, R184): every one of these commands
does nothing at a distributor that is no root or does not run, but for the second mark's, the calibration period's and the
pulses' own conditions; a failed oscillator is no longer present and latched FAILED; a monitor that fails ends its source's
qualification; the edge that PPS_EDGE selects is a second mark, and the other is none; qualification, wait-to-restore and a
switch take effect when their time or marks have come, and not before; REALIGN is refused outside LOCKED and during a switch; an
armed epoch loads NS with its value and takes its generation, on the selected source's mark or 1,000 ticks after an ARM without
one; FRMOUT is high for one frame cycle. -/
def Obligations.ReferencesRun : Prop :=
  ∀ s : State,
    (isRoot s.dist = false ∨ ¬ distRuns s → ∀ n frac src falling, exec .xoFail s = .next s ∧ exec (.refClockLoss n) s = .next s ∧
      exec (.refPulseTimeout n) s = .next s ∧ exec (.refSecondMark n ⟨falling, frac⟩) s = .next s ∧
      exec (.sourceQualified src) s = .next s ∧ exec (.wtrExpiry src) s = .next s ∧ exec .switchCommit s = .next s ∧
      exec .realign s = .next s ∧ exec (.epochApply frac) s = .next s) ∧
    (¬ distRuns s → exec .frmoutPulse s = .next s ∧ exec .ppsoutPulseEnd s = .next s ∧ exec .calPeriod s = .next s) ∧
    (rootRuns s → rdB s.dist.base 0x7054 1 = true → ∃ t, exec .xoFail s = .next t ∧ rdB t.dist.base 0x7054 1 = false ∧
      rdB t.dist.base 0x7054 2 = true ∧ rdB t.dist.base 0x7054 0 = false) ∧
    (rdB s.dist.base 0x7054 1 = false → exec .xoFail s = .next s) ∧
    (∀ n : BitVec 2, rootRuns s → refMode s.dist n.toNat = 1 → exec (.refClockLoss n) s =
      .next (failMonitor n.toNat 1 dRefLos (srcOf s n.toNat).clk (fun x => { x with clk := false }) s)) ∧
    (∀ n : BitVec 2, refMode s.dist n.toNat ≠ 1 → exec (.refClockLoss n) s = .next s) ∧
    (∀ (n : BitVec 2) k, rootRuns s → refMode s.dist n.toNat ≠ 0 → (srcOf s n.toNat).last = some k →
      k + 1000010000 < s.dist.base.tick → exec (.refPulseTimeout n) s =
        .next (failMonitor n.toNat 1 dRefLos (srcOf s n.toNat).pps (fun x => { x with pps := false }) s)) ∧
    (∀ n : BitVec 2, refMode s.dist n.toNat = 0 ∨ (srcOf s n.toNat).last = none ∨
      (∃ k, (srcOf s n.toNat).last = some k ∧ s.dist.base.tick ≤ k + 1000010000) →
      exec (.refPulseTimeout n) s = .next s) ∧
    (∀ (n : BitVec 2) (falling : Bool) (frac : BitVec 6), rootRuns s → refMode s.dist n.toNat ≠ 0 → s.dist.base.valid = true →
      rdB s.dist.base (refReg n.toNat 0x040) 2 = falling →
      (epochOnMark s.dist = false ∨ selected s.dist ≠ n.toNat →
        exec (.refSecondMark n ⟨falling, frac⟩) s = .next (refMark n.toNat (markPhase s.dist frac.toNat) s)) ∧
      (epochOnMark s.dist = true → selected s.dist = n.toNat → exec (.refSecondMark n ⟨falling, frac⟩) s =
        .next (onRoot (fun r => { r with err := 0 }) (setBuildout (-(frac.toNat : Int))
          (epochTake (refMark n.toNat (markPhase s.dist frac.toNat) s)))))) ∧
    (∀ (n : BitVec 2) (falling : Bool) (frac : BitVec 6), refMode s.dist n.toNat = 0 ∨ s.dist.base.valid = false ∨
      rdB s.dist.base (refReg n.toNat 0x040) 2 ≠ falling → exec (.refSecondMark n ⟨falling, frac⟩) s = .next s) ∧
    (∀ src : BitVec 3, rootRuns s → src.toNat ≤ 4 → monitorsPass s.dist src.toNat = true →
      (srcOf s src.toNat).qual = false → qualTime s.dist src.toNat ≤ (srcOf s src.toNat).served →
      exec (.sourceQualified src) s = .next (reselect (onDist (fun d => dB (emit (.pin .refOk (refOkBits d))) d)
        (onDist (dB (pgEvt (refPage src.toNat) 0)) (onSrc src.toNat (fun x => { x with qual := true, hist := [] }) s))))) ∧
    (∀ src : BitVec 3, 4 < src.toNat ∨ monitorsPass s.dist src.toNat = false ∨ (srcOf s src.toNat).qual = true ∨
      (srcOf s src.toNat).served < qualTime s.dist src.toNat → exec (.sourceQualified src) s = .next s) ∧
    (∀ src : BitVec 3, rootRuns s → src.toNat ≤ 4 → monitorsPass s.dist src.toNat = true →
      (srcOf s src.toNat).everDisq = true → qualWtr s.dist src.toNat ≤ (srcOf s src.toNat).served →
      exec (.wtrExpiry src) s = .next (reselect (onSrc src.toNat (fun x => { x with wtrDone := true }) s))) ∧
    (∀ src : BitVec 3, 4 < src.toNat ∨ monitorsPass s.dist src.toNat = false ∨ (srcOf s src.toNat).everDisq = false ∨
      (srcOf s src.toNat).served < qualWtr s.dist src.toNat → exec (.wtrExpiry src) s = .next s) ∧
    (switching s.dist = false ∨ s.dist.root.meas.length < switchMarks (refMode s.dist (target s.dist)) →
      exec .switchCommit s = .next s) ∧
    (rootRuns s → switching s.dist = true → switchMarks (refMode s.dist (target s.dist)) ≤ s.dist.root.meas.length →
      exec .switchCommit s = .next (commitOp s)) ∧
    (rootRuns s → selState s.dist = 2 → switching s.dist = false → ∃ t, exec .realign s = .next t ∧
      realigning t.dist = true ∧ t.dist.root = s.dist.root) ∧
    (rootRuns s → selState s.dist ≠ 2 ∨ switching s.dist = true → exec .realign s =
      .next (logD dRealignRefused noPort 0 0 0 s)) ∧
    (∀ c0 c1 c2 c3, live s.dist.base = true → s.dist.base.phase ≠ .stopped → exec (.htSecondMark c0 c1 c2 c3) s =
      .next (secondOp c0.toNat c1.toNat c2.toNat c3.toNat s)) ∧
    (∀ c0 c1 c2 c3, secondMark s.dist = false ∨ s.dist.root.secAt = some s.dist.base.tick ∨ live s.dist.base = false ∨
      s.dist.base.phase = .stopped → exec (.htSecondMark c0 c1 c2 c3) s = .next s) ∧
    (distRuns s → s.dist.base.valid = true → rdB s.dist.base 0x0E040 2 = true →
      s.dist.base.ns.toNat % (4 * rdF s.dist.base 0x106C 0 16) = 0 →
      exec .frmoutPulse s = .next (onRoot (fun r => { r with frmEnd := some (s.dist.base.tick + 4) })
        (onDist (dB (emit (.pin .frmout 1))) s))) ∧
    (s.dist.base.valid = false ∨ rdB s.dist.base 0x0E040 2 = false ∨
      s.dist.base.ns.toNat % (4 * rdF s.dist.base 0x106C 0 16) ≠ 0 → exec .frmoutPulse s = .next s) ∧
    (∀ k, s.dist.root.frmEnd = some k → k ≤ s.dist.base.tick →
      (frmoutEnd s.dist).root = { s.dist.root with frmEnd := none } ∧
      (frmoutEnd s.dist).base.outs = s.dist.base.outs ++ [.pin .frmout 0]) ∧
    (∀ k, distRuns s → s.dist.root.ppsEnd = some k → k ≤ s.dist.base.tick → ∃ t, exec .ppsoutPulseEnd s = .next t ∧
      t.dist.root = { s.dist.root with ppsEnd := none } ∧ t.dist.base.outs = s.dist.base.outs ++ [.pin .ppsout 0]) ∧
    ((∀ k, s.dist.root.ppsEnd = some k → s.dist.base.tick < k) → exec .ppsoutPulseEnd s = .next s) ∧
    (∀ frac, rootRuns s → rdB s.dist.base 0x1050 2 = true →
      (∃ k, s.dist.root.armAt = some k ∧ k + 1000 ≤ s.dist.base.tick) ∨
        (s.dist.root.armAt = none ∧ selected s.dist ≠ 7) →
      ∃ t, exec (.epochApply frac) s = .next t ∧ t.dist.base.ns = rd64 s.dist.base 0x1054 ∧
        rdF t.dist.base 0x104C 0 16 = rdF s.dist.base 0x1050 16 16 ∧ rdB t.dist.base 0x1050 2 = false ∧
        rd64 t.dist.base 0x105C = rd64 s.dist.base 0x1054 ∧ t.dist.root.armAt = none ∧
        t.dist.base.valid = s.dist.base.valid) ∧
    (∀ frac, rdB s.dist.base 0x1050 2 = false ∨ (∃ k, s.dist.root.armAt = some k ∧ s.dist.base.tick < k + 1000) ∨
      (s.dist.root.armAt = none ∧ selected s.dist = 7) → exec (.epochApply frac) s = .next s) ∧
    (distRuns s → isRoot s.dist = true → s.dist.cal.lastAt + rdF s.dist.base 0x12040 0 12 ≤ s.dist.root.secs →
      exec .calPeriod s = .next (calNote ([130, 131].foldl (fun s n => calUnsolved n s)
        (onCal (fun c => { c with lastAt := s.dist.root.secs }) s)))) ∧
    (distRuns s → isRoot s.dist = false → s.dist.cal.lastAt + rdF s.dist.base 0x12040 0 12 ≤ s.dist.root.secs →
      exec .calPeriod s = .next (calNote (calSolve (calSend
        (onCal (fun c => { c with lastAt := s.dist.root.secs }) s))))) ∧
    (s.dist.root.secs < s.dist.cal.lastAt + rdF s.dist.base 0x12040 0 12 → exec .calPeriod s = .next s)

/-- The PTP slave (R110, R118 to R121, R609): with the slave disabled, at a distributor that is no root, or before it runs, no
message does anything; a message that is not of its domain, transport and VLAN is only counted as discarded; an Announce of its
own is recorded and the best master chosen; Sync, Follow_Up and Delay_Resp of the selected master are measured, those of
another, or that answer nothing it awaits, are not; a Delay_Req leaves in its interval where a master is selected and the MAC
address is set; and an ARP request for another address is not answered. -/
def Obligations.PtpSlave : Prop :=
  ∀ (s : State) (h : PtpHdr),
    (ptpEn s.dist = false ∨ isRoot s.dist = false ∨ ¬ distRuns s → ∀ a two t mine, exec (.ptpAnnounceRx h a) s = .next s ∧
      exec (.ptpSyncRx h two t) s = .next s ∧ exec (.ptpFollowUpRx h t) s = .next s ∧
      exec (.ptpDelayRespRx h t mine) s = .next s ∧ exec .ptpDelayReqTimer s = .next s ∧
      exec .ptpActivityTimeout s = .next s ∧ exec .ptpDiscardedFrame s = .next s) ∧
    (rootRuns s → ptpEn s.dist = true →
      (h.domain.toNat ≠ ptpDomain s.dist ∨ h.l2 ≠ rdB s.dist.base 0x8048 12 ∨
          h.vlan ≠ (if rdB s.dist.base 0x8048 15 then some (BitVec.ofNat 12 (rdF s.dist.base 0x8048 16 12)) else none) →
        ∀ a two t mine, exec (.ptpAnnounceRx h a) s = .next (ptpDiscard s) ∧
        exec (.ptpSyncRx h two t) s = .next (ptpDiscard s) ∧ exec (.ptpFollowUpRx h t) s = .next (ptpDiscard s) ∧
        exec (.ptpDelayRespRx h t mine) s = .next (ptpDiscard s)) ∧
      (h.log.toInt < -7 ∨ 1 < h.log.toInt → ∀ two t, exec (.ptpSyncRx h two t) s = .next (ptpDiscard s)) ∧
      (h.domain.toNat = ptpDomain s.dist → h.l2 = rdB s.dist.base 0x8048 12 →
          h.vlan = (if rdB s.dist.base 0x8048 15 then some (BitVec.ofNat 12 (rdF s.dist.base 0x8048 16 12)) else none) →
        (∀ a, exec (.ptpAnnounceRx h a) s = .next (chooseMaster (onPtp (fun p => { p with
          masters := (p.masters.filter fun x => !(x.id == h.src && x.port == h.port)) ++
            [{ id := h.src, port := h.port, addr := h.addr, ann := a, log := h.log, at_ := s.dist.base.tick }] })
          (onDist (dB (inc 0x8090)) s)))) ∧
        (fromMaster s.dist h = true → -7 ≤ h.log.toInt → h.log.toInt ≤ 1 → ∀ two t, ∃ u,
          exec (.ptpSyncRx h two t) s = .next u ∧ u.dist.ptp.syncAt = s.dist.base.tick ∧ u.dist.ptp.syncLog = h.log ∧
          u.dist.ptp.sel = s.dist.ptp.sel ∧
          (two = true → u.dist.ptp.sync = some (h.seq,
            ((nsNow s.dist.base).toNat : Int) - (rdF s.dist.base 0x804C 0 10 : Nat), h.corr.toInt)) ∧
          (two = false → u.dist.ptp.t21 = some ((((nsNow s.dist.base).toNat : Int) - (rdF s.dist.base 0x804C 0 10 : Nat) -
            stampNs t) * 65536 - h.corr.toInt))) ∧
        (∀ t t2 c, fromMaster s.dist h = true → s.dist.ptp.sync = some (h.seq, t2, c) →
          ∃ u, exec (.ptpFollowUpRx h t) s = .next u ∧ u.dist.ptp.sync = none ∧
            u.dist.ptp.t21 = some ((t2 - stampNs t) * 65536 - (c + h.corr.toInt)) ∧ u.dist.base = s.dist.base) ∧
        (∀ t, (∀ q t2 c, s.dist.ptp.sync = some (q, t2, c) → q ≠ h.seq) → exec (.ptpFollowUpRx h t) s = .next s) ∧
        (∀ t t3 t21, fromMaster s.dist h = true → s.dist.ptp.dreq = some (h.seq, t3) → s.dist.ptp.t21 = some t21 →
          ∃ u, exec (.ptpDelayRespRx h t true) s = .next u ∧ u.dist.ptp.dreq = none ∧
            u.dist.ptp.mpd = some (quot (t21 + ((stampNs t - t3) * 65536 - h.corr.toInt)) 2)) ∧
        (∀ t mine, fromMaster s.dist h = false ∨ mine = false ∨ s.dist.ptp.t21 = none ∨
          (∀ q t3, s.dist.ptp.dreq = some (q, t3) → q ≠ h.seq) → exec (.ptpDelayRespRx h t mine) s = .next s) ∧
        (∀ two t, fromMaster s.dist h = false → -7 ≤ h.log.toInt → h.log.toInt ≤ 1 → exec (.ptpSyncRx h two t) s = .next s ∧
          exec (.ptpFollowUpRx h t) s = .next s)) ∧
      (s.dist.ptp.sel.isSome = true → ptpMac s.dist ≠ 0 →
        (∀ k, s.dist.ptp.dreqAt = some k → k + logTicks s.dist.ptp.dreqLog ≤ s.dist.base.tick) → ∃ u,
        exec .ptpDelayReqTimer s = .next u ∧ u.dist.ptp.dreqAt = some s.dist.base.tick ∧
        u.dist.ptp.dreqSeq = s.dist.ptp.dreqSeq + 1 ∧
        u.dist.base.outs = s.dist.base.outs ++ [.eth (dreqFrame s.dist)]) ∧
      (s.dist.ptp.sel = none ∨ ptpMac s.dist = 0 ∨
        (∃ k, s.dist.ptp.dreqAt = some k ∧ s.dist.base.tick < k + logTicks s.dist.ptp.dreqLog) →
        exec .ptpDelayReqTimer s = .next s) ∧
      (s.dist.ptp.sel = none → exec .ptpActivityTimeout s = .next s) ∧
      (exec .ptpActivityTimeout s = .next (activityOp s)) ∧
      (exec .ptpDiscardedFrame s = .next (ptpDiscard s))) ∧
    (∀ ip, rootRuns s → ip = rd s.dist.base 0x8044 → ptpMac s.dist ≠ 0 → ∃ u, exec (.arpRequestRx ip) s = .next u ∧
      u.dist.base.outs = s.dist.base.outs ++ [.eth (.arpReply (ptpMac s.dist) ip)] ∧ u.dist.ptp = s.dist.ptp) ∧
    (∀ ip, ip ≠ rd s.dist.base 0x8044 ∨ ptpMac s.dist = 0 ∨ isRoot s.dist = false ∨ ¬ distRuns s →
      exec (.arpRequestRx ip) s = .next s)

/-! ## Registers -/

/-- Register accesses (R552, R554, R562, R563, R568 to R571): an access on a channel that does not exist does nothing; a
misaligned one is answered with ALIGN, recorded in REG_ERR, and reads or writes nothing; one that no code refuses is served
and answered with code 0; a block that does not answer is recorded with code 3; a read of a free PAGE_LOCK answers 0 and
takes the lock.
The distributor's epoch ARM and PTP commit are writes of its registers (R24, R603, R609), and its SMBus transactions
(R634) act through the same registers: a transaction whose PEC fails is not acknowledged and changes nothing else; a Block
Read returns what was requested, once: a second one answers STATUS 0x0F. -/
def Obligations.RegistersAnswer : Prop :=
  (∀ (part : Part) (ch : BitVec 3) (s : State),
    (chExists s part ch.toNat = false ∨ live (partBase s part) = false → ∀ addr be data wr page,
      exec (.registerRead part ch addr) s = .next s ∧
      exec (.registerWrite part ch addr be data) s = .next s ∧ exec (.regAccessTimeout part ch wr addr) s = .next s ∧
      exec (.pageLockRead part ch page) s = .next s) ∧
    (chExists s part ch.toNat = true → live (partBase s part) = true →
      (∀ addr : BitVec 22, addr.toNat % 4 ≠ 0 → exec (.registerRead part ch addr) s =
        .next (onPartBase part (emit (.regData part ch 0xFFFFFFFF (shownCode part 5)))
          (noteError part ch.toNat addr.toNat 5 false s))) ∧
      (∀ (addr : BitVec 22) be data, addr.toNat % 4 ≠ 0 → exec (.registerWrite part ch addr be data) s =
        .next (onPartBase part (emit (.regAck part ch (shownCode part 5)))
          (noteError part ch.toNat addr.toNat 5 true s))) ∧
      (∀ (addr : BitVec 22) (c : Nat), accessCode s part ch.toNat addr.toNat false = c → c ≠ 0 →
        exec (.registerRead part ch addr) s = .next (onPartBase part (emit (.regData part ch 0xFFFFFFFF (shownCode part c)))
          (noteError part ch.toNat addr.toNat c false s))) ∧
      (∀ (addr : BitVec 22) be data (c : Nat), accessCode s part ch.toNat addr.toNat true = c → c ≠ 0 →
        exec (.registerWrite part ch addr be data) s = .next (onPartBase part (emit (.regAck part ch (shownCode part c)))
          (noteError part ch.toNat addr.toNat c true s))) ∧
      (∀ addr : BitVec 22, accessCode s part ch.toNat addr.toNat false = 0 → ∃ r : Word × State,
        r = readReg part ch.toNat (addr.toNat / 0x1000) (addr.toNat % 0x1000) s ∧
        exec (.registerRead part ch addr) s = .next (onPartBase part (emit (.regData part ch r.1 (shownCode part 0))) r.2)) ∧
      (∀ (addr : BitVec 22) be data, accessCode s part ch.toNat addr.toNat true = 0 →
        exec (.registerWrite part ch addr be data) s = .next (onPartBase part (emit (.regAck part ch (shownCode part 0)))
          (writeReg part ch.toNat (addr.toNat / 0x1000) (addr.toNat % 0x1000) be data s))) ∧
      (∀ (addr : BitVec 22), exec (.regAccessTimeout part ch false addr) s =
        .next (onPartBase part (emit (.regData part ch 0xFFFFFFFF (shownCode part 3)))
          (noteError part ch.toNat addr.toNat 3 false (logPart part uRegTimeout dRegTimeout
            (regObj (addr.toNat / 0x1000) (addr.toNat % 0x1000)) (regAux (addr.toNat % 0x1000)) s)))) ∧
      (∀ (addr : BitVec 22), exec (.regAccessTimeout part ch true addr) s =
        .next (onPartBase part (emit (.regAck part ch (shownCode part 3)))
          (noteError part ch.toNat addr.toNat 3 true (logPart part uRegTimeout dRegTimeout
            (regObj (addr.toNat / 0x1000) (addr.toNat % 0x1000)) (regAux (addr.toNat % 0x1000)) s)))) ∧
      (∀ page : BitVec 10, exec (.pageLockRead part ch page) s = .next (readRow part ch (pageAddr page.toNat 0x020) s)) ∧
      (∀ page : BitVec 10, accessCode s part ch.toNat (pageAddr page.toNat 0x020) false = 0 →
        pageWindow (partBase s part).kind page.toNat = false → rd (partBase s part) (pageAddr page.toNat 0x020) = 0 →
        (part = .unit → page.toNat ≠ 0x0A ∨ (cfgOf s.unit.base).w64 = false) →
        (part = .dist → rootOnly page.toNat = false ∨ isRoot s.dist = true) → ∃ t, exec (.pageLockRead part ch page) s = .next t ∧
          rd (partBase t part) (pageAddr page.toNat 0x020) = 0x80000000 ∧
          (partBase t part).outs = (partBase s part).outs ++ [.regData part ch 0 (shownCode part 0)]) ∧
      (∀ page : BitVec 10, accessCode s part ch.toNat (pageAddr page.toNat 0x020) false = 0 →
        pageWindow (partBase s part).kind page.toNat = false →
        bitOf (rd (partBase s part) (pageAddr page.toNat 0x020)) 31 = true → exec (.pageLockRead part ch page) s =
          .next (onPartBase part (emit (.regData part ch (rd (partBase s part) (pageAddr page.toNat 0x020))
            (shownCode part 0))) s)))) ∧
  (∀ s : State,
    (∀ ch gen, chExists s .dist ch.toNat = true → live s.dist.base = true →
      exec (.epochArm ch gen) s = .next (writeRow .dist ch 0x01050 0xF (gen ++ (1 : BitVec 16)) s)) ∧
    (∀ ch be data, chExists s .dist ch.toNat = true → live s.dist.base = true →
      exec (.ptpCfgCommit ch be data) s = .next (writeRow .dist ch 0x08050 be data s)) ∧
    (∀ ch gen be data, chExists s .dist ch.toNat = false ∨ live s.dist.base = false →
      exec (.epochArm ch gen) s = .next s ∧ exec (.ptpCfgCommit ch be data) s = .next s) ∧
    (∀ addr data, live s.dist.base = true → exec (.smbusBlockWrite addr data false) s = .next (smbAnswer false [] s)) ∧
    (∀ addr data, live s.dist.base = true → exec (.smbusBlockWrite addr data true) s =
      .next (smbAnswer true [] (writeAccess .dist 1 addr.toNat 0xF data s).2)) ∧
    (∀ addr, live s.dist.base = true → exec (.smbusReadRequest addr false) s = .next (smbAnswer false [] s)) ∧
    (∀ addr, live s.dist.base = true → ∃ t, exec (.smbusReadRequest addr true) s = .next t ∧
      t.dist.adm.smb = some ((readAccess .dist 1 addr.toNat s).1, (readAccess .dist 1 addr.toNat s).2.1)) ∧
    (∀ w c, live s.dist.base = true → s.dist.adm.smb = some (w, c) → ∃ t, exec .smbusBlockRead s = .next t ∧
      t.dist.adm.smb = some (w, 0x0F) ∧ t.dist.base.outs = s.dist.base.outs ++ [.smbus true (BitVec.ofNat 8 c :: wordBytes w)]) ∧
    (live s.dist.base = true → s.dist.adm.smb = none → ∃ t, exec .smbusBlockRead s = .next t ∧
      t.dist.base.outs = s.dist.base.outs ++ [.smbus true (0x0F :: wordBytes 0)]) ∧
    (live s.dist.base = false → exec .smbusBlockRead s = .next s ∧ ∀ addr data ok,
      exec (.smbusBlockWrite addr data ok) s = .next s ∧ exec (.smbusReadRequest addr ok) s = .next s))

/-- A protected register keeps its value outside a presence window (R12, R13, R154): a write of LIM.STEER of either part while
no window is open leaves it as it is, and one that carries its field is logged as PRESENCE_DENIED. -/
def Obligations.ClosedWindowDenies : Prop :=
  ∀ (s : State) (ch : BitVec 3) (be : BitVec 4) (data : Word), s.Inv →
    (chExists s .unit ch.toNat = true → unitRuns s → windowOpen s.unit.base = false →
      ∃ t, exec (.registerWrite .unit ch 0x14044 be data) s = .next t ∧
        rd t.unit.base 0x14044 = rd s.unit.base 0x14044 ∧ t.dist = s.dist ∧
        (carriesPrw [prwR 0 10 1 500] (rd s.unit.base 0x14044) (mergeBytes be (rd s.unit.base 0x14044) data) = true →
          (rd t.unit.base (cntAddr s.unit.base uPresenceDenied.kind)).toNat =
            satInc 0xFFFFFFFF (rd s.unit.base (cntAddr s.unit.base uPresenceDenied.kind)).toNat)) ∧
    (chExists s .dist ch.toNat = true → distRuns s → windowOpen s.dist.base = false →
      ∃ t, exec (.registerWrite .dist ch 0x0E044 be data) s = .next t ∧
        rd t.dist.base 0x0E044 = rd s.dist.base 0x0E044 ∧ t.unit = s.unit ∧
        (carriesPrw [prwR 0 10 1 500] (rd s.dist.base 0x0E044) (mergeBytes be (rd s.dist.base 0x0E044) data) = true →
          (rd t.dist.base (cntAddr s.dist.base dPresenceDenied.kind)).toNat =
            satInc 0xFFFFFFFF (rd s.dist.base (cntAddr s.dist.base dPresenceDenied.kind)).toNat))
end

