-- ==== Sys2Proof/Laws/Tab.lean ====
section
/-! SUPPORT. Tables: a read after a write, and that every write keeps the canonical form. -/

namespace Sys2Proof.Machine

theorem tabGet_filter_same {α : Type} (d : α) (k : Nat) (t : Tab α) : tabGet d k (t.filter fun x => x.1 != k) = d := by
  induction t with
  | nil => rfl
  | cons x t ih =>
    rw [List.filter_cons]
    split
    · rename_i h
      have hk : ¬ x.1 = k := by simpa using h
      show (if x.1 = k then x.2 else _) = d
      rw [if_neg hk]
      exact ih
    · exact ih

theorem tabGet_filter_other {α : Type} (d : α) (k j : Nat) (t : Tab α) (h : j ≠ k) :
    tabGet d j (t.filter fun x => x.1 != k) = tabGet d j t := by
  induction t with
  | nil => rfl
  | cons x t ih =>
    rw [List.filter_cons]
    split
    · show (if x.1 = j then x.2 else _) = (if x.1 = j then x.2 else _)
      rw [ih]
    · rename_i hx
      have hk : x.1 = k := by simpa using hx
      have hj : ¬ x.1 = j := fun e => h (e ▸ hk)
      rw [ih]
      show _ = (if x.1 = j then x.2 else _)
      rw [if_neg hj]

theorem tabGet_tabPut_same {α : Type} (d : α) (k : Nat) (v : α) (t : Tab α) : tabGet d k (tabPut k v t) = v := by
  induction t with
  | nil => simp [tabPut, tabGet]
  | cons x t ih =>
    obtain ⟨k', v'⟩ := x
    unfold tabPut
    split
    · rename_i h
      have : ¬ k' = k := by omega
      simp only [tabGet, this, if_false, ih]
    · split <;> simp [tabGet]

theorem tabGet_tabPut_other {α : Type} (d : α) (k j : Nat) (v : α) (t : Tab α) (h : j ≠ k) :
    tabGet d j (tabPut k v t) = tabGet d j t := by
  have hkj : ¬ k = j := fun e => h e.symm
  induction t with
  | nil => simp [tabPut, tabGet, hkj]
  | cons x t ih =>
    obtain ⟨k', v'⟩ := x
    unfold tabPut
    split
    · simp only [tabGet, ih]
    · split
      · rename_i he
        subst he
        simp [tabGet, hkj]
      · simp [tabGet, hkj]

/-- A read at the key that was written gives the value written. -/
theorem tabGet_tabSet_same {α : Type} [DecidableEq α] (d : α) (k : Nat) (v : α) (t : Tab α) :
    tabGet d k (tabSet d k v t) = v := by
  unfold tabSet
  split
  · rename_i h
    rw [h]
    exact tabGet_filter_same d k t
  · exact tabGet_tabPut_same d k v t

/-- A write leaves every other key alone. -/
theorem tabGet_tabSet_other {α : Type} [DecidableEq α] (d d' : α) (k j : Nat) (v : α) (t : Tab α) (h : j ≠ k) :
    tabGet d' j (tabSet d k v t) = tabGet d' j t := by
  unfold tabSet
  split
  · exact tabGet_filter_other d' k j t h
  · exact tabGet_tabPut_other d' k j v t h

theorem tabWfFrom_mono {α : Type} [DecidableEq α] (f : Nat → α) (t : Tab α) (lo lo' : Nat) (hl : lo' ≤ lo)
    (h : tabWfFrom f lo t = true) : tabWfFrom f lo' t = true := by
  cases t with
  | nil => rfl
  | cons x t =>
    obtain ⟨k, v⟩ := x
    simp only [tabWfFrom, Bool.and_eq_true, decide_eq_true_eq] at h ⊢
    exact ⟨⟨by omega, h.1.2⟩, h.2⟩

theorem tabFilter_wfFrom {α : Type} [DecidableEq α] (f : Nat → α) (p : Nat × α → Bool) (t : Tab α) (lo : Nat)
    (h : tabWfFrom f lo t = true) : tabWfFrom f lo (t.filter p) = true := by
  induction t generalizing lo with
  | nil => rfl
  | cons x t ih =>
    obtain ⟨k, v⟩ := x
    simp only [tabWfFrom, Bool.and_eq_true, decide_eq_true_eq] at h
    obtain ⟨⟨h1, h2⟩, h3⟩ := h
    rw [List.filter_cons]
    split
    · simp only [tabWfFrom, Bool.and_eq_true, decide_eq_true_eq]
      exact ⟨⟨h1, h2⟩, ih _ h3⟩
    · exact tabWfFrom_mono f _ (k + 1) lo (by omega) (ih _ h3)

theorem tabPut_wfFrom {α : Type} [DecidableEq α] (f : Nat → α) (k : Nat) (v : α) (t : Tab α) (lo : Nat) (hk : lo ≤ k)
    (hv : v ≠ f k) (h : tabWfFrom f lo t = true) : tabWfFrom f lo (tabPut k v t) = true := by
  induction t generalizing lo with
  | nil => simp [tabPut, tabWfFrom, hv, hk]
  | cons x t ih =>
    obtain ⟨k', v'⟩ := x
    simp only [tabWfFrom, Bool.and_eq_true, decide_eq_true_eq] at h
    obtain ⟨⟨h1, h2⟩, h3⟩ := h
    unfold tabPut
    split
    · simp only [tabWfFrom, Bool.and_eq_true, decide_eq_true_eq]
      exact ⟨⟨h1, h2⟩, ih (k' + 1) (by omega) h3⟩
    · split
      · rename_i he
        subst he
        simp only [tabWfFrom, Bool.and_eq_true, decide_eq_true_eq]
        exact ⟨⟨h1, hv⟩, h3⟩
      · simp only [tabWfFrom, Bool.and_eq_true, decide_eq_true_eq]
        exact ⟨⟨hk, hv⟩, ⟨by omega, h2⟩, h3⟩

/-- Dropping entries keeps the canonical form. -/
theorem tabFilter_wf {α : Type} [DecidableEq α] (f : Nat → α) (p : Nat × α → Bool) (t : Tab α) (h : tabWf f t = true) :
    tabWf f (t.filter p) = true := tabFilter_wfFrom f p t 0 h

/-- A write keeps the canonical form. -/
theorem tabSet_wf {α : Type} [DecidableEq α] (f : Nat → α) (k : Nat) (v : α) (t : Tab α) (h : tabWf f t = true) :
    tabWf f (tabSet (f k) k v t) = true := by
  unfold tabSet
  split
  · exact tabFilter_wf f _ t h
  · rename_i hv
    exact tabPut_wfFrom f k v t 0 (Nat.zero_le k) hv h

end Sys2Proof.Machine
end

