-- ==== Sys2Proof/Laws/State.lean ====
section
/-! SUPPORT. State as the operations of Ops leave it: one lemma per field per update, and a register read after a write. -/

namespace Sys2Proof.Machine

variable {b : Base}

@[simp] theorem wr_kind {a : Nat} {v : Word} : (wr a v b).kind = b.kind := rfl
@[simp] theorem wr_phase {a : Nat} {v : Word} : (wr a v b).phase = b.phase := rfl
@[simp] theorem wr_phaseAt {a : Nat} {v : Word} : (wr a v b).phaseAt = b.phaseAt := rfl
@[simp] theorem wr_tick {a : Nat} {v : Word} : (wr a v b).tick = b.tick := rfl
@[simp] theorem wr_ns {a : Nat} {v : Word} : (wr a v b).ns = b.ns := rfl
@[simp] theorem wr_valid {a : Nat} {v : Word} : (wr a v b).valid = b.valid := rfl
@[simp] theorem wr_free {a : Nat} {v : Word} : (wr a v b).free = b.free := rfl
@[simp] theorem wr_latch {a : Nat} {v : Word} : (wr a v b).latch = b.latch := rfl
@[simp] theorem wr_stage {a : Nat} {v : Word} : (wr a v b).stage = b.stage := rfl
@[simp] theorem wr_log {a : Nat} {v : Word} : (wr a v b).log = b.log := rfl
@[simp] theorem wr_logGap {a : Nat} {v : Word} : (wr a v b).logGap = b.logGap := rfl
@[simp] theorem wr_first {a : Nat} {v : Word} : (wr a v b).first = b.first := rfl
@[simp] theorem wr_window {a : Nat} {v : Word} : (wr a v b).window = b.window := rfl
@[simp] theorem wr_locked {a : Nat} {v : Word} : (wr a v b).locked = b.locked := rfl
@[simp] theorem wr_evc {a : Nat} {v : Word} : (wr a v b).evc = b.evc := rfl
@[simp] theorem wr_blk {a : Nat} {v : Word} : (wr a v b).blk = b.blk := rfl
@[simp] theorem wr_slip {a : Nat} {v : Word} : (wr a v b).slip = b.slip := rfl
@[simp] theorem wr_outs {a : Nat} {v : Word} : (wr a v b).outs = b.outs := rfl
@[simp] theorem wrF_kind {a l w n : Nat} : (wrF a l w n b).kind = b.kind := rfl
@[simp] theorem wrF_phase {a l w n : Nat} : (wrF a l w n b).phase = b.phase := rfl
@[simp] theorem wrF_phaseAt {a l w n : Nat} : (wrF a l w n b).phaseAt = b.phaseAt := rfl
@[simp] theorem wrF_tick {a l w n : Nat} : (wrF a l w n b).tick = b.tick := rfl
@[simp] theorem wrF_ns {a l w n : Nat} : (wrF a l w n b).ns = b.ns := rfl
@[simp] theorem wrF_valid {a l w n : Nat} : (wrF a l w n b).valid = b.valid := rfl
@[simp] theorem wrF_free {a l w n : Nat} : (wrF a l w n b).free = b.free := rfl
@[simp] theorem wrF_latch {a l w n : Nat} : (wrF a l w n b).latch = b.latch := rfl
@[simp] theorem wrF_stage {a l w n : Nat} : (wrF a l w n b).stage = b.stage := rfl
@[simp] theorem wrF_log {a l w n : Nat} : (wrF a l w n b).log = b.log := rfl
@[simp] theorem wrF_logGap {a l w n : Nat} : (wrF a l w n b).logGap = b.logGap := rfl
@[simp] theorem wrF_first {a l w n : Nat} : (wrF a l w n b).first = b.first := rfl
@[simp] theorem wrF_window {a l w n : Nat} : (wrF a l w n b).window = b.window := rfl
@[simp] theorem wrF_locked {a l w n : Nat} : (wrF a l w n b).locked = b.locked := rfl
@[simp] theorem wrF_evc {a l w n : Nat} : (wrF a l w n b).evc = b.evc := rfl
@[simp] theorem wrF_blk {a l w n : Nat} : (wrF a l w n b).blk = b.blk := rfl
@[simp] theorem wrF_slip {a l w n : Nat} : (wrF a l w n b).slip = b.slip := rfl
@[simp] theorem wrF_outs {a l w n : Nat} : (wrF a l w n b).outs = b.outs := rfl
@[simp] theorem wrB_kind {a i : Nat} {v : Bool} : (wrB a i v b).kind = b.kind := rfl
@[simp] theorem wrB_phase {a i : Nat} {v : Bool} : (wrB a i v b).phase = b.phase := rfl
@[simp] theorem wrB_phaseAt {a i : Nat} {v : Bool} : (wrB a i v b).phaseAt = b.phaseAt := rfl
@[simp] theorem wrB_tick {a i : Nat} {v : Bool} : (wrB a i v b).tick = b.tick := rfl
@[simp] theorem wrB_ns {a i : Nat} {v : Bool} : (wrB a i v b).ns = b.ns := rfl
@[simp] theorem wrB_valid {a i : Nat} {v : Bool} : (wrB a i v b).valid = b.valid := rfl
@[simp] theorem wrB_free {a i : Nat} {v : Bool} : (wrB a i v b).free = b.free := rfl
@[simp] theorem wrB_latch {a i : Nat} {v : Bool} : (wrB a i v b).latch = b.latch := rfl
@[simp] theorem wrB_stage {a i : Nat} {v : Bool} : (wrB a i v b).stage = b.stage := rfl
@[simp] theorem wrB_log {a i : Nat} {v : Bool} : (wrB a i v b).log = b.log := rfl
@[simp] theorem wrB_logGap {a i : Nat} {v : Bool} : (wrB a i v b).logGap = b.logGap := rfl
@[simp] theorem wrB_first {a i : Nat} {v : Bool} : (wrB a i v b).first = b.first := rfl
@[simp] theorem wrB_window {a i : Nat} {v : Bool} : (wrB a i v b).window = b.window := rfl
@[simp] theorem wrB_locked {a i : Nat} {v : Bool} : (wrB a i v b).locked = b.locked := rfl
@[simp] theorem wrB_evc {a i : Nat} {v : Bool} : (wrB a i v b).evc = b.evc := rfl
@[simp] theorem wrB_blk {a i : Nat} {v : Bool} : (wrB a i v b).blk = b.blk := rfl
@[simp] theorem wrB_slip {a i : Nat} {v : Bool} : (wrB a i v b).slip = b.slip := rfl
@[simp] theorem wrB_outs {a i : Nat} {v : Bool} : (wrB a i v b).outs = b.outs := rfl
@[simp] theorem incF_kind {a l w : Nat} : (incF a l w b).kind = b.kind := rfl
@[simp] theorem incF_phase {a l w : Nat} : (incF a l w b).phase = b.phase := rfl
@[simp] theorem incF_phaseAt {a l w : Nat} : (incF a l w b).phaseAt = b.phaseAt := rfl
@[simp] theorem incF_tick {a l w : Nat} : (incF a l w b).tick = b.tick := rfl
@[simp] theorem incF_ns {a l w : Nat} : (incF a l w b).ns = b.ns := rfl
@[simp] theorem incF_valid {a l w : Nat} : (incF a l w b).valid = b.valid := rfl
@[simp] theorem incF_free {a l w : Nat} : (incF a l w b).free = b.free := rfl
@[simp] theorem incF_latch {a l w : Nat} : (incF a l w b).latch = b.latch := rfl
@[simp] theorem incF_stage {a l w : Nat} : (incF a l w b).stage = b.stage := rfl
@[simp] theorem incF_log {a l w : Nat} : (incF a l w b).log = b.log := rfl
@[simp] theorem incF_logGap {a l w : Nat} : (incF a l w b).logGap = b.logGap := rfl
@[simp] theorem incF_first {a l w : Nat} : (incF a l w b).first = b.first := rfl
@[simp] theorem incF_window {a l w : Nat} : (incF a l w b).window = b.window := rfl
@[simp] theorem incF_locked {a l w : Nat} : (incF a l w b).locked = b.locked := rfl
@[simp] theorem incF_evc {a l w : Nat} : (incF a l w b).evc = b.evc := rfl
@[simp] theorem incF_blk {a l w : Nat} : (incF a l w b).blk = b.blk := rfl
@[simp] theorem incF_slip {a l w : Nat} : (incF a l w b).slip = b.slip := rfl
@[simp] theorem incF_outs {a l w : Nat} : (incF a l w b).outs = b.outs := rfl
@[simp] theorem inc_kind {a : Nat} : (inc a b).kind = b.kind := rfl
@[simp] theorem inc_phase {a : Nat} : (inc a b).phase = b.phase := rfl
@[simp] theorem inc_phaseAt {a : Nat} : (inc a b).phaseAt = b.phaseAt := rfl
@[simp] theorem inc_tick {a : Nat} : (inc a b).tick = b.tick := rfl
@[simp] theorem inc_ns {a : Nat} : (inc a b).ns = b.ns := rfl
@[simp] theorem inc_valid {a : Nat} : (inc a b).valid = b.valid := rfl
@[simp] theorem inc_free {a : Nat} : (inc a b).free = b.free := rfl
@[simp] theorem inc_latch {a : Nat} : (inc a b).latch = b.latch := rfl
@[simp] theorem inc_stage {a : Nat} : (inc a b).stage = b.stage := rfl
@[simp] theorem inc_log {a : Nat} : (inc a b).log = b.log := rfl
@[simp] theorem inc_logGap {a : Nat} : (inc a b).logGap = b.logGap := rfl
@[simp] theorem inc_first {a : Nat} : (inc a b).first = b.first := rfl
@[simp] theorem inc_window {a : Nat} : (inc a b).window = b.window := rfl
@[simp] theorem inc_locked {a : Nat} : (inc a b).locked = b.locked := rfl
@[simp] theorem inc_evc {a : Nat} : (inc a b).evc = b.evc := rfl
@[simp] theorem inc_blk {a : Nat} : (inc a b).blk = b.blk := rfl
@[simp] theorem inc_slip {a : Nat} : (inc a b).slip = b.slip := rfl
@[simp] theorem inc_outs {a : Nat} : (inc a b).outs = b.outs := rfl
@[simp] theorem wr64_kind {a : Nat} {v : BitVec 64} : (wr64 a v b).kind = b.kind := rfl
@[simp] theorem wr64_phase {a : Nat} {v : BitVec 64} : (wr64 a v b).phase = b.phase := rfl
@[simp] theorem wr64_phaseAt {a : Nat} {v : BitVec 64} : (wr64 a v b).phaseAt = b.phaseAt := rfl
@[simp] theorem wr64_tick {a : Nat} {v : BitVec 64} : (wr64 a v b).tick = b.tick := rfl
@[simp] theorem wr64_ns {a : Nat} {v : BitVec 64} : (wr64 a v b).ns = b.ns := rfl
@[simp] theorem wr64_valid {a : Nat} {v : BitVec 64} : (wr64 a v b).valid = b.valid := rfl
@[simp] theorem wr64_free {a : Nat} {v : BitVec 64} : (wr64 a v b).free = b.free := rfl
@[simp] theorem wr64_latch {a : Nat} {v : BitVec 64} : (wr64 a v b).latch = b.latch := rfl
@[simp] theorem wr64_stage {a : Nat} {v : BitVec 64} : (wr64 a v b).stage = b.stage := rfl
@[simp] theorem wr64_log {a : Nat} {v : BitVec 64} : (wr64 a v b).log = b.log := rfl
@[simp] theorem wr64_logGap {a : Nat} {v : BitVec 64} : (wr64 a v b).logGap = b.logGap := rfl
@[simp] theorem wr64_first {a : Nat} {v : BitVec 64} : (wr64 a v b).first = b.first := rfl
@[simp] theorem wr64_window {a : Nat} {v : BitVec 64} : (wr64 a v b).window = b.window := rfl
@[simp] theorem wr64_locked {a : Nat} {v : BitVec 64} : (wr64 a v b).locked = b.locked := rfl
@[simp] theorem wr64_evc {a : Nat} {v : BitVec 64} : (wr64 a v b).evc = b.evc := rfl
@[simp] theorem wr64_blk {a : Nat} {v : BitVec 64} : (wr64 a v b).blk = b.blk := rfl
@[simp] theorem wr64_slip {a : Nat} {v : BitVec 64} : (wr64 a v b).slip = b.slip := rfl
@[simp] theorem wr64_outs {a : Nat} {v : BitVec 64} : (wr64 a v b).outs = b.outs := rfl
@[simp] theorem pgEvt_kind {g i : Nat} : (pgEvt g i b).kind = b.kind := rfl
@[simp] theorem pgEvt_phase {g i : Nat} : (pgEvt g i b).phase = b.phase := rfl
@[simp] theorem pgEvt_phaseAt {g i : Nat} : (pgEvt g i b).phaseAt = b.phaseAt := rfl
@[simp] theorem pgEvt_tick {g i : Nat} : (pgEvt g i b).tick = b.tick := rfl
@[simp] theorem pgEvt_ns {g i : Nat} : (pgEvt g i b).ns = b.ns := rfl
@[simp] theorem pgEvt_valid {g i : Nat} : (pgEvt g i b).valid = b.valid := rfl
@[simp] theorem pgEvt_free {g i : Nat} : (pgEvt g i b).free = b.free := rfl
@[simp] theorem pgEvt_latch {g i : Nat} : (pgEvt g i b).latch = b.latch := rfl
@[simp] theorem pgEvt_stage {g i : Nat} : (pgEvt g i b).stage = b.stage := rfl
@[simp] theorem pgEvt_log {g i : Nat} : (pgEvt g i b).log = b.log := rfl
@[simp] theorem pgEvt_logGap {g i : Nat} : (pgEvt g i b).logGap = b.logGap := rfl
@[simp] theorem pgEvt_first {g i : Nat} : (pgEvt g i b).first = b.first := rfl
@[simp] theorem pgEvt_window {g i : Nat} : (pgEvt g i b).window = b.window := rfl
@[simp] theorem pgEvt_locked {g i : Nat} : (pgEvt g i b).locked = b.locked := rfl
@[simp] theorem pgEvt_evc {g i : Nat} : (pgEvt g i b).evc = b.evc := rfl
@[simp] theorem pgEvt_blk {g i : Nat} : (pgEvt g i b).blk = b.blk := rfl
@[simp] theorem pgEvt_slip {g i : Nat} : (pgEvt g i b).slip = b.slip := rfl
@[simp] theorem pgEvt_outs {g i : Nat} : (pgEvt g i b).outs = b.outs := rfl
@[simp] theorem emit_kind {o : Out} : (emit o b).kind = b.kind := rfl
@[simp] theorem emit_phase {o : Out} : (emit o b).phase = b.phase := rfl
@[simp] theorem emit_phaseAt {o : Out} : (emit o b).phaseAt = b.phaseAt := rfl
@[simp] theorem emit_tick {o : Out} : (emit o b).tick = b.tick := rfl
@[simp] theorem emit_ns {o : Out} : (emit o b).ns = b.ns := rfl
@[simp] theorem emit_valid {o : Out} : (emit o b).valid = b.valid := rfl
@[simp] theorem emit_free {o : Out} : (emit o b).free = b.free := rfl
@[simp] theorem emit_regs {o : Out} : (emit o b).regs = b.regs := rfl
@[simp] theorem emit_latch {o : Out} : (emit o b).latch = b.latch := rfl
@[simp] theorem emit_stage {o : Out} : (emit o b).stage = b.stage := rfl
@[simp] theorem emit_log {o : Out} : (emit o b).log = b.log := rfl
@[simp] theorem emit_logGap {o : Out} : (emit o b).logGap = b.logGap := rfl
@[simp] theorem emit_first {o : Out} : (emit o b).first = b.first := rfl
@[simp] theorem emit_window {o : Out} : (emit o b).window = b.window := rfl
@[simp] theorem emit_locked {o : Out} : (emit o b).locked = b.locked := rfl
@[simp] theorem emit_evc {o : Out} : (emit o b).evc = b.evc := rfl
@[simp] theorem emit_blk {o : Out} : (emit o b).blk = b.blk := rfl
@[simp] theorem emit_slip {o : Out} : (emit o b).slip = b.slip := rfl
@[simp] theorem draw_kind : (draw b).kind = b.kind := rfl
@[simp] theorem draw_phase : (draw b).phase = b.phase := rfl
@[simp] theorem draw_phaseAt : (draw b).phaseAt = b.phaseAt := rfl
@[simp] theorem draw_tick : (draw b).tick = b.tick := rfl
@[simp] theorem draw_ns : (draw b).ns = b.ns := rfl
@[simp] theorem draw_valid : (draw b).valid = b.valid := rfl
@[simp] theorem draw_regs : (draw b).regs = b.regs := rfl
@[simp] theorem draw_latch : (draw b).latch = b.latch := rfl
@[simp] theorem draw_stage : (draw b).stage = b.stage := rfl
@[simp] theorem draw_log : (draw b).log = b.log := rfl
@[simp] theorem draw_logGap : (draw b).logGap = b.logGap := rfl
@[simp] theorem draw_first : (draw b).first = b.first := rfl
@[simp] theorem draw_window : (draw b).window = b.window := rfl
@[simp] theorem draw_locked : (draw b).locked = b.locked := rfl
@[simp] theorem draw_evc : (draw b).evc = b.evc := rfl
@[simp] theorem draw_blk : (draw b).blk = b.blk := rfl
@[simp] theorem draw_slip : (draw b).slip = b.slip := rfl
@[simp] theorem draw_outs : (draw b).outs = b.outs := rfl
@[simp] theorem srcSet_kind {n : Nat} {e : EvSrc} : (srcSet n e b).kind = b.kind := rfl
@[simp] theorem srcSet_phase {n : Nat} {e : EvSrc} : (srcSet n e b).phase = b.phase := rfl
@[simp] theorem srcSet_phaseAt {n : Nat} {e : EvSrc} : (srcSet n e b).phaseAt = b.phaseAt := rfl
@[simp] theorem srcSet_tick {n : Nat} {e : EvSrc} : (srcSet n e b).tick = b.tick := rfl
@[simp] theorem srcSet_ns {n : Nat} {e : EvSrc} : (srcSet n e b).ns = b.ns := rfl
@[simp] theorem srcSet_valid {n : Nat} {e : EvSrc} : (srcSet n e b).valid = b.valid := rfl
@[simp] theorem srcSet_free {n : Nat} {e : EvSrc} : (srcSet n e b).free = b.free := rfl
@[simp] theorem srcSet_regs {n : Nat} {e : EvSrc} : (srcSet n e b).regs = b.regs := rfl
@[simp] theorem srcSet_latch {n : Nat} {e : EvSrc} : (srcSet n e b).latch = b.latch := rfl
@[simp] theorem srcSet_stage {n : Nat} {e : EvSrc} : (srcSet n e b).stage = b.stage := rfl
@[simp] theorem srcSet_log {n : Nat} {e : EvSrc} : (srcSet n e b).log = b.log := rfl
@[simp] theorem srcSet_logGap {n : Nat} {e : EvSrc} : (srcSet n e b).logGap = b.logGap := rfl
@[simp] theorem srcSet_first {n : Nat} {e : EvSrc} : (srcSet n e b).first = b.first := rfl
@[simp] theorem srcSet_window {n : Nat} {e : EvSrc} : (srcSet n e b).window = b.window := rfl
@[simp] theorem srcSet_locked {n : Nat} {e : EvSrc} : (srcSet n e b).locked = b.locked := rfl
@[simp] theorem srcSet_blk {n : Nat} {e : EvSrc} : (srcSet n e b).blk = b.blk := rfl
@[simp] theorem srcSet_slip {n : Nat} {e : EvSrc} : (srcSet n e b).slip = b.slip := rfl
@[simp] theorem srcSet_outs {n : Nat} {e : EvSrc} : (srcSet n e b).outs = b.outs := rfl
@[simp] theorem grpSet_kind {n : Nat} {e : EvGrp} : (grpSet n e b).kind = b.kind := rfl
@[simp] theorem grpSet_phase {n : Nat} {e : EvGrp} : (grpSet n e b).phase = b.phase := rfl
@[simp] theorem grpSet_phaseAt {n : Nat} {e : EvGrp} : (grpSet n e b).phaseAt = b.phaseAt := rfl
@[simp] theorem grpSet_tick {n : Nat} {e : EvGrp} : (grpSet n e b).tick = b.tick := rfl
@[simp] theorem grpSet_ns {n : Nat} {e : EvGrp} : (grpSet n e b).ns = b.ns := rfl
@[simp] theorem grpSet_valid {n : Nat} {e : EvGrp} : (grpSet n e b).valid = b.valid := rfl
@[simp] theorem grpSet_free {n : Nat} {e : EvGrp} : (grpSet n e b).free = b.free := rfl
@[simp] theorem grpSet_regs {n : Nat} {e : EvGrp} : (grpSet n e b).regs = b.regs := rfl
@[simp] theorem grpSet_latch {n : Nat} {e : EvGrp} : (grpSet n e b).latch = b.latch := rfl
@[simp] theorem grpSet_stage {n : Nat} {e : EvGrp} : (grpSet n e b).stage = b.stage := rfl
@[simp] theorem grpSet_log {n : Nat} {e : EvGrp} : (grpSet n e b).log = b.log := rfl
@[simp] theorem grpSet_logGap {n : Nat} {e : EvGrp} : (grpSet n e b).logGap = b.logGap := rfl
@[simp] theorem grpSet_first {n : Nat} {e : EvGrp} : (grpSet n e b).first = b.first := rfl
@[simp] theorem grpSet_window {n : Nat} {e : EvGrp} : (grpSet n e b).window = b.window := rfl
@[simp] theorem grpSet_locked {n : Nat} {e : EvGrp} : (grpSet n e b).locked = b.locked := rfl
@[simp] theorem grpSet_blk {n : Nat} {e : EvGrp} : (grpSet n e b).blk = b.blk := rfl
@[simp] theorem grpSet_slip {n : Nat} {e : EvGrp} : (grpSet n e b).slip = b.slip := rfl
@[simp] theorem grpSet_outs {n : Nat} {e : EvGrp} : (grpSet n e b).outs = b.outs := rfl
@[simp] theorem makePending_kind {n k : Nat} : (makePending n k b).kind = b.kind := rfl
@[simp] theorem makePending_phase {n k : Nat} : (makePending n k b).phase = b.phase := rfl
@[simp] theorem makePending_phaseAt {n k : Nat} : (makePending n k b).phaseAt = b.phaseAt := rfl
@[simp] theorem makePending_tick {n k : Nat} : (makePending n k b).tick = b.tick := rfl
@[simp] theorem makePending_ns {n k : Nat} : (makePending n k b).ns = b.ns := rfl
@[simp] theorem makePending_valid {n k : Nat} : (makePending n k b).valid = b.valid := rfl
@[simp] theorem makePending_free {n k : Nat} : (makePending n k b).free = b.free := rfl
@[simp] theorem makePending_regs {n k : Nat} : (makePending n k b).regs = b.regs := rfl
@[simp] theorem makePending_latch {n k : Nat} : (makePending n k b).latch = b.latch := rfl
@[simp] theorem makePending_stage {n k : Nat} : (makePending n k b).stage = b.stage := rfl
@[simp] theorem makePending_log {n k : Nat} : (makePending n k b).log = b.log := rfl
@[simp] theorem makePending_logGap {n k : Nat} : (makePending n k b).logGap = b.logGap := rfl
@[simp] theorem makePending_first {n k : Nat} : (makePending n k b).first = b.first := rfl
@[simp] theorem makePending_window {n k : Nat} : (makePending n k b).window = b.window := rfl
@[simp] theorem makePending_locked {n k : Nat} : (makePending n k b).locked = b.locked := rfl
@[simp] theorem makePending_blk {n k : Nat} : (makePending n k b).blk = b.blk := rfl
@[simp] theorem makePending_slip {n k : Nat} : (makePending n k b).slip = b.slip := rfl
@[simp] theorem makePending_outs {n k : Nat} : (makePending n k b).outs = b.outs := rfl

@[simp] theorem emit_outs {o : Out} : (emit o b).outs = b.outs ++ [o] := rfl
@[simp] theorem draw_free : (draw b).free = b.free + 1 := rfl

/-! ## Registers -/

@[simp] theorem rd_wr_same {a : Nat} {v : Word} : rd (wr a v b) a = v := tabGet_tabSet_same _ _ _ _
theorem rd_wr_other {a a' : Nat} {v : Word} (h : a' ≠ a) : rd (wr a v b) a' = rd b a' := tabGet_tabSet_other _ _ _ _ _ _ h
@[simp] theorem rd_emit {a : Nat} {o : Out} : rd (emit o b) a = rd b a := rfl
@[simp] theorem rd_draw {a : Nat} : rd (draw b) a = rd b a := rfl
@[simp] theorem rd_srcSet {a n : Nat} {e : EvSrc} : rd (srcSet n e b) a = rd b a := rfl
@[simp] theorem rd_grpSet {a n : Nat} {e : EvGrp} : rd (grpSet n e b) a = rd b a := rfl
theorem rd_wr {a a' : Nat} {v : Word} : rd (wr a v b) a' = if a' = a then v else rd b a' := by
  split
  · rename_i h
    rw [h, rd_wr_same]
  · rename_i h
    exact rd_wr_other h

/-- A register whose contents no update of the registers touches reads as before. -/
theorem rd_congr {b' : Base} {a : Nat} (hk : b'.kind = b.kind) (hr : b'.regs = b.regs) : rd b' a = rd b a := by
  unfold rd
  rw [hk, hr]

@[simp] theorem srcGet_srcSet_same {n : Nat} {e : EvSrc} : srcGet (srcSet n e b) n = e := tabGet_tabSet_same _ _ _ _
theorem srcGet_srcSet_other {n m : Nat} {e : EvSrc} (h : m ≠ n) : srcGet (srcSet n e b) m = srcGet b m :=
  tabGet_tabSet_other _ _ _ _ _ _ h
@[simp] theorem grpGet_grpSet_same {n : Nat} {e : EvGrp} : grpGet (grpSet n e b) n = e := tabGet_tabSet_same _ _ _ _
theorem grpGet_grpSet_other {n m : Nat} {e : EvGrp} (h : m ≠ n) : grpGet (grpSet n e b) m = grpGet b m :=
  tabGet_tabSet_other _ _ _ _ _ _ h

/-! ## Fields of a word -/

theorem setFld_bit (x : BitVec 32) (lo w v i : Nat) (hi : i < 32) :
    (setFld x lo w v).getLsbD i = if lo ≤ i ∧ i < lo + w then v.testBit (i - lo) else x.getLsbD i := by
  unfold setFld
  simp only [BitVec.getLsbD_or, BitVec.getLsbD_and, BitVec.getLsbD_not, BitVec.getLsbD_shiftLeft, BitVec.getLsbD_ofNat,
    Nat.testBit_two_pow_sub_one, Nat.testBit_mod_two_pow]
  by_cases h1 : i < lo
  · have h2 : ¬ lo ≤ i := by omega
    simp [h1, h2, hi]
  · have h2 : lo ≤ i := by omega
    by_cases h3 : i < lo + w
    · have h4 : i - lo < w := by omega
      have h5 : i - lo < 32 := by omega
      simp [h1, h2, h3, h4, h5, hi]
    · have h4 : ¬ i - lo < w := by omega
      simp [h1, h3, h4, hi]

theorem fld_bit (x : BitVec 32) (lo w i : Nat) : (fld x lo w).testBit i = (decide (i < w) && x.getLsbD (lo + i)) := by
  unfold fld
  rw [Nat.testBit_mod_two_pow, Nat.testBit_shiftRight]
  rfl

/-- The field that was replaced holds the value. -/
theorem fld_setFld_same (x : BitVec 32) (lo w v : Nat) (h : lo + w ≤ 32) : fld (setFld x lo w v) lo w = v % 2 ^ w := by
  apply Nat.eq_of_testBit_eq
  intro i
  rw [fld_bit, Nat.testBit_mod_two_pow]
  by_cases hi : i < w
  · rw [setFld_bit _ _ _ _ _ (by omega), if_pos (by omega), Nat.add_sub_cancel_left]
  · simp [hi]

/-- A field that the replaced one does not meet holds what it held. -/
theorem fld_setFld_other (x : BitVec 32) (lo w v lo' w' : Nat) (h : lo' + w' ≤ lo ∨ lo + w ≤ lo') (h' : lo' + w' ≤ 32) :
    fld (setFld x lo w v) lo' w' = fld x lo' w' := by
  apply Nat.eq_of_testBit_eq
  intro i
  rw [fld_bit, fld_bit]
  by_cases hi : i < w'
  · rw [setFld_bit _ _ _ _ _ (by omega), if_neg (by omega)]
  · simp [hi]

@[simp] theorem rd_wrF_same {a l w n : Nat} : rd (wrF a l w n b) a = setFld (rd b a) l w n := rd_wr_same
theorem rd_wrF_other {a a' l w n : Nat} (h : a' ≠ a) : rd (wrF a l w n b) a' = rd b a' := rd_wr_other h
theorem rdF_wrF_same {a l w n : Nat} (h : l + w ≤ 32) : rdF (wrF a l w n b) a l w = n % 2 ^ w := by
  unfold rdF
  rw [rd_wrF_same]
  exact fld_setFld_same _ _ _ _ h
theorem rdF_wrF_field {a l w n l' w' : Nat} (h : l' + w' ≤ l ∨ l + w ≤ l') (h' : l' + w' ≤ 32) :
    rdF (wrF a l w n b) a l' w' = rdF b a l' w' := by
  unfold rdF
  rw [rd_wrF_same]
  exact fld_setFld_other _ _ _ _ _ _ h h'
theorem rdF_wrF_other {a a' l w n l' w' : Nat} (h : a' ≠ a) : rdF (wrF a l w n b) a' l' w' = rdF b a' l' w' := by
  unfold rdF
  rw [rd_wrF_other h]
theorem rdB_wrB_same {a i : Nat} {v : Bool} (h : i < 32) : rdB (wrB a i v b) a i = v := by
  unfold rdB wrB
  rw [rdF_wrF_same (by omega)]
  cases v <;> rfl
theorem rdB_wrB_bit {a i j : Nat} {v : Bool} (h : i ≠ j) (hj : j < 32) : rdB (wrB a i v b) a j = rdB b a j := by
  unfold rdB wrB
  rw [rdF_wrF_field (by omega) (by omega)]
theorem rdB_wrB_other {a a' i j : Nat} {v : Bool} (h : a' ≠ a) : rdB (wrB a i v b) a' j = rdB b a' j := by
  unfold rdB wrB
  rw [rdF_wrF_other h]
theorem rd_wrB_other {a a' i : Nat} {v : Bool} (h : a' ≠ a) : rd (wrB a i v b) a' = rd b a' := rd_wrF_other h
theorem rd_inc_other {a a' : Nat} (h : a' ≠ a) : rd (inc a b) a' = rd b a' := rd_wrF_other h
theorem rd_pgEvt_other {a' g i : Nat} (h : a' ≠ pageAddr g 0x010) : rd (pgEvt g i b) a' = rd b a' := rd_wrB_other h

/-! ## The machine -/

section
variable {s : State} {f : UnitState → UnitState} {g : DistState → DistState} {k : Base → Base} {u : UnitState} {d : DistState}
@[simp] theorem onUnit_pending : (onUnit f s).pending = s.pending := rfl
@[simp] theorem onUnit_unit : (onUnit f s).unit = f s.unit := rfl
@[simp] theorem onUnit_dist : (onUnit f s).dist = s.dist := rfl
@[simp] theorem onDist_pending : (onDist g s).pending = s.pending := rfl
@[simp] theorem onDist_unit : (onDist g s).unit = s.unit := rfl
@[simp] theorem onDist_dist : (onDist g s).dist = g s.dist := rfl
@[simp] theorem uB_base : (uB k u).base = k u.base := rfl
@[simp] theorem dB_base : (dB k d).base = k d.base := rfl
@[simp] theorem uB_portA : (uB k u).portA = u.portA := rfl
@[simp] theorem uB_portB : (uB k u).portB = u.portB := rfl
@[simp] theorem uB_dbg : (uB k u).dbg = u.dbg := rfl
@[simp] theorem uB_sems : (uB k u).sems = u.sems := rfl
@[simp] theorem uB_servo : (uB k u).servo = u.servo := rfl
@[simp] theorem uB_tckAt : (uB k u).tckAt = u.tckAt := rfl
@[simp] theorem uB_unlockLogged : (uB k u).unlockLogged = u.unlockLogged := rfl
@[simp] theorem uB_taps : (uB k u).taps = u.taps := rfl
@[simp] theorem uB_tapPorts : (uB k u).tapPorts = u.tapPorts := rfl
@[simp] theorem uB_cap : (uB k u).cap = u.cap := rfl
@[simp] theorem uB_drips : (uB k u).drips = u.drips := rfl
@[simp] theorem uB_launch : (uB k u).launch = u.launch := rfl
@[simp] theorem uB_bars : (uB k u).bars = u.bars := rfl
@[simp] theorem uB_flows : (uB k u).flows = u.flows := rfl
@[simp] theorem uB_fnc : (uB k u).fnc = u.fnc := rfl
@[simp] theorem uB_dlk : (uB k u).dlk = u.dlk := rfl
@[simp] theorem uB_cmb : (uB k u).cmb = u.cmb := rfl
@[simp] theorem dB_ports : (dB k d).ports = d.ports := rfl
@[simp] theorem dB_servo : (dB k d).servo = d.servo := rfl
@[simp] theorem dB_cal : (dB k d).cal = d.cal := rfl
@[simp] theorem dB_rope : (dB k d).rope = d.rope := rfl
@[simp] theorem dB_cmb : (dB k d).cmb = d.cmb := rfl
@[simp] theorem dB_root : (dB k d).root = d.root := rfl
@[simp] theorem dB_ptp : (dB k d).ptp = d.ptp := rfl
@[simp] theorem dB_adm : (dB k d).adm = d.adm := rfl
@[simp] theorem dB_trig : (dB k d).trig = d.trig := rfl
@[simp] theorem partBase_unit : partBase s .unit = s.unit.base := rfl
@[simp] theorem partBase_dist : partBase s .dist = s.dist.base := rfl
@[simp] theorem onPartBase_unit : onPartBase .unit k s = onUnit (uB k) s := rfl
@[simp] theorem onPartBase_dist : onPartBase .dist k s = onDist (dB k) s := rfl
end

@[simp] theorem getPort_setPort_same {p : PortRef} {lp : LinkPort} {s : State} : getPort (setPort p lp s) p = lp := by
  cases p with
  | unit d => cases d <;> rfl
  | dist n => exact tabGet_tabSet_same _ _ _ _
theorem getPort_setPort_other {p r : PortRef} {lp : LinkPort} {s : State} (h : r ≠ p) :
    getPort (setPort p lp s) r = getPort s r := by
  cases p with
  | unit d =>
    cases r with
    | unit e => cases d <;> cases e <;> first | rfl | exact absurd rfl h
    | dist m => rfl
  | dist n =>
    cases r with
    | unit e => rfl
    | dist m =>
      refine tabGet_tabSet_other _ _ _ _ _ _ ?_
      intro e
      apply h
      congr
      exact Fin.ext e
@[simp] theorem getPort_onPort_same {p : PortRef} {f : LinkPort → LinkPort} {s : State} :
    getPort (onPort p f s) p = f (getPort s p) := getPort_setPort_same
theorem getPort_onPort_other {p r : PortRef} {f : LinkPort → LinkPort} {s : State} (h : r ≠ p) :
    getPort (onPort p f s) r = getPort s r := getPort_setPort_other h
@[simp] theorem getPort_onBaseOf {p r : PortRef} {f : Base → Base} {s : State} :
    getPort (onBaseOf p f s) r = getPort s r := by
  cases p <;> cases r <;> first | rfl | (rename_i d e; cases e <;> rfl)
@[simp] theorem baseOf_setPort {p r : PortRef} {lp : LinkPort} {s : State} : baseOf (setPort p lp s) r = baseOf s r := by
  cases p <;> cases r <;> first | rfl | (rename_i d e; cases d <;> rfl)
@[simp] theorem baseOf_onPort {p r : PortRef} {f : LinkPort → LinkPort} {s : State} : baseOf (onPort p f s) r = baseOf s r :=
  baseOf_setPort
@[simp] theorem baseOf_onBaseOf_same {p : PortRef} {f : Base → Base} {s : State} :
    baseOf (onBaseOf p f s) p = f (baseOf s p) := by cases p <;> rfl

end Sys2Proof.Machine
end

