-- ==== Sys2Proof/Laws/Receive.lean ====
section
/-! SUPPORT. What receiving a frame in sequence does: it is accepted, and no port's link state, time or admission changes. -/

namespace Sys2Proof.Machine

/-- Time state of a port but for the exchanges under way, which a partner's lane swap discards (R92). -/
def timeRest (lp : LinkPort) : LinkTime := (dropEchoes lp).time

theorem timeRest_dropEchoes (lp : LinkPort) : timeRest (dropEchoes lp) = timeRest lp := rfl

/-- Two machines whose ports are in the same link state, with the same time and admission state. -/
structure SameLinks (s₀ s : State) : Prop where
  st : ∀ p, (getPort s p).phy.st = (getPort s₀ p).phy.st
  time : ∀ p, timeRest (getPort s p) = timeRest (getPort s₀ p)
  adm : ∀ p, (getPort s p).adm = (getPort s₀ p).adm

theorem SameLinks.trans {s₀ s t : State} (h : SameLinks s₀ s) (k : SameLinks s t) : SameLinks s₀ t :=
  ⟨fun p => (k.st p).trans (h.st p), fun p => (k.time p).trans (h.time p), fun p => (k.adm p).trans (h.adm p)⟩

theorem onPort_sameLinks {p : PortRef} {f : LinkPort → LinkPort} {s : State} (h1 : ∀ lp, (f lp).phy.st = lp.phy.st)
    (h2 : ∀ lp, timeRest (f lp) = timeRest lp) (h3 : ∀ lp, (f lp).adm = lp.adm) : SameLinks s (onPort p f s) := by
  constructor <;> intro q <;> by_cases e : q = p
  · subst e; simp [h1]
  · rw [getPort_onPort_other e]
  · subst e; simp [h2]
  · rw [getPort_onPort_other e]
  · subst e; simp [h3]
  · rw [getPort_onPort_other e]

theorem onLane_st (lane : Bool) (f : Lane → Lane) (lp : LinkPort) : (onLane lane f lp).phy.st = lp.phy.st := by
  cases lane <;> rfl

theorem traceStop_portA (u : UnitState) : (traceStop u).portA = u.portA := by unfold traceStop; split <;> rfl
theorem traceStop_portB (u : UnitState) : (traceStop u).portB = u.portB := by unfold traceStop; split <;> rfl

theorem traceTrigger_portA (i : Nat) (u : UnitState) : (traceTrigger i u).portA = u.portA := by
  simp only [traceTrigger, apply_ite UnitState.portA, traceStop_portA, uB_portA, ite_self]
theorem traceTrigger_portB (i : Nat) (u : UnitState) : (traceTrigger i u).portB = u.portB := by
  simp only [traceTrigger, apply_ite UnitState.portB, traceStop_portB, uB_portB, ite_self]

theorem traceFrame_portA (a b : Bool) (d : Dom) (lane : Bool) (f : Frame) (u : UnitState) :
    (traceFrame a b d lane f u).portA = u.portA := by
  unfold traceFrame
  extract_lets _ _ _ _ _ _ _ _ _ v _ hit w _
  have hw : w.portA = u.portA := by simp only [w, apply_ite UnitState.portA, traceTrigger_portA, v, ite_self]
  split
  · split
    · rfl
    · split
      · split
        · simp only [apply_ite UnitState.portA, traceStop_portA, hw, ite_self]
        · simp only [apply_ite UnitState.portA, traceStop_portA, hw, ite_self]
      · simp only [apply_ite UnitState.portA, traceStop_portA, hw, ite_self]
  · rfl
theorem traceFrame_portB (a b : Bool) (d : Dom) (lane : Bool) (f : Frame) (u : UnitState) :
    (traceFrame a b d lane f u).portB = u.portB := by
  unfold traceFrame
  extract_lets _ _ _ _ _ _ _ _ _ v _ hit w _
  have hw : w.portB = u.portB := by simp only [w, apply_ite UnitState.portB, traceTrigger_portB, v, ite_self]
  split
  · split
    · rfl
    · split
      · split
        · simp only [apply_ite UnitState.portB, traceStop_portB, hw, ite_self]
        · simp only [apply_ite UnitState.portB, traceStop_portB, hw, ite_self]
      · simp only [apply_ite UnitState.portB, traceStop_portB, hw, ite_self]
  · rfl

/-- Tracing received frames leaves every port as it is. -/
theorem getPort_traceRx (p q : PortRef) (lane : Bool) (fs : List Frame) (s : State) :
    getPort (traceRx p lane fs s) q = getPort s q := by
  cases p with
  | dist n => rfl
  | unit d =>
    simp only [traceRx]
    induction fs generalizing s with
    | nil => rfl
    | cons f fs ih =>
      rw [List.foldl_cons, ih]
      cases q with
      | dist n => rfl
      | unit e =>
        cases e
        · exact traceFrame_portA false false d lane f s.unit
        · exact traceFrame_portB false false d lane f s.unit

theorem traceRx_dist (p : PortRef) (lane : Bool) (fs : List Frame) (s : State) : (traceRx p lane fs s).dist = s.dist := by
  cases p with
  | dist n => rfl
  | unit d =>
    simp only [traceRx]
    induction fs generalizing s with
    | nil => rfl
    | cons f fs ih => rw [List.foldl_cons, ih]; rfl

theorem setPort_ropeSeq (p : PortRef) (lp : LinkPort) (s : State) : (setPort p lp s).dist.rope = s.dist.rope := by
  cases p <;> rfl

theorem onPort_rope (p : PortRef) (f : LinkPort → LinkPort) (s : State) : (onPort p f s).dist.rope = s.dist.rope :=
  setPort_ropeSeq _ _ _

theorem noteTrig_links (p : PortRef) (s : State) : SameLinks s (noteTrig p s) ∧ (noteTrig p s).dist.rope = s.dist.rope ∧
    ∀ q, getPort (noteTrig p s) q = getPort s q := by
  cases p with
  | unit d => exact ⟨⟨fun _ => rfl, fun _ => rfl, fun _ => rfl⟩, rfl, fun _ => rfl⟩
  | dist n =>
    have h : ∀ q, getPort (noteTrig (.dist n) s) q = getPort s q := by intro q; cases q <;> rfl
    exact ⟨⟨fun q => by rw [h], fun q => by rw [h], fun q => by rw [h]⟩, rfl, h⟩

/-- What accepting a frame leaves: links, time, admission and the Rope count. -/
structure Accepted (s t : State) : Prop where
  links : SameLinks s t
  rope : t.dist.rope = s.dist.rope

theorem Accepted.trans {s t w : State} (h : Accepted s t) (k : Accepted t w) : Accepted s w :=
  ⟨h.links.trans k.links, k.rope.trans h.rope⟩

theorem onPort_accepted {p : PortRef} {f : LinkPort → LinkPort} {s : State} (h1 : ∀ lp, (f lp).phy.st = lp.phy.st)
    (h2 : ∀ lp, timeRest (f lp) = timeRest lp) (h3 : ∀ lp, (f lp).adm = lp.adm) : Accepted s (onPort p f s) :=
  ⟨onPort_sameLinks h1 h2 h3, onPort_rope _ _ _⟩

theorem rxOnLane_rest (now : Nat) (lane : Bool) (lp : LinkPort) : (rxOnLane now lane lp).phy.st = lp.phy.st ∧
    timeRest (rxOnLane now lane lp) = timeRest lp ∧ (rxOnLane now lane lp).adm = lp.adm ∧
    (rxOnLane now lane lp).arq = lp.arq := by
  unfold rxOnLane
  split <;> cases lane <;> exact ⟨rfl, rfl, rfl, rfl⟩

/-- A frame in sequence is accepted, the expected SEQ moves past it, and what arrives of each group stays. -/
theorem seqTest_inOrder {p : PortRef} {lane : Bool} {seq : BitVec 8} {s : State} (h : seq = (getPort s p).arq.rxExp) :
    (seqTest p lane seq s).1 = true ∧ Accepted s (seqTest p lane seq s).2 ∧
    (getPort (seqTest p lane seq s).2 p).arq.rxExp = seq + 1 ∧
    (getPort (seqTest p lane seq s).2 p).arq.opened = (getPort s p).arq.opened := by
  have h0 : seq - (getPort s p).arq.rxExp = 0 := by rw [h]; exact BitVec.sub_self _
  simp only [seqTest, h0, if_true, true_and]
  refine ⟨Accepted.trans (onPort_accepted (fun lp => (rxOnLane_rest _ _ lp).1) (fun lp => (rxOnLane_rest _ _ lp).2.1)
    (fun lp => (rxOnLane_rest _ _ lp).2.2.1)) (Accepted.trans (onPort_accepted ?_ ?_ ?_)
      ⟨(noteTrig_links _ _).1, (noteTrig_links _ _).2.1⟩), ?_, ?_⟩
  · intro lp; rfl
  · intro lp; rfl
  · intro lp; rfl
  · rw [(noteTrig_links _ _).2.2]
    simp only [getPort_onPort_same, acceptNext, (rxOnLane_rest _ _ _).2.2.2]
    rw [← h]
  · rw [(noteTrig_links _ _).2.2]
    simp only [getPort_onPort_same, acceptNext, (rxOnLane_rest _ _ _).2.2.2]

theorem openedPut_rest (c : Nat) (bs : List (BitVec 64)) (lp : LinkPort) : (openedPut c bs lp).phy = lp.phy ∧
    (openedPut c bs lp).time = lp.time ∧ (openedPut c bs lp).adm = lp.adm ∧ (openedPut c bs lp).arq.rxExp = lp.arq.rxExp :=
  ⟨rfl, rfl, rfl, rfl⟩

theorem openedOf_put (c : Nat) (bs : List (BitVec 64)) (lp : LinkPort) : openedOf c (openedPut c bs lp).arq.opened = bs := by
  cases bs with
  | nil =>
    have h : (lp.arq.opened.filter fun x => x.1 != c).find? (fun x => x.1 == c) = none := by
      rw [List.find?_eq_none]
      intro x hx
      have h2 := (List.mem_filter.mp hx).2
      simpa using h2
    simp [openedPut, openedOf, h]
  | cons b bs => simp [openedPut, openedOf]

/-- What a frame adds to its group, and what else of its port it leaves (R68, R70). -/
theorem attach_rest (c : Nat) (hdr : Bool) (b : BitVec 64) (lp : LinkPort) : (attach c hdr b lp).phy = lp.phy ∧
    (attach c hdr b lp).time = lp.time ∧ (attach c hdr b lp).adm = lp.adm ∧ (attach c hdr b lp).arq.rxExp = lp.arq.rxExp := by
  simp only [attach]
  split <;> split <;> first | exact ⟨rfl, rfl, rfl, rfl⟩ | (split <;> exact ⟨rfl, rfl, rfl, rfl⟩)

theorem openedOf_attach (c : Nat) (hdr : Bool) (b : BitVec 64) (lp : LinkPort)
    (h : hdr = true ∨ openedOf c lp.arq.opened ≠ []) : openedOf c (attach c hdr b lp).arq.opened =
      if hdr then [b] else openedOf c lp.arq.opened ++ [b] := by
  cases hdr with
  | true => simp only [attach, if_true, openedOf_put]
  | false =>
    have hn : openedOf c lp.arq.opened ≠ [] := h.resolve_left (by decide)
    have he : (openedOf c lp.arq.opened).isEmpty = false := by simpa using hn
    simp only [attach, he, Bool.false_eq_true, if_false, openedOf_put]

/-- One frame in sequence, of a type that the port permits. -/
theorem rxFrame_next {rx : Rx} {c : Nat} {hdr : Bool} {f : Frame} {s : State} (h : f.seq = (getPort s rx.port).arq.rxExp)
    (ho : hdr = true ∨ openedOf c (getPort s rx.port).arq.opened ≠ []) :
    Accepted s (rxFrame rx true c hdr f s) ∧ (getPort (rxFrame rx true c hdr f s) rx.port).arq.rxExp = f.seq + 1 ∧
    openedOf c (getPort (rxFrame rx true c hdr f s) rx.port).arq.opened =
      if hdr then [f.body] else openedOf c (getPort s rx.port).arq.opened ++ [f.body] := by
  have ht := seqTest_inOrder (p := rx.port) (lane := rx.lane) (seq := f.seq) (s := traceRx rx.port rx.lane [f] s)
    (by rw [getPort_traceRx]; exact h)
  simp only [rxFrame, ht.1, if_true]
  refine ⟨Accepted.trans ⟨⟨fun q => ?_, fun q => ?_, fun q => ?_⟩, ?_⟩ (ht.2.1.trans (onPort_accepted ?_ ?_ ?_)), ?_, ?_⟩
  · rw [getPort_traceRx]
  · rw [getPort_traceRx]
  · rw [getPort_traceRx]
  · rw [traceRx_dist]
  · intro lp; rw [(attach_rest c hdr f.body lp).1]
  · intro lp; simp only [timeRest, dropEchoes, (attach_rest c hdr f.body lp).2.1]
  · intro lp; exact (attach_rest c hdr f.body lp).2.2.1
  · rw [getPort_onPort_same, (attach_rest _ _ _ _).2.2.2, ht.2.2.1]
  · rw [getPort_onPort_same, openedOf_attach]
    · rw [ht.2.2.2, getPort_traceRx]
    · rw [ht.2.2.2, getPort_traceRx]; exact ho

/-- Frames in sequence that go on with a group. -/
theorem rxFrames_next {rx : Rx} {c : Nat} (l : List (BitVec 6 × BitVec 64)) {seq : BitVec 8} {s : State}
    (h : seq = (getPort s rx.port).arq.rxExp) (ho : openedOf c (getPort s rx.port).arq.opened ≠ []) :
    Accepted s (rxFrames rx true c false seq l s) ∧
    openedOf c (getPort (rxFrames rx true c false seq l s) rx.port).arq.opened =
      openedOf c (getPort s rx.port).arq.opened ++ l.map (·.2) := by
  induction l generalizing seq s with
  | nil => exact ⟨⟨⟨fun _ => rfl, fun _ => rfl, fun _ => rfl⟩, rfl⟩, by simp [rxFrames]⟩
  | cons x l ih =>
    obtain ⟨t, b⟩ := x
    have h1 := rxFrame_next (rx := rx) (c := c) (hdr := false) (f := { typ := t, seq := seq, body := b }) (s := s) h (.inr ho)
    have h2 := ih (seq := seq + 1) h1.2.1.symm (by rw [h1.2.2]; simp)
    refine ⟨h1.1.trans h2.1, ?_⟩
    show openedOf c (getPort (rxFrames rx true c false (seq + 1) l _) rx.port).arq.opened = _
    rw [h2.2, h1.2.2]
    simp

/-- A sequenced frame or group that the port permits, received in sequence. -/
theorem rxSeq_inOrder {rx : Rx} {s : State} (h : inOrder rx s) (f : BitVec 6 × BitVec 64) (fs : List (BitVec 6 × BitVec 64)) :
    (rxSeq rx true (f :: fs) s).1 = true ∧ Accepted s (rxSeq rx true (f :: fs) s).2 := by
  have hr : linkRuns (getPort s rx.port) = true := h.1.2
  have hp : rx.part = none := h.2.2
  obtain ⟨t, b⟩ := f
  have h1 := rxFrame_next (rx := rx) (c := t.toNat % 32) (hdr := true) (f := { typ := t, seq := rx.seq, body := b }) (s := s)
    h.2.1 (.inl rfl)
  have h2 := rxFrames_next (rx := rx) (c := t.toNat % 32) fs (seq := rx.seq + 1) h1.2.1.symm (by rw [h1.2.2]; simp)
  have ho : openedOf (t.toNat % 32) (getPort (rxFrames rx true (t.toNat % 32) true rx.seq ((t, b) :: fs) s) rx.port).arq.opened =
      b :: fs.map (·.2) := by
    show openedOf _ (getPort (rxFrames rx true _ false (rx.seq + 1) fs _) rx.port).arq.opened = _
    rw [h2.2, h1.2.2]
    rfl
  simp only [rxSeq, hr, hp, if_true, ho, List.map_cons, beq_self_eq_true, Bool.and_self]
  exact ⟨trivial, (h1.1.trans h2.1).trans (onPort_accepted (fun _ => rfl) (fun _ => rfl) (fun _ => rfl))⟩

theorem SameLinks.domUsable {s₀ s : State} (h : SameLinks s₀ s) (d : Dom) : domUsable s.unit d = domUsable s₀.unit d := by
  have a := h.st (.unit d)
  have c := h.adm (.unit d)
  have b : (unitPort s.unit d).time.genMis = (unitPort s₀.unit d).time.genMis :=
    show (timeRest (getPort s (.unit d))).genMis = (timeRest (getPort s₀ (.unit d))).genMis from by rw [h.time]
  simp only [getPort] at a c
  simp [Machine.domUsable, admitted, a, b, c]

theorem SameLinks.admitted {s₀ s : State} (h : SameLinks s₀ s) (p : PortRef) :
    admitted (getPort s p) = admitted (getPort s₀ p) := by
  simp [Machine.admitted, h.st p]

/-- A ROPE record that is next is taken. -/
theorem rxRope_next {rx : Rx} {k : RopeKey} {s : State} (h : ropeNext rx k s) (hdr : BitVec 64) (pl : List (BitVec 64)) :
    (rxRope rx k.rseq hdr pl s).1 = true := by
  have hp : permRope rx.port = true := h.1
  have ho := rxSeq_inOrder h.2.1 (0x13, hdr) (pl.map fun b => (0x33, b))
  have ha : Machine.admitted (getPort s rx.port) = true := by simp [Machine.admitted, h.2.2.1]
  have hk : k.rseq = s.dist.rope.rxSeq := h.2.2.2
  simp only [rxRope, hp]
  rw [if_pos]
  simp only [ho.1, ho.2.links.admitted, ha, ho.2.rope, hk, beq_self_eq_true, Bool.and_self]

end Sys2Proof.Machine
end

