-- ==== Sys2Proof/Laws/Logging.lean ====
section
/-! SUPPORT. What logging a happening leaves as it was: every block of the part, everything of its base but the log and its
registers, and every register outside the pages of the log, the trace and the happening. -/

namespace Sys2Proof.Machine

/-- A base without its registers and its log. -/
def core (b : Base) : Base := { b with regs := [], log := [], logGap := false, first := none }

@[simp] theorem core_wr (a : Nat) (v : Word) (b : Base) : core (wr a v b) = core b := rfl
@[simp] theorem core_wrF (a l w n : Nat) (b : Base) : core (wrF a l w n b) = core b := rfl
@[simp] theorem core_wrB (a i : Nat) (v : Bool) (b : Base) : core (wrB a i v b) = core b := rfl
@[simp] theorem core_inc (a : Nat) (b : Base) : core (inc a b) = core b := rfl
@[simp] theorem core_incF (a l w : Nat) (b : Base) : core (incF a l w b) = core b := rfl
@[simp] theorem core_wr64 (a : Nat) (v : BitVec 64) (b : Base) : core (wr64 a v b) = core b := rfl
@[simp] theorem core_pgEvt (p i : Nat) (b : Base) : core (pgEvt p i b) = core b := rfl
@[simp] theorem core_log (l : List LogEntry) (b : Base) : core { b with log := l } = core b := rfl
@[simp] theorem core_logs (l : List LogEntry) (g : Bool) (b : Base) : core { b with log := l, logGap := g } = core b := rfl
@[simp] theorem core_gap (g : Bool) (b : Base) : core { b with logGap := g } = core b := rfl
@[simp] theorem core_first (e : Option LogEntry) (b : Base) : core { b with first := e } = core b := rfl

theorem core_loadFirst (e : LogEntry) (b : Base) : core (loadFirst e b) = core b := by
  simp only [loadFirst]
  split
  · rw [core_pgEvt, core_first]
  · rfl

theorem core_fltBit (pg : Option (Nat × Nat)) (b : Base) : core (fltBit pg b) = core b := by cases pg <;> rfl

/-- Entering a log entry leaves the base but for its registers and log. -/
theorem core_addEntry (pg : Option (Nat × Nat)) (e : LogEntry) (b : Base) : core (addEntry pg e b) = core b := by
  simp only [addEntry]
  split
  · rw [core_fltBit, core_log, core_inc]
  · split
    · rw [core_fltBit, core_loadFirst]
      split
      · rw [core_pgEvt, core_wrF, core_logs, core_inc]
      · rw [core_wrF, core_logs, core_inc]
    · rw [core_inc, core_gap, core_inc]

theorem core_logB (h : Hap) (port obj uid aux : Nat) (b : Base) : core (logB h port obj uid aux b) = core b :=
  core_addEntry _ _ _

theorem core_logLink (p : PortRef) (h : Hap) (obj aux : Nat) (b : Base) : core (logLink p h obj aux b) = core b :=
  core_addEntry _ _ _

theorem fltPage_core {b c : Base} (h : core c = core b) : fltPage c = fltPage b := by
  show fltPage (core c) = fltPage (core b)
  rw [h]

/-- An address outside a page is none of the page's. -/
theorem ne_pageAddr {a p o : Nat} (h : a / 0x1000 ≠ p) (ho : o < 0x1000) : a ≠ pageAddr p o := by
  intro hc
  apply h
  rw [hc, pageAddr]
  omega

theorem rd_fltBit {pg : Option (Nat × Nat)} {b : Base} {a : Nat} (h : ∀ x, pg = some x → a ≠ pageAddr x.1 0x018) :
    rd (fltBit pg b) a = rd b a := by
  cases pg with
  | none => rfl
  | some x => exact rd_wrB_other (h x rfl)

theorem rd_loadFirst {e : LogEntry} {b : Base} {a : Nat} (h : a / 0x1000 ≠ fltPage b) : rd (loadFirst e b) a = rd b a := by
  simp only [loadFirst]
  split
  · rw [rd_pgEvt_other (ne_pageAddr h (by omega))]
    rfl
  · rfl

/-- A register that entering an entry leaves: not of the log's page, not the fault word of the happening's page. -/
theorem rd_addEntry (pg : Option (Nat × Nat)) (e : LogEntry) (b : Base) (a : Nat) (h1 : a / 0x1000 ≠ fltPage b)
    (h2 : ∀ x, pg = some x → a ≠ pageAddr x.1 0x018) : rd (addEntry pg e b) a = rd b a := by
  have hc : a ≠ cntAddr b e.kind.toNat := ne_pageAddr h1 (by omega)
  have hr : rd (inc (cntAddr b e.kind.toNat) b) a = rd b a := rd_inc_other hc
  have hp : fltPage (inc (cntAddr b e.kind.toNat) b) = fltPage b := fltPage_core (core_inc _ _)
  simp only [addEntry]
  generalize inc (cntAddr b e.kind.toNat) b = c at hr hp ⊢
  have h1c : a / 0x1000 ≠ fltPage c := by rw [hp]; exact h1
  have hq : ∀ (l : List LogEntry) (g : Bool), fltPage { c with log := l, logGap := g } = fltPage c := fun _ _ => rfl
  have hq' : ∀ (l : List LogEntry) (g : Bool), rd { c with log := l, logGap := g } a = rd c a := fun _ _ => rfl
  split
  · rw [rd_fltBit h2]
    exact hr
  · split
    · rw [rd_fltBit h2]
      generalize hx : ({ c with log := logHead e c.log ++ { e with gap := c.logGap } :: logTail e c.log, logGap := false } : Base) = d
      have hd : fltPage d = fltPage c := by rw [← hx]; rfl
      have hdr : rd d a = rd c a := by rw [← hx]; rfl
      have hr2 : rd d a = rd b a := hdr.trans hr
      have h1d : a / 0x1000 ≠ fltPage d := by rw [hd]; exact h1c
      have hw : ∀ l w n, rd (wrF (pageAddr (fltPage d) 0x050) l w n d) a = rd b a := by
        intro l w n
        rw [rd_wrF_other (ne_pageAddr h1d (by omega)), hr2]
      have hwp : ∀ l w n, a / 0x1000 ≠ fltPage (wrF (pageAddr (fltPage d) 0x050) l w n d) := by
        intro l w n
        rw [fltPage_core (core_wrF _ _ _ _ _)]
        exact h1d
      split
      · rw [rd_loadFirst, rd_pgEvt_other (ne_pageAddr (hwp _ _ _) (by omega)), hw]
        rw [fltPage_core (core_pgEvt _ _ _)]
        exact hwp _ _ _
      · rw [rd_loadFirst (hwp _ _ _), hw]
    · rw [rd_inc_other]
      · exact hr
      · exact ne_pageAddr h1c (by omega)

/-! ## Sending on ports leaves the links and the blocks -/

/-- A unit without its ports, its trace, and its base's registers and log. -/
def unitRest (u : UnitState) : UnitState := { u with base := core u.base, portA := {}, portB := {}, dbg := {} }

theorem sendSeq_sameLinks (p : PortRef) (delay cls : Nat) (typ : BitVec 6) (hdr : BitVec 64) (pl : List (BitVec 64)) (s : State) :
    SameLinks s (sendSeq p delay cls typ hdr pl s) := by
  refine onPort_sameLinks ?_ ?_ ?_ <;> intro lp <;> simp only [queueOn] <;> split <;> rfl

theorem setPort_base (p : PortRef) (lp : LinkPort) (s : State) :
    (setPort p lp s).unit.base = s.unit.base ∧ (setPort p lp s).dist.base = s.dist.base := by
  cases p with
  | unit d => cases d <;> exact ⟨rfl, rfl⟩
  | dist n => exact ⟨rfl, rfl⟩

theorem setPort_rest (p : PortRef) (lp : LinkPort) (s : State) : unitRest (setPort p lp s).unit = unitRest s.unit := by
  cases p with
  | unit d => cases d <;> rfl
  | dist n => rfl

theorem setPort_dist (d : Dom) (lp : LinkPort) (s : State) : (setPort (.unit d) lp s).dist = s.dist := rfl

/-! ## Logging at the unit -/

/-- What logging a happening of page `hp` may do to a unit: its log, its trace, reports queued on its ports, and registers
of the log's page, the trace's page and the fault word of page `hp`. -/
structure UnitLogs (hp : Nat) (s t : State) : Prop where
  pending : t.pending = s.pending
  dist : t.dist = s.dist
  rest : unitRest t.unit = unitRest s.unit
  links : SameLinks s t
  regs : ∀ a, a / 0x1000 ≠ fltPage s.unit.base → a / 0x1000 ≠ 0x16 → a ≠ pageAddr hp 0x018 →
    rd t.unit.base a = rd s.unit.base a

theorem UnitLogs.refl (hp : Nat) (s : State) : UnitLogs hp s s :=
  ⟨rfl, rfl, rfl, ⟨fun _ => rfl, fun _ => rfl, fun _ => rfl⟩, fun _ _ _ _ => rfl⟩

theorem unitRest_core {u v : UnitState} (h : unitRest u = unitRest v) : core u.base = core v.base :=
  congrArg UnitState.base h

theorem UnitLogs.trans {hp : Nat} {s t w : State} (h : UnitLogs hp s t) (k : UnitLogs hp t w) : UnitLogs hp s w := by
  refine ⟨k.pending.trans h.pending, k.dist.trans h.dist, k.rest.trans h.rest, h.links.trans k.links, ?_⟩
  intro a h1 h2 h3
  rw [k.regs a (by rw [fltPage_core (unitRest_core h.rest)]; exact h1) h2 h3, h.regs a h1 h2 h3]

theorem sendReport_logs (hp : Nat) (d : Dom) (code detail : Nat) (s : State) :
    UnitLogs hp s (sendReport (.unit d) code detail s) := by
  simp only [sendReport]
  split
  · refine ⟨by cases d <;> rfl, rfl, setPort_rest _ _ _, sendSeq_sameLinks _ _ _ _ _ _ _, ?_⟩
    intro a _ _ _
    rw [show (sendSeq (.unit d) 0 7 0x10 (healthBody (unitId s.unit) false 0x10 code detail) [] s).unit.base = s.unit.base from
      (setPort_base _ _ _).1]
  · refine ⟨rfl, rfl, rfl, ⟨fun p => ?_, fun p => ?_, fun p => ?_⟩, ?_⟩
    · rw [getPort_onBaseOf]
    · rw [getPort_onBaseOf]
    · rw [getPort_onBaseOf]
    · intro a h1 _ _
      exact rd_inc_other (ne_pageAddr h1 (by omega))

theorem sendReports_logs (hp : Nat) (ds : List Dom) (code obj aux : Nat) (s : State) :
    UnitLogs hp s (sendReports ds code obj aux s) := by
  unfold sendReports
  extract_lets detail v
  split
  · exact sendReport_logs _ _ _ _ _
  · have ha : UnitLogs hp s v := by
      simp only [v]
      split
      · exact sendReport_logs _ _ _ _ _
      · exact UnitLogs.refl _ _
    split
    · exact ha.trans (sendReport_logs _ _ _ _ _)
    · exact ha

theorem unitRest_uB {f : Base → Base} {u : UnitState} (h : core (f u.base) = core u.base) : unitRest (uB f u) = unitRest u := by
  simp only [unitRest, uB, h]

theorem traceStop_rest (u : UnitState) : unitRest (traceStop u) = unitRest u := by unfold traceStop; split <;> rfl
theorem traceTrigger_rest (i : Nat) (u : UnitState) : unitRest (traceTrigger i u) = unitRest u := by
  simp only [traceTrigger, apply_ite unitRest, traceStop_rest]
  split
  · split <;> rfl
  · rfl

theorem rd_traceStop {a : Nat} (h : a / 0x1000 ≠ 0x16) (u : UnitState) : rd (traceStop u).base a = rd u.base a := by
  unfold traceStop
  split
  · exact rd_pgEvt_other (ne_pageAddr h (by omega))
  · rfl

theorem rd_traceTrigger {a : Nat} (h : a / 0x1000 ≠ 0x16) (i : Nat) (u : UnitState) :
    rd (traceTrigger i u).base a = rd u.base a := by
  unfold traceTrigger
  extract_lets post ring d0 v
  have hv : rd v.base a = rd u.base a := by
    show rd (pgEvt 0x16 0 (wr64 0x16054 (nsNow u.base) u.base)) a = _
    rw [rd_pgEvt_other (ne_pageAddr h (by omega)), wr64, rd_wr_other (by omega), rd_wr_other (by omega)]
  split
  · split
    · rw [rd_traceStop h, hv]
    · exact hv
  · rfl

theorem traceOnFault_rest (h : Hap) (u : UnitState) : unitRest (traceOnFault h u) = unitRest u := by
  unfold traceOnFault
  split
  · exact traceTrigger_rest _ _
  · rfl

theorem rd_traceOnFault {a : Nat} (h : a / 0x1000 ≠ 0x16) (x : Hap) (u : UnitState) :
    rd (traceOnFault x u).base a = rd u.base a := by
  unfold traceOnFault
  split
  · exact rd_traceTrigger h _ _
  · rfl

theorem traceOnFault_ports (h : Hap) (u : UnitState) (d : Dom) : unitPort (traceOnFault h u) d = unitPort u d := by
  unfold traceOnFault
  split
  · cases d
    · exact traceTrigger_portA _ _
    · exact traceTrigger_portB _ _
  · rfl

/-- Entering an entry of a unit page, with the trace's trigger. -/
theorem logEntry_logs (h : Hap) (port obj uid aux : Nat) (s : State) :
    UnitLogs h.page s (onUnit (fun u => traceOnFault h (uB (logB h port obj uid aux) u)) s) := by
  refine ⟨rfl, rfl, ?_, ⟨fun p => ?_, fun p => ?_, fun p => ?_⟩, ?_⟩
  · exact (traceOnFault_rest _ _).trans (unitRest_uB (core_logB _ _ _ _ _ _))
  · cases p with
    | dist n => rfl
    | unit d => exact congrArg (fun lp : LinkPort => lp.phy.st) ((traceOnFault_ports h _ d).trans (by cases d <;> rfl))
  · cases p with
    | dist n => rfl
    | unit d => exact congrArg timeRest ((traceOnFault_ports h _ d).trans (by cases d <;> rfl))
  · cases p with
    | dist n => rfl
    | unit d => exact congrArg LinkPort.adm ((traceOnFault_ports h _ d).trans (by cases d <;> rfl))
  · intro a h1 h2 h3
    show rd (traceOnFault h (uB (logB h port obj uid aux) s.unit)).base a = _
    rw [rd_traceOnFault h2]
    exact rd_addEntry _ _ _ _ h1 (by intro x hx; cases hx; exact h3)

/-- Logging a happening of a unit page. -/
theorem logU_logs (h : Hap) (port obj uid aux : Nat) (s : State) : UnitLogs h.page s (logU h port obj uid aux s) := by
  unfold logU
  extract_lets merged t
  split
  · exact (logEntry_logs h port obj uid aux s).trans (sendReports_logs _ _ _ _ _ _)
  · exact logEntry_logs h port obj uid aux s

section
variable (h : Hap) (port obj uid aux : Nat) (s : State)
@[simp] theorem logU_pending : (logU h port obj uid aux s).pending = s.pending := (logU_logs h port obj uid aux s).pending
@[simp] theorem logU_dist : (logU h port obj uid aux s).dist = s.dist := (logU_logs h port obj uid aux s).dist
@[simp] theorem logU_sems : (logU h port obj uid aux s).unit.sems = s.unit.sems :=
  (congrArg UnitState.sems (logU_logs h port obj uid aux s).rest :)
@[simp] theorem logU_servo : (logU h port obj uid aux s).unit.servo = s.unit.servo :=
  (congrArg UnitState.servo (logU_logs h port obj uid aux s).rest :)
@[simp] theorem logU_tckAt : (logU h port obj uid aux s).unit.tckAt = s.unit.tckAt :=
  (congrArg UnitState.tckAt (logU_logs h port obj uid aux s).rest :)
@[simp] theorem logU_unlockLogged : (logU h port obj uid aux s).unit.unlockLogged = s.unit.unlockLogged :=
  (congrArg UnitState.unlockLogged (logU_logs h port obj uid aux s).rest :)
@[simp] theorem logU_taps : (logU h port obj uid aux s).unit.taps = s.unit.taps :=
  (congrArg UnitState.taps (logU_logs h port obj uid aux s).rest :)
@[simp] theorem logU_tapPorts : (logU h port obj uid aux s).unit.tapPorts = s.unit.tapPorts :=
  (congrArg UnitState.tapPorts (logU_logs h port obj uid aux s).rest :)
@[simp] theorem logU_cap : (logU h port obj uid aux s).unit.cap = s.unit.cap :=
  (congrArg UnitState.cap (logU_logs h port obj uid aux s).rest :)
@[simp] theorem logU_drips : (logU h port obj uid aux s).unit.drips = s.unit.drips :=
  (congrArg UnitState.drips (logU_logs h port obj uid aux s).rest :)
@[simp] theorem logU_launch : (logU h port obj uid aux s).unit.launch = s.unit.launch :=
  (congrArg UnitState.launch (logU_logs h port obj uid aux s).rest :)
@[simp] theorem logU_bars : (logU h port obj uid aux s).unit.bars = s.unit.bars :=
  (congrArg UnitState.bars (logU_logs h port obj uid aux s).rest :)
@[simp] theorem logU_flows : (logU h port obj uid aux s).unit.flows = s.unit.flows :=
  (congrArg UnitState.flows (logU_logs h port obj uid aux s).rest :)
@[simp] theorem logU_fnc : (logU h port obj uid aux s).unit.fnc = s.unit.fnc :=
  (congrArg UnitState.fnc (logU_logs h port obj uid aux s).rest :)
@[simp] theorem logU_dlk : (logU h port obj uid aux s).unit.dlk = s.unit.dlk :=
  (congrArg UnitState.dlk (logU_logs h port obj uid aux s).rest :)
@[simp] theorem logU_cmb : (logU h port obj uid aux s).unit.cmb = s.unit.cmb :=
  (congrArg UnitState.cmb (logU_logs h port obj uid aux s).rest :)
/-- Everything of the base but its registers and its log. -/
theorem logU_core : core (logU h port obj uid aux s).unit.base = core s.unit.base :=
  unitRest_core (logU_logs h port obj uid aux s).rest
@[simp] theorem logU_kind : (logU h port obj uid aux s).unit.base.kind = s.unit.base.kind :=
  (congrArg Base.kind (logU_core h port obj uid aux s) :)
@[simp] theorem logU_phase : (logU h port obj uid aux s).unit.base.phase = s.unit.base.phase :=
  (congrArg Base.phase (logU_core h port obj uid aux s) :)
@[simp] theorem logU_tick : (logU h port obj uid aux s).unit.base.tick = s.unit.base.tick :=
  (congrArg Base.tick (logU_core h port obj uid aux s) :)
@[simp] theorem logU_ns : (logU h port obj uid aux s).unit.base.ns = s.unit.base.ns :=
  (congrArg Base.ns (logU_core h port obj uid aux s) :)
@[simp] theorem logU_valid : (logU h port obj uid aux s).unit.base.valid = s.unit.base.valid :=
  (congrArg Base.valid (logU_core h port obj uid aux s) :)
@[simp] theorem logU_window : (logU h port obj uid aux s).unit.base.window = s.unit.base.window :=
  (congrArg Base.window (logU_core h port obj uid aux s) :)
@[simp] theorem logU_evc : (logU h port obj uid aux s).unit.base.evc = s.unit.base.evc :=
  (congrArg Base.evc (logU_core h port obj uid aux s) :)
@[simp] theorem logU_outs : (logU h port obj uid aux s).unit.base.outs = s.unit.base.outs :=
  (congrArg Base.outs (logU_core h port obj uid aux s) :)
@[simp] theorem logD_unit : (logD h port obj uid aux s).unit = s.unit := rfl
@[simp] theorem logD_ports : (logD h port obj uid aux s).dist.ports = s.dist.ports := rfl
@[simp] theorem logD_servo : (logD h port obj uid aux s).dist.servo = s.dist.servo := rfl
@[simp] theorem logD_root : (logD h port obj uid aux s).dist.root = s.dist.root := rfl
@[simp] theorem logD_ptp : (logD h port obj uid aux s).dist.ptp = s.dist.ptp := rfl
@[simp] theorem logD_cmb : (logD h port obj uid aux s).dist.cmb = s.dist.cmb := rfl
@[simp] theorem logD_rope : (logD h port obj uid aux s).dist.rope = s.dist.rope := rfl
@[simp] theorem logD_cal : (logD h port obj uid aux s).dist.cal = s.dist.cal := rfl
@[simp] theorem logD_adm : (logD h port obj uid aux s).dist.adm = s.dist.adm := rfl
theorem logD_core : core (logD h port obj uid aux s).dist.base = core s.dist.base := core_logB _ _ _ _ _ _
@[simp] theorem logD_phase : (logD h port obj uid aux s).dist.base.phase = s.dist.base.phase :=
  (congrArg Base.phase (logD_core h port obj uid aux s) :)
@[simp] theorem logD_kind : (logD h port obj uid aux s).dist.base.kind = s.dist.base.kind :=
  (congrArg Base.kind (logD_core h port obj uid aux s) :)
@[simp] theorem logD_tick : (logD h port obj uid aux s).dist.base.tick = s.dist.base.tick :=
  (congrArg Base.tick (logD_core h port obj uid aux s) :)
@[simp] theorem logD_ns : (logD h port obj uid aux s).dist.base.ns = s.dist.base.ns :=
  (congrArg Base.ns (logD_core h port obj uid aux s) :)
@[simp] theorem logD_valid : (logD h port obj uid aux s).dist.base.valid = s.dist.base.valid :=
  (congrArg Base.valid (logD_core h port obj uid aux s) :)
@[simp] theorem logD_outs : (logD h port obj uid aux s).dist.base.outs = s.dist.base.outs :=
  (congrArg Base.outs (logD_core h port obj uid aux s) :)
theorem rd_logU {a : Nat} (h1 : a / 0x1000 ≠ fltPage s.unit.base) (h2 : a / 0x1000 ≠ 0x16) (h3 : a ≠ pageAddr h.page 0x018) :
    rd (logU h port obj uid aux s).unit.base a = rd s.unit.base a := (logU_logs h port obj uid aux s).regs a h1 h2 h3
theorem rd_logD {a : Nat} (h1 : a / 0x1000 ≠ fltPage s.dist.base) (h3 : a ≠ pageAddr h.page 0x018) :
    rd (logD h port obj uid aux s).dist.base a = rd s.dist.base a :=
  rd_addEntry _ _ _ _ h1 (by intro x hx; cases hx; exact h3)
end

end Sys2Proof.Machine
end

