-- ==== Sys2Proof/Laws/Accept.lean ====
section
/-! SUPPORT. Receiving a frame in sequence changes its port, the trace and nothing else; what then acts on it. -/

namespace Sys2Proof.Machine

/-- A distributor without its ports and the note of the last frame it accepted. -/
def distRest (d : DistState) : DistState := { d with ports := [], trig := none }

theorem setPort_distRest (p : PortRef) (lp : LinkPort) (s : State) : distRest (setPort p lp s).dist = distRest s.dist := by
  cases p <;> rfl

theorem traceFrame_rest (a b : Bool) (d : Dom) (lane : Bool) (f : Frame) (u : UnitState) :
    unitRest (traceFrame a b d lane f u) = unitRest u := by
  unfold traceFrame
  extract_lets _ _ _ _ _ _ _ _ _ v _ hit w _
  have hw : unitRest w = unitRest u := by
    simp only [w, apply_ite unitRest, traceTrigger_rest]
    exact ite_self _
  split
  · split
    · rfl
    · split
      · split
        · split
          · rw [traceStop_rest, hw]
          · exact hw
        · split
          · rw [traceStop_rest, hw]
          · exact hw
      · split
        · rw [traceStop_rest, hw]
        · exact hw
  · rfl

theorem rd_traceFrame {a : Nat} (h : a / 0x1000 ≠ 0x16) (x y : Bool) (d : Dom) (lane : Bool) (f : Frame) (u : UnitState) :
    rd (traceFrame x y d lane f u).base a = rd u.base a := by
  unfold traceFrame
  extract_lets _ _ _ _ _ _ _ _ _ v _ hit w _
  have hw : rd w.base a = rd u.base a := by
    simp only [w]
    split
    · rw [rd_traceTrigger h]
    · rfl
  split
  · split
    · exact rd_inc_other (by intro hc; apply h; rw [hc])
    · split
      · split
        · split
          · rw [rd_traceStop h, hw]
          · exact hw
        · split
          · rw [rd_traceStop h, hw]
          · exact hw
      · split
        · rw [rd_traceStop h, hw]
        · exact hw
  · rfl

/-- What receiving on a port leaves: the part it is not at, the links' state, and everything but the port and the trace. -/
structure Took (s t : State) : Prop where
  pending : t.pending = s.pending
  links : SameLinks s t
  dist : distRest t.dist = distRest s.dist
  unit : unitRest t.unit = unitRest s.unit
  regs : ∀ a, a / 0x1000 ≠ 0x16 → rd t.unit.base a = rd s.unit.base a

theorem Took.trans {s t w : State} (h : Took s t) (k : Took t w) : Took s w :=
  ⟨k.pending.trans h.pending, h.links.trans k.links, k.dist.trans h.dist, k.unit.trans h.unit,
   fun a ha => (k.regs a ha).trans (h.regs a ha)⟩

theorem traceRx_took (p : PortRef) (lane : Bool) (fs : List Frame) (s : State) : Took s (traceRx p lane fs s) := by
  refine ⟨?_, ⟨fun q => ?_, fun q => ?_, fun q => ?_⟩, ?_, ?_, ?_⟩
  · cases p with
    | dist n => rfl
    | unit d =>
      simp only [traceRx]
      induction fs generalizing s with
      | nil => rfl
      | cons f fs ih => rw [List.foldl_cons, ih]; rfl
  · rw [getPort_traceRx]
  · rw [getPort_traceRx]
  · rw [getPort_traceRx]
  · rw [traceRx_dist]
  · cases p with
    | dist n => rfl
    | unit d =>
      simp only [traceRx]
      induction fs generalizing s with
      | nil => rfl
      | cons f fs ih =>
        rw [List.foldl_cons, ih]
        exact traceFrame_rest _ _ _ _ _ _
  · intro a ha
    cases p with
    | dist n => rfl
    | unit d =>
      simp only [traceRx]
      induction fs generalizing s with
      | nil => rfl
      | cons f fs ih =>
        rw [List.foldl_cons, ih]
        exact rd_traceFrame ha _ _ _ _ _ _

theorem onPort_took {p : PortRef} {f : LinkPort → LinkPort} {s : State} (h : SameLinks s (onPort p f s)) :
    Took s (onPort p f s) :=
  ⟨by cases p <;> rfl, h, setPort_distRest _ _ _, setPort_rest _ _ _, fun a _ => by
    rw [show (onPort p f s).unit.base = s.unit.base from (setPort_base _ _ _).1]⟩

theorem noteTrig_took (p : PortRef) (s : State) : Took s (noteTrig p s) := by
  cases p with
  | unit d => exact ⟨rfl, (noteTrig_links _ s).1, rfl, rfl, fun _ _ => rfl⟩
  | dist n => exact ⟨rfl, (noteTrig_links _ s).1, rfl, rfl, fun _ _ => rfl⟩

theorem seqTest_took {p : PortRef} {lane : Bool} {seq : BitVec 8} {s : State} (h : seq = (getPort s p).arq.rxExp) :
    Took s (seqTest p lane seq s).2 := by
  have h0 : seq - (getPort s p).arq.rxExp = 0 := by rw [h]; exact BitVec.sub_self _
  simp only [seqTest, h0, if_true]
  refine Took.trans (onPort_took (onPort_sameLinks (fun lp => (rxOnLane_rest _ _ lp).1) (fun lp => (rxOnLane_rest _ _ lp).2.1)
    (fun lp => (rxOnLane_rest _ _ lp).2.2.1))) (Took.trans (onPort_took (onPort_sameLinks ?_ ?_ ?_)) (noteTrig_took _ _))
    <;> intro lp <;> rfl

theorem rxFrame_took {rx : Rx} {c : Nat} {hdr : Bool} {f : Frame} {s : State} (h : f.seq = (getPort s rx.port).arq.rxExp) :
    Took s (rxFrame rx true c hdr f s) := by
  have hs : f.seq = (getPort (traceRx rx.port rx.lane [f] s) rx.port).arq.rxExp := by rw [getPort_traceRx]; exact h
  have ht := seqTest_inOrder (lane := rx.lane) hs
  simp only [rxFrame, ht.1, if_true]
  refine (traceRx_took rx.port rx.lane [f] s).trans ((seqTest_took hs).trans (onPort_took (onPort_sameLinks ?_ ?_ ?_)))
  · intro lp; rw [(attach_rest c hdr f.body lp).1]
  · intro lp; simp only [timeRest, dropEchoes, (attach_rest c hdr f.body lp).2.1]
  · intro lp; exact (attach_rest c hdr f.body lp).2.2.1

theorem rxFrames_took {rx : Rx} {c : Nat} (l : List (BitVec 6 × BitVec 64)) {seq : BitVec 8} {s : State}
    (h : seq = (getPort s rx.port).arq.rxExp) (ho : openedOf c (getPort s rx.port).arq.opened ≠ []) :
    Took s (rxFrames rx true c false seq l s) := by
  induction l generalizing seq s with
  | nil => exact ⟨rfl, ⟨fun _ => rfl, fun _ => rfl, fun _ => rfl⟩, rfl, rfl, fun _ _ => rfl⟩
  | cons x l ih =>
    obtain ⟨t, b⟩ := x
    have h1 := rxFrame_next (rx := rx) (c := c) (hdr := false) (f := { typ := t, seq := seq, body := b }) (s := s) h (.inr ho)
    exact (rxFrame_took (f := { typ := t, seq := seq, body := b }) h).trans
      (ih (seq := seq + 1) h1.2.1.symm (by rw [h1.2.2]; simp))

/-- A frame in sequence: accepted, and nothing but its port and the trace changes. -/
theorem rxSeq_took {rx : Rx} {s : State} (h : inOrder rx s) (f : BitVec 6 × BitVec 64) (fs : List (BitVec 6 × BitVec 64)) :
    Took s (rxSeq rx true (f :: fs) s).2 := by
  have hr : linkRuns (getPort s rx.port) = true := h.1.2
  have hp : rx.part = none := h.2.2
  obtain ⟨t, b⟩ := f
  have h1 := rxFrame_next (rx := rx) (c := t.toNat % 32) (hdr := true) (f := { typ := t, seq := rx.seq, body := b }) (s := s)
    h.2.1 (.inl rfl)
  have k1 := rxFrame_took (rx := rx) (c := t.toNat % 32) (hdr := true) (f := { typ := t, seq := rx.seq, body := b }) (s := s) h.2.1
  have k2 := rxFrames_took (rx := rx) (c := t.toNat % 32) fs (seq := rx.seq + 1) h1.2.1.symm (by rw [h1.2.2]; simp)
  simp only [rxSeq, hr, hp, if_true]
  split
  · exact (k1.trans k2).trans (onPort_took (onPort_sameLinks (fun _ => rfl) (fun _ => rfl) (fun _ => rfl)))
  · exact k1.trans k2

theorem rxSeq_ok {rx : Rx} {s : State} (h : inOrder rx s) (f : BitVec 6 × BitVec 64) (fs : List (BitVec 6 × BitVec 64)) :
    (rxSeq rx true (f :: fs) s).1 = true := (rxSeq_inOrder h f fs).1

/-- What a distributor does with a frame in sequence on an admitted port. -/
theorem onDistRx_took {rx : Rx} {n : Fin 132} {s : State} (h : inOrderAdmitted rx n s) (f0 : BitVec 6 × BitVec 64)
    (fs : List (BitVec 6 × BitVec 64)) (f : Nat → State → State) :
    onDistRx rx (rxSeq rx true (f0 :: fs) s) f = f n (rxSeq rx true (f0 :: fs) s).2 := by
  have hp : rx.port = .dist n := h.1
  have ha : admitted (distPort (rxSeq rx true (f0 :: fs) s).2.dist n) = true := by
    have h1 := (rxSeq_took h.2.1 f0 fs).links.st rx.port
    have h3 := h.2.2
    rw [hp] at h1 h3
    simp only [getPort] at h1 h3
    simp [admitted, h1, h3]
  simp [onDistRx, distNum, hp, rxSeq_ok h.2.1, ha]

/-- What a unit does with a frame in sequence of a usable domain. -/
theorem domUsable_took {d : Dom} {lane : Bool} {seq : BitVec 8} {s : State} (h : inOrder ⟨.unit d, lane, seq, none⟩ s)
    (hu : domUsable s.unit d = true) (f : BitVec 6 × BitVec 64) (fs : List (BitVec 6 × BitVec 64)) :
    domUsable (rxSeq ⟨.unit d, lane, seq, none⟩ true (f :: fs) s).2.unit d = true := by
  rw [(rxSeq_took h f fs).links.domUsable]
  exact hu

end Sys2Proof.Machine
end

