-- ==== Sys2Proof/Laws/Apart.lean ====
section
/-! SUPPORT. What happens at one part leaves the other part as it is: the plumbing, and the named operations of Ops. -/

namespace Sys2Proof.Machine

variable {P : Part} {s₀ s : State}

theorem OtherSame.refl (P : Part) (s : State) : OtherSame P s s := by cases P <;> exact rfl

theorem onUnit_apart {f : UnitState → UnitState} (hP : P = .unit) (h : OtherSame P s₀ s) : OtherSame P s₀ (onUnit f s) := by
  subst hP
  exact h
theorem onDist_apart {f : DistState → DistState} (hP : P = .dist) (h : OtherSame P s₀ s) : OtherSame P s₀ (onDist f s) := by
  subst hP
  exact h
theorem mkUnit_apart {q : List Instr} {u : UnitState} (hP : P = .unit) (h : OtherSame P s₀ s) :
    OtherSame P s₀ ⟨q, u, s.dist⟩ := by
  subst hP
  exact h
theorem mkDist_apart {q : List Instr} {d : DistState} (hP : P = .dist) (h : OtherSame P s₀ s) :
    OtherSame P s₀ ⟨q, s.unit, d⟩ := by
  subst hP
  exact h
theorem onPartBase_apart {r : Part} {f : Base → Base} (hP : r = P) (h : OtherSame P s₀ s) :
    OtherSame P s₀ (onPartBase r f s) := by
  subst hP
  cases r <;> exact h
theorem onBaseOf_apart {r : PortRef} {f : Base → Base} (hP : portPart r = P) (h : OtherSame P s₀ s) :
    OtherSame P s₀ (onBaseOf r f s) := by
  subst hP
  cases r <;> exact h
theorem setPort_apart {r : PortRef} {lp : LinkPort} (hP : portPart r = P) (h : OtherSame P s₀ s) :
    OtherSame P s₀ (setPort r lp s) := by
  subst hP
  cases r <;> exact h
theorem onPort_apart {r : PortRef} {f : LinkPort → LinkPort} (hP : portPart r = P) (h : OtherSame P s₀ s) :
    OtherSame P s₀ (onPort r f s) := setPort_apart hP h

section
variable {c : Prop} [Decidable c]
theorem iteState_apart {a b : State} (ha : OtherSame P s₀ a) (hb : OtherSame P s₀ b) :
    OtherSame P s₀ (if c then a else b) := by split <;> assumption

def OptApart (P : Part) (s₀ : State) (o : Option State) : Prop := ∀ t, o = some t → OtherSame P s₀ t
def OptPairApart (P : Part) (s₀ : State) (o : Option (Word × State)) : Prop := ∀ t, o = some t → OtherSame P s₀ t.2
theorem optNone_apart : OptApart P s₀ none := fun _ h => by cases h
theorem optSome_apart (h : OtherSame P s₀ s) : OptApart P s₀ (some s) := fun _ e => by cases e; exact h
theorem iteOpt_apart {a b : Option State} (ha : OptApart P s₀ a) (hb : OptApart P s₀ b) :
    OptApart P s₀ (if c then a else b) := by split <;> assumption
theorem optPairNone_apart : OptPairApart P s₀ none := fun _ h => by cases h
theorem optPairSome_apart {x : Word × State} (h : OtherSame P s₀ x.2) : OptPairApart P s₀ (some x) :=
  fun _ e => by cases e; exact h
theorem iteOptPair_apart {a b : Option (Word × State)} (ha : OptPairApart P s₀ a) (hb : OptPairApart P s₀ b) :
    OptPairApart P s₀ (if c then a else b) := by split <;> assumption
end

theorem portPart_srcPort (p : Part) (b : Bool) : portPart (srcPort p b) = p := by cases p <;> cases b <;> rfl
theorem portPart_distRef (n : Nat) : portPart (distRef n) = .dist := by
  unfold distRef
  split <;> rfl

theorem foldState_apart {α : Type} {l : List α} {f : State → α → State}
    (hf : ∀ z x, OtherSame P s₀ z → OtherSame P s₀ (f z x)) (hs : OtherSame P s₀ s) : OtherSame P s₀ (l.foldl f s) := by
  induction l generalizing s with
  | nil => exact hs
  | cons x l ih => exact ih (hf s x hs)

end Sys2Proof.Machine
end

