-- ==== Sys2Proof/Laws/ApartLink.lean ====
section
/-! SUPPORT. The operations of Machine/Link.lean act at one part and leave the other as it is. -/

namespace Sys2Proof.Machine

variable {P : Part} {s₀ : State}

theorem sendSeq_apart {p0 : PortRef} {delay : Nat} {cls : Nat} {typ : BitVec 6} {hdr : BitVec 64} {payload : List (BitVec 64)} {s : State} (hP : portPart p0 = P) (h_s : OtherSame P s₀ s) :
    OtherSame P s₀ (sendSeq p0 delay cls typ hdr payload s) := by
  unfold sendSeq
  apply onPort_apart
  · with_reducible assumption
  · with_reducible assumption

theorem sendUns_apart {p0 : PortRef} {spare : Bool} {cls : Nat} {typ : BitVec 6} {body : BitVec 64} {fill : Fill} {s : State} (hP : portPart p0 = P) (h_s : OtherSame P s₀ s) :
    OtherSame P s₀ (sendUns p0 spare cls typ body fill s) := by
  unfold sendUns
  apply onPort_apart
  · with_reducible assumption
  · with_reducible assumption

theorem sendAck_apart {p0 : PortRef} {s : State} (hP : portPart p0 = P) (h_s : OtherSame P s₀ s) :
    OtherSame P s₀ (sendAck p0 s) := by
  unfold sendAck
  extract_lets v0 v1 v2
  have h3 : OtherSame P s₀ v2 := by
    apply sendUns_apart
    · with_reducible assumption
    · with_reducible assumption
  clear_value v2
  apply onPort_apart
  · with_reducible assumption
  · with_reducible assumption

theorem sendNak_apart {p0 : PortRef} {reason : Nat} {s : State} (hP : portPart p0 = P) (h_s : OtherSame P s₀ s) :
    OtherSame P s₀ (sendNak p0 reason s) := by
  unfold sendNak
  extract_lets v4 v5 v6
  have h7 : OtherSame P s₀ v6 := by
    apply sendUns_apart
    · with_reducible assumption
    · with_reducible assumption
  clear_value v6
  apply iteState_apart
  · with_reducible assumption
  · apply onPort_apart
    · with_reducible assumption
    · with_reducible assumption

theorem sendReport_apart {p0 : PortRef} {code : Nat} {detail : Nat} {s : State} (hP : portPart p0 = P) (h_s : OtherSame P s₀ s) :
    OtherSame P s₀ (sendReport p0 code detail s) := by
  unfold sendReport
  extract_lets v8 v9 v10
  apply iteState_apart
  · apply sendSeq_apart
    · with_reducible assumption
    · with_reducible assumption
  · apply onBaseOf_apart
    · with_reducible assumption
    · with_reducible assumption

theorem sendReports_apart {ds : List Dom} {code : Nat} {obj : Nat} {aux : Nat} {s : State} (hP : P = .unit) (h_s : OtherSame P s₀ s) :
    OtherSame P s₀ (sendReports ds code obj aux s) := by
  unfold sendReports
  extract_lets v11 v12
  have h13 : OtherSame P s₀ v12 := by
    apply iteState_apart
    · apply sendReport_apart
      · exact hP.symm
      · with_reducible assumption
    · with_reducible assumption
  clear_value v12
  split
  · apply sendReport_apart
    · exact hP.symm
    · with_reducible assumption
  · apply iteState_apart
    · apply sendReport_apart
      · exact hP.symm
      · with_reducible assumption
    · with_reducible assumption

theorem logPort_apart {p0 : PortRef} {h : Hap} {obj : Nat} {aux : Nat} {s : State} (hP : portPart p0 = P) (h_s : OtherSame P s₀ s) :
    OtherSame P s₀ (logPort p0 h obj aux s) := by
  unfold logPort
  split
  · apply onBaseOf_apart
    · with_reducible assumption
    · with_reducible assumption
  · extract_lets v14 v15 v16
    have h17 : OtherSame P s₀ v16 := by
      apply onUnit_apart
      · exact hP.symm
      · apply onBaseOf_apart
        · with_reducible assumption
        · with_reducible assumption
    clear_value v16
    split
    · apply iteState_apart
      · with_reducible assumption
      · apply sendReports_apart
        · exact hP.symm
        · with_reducible assumption
    · with_reducible assumption

theorem logU_apart {h : Hap} {port : Nat} {obj : Nat} {uid : Nat} {aux : Nat} {s : State} (hP : P = .unit) (h_s : OtherSame P s₀ s) :
    OtherSame P s₀ (logU h port obj uid aux s) := by
  unfold logU
  extract_lets v18 v19
  have h20 : OtherSame P s₀ v19 := by
    apply onUnit_apart
    · with_reducible assumption
    · with_reducible assumption
  clear_value v19
  apply iteState_apart
  · apply sendReports_apart
    · with_reducible assumption
    · with_reducible assumption
  · with_reducible assumption

theorem logD_apart {h : Hap} {port : Nat} {obj : Nat} {uid : Nat} {aux : Nat} {s : State} (hP : P = .dist) (h_s : OtherSame P s₀ s) :
    OtherSame P s₀ (logD h port obj uid aux s) := by
  unfold logD
  apply onDist_apart
  · with_reducible assumption
  · with_reducible assumption

theorem addScore_apart {n : Nat} {pts : Nat} {s : State} (hP : P = .dist) (h_s : OtherSame P s₀ s) :
    OtherSame P s₀ (addScore n pts s) := by
  unfold addScore
  extract_lets v21 v22 v23 v24 v25 v26 v27
  have h28 : OtherSame P s₀ v26 := by
    apply onDist_apart
    · with_reducible assumption
    · with_reducible assumption
  clear_value v26
  have h29 : OtherSame P s₀ v27 := by
    apply logD_apart
    · with_reducible assumption
    · with_reducible assumption
  clear_value v27
  apply iteState_apart
  · with_reducible assumption
  · apply iteState_apart
    · apply onDist_apart
      · with_reducible assumption
      · with_reducible assumption
    · with_reducible assumption

theorem scorePort_apart {p0 : PortRef} {o : Nat} {lo : Nat} {s : State} (hP : portPart p0 = P) (h_s : OtherSame P s₀ s) :
    OtherSame P s₀ (scorePort p0 o lo s) := by
  unfold scorePort
  split
  · with_reducible assumption
  · apply addScore_apart
    · exact hP.symm
    · with_reducible assumption

theorem portEvt_apart {p0 : PortRef} {i : Nat} {s : State} (hP : portPart p0 = P) (h_s : OtherSame P s₀ s) :
    OtherSame P s₀ (portEvt p0 i s) := by
  unfold portEvt
  apply onBaseOf_apart
  · with_reducible assumption
  · with_reducible assumption

theorem setLinkState_apart {p0 : PortRef} {st : LinkState} {s : State} (hP : portPart p0 = P) (h_s : OtherSame P s₀ s) :
    OtherSame P s₀ (setLinkState p0 st s) := by
  unfold setLinkState
  extract_lets v30 v31
  apply iteState_apart
  · with_reducible assumption
  · apply portEvt_apart
    · with_reducible assumption
    · apply setPort_apart
      · with_reducible assumption
      · with_reducible assumption

theorem linkDown_apart {p0 : PortRef} {s : State} (hP : portPart p0 = P) (h_s : OtherSame P s₀ s) :
    OtherSame P s₀ (linkDown p0 s) := by
  unfold linkDown
  apply setLinkState_apart
  · with_reducible assumption
  · apply onPort_apart
    · with_reducible assumption
    · with_reducible assumption

theorem linkTrain_apart {p0 : PortRef} {s : State} (hP : portPart p0 = P) (h_s : OtherSame P s₀ s) :
    OtherSame P s₀ (linkTrain p0 s) := by
  unfold linkTrain
  apply setLinkState_apart
  · with_reducible assumption
  · apply onPort_apart
    · with_reducible assumption
    · with_reducible assumption

theorem testDown_apart {p0 : PortRef} {s : State} (hP : portPart p0 = P) (h_s : OtherSame P s₀ s) :
    OtherSame P s₀ (testDown p0 s) := by
  unfold testDown
  extract_lets v32 v33 v34
  apply iteState_apart
  · apply linkTrain_apart
    · with_reducible assumption
    · apply setPort_apart
      · with_reducible assumption
      · with_reducible assumption
  · with_reducible assumption

theorem traceRx_apart {p0 : PortRef} {lane : Bool} {fs : List Frame} {s : State} (hP : portPart p0 = P) (h_s : OtherSame P s₀ s) :
    OtherSame P s₀ (traceRx p0 lane fs s) := by
  unfold traceRx
  split
  · apply foldState_apart
    · intro z35 z36 h37
      apply onUnit_apart
      · exact hP.symm
      · with_reducible assumption
    · with_reducible assumption
  · with_reducible assumption

theorem noteTrig_apart {p0 : PortRef} {s : State} (hP : portPart p0 = P) (h_s : OtherSame P s₀ s) :
    OtherSame P s₀ (noteTrig p0 s) := by
  unfold noteTrig
  split
  · with_reducible assumption
  · extract_lets v38
    apply mkDist_apart
    · exact hP.symm
    · with_reducible assumption

theorem seqTest_apart {p0 : PortRef} {lane : Bool} {seq : BitVec 8} {s : State} (hP : portPart p0 = P) (h_s : OtherSame P s₀ s) :
    OtherSame P s₀ (seqTest p0 lane seq s).2 := by
  unfold seqTest
  extract_lets v40 v41
  have h42 : OtherSame P s₀ v41 := by
    apply onPort_apart
    · with_reducible assumption
    · with_reducible assumption
  clear_value v41
  split
  · dsimp only
    apply noteTrig_apart
    · with_reducible assumption
    · apply onPort_apart
      · with_reducible assumption
      · with_reducible assumption
  · split
    · dsimp only
      apply sendAck_apart
      · with_reducible assumption
      · with_reducible assumption
    · dsimp only
      apply sendNak_apart
      · with_reducible assumption
      · with_reducible assumption

theorem rxFrame_apart {rx : Rx} {ok : Bool} {c : Nat} {hdr : Bool} {f : Frame} {s : State} (hP : portPart rx.port = P) (h_s : OtherSame P s₀ s) :
    OtherSame P s₀ (rxFrame rx ok c hdr f s) := by
  unfold rxFrame
  extract_lets v43
  have h44 : OtherSame P s₀ v43.2 := by
    apply seqTest_apart
    · with_reducible assumption
    · apply traceRx_apart
      · with_reducible assumption
      · with_reducible assumption
  clear_value v43
  apply iteState_apart
  · apply onPort_apart
    · with_reducible assumption
    · with_reducible assumption
  · with_reducible assumption

theorem rxFrames_apart {rx : Rx} {ok : Bool} {c : Nat} {hdr : Bool} {seq : BitVec 8} {l : List (BitVec 6 × BitVec 64)} {s : State}
    (hP : portPart rx.port = P) (h_s : OtherSame P s₀ s) : OtherSame P s₀ (rxFrames rx ok c hdr seq l s) := by
  induction l generalizing hdr seq s with
  | nil => exact h_s
  | cons x l ih =>
    obtain ⟨t, b⟩ := x
    exact ih (rxFrame_apart hP h_s)

theorem rxSeq_apart {rx : Rx} {ok : Bool} {fs : List (BitVec 6 × BitVec 64)} {s : State} (hP : portPart rx.port = P) (h_s : OtherSame P s₀ s) :
    OtherSame P s₀ (rxSeq rx ok fs s).2 := by
  unfold rxSeq
  extract_lets v45 v46
  have h47 : OtherSame P s₀ v46 := by
    dsimp only [v46]
    split
    · apply rxFrames_apart
      · with_reducible assumption
      · with_reducible assumption
    · apply rxFrames_apart
      · with_reducible assumption
      · with_reducible assumption
  clear_value v46
  split
  · split
    · dsimp only
      apply onPort_apart
      · with_reducible assumption
      · with_reducible assumption
    · with_reducible assumption
  · with_reducible assumption

theorem rxUns_apart {rx : RxU} {ok : Bool} {typ : BitVec 6} {body : BitVec 64} {s : State} (hP : portPart rx.port = P) (h_s : OtherSame P s₀ s) :
    OtherSame P s₀ (rxUns rx ok typ body s).2 := by
  unfold rxUns
  extract_lets v48 v49
  have h50 : OtherSame P s₀ v48 := by
    apply traceRx_apart
    · with_reducible assumption
    · with_reducible assumption
  clear_value v48
  have h51 : OtherSame P s₀ v49 := by
    apply onPort_apart
    · with_reducible assumption
    · with_reducible assumption
  clear_value v49
  split
  · split
    · with_reducible assumption
    · dsimp only
      apply onPort_apart
      · with_reducible assumption
      · with_reducible assumption
  · with_reducible assumption

theorem replayAll_apart {p0 : PortRef} {s : State} (hP : portPart p0 = P) (h_s : OtherSame P s₀ s) :
    OtherSame P s₀ (replayAll p0 s) := by
  unfold replayAll
  extract_lets v52
  apply iteState_apart
  · with_reducible assumption
  · apply scorePort_apart
    · with_reducible assumption
    · apply onPort_apart
      · with_reducible assumption
      · with_reducible assumption

theorem startReplay_apart {p0 : PortRef} {s : State} (hP : portPart p0 = P) (h_s : OtherSame P s₀ s) :
    OtherSame P s₀ (startReplay p0 s) := by
  unfold startReplay
  extract_lets v53 v54 v55
  have h56 : OtherSame P s₀ v53 := by
    apply replayAll_apart
    · with_reducible assumption
    · with_reducible assumption
  clear_value v53
  have h57 : OtherSame P s₀ v55 := by
    apply onPort_apart
    · with_reducible assumption
    · with_reducible assumption
  clear_value v55
  apply iteState_apart
  · with_reducible assumption
  · apply iteState_apart
    · apply onPort_apart
      · with_reducible assumption
      · with_reducible assumption
    · apply scorePort_apart
      · with_reducible assumption
      · apply portEvt_apart
        · with_reducible assumption
        · apply logPort_apart
          · with_reducible assumption
          · with_reducible assumption

end Sys2Proof.Machine
end

