-- ==== Sys2Proof/Laws/ApartEvents.lean ====
section
/-! SUPPORT. The operations of Machine/Events.lean act at one part and leave the other as it is. -/

namespace Sys2Proof.Machine

variable {P : Part} {s₀ : State}

theorem ifUnit_apart {f : State → State} {s : State}  (h_f : ∀  z, OtherSame P s₀ z → OtherSame P s₀ (f  z)) (h_s : OtherSame P s₀ s) :
    OtherSame P s₀ (ifUnit f s) := by
  unfold ifUnit
  apply iteState_apart
  · apply h_f
    with_reducible assumption
  · with_reducible assumption

theorem ifDist_apart {f : State → State} {s : State}  (h_f : ∀  z, OtherSame P s₀ z → OtherSame P s₀ (f  z)) (h_s : OtherSame P s₀ s) :
    OtherSame P s₀ (ifDist f s) := by
  unfold ifDist
  apply iteState_apart
  · apply h_f
    with_reducible assumption
  · with_reducible assumption

theorem ifPart_apart {p0 : Part} {f : State → State} {s : State} (hP : p0 = P) (h_f : ∀  z, OtherSame P s₀ z → OtherSame P s₀ (f  z)) (h_s : OtherSame P s₀ s) :
    OtherSame P s₀ (ifPart p0 f s) := by
  unfold ifPart
  apply iteState_apart
  · apply h_f
    with_reducible assumption
  · with_reducible assumption

theorem ifUnitRuns_apart {f : State → State} {s : State}  (h_f : ∀  z, OtherSame P s₀ z → OtherSame P s₀ (f  z)) (h_s : OtherSame P s₀ s) :
    OtherSame P s₀ (ifUnitRuns f s) := by
  unfold ifUnitRuns
  apply iteState_apart
  · apply h_f
    with_reducible assumption
  · with_reducible assumption

theorem ifDistRuns_apart {f : State → State} {s : State}  (h_f : ∀  z, OtherSame P s₀ z → OtherSame P s₀ (f  z)) (h_s : OtherSame P s₀ s) :
    OtherSame P s₀ (ifDistRuns f s) := by
  unfold ifDistRuns
  apply iteState_apart
  · apply h_f
    with_reducible assumption
  · with_reducible assumption

theorem answer_apart {part : Part} {ch : BitVec 3} {v : Word} {s : State} (hP : part = P) (h_s : OtherSame P s₀ s) :
    OtherSame P s₀ (answer part ch v s) := by
  unfold answer
  apply onPartBase_apart
  · with_reducible assumption
  · with_reducible assumption

theorem logUnrouted_apart {s : State} (hP : P = .unit) (h_s : OtherSame P s₀ s) :
    OtherSame P s₀ (logUnrouted s) := by
  unfold logUnrouted
  apply foldState_apart
  · intro z0 z1 h2
    extract_lets v3 v4 v5
    apply iteState_apart
    · apply onUnit_apart
      · with_reducible assumption
      · apply logU_apart
        · with_reducible assumption
        · with_reducible assumption
    · apply iteState_apart
      · apply onUnit_apart
        · with_reducible assumption
        · with_reducible assumption
      · with_reducible assumption
  · with_reducible assumption

theorem claim_apart {k : Nat} {s : State} (hP : P = .unit) (h_s : OtherSame P s₀ s) :
    OtherSame P s₀ (claim k s).2 := by
  unfold claim
  extract_lets v8
  split
  · with_reducible assumption
  · split
    · with_reducible assumption
    · extract_lets v11 v12 v13 v14 v15 v16 v17
      split
      · dsimp only
        apply logU_apart
        · with_reducible assumption
        · with_reducible assumption
      · dsimp only
        apply onUnit_apart
        · with_reducible assumption
        · with_reducible assumption

theorem eoi_apart {k : Nat} {n : Nat} {s : State} (hP : P = .unit) (h_s : OtherSame P s₀ s) :
    OtherSame P s₀ (eoi k n s) := by
  unfold eoi
  extract_lets v22
  split
  · apply iteState_apart
    · apply onUnit_apart
      · with_reducible assumption
      · with_reducible assumption
    · apply logU_apart
      · with_reducible assumption
      · with_reducible assumption
  · apply logU_apart
    · with_reducible assumption
    · with_reducible assumption

theorem lostSet_apart {part : Part} {n : Nat} {s : State} (hP : part = P) (h_s : OtherSame P s₀ s) :
    OtherSame P s₀ (lostSet part n s) := by
  unfold lostSet
  extract_lets v25 v26
  have h27 : OtherSame P s₀ v26 := by
    apply onPartBase_apart
    · with_reducible assumption
    · with_reducible assumption
  clear_value v26
  split
  · apply logU_apart
    · exact hP.symm
    · with_reducible assumption
  · apply logD_apart
    · exact hP.symm
    · with_reducible assumption

theorem pendClear1_apart {part : Part} {n : Nat} {s : State} (hP : part = P) (h_s : OtherSame P s₀ s) :
    OtherSame P s₀ (pendClear1 part n s) := by
  unfold pendClear1
  extract_lets v28 v29 v30
  have h33 : OtherSame P s₀ v30 := by
    apply onPartBase_apart
    · with_reducible assumption
    · with_reducible assumption
  clear_value v30
  apply iteState_apart
  · apply iteState_apart
    · apply lostSet_apart
      · with_reducible assumption
      · with_reducible assumption
    · with_reducible assumption
  · with_reducible assumption

theorem pendWriteOp_apart {part : Part} {w : Nat} {be : BitVec 4} {data : Word} {s : State} (hP : part = P) (h_s : OtherSame P s₀ s) :
    OtherSame P s₀ (pendWriteOp part w be data s) := by
  unfold pendWriteOp
  extract_lets v34 v35
  have h36 : OtherSame P s₀ v35 := by
    apply foldState_apart
    · intro z37 z38 h39
      apply iteState_apart
      · apply pendClear1_apart
        · with_reducible assumption
        · with_reducible assumption
      · with_reducible assumption
    · with_reducible assumption
  clear_value v35
  apply iteState_apart
  · apply onPartBase_apart
    · with_reducible assumption
    · with_reducible assumption
  · with_reducible assumption

theorem lanternWake_apart {s : State} (hP : P = .unit) (h_s : OtherSame P s₀ s) :
    OtherSame P s₀ (lanternWake s) := by
  unfold lanternWake
  extract_lets v40
  apply iteState_apart
  · split
    · extract_lets v43
      have h44 : OtherSame P s₀ v43 := by
        apply onUnit_apart
        · with_reducible assumption
        · with_reducible assumption
      clear_value v43
      apply logU_apart
      · with_reducible assumption
      · with_reducible assumption
    · with_reducible assumption
  · with_reducible assumption

theorem lanternEnterOp_apart {psleep : BitVec 8} {s : State} (hP : P = .unit) (h_s : OtherSame P s₀ s) :
    OtherSame P s₀ (lanternEnterOp psleep s) := by
  unfold lanternEnterOp
  extract_lets v45 v46
  have h47 : OtherSame P s₀ v45 := by
    apply onUnit_apart
    · with_reducible assumption
    · with_reducible assumption
  clear_value v45
  apply iteState_apart
  · apply lanternWake_apart
    · with_reducible assumption
    · apply onUnit_apart
      · with_reducible assumption
      · with_reducible assumption
  · with_reducible assumption

end Sys2Proof.Machine
end

