-- ==== Sys2Proof/Laws/ApartPresence.lean ====
section
/-! SUPPORT. The operations of Machine/Presence.lean act at one part and leave the other as it is. -/

namespace Sys2Proof.Machine

variable {P : Part} {s₀ : State}

theorem sendDown_apart {delay : Nat} {cls : Nat} {typ : BitVec 6} {hdr : BitVec 64} {payload : List (BitVec 64)} {s : State} (hP : P = .dist) (h_s : OtherSame P s₀ s) :
    OtherSame P s₀ (sendDown delay cls typ hdr payload s) := by
  unfold sendDown
  apply foldState_apart
  · intro z0 z1 h2
    apply sendSeq_apart
    · exact (portPart_distRef _).trans hP.symm
    · with_reducible assumption
  · with_reducible assumption

theorem distClose_apart {s : State} (hP : P = .dist) (h_s : OtherSame P s₀ s) :
    OtherSame P s₀ (distClose s) := by
  unfold distClose
  extract_lets v3
  have h4 : OtherSame P s₀ v3 := by
    apply onDist_apart
    · with_reducible assumption
    · with_reducible assumption
  clear_value v3
  apply logD_apart
  · with_reducible assumption
  · with_reducible assumption

theorem pressOp_apart {s : State} (hP : P = .dist) (h_s : OtherSame P s₀ s) :
    OtherSame P s₀ (pressOp s) := by
  unfold pressOp
  extract_lets v5 v6 v7 v8 v9 v10
  have h11 : OtherSame P s₀ v5 := by
    apply onDist_apart
    · with_reducible assumption
    · with_reducible assumption
  clear_value v5
  have h13 : OtherSame P s₀ v9 := by
    apply onDist_apart
    · with_reducible assumption
    · with_reducible assumption
  clear_value v9
  have h14 : OtherSame P s₀ v10 := by
    apply logD_apart
    · with_reducible assumption
    · with_reducible assumption
  clear_value v10
  apply iteState_apart
  · apply logD_apart
    · with_reducible assumption
    · with_reducible assumption
  · apply iteState_apart
    · apply logD_apart
      · with_reducible assumption
      · with_reducible assumption
    · apply sendDown_apart
      · with_reducible assumption
      · with_reducible assumption

theorem closeOp_apart {s : State} (hP : P = .dist) (h_s : OtherSame P s₀ s) :
    OtherSame P s₀ (closeOp s) := by
  unfold closeOp
  extract_lets v15 v16 v17
  have h18 : OtherSame P s₀ v17 := by
    apply distClose_apart
    · with_reducible assumption
    · apply onDist_apart
      · with_reducible assumption
      · with_reducible assumption
  clear_value v17
  apply iteState_apart
  · apply sendDown_apart
    · with_reducible assumption
    · with_reducible assumption
  · with_reducible assumption

theorem distPresence_apart {n : Nat} {expiry : BitVec 48} {window : Nat} {s : State} (hP : P = .dist) (h_s : OtherSame P s₀ s) :
    OtherSame P s₀ (distPresence n expiry window s) := by
  unfold distPresence
  extract_lets v19 v20 v21
  have h23 : OtherSame P s₀ v21 := by
    apply iteState_apart
    · apply iteState_apart
      · apply distClose_apart
        · with_reducible assumption
        · apply onDist_apart
          · with_reducible assumption
          · with_reducible assumption
      · apply onDist_apart
        · with_reducible assumption
        · with_reducible assumption
    · apply onDist_apart
      · with_reducible assumption
      · with_reducible assumption
  clear_value v21
  apply iteState_apart
  · apply sendDown_apart
    · with_reducible assumption
    · with_reducible assumption
  · with_reducible assumption

theorem unitPresence_apart {dm : Dom} {expiry : BitVec 48} {window : Nat} {s : State} (hP : P = .unit) (h_s : OtherSame P s₀ s) :
    OtherSame P s₀ (unitPresence dm expiry window s) := by
  unfold unitPresence
  extract_lets v24 v25 v26
  have h29 : OtherSame P s₀ v26 := by
    apply onUnit_apart
    · with_reducible assumption
    · with_reducible assumption
  clear_value v26
  apply iteState_apart
  · apply logU_apart
    · with_reducible assumption
    · with_reducible assumption
  · apply iteState_apart
    · apply iteState_apart
      · apply onUnit_apart
        · with_reducible assumption
        · with_reducible assumption
      · apply logU_apart
        · with_reducible assumption
        · with_reducible assumption
    · with_reducible assumption

theorem expireOp_apart {part : Part} {s : State} (hP : part = P) (h_s : OtherSame P s₀ s) :
    OtherSame P s₀ (expireOp part s) := by
  unfold expireOp
  extract_lets v30
  split
  · apply iteState_apart
    · split
      · apply onUnit_apart
        · exact hP.symm
        · with_reducible assumption
      · apply distClose_apart
        · exact hP.symm
        · with_reducible assumption
    · with_reducible assumption
  · with_reducible assumption

theorem lockOp_apart {part : Part} {low : Bool} {s : State} (hP : part = P) (h_s : OtherSame P s₀ s) :
    OtherSame P s₀ (lockOp part low s) := by
  unfold lockOp
  extract_lets v33
  have h34 : OtherSame P s₀ v33 := by
    apply iteState_apart
    · split
      · apply onUnit_apart
        · exact hP.symm
        · with_reducible assumption
      · apply closeOp_apart
        · exact hP.symm
        · with_reducible assumption
    · with_reducible assumption
  clear_value v33
  apply onPartBase_apart
  · with_reducible assumption
  · with_reducible assumption

theorem sealOp_apart {s : State} (hP : P = .dist) (h_s : OtherSame P s₀ s) :
    OtherSame P s₀ (sealOp s) := by
  unfold sealOp
  extract_lets v35
  have h36 : OtherSame P s₀ v35 := by
    apply onDist_apart
    · with_reducible assumption
    · with_reducible assumption
  clear_value v35
  apply iteState_apart
  · with_reducible assumption
  · apply logD_apart
    · with_reducible assumption
    · with_reducible assumption

end Sys2Proof.Machine
end

