-- ==== Sys2Proof/Laws/ApartRope.lean ====
section
/-! SUPPORT. The operations of Machine/Rope.lean act at one part and leave the other as it is. -/

namespace Sys2Proof.Machine

variable {P : Part} {s₀ : State}

theorem ropeSend_apart {delay : Nat} {kind : Nat} {gallery : Nat} {epochLo : Nat} {gseq : Nat} {payload : List (BitVec 64)} {s : State} (hP : P = .dist) (h_s : OtherSame P s₀ s) :
    OtherSame P s₀ (ropeSend delay kind gallery epochLo gseq payload s) := by
  unfold ropeSend
  extract_lets v0 v1 v2 v3 v4
  have h6 : OtherSame P s₀ v4 := by
    apply onDist_apart
    · with_reducible assumption
    · with_reducible assumption
  clear_value v4
  apply iteState_apart
  · apply sendSeq_apart
    · exact (portPart_distRef _).trans hP.symm
    · with_reducible assumption
  · with_reducible assumption

theorem ropeResend_apart {l : List RopeRec} {s : State} (hP : P = .dist) (h_s : OtherSame P s₀ s) :
    OtherSame P s₀ (ropeResend l s) := by
  unfold ropeResend
  apply foldState_apart
  · intro z7 z8 h9
    apply sendSeq_apart
    · exact (portPart_distRef _).trans hP.symm
    · with_reducible assumption
  · with_reducible assumption

theorem ropeSettle_apart {old : LinkPort} {s : State} (hP : P = .dist) (h_s : OtherSame P s₀ s) :
    OtherSame P s₀ (ropeSettle old s) := by
  unfold ropeSettle
  extract_lets v10 v11 v12 v13 v14
  have h16 : OtherSame P s₀ v13 := by
    apply onDist_apart
    · with_reducible assumption
    · with_reducible assumption
  clear_value v13
  have h17 : OtherSame P s₀ v14 := by
    apply onPort_apart
    · exact (portPart_distRef _).trans hP.symm
    · with_reducible assumption
  clear_value v14
  apply iteState_apart
  · apply ropeResend_apart
    · with_reducible assumption
    · with_reducible assumption
  · with_reducible assumption

theorem ropeAdmit_apart {wasUp : Bool} {s : State} (hP : P = .dist) (h_s : OtherSame P s₀ s) :
    OtherSame P s₀ (ropeAdmit wasUp s) := by
  unfold ropeAdmit
  extract_lets v18
  have h19 : OtherSame P s₀ v18 := by
    apply onDist_apart
    · with_reducible assumption
    · with_reducible assumption
  clear_value v18
  apply iteState_apart
  · apply ropeSettle_apart
    · with_reducible assumption
    · with_reducible assumption
  · apply onDist_apart
    · with_reducible assumption
    · with_reducible assumption

theorem ropeLeave_apart {old : LinkPort} {s : State} (hP : P = .dist) (h_s : OtherSame P s₀ s) :
    OtherSame P s₀ (ropeLeave old s) := by
  unfold ropeLeave
  apply iteState_apart
  · apply ropeSettle_apart
    · with_reducible assumption
    · with_reducible assumption
  · apply onDist_apart
    · with_reducible assumption
    · with_reducible assumption

/-- No frame is accepted where its type is not permitted. -/
theorem rxSeq_fst_ok {rx : Rx} {ok : Bool} {fs : List (BitVec 6 × BitVec 64)} {s : State} (h : (rxSeq rx ok fs s).1 = true) :
    ok = true := by
  unfold rxSeq at h
  split at h
  · extract_lets v1 v2 at h
    split at h
    · rename_i hn
      rw [Bool.and_eq_true] at hn
      exact hn.1
    · cases h
  · cases h

/-- A ROPE record is accepted at a distributor's Rope port only. -/
theorem rxRope_fst_part {rx : Rx} {rseq : BitVec 16} {hdr : BitVec 64} {payload : List (BitVec 64)} {s : State}
    (h : (rxRope rx rseq hdr payload s).1 = true) : portPart rx.port = .dist := by
  unfold rxRope at h
  extract_lets r at h
  split at h
  · rename_i hc
    rw [Bool.and_eq_true, Bool.and_eq_true] at hc
    have hp := rxSeq_fst_ok hc.1.1
    revert hp
    cases rx.port with
    | unit d => intro hp; cases hp
    | dist n => intro _; rfl
  · cases h

theorem rxRope_apart {rx : Rx} {rseq : BitVec 16} {hdr : BitVec 64} {payload : List (BitVec 64)} {s : State}
    (hP : portPart rx.port = P) (h_s : OtherSame P s₀ s) : OtherSame P s₀ (rxRope rx rseq hdr payload s).2 := by
  have hr : OtherSame P s₀ (rxSeq rx (permRope rx.port) ((0x13, hdr) :: payload.map fun b => (0x33, b)) s).2 :=
    rxSeq_apart hP h_s
  unfold rxRope
  extract_lets r
  split
  · rename_i hc
    refine onDist_apart ?_ hr
    rw [← hP]
    rw [Bool.and_eq_true, Bool.and_eq_true] at hc
    have hp := rxSeq_fst_ok hc.1.1
    revert hp
    cases rx.port with
    | unit d => intro hp; cases hp
    | dist n => intro _; rfl
  · exact hr

end Sys2Proof.Machine
end

