-- ==== Sys2Proof/Laws/ApartServo.lean ====
section
/-! SUPPORT. The operations of Machine/Servo.lean act at one part and leave the other as it is. -/

namespace Sys2Proof.Machine

variable {P : Part} {s₀ : State}

theorem onServo_apart {p0 : Part} {f : Servo → Servo} {s : State} (hP : p0 = P) (h_s : OtherSame P s₀ s) :
    OtherSame P s₀ (onServo p0 f s) := by
  unfold onServo
  split
  · extract_lets v0
    apply mkUnit_apart
    · exact hP.symm
    · with_reducible assumption
  · extract_lets v2
    apply mkDist_apart
    · exact hP.symm
    · with_reducible assumption

theorem setSts_apart {p0 : Part} {i : Nat} {v : Bool} {s : State} (hP : p0 = P) (h_s : OtherSame P s₀ s) :
    OtherSame P s₀ (setSts p0 i v s) := by
  unfold setSts
  apply onPartBase_apart
  · with_reducible assumption
  · with_reducible assumption

theorem logS_apart {p0 : Part} {hu : Hap} {hd : Hap} {port : Nat} {obj : Nat} {aux : Nat} {s : State} (hP : p0 = P) (h_s : OtherSame P s₀ s) :
    OtherSame P s₀ (logS p0 hu hd port obj aux s) := by
  unfold logS
  split
  · apply logU_apart
    · exact hP.symm
    · with_reducible assumption
  · apply logD_apart
    · exact hP.symm
    · with_reducible assumption

theorem srvEvt_apart {p0 : Part} {i : Nat} {s : State} (hP : p0 = P) (h_s : OtherSame P s₀ s) :
    OtherSame P s₀ (srvEvt p0 i s) := by
  unfold srvEvt
  apply onPartBase_apart
  · with_reducible assumption
  · with_reducible assumption

theorem applyWord_apart {p0 : Part} {w : Int} {s : State} (hP : p0 = P) (h_s : OtherSame P s₀ s) :
    OtherSame P s₀ (applyWord p0 w s) := by
  unfold applyWord
  extract_lets v4 v5 v6 v7
  have h8 : OtherSame P s₀ v6 := by
    apply onPartBase_apart
    · with_reducible assumption
    · with_reducible assumption
  clear_value v6
  have h9 : OtherSame P s₀ v7 := by
    apply onServo_apart
    · with_reducible assumption
    · with_reducible assumption
  clear_value v7
  apply iteState_apart
  · apply logS_apart
    · with_reducible assumption
    · with_reducible assumption
  · with_reducible assumption

theorem loopBw_apart {p0 : Part} {src : Bool} {s : State} (hP : p0 = P) (h_s : OtherSame P s₀ s) :
    OtherSame P s₀ (loopBw p0 src s).2 := by
  unfold loopBw
  extract_lets v10 v11 v12 v13
  have h14 : OtherSame P s₀ v13 := by
    apply onPartBase_apart
    · with_reducible assumption
    · with_reducible assumption
  clear_value v13
  with_reducible assumption

theorem setLock_apart {p0 : Part} {v : Bool} {s : State} (hP : p0 = P) (h_s : OtherSame P s₀ s) :
    OtherSame P s₀ (setLock p0 v s) := by
  unfold setLock
  apply iteState_apart
  · with_reducible assumption
  · apply srvEvt_apart
    · with_reducible assumption
    · apply setSts_apart
      · with_reducible assumption
      · with_reducible assumption

theorem leaveHoldover_apart {p0 : Part} {s : State} (hP : p0 = P) (h_s : OtherSame P s₀ s) :
    OtherSame P s₀ (leaveHoldover p0 s) := by
  unfold leaveHoldover
  extract_lets v15 v16 v17 v18 v19
  have h20 : OtherSame P s₀ v17 := by
    apply setSts_apart
    · with_reducible assumption
    · apply onPartBase_apart
      · with_reducible assumption
      · with_reducible assumption
  clear_value v17
  have h21 : OtherSame P s₀ v19 := by
    apply logS_apart
    · with_reducible assumption
    · apply srvEvt_apart
      · with_reducible assumption
      · with_reducible assumption
  clear_value v19
  apply iteState_apart
  · apply onServo_apart
    · with_reducible assumption
    · with_reducible assumption
  · with_reducible assumption

theorem unmute_apart {s : State} (hP : P = .dist) (h_s : OtherSame P s₀ s) :
    OtherSame P s₀ (unmute s) := by
  unfold unmute
  extract_lets v22 v23
  have h24 : OtherSame P s₀ v22 := by
    apply onDist_apart
    · with_reducible assumption
    · with_reducible assumption
  clear_value v22
  have h25 : OtherSame P s₀ v23 := by
    apply logD_apart
    · with_reducible assumption
    · with_reducible assumption
  clear_value v23
  apply iteState_apart
  · apply iteState_apart
    · apply sendReport_apart
      · exact (portPart_distRef _).trans hP.symm
      · with_reducible assumption
    · with_reducible assumption
  · with_reducible assumption

theorem judgeLock_apart {p0 : Part} {e : Int} {s : State} (hP : p0 = P) (h_s : OtherSame P s₀ s) :
    OtherSame P s₀ (judgeLock p0 e s) := by
  unfold judgeLock
  extract_lets v26 v27 v28 v29 v30 v31 v32 v33 v34
  have h35 : OtherSame P s₀ v29 := by
    apply onServo_apart
    · with_reducible assumption
    · with_reducible assumption
  clear_value v29
  have h36 : OtherSame P s₀ v30 := by
    apply setLock_apart
    · with_reducible assumption
    · with_reducible assumption
  clear_value v30
  have h37 : OtherSame P s₀ v31 := by
    apply onServo_apart
    · with_reducible assumption
    · with_reducible assumption
  clear_value v31
  have h38 : OtherSame P s₀ v33 := by
    apply onServo_apart
    · with_reducible assumption
    · with_reducible assumption
  clear_value v33
  have h39 : OtherSame P s₀ v34 := by
    apply leaveHoldover_apart
    · with_reducible assumption
    · apply setLock_apart
      · with_reducible assumption
      · apply onServo_apart
        · with_reducible assumption
        · with_reducible assumption
  clear_value v34
  apply iteState_apart
  · apply iteState_apart
    · apply logS_apart
      · with_reducible assumption
      · with_reducible assumption
    · with_reducible assumption
  · apply iteState_apart
    · split
      · with_reducible assumption
      · apply unmute_apart
        · exact hP.symm
        · with_reducible assumption
    · with_reducible assumption

theorem stopRebase_apart {p0 : Part} {s : State} (hP : p0 = P) (h_s : OtherSame P s₀ s) :
    OtherSame P s₀ (stopRebase p0 s) := by
  unfold stopRebase
  split
  · apply iteState_apart
    · apply srvEvt_apart
      · with_reducible assumption
      · apply setSts_apart
        · with_reducible assumption
        · with_reducible assumption
    · with_reducible assumption
  · with_reducible assumption

theorem holdWord_apart {p0 : Part} {s : State} (hP : p0 = P) (h_s : OtherSame P s₀ s) :
    OtherSame P s₀ (holdWord p0 s) := by
  unfold holdWord
  extract_lets v40 v41 v42 v43
  have h44 : OtherSame P s₀ v42 := by
    apply iteState_apart
    · apply logS_apart
      · with_reducible assumption
      · with_reducible assumption
    · with_reducible assumption
  clear_value v42
  have h45 : OtherSame P s₀ v43 := by
    apply iteState_apart
    · with_reducible assumption
    · apply applyWord_apart
      · with_reducible assumption
      · with_reducible assumption
  clear_value v43
  apply onServo_apart
  · with_reducible assumption
  · apply onPartBase_apart
    · with_reducible assumption
    · with_reducible assumption

theorem enterHoldover_apart {p0 : Part} {s : State} (hP : p0 = P) (h_s : OtherSame P s₀ s) :
    OtherSame P s₀ (enterHoldover p0 s) := by
  unfold enterHoldover
  extract_lets v46 v47
  have h48 : OtherSame P s₀ v46 := by
    apply setSts_apart
    · with_reducible assumption
    · apply stopRebase_apart
      · with_reducible assumption
      · apply holdWord_apart
        · with_reducible assumption
        · with_reducible assumption
  clear_value v46
  have h49 : OtherSame P s₀ v47 := by
    apply srvEvt_apart
    · with_reducible assumption
    · apply setSts_apart
      · with_reducible assumption
      · apply setLock_apart
        · with_reducible assumption
        · with_reducible assumption
  clear_value v47
  apply iteState_apart
  · with_reducible assumption
  · apply logS_apart
    · with_reducible assumption
    · with_reducible assumption

theorem failActive_apart {p0 : Part} {s : State} (hP : p0 = P) (h_s : OtherSame P s₀ s) :
    OtherSame P s₀ (failActive p0 s) := by
  unfold failActive
  extract_lets v50 v51 v52
  apply iteState_apart
  · with_reducible assumption
  · split
    · apply iteState_apart
      · with_reducible assumption
      · apply onServo_apart
        · with_reducible assumption
        · with_reducible assumption
    · apply iteState_apart
      · with_reducible assumption
      · apply iteState_apart
        · apply setSts_apart
          · with_reducible assumption
          · apply onServo_apart
            · with_reducible assumption
            · apply stopRebase_apart
              · with_reducible assumption
              · with_reducible assumption
        · apply enterHoldover_apart
          · with_reducible assumption
          · apply onServo_apart
            · with_reducible assumption
            · with_reducible assumption

theorem rejDrop_apart {p0 : Part} {src : Bool} {s : State} (hP : p0 = P) (h_s : OtherSame P s₀ s) :
    OtherSame P s₀ (rejDrop p0 src s) := by
  unfold rejDrop
  apply onServo_apart
  · with_reducible assumption
  · with_reducible assumption

theorem sourceFails_apart {p0 : Part} {src : Bool} {s : State} (hP : p0 = P) (h_s : OtherSame P s₀ s) :
    OtherSame P s₀ (sourceFails p0 src s) := by
  unfold sourceFails
  extract_lets v53 v54
  have h55 : OtherSame P s₀ v53 := by
    apply rejDrop_apart
    · with_reducible assumption
    · with_reducible assumption
  clear_value v53
  have h56 : OtherSame P s₀ v54 := by
    apply setSts_apart
    · with_reducible assumption
    · apply onServo_apart
      · with_reducible assumption
      · with_reducible assumption
  clear_value v54
  apply iteState_apart
  · apply iteState_apart
    · apply onServo_apart
      · with_reducible assumption
      · with_reducible assumption
    · with_reducible assumption
  · apply iteState_apart
    · apply failActive_apart
      · with_reducible assumption
      · with_reducible assumption
    · split
      · apply iteState_apart
        · apply enterHoldover_apart
          · with_reducible assumption
          · with_reducible assumption
        · apply logS_apart
          · with_reducible assumption
          · with_reducible assumption
      · with_reducible assumption

theorem commandSwitch_apart {p0 : Part} {s : State} (hP : p0 = P) (h_s : OtherSame P s₀ s) :
    OtherSame P s₀ (commandSwitch p0 s) := by
  unfold commandSwitch
  extract_lets v57 v58 v59
  apply iteState_apart
  · with_reducible assumption
  · apply iteState_apart
    · apply setSts_apart
      · with_reducible assumption
      · apply onServo_apart
        · with_reducible assumption
        · apply stopRebase_apart
          · with_reducible assumption
          · with_reducible assumption
    · apply logS_apart
      · with_reducible assumption
      · with_reducible assumption

theorem steer_apart {p0 : Part} {src : Bool} {e : Int} {s : State} (hP : p0 = P) (h_s : OtherSame P s₀ s) :
    OtherSame P s₀ (steer p0 src e s) := by
  unfold steer
  extract_lets v60 v61 v62 v63 v64 v65 v66 v67 v68 v69
  have h70 : OtherSame P s₀ v60.2 := by
    apply loopBw_apart
    · with_reducible assumption
    · with_reducible assumption
  clear_value v60
  have h71 : OtherSame P s₀ v61 := by
    apply onPartBase_apart
    · with_reducible assumption
    · with_reducible assumption
  clear_value v61
  apply iteState_apart
  · with_reducible assumption
  · apply applyWord_apart
    · with_reducible assumption
    · apply onServo_apart
      · with_reducible assumption
      · with_reducible assumption

theorem noteWord_apart {p0 : Part} {s : State} (hP : p0 = P) (h_s : OtherSame P s₀ s) :
    OtherSame P s₀ (noteWord p0 s) := by
  unfold noteWord
  extract_lets v72
  apply iteState_apart
  · apply onServo_apart
    · with_reducible assumption
    · with_reducible assumption
  · with_reducible assumption

theorem sample_apart {p0 : Part} {src : Bool} {theta : Int} {s : State} (hP : p0 = P) (h_s : OtherSame P s₀ s) :
    OtherSame P s₀ (sample p0 src theta s) := by
  unfold sample
  extract_lets v73 v74 v75 v76 v77 v78 v79 v80 v81 v82 v83
  have h86 : OtherSame P s₀ v75 := by
    apply onServo_apart
    · with_reducible assumption
    · with_reducible assumption
  clear_value v75
  have h87 : OtherSame P s₀ v78 := by
    apply onServo_apart
    · with_reducible assumption
    · apply onPartBase_apart
      · with_reducible assumption
      · with_reducible assumption
  clear_value v78
  have h88 : OtherSame P s₀ v79 := by
    apply logS_apart
    · with_reducible assumption
    · apply onServo_apart
      · with_reducible assumption
      · with_reducible assumption
  clear_value v79
  have h89 : OtherSame P s₀ v80 := by
    apply onServo_apart
    · with_reducible assumption
    · with_reducible assumption
  clear_value v80
  have h90 : OtherSame P s₀ v81 := by
    apply onPartBase_apart
    · with_reducible assumption
    · with_reducible assumption
  clear_value v81
  have h91 : OtherSame P s₀ v82 := by
    apply steer_apart
    · with_reducible assumption
    · with_reducible assumption
  clear_value v82
  have h92 : OtherSame P s₀ v83 := by
    apply onPort_apart
    · (rw [portPart_srcPort]; assumption)
    · with_reducible assumption
  clear_value v83
  apply iteState_apart
  · apply iteState_apart
    · apply sourceFails_apart
      · with_reducible assumption
      · with_reducible assumption
    · with_reducible assumption
  · apply judgeLock_apart
    · with_reducible assumption
    · apply noteWord_apart
      · with_reducible assumption
      · with_reducible assumption

theorem updateDiff_apart {p0 : Part} {s : State} (hP : p0 = P) (h_s : OtherSame P s₀ s) :
    OtherSame P s₀ (updateDiff p0 s) := by
  unfold updateDiff
  extract_lets v93 v94 v95 v96 v97 v98 v99 v100 v101 v102 v103
  have h104 : OtherSame P s₀ v101 := by
    apply onServo_apart
    · with_reducible assumption
    · with_reducible assumption
  clear_value v101
  have h105 : OtherSame P s₀ v102 := by
    apply onPartBase_apart
    · with_reducible assumption
    · with_reducible assumption
  clear_value v102
  have h106 : OtherSame P s₀ v103 := by
    apply iteState_apart
    · apply logS_apart
      · with_reducible assumption
      · with_reducible assumption
    · with_reducible assumption
  clear_value v103
  apply iteState_apart
  · apply iteState_apart
    · apply srvEvt_apart
      · with_reducible assumption
      · apply setSts_apart
        · with_reducible assumption
        · with_reducible assumption
    · with_reducible assumption
  · with_reducible assumption

theorem restartDiff_apart {p0 : Part} {s : State} (hP : p0 = P) (h_s : OtherSame P s₀ s) :
    OtherSame P s₀ (restartDiff p0 s) := by
  unfold restartDiff
  apply setSts_apart
  · with_reducible assumption
  · apply onServo_apart
    · with_reducible assumption
    · with_reducible assumption

theorem doHandover_apart {p0 : Part} {s : State} (hP : p0 = P) (h_s : OtherSame P s₀ s) :
    OtherSame P s₀ (doHandover p0 s) := by
  unfold doHandover
  split
  · extract_lets v107 v108 v109 v110 v111 v112 v113 v114 v115 v116 v117 v118
    have h121 : OtherSame P s₀ v112 := by
      apply onPartBase_apart
      · with_reducible assumption
      · with_reducible assumption
    clear_value v112
    have h122 : OtherSame P s₀ v113 := by
      apply setSts_apart
      · with_reducible assumption
      · apply setSts_apart
        · with_reducible assumption
        · apply stopRebase_apart
          · with_reducible assumption
          · with_reducible assumption
    clear_value v113
    have h123 : OtherSame P s₀ v114 := by
      apply onServo_apart
      · with_reducible assumption
      · with_reducible assumption
    clear_value v114
    have h124 : OtherSame P s₀ v115 := by
      dsimp only [v115]
      split
      · with_reducible assumption
      · apply onPort_apart
        · (rw [portPart_srcPort]; assumption)
        · with_reducible assumption
    clear_value v115
    have h125 : OtherSame P s₀ v116 := by
      apply srvEvt_apart
      · with_reducible assumption
      · apply onPartBase_apart
        · with_reducible assumption
        · with_reducible assumption
    clear_value v116
    have h126 : OtherSame P s₀ v118 := by
      dsimp only [v118]
      split
      · apply logU_apart
        · exact hP.symm
        · with_reducible assumption
      · apply logD_apart
        · exact hP.symm
        · with_reducible assumption
    clear_value v118
    apply iteState_apart
    · apply sample_apart
      · with_reducible assumption
      · with_reducible assumption
    · with_reducible assumption
  · with_reducible assumption

theorem handoverLate_apart {p0 : Part} {s : State} (hP : p0 = P) (h_s : OtherSame P s₀ s) :
    OtherSame P s₀ (handoverLate p0 s) := by
  unfold handoverLate
  split
  · extract_lets v127
    apply iteState_apart
    · apply enterHoldover_apart
      · with_reducible assumption
      · with_reducible assumption
    · with_reducible assumption
  · with_reducible assumption

theorem rejoin_apart {p0 : Part} {src : Bool} {theta : Int} {s : State} (hP : p0 = P) (h_s : OtherSame P s₀ s) :
    OtherSame P s₀ (rejoin p0 src theta s) := by
  unfold rejoin
  extract_lets v128 v129 v130 v131 v132 v133 v134 v135 v136
  have h137 : OtherSame P s₀ v132 := by
    apply onServo_apart
    · with_reducible assumption
    · with_reducible assumption
  clear_value v132
  have h138 : OtherSame P s₀ v135 := by
    apply setSts_apart
    · with_reducible assumption
    · with_reducible assumption
  clear_value v135
  have h139 : OtherSame P s₀ v136 := by
    apply onServo_apart
    · with_reducible assumption
    · with_reducible assumption
  clear_value v136
  apply iteState_apart
  · apply sample_apart
    · with_reducible assumption
    · with_reducible assumption
  · with_reducible assumption

theorem exchange_apart {p0 : Part} {src : Bool} {theta : Int} {s : State} (hP : p0 = P) (h_s : OtherSame P s₀ s) :
    OtherSame P s₀ (exchange p0 src theta s) := by
  unfold exchange
  extract_lets v140 v141
  have h142 : OtherSame P s₀ v140 := by
    apply onServo_apart
    · with_reducible assumption
    · with_reducible assumption
  clear_value v140
  have h143 : OtherSame P s₀ v141 := by
    apply updateDiff_apart
    · with_reducible assumption
    · with_reducible assumption
  clear_value v141
  apply iteState_apart
  · apply rejDrop_apart
    · with_reducible assumption
    · with_reducible assumption
  · apply iteState_apart
    · apply iteState_apart
      · apply iteState_apart
        · apply sample_apart
          · with_reducible assumption
          · with_reducible assumption
        · with_reducible assumption
      · apply rejoin_apart
        · with_reducible assumption
        · with_reducible assumption
    · split
      · apply iteState_apart
        · apply onServo_apart
          · with_reducible assumption
          · with_reducible assumption
        · apply iteState_apart
          · with_reducible assumption
          · apply iteState_apart
            · apply sample_apart
              · with_reducible assumption
              · with_reducible assumption
            · with_reducible assumption
      · apply iteState_apart
        · apply sample_apart
          · with_reducible assumption
          · with_reducible assumption
        · with_reducible assumption

theorem starved_apart {p0 : Part} {s : State} (hP : p0 = P) (h_s : OtherSame P s₀ s) :
    OtherSame P s₀ (starved p0 s) := by
  unfold starved
  extract_lets v144 v145 v146
  apply iteState_apart
  · apply sourceFails_apart
    · with_reducible assumption
    · with_reducible assumption
  · with_reducible assumption

theorem takeKept_apart {p0 : Part} {q0 : PortRef} {s : State} (hP : p0 = P) (h_s : OtherSame P s₀ s) :
    OtherSame P s₀ (takeKept p0 q0 s) := by
  unfold takeKept
  split
  · split
    extract_lets v147
    have h148 : OtherSame P s₀ v147 := by
      apply onPartBase_apart
      · with_reducible assumption
      · with_reducible assumption
    clear_value v147
    apply iteState_apart
    · split
      · with_reducible assumption
      · apply onDist_apart
        · exact hP.symm
        · with_reducible assumption
    · with_reducible assumption
  · with_reducible assumption

theorem loadCounter_apart {p0 : Part} {src : Bool} {ns48 : BitVec 48} {gen : BitVec 16} {frac : Nat} {s : State} (hP : p0 = P) (h_s : OtherSame P s₀ s) :
    OtherSame P s₀ (loadCounter p0 src ns48 gen frac s) := by
  unfold loadCounter
  extract_lets v149 v150 v151 v152 v153 v154 v155
  have h156 : OtherSame P s₀ v153 := by
    apply onPartBase_apart
    · with_reducible assumption
    · with_reducible assumption
  clear_value v153
  have h157 : OtherSame P s₀ v154 := by
    dsimp only [v154]
    split
    · apply onUnit_apart
      · exact hP.symm
      · with_reducible assumption
    · apply onDist_apart
      · exact hP.symm
      · with_reducible assumption
  clear_value v154
  have h158 : OtherSame P s₀ v155 := by
    apply setSts_apart
    · with_reducible assumption
    · apply onServo_apart
      · with_reducible assumption
      · with_reducible assumption
  clear_value v155
  apply takeKept_apart
  · with_reducible assumption
  · apply takeKept_apart
    · with_reducible assumption
    · with_reducible assumption

theorem setTck_apart {st : Nat} {s : State} (hP : P = .unit) (h_s : OtherSame P s₀ s) :
    OtherSame P s₀ (setTck st s) := by
  unfold setTck
  apply iteState_apart
  · with_reducible assumption
  · apply onUnit_apart
    · with_reducible assumption
    · with_reducible assumption

theorem chooseActive_apart {s : State} (hP : P = .unit) (h_s : OtherSame P s₀ s) :
    OtherSame P s₀ (chooseActive s) := by
  unfold chooseActive
  extract_lets v159 v160 v161
  apply setSts_apart
  · exact hP.symm
  · with_reducible assumption

theorem unitFsm_apart {s : State} (hP : P = .unit) (h_s : OtherSame P s₀ s) :
    OtherSame P s₀ (unitFsm s) := by
  unfold unitFsm
  extract_lets v162 v163 v164 v165 v166
  apply iteState_apart
  · with_reducible assumption
  · apply iteState_apart
    · apply iteState_apart
      · apply setTck_apart
        · with_reducible assumption
        · with_reducible assumption
      · with_reducible assumption
    · apply iteState_apart
      · apply setTck_apart
        · with_reducible assumption
        · with_reducible assumption
      · apply iteState_apart
        · apply setTck_apart
          · with_reducible assumption
          · with_reducible assumption
        · apply iteState_apart
          · apply iteState_apart
            · apply chooseActive_apart
              · with_reducible assumption
              · apply setTck_apart
                · with_reducible assumption
                · with_reducible assumption
            · with_reducible assumption
          · apply iteState_apart
            · apply iteState_apart
              · apply iteState_apart
                · apply chooseActive_apart
                  · with_reducible assumption
                  · with_reducible assumption
                · apply setTck_apart
                  · with_reducible assumption
                  · with_reducible assumption
              · with_reducible assumption
            · apply iteState_apart
              · apply setTck_apart
                · with_reducible assumption
                · apply setSts_apart
                  · exact hP.symm
                  · apply setSts_apart
                    · exact hP.symm
                    · apply setLock_apart
                      · exact hP.symm
                      · apply stopRebase_apart
                        · exact hP.symm
                        · apply holdWord_apart
                          · exact hP.symm
                          · with_reducible assumption
              · apply iteState_apart
                · apply setTck_apart
                  · with_reducible assumption
                  · with_reducible assumption
                · apply iteState_apart
                  · apply setTck_apart
                    · with_reducible assumption
                    · with_reducible assumption
                  · apply iteState_apart
                    · apply setTck_apart
                      · with_reducible assumption
                      · with_reducible assumption
                    · apply iteState_apart
                      · apply setTck_apart
                        · with_reducible assumption
                        · with_reducible assumption
                      · with_reducible assumption

theorem rebaseOp_apart {s : State} (hP : P = .unit) (h_s : OtherSame P s₀ s) :
    OtherSame P s₀ (rebaseOp s) := by
  unfold rebaseOp
  apply iteState_apart
  · with_reducible assumption
  · apply setSts_apart
    · exact hP.symm
    · apply onServo_apart
      · exact hP.symm
      · with_reducible assumption

theorem rebaseStepOp_apart {s : State} (hP : P = .unit) (h_s : OtherSame P s₀ s) :
    OtherSame P s₀ (rebaseStepOp s) := by
  unfold rebaseStepOp
  extract_lets v168 v169 v170 v171 v172
  have h173 : OtherSame P s₀ v172 := by
    apply onServo_apart
    · exact hP.symm
    · apply onUnit_apart
      · with_reducible assumption
      · with_reducible assumption
  clear_value v172
  apply iteState_apart
  · apply iteState_apart
    · apply logU_apart
      · with_reducible assumption
      · apply stopRebase_apart
        · exact hP.symm
        · with_reducible assumption
    · with_reducible assumption
  · with_reducible assumption

theorem modeWriteOp_apart {man : Bool} {s : State} (hP : P = .unit) (h_s : OtherSame P s₀ s) :
    OtherSame P s₀ (modeWriteOp man s) := by
  unfold modeWriteOp
  extract_lets v174 v175 v176
  have h177 : OtherSame P s₀ v175 := by
    apply onUnit_apart
    · with_reducible assumption
    · with_reducible assumption
  clear_value v175
  have h178 : OtherSame P s₀ v176 := by
    apply setSts_apart
    · exact hP.symm
    · with_reducible assumption
  clear_value v176
  apply iteState_apart
  · with_reducible assumption
  · apply iteState_apart
    · apply applyWord_apart
      · exact hP.symm
      · with_reducible assumption
    · apply onServo_apart
      · exact hP.symm
      · with_reducible assumption

theorem holdAgeOp_apart {s : State} (hP : P = .unit) (h_s : OtherSame P s₀ s) :
    OtherSame P s₀ (holdAgeOp s) := by
  unfold holdAgeOp
  apply iteState_apart
  · apply logU_apart
    · with_reducible assumption
    · apply onServo_apart
      · exact hP.symm
      · with_reducible assumption
  · with_reducible assumption

theorem acquireTimeoutOp_apart {s : State} (hP : P = .unit) (h_s : OtherSame P s₀ s) :
    OtherSame P s₀ (acquireTimeoutOp s) := by
  unfold acquireTimeoutOp
  extract_lets v179
  apply iteState_apart
  · apply logU_apart
    · with_reducible assumption
    · apply onUnit_apart
      · with_reducible assumption
      · with_reducible assumption
  · with_reducible assumption

end Sys2Proof.Machine
end

