-- ==== Sys2Proof/Laws/ApartSemaphore.lean ====
section
/-! SUPPORT. The operations of Machine/Semaphore.lean act at one part and leave the other as it is. -/

namespace Sys2Proof.Machine

variable {P : Part} {s₀ : State}

theorem dropStale_apart {r : Req} {s : State} (hP : P = .unit) (h_s : OtherSame P s₀ s) :
    OtherSame P s₀ (dropStale r s) := by
  unfold dropStale
  extract_lets v0
  have h1 : OtherSame P s₀ v0 := by
    apply onUnit_apart
    · with_reducible assumption
    · with_reducible assumption
  clear_value v0
  apply iteState_apart
  · with_reducible assumption
  · apply logU_apart
    · with_reducible assumption
    · apply onUnit_apart
      · with_reducible assumption
      · with_reducible assumption

theorem request_apart {r : Req} {op : Nat} {obj : Nat} {f : State → State} {s : State} (hP : P = .unit) (h_f : ∀  z, OtherSame P s₀ z → OtherSame P s₀ (f  z)) (h_s : OtherSame P s₀ s) :
    OtherSame P s₀ (request r op obj f s) := by
  unfold request
  apply iteState_apart
  · with_reducible assumption
  · apply iteState_apart
    · apply dropStale_apart
      · with_reducible assumption
      · with_reducible assumption
    · apply iteState_apart
      · apply h_f
        with_reducible assumption
      · apply onUnit_apart
        · with_reducible assumption
        · with_reducible assumption

theorem watchRefused_apart {obj : Nat} {s : State} (hP : P = .unit) (h_s : OtherSame P s₀ s) :
    OtherSame P s₀ (watchRefused obj s) := by
  unfold watchRefused
  apply iteState_apart
  · with_reducible assumption
  · apply logU_apart
    · with_reducible assumption
    · apply onUnit_apart
      · with_reducible assumption
      · with_reducible assumption

theorem sumpAdd_apart {n : Nat} {src : Nat} {remote : Bool} {lo : Bool} {excess : Nat} {s : State} (hP : P = .unit) (h_s : OtherSame P s₀ s) :
    OtherSame P s₀ (sumpAdd n src remote lo excess s) := by
  unfold sumpAdd
  extract_lets v2 v3 v4 v5
  have h7 : OtherSame P s₀ v5 := by
    apply onUnit_apart
    · with_reducible assumption
    · with_reducible assumption
  clear_value v5
  apply iteState_apart
  · apply onUnit_apart
    · with_reducible assumption
    · with_reducible assumption
  · apply iteState_apart
    · apply logU_apart
      · with_reducible assumption
      · apply onUnit_apart
        · with_reducible assumption
        · with_reducible assumption
    · with_reducible assumption

theorem semAddVal_apart {n : Nat} {a : Nat} {src : Nat} {remote : Bool} {mgmt : Bool} {s : State} (hP : P = .unit) (h_s : OtherSame P s₀ s) :
    OtherSame P s₀ (semAddVal n a src remote mgmt s) := by
  unfold semAddVal
  extract_lets v8 v9 v10 v11 v12 v13
  have h15 : OtherSame P s₀ v13 := by
    dsimp only [v13]
    apply mkUnit_apart
    · with_reducible assumption
    · with_reducible assumption
  clear_value v13
  apply iteState_apart
  · apply sumpAdd_apart
    · with_reducible assumption
    · with_reducible assumption
  · with_reducible assumption

theorem semSubVal_apart {n : Nat} {a : Nat} {src : Nat} {remote : Bool} {mgmt : Bool} {s : State} (hP : P = .unit) (h_s : OtherSame P s₀ s) :
    OtherSame P s₀ (semSubVal n a src remote mgmt s) := by
  unfold semSubVal
  extract_lets v16 v17 v18 v19 v20
  have h22 : OtherSame P s₀ v20 := by
    dsimp only [v20]
    apply mkUnit_apart
    · with_reducible assumption
    · with_reducible assumption
  clear_value v20
  apply iteState_apart
  · apply sumpAdd_apart
    · with_reducible assumption
    · with_reducible assumption
  · with_reducible assumption

theorem semSignal_apart {n : Nat} {a : Nat} {src : Nat} {remote : Bool} {mgmt : Bool} {s : State} (hP : P = .unit) (h_s : OtherSame P s₀ s) :
    OtherSame P s₀ (semSignal n a src remote mgmt s) := by
  unfold semSignal
  apply onUnit_apart
  · with_reducible assumption
  · apply semAddVal_apart
    · with_reducible assumption
    · with_reducible assumption

theorem onLiveSem_apart {r : Req} {op : Nat} {n : Nat} {f : State → State} {s : State} (hP : P = .unit) (h_f : ∀  z, OtherSame P s₀ z → OtherSame P s₀ (f  z)) (h_s : OtherSame P s₀ s) :
    OtherSame P s₀ (onLiveSem r op n f s) := by
  unfold onLiveSem
  apply iteState_apart
  · apply onUnit_apart
    · with_reducible assumption
    · with_reducible assumption
  · apply h_f
    with_reducible assumption

theorem semWaitOp_apart {r : Req} {take : Bool} {n : Nat} {tout : Nat} {cond : Nat} {s : State} (hP : P = .unit) (h_s : OtherSame P s₀ s) :
    OtherSame P s₀ (semWaitOp r take n tout cond s) := by
  unfold semWaitOp
  extract_lets v23 v24 v25
  apply iteState_apart
  · apply mkUnit_apart
    · with_reducible assumption
    · with_reducible assumption
  · apply iteState_apart
    · apply mkUnit_apart
      · with_reducible assumption
      · with_reducible assumption
    · apply iteState_apart
      · apply watchRefused_apart
        · with_reducible assumption
        · apply mkUnit_apart
          · with_reducible assumption
          · with_reducible assumption
      · apply mkUnit_apart
        · with_reducible assumption
        · with_reducible assumption

theorem memWaitOp_apart {r : Req} {addr : Nat} {n : Nat} {s : State} (hP : P = .unit) (h_s : OtherSame P s₀ s) :
    OtherSame P s₀ (memWaitOp r addr n s) := by
  unfold memWaitOp
  extract_lets v27 v28
  split
  · apply onUnit_apart
    · with_reducible assumption
    · with_reducible assumption
  · apply watchRefused_apart
    · with_reducible assumption
    · apply onUnit_apart
      · with_reducible assumption
      · with_reducible assumption

theorem logTimeout_apart {obj : Nat} {cls : Nat} {core : Nat} {s : State} (hP : P = .unit) (h_s : OtherSame P s₀ s) :
    OtherSame P s₀ (logTimeout obj cls core s) := by
  unfold logTimeout
  apply logU_apart
  · with_reducible assumption
  · apply onUnit_apart
    · with_reducible assumption
    · with_reducible assumption

theorem watchTimeoutOp_apart {cls : Nat} {obj : Nat} {core : Nat} {tag : Nat} {s : State} (hP : P = .unit) (h_s : OtherSame P s₀ s) :
    OtherSame P s₀ (watchTimeoutOp cls obj core tag s) := by
  unfold watchTimeoutOp
  apply iteState_apart
  · split
    · apply logTimeout_apart
      · with_reducible assumption
      · apply onUnit_apart
        · with_reducible assumption
        · with_reducible assumption
    · with_reducible assumption
  · apply iteState_apart
    · split
      · apply iteState_apart
        · apply logTimeout_apart
          · with_reducible assumption
          · apply onUnit_apart
            · with_reducible assumption
            · with_reducible assumption
        · with_reducible assumption
      · with_reducible assumption
    · with_reducible assumption

theorem cancelOp_apart {r : Req} {obj : Nat} {cls : Nat} {core : Nat} {tag : Nat} {s : State} (hP : P = .unit) (h_s : OtherSame P s₀ s) :
    OtherSame P s₀ (cancelOp r obj cls core tag s) := by
  unfold cancelOp
  extract_lets v30
  have h31 : OtherSame P s₀ v30 := by
    apply onUnit_apart
    · with_reducible assumption
    · with_reducible assumption
  clear_value v30
  apply iteState_apart
  · apply onUnit_apart
    · with_reducible assumption
    · with_reducible assumption
  · apply iteState_apart
    · split
      · apply onUnit_apart
        · with_reducible assumption
        · with_reducible assumption
      · with_reducible assumption
    · apply iteState_apart
      · split
        · apply iteState_apart
          · apply onUnit_apart
            · with_reducible assumption
            · with_reducible assumption
          · with_reducible assumption
        · with_reducible assumption
      · with_reducible assumption

theorem semCmd_apart {f : Nat → State → State} {s : State} (hP : P = .unit) (h_f : ∀ y0 z, OtherSame P s₀ z → OtherSame P s₀ (f y0 z)) (h_s : OtherSame P s₀ s) :
    OtherSame P s₀ (semCmd f s) := by
  unfold semCmd
  extract_lets v32 v33
  have h34 : OtherSame P s₀ v33 := by
    apply h_f
    with_reducible assumption
  clear_value v33
  apply iteState_apart
  · with_reducible assumption
  · apply iteState_apart
    · apply onUnit_apart
      · with_reducible assumption
      · with_reducible assumption
    · apply onUnit_apart
      · with_reducible assumption
      · with_reducible assumption

theorem semAddCmd_apart {s : State} (hP : P = .unit) (h_s : OtherSame P s₀ s) :
    OtherSame P s₀ (semAddCmd s) := by
  unfold semAddCmd
  apply semCmd_apart
  · with_reducible assumption
  · intro z35 z36 h37
    apply semSignal_apart
    · with_reducible assumption
    · with_reducible assumption
  · with_reducible assumption

theorem semSubCmd_apart {s : State} (hP : P = .unit) (h_s : OtherSame P s₀ s) :
    OtherSame P s₀ (semSubCmd s) := by
  unfold semSubCmd
  apply semCmd_apart
  · with_reducible assumption
  · intro z38 z39 h40
    apply semSubVal_apart
    · with_reducible assumption
    · with_reducible assumption
  · with_reducible assumption

theorem semSetCmd_apart {s : State} (hP : P = .unit) (h_s : OtherSame P s₀ s) :
    OtherSame P s₀ (semSetCmd s) := by
  unfold semSetCmd
  apply semCmd_apart
  · with_reducible assumption
  · intro z41 z42 h43
    apply onUnit_apart
    · with_reducible assumption
    · with_reducible assumption
  · with_reducible assumption

theorem semClrCmd_apart {s : State} (hP : P = .unit) (h_s : OtherSame P s₀ s) :
    OtherSame P s₀ (semClrCmd s) := by
  unfold semClrCmd
  apply semCmd_apart
  · with_reducible assumption
  · intro z44 z45 h46
    apply onUnit_apart
    · with_reducible assumption
    · with_reducible assumption
  · with_reducible assumption

theorem semViewCmd_apart {s : State} (hP : P = .unit) (h_s : OtherSame P s₀ s) :
    OtherSame P s₀ (semViewCmd s) := by
  unfold semViewCmd
  apply iteState_apart
  · with_reducible assumption
  · apply onUnit_apart
    · with_reducible assumption
    · with_reducible assumption

end Sys2Proof.Machine
end

