-- ==== Sys2Proof/Laws/ApartDie.lean ====
section
/-! SUPPORT. The operations of Machine/Die.lean act at one part and leave the other as it is. -/

namespace Sys2Proof.Machine

variable {P : Part} {s₀ : State}

theorem tapLock_apart {n : Nat} {ns : BitVec 64} {s : State} (hP : P = .unit) (h_s : OtherSame P s₀ s) :
    OtherSame P s₀ (tapLock n ns s) := by
  unfold tapLock
  extract_lets v0 v1
  have h2 : OtherSame P s₀ v1 := by
    apply onUnit_apart
    · with_reducible assumption
    · with_reducible assumption
  clear_value v1
  apply iteState_apart
  · apply logU_apart
    · with_reducible assumption
    · with_reducible assumption
  · with_reducible assumption

theorem tapSyncOp_apart {n : Nat} {ns : BitVec 64} {crc : BitVec 8} {s : State} (hP : P = .unit) (h_s : OtherSame P s₀ s) :
    OtherSame P s₀ (tapSyncOp n ns crc s) := by
  unfold tapSyncOp
  extract_lets v3 v4 v5 v6 v7 v8
  apply iteState_apart
  · with_reducible assumption
  · apply iteState_apart
    · apply iteState_apart
      · apply onUnit_apart
        · with_reducible assumption
        · with_reducible assumption
      · apply iteState_apart
        · apply logU_apart
          · with_reducible assumption
          · apply onUnit_apart
            · with_reducible assumption
            · with_reducible assumption
        · apply onUnit_apart
          · with_reducible assumption
          · with_reducible assumption
    · apply iteState_apart
      · with_reducible assumption
      · apply iteState_apart
        · apply onUnit_apart
          · with_reducible assumption
          · with_reducible assumption
        · split
          · apply iteState_apart
            · apply tapLock_apart
              · with_reducible assumption
              · with_reducible assumption
            · apply onUnit_apart
              · with_reducible assumption
              · with_reducible assumption
          · apply onUnit_apart
            · with_reducible assumption
            · with_reducible assumption

theorem tapDelayOp_apart {n : Nat} {loop : Nat} {s : State} (hP : P = .unit) (h_s : OtherSame P s₀ s) :
    OtherSame P s₀ (tapDelayOp n loop s) := by
  unfold tapDelayOp
  extract_lets v10 v11 v12 v13 v14 v15 v16 v17
  have h19 : OtherSame P s₀ v13 := by
    apply onUnit_apart
    · with_reducible assumption
    · with_reducible assumption
  clear_value v13
  have h20 : OtherSame P s₀ v14 := by
    apply onUnit_apart
    · with_reducible assumption
    · with_reducible assumption
  clear_value v14
  apply iteState_apart
  · with_reducible assumption
  · apply iteState_apart
    · apply iteState_apart
      · with_reducible assumption
      · apply logU_apart
        · with_reducible assumption
        · with_reducible assumption
    · apply onUnit_apart
      · with_reducible assumption
      · with_reducible assumption

theorem tapLostOp_apart {n : Nat} {s : State} (hP : P = .unit) (h_s : OtherSame P s₀ s) :
    OtherSame P s₀ (tapLostOp n s) := by
  unfold tapLostOp
  apply iteState_apart
  · apply logU_apart
    · with_reducible assumption
    · apply onUnit_apart
      · with_reducible assumption
      · with_reducible assumption
  · with_reducible assumption

theorem capEnter1_apart {r : CapRec} {s : State} (hP : P = .unit) (h_s : OtherSame P s₀ s) :
    OtherSame P s₀ (capEnter1 r s) := by
  unfold capEnter1
  extract_lets v21 v22 v23 v24 v25 v26 v27 v28
  have h30 : OtherSame P s₀ v27 := by
    apply onUnit_apart
    · with_reducible assumption
    · with_reducible assumption
  clear_value v27
  have h31 : OtherSame P s₀ v28 := by
    apply onUnit_apart
    · with_reducible assumption
    · with_reducible assumption
  clear_value v28
  apply iteState_apart
  · apply iteState_apart
    · with_reducible assumption
    · apply logU_apart
      · with_reducible assumption
      · apply onUnit_apart
        · with_reducible assumption
        · with_reducible assumption
  · apply onUnit_apart
    · with_reducible assumption
    · with_reducible assumption

theorem capEnterOp_apart {s : State} (hP : P = .unit) (h_s : OtherSame P s₀ s) :
    OtherSame P s₀ (capEnterOp s) := by
  unfold capEnterOp
  extract_lets v32 v33 v34
  have h35 : OtherSame P s₀ v34 := by
    apply onUnit_apart
    · with_reducible assumption
    · with_reducible assumption
  clear_value v34
  apply foldState_apart
  · intro z36 z37 h38
    apply capEnter1_apart
    · with_reducible assumption
    · with_reducible assumption
  · with_reducible assumption

theorem dripArmOp_apart {k : Nat} {s : State} (hP : P = .unit) (h_s : OtherSame P s₀ s) :
    OtherSame P s₀ (dripArmOp k s).2 := by
  unfold dripArmOp
  extract_lets v39 v40 v41 v42 v43 v44
  have h48 : OtherSame P s₀ v44 := by
    apply onUnit_apart
    · with_reducible assumption
    · with_reducible assumption
  clear_value v44
  split
  · with_reducible assumption
  · split
    · dsimp only
      apply mkUnit_apart
      · with_reducible assumption
      · with_reducible assumption
    · dsimp only
      apply logU_apart
      · with_reducible assumption
      · with_reducible assumption

theorem dripArmNow_apart {k : Nat} {s : State} (hP : P = .unit) (h_s : OtherSame P s₀ s) :
    OtherSame P s₀ (dripArmNow k s) := by
  unfold dripArmNow
  extract_lets v49
  have h50 : OtherSame P s₀ v49.2 := by
    apply dripArmOp_apart
    · with_reducible assumption
    · with_reducible assumption
  clear_value v49
  apply iteState_apart
  · apply onUnit_apart
    · with_reducible assumption
    · with_reducible assumption
  · with_reducible assumption

theorem dripRegArm_apart {k : Nat} {s : State} (hP : P = .unit) (h_s : OtherSame P s₀ s) :
    OtherSame P s₀ (dripRegArm k s) := by
  unfold dripRegArm
  extract_lets v51 v52
  split
  · apply iteState_apart
    · apply onUnit_apart
      · with_reducible assumption
      · with_reducible assumption
    · apply dripArmNow_apart
      · with_reducible assumption
      · with_reducible assumption
  · apply dripArmNow_apart
    · with_reducible assumption
    · with_reducible assumption

theorem dripPulseOp_apart {k : Nat} {s : State} (hP : P = .unit) (h_s : OtherSame P s₀ s) :
    OtherSame P s₀ (dripPulseOp k s) := by
  unfold dripPulseOp
  extract_lets v54 v55 v56 v57 v58
  have h60 : OtherSame P s₀ v58 := by
    apply onUnit_apart
    · with_reducible assumption
    · with_reducible assumption
  clear_value v58
  apply iteState_apart
  · with_reducible assumption
  · apply iteState_apart
    · apply iteState_apart
      · with_reducible assumption
      · apply logU_apart
        · with_reducible assumption
        · with_reducible assumption
    · apply onUnit_apart
      · with_reducible assumption
      · with_reducible assumption

theorem dripsReload_apart {s : State} (hP : P = .unit) (h_s : OtherSame P s₀ s) :
    OtherSame P s₀ (dripsReload s) := by
  unfold dripsReload
  apply foldState_apart
  · intro z61 z62 h63
    apply logU_apart
    · with_reducible assumption
    · apply onUnit_apart
      · with_reducible assumption
      · with_reducible assumption
  · with_reducible assumption

theorem dripsLimit_apart {s : State} (hP : P = .unit) (h_s : OtherSame P s₀ s) :
    OtherSame P s₀ (dripsLimit s) := by
  unfold dripsLimit
  apply foldState_apart
  · intro z64 z65 h66
    apply iteState_apart
    · apply logU_apart
      · with_reducible assumption
      · apply onUnit_apart
        · with_reducible assumption
        · with_reducible assumption
    · with_reducible assumption
  · with_reducible assumption

end Sys2Proof.Machine
end

