-- ==== Sys2Proof/Laws/ApartLaunch.lean ====
section
/-! SUPPORT. The operations of Machine/Launch.lean act at one part and leave the other as it is. -/

namespace Sys2Proof.Machine

variable {P : Part} {s₀ : State}

theorem sendArm_apart {p0 : PortRef} {delay : Nat} {phase : Nat} {refused : Bool} {a : Arm} {s : State} (hP : portPart p0 = P) (h_s : OtherSame P s₀ s) :
    OtherSame P s₀ (sendArm p0 delay phase refused a s) := by
  unfold sendArm
  apply sendSeq_apart
  · with_reducible assumption
  · with_reducible assumption

theorem sendAbort_apart {p0 : PortRef} {delay : Nat} {a : Abort} {s : State} (hP : portPart p0 = P) (h_s : OtherSame P s₀ s) :
    OtherSame P s₀ (sendAbort p0 delay a s) := by
  unfold sendAbort
  apply sendSeq_apart
  · with_reducible assumption
  · with_reducible assumption

theorem rxArm_apart {rx : Rx} {ok : Bool} {phase : Nat} {refused : Bool} {a : Arm} {s : State} (hP : portPart rx.port = P) (h_s : OtherSame P s₀ s) :
    OtherSame P s₀ (rxArm rx ok phase refused a s).2 := by
  unfold rxArm
  apply rxSeq_apart
  · with_reducible assumption
  · with_reducible assumption

theorem pushRec_apart {r : BitVec 64} {status : Nat} {s : State} (hP : P = .unit) (h_s : OtherSame P s₀ s) :
    OtherSame P s₀ (pushRec r status s) := by
  unfold pushRec
  extract_lets v0 v1
  have h3 : OtherSame P s₀ v1 := by
    apply onUnit_apart
    · with_reducible assumption
    · with_reducible assumption
  clear_value v1
  apply iteState_apart
  · apply iteState_apart
    · with_reducible assumption
    · apply logU_apart
      · with_reducible assumption
      · apply onUnit_apart
        · with_reducible assumption
        · with_reducible assumption
  · apply onUnit_apart
    · with_reducible assumption
    · with_reducible assumption

theorem origStart_apart {r : OrigReq} {s : State} (hP : P = .unit) (h_s : OtherSame P s₀ s) :
    OtherSame P s₀ (origStart r s).2 := by
  unfold origStart
  extract_lets v4 v5 v6 v7 v8 v9 v10
  have h11 : OtherSame P s₀ v5 := by
    apply onUnit_apart
    · with_reducible assumption
    · with_reducible assumption
  clear_value v5
  have h13 : OtherSame P s₀ v10 := by
    apply onUnit_apart
    · with_reducible assumption
    · with_reducible assumption
  clear_value v10
  split
  · dsimp only
    apply logU_apart
    · with_reducible assumption
    · with_reducible assumption
  · dsimp only
    apply sendArm_apart
    · exact hP.symm
    · with_reducible assumption

theorem lchStartMsg_apart {m : LchStart} {s : State} (hP : P = .unit) (h_s : OtherSame P s₀ s) :
    OtherSame P s₀ (lchStartMsg m s) := by
  unfold lchStartMsg
  extract_lets v14 v15
  have h16 : OtherSame P s₀ v15.2 := by
    apply origStart_apart
    · with_reducible assumption
    · with_reducible assumption
  clear_value v15
  apply onUnit_apart
  · with_reducible assumption
  · with_reducible assumption

theorem reqTimeoutOp_apart {g : Nat} {lid : Nat} {s : State} (hP : P = .unit) (h_s : OtherSame P s₀ s) :
    OtherSame P s₀ (reqTimeoutOp g lid s) := by
  unfold reqTimeoutOp
  split
  · apply iteState_apart
    · apply logU_apart
      · with_reducible assumption
      · apply onUnit_apart
        · with_reducible assumption
        · with_reducible assumption
    · with_reducible assumption
  · with_reducible assumption

theorem sendCensus_apart {a : Arm} {armed : Bool} {s : State} (hP : P = .unit) (h_s : OtherSame P s₀ s) :
    OtherSame P s₀ (sendCensus a armed s) := by
  unfold sendCensus
  extract_lets v17
  apply foldState_apart
  · intro z18 z19 h20
    apply iteState_apart
    · apply sendArm_apart
      · exact hP.symm
      · with_reducible assumption
    · with_reducible assumption
  · with_reducible assumption

theorem armOp_apart {a : Arm} {s : State} (hP : P = .unit) (h_s : OtherSame P s₀ s) :
    OtherSame P s₀ (armOp a s) := by
  unfold armOp
  extract_lets v21 v22 v23 v24 v25 v26 v27 v28 v29 v30
  have h32 : OtherSame P s₀ v29 := by
    apply sendCensus_apart
    · with_reducible assumption
    · with_reducible assumption
  clear_value v29
  have h33 : OtherSame P s₀ v30 := by
    apply logU_apart
    · with_reducible assumption
    · with_reducible assumption
  clear_value v30
  apply iteState_apart
  · apply sendCensus_apart
    · with_reducible assumption
    · apply onUnit_apart
      · with_reducible assumption
      · with_reducible assumption
  · apply pushRec_apart
    · with_reducible assumption
    · with_reducible assumption

theorem armBroadcastOp_apart {a : Arm} {s : State} (hP : P = .unit) (h_s : OtherSame P s₀ s) :
    OtherSame P s₀ (armBroadcastOp a s) := by
  unfold armBroadcastOp
  extract_lets v34 v35 v36 v37 v38 v39
  have h41 : OtherSame P s₀ v38 := by
    apply onUnit_apart
    · with_reducible assumption
    · with_reducible assumption
  clear_value v38
  have h42 : OtherSame P s₀ v39 := by
    dsimp only [v39]
    split
    · apply iteState_apart
      · apply onUnit_apart
        · with_reducible assumption
        · with_reducible assumption
      · with_reducible assumption
    · with_reducible assumption
  clear_value v39
  apply iteState_apart
  · with_reducible assumption
  · apply iteState_apart
    · apply armOp_apart
      · with_reducible assumption
      · with_reducible assumption
    · with_reducible assumption

theorem missOp_apart {i : Nat} {k : Slot} {reason : Nat} {s : State} (hP : P = .unit) (h_s : OtherSame P s₀ s) :
    OtherSame P s₀ (missOp i k reason s) := by
  unfold missOp
  extract_lets v43 v44 v45
  have h46 : OtherSame P s₀ v43 := by
    apply onUnit_apart
    · with_reducible assumption
    · with_reducible assumption
  clear_value v43
  have h47 : OtherSame P s₀ v44 := by
    apply iteState_apart
    · apply onUnit_apart
      · with_reducible assumption
      · with_reducible assumption
    · with_reducible assumption
  clear_value v44
  have h48 : OtherSame P s₀ v45 := by
    apply pushRec_apart
    · with_reducible assumption
    · with_reducible assumption
  clear_value v45
  apply logU_apart
  · with_reducible assumption
  · with_reducible assumption

theorem guardOp_apart {g : Nat} {lid : Nat} {s : State} (hP : P = .unit) (h_s : OtherSame P s₀ s) :
    OtherSame P s₀ (guardOp g lid s) := by
  unfold guardOp
  extract_lets v49
  have h50 : OtherSame P s₀ v49 := by
    dsimp only [v49]
    split
    · apply iteState_apart
      · apply onUnit_apart
        · with_reducible assumption
        · with_reducible assumption
      · with_reducible assumption
    · with_reducible assumption
  clear_value v49
  split
  · apply iteState_apart
    · apply missOp_apart
      · with_reducible assumption
      · with_reducible assumption
    · with_reducible assumption
  · with_reducible assumption

theorem lateGo_apart {g : Nat} {lid : Nat} {targetLo : Nat} {s : State} (hP : P = .unit) (h_s : OtherSame P s₀ s) :
    OtherSame P s₀ (lateGo g lid targetLo s) := by
  unfold lateGo
  split
  · apply sendReports_apart
    · with_reducible assumption
    · apply onUnit_apart
      · with_reducible assumption
      · with_reducible assumption
  · with_reducible assumption

theorem goOp_apart {d : Dom} {m : Go} {s : State} (hP : P = .unit) (h_s : OtherSame P s₀ s) :
    OtherSame P s₀ (goOp d m s) := by
  unfold goOp
  extract_lets v51 v52 v53 v54
  have h55 : OtherSame P s₀ v53 := by
    apply onUnit_apart
    · with_reducible assumption
    · with_reducible assumption
  clear_value v53
  have h56 : OtherSame P s₀ v54 := by
    apply onUnit_apart
    · with_reducible assumption
    · with_reducible assumption
  clear_value v54
  split
  · extract_lets v57
    split
    · with_reducible assumption
    · apply iteState_apart
      · with_reducible assumption
      · apply iteState_apart
        · apply lateGo_apart
          · with_reducible assumption
          · apply missOp_apart
            · with_reducible assumption
            · with_reducible assumption
        · apply onUnit_apart
          · with_reducible assumption
          · with_reducible assumption
    · apply iteState_apart
      · with_reducible assumption
      · with_reducible assumption
    · apply iteState_apart
      · with_reducible assumption
      · with_reducible assumption
  · apply lateGo_apart
    · with_reducible assumption
    · with_reducible assumption

theorem abortOp_apart {g : Nat} {lid : Nat} {reason : Nat} {s : State} (hP : P = .unit) (h_s : OtherSame P s₀ s) :
    OtherSame P s₀ (abortOp g lid reason s) := by
  unfold abortOp
  extract_lets v58
  have h59 : OtherSame P s₀ v58 := by
    apply onUnit_apart
    · with_reducible assumption
    · with_reducible assumption
  clear_value v58
  split
  · split
    · with_reducible assumption
    · apply missOp_apart
      · with_reducible assumption
      · with_reducible assumption
    · apply logU_apart
      · with_reducible assumption
      · apply onUnit_apart
        · with_reducible assumption
        · with_reducible assumption
    · apply logU_apart
      · with_reducible assumption
      · apply onUnit_apart
        · with_reducible assumption
        · with_reducible assumption
  · with_reducible assumption

theorem cancelLaunch_apart {g : Nat} {lid : Nat} {s : State} (hP : P = .unit) (h_s : OtherSame P s₀ s) :
    OtherSame P s₀ (cancelLaunch g lid s).2 := by
  unfold cancelLaunch
  split
  · extract_lets v60 v61
    have h62 : OtherSame P s₀ v61 := by
      apply foldState_apart
      · intro z63 z64 h65
        apply iteState_apart
        · apply sendAbort_apart
          · exact hP.symm
          · with_reducible assumption
        · with_reducible assumption
      · with_reducible assumption
    clear_value v61
    split
    · dsimp only
      apply onUnit_apart
      · with_reducible assumption
      · apply missOp_apart
        · with_reducible assumption
        · with_reducible assumption
    · with_reducible assumption
  · with_reducible assumption

theorem lchCancelMsg_apart {m : LchCancel} {s : State} (hP : P = .unit) (h_s : OtherSame P s₀ s) :
    OtherSame P s₀ (lchCancelMsg m s) := by
  unfold lchCancelMsg
  extract_lets v66
  have h67 : OtherSame P s₀ v66.2 := by
    apply cancelLaunch_apart
    · with_reducible assumption
    · with_reducible assumption
  clear_value v66
  apply onUnit_apart
  · with_reducible assumption
  · with_reducible assumption

theorem fireRegion_apart {n : Nat} {s : State} (hP : P = .unit) (h_s : OtherSame P s₀ s) :
    OtherSame P s₀ (fireRegion n s) := by
  unfold fireRegion
  extract_lets v68 v69 v70 v71 v72
  have h74 : OtherSame P s₀ v72 := by
    apply onUnit_apart
    · with_reducible assumption
    · with_reducible assumption
  clear_value v72
  apply iteState_apart
  · with_reducible assumption
  · apply iteState_apart
    · apply logU_apart
      · with_reducible assumption
      · with_reducible assumption
    · with_reducible assumption

theorem fireOp_apart {isLocal : Bool} {g : Nat} {lid : Nat} {target : Nat} {tol : Nat} {mask : BitVec 64} {domb : Bool} {s : State} (hP : P = .unit) (h_s : OtherSame P s₀ s) :
    OtherSame P s₀ (fireOp isLocal g lid target tol mask domb s) := by
  unfold fireOp
  extract_lets v75 v76 v77 v78 v79 v80 v81
  have h83 : OtherSame P s₀ v79 := by
    apply foldState_apart
    · intro z84 z85 h86
      apply fireRegion_apart
      · with_reducible assumption
      · with_reducible assumption
    · with_reducible assumption
  clear_value v79
  have h87 : OtherSame P s₀ v80 := by
    apply foldState_apart
    · intro z88 z89 h90
      apply logU_apart
      · with_reducible assumption
      · with_reducible assumption
    · with_reducible assumption
  clear_value v80
  apply onUnit_apart
  · with_reducible assumption
  · with_reducible assumption

theorem launchFireOp_apart {s : State} (hP : P = .unit) (h_s : OtherSame P s₀ s) :
    OtherSame P s₀ (launchFireOp s) := by
  unfold launchFireOp
  apply foldState_apart
  · intro z91 z92 h93
    extract_lets v94
    apply fireOp_apart
    · with_reducible assumption
    · apply onUnit_apart
      · with_reducible assumption
      · with_reducible assumption
  · with_reducible assumption

theorem finishFired_apart {f : Fired} {s : State} (hP : P = .unit) (h_s : OtherSame P s₀ s) :
    OtherSame P s₀ (finishFired f s) := by
  unfold finishFired
  extract_lets v95 v96 v97
  have h98 : OtherSame P s₀ v96 := by
    apply iteState_apart
    · with_reducible assumption
    · split
      · apply onUnit_apart
        · with_reducible assumption
        · with_reducible assumption
      · with_reducible assumption
  clear_value v96
  have h99 : OtherSame P s₀ v97 := by
    apply iteState_apart
    · apply logU_apart
      · with_reducible assumption
      · with_reducible assumption
    · apply iteState_apart
      · apply logU_apart
        · with_reducible assumption
        · with_reducible assumption
      · with_reducible assumption
  clear_value v97
  apply pushRec_apart
  · with_reducible assumption
  · with_reducible assumption

theorem settleFired_apart {f : UnitState → Fired → Fired × Bool} {s : State} (hP : P = .unit) (h_s : OtherSame P s₀ s) :
    OtherSame P s₀ (settleFired f s) := by
  unfold settleFired
  extract_lets v100 v101
  have h102 : OtherSame P s₀ v101 := by
    apply onUnit_apart
    · with_reducible assumption
    · with_reducible assumption
  clear_value v101
  apply foldState_apart
  · intro z103 z104 h105
    extract_lets v106
    apply iteState_apart
    · apply finishFired_apart
      · with_reducible assumption
      · with_reducible assumption
    · apply onUnit_apart
      · with_reducible assumption
      · with_reducible assumption
  · with_reducible assumption

theorem judgeOp_apart {s : State} (hP : P = .unit) (h_s : OtherSame P s₀ s) :
    OtherSame P s₀ (judgeOp s) := by
  unfold judgeOp
  apply settleFired_apart
  · with_reducible assumption
  · with_reducible assumption

theorem deadlineOp_apart {s : State} (hP : P = .unit) (h_s : OtherSame P s₀ s) :
    OtherSame P s₀ (deadlineOp s) := by
  unfold deadlineOp
  extract_lets v107 v108 v109
  have h110 : OtherSame P s₀ v109 := by
    apply onUnit_apart
    · with_reducible assumption
    · with_reducible assumption
  clear_value v109
  apply foldState_apart
  · intro z111 z112 h113
    apply logU_apart
    · with_reducible assumption
    · with_reducible assumption
  · with_reducible assumption

theorem resumeLaunches_apart {n : Nat} {s : State} (hP : P = .unit) (h_s : OtherSame P s₀ s) :
    OtherSame P s₀ (resumeLaunches n s) := by
  unfold resumeLaunches
  apply settleFired_apart
  · with_reducible assumption
  · with_reducible assumption

theorem unstopLaunches_apart {n : Nat} {s : State} (hP : P = .unit) (h_s : OtherSame P s₀ s) :
    OtherSame P s₀ (unstopLaunches n s) := by
  unfold unstopLaunches
  apply settleFired_apart
  · with_reducible assumption
  · with_reducible assumption

theorem regionEdgeOp_apart {n : Nat} {stopped : Bool} {s : State} (hP : P = .unit) (h_s : OtherSame P s₀ s) :
    OtherSame P s₀ (regionEdgeOp n stopped s) := by
  unfold regionEdgeOp
  extract_lets v114 v115 v116
  have h117 : OtherSame P s₀ v116 := by
    apply onUnit_apart
    · with_reducible assumption
    · with_reducible assumption
  clear_value v116
  apply iteState_apart
  · apply iteState_apart
    · apply unstopLaunches_apart
      · with_reducible assumption
      · with_reducible assumption
    · apply resumeLaunches_apart
      · with_reducible assumption
      · with_reducible assumption
  · with_reducible assumption

theorem launchReload_apart {s : State} (hP : P = .unit) (h_s : OtherSame P s₀ s) :
    OtherSame P s₀ (launchReload s) := by
  unfold launchReload
  extract_lets v118 v119 v120 v121 v122
  have h123 : OtherSame P s₀ v121 := by
    apply onUnit_apart
    · with_reducible assumption
    · with_reducible assumption
  clear_value v121
  have h124 : OtherSame P s₀ v122 := by
    apply foldState_apart
    · intro z125 z126 h127
      split
      · extract_lets v128 v129
        apply pushRec_apart
        · with_reducible assumption
        · apply onUnit_apart
          · with_reducible assumption
          · with_reducible assumption
      · with_reducible assumption
    · with_reducible assumption
  clear_value v122
  apply foldState_apart
  · intro z130 z131 h132
    apply pushRec_apart
    · with_reducible assumption
    · with_reducible assumption
  · with_reducible assumption

theorem insertOp_apart {i : Nat} {e : TtbEnt} {s : State} (hP : P = .unit) (h_s : OtherSame P s₀ s) :
    OtherSame P s₀ (insertOp i e s).2 := by
  unfold insertOp
  extract_lets v133 v134
  have h135 : OtherSame P s₀ v134 := by
    apply iteState_apart
    · apply onUnit_apart
      · with_reducible assumption
      · with_reducible assumption
    · with_reducible assumption
  clear_value v134
  split
  · dsimp only
    apply onUnit_apart
    · with_reducible assumption
    · with_reducible assumption
  · dsimp only
    apply logU_apart
    · with_reducible assumption
    · with_reducible assumption

theorem ttbInsertMsg_apart {m : TtbInsert} {s : State} (hP : P = .unit) (h_s : OtherSame P s₀ s) :
    OtherSame P s₀ (ttbInsertMsg m s) := by
  unfold ttbInsertMsg
  extract_lets v136 v137
  have h138 : OtherSame P s₀ v137.2 := by
    apply insertOp_apart
    · with_reducible assumption
    · with_reducible assumption
  clear_value v137
  apply onUnit_apart
  · with_reducible assumption
  · with_reducible assumption

theorem ttbDrip_apart {i : Nat} {k : Nat} {s : State} (hP : P = .unit) (h_s : OtherSame P s₀ s) :
    OtherSame P s₀ (ttbDrip i k s).2 := by
  unfold ttbDrip
  extract_lets v139
  have h140 : OtherSame P s₀ v139.2 := by
    apply dripArmOp_apart
    · with_reducible assumption
    · with_reducible assumption
  clear_value v139
  split
  · with_reducible assumption
  · split
    · dsimp only
      apply onUnit_apart
      · with_reducible assumption
      · with_reducible assumption
    · with_reducible assumption

theorem ttbAction_apart {i : Nat} {e : TtbEnt} {s : State} (hP : P = .unit) (h_s : OtherSame P s₀ s) :
    OtherSame P s₀ (ttbAction i e s).2 := by
  unfold ttbAction
  extract_lets v141 v142 v143 v144
  split
  · dsimp only
    apply fireOp_apart
    · with_reducible assumption
    · with_reducible assumption
  · split
    · apply ttbDrip_apart
      · with_reducible assumption
      · with_reducible assumption
    · split
      · dsimp only
        apply onUnit_apart
        · with_reducible assumption
        · with_reducible assumption
      · split
        · split
          · dsimp only
            apply onUnit_apart
            · with_reducible assumption
            · with_reducible assumption
          · with_reducible assumption
        · dsimp only
          apply iteState_apart
          · apply onUnit_apart
            · with_reducible assumption
            · with_reducible assumption
          · with_reducible assumption

theorem ttbAct1_apart {i : Nat} {e : TtbEnt} {s : State} (hP : P = .unit) (h_s : OtherSame P s₀ s) :
    OtherSame P s₀ (ttbAct1 i e s) := by
  unfold ttbAct1
  extract_lets v146 v147 v148 v149 v150 v151 v152 v153
  have h154 : OtherSame P s₀ v147.2 := by
    apply ttbAction_apart
    · with_reducible assumption
    · with_reducible assumption
  clear_value v147
  have h155 : OtherSame P s₀ v148 := by
    with_reducible assumption
  clear_value v148
  have h156 : OtherSame P s₀ v149 := by
    apply iteState_apart
    · apply onUnit_apart
      · with_reducible assumption
      · with_reducible assumption
    · with_reducible assumption
  clear_value v149
  have h157 : OtherSame P s₀ v150 := by
    apply onUnit_apart
    · with_reducible assumption
    · with_reducible assumption
  clear_value v150
  have h158 : OtherSame P s₀ v151 := by
    apply iteState_apart
    · apply logU_apart
      · with_reducible assumption
      · with_reducible assumption
    · with_reducible assumption
  clear_value v151
  apply onUnit_apart
  · with_reducible assumption
  · with_reducible assumption

theorem ttbActOp_apart {s : State} (hP : P = .unit) (h_s : OtherSame P s₀ s) :
    OtherSame P s₀ (ttbActOp s) := by
  unfold ttbActOp
  extract_lets v159
  apply foldState_apart
  · intro z160 z161 h162
    apply ttbAct1_apart
    · with_reducible assumption
    · with_reducible assumption
  · with_reducible assumption

end Sys2Proof.Machine
end

