-- ==== Sys2Proof/Laws/ApartBarrier.lean ====
section
/-! SUPPORT. The operations of Machine/Barrier.lean act at one part and leave the other as it is. -/

namespace Sys2Proof.Machine

variable {P : Part} {s₀ : State}

theorem flowFlag_apart {n : Nat} {bit : Nat} {h : Hap} {diff : Int} {s : State} (hP : P = .unit) (h_s : OtherSame P s₀ s) :
    OtherSame P s₀ (flowFlag n bit h diff s) := by
  unfold flowFlag
  extract_lets v0 v1 v2 v3
  have h4 : OtherSame P s₀ v1 := by
    apply onUnit_apart
    · with_reducible assumption
    · with_reducible assumption
  clear_value v1
  have h5 : OtherSame P s₀ v2 := by
    apply logU_apart
    · with_reducible assumption
    · with_reducible assumption
  clear_value v2
  have h6 : OtherSame P s₀ v3 := by
    apply iteState_apart
    · apply onUnit_apart
      · with_reducible assumption
      · with_reducible assumption
    · with_reducible assumption
  clear_value v3
  apply iteState_apart
  · with_reducible assumption
  · apply iteState_apart
    · apply onUnit_apart
      · with_reducible assumption
      · with_reducible assumption
    · with_reducible assumption

theorem flowCheck_apart {n : Nat} {s : State} (hP : P = .unit) (h_s : OtherSame P s₀ s) :
    OtherSame P s₀ (flowCheck n s) := by
  unfold flowCheck
  extract_lets v7 v8
  have h9 : OtherSame P s₀ v8 := by
    apply iteState_apart
    · apply flowFlag_apart
      · with_reducible assumption
      · with_reducible assumption
    · with_reducible assumption
  clear_value v8
  apply iteState_apart
  · apply flowFlag_apart
    · with_reducible assumption
    · with_reducible assumption
  · with_reducible assumption

theorem flowAdvance_apart {r : Req} {op : Nat} {prod : Bool} {n : Nat} {amount : Nat} {s : State} (hP : P = .unit) (h_s : OtherSame P s₀ s) :
    OtherSame P s₀ (flowAdvance r op prod n amount s) := by
  unfold flowAdvance
  extract_lets v10 v11 v12 v13
  have h15 : OtherSame P s₀ v13 := by
    apply onUnit_apart
    · with_reducible assumption
    · with_reducible assumption
  clear_value v13
  apply iteState_apart
  · apply onUnit_apart
    · with_reducible assumption
    · with_reducible assumption
  · apply iteState_apart
    · apply onUnit_apart
      · with_reducible assumption
      · with_reducible assumption
    · apply onUnit_apart
      · with_reducible assumption
      · apply flowCheck_apart
        · with_reducible assumption
        · with_reducible assumption

theorem flowAlign1_apart {b : Nat} {n : Nat} {s : State} (hP : P = .unit) (h_s : OtherSame P s₀ s) :
    OtherSame P s₀ (flowAlign1 b n s) := by
  unfold flowAlign1
  extract_lets v16 v17 v18 v19 v20 v21 v22
  have h24 : OtherSame P s₀ v21 := by
    apply onUnit_apart
    · with_reducible assumption
    · with_reducible assumption
  clear_value v21
  have h25 : OtherSame P s₀ v22 := by
    apply onUnit_apart
    · with_reducible assumption
    · with_reducible assumption
  clear_value v22
  apply iteState_apart
  · apply flowFlag_apart
    · with_reducible assumption
    · with_reducible assumption
  · with_reducible assumption

theorem flowAlign_apart {b : Nat} {s : State} (hP : P = .unit) (h_s : OtherSame P s₀ s) :
    OtherSame P s₀ (flowAlign b s) := by
  unfold flowAlign
  apply foldState_apart
  · intro z26 z27 h28
    apply flowAlign1_apart
    · with_reducible assumption
    · with_reducible assumption
  · with_reducible assumption

theorem completeRound_apart {b : Nat} {status : Nat} {lost : Bool} {s : State} (hP : P = .unit) (h_s : OtherSame P s₀ s) :
    OtherSame P s₀ (completeRound b status lost s) := by
  unfold completeRound
  extract_lets v29 v30 v31 v32 v33 v34
  have h35 : OtherSame P s₀ v31 := by
    apply onUnit_apart
    · with_reducible assumption
    · with_reducible assumption
  clear_value v31
  have h36 : OtherSame P s₀ v34 := by
    apply onUnit_apart
    · with_reducible assumption
    · with_reducible assumption
  clear_value v34
  apply iteState_apart
  · apply flowAlign_apart
    · with_reducible assumption
    · with_reducible assumption
  · with_reducible assumption

theorem hallSettle_apart {b : Nat} {cmbStatus : Nat} {s : State} (hP : P = .unit) (h_s : OtherSame P s₀ s) :
    OtherSame P s₀ (hallSettle b cmbStatus s) := by
  unfold hallSettle
  apply iteState_apart
  · apply iteState_apart
    · apply completeRound_apart
      · with_reducible assumption
      · with_reducible assumption
    · apply iteState_apart
      · apply logU_apart
        · with_reducible assumption
        · apply completeRound_apart
          · with_reducible assumption
          · with_reducible assumption
      · apply logU_apart
        · with_reducible assumption
        · apply completeRound_apart
          · with_reducible assumption
          · with_reducible assumption
  · with_reducible assumption

end Sys2Proof.Machine
end

