-- ==== Sys2Proof/Laws/ApartCombine.lean ====
section
/-! SUPPORT. The operations of Machine/Combine.lean act at one part and leave the other as it is. -/

namespace Sys2Proof.Machine

variable {P : Part} {s₀ : State}

theorem sendAckcmb_apart {p0 : PortRef} {delay : Nat} {op : Nat} {g : Nat} {ep : Nat} {gseq : Nat} {good : Bool} {s : State} (hP : portPart p0 = P) (h_s : OtherSame P s₀ s) :
    OtherSame P s₀ (sendAckcmb p0 delay op g ep gseq good s) := by
  unfold sendAckcmb
  apply sendSeq_apart
  · with_reducible assumption
  · with_reducible assumption

theorem rxCmbDown_apart {rx : Rx} {k : CmbKey} {op : Nat} {repro : Bool} {status : Nat} {pl : List (BitVec 64)} {s : State} (hP : portPart rx.port = P) (h_s : OtherSame P s₀ s) :
    OtherSame P s₀ (rxCmbDown rx k op repro status pl s).2 := by
  unfold rxCmbDown
  apply rxSeq_apart
  · with_reducible assumption
  · with_reducible assumption

theorem rxCmbUp_apart {rx : Rx} {k : CmbKey} {op : Nat} {repro : Bool} {pl : List (BitVec 64)} {s : State} (hP : portPart rx.port = P) (h_s : OtherSame P s₀ s) :
    OtherSame P s₀ (rxCmbUp rx k op repro pl s).2 := by
  unfold rxCmbUp
  apply rxSeq_apart
  · with_reducible assumption
  · with_reducible assumption

theorem rxCommit_apart {rx : Rx} {k : CmbKey} {s : State} (hP : portPart rx.port = P) (h_s : OtherSame P s₀ s) :
    OtherSame P s₀ (rxCommit rx k s).2 := by
  unfold rxCommit
  apply rxSeq_apart
  · with_reducible assumption
  · with_reducible assumption

theorem sendCmbUp_apart {p0 : PostReq} {s : State} (hP : P = .unit) (h_s : OtherSame P s₀ s) :
    OtherSame P s₀ (sendCmbUp p0 s) := by
  unfold sendCmbUp
  extract_lets v0 v1
  apply foldState_apart
  · intro z2 z3 h4
    apply iteState_apart
    · apply sendSeq_apart
      · exact hP.symm
      · with_reducible assumption
    · with_reducible assumption
  · with_reducible assumption

theorem postOp_apart {p0 : PostReq} {s : State} (hP : P = .unit) (h_s : OtherSame P s₀ s) :
    OtherSame P s₀ (postOp p0 s).2 := by
  unfold postOp
  extract_lets v5 v6 v7
  have h8 : OtherSame P s₀ v7 := by
    apply sendCmbUp_apart
    · with_reducible assumption
    · with_reducible assumption
  clear_value v7
  split
  · dsimp only
    apply logU_apart
    · with_reducible assumption
    · apply onUnit_apart
      · with_reducible assumption
      · with_reducible assumption
  · dsimp only
    apply onUnit_apart
    · with_reducible assumption
    · with_reducible assumption

theorem cmbPostOp_apart {r : Req} {p0 : PostReq} {s : State} (hP : P = .unit) (h_s : OtherSame P s₀ s) :
    OtherSame P s₀ (cmbPostOp r p0 s) := by
  unfold cmbPostOp
  extract_lets v9
  have h10 : OtherSame P s₀ v9.2 := by
    apply postOp_apart
    · with_reducible assumption
    · with_reducible assumption
  clear_value v9
  apply iteState_apart
  · apply onUnit_apart
    · with_reducible assumption
    · with_reducible assumption
  · apply onUnit_apart
    · with_reducible assumption
    · with_reducible assumption

theorem completeOp_apart {o : CmbOp} {cst : Nat} {repro : Bool} {domb : Bool} {pl : List (BitVec 64)} {s : State} (hP : P = .unit) (h_s : OtherSame P s₀ s) :
    OtherSame P s₀ (completeOp o cst repro domb pl s) := by
  unfold completeOp
  extract_lets v11 v12 v13
  have h14 : OtherSame P s₀ v11 := by
    apply onUnit_apart
    · with_reducible assumption
    · with_reducible assumption
  clear_value v11
  have h15 : OtherSame P s₀ v12 := by
    apply iteState_apart
    · apply semSignal_apart
      · with_reducible assumption
      · with_reducible assumption
    · with_reducible assumption
  clear_value v12
  have h16 : OtherSame P s₀ v13 := by
    apply iteState_apart
    · apply onUnit_apart
      · with_reducible assumption
      · with_reducible assumption
    · with_reducible assumption
  clear_value v13
  split
  · apply hallSettle_apart
    · with_reducible assumption
    · with_reducible assumption
  · with_reducible assumption

theorem settleStep_apart {g : Nat} {s : State} (hP : P = .unit) (h_s : OtherSame P s₀ s) :
    OptApart P s₀ (settleStep g s) := by
  unfold settleStep
  split
  · apply iteOpt_apart
    · apply optSome_apart
      apply completeOp_apart
      · with_reducible assumption
      · apply onUnit_apart
        · with_reducible assumption
        · with_reducible assumption
    · exact optNone_apart
  · split
    · apply iteOpt_apart
      · apply optSome_apart
        apply completeOp_apart
        · with_reducible assumption
        · with_reducible assumption
      · exact optNone_apart
    · exact optNone_apart

theorem settleGal_apart {k g : Nat} {s : State} (hP : P = .unit) (h_s : OtherSame P s₀ s) : OtherSame P s₀ (settleGal k g s) := by
  induction k generalizing s with
  | zero => exact h_s
  | succ k ih =>
    unfold settleGal
    split
    · exact ih (settleStep_apart hP h_s _ (by assumption))
    · exact h_s

theorem settle_apart {g : Nat} {s : State} (hP : P = .unit) (h_s : OtherSame P s₀ s) :
    OtherSame P s₀ (settle g s) := by
  unfold settle
  apply settleGal_apart
  · with_reducible assumption
  · with_reducible assumption

theorem settleAll_apart {s : State} (hP : P = .unit) (h_s : OtherSame P s₀ s) :
    OtherSame P s₀ (settleAll s) := by
  unfold settleAll
  apply foldState_apart
  · intro z17 z18 h19
    apply settle_apart
    · with_reducible assumption
    · with_reducible assumption
  · with_reducible assumption

theorem unitDownOp_apart {d : Dom} {k : CmbKey} {op : Nat} {c : CmbCopy} {s : State} (hP : P = .unit) (h_s : OtherSame P s₀ s) :
    OtherSame P s₀ (unitDownOp d k op c s) := by
  unfold unitDownOp
  extract_lets v20 v21
  have h22 : OtherSame P s₀ v21 := by
    apply sendAckcmb_apart
    · exact hP.symm
    · with_reducible assumption
  clear_value v21
  split
  · extract_lets v23
    apply settle_apart
    · with_reducible assumption
    · apply onUnit_apart
      · with_reducible assumption
      · with_reducible assumption
  · with_reducible assumption

theorem unitCommitOp_apart {d : Dom} {k : CmbKey} {s : State} (hP : P = .unit) (h_s : OtherSame P s₀ s) :
    OtherSame P s₀ (unitCommitOp d k s) := by
  unfold unitCommitOp
  extract_lets v24
  split
  · extract_lets v25 v26 v27
    have h28 : OtherSame P s₀ v27 := by
      apply onUnit_apart
      · with_reducible assumption
      · with_reducible assumption
    clear_value v27
    apply iteState_apart
    · apply settle_apart
      · with_reducible assumption
      · with_reducible assumption
    · apply sendAckcmb_apart
      · exact hP.symm
      · apply onUnit_apart
        · with_reducible assumption
        · with_reducible assumption
  · with_reducible assumption

theorem unitDeadlineOp_apart {g : Nat} {s : State} (hP : P = .unit) (h_s : OtherSame P s₀ s) :
    OtherSame P s₀ (unitDeadlineOp g s) := by
  unfold unitDeadlineOp
  split
  · extract_lets v29 v30 v31
    have h32 : OtherSame P s₀ v31 := by
      apply onUnit_apart
      · with_reducible assumption
      · with_reducible assumption
    clear_value v31
    apply settle_apart
    · with_reducible assumption
    · apply logU_apart
      · with_reducible assumption
      · with_reducible assumption
  · with_reducible assumption

theorem clientClear_apart {s : State} (hP : P = .unit) (h_s : OtherSame P s₀ s) :
    OtherSame P s₀ (clientClear s) := by
  unfold clientClear
  extract_lets v33 v34 v35
  have h36 : OtherSame P s₀ v34 := by
    apply onUnit_apart
    · with_reducible assumption
    · with_reducible assumption
  clear_value v34
  have h37 : OtherSame P s₀ v35 := by
    apply onUnit_apart
    · with_reducible assumption
    · with_reducible assumption
  clear_value v35
  apply settleAll_apart
  · with_reducible assumption
  · with_reducible assumption

theorem galStateOp_apart {be : BitVec 4} {data : Word} {s : State} (hP : P = .unit) (h_s : OtherSame P s₀ s) :
    OtherSame P s₀ (galStateOp be data s) := by
  unfold galStateOp
  extract_lets v38
  apply iteState_apart
  · apply onUnit_apart
    · with_reducible assumption
    · with_reducible assumption
  · apply logU_apart
    · with_reducible assumption
    · with_reducible assumption

end Sys2Proof.Machine
end

