-- ==== Sys2Proof/Laws/ApartLaunchDist.lean ====
section
/-! SUPPORT. The operations of Machine/LaunchDist.lean act at one part and leave the other as it is. -/

namespace Sys2Proof.Machine

variable {P : Part} {s₀ : State}

theorem downArm_apart {a : Arm} {s : State} (hP : P = .dist) (h_s : OtherSame P s₀ s) :
    OtherSame P s₀ (downArm a s) := by
  unfold downArm
  apply sendDown_apart
  · with_reducible assumption
  · with_reducible assumption

theorem downGo_apart {g : Go} {s : State} (hP : P = .dist) (h_s : OtherSame P s₀ s) :
    OtherSame P s₀ (downGo g s) := by
  unfold downGo
  apply sendDown_apart
  · with_reducible assumption
  · with_reducible assumption

theorem downAbort_apart {a : Abort} {s : State} (hP : P = .dist) (h_s : OtherSame P s₀ s) :
    OtherSame P s₀ (downAbort a s) := by
  unfold downAbort
  apply sendDown_apart
  · with_reducible assumption
  · with_reducible assumption

theorem rootAbort_apart {g : Nat} {ep : Nat} {lid : Nat} {reason : Nat} {s : State} (hP : P = .dist) (h_s : OtherSame P s₀ s) :
    OtherSame P s₀ (rootAbort g ep lid reason s) := by
  unfold rootAbort
  extract_lets v0 v1
  have h2 : OtherSame P s₀ v0 := by
    apply onDist_apart
    · with_reducible assumption
    · with_reducible assumption
  clear_value v0
  have h3 : OtherSame P s₀ v1 := by
    apply downAbort_apart
    · with_reducible assumption
    · with_reducible assumption
  clear_value v1
  apply ropeSend_apart
  · with_reducible assumption
  · with_reducible assumption

theorem rootGo_apart {c : LCtx} {s : State} (hP : P = .dist) (h_s : OtherSame P s₀ s) :
    OtherSame P s₀ (rootGo c s) := by
  unfold rootGo
  extract_lets v4 v5
  have h6 : OtherSame P s₀ v4 := by
    apply onDist_apart
    · with_reducible assumption
    · with_reducible assumption
  clear_value v4
  have h7 : OtherSame P s₀ v5 := by
    apply downGo_apart
    · with_reducible assumption
    · with_reducible assumption
  clear_value v5
  apply ropeSend_apart
  · with_reducible assumption
  · with_reducible assumption

theorem sendCensusUp_apart {c : LCtx} {count : Nat} {refused : Bool} {s : State} (hP : P = .dist) (h_s : OtherSame P s₀ s) :
    OtherSame P s₀ (sendCensusUp c count refused s) := by
  unfold sendCensusUp
  apply foldState_apart
  · intro z8 z9 h10
    apply sendArm_apart
    · exact (portPart_distRef _).trans hP.symm
    · with_reducible assumption
  · with_reducible assumption

theorem noteDead_apart {c : LCtx} {s : State} (hP : P = .dist) (h_s : OtherSame P s₀ s) :
    OtherSame P s₀ (noteDead c s) := by
  unfold noteDead
  apply foldState_apart
  · intro z11 z12 h13
    apply onPort_apart
    · exact (portPart_distRef _).trans hP.symm
    · with_reducible assumption
  · with_reducible assumption

theorem censusTest_apart {g : Nat} {lid : Nat} {s : State} (hP : P = .dist) (h_s : OtherSame P s₀ s) :
    OtherSame P s₀ (censusTest g lid s) := by
  unfold censusTest
  extract_lets v14
  split
  · extract_lets v16
    have h17 : OtherSame P s₀ v16 := by
      apply noteDead_apart
      · with_reducible assumption
      · apply onDist_apart
        · with_reducible assumption
        · with_reducible assumption
    clear_value v16
    apply iteState_apart
    · with_reducible assumption
    · apply iteState_apart
      · with_reducible assumption
      · apply iteState_apart
        · apply iteState_apart
          · apply rootAbort_apart
            · with_reducible assumption
            · with_reducible assumption
          · apply iteState_apart
            · apply rootAbort_apart
              · with_reducible assumption
              · with_reducible assumption
            · apply rootGo_apart
              · with_reducible assumption
              · with_reducible assumption
        · apply sendCensusUp_apart
          · with_reducible assumption
          · with_reducible assumption
  · with_reducible assumption

theorem censusAdd_apart {g : Nat} {lid : Nat} {p0 : Nat} {count : Nat} {refused : Bool} {s : State} (hP : P = .dist) (h_s : OtherSame P s₀ s) :
    OtherSame P s₀ (censusAdd g lid p0 count refused s) := by
  unfold censusAdd
  split
  · extract_lets v18
    have h19 : OtherSame P s₀ v18 := by
      apply iteState_apart
      · with_reducible assumption
      · apply onDist_apart
        · with_reducible assumption
        · with_reducible assumption
    clear_value v18
    apply censusTest_apart
    · with_reducible assumption
    · with_reducible assumption
  · with_reducible assumption

theorem censusAll_apart {s : State} (hP : P = .dist) (h_s : OtherSame P s₀ s) :
    OtherSame P s₀ (censusAll s) := by
  unfold censusAll
  apply foldState_apart
  · intro z20 z21 h22
    apply censusTest_apart
    · with_reducible assumption
    · with_reducible assumption
  · with_reducible assumption

theorem decideRequest_apart {a : Arm} {s : State} (hP : P = .dist) (h_s : OtherSame P s₀ s) :
    OtherSame P s₀ (decideRequest a s) := by
  unfold decideRequest
  extract_lets v23 v24 v25 v26 v27
  have h28 : OtherSame P s₀ v26 := by
    apply downArm_apart
    · with_reducible assumption
    · apply onDist_apart
      · with_reducible assumption
      · with_reducible assumption
  clear_value v26
  have h29 : OtherSame P s₀ v27 := by
    apply ropeSend_apart
    · with_reducible assumption
    · with_reducible assumption
  clear_value v27
  apply iteState_apart
  · apply logD_apart
    · with_reducible assumption
    · with_reducible assumption
  · apply iteState_apart
    · apply rootAbort_apart
      · with_reducible assumption
      · with_reducible assumption
    · apply censusTest_apart
      · with_reducible assumption
      · with_reducible assumption

theorem rootRequest_apart {a : Arm} {s : State} (hP : P = .dist) (h_s : OtherSame P s₀ s) :
    OtherSame P s₀ (rootRequest a s) := by
  unfold rootRequest
  extract_lets v30
  apply iteState_apart
  · apply decideRequest_apart
    · with_reducible assumption
    · with_reducible assumption
  · apply iteState_apart
    · apply ropeSend_apart
      · with_reducible assumption
      · with_reducible assumption
    · apply downAbort_apart
      · with_reducible assumption
      · with_reducible assumption

theorem dropRequest_apart {p0 : Nat} {s : State} (hP : P = .dist) (h_s : OtherSame P s₀ s) :
    OtherSame P s₀ (dropRequest p0 s) := by
  unfold dropRequest
  extract_lets v32 v33
  have h34 : OtherSame P s₀ v33 := by
    apply onDist_apart
    · with_reducible assumption
    · with_reducible assumption
  clear_value v33
  apply iteState_apart
  · with_reducible assumption
  · apply logD_apart
    · with_reducible assumption
    · with_reducible assumption

theorem takeToken_apart {p0 : Nat} {s : State} (hP : P = .dist) (h_s : OtherSame P s₀ s) :
    OtherSame P s₀ (takeToken p0 s) := by
  unfold takeToken
  extract_lets v35 v36
  apply iteState_apart
  · with_reducible assumption
  · apply onDist_apart
    · with_reducible assumption
    · with_reducible assumption

theorem requestOp_apart {p0 : Nat} {a : Arm} {s : State} (hP : P = .dist) (h_s : OtherSame P s₀ s) :
    OtherSame P s₀ (requestOp p0 a s) := by
  unfold requestOp
  extract_lets v37
  have h38 : OtherSame P s₀ v37 := by
    apply takeToken_apart
    · with_reducible assumption
    · with_reducible assumption
  clear_value v37
  apply iteState_apart
  · with_reducible assumption
  · apply iteState_apart
    · apply dropRequest_apart
      · with_reducible assumption
      · with_reducible assumption
    · apply iteState_apart
      · apply rootRequest_apart
        · with_reducible assumption
        · apply iteState_apart
          · apply takeToken_apart
            · with_reducible assumption
            · with_reducible assumption
          · with_reducible assumption
      · apply sendArm_apart
        · exact (portPart_distRef _).trans hP.symm
        · with_reducible assumption

theorem distArmOp_apart {a : Arm} {s : State} (hP : P = .dist) (h_s : OtherSame P s₀ s) :
    OtherSame P s₀ (distArmOp a s) := by
  unfold distArmOp
  extract_lets v39 v40 v41 v42
  have h43 : OtherSame P s₀ v41 := by
    apply downArm_apart
    · with_reducible assumption
    · with_reducible assumption
  clear_value v41
  apply iteState_apart
  · with_reducible assumption
  · apply iteState_apart
    · apply logD_apart
      · with_reducible assumption
      · apply sendCensusUp_apart
        · with_reducible assumption
        · with_reducible assumption
    · apply censusTest_apart
      · with_reducible assumption
      · apply onDist_apart
        · with_reducible assumption
        · with_reducible assumption

theorem abortUpOp_apart {a : Abort} {s : State} (hP : P = .dist) (h_s : OtherSame P s₀ s) :
    OtherSame P s₀ (abortUpOp a s) := by
  unfold abortUpOp
  extract_lets v45 v46 v47
  apply iteState_apart
  · with_reducible assumption
  · apply iteState_apart
    · split
      · apply iteState_apart
        · apply rootAbort_apart
          · with_reducible assumption
          · with_reducible assumption
        · with_reducible assumption
      · apply iteState_apart
        · apply logD_apart
          · with_reducible assumption
          · with_reducible assumption
        · with_reducible assumption
    · apply sendAbort_apart
      · exact (portPart_distRef _).trans hP.symm
      · with_reducible assumption

theorem cutoffOp_apart {g : Nat} {lid : Nat} {s : State} (hP : P = .dist) (h_s : OtherSame P s₀ s) :
    OtherSame P s₀ (cutoffOp g lid s) := by
  unfold cutoffOp
  extract_lets v49
  split
  · apply iteState_apart
    · apply rootAbort_apart
      · with_reducible assumption
      · with_reducible assumption
    · with_reducible assumption
  · with_reducible assumption

theorem launchEpoch_apart {g : Nat} {s : State} (hP : P = .dist) (h_s : OtherSame P s₀ s) :
    OtherSame P s₀ (launchEpoch g s) := by
  unfold launchEpoch
  apply iteState_apart
  · apply foldState_apart
    · intro z51 z52 h53
      apply rootAbort_apart
      · with_reducible assumption
      · with_reducible assumption
    · with_reducible assumption
  · with_reducible assumption

theorem launchTake_apart {s : State} (hP : P = .dist) (h_s : OtherSame P s₀ s) :
    OtherSame P s₀ (launchTake s) := by
  unfold launchTake
  extract_lets v54
  have h55 : OtherSame P s₀ v54 := by
    apply onDist_apart
    · with_reducible assumption
    · with_reducible assumption
  clear_value v54
  apply foldState_apart
  · intro z56 z57 h58
    apply iteState_apart
    · apply rootAbort_apart
      · with_reducible assumption
      · with_reducible assumption
    · apply censusTest_apart
      · with_reducible assumption
      · with_reducible assumption
  · with_reducible assumption

theorem openRecordOp_apart {a : Arm} {s : State} (hP : P = .dist) (h_s : OtherSame P s₀ s) :
    OtherSame P s₀ (openRecordOp a s) := by
  unfold openRecordOp
  apply iteState_apart
  · apply downArm_apart
    · with_reducible assumption
    · apply onDist_apart
      · with_reducible assumption
      · with_reducible assumption
  · with_reducible assumption

theorem decisionRecordOp_apart {g : Nat} {ep : Nat} {lid : Nat} {go : Bool} {reason : Nat} {s : State} (hP : P = .dist) (h_s : OtherSame P s₀ s) :
    OtherSame P s₀ (decisionRecordOp g ep lid go reason s) := by
  unfold decisionRecordOp
  apply iteState_apart
  · with_reducible assumption
  · apply iteState_apart
    · split
      · apply downGo_apart
        · with_reducible assumption
        · apply onDist_apart
          · with_reducible assumption
          · with_reducible assumption
      · with_reducible assumption
    · apply downAbort_apart
      · with_reducible assumption
      · apply onDist_apart
        · with_reducible assumption
        · with_reducible assumption

theorem onDistRx_apart {rx : Rx} {r : Bool × State} {f : Nat → State → State} (hP : portPart rx.port = P)
    (h_r : OtherSame P s₀ r.2) (h_f : P = .dist → ∀ y0 z, OtherSame P s₀ z → OtherSame P s₀ (f y0 z)) :
    OtherSame P s₀ (onDistRx rx r f) := by
  unfold onDistRx
  split
  · rename_i n hn
    have hd : P = .dist := by
      rw [← hP]
      revert hn
      cases rx.port with
      | unit d => intro hn; cases hn
      | dist n => intro _; rfl
    exact iteState_apart (h_f hd n _ h_r) h_r
  · exact h_r

end Sys2Proof.Machine
end

