-- ==== Sys2Proof/Laws/ApartCombineDist.lean ====
section
/-! SUPPORT. The operations of Machine/CombineDist.lean act at one part and leave the other as it is. -/

namespace Sys2Proof.Machine

variable {P : Part} {s₀ : State}

theorem sendAbsent_apart {c : CmbCtx} {p0 : Nat} {s : State} (hP : P = .dist) (h_s : OtherSame P s₀ s) :
    OtherSame P s₀ (sendAbsent c p0 s) := by
  unfold sendAbsent
  apply ropeSend_apart
  · with_reducible assumption
  · with_reducible assumption

theorem forwardCon_apart {g : Nat} {q0 : BitVec 16} {x : Contrib} {s : State} (hP : P = .dist) (h_s : OtherSame P s₀ s) :
    OtherSame P s₀ (forwardCon g q0 x s) := by
  unfold forwardCon
  extract_lets v0
  have h1 : OtherSame P s₀ v0 := by
    apply ropeSend_apart
    · with_reducible assumption
    · with_reducible assumption
  clear_value v0
  apply ropeSend_apart
  · with_reducible assumption
  · with_reducible assumption

theorem subscribe_apart {p0 : Nat} {s : State} (hP : P = .dist) (h_s : OtherSame P s₀ s) :
    OtherSame P s₀ (subscribe p0 s) := by
  unfold subscribe
  extract_lets v2
  have h3 : OtherSame P s₀ v2 := by
    apply onDist_apart
    · with_reducible assumption
    · with_reducible assumption
  clear_value v2
  apply iteState_apart
  · with_reducible assumption
  · apply ropeSend_apart
    · with_reducible assumption
    · with_reducible assumption

theorem sendResult_apart {delay : Nat} {ports : List Nat} {c : CmbCtx} {r : CmbCopy} {s : State} (hP : P = .dist) (h_s : OtherSame P s₀ s) :
    OtherSame P s₀ (sendResult delay ports c r s) := by
  unfold sendResult
  apply foldState_apart
  · intro z4 z5 h6
    apply sendSeq_apart
    · exact (portPart_distRef _).trans hP.symm
    · with_reducible assumption
  · with_reducible assumption

theorem bumpEpoch_apart {g : Nat} {s : State} (hP : P = .dist) (h_s : OtherSame P s₀ s) :
    OtherSame P s₀ (bumpEpoch g s) := by
  unfold bumpEpoch
  apply launchEpoch_apart
  · with_reducible assumption
  · apply onDist_apart
    · with_reducible assumption
    · with_reducible assumption

theorem relayDrop_apart {s : State} (hP : P = .dist) (h_s : OtherSame P s₀ s) :
    OtherSame P s₀ (relayDrop s) := by
  unfold relayDrop
  split
  · apply foldState_apart
    · intro z7 z8 h9
      apply onPort_apart
      · exact (portPart_distRef _).trans hP.symm
      · with_reducible assumption
    · apply onDist_apart
      · with_reducible assumption
      · with_reducible assumption
  · with_reducible assumption

theorem relayMore_apart {op : Nat} {len : Nat} {o : List (BitVec 64)} {l : CmbRelay} {s : State} (hP : P = .dist) (h_s : OtherSame P s₀ s) :
    OtherSame P s₀ (relayMore op len o l s) := by
  unfold relayMore
  extract_lets v10 v11 v12
  have h13 : OtherSame P s₀ v12 := by
    apply foldState_apart
    · intro z14 z15 h16
      apply onPort_apart
      · exact (portPart_distRef _).trans hP.symm
      · with_reducible assumption
    · with_reducible assumption
  clear_value v12
  apply onDist_apart
  · with_reducible assumption
  · with_reducible assumption

theorem relayOpen_apart {ports : List Nat} {g : Nat} {q0 : BitVec 16} {s : State} (hP : P = .dist) (h_s : OtherSame P s₀ s) :
    OtherSame P s₀ (relayOpen ports g q0 s).2 := by
  unfold relayOpen
  extract_lets v17
  dsimp only
  apply foldState_apart
  · intro z18 z19 h20
    apply onPort_apart
    · exact (portPart_distRef _).trans hP.symm
    · with_reducible assumption
  · with_reducible assumption

theorem relayPart_apart {g : Nat} {q0 : BitVec 16} {op : Nat} {len : Nat} {o : List (BitVec 64)} {s : State} (hP : P = .dist) (h_s : OtherSame P s₀ s) :
    OtherSame P s₀ (relayPart g q0 op len o s) := by
  unfold relayPart
  apply iteState_apart
  · with_reducible assumption
  · split
    · apply relayMore_apart
      · with_reducible assumption
      · with_reducible assumption
    · extract_lets v21 v22 v23
      have h24 : OtherSame P s₀ v21 := by
        apply relayDrop_apart
        · with_reducible assumption
        · with_reducible assumption
      clear_value v21
      have h25 : OtherSame P s₀ v23.2 := by
        apply relayOpen_apart
        · with_reducible assumption
        · with_reducible assumption
      clear_value v23
      apply iteState_apart
      · with_reducible assumption
      · apply relayMore_apart
        · with_reducible assumption
        · with_reducible assumption

theorem relayRest_apart {g : Nat} {q0 : BitVec 16} {op : Nat} {len : Nat} {o : List (BitVec 64)} {s : State} (hP : P = .dist) (h_s : OtherSame P s₀ s) :
    OtherSame P s₀ (relayRest g q0 op len o s).2 := by
  unfold relayRest
  split
  · dsimp only
    apply onDist_apart
    · with_reducible assumption
    · apply relayMore_apart
      · with_reducible assumption
      · with_reducible assumption
  · dsimp only
    apply relayDrop_apart
    · with_reducible assumption
    · with_reducible assumption

theorem relayResult_apart {delay : Nat} {sent : List Nat} {c : CmbCtx} {r : CmbCopy} {s : State} (hP : P = .dist) (h_s : OtherSame P s₀ s) :
    OtherSame P s₀ (relayResult delay sent c r s) := by
  unfold relayResult
  extract_lets v26 v27 v28
  have h29 : OtherSame P s₀ v28 := by
    apply sendResult_apart
    · with_reducible assumption
    · with_reducible assumption
  clear_value v28
  apply onDist_apart
  · with_reducible assumption
  · with_reducible assumption

theorem formResult_apart {c : CmbCtx} {s : State} (hP : P = .dist) (h_s : OtherSame P s₀ s) :
    OtherSame P s₀ (formResult c s) := by
  unfold formResult
  extract_lets v30 v31 v32 v33 v34 v35 v36 v37 v38 v39
  have h41 : OtherSame P s₀ v35 := by
    apply relayResult_apart
    · with_reducible assumption
    · with_reducible assumption
  clear_value v35
  have h42 : OtherSame P s₀ v36 := by
    apply onDist_apart
    · with_reducible assumption
    · with_reducible assumption
  clear_value v36
  have h43 : OtherSame P s₀ v37 := by
    apply ropeSend_apart
    · with_reducible assumption
    · with_reducible assumption
  clear_value v37
  have h44 : OtherSame P s₀ v38 := by
    dsimp only [v38]
    split
    · apply logD_apart
      · with_reducible assumption
      · with_reducible assumption
    · with_reducible assumption
  clear_value v38
  have h45 : OtherSame P s₀ v39 := by
    apply iteState_apart
    · apply onDist_apart
      · with_reducible assumption
      · with_reducible assumption
    · with_reducible assumption
  clear_value v39
  apply iteState_apart
  · apply bumpEpoch_apart
    · with_reducible assumption
    · with_reducible assumption
  · with_reducible assumption

theorem leadStep_apart {g : Nat} {s : State} (hP : P = .dist) (h_s : OtherSame P s₀ s) :
    OptApart P s₀ (leadStep g s) := by
  unfold leadStep
  split
  · extract_lets v46
    have h47 : OtherSame P s₀ v46 := by
      apply formResult_apart
      · with_reducible assumption
      · with_reducible assumption
    clear_value v46
    apply iteOpt_apart
    · apply optSome_apart
      apply onDist_apart
      · with_reducible assumption
      · with_reducible assumption
    · exact optNone_apart
  · exact optNone_apart

theorem leadRun_apart {k g : Nat} {s : State} (hP : P = .dist) (h_s : OtherSame P s₀ s) : OtherSame P s₀ (leadRun k g s) := by
  induction k generalizing s with
  | zero => exact h_s
  | succ k ih =>
    unfold leadRun
    split
    · exact ih (leadStep_apart hP h_s _ (by assumption))
    · exact h_s

theorem commitStep_apart {g : Nat} {s : State} (hP : P = .dist) (h_s : OtherSame P s₀ s) :
    OptApart P s₀ (commitStep g s) := by
  unfold commitStep
  extract_lets v48
  split
  · extract_lets v50 v51
    have h52 : OtherSame P s₀ v51 := by
      apply foldState_apart
      · intro z53 z54 h55
        apply sendSeq_apart
        · exact (portPart_distRef _).trans hP.symm
        · with_reducible assumption
      · with_reducible assumption
    clear_value v51
    apply iteOpt_apart
    · apply optSome_apart
      apply onDist_apart
      · with_reducible assumption
      · with_reducible assumption
    · exact optNone_apart
  · exact optNone_apart

theorem commitRun_apart {k g : Nat} {s : State} (hP : P = .dist) (h_s : OtherSame P s₀ s) : OtherSame P s₀ (commitRun k g s) := by
  induction k generalizing s with
  | zero => exact h_s
  | succ k ih =>
    unfold commitRun
    split
    · exact ih (commitStep_apart hP h_s _ (by assumption))
    · exact h_s

theorem epochRun_apart {k g : Nat} {s : State} (hP : P = .dist) (h_s : OtherSame P s₀ s) : OtherSame P s₀ (epochRun k g s) := by
  induction k generalizing s with
  | zero => exact h_s
  | succ k ih =>
    unfold epochRun
    split
    · split
      · apply ih
        apply iteState_apart
        · exact bumpEpoch_apart hP (onDist_apart hP h_s)
        · exact onDist_apart hP h_s
      · exact h_s
    · exact h_s

theorem distSettle_apart {g : Nat} {s : State} (hP : P = .dist) (h_s : OtherSame P s₀ s) :
    OtherSame P s₀ (distSettle g s) := by
  unfold distSettle
  extract_lets v56 v57
  have h58 : OtherSame P s₀ v56 := by
    apply epochRun_apart
    · with_reducible assumption
    · with_reducible assumption
  clear_value v56
  have h59 : OtherSame P s₀ v57 := by
    apply iteState_apart
    · apply leadRun_apart
      · with_reducible assumption
      · with_reducible assumption
    · with_reducible assumption
  clear_value v57
  apply commitRun_apart
  · with_reducible assumption
  · with_reducible assumption

theorem distSettleAll_apart {s : State} (hP : P = .dist) (h_s : OtherSame P s₀ s) :
    OtherSame P s₀ (distSettleAll s) := by
  unfold distSettleAll
  apply foldState_apart
  · intro z60 z61 h62
    apply distSettle_apart
    · with_reducible assumption
    · with_reducible assumption
  · with_reducible assumption

theorem sendPartial_apart {c : CmbCtx} {s : State} (hP : P = .dist) (h_s : OtherSame P s₀ s) :
    OtherSame P s₀ (sendPartial c s) := by
  unfold sendPartial
  extract_lets v63 v64 v65 v66
  have h67 : OtherSame P s₀ v66 := by
    apply sendSeq_apart
    · exact (portPart_distRef _).trans hP.symm
    · with_reducible assumption
  clear_value v66
  apply onDist_apart
  · with_reducible assumption
  · with_reducible assumption

theorem countDone_apart {g : Nat} {q0 : BitVec 16} {s : State} (hP : P = .dist) (h_s : OtherSame P s₀ s) :
    OtherSame P s₀ (countDone g q0 s) := by
  unfold countDone
  apply onDist_apart
  · with_reducible assumption
  · with_reducible assumption

theorem completeTest_apart {g : Nat} {q0 : BitVec 16} {s : State} (hP : P = .dist) (h_s : OtherSame P s₀ s) :
    OtherSame P s₀ (completeTest g q0 s) := by
  unfold completeTest
  split
  · extract_lets v68
    have h69 : OtherSame P s₀ v68 := by
      apply countDone_apart
      · with_reducible assumption
      · apply onDist_apart
        · with_reducible assumption
        · with_reducible assumption
    clear_value v68
    apply iteState_apart
    · with_reducible assumption
    · apply iteState_apart
      · apply distSettle_apart
        · with_reducible assumption
        · with_reducible assumption
      · apply iteState_apart
        · with_reducible assumption
        · apply sendPartial_apart
          · with_reducible assumption
          · with_reducible assumption
  · with_reducible assumption

theorem completeGal_apart {g : Nat} {s : State} (hP : P = .dist) (h_s : OtherSame P s₀ s) :
    OtherSame P s₀ (completeGal g s) := by
  unfold completeGal
  apply foldState_apart
  · intro z70 z71 h72
    apply completeTest_apart
    · with_reducible assumption
    · with_reducible assumption
  · with_reducible assumption

theorem portLost_apart {g : Nat} {p0 : Nat} {q0 : Nat} {s : State} (hP : P = .dist) (h_s : OtherSame P s₀ s) :
    OtherSame P s₀ (portLost g p0 q0 s) := by
  unfold portLost
  extract_lets v73 v74 v75
  have h76 : OtherSame P s₀ v73 := by
    apply onDist_apart
    · with_reducible assumption
    · with_reducible assumption
  clear_value v73
  have h77 : OtherSame P s₀ v74 := by
    apply onPort_apart
    · exact (portPart_distRef _).trans hP.symm
    · with_reducible assumption
  clear_value v74
  have h78 : OtherSame P s₀ v75 := by
    apply scorePort_apart
    · exact (portPart_distRef _).trans hP.symm
    · apply logD_apart
      · with_reducible assumption
      · apply onDist_apart
        · with_reducible assumption
        · with_reducible assumption
  clear_value v75
  apply iteState_apart
  · with_reducible assumption
  · apply distSettle_apart
    · with_reducible assumption
    · apply completeGal_apart
      · with_reducible assumption
      · with_reducible assumption

theorem resolveAbsent_apart {p0 : Nat} {s : State} (hP : P = .dist) (h_s : OtherSame P s₀ s) :
    OtherSame P s₀ (resolveAbsent p0 s) := by
  unfold resolveAbsent
  apply iteState_apart
  · with_reducible assumption
  · apply iteState_apart
    · apply subscribe_apart
      · with_reducible assumption
      · with_reducible assumption
    · apply foldState_apart
      · intro z79 z80 h81
        apply portLost_apart
        · with_reducible assumption
        · with_reducible assumption
      · with_reducible assumption

theorem cancelTest_apart {p0 : Nat} {s : State} (hP : P = .dist) (h_s : OtherSame P s₀ s) :
    OtherSame P s₀ (cancelTest p0 s) := by
  unfold cancelTest
  extract_lets v82 v83
  have h85 : OtherSame P s₀ v83 := by
    apply onDist_apart
    · with_reducible assumption
    · with_reducible assumption
  clear_value v83
  apply iteState_apart
  · apply ropeSend_apart
    · with_reducible assumption
    · with_reducible assumption
  · with_reducible assumption

theorem portAbsent_apart {p0 : Nat} {s : State} (hP : P = .dist) (h_s : OtherSame P s₀ s) :
    OtherSame P s₀ (portAbsent p0 s) := by
  unfold portAbsent
  extract_lets v86 v87 v88
  have h90 : OtherSame P s₀ v87 := by
    apply iteState_apart
    · apply resolveAbsent_apart
      · with_reducible assumption
      · with_reducible assumption
    · with_reducible assumption
  clear_value v87
  have h91 : OtherSame P s₀ v88 := by
    apply iteState_apart
    · apply foldState_apart
      · intro z92 z93 h94
        apply sendAbsent_apart
        · with_reducible assumption
        · with_reducible assumption
      · with_reducible assumption
    · with_reducible assumption
  clear_value v88
  apply censusAll_apart
  · with_reducible assumption
  · apply distSettleAll_apart
    · with_reducible assumption
    · with_reducible assumption

theorem portPresent_apart {p0 : Nat} {s : State} (hP : P = .dist) (h_s : OtherSame P s₀ s) :
    OtherSame P s₀ (portPresent p0 s) := by
  unfold portPresent
  apply onDist_apart
  · with_reducible assumption
  · with_reducible assumption

theorem ctxOpen_apart {g : Nat} {q0 : BitVec 16} {ep : Nat} {op : Nat} {s : State} (hP : P = .dist) (h_s : OtherSame P s₀ s) :
    OtherSame P s₀ (ctxOpen g q0 ep op s) := by
  unfold ctxOpen
  split
  · extract_lets v95
    apply iteState_apart
    · with_reducible assumption
    · apply onDist_apart
      · with_reducible assumption
      · with_reducible assumption
  · apply onDist_apart
    · with_reducible assumption
    · with_reducible assumption

theorem ctxBlank_apart {g : Nat} {q0 : BitVec 16} {ep : Nat} {s : State} (hP : P = .dist) (h_s : OtherSame P s₀ s) :
    OtherSame P s₀ (ctxBlank g q0 ep s) := by
  unfold ctxBlank
  split
  · with_reducible assumption
  · apply onDist_apart
    · with_reducible assumption
    · with_reducible assumption

theorem ctxResolve_apart {c : CmbCtx} {s : State} (hP : P = .dist) (h_s : OtherSame P s₀ s) :
    OtherSame P s₀ (ctxResolve c s) := by
  unfold ctxResolve
  apply foldState_apart
  · intro z96 z97 h98
    extract_lets v99
    have h100 : OtherSame P s₀ v99 := by
      apply iteState_apart
      · apply sendAbsent_apart
        · with_reducible assumption
        · with_reducible assumption
      · with_reducible assumption
    clear_value v99
    apply resolveAbsent_apart
    · with_reducible assumption
    · with_reducible assumption
  · with_reducible assumption

theorem discard_apart {s : State} (hP : P = .dist) (h_s : OtherSame P s₀ s) :
    OtherSame P s₀ (discard s) := by
  unfold discard
  apply onDist_apart
  · with_reducible assumption
  · with_reducible assumption

theorem takeCon_apart {g : Nat} {q0 : BitVec 16} {ep : Nat} {opcode : Nat} {x : Contrib} {s : State} (hP : P = .dist) (h_s : OtherSame P s₀ s) :
    OtherSame P s₀ (takeCon g q0 ep opcode x s) := by
  unfold takeCon
  extract_lets v101 v102 v103
  have h104 : OtherSame P s₀ v103 := by
    apply ctxOpen_apart
    · with_reducible assumption
    · with_reducible assumption
  clear_value v103
  apply iteState_apart
  · apply discard_apart
    · with_reducible assumption
    · apply onDist_apart
      · with_reducible assumption
      · with_reducible assumption
  · split
    · extract_lets v105 v106 v107
      have h108 : OtherSame P s₀ v107 := by
        apply onDist_apart
        · with_reducible assumption
        · with_reducible assumption
      clear_value v107
      apply iteState_apart
      · apply discard_apart
        · with_reducible assumption
        · with_reducible assumption
      · apply completeTest_apart
        · with_reducible assumption
        · apply iteState_apart
          · apply ctxResolve_apart
            · with_reducible assumption
            · with_reducible assumption
          · with_reducible assumption
    · with_reducible assumption

theorem notMember_apart {g : Nat} {p0 : Nat} {q0 : BitVec 16} {s : State} (hP : P = .dist) (h_s : OtherSame P s₀ s) :
    OtherSame P s₀ (notMember g p0 q0 s) := by
  unfold notMember
  extract_lets v109 v110
  have h111 : OtherSame P s₀ v110 := by
    apply discard_apart
    · with_reducible assumption
    · with_reducible assumption
  clear_value v110
  apply iteState_apart
  · with_reducible assumption
  · apply logD_apart
    · with_reducible assumption
    · apply onDist_apart
      · with_reducible assumption
      · with_reducible assumption

theorem cmbUpOp_apart {p0 : Nat} {k : CmbKey} {opcode : Nat} {repro : Bool} {pl : List (BitVec 64)} {s : State} (hP : P = .dist) (h_s : OtherSame P s₀ s) :
    OtherSame P s₀ (cmbUpOp p0 k opcode repro pl s) := by
  unfold cmbUpOp
  extract_lets v112 v113 v114 v115 v116 v117
  have h119 : OtherSame P s₀ v116 := by
    apply onDist_apart
    · with_reducible assumption
    · with_reducible assumption
  clear_value v116
  have h120 : OtherSame P s₀ v117 := by
    apply iteState_apart
    · apply forwardCon_apart
      · with_reducible assumption
      · with_reducible assumption
    · with_reducible assumption
  clear_value v117
  apply iteState_apart
  · with_reducible assumption
  · apply iteState_apart
    · apply discard_apart
      · with_reducible assumption
      · with_reducible assumption
    · apply iteState_apart
      · apply notMember_apart
        · with_reducible assumption
        · with_reducible assumption
      · apply cancelTest_apart
        · with_reducible assumption
        · apply takeCon_apart
          · with_reducible assumption
          · with_reducible assumption

theorem accGrant_apart {s : State} (hP : P = .dist) (h_s : OtherSame P s₀ s) :
    OtherSame P s₀ (accGrant s) := by
  unfold accGrant
  extract_lets v121
  apply iteState_apart
  · split
    · apply completeTest_apart
      · with_reducible assumption
      · apply onDist_apart
        · with_reducible assumption
        · with_reducible assumption
    · with_reducible assumption
  · with_reducible assumption

theorem substTimeoutOp_apart {p0 : Nat} {s : State} (hP : P = .dist) (h_s : OtherSame P s₀ s) :
    OtherSame P s₀ (substTimeoutOp p0 s) := by
  unfold substTimeoutOp
  apply cancelTest_apart
  · with_reducible assumption
  · apply foldState_apart
    · intro z123 z124 h125
      apply portLost_apart
      · with_reducible assumption
      · with_reducible assumption
    · with_reducible assumption

theorem ctxDeadlineOp_apart {g : Nat} {q0 : BitVec 16} {s : State} (hP : P = .dist) (h_s : OtherSame P s₀ s) :
    OtherSame P s₀ (ctxDeadlineOp g q0 s) := by
  unfold ctxDeadlineOp
  split
  · extract_lets v126 v127 v128 v129
    have h131 : OtherSame P s₀ v129 := by
      apply foldState_apart
      · intro z132 z133 h134
        apply portLost_apart
        · with_reducible assumption
        · with_reducible assumption
      · with_reducible assumption
    clear_value v129
    apply iteState_apart
    · split
      · apply iteState_apart
        · with_reducible assumption
        · apply distSettle_apart
          · with_reducible assumption
          · apply countDone_apart
            · with_reducible assumption
            · apply onDist_apart
              · with_reducible assumption
              · with_reducible assumption
      · with_reducible assumption
    · with_reducible assumption
  · with_reducible assumption

theorem ackTimeoutOp_apart {g : Nat} {q0 : BitVec 16} {p0 : Nat} {s : State} (hP : P = .dist) (h_s : OtherSame P s₀ s) :
    OtherSame P s₀ (ackTimeoutOp g q0 p0 s) := by
  unfold ackTimeoutOp
  split
  · apply iteState_apart
    · apply distSettle_apart
      · with_reducible assumption
      · apply portLost_apart
        · with_reducible assumption
        · with_reducible assumption
    · with_reducible assumption
  · with_reducible assumption

theorem relayDown_apart {g : Nat} {q0 : BitVec 16} {op : Nat} {c : CmbCtx} {r : CmbCopy} {s : State} (hP : P = .dist) (h_s : OtherSame P s₀ s) :
    OtherSame P s₀ (relayDown g q0 op c r s) := by
  unfold relayDown
  extract_lets v135
  have h136 : OtherSame P s₀ v135.2 := by
    apply relayRest_apart
    · with_reducible assumption
    · with_reducible assumption
  clear_value v135
  apply distSettle_apart
  · with_reducible assumption
  · apply relayResult_apart
    · with_reducible assumption
    · with_reducible assumption

theorem cmbDownOp_apart {k : CmbKey} {op : Nat} {r : CmbCopy} {s : State} (hP : P = .dist) (h_s : OtherSame P s₀ s) :
    OtherSame P s₀ (cmbDownOp k op r s) := by
  unfold cmbDownOp
  extract_lets v137 v138 v139
  have h140 : ∀ z0, OtherSame P s₀ z0 → OtherSame P s₀ (v138 z0) := by
    intro z141 h142
    dsimp only [v138]
    apply sendAckcmb_apart
    · exact (portPart_distRef _).trans hP.symm
    · with_reducible assumption
  clear_value v138
  have h143 : OtherSame P s₀ v139 := by
    apply h140
    apply ctxBlank_apart
    · with_reducible assumption
    · with_reducible assumption
  clear_value v139
  apply iteState_apart
  · apply h140
    with_reducible assumption
  · split
    · apply iteState_apart
      · with_reducible assumption
      · apply relayDown_apart
        · with_reducible assumption
        · with_reducible assumption
    · with_reducible assumption

theorem distCommitOp_apart {k : CmbKey} {s : State} (hP : P = .dist) (h_s : OtherSame P s₀ s) :
    OtherSame P s₀ (distCommitOp k s) := by
  unfold distCommitOp
  extract_lets v144 v145
  have h146 : OtherSame P s₀ v145 := by
    apply ctxBlank_apart
    · with_reducible assumption
    · with_reducible assumption
  clear_value v145
  apply iteState_apart
  · with_reducible assumption
  · split
    · extract_lets v147
      have h148 : OtherSame P s₀ v147 := by
        apply onDist_apart
        · with_reducible assumption
        · with_reducible assumption
      clear_value v147
      apply iteState_apart
      · apply distSettle_apart
        · with_reducible assumption
        · with_reducible assumption
      · apply sendAckcmb_apart
        · exact (portPart_distRef _).trans hP.symm
        · with_reducible assumption
    · with_reducible assumption

theorem ackcmbOp_apart {p0 : Nat} {k : CmbKey} {good : Bool} {s : State} (hP : P = .dist) (h_s : OtherSame P s₀ s) :
    OtherSame P s₀ (ackcmbOp p0 k good s) := by
  unfold ackcmbOp
  extract_lets v149
  split
  · extract_lets v150
    have h151 : OtherSame P s₀ v150 := by
      apply iteState_apart
      · with_reducible assumption
      · apply onDist_apart
        · with_reducible assumption
        · with_reducible assumption
    clear_value v150
    apply iteState_apart
    · apply distSettle_apart
      · with_reducible assumption
      · with_reducible assumption
    · split
      · extract_lets v152 v153
        have h154 : OtherSame P s₀ v153 := by
          apply onDist_apart
          · with_reducible assumption
          · with_reducible assumption
        clear_value v153
        apply sendResult_apart
        · with_reducible assumption
        · with_reducible assumption
      · with_reducible assumption
  · with_reducible assumption

theorem substHdrOp_apart {h : SubstHdr} {absent : Bool} {all : Bool} {s : State} (hP : P = .dist) (h_s : OtherSame P s₀ s) :
    OtherSame P s₀ (substHdrOp h absent all s) := by
  unfold substHdrOp
  extract_lets v155 v156 v157
  have h158 : OtherSame P s₀ v156 := by
    apply onDist_apart
    · with_reducible assumption
    · with_reducible assumption
  clear_value v156
  have h159 : OtherSame P s₀ v157 := by
    apply iteState_apart
    · with_reducible assumption
    · apply iteState_apart
      · apply foldState_apart
        · intro z160 z161 h162
          apply portLost_apart
          · with_reducible assumption
          · with_reducible assumption
        · with_reducible assumption
      · apply iteState_apart
        · apply portLost_apart
          · with_reducible assumption
          · with_reducible assumption
        · with_reducible assumption
  clear_value v157
  apply iteState_apart
  · apply censusAll_apart
    · with_reducible assumption
    · apply cancelTest_apart
      · with_reducible assumption
      · with_reducible assumption
  · apply onDist_apart
    · with_reducible assumption
    · with_reducible assumption

theorem substDataOp_apart {g : Nat} {q0 : BitVec 16} {pl : List (BitVec 64)} {s : State} (hP : P = .dist) (h_s : OtherSame P s₀ s) :
    OtherSame P s₀ (substDataOp g q0 pl s) := by
  unfold substDataOp
  split
  · extract_lets v163 v164 v165
    have h166 : OtherSame P s₀ v163 := by
      apply onDist_apart
      · with_reducible assumption
      · with_reducible assumption
    clear_value v163
    apply iteState_apart
    · apply iteState_apart
      · apply discard_apart
        · with_reducible assumption
        · with_reducible assumption
      · apply cancelTest_apart
        · with_reducible assumption
        · apply takeCon_apart
          · with_reducible assumption
          · with_reducible assumption
    · with_reducible assumption
  · with_reducible assumption

theorem substReqOp_apart {p0 : Nat} {on : Bool} {s : State} (hP : P = .dist) (h_s : OtherSame P s₀ s) :
    OtherSame P s₀ (substReqOp p0 on s) := by
  unfold substReqOp
  extract_lets v168
  have h169 : OtherSame P s₀ v168 := by
    apply onDist_apart
    · with_reducible assumption
    · with_reducible assumption
  clear_value v168
  apply iteState_apart
  · with_reducible assumption
  · apply iteState_apart
    · apply ropeSend_apart
      · with_reducible assumption
      · with_reducible assumption
    · apply foldState_apart
      · intro z170 z171 h172
        split
        · apply forwardCon_apart
          · with_reducible assumption
          · with_reducible assumption
        · apply iteState_apart
          · with_reducible assumption
          · apply sendAbsent_apart
            · with_reducible assumption
            · with_reducible assumption
      · with_reducible assumption

theorem resultRecOp_apart {g : Nat} {q0 : BitVec 16} {op : Nat} {r : CmbCopy} {s : State} (hP : P = .dist) (h_s : OtherSame P s₀ s) :
    OtherSame P s₀ (resultRecOp g q0 op r s) := by
  unfold resultRecOp
  extract_lets v173 v174
  have h175 : OtherSame P s₀ v173 := by
    apply iteState_apart
    · apply onDist_apart
      · with_reducible assumption
      · with_reducible assumption
    · with_reducible assumption
  clear_value v173
  have h176 : OtherSame P s₀ v174 := by
    apply ctxBlank_apart
    · with_reducible assumption
    · with_reducible assumption
  clear_value v174
  apply iteState_apart
  · with_reducible assumption
  · split
    · apply iteState_apart
      · with_reducible assumption
      · apply relayDown_apart
        · with_reducible assumption
        · apply onDist_apart
          · with_reducible assumption
          · with_reducible assumption
    · with_reducible assumption

theorem sendSync_apart {f : DistState → Nat → BitVec 16} {s : State} (hP : P = .dist) (h_s : OtherSame P s₀ s) :
    OtherSame P s₀ (sendSync f s) := by
  unfold sendSync
  extract_lets v177 v178
  have h180 : OtherSame P s₀ v178 := by
    apply foldState_apart
    · intro z181 z182 h183
      apply ropeSend_apart
      · with_reducible assumption
      · with_reducible assumption
    · with_reducible assumption
  clear_value v178
  apply ropeSend_apart
  · with_reducible assumption
  · with_reducible assumption

theorem sendSyncBase_apart {s : State} (hP : P = .dist) (h_s : OtherSame P s₀ s) :
    OtherSame P s₀ (sendSyncBase s) := by
  unfold sendSyncBase
  apply sendSync_apart
  · with_reducible assumption
  · apply onDist_apart
    · with_reducible assumption
    · with_reducible assumption

theorem resilverDone_apart {s : State} (hP : P = .dist) (h_s : OtherSame P s₀ s) :
    OtherSame P s₀ (resilverDone s) := by
  unfold resilverDone
  extract_lets v184 v185
  have h186 : OtherSame P s₀ v185 := by
    apply onDist_apart
    · with_reducible assumption
    · with_reducible assumption
  clear_value v185
  apply logD_apart
  · with_reducible assumption
  · apply onDist_apart
    · with_reducible assumption
    · with_reducible assumption

theorem leadBack_apart {s : State} (hP : P = .dist) (h_s : OtherSame P s₀ s) :
    OtherSame P s₀ (leadBack s) := by
  unfold leadBack
  extract_lets v187 v188
  have h189 : OtherSame P s₀ v188 := by
    apply onDist_apart
    · with_reducible assumption
    · with_reducible assumption
  clear_value v188
  apply distSettleAll_apart
  · with_reducible assumption
  · apply logD_apart
    · with_reducible assumption
    · apply onDist_apart
      · with_reducible assumption
      · with_reducible assumption

theorem syncOp_apart {g : Nat} {base : BitVec 16} {epoch : BitVec 16} {valid : Bool} {s : State} (hP : P = .dist) (h_s : OtherSame P s₀ s) :
    OtherSame P s₀ (syncOp g base epoch valid s) := by
  unfold syncOp
  extract_lets v190 v191 v192
  have h194 : OtherSame P s₀ v192 := by
    apply iteState_apart
    · apply onDist_apart
      · with_reducible assumption
      · with_reducible assumption
    · with_reducible assumption
  clear_value v192
  apply iteState_apart
  · with_reducible assumption
  · apply iteState_apart
    · apply onDist_apart
      · with_reducible assumption
      · with_reducible assumption
    · apply iteState_apart
      · apply resilverDone_apart
        · with_reducible assumption
        · with_reducible assumption
      · apply leadBack_apart
        · with_reducible assumption
        · with_reducible assumption

end Sys2Proof.Machine
end

