-- ==== Sys2Proof/Laws/ApartRefs.lean ====
section
/-! SUPPORT. The operations of Machine/Refs.lean act at one part and leave the other as it is. -/

namespace Sys2Proof.Machine

variable {P : Part} {s₀ : State}

theorem onRoot_apart {f : Root → Root} {s : State} (hP : P = .dist) (h_s : OtherSame P s₀ s) :
    OtherSame P s₀ (onRoot f s) := by
  unfold onRoot
  apply onDist_apart
  · with_reducible assumption
  · with_reducible assumption

theorem onSrc_apart {n : Nat} {f : RefSrc → RefSrc} {s : State} (hP : P = .dist) (h_s : OtherSame P s₀ s) :
    OtherSame P s₀ (onSrc n f s) := by
  unfold onSrc
  apply onRoot_apart
  · with_reducible assumption
  · with_reducible assumption

theorem setBuildout_apart {b : Int} {s : State} (hP : P = .dist) (h_s : OtherSame P s₀ s) :
    OtherSame P s₀ (setBuildout b s) := by
  unfold setBuildout
  apply onDist_apart
  · with_reducible assumption
  · with_reducible assumption

theorem rootWord_apart {w : Int} {s : State} (hP : P = .dist) (h_s : OtherSame P s₀ s) :
    OtherSame P s₀ (rootWord w s) := by
  unfold rootWord
  extract_lets v0 v1
  apply applyWord_apart
  · exact hP.symm
  · apply onRoot_apart
    · with_reducible assumption
    · with_reducible assumption

theorem noteAge_apart {s : State} (hP : P = .dist) (h_s : OtherSame P s₀ s) :
    OtherSame P s₀ (noteAge s) := by
  unfold noteAge
  extract_lets v2 v3 v4
  have h5 : OtherSame P s₀ v4 := by
    apply iteState_apart
    · apply onDist_apart
      · with_reducible assumption
      · with_reducible assumption
    · with_reducible assumption
  clear_value v4
  apply iteState_apart
  · with_reducible assumption
  · apply onDist_apart
    · with_reducible assumption
    · with_reducible assumption

theorem setRoot_apart {st : Nat} {h : Hap} {s : State} (hP : P = .dist) (h_s : OtherSame P s₀ s) :
    OtherSame P s₀ (setRoot st h s) := by
  unfold setRoot
  extract_lets v6 v7 v8 v9
  have h10 : OtherSame P s₀ v7 := by
    apply onDist_apart
    · with_reducible assumption
    · with_reducible assumption
  clear_value v7
  have h11 : OtherSame P s₀ v8 := by
    apply iteState_apart
    · apply onDist_apart
      · with_reducible assumption
      · with_reducible assumption
    · apply iteState_apart
      · apply onDist_apart
        · with_reducible assumption
        · with_reducible assumption
      · with_reducible assumption
  clear_value v8
  have h12 : OtherSame P s₀ v9 := by
    apply onRoot_apart
    · with_reducible assumption
    · with_reducible assumption
  clear_value v9
  apply iteState_apart
  · with_reducible assumption
  · apply logD_apart
    · with_reducible assumption
    · with_reducible assumption

theorem endSwitch_apart {s : State} (hP : P = .dist) (h_s : OtherSame P s₀ s) :
    OtherSame P s₀ (endSwitch s) := by
  unfold endSwitch
  apply onRoot_apart
  · with_reducible assumption
  · apply onDist_apart
    · with_reducible assumption
    · with_reducible assumption

theorem stopRealign_apart {s : State} (hP : P = .dist) (h_s : OtherSame P s₀ s) :
    OtherSame P s₀ (stopRealign s) := by
  unfold stopRealign
  apply iteState_apart
  · apply logD_apart
    · with_reducible assumption
    · apply onDist_apart
      · with_reducible assumption
      · with_reducible assumption
  · with_reducible assumption

theorem startSwitch_apart {n : Nat} {keep : Bool} {s : State} (hP : P = .dist) (h_s : OtherSame P s₀ s) :
    OtherSame P s₀ (startSwitch n keep s) := by
  unfold startSwitch
  extract_lets v13 v14
  have h15 : OtherSame P s₀ v13 := by
    apply stopRealign_apart
    · with_reducible assumption
    · with_reducible assumption
  clear_value v13
  have h16 : OtherSame P s₀ v14 := by
    apply iteState_apart
    · with_reducible assumption
    · apply rootWord_apart
      · with_reducible assumption
      · with_reducible assumption
  clear_value v14
  apply onRoot_apart
  · with_reducible assumption
  · apply onDist_apart
    · with_reducible assumption
    · with_reducible assumption

theorem loseRoot_apart {s : State} (hP : P = .dist) (h_s : OtherSame P s₀ s) :
    OtherSame P s₀ (loseRoot s) := by
  unfold loseRoot
  extract_lets v17 v18 v19 v20 v21 v22 v23 v24 v25 v26
  have h28 : OtherSame P s₀ v20 := by
    apply endSwitch_apart
    · with_reducible assumption
    · apply onDist_apart
      · with_reducible assumption
      · apply stopRealign_apart
        · with_reducible assumption
        · with_reducible assumption
  clear_value v20
  have h29 : OtherSame P s₀ v23 := by
    apply onDist_apart
    · with_reducible assumption
    · with_reducible assumption
  clear_value v23
  have h30 : OtherSame P s₀ v24 := by
    apply iteState_apart
    · apply logD_apart
      · with_reducible assumption
      · with_reducible assumption
    · with_reducible assumption
  clear_value v24
  apply iteState_apart
  · apply setRoot_apart
    · with_reducible assumption
    · apply rootWord_apart
      · with_reducible assumption
      · with_reducible assumption
  · apply setRoot_apart
    · with_reducible assumption
    · apply onRoot_apart
      · with_reducible assumption
      · with_reducible assumption

theorem noteElig_apart {n : Nat} {s : State} (hP : P = .dist) (h_s : OtherSame P s₀ s) :
    OtherSame P s₀ (noteElig n s) := by
  unfold noteElig
  extract_lets v31 v32
  have h33 : OtherSame P s₀ v32 := by
    apply iteState_apart
    · apply onDist_apart
      · with_reducible assumption
      · with_reducible assumption
    · with_reducible assumption
  clear_value v32
  apply onSrc_apart
  · with_reducible assumption
  · with_reducible assumption

theorem choose_apart {s : State} (hP : P = .dist) (h_s : OtherSame P s₀ s) :
    OtherSame P s₀ (choose s) := by
  unfold choose
  extract_lets v34 v35 v36 v37 v38
  have h40 : OtherSame P s₀ v37 := by
    apply logD_apart
    · with_reducible assumption
    · apply endSwitch_apart
      · with_reducible assumption
      · with_reducible assumption
  clear_value v37
  apply iteState_apart
  · apply iteState_apart
    · with_reducible assumption
    · split
      · apply startSwitch_apart
        · with_reducible assumption
        · with_reducible assumption
      · apply loseRoot_apart
        · with_reducible assumption
        · with_reducible assumption
  · apply iteState_apart
    · split
      · apply startSwitch_apart
        · with_reducible assumption
        · apply setRoot_apart
          · with_reducible assumption
          · with_reducible assumption
      · with_reducible assumption
    · split
      · apply iteState_apart
        · apply startSwitch_apart
          · with_reducible assumption
          · with_reducible assumption
        · apply iteState_apart
          · apply startSwitch_apart
            · with_reducible assumption
            · with_reducible assumption
          · with_reducible assumption
      · apply iteState_apart
        · apply loseRoot_apart
          · with_reducible assumption
          · with_reducible assumption
        · with_reducible assumption

theorem reselect_apart {s : State} (hP : P = .dist) (h_s : OtherSame P s₀ s) :
    OtherSame P s₀ (reselect s) := by
  unfold reselect
  apply choose_apart
  · with_reducible assumption
  · apply foldState_apart
    · intro z41 z42 h43
      apply noteElig_apart
      · with_reducible assumption
      · with_reducible assumption
    · with_reducible assumption

theorem disqualify_apart {n : Nat} {cause : Nat} {s : State} (hP : P = .dist) (h_s : OtherSame P s₀ s) :
    OtherSame P s₀ (disqualify n cause s) := by
  unfold disqualify
  extract_lets v44 v45 v46
  have h47 : OtherSame P s₀ v44 := by
    apply onSrc_apart
    · with_reducible assumption
    · with_reducible assumption
  clear_value v44
  have h48 : OtherSame P s₀ v46 := by
    apply onDist_apart
    · with_reducible assumption
    · with_reducible assumption
  clear_value v46
  apply iteState_apart
  · apply reselect_apart
    · with_reducible assumption
    · apply onDist_apart
      · with_reducible assumption
      · with_reducible assumption
  · with_reducible assumption

theorem failMonitor_apart {n : Nat} {cause : Nat} {h : Hap} {was : Bool} {f : RefSrc → RefSrc} {s : State} (hP : P = .dist) (h_s : OtherSame P s₀ s) :
    OtherSame P s₀ (failMonitor n cause h was f s) := by
  unfold failMonitor
  extract_lets v49
  have h50 : OtherSame P s₀ v49 := by
    apply onSrc_apart
    · with_reducible assumption
    · with_reducible assumption
  clear_value v49
  apply disqualify_apart
  · with_reducible assumption
  · apply iteState_apart
    · apply logD_apart
      · with_reducible assumption
      · with_reducible assumption
    · with_reducible assumption

theorem restartSrc_apart {n : Nat} {s : State} (hP : P = .dist) (h_s : OtherSame P s₀ s) :
    OtherSame P s₀ (restartSrc n s) := by
  unfold restartSrc
  apply onSrc_apart
  · with_reducible assumption
  · apply disqualify_apart
    · with_reducible assumption
    · with_reducible assumption

theorem ppsPulse_apart {s : State} (hP : P = .dist) (h_s : OtherSame P s₀ s) :
    OtherSame P s₀ (ppsPulse s) := by
  unfold ppsPulse
  extract_lets v51 v52
  have h55 : OtherSame P s₀ v52 := by
    apply onDist_apart
    · with_reducible assumption
    · with_reducible assumption
  clear_value v52
  apply iteState_apart
  · apply onRoot_apart
    · with_reducible assumption
    · apply onDist_apart
      · with_reducible assumption
      · with_reducible assumption
  · with_reducible assumption

theorem rebaseSrc_apart {psi : Int} {n : Nat} {s : State} (hP : P = .dist) (h_s : OtherSame P s₀ s) :
    OtherSame P s₀ (rebaseSrc psi n s) := by
  unfold rebaseSrc
  extract_lets v56
  have h57 : OtherSame P s₀ v56 := by
    apply onSrc_apart
    · with_reducible assumption
    · with_reducible assumption
  clear_value v56
  apply iteState_apart
  · with_reducible assumption
  · apply onDist_apart
    · with_reducible assumption
    · with_reducible assumption

theorem epochTake_apart {s : State} (hP : P = .dist) (h_s : OtherSame P s₀ s) :
    OtherSame P s₀ (epochTake s) := by
  unfold epochTake
  extract_lets v58 v59 v60 v61 v62 v63 v64 v65
  have h66 : OtherSame P s₀ v59 := by
    apply foldState_apart
    · intro z67 z68 h69
      apply rebaseSrc_apart
      · with_reducible assumption
      · with_reducible assumption
    · with_reducible assumption
  clear_value v59
  have h70 : OtherSame P s₀ v60 := by
    apply onRoot_apart
    · with_reducible assumption
    · with_reducible assumption
  clear_value v60
  have h73 : OtherSame P s₀ v64 := by
    apply onDist_apart
    · with_reducible assumption
    · with_reducible assumption
  clear_value v64
  have h74 : OtherSame P s₀ v65 := by
    apply onDist_apart
    · with_reducible assumption
    · with_reducible assumption
  clear_value v65
  apply ppsPulse_apart
  · with_reducible assumption
  · apply onRoot_apart
    · with_reducible assumption
    · with_reducible assumption

theorem rootServo_apart {n : Nat} {phi : Int} {s : State} (hP : P = .dist) (h_s : OtherSame P s₀ s) :
    OtherSame P s₀ (rootServo n phi s) := by
  unfold rootServo
  extract_lets v75 v76 v77 v78 v79 v80 v81 v82
  have h83 : OtherSame P s₀ v80 := by
    apply onRoot_apart
    · with_reducible assumption
    · with_reducible assumption
  clear_value v80
  have h84 : OtherSame P s₀ v81 := by
    apply onDist_apart
    · with_reducible assumption
    · with_reducible assumption
  clear_value v81
  apply rootWord_apart
  · with_reducible assumption
  · with_reducible assumption

theorem refMark_apart {n : Nat} {phi : Int} {s : State} (hP : P = .dist) (h_s : OtherSame P s₀ s) :
    OtherSame P s₀ (refMark n phi s) := by
  unfold refMark
  extract_lets v85 v86 v87 v88 v89 v90 v91 v92
  have h94 : OtherSame P s₀ v91 := by
    apply onDist_apart
    · with_reducible assumption
    · with_reducible assumption
  clear_value v91
  have h95 : OtherSame P s₀ v92 := by
    apply onSrc_apart
    · with_reducible assumption
    · with_reducible assumption
  clear_value v92
  apply iteState_apart
  · apply failMonitor_apart
    · with_reducible assumption
    · with_reducible assumption
  · apply iteState_apart
    · apply iteState_apart
      · apply onRoot_apart
        · with_reducible assumption
        · with_reducible assumption
      · with_reducible assumption
    · apply iteState_apart
      · apply rootServo_apart
        · with_reducible assumption
        · with_reducible assumption
      · with_reducible assumption

theorem refMarkOp_apart {n : Nat} {falling : Bool} {frac : Nat} {s : State} (hP : P = .dist) (h_s : OtherSame P s₀ s) :
    OtherSame P s₀ (refMarkOp n falling frac s) := by
  unfold refMarkOp
  extract_lets v96
  apply iteState_apart
  · with_reducible assumption
  · apply iteState_apart
    · apply onRoot_apart
      · with_reducible assumption
      · apply setBuildout_apart
        · with_reducible assumption
        · apply epochTake_apart
          · with_reducible assumption
          · apply refMark_apart
            · with_reducible assumption
            · with_reducible assumption
    · apply refMark_apart
      · with_reducible assumption
      · with_reducible assumption

theorem commitOp_apart {s : State} (hP : P = .dist) (h_s : OtherSame P s₀ s) :
    OtherSame P s₀ (commitOp s) := by
  unfold commitOp
  extract_lets v98 v99 v100 v101 v102 v103 v104
  have h106 : OtherSame P s₀ v102 := by
    apply endSwitch_apart
    · with_reducible assumption
    · apply setBuildout_apart
      · with_reducible assumption
      · with_reducible assumption
  clear_value v102
  have h107 : OtherSame P s₀ v103 := by
    apply onDist_apart
    · with_reducible assumption
    · with_reducible assumption
  clear_value v103
  have h108 : OtherSame P s₀ v104 := by
    apply onRoot_apart
    · with_reducible assumption
    · with_reducible assumption
  clear_value v104
  apply iteState_apart
  · apply logD_apart
    · with_reducible assumption
    · with_reducible assumption
  · with_reducible assumption

theorem afterCommit_apart {s : State} (hP : P = .dist) (h_s : OtherSame P s₀ s) :
    OtherSame P s₀ (afterCommit s) := by
  unfold afterCommit
  split
  · apply iteState_apart
    · apply choose_apart
      · with_reducible assumption
      · apply onRoot_apart
        · with_reducible assumption
        · with_reducible assumption
    · with_reducible assumption
  · with_reducible assumption

theorem realignOp_apart {s : State} (hP : P = .dist) (h_s : OtherSame P s₀ s) :
    OtherSame P s₀ (realignOp s) := by
  unfold realignOp
  extract_lets v109
  apply iteState_apart
  · apply logD_apart
    · with_reducible assumption
    · with_reducible assumption
  · apply onDist_apart
    · with_reducible assumption
    · with_reducible assumption

theorem voteSrc_apart {n : Nat} {soft : Bool} {hard : Bool} {s : State} (hP : P = .dist) (h_s : OtherSame P s₀ s) :
    OtherSame P s₀ (voteSrc n soft hard s) := by
  unfold voteSrc
  extract_lets v111 v112 v113
  have h114 : OtherSame P s₀ v112 := by
    apply onSrc_apart
    · with_reducible assumption
    · with_reducible assumption
  clear_value v112
  have h115 : OtherSame P s₀ v113 := by
    apply iteState_apart
    · apply logD_apart
      · with_reducible assumption
      · apply onDist_apart
        · with_reducible assumption
        · with_reducible assumption
    · with_reducible assumption
  clear_value v113
  apply iteState_apart
  · apply failMonitor_apart
    · with_reducible assumption
    · with_reducible assumption
  · apply iteState_apart
    · with_reducible assumption
    · apply onSrc_apart
      · with_reducible assumption
      · with_reducible assumption

theorem driftVote_apart {s : State} (hP : P = .dist) (h_s : OtherSame P s₀ s) :
    OtherSame P s₀ (driftVote s) := by
  unfold driftVote
  extract_lets v116 v117 v118 v119 v120 v121 v122 v123 v124 v125 v126 v127 v128 v129 v130
  have h132 : OtherSame P s₀ v126 := by
    apply onDist_apart
    · with_reducible assumption
    · with_reducible assumption
  clear_value v126
  have h133 : ∀ z0, OtherSame P s₀ z0 → OtherSame P s₀ (v127 z0) := by
    intro z134 h135
    dsimp only [v127]
    apply onDist_apart
    · with_reducible assumption
    · with_reducible assumption
  clear_value v127
  have h136 : OtherSame P s₀ v128 := by
    apply iteState_apart
    · apply logD_apart
      · with_reducible assumption
      · apply h133
        with_reducible assumption
    · with_reducible assumption
  clear_value v128
  have h137 : OtherSame P s₀ v129 := by
    apply iteState_apart
    · apply logD_apart
      · with_reducible assumption
      · apply h133
        with_reducible assumption
    · with_reducible assumption
  clear_value v129
  have h138 : OtherSame P s₀ v130 := by
    apply onRoot_apart
    · with_reducible assumption
    · with_reducible assumption
  clear_value v130
  apply foldState_apart
  · intro z139 z140 h141
    apply voteSrc_apart
    · with_reducible assumption
    · with_reducible assumption
  · with_reducible assumption

theorem freqMonitor_apart {n : Nat} {count : Nat} {s : State} (hP : P = .dist) (h_s : OtherSame P s₀ s) :
    OtherSame P s₀ (freqMonitor n count s) := by
  unfold freqMonitor
  extract_lets v142 v143 v144 v145 v146 v147 v148
  have h150 : OtherSame P s₀ v147 := by
    apply onDist_apart
    · with_reducible assumption
    · with_reducible assumption
  clear_value v147
  have h151 : OtherSame P s₀ v148 := by
    apply onSrc_apart
    · with_reducible assumption
    · with_reducible assumption
  clear_value v148
  apply iteState_apart
  · apply iteState_apart
    · apply iteState_apart
      · apply failMonitor_apart
        · with_reducible assumption
        · with_reducible assumption
      · apply onSrc_apart
        · with_reducible assumption
        · with_reducible assumption
    · apply onSrc_apart
      · with_reducible assumption
      · with_reducible assumption
  · with_reducible assumption

theorem recordSecond_apart {elapsed : Nat} {s : State} (hP : P = .dist) (h_s : OtherSame P s₀ s) :
    OtherSame P s₀ (recordSecond elapsed s) := by
  unfold recordSecond
  extract_lets v152 v153 v154 v155
  apply onRoot_apart
  · with_reducible assumption
  · with_reducible assumption

theorem lockCheck_apart {s : State} (hP : P = .dist) (h_s : OtherSame P s₀ s) :
    OtherSame P s₀ (lockCheck s) := by
  unfold lockCheck
  extract_lets v156 v157 v158 v159 v160 v161 v162 v163
  have h165 : OtherSame P s₀ v161 := by
    apply onRoot_apart
    · with_reducible assumption
    · with_reducible assumption
  clear_value v161
  have h166 : OtherSame P s₀ v163 := by
    apply onRoot_apart
    · with_reducible assumption
    · with_reducible assumption
  clear_value v163
  apply iteState_apart
  · with_reducible assumption
  · apply iteState_apart
    · apply iteState_apart
      · apply setRoot_apart
        · with_reducible assumption
        · with_reducible assumption
      · with_reducible assumption
    · apply iteState_apart
      · apply iteState_apart
        · apply setRoot_apart
          · with_reducible assumption
          · with_reducible assumption
        · with_reducible assumption
      · with_reducible assumption

theorem serveSrc_apart {n : Nat} {s : State} (hP : P = .dist) (h_s : OtherSame P s₀ s) :
    OtherSame P s₀ (serveSrc n s) := by
  unfold serveSrc
  extract_lets v167
  apply onSrc_apart
  · with_reducible assumption
  · with_reducible assumption

theorem holdSecond_apart {s : State} (hP : P = .dist) (h_s : OtherSame P s₀ s) :
    OtherSame P s₀ (holdSecond s) := by
  unfold holdSecond
  extract_lets v168 v169 v170 v171 v172 v173
  have h175 : OtherSame P s₀ v173 := by
    apply onDist_apart
    · with_reducible assumption
    · with_reducible assumption
  clear_value v173
  apply iteState_apart
  · apply rootWord_apart
    · with_reducible assumption
    · with_reducible assumption
  · with_reducible assumption

theorem realignSecond_apart {s : State} (hP : P = .dist) (h_s : OtherSame P s₀ s) :
    OtherSame P s₀ (realignSecond s) := by
  unfold realignSecond
  extract_lets v176 v177 v178 v179
  have h181 : OtherSame P s₀ v179 := by
    apply setBuildout_apart
    · with_reducible assumption
    · with_reducible assumption
  clear_value v179
  apply iteState_apart
  · apply iteState_apart
    · apply logD_apart
      · with_reducible assumption
      · apply onDist_apart
        · with_reducible assumption
        · with_reducible assumption
    · with_reducible assumption
  · with_reducible assumption

theorem rootSecond_apart {c0 : Nat} {c1 : Nat} {c2 : Nat} {c3 : Nat} {elapsed : Nat} {s : State} (hP : P = .dist) (h_s : OtherSame P s₀ s) :
    OtherSame P s₀ (rootSecond c0 c1 c2 c3 elapsed s) := by
  unfold rootSecond
  extract_lets v182 v183 v184 v185 v186
  have h187 : OtherSame P s₀ v182 := by
    apply freqMonitor_apart
    · with_reducible assumption
    · apply freqMonitor_apart
      · with_reducible assumption
      · apply freqMonitor_apart
        · with_reducible assumption
        · apply freqMonitor_apart
          · with_reducible assumption
          · with_reducible assumption
  clear_value v182
  have h188 : OtherSame P s₀ v183 := by
    apply recordSecond_apart
    · with_reducible assumption
    · with_reducible assumption
  clear_value v183
  have h189 : OtherSame P s₀ v184 := by
    apply lockCheck_apart
    · with_reducible assumption
    · with_reducible assumption
  clear_value v184
  have h190 : OtherSame P s₀ v185 := by
    apply foldState_apart
    · intro z191 z192 h193
      apply serveSrc_apart
      · with_reducible assumption
      · with_reducible assumption
    · with_reducible assumption
  clear_value v185
  have h194 : OtherSame P s₀ v186 := by
    apply driftVote_apart
    · with_reducible assumption
    · apply noteAge_apart
      · with_reducible assumption
      · with_reducible assumption
  clear_value v186
  apply reselect_apart
  · with_reducible assumption
  · apply realignSecond_apart
    · with_reducible assumption
    · apply holdSecond_apart
      · with_reducible assumption
      · with_reducible assumption

theorem ifRoot_apart {f : State → State} {s : State}  (h_f : ∀  z, OtherSame P s₀ z → OtherSame P s₀ (f  z)) (h_s : OtherSame P s₀ s) :
    OtherSame P s₀ (ifRoot f s) := by
  unfold ifRoot
  apply iteState_apart
  · apply ifDistRuns_apart
    · with_reducible assumption
    · with_reducible assumption
  · with_reducible assumption

end Sys2Proof.Machine
end

