-- ==== Sys2Proof/Laws/ApartPtp.lean ====
section
/-! SUPPORT. The operations of Machine/Ptp.lean act at one part and leave the other as it is. -/

namespace Sys2Proof.Machine

variable {P : Part} {s₀ : State}

theorem onPtp_apart {f : Ptp → Ptp} {s : State} (hP : P = .dist) (h_s : OtherSame P s₀ s) :
    OtherSame P s₀ (onPtp f s) := by
  unfold onPtp
  apply onDist_apart
  · with_reducible assumption
  · with_reducible assumption

theorem ptpDiscard_apart {s : State} (hP : P = .dist) (h_s : OtherSame P s₀ s) :
    OtherSame P s₀ (ptpDiscard s) := by
  unfold ptpDiscard
  apply onDist_apart
  · with_reducible assumption
  · with_reducible assumption

theorem chooseMaster_apart {s : State} (hP : P = .dist) (h_s : OtherSame P s₀ s) :
    OtherSame P s₀ (chooseMaster s) := by
  unfold chooseMaster
  extract_lets v0 v1 v2 v3
  have h4 : OtherSame P s₀ v2 := by
    apply onPtp_apart
    · with_reducible assumption
    · with_reducible assumption
  clear_value v2
  apply iteState_apart
  · with_reducible assumption
  · apply onDist_apart
    · with_reducible assumption
    · with_reducible assumption

theorem announceOp_apart {h : PtpHdr} {a : PtpAnn} {s : State} (hP : P = .dist) (h_s : OtherSame P s₀ s) :
    OtherSame P s₀ (announceOp h a s) := by
  unfold announceOp
  extract_lets v5 v6
  have h7 : OtherSame P s₀ v6 := by
    apply onDist_apart
    · with_reducible assumption
    · with_reducible assumption
  clear_value v6
  apply iteState_apart
  · apply ptpDiscard_apart
    · with_reducible assumption
    · with_reducible assumption
  · apply chooseMaster_apart
    · with_reducible assumption
    · apply onPtp_apart
      · with_reducible assumption
      · with_reducible assumption

theorem syncDone_apart {t1 : Int} {t2 : Int} {corr : Int} {s : State} (hP : P = .dist) (h_s : OtherSame P s₀ s) :
    OtherSame P s₀ (syncDone t1 t2 corr s) := by
  unfold syncDone
  apply onSrc_apart
  · with_reducible assumption
  · apply onPtp_apart
    · with_reducible assumption
    · with_reducible assumption

theorem ptpSyncOp_apart {h : PtpHdr} {twoStep : Bool} {origin : PtpTime} {s : State} (hP : P = .dist) (h_s : OtherSame P s₀ s) :
    OtherSame P s₀ (ptpSyncOp h twoStep origin s) := by
  unfold ptpSyncOp
  extract_lets v8 v9 v10 v11 v12
  have h15 : OtherSame P s₀ v11 := by
    apply onDist_apart
    · with_reducible assumption
    · with_reducible assumption
  clear_value v11
  have h16 : OtherSame P s₀ v12 := by
    apply onPtp_apart
    · with_reducible assumption
    · with_reducible assumption
  clear_value v12
  apply iteState_apart
  · apply ptpDiscard_apart
    · with_reducible assumption
    · with_reducible assumption
  · apply iteState_apart
    · apply iteState_apart
      · apply onPtp_apart
        · with_reducible assumption
        · with_reducible assumption
      · apply syncDone_apart
        · with_reducible assumption
        · with_reducible assumption
    · with_reducible assumption

theorem followUpOp_apart {h : PtpHdr} {origin : PtpTime} {s : State} (hP : P = .dist) (h_s : OtherSame P s₀ s) :
    OtherSame P s₀ (followUpOp h origin s) := by
  unfold followUpOp
  apply iteState_apart
  · apply ptpDiscard_apart
    · with_reducible assumption
    · with_reducible assumption
  · apply iteState_apart
    · split
      · apply iteState_apart
        · apply syncDone_apart
          · with_reducible assumption
          · with_reducible assumption
        · with_reducible assumption
      · with_reducible assumption
    · with_reducible assumption

theorem delayReqOp_apart {s : State} (hP : P = .dist) (h_s : OtherSame P s₀ s) :
    OtherSame P s₀ (delayReqOp s) := by
  unfold delayReqOp
  extract_lets v17 v18 v19 v20 v21 v22
  have h25 : OtherSame P s₀ v22 := by
    apply onPtp_apart
    · with_reducible assumption
    · with_reducible assumption
  clear_value v22
  apply iteState_apart
  · apply onDist_apart
    · with_reducible assumption
    · with_reducible assumption
  · with_reducible assumption

theorem delayRespOp_apart {h : PtpHdr} {rx : PtpTime} {mine : Bool} {s : State} (hP : P = .dist) (h_s : OtherSame P s₀ s) :
    OtherSame P s₀ (delayRespOp h rx mine s) := by
  unfold delayRespOp
  extract_lets v26
  apply iteState_apart
  · apply ptpDiscard_apart
    · with_reducible assumption
    · with_reducible assumption
  · apply iteState_apart
    · split
      · extract_lets v27 v28 v29
        have h30 : OtherSame P s₀ v29 := by
          apply onPtp_apart
          · with_reducible assumption
          · with_reducible assumption
        clear_value v29
        apply iteState_apart
        · apply onDist_apart
          · with_reducible assumption
          · with_reducible assumption
        · with_reducible assumption
      · with_reducible assumption
    · with_reducible assumption

theorem activityOp_apart {s : State} (hP : P = .dist) (h_s : OtherSame P s₀ s) :
    OtherSame P s₀ (activityOp s) := by
  unfold activityOp
  extract_lets v31 v32 v33 v34 v35
  have h36 : OtherSame P s₀ v35 := by
    apply onPtp_apart
    · with_reducible assumption
    · with_reducible assumption
  clear_value v35
  split
  · extract_lets v37 v38
    have h39 : OtherSame P s₀ v38 := by
      apply iteState_apart
      · apply failMonitor_apart
        · with_reducible assumption
        · with_reducible assumption
      · with_reducible assumption
    clear_value v38
    apply chooseMaster_apart
    · with_reducible assumption
    · with_reducible assumption
  · with_reducible assumption

theorem ptpSecond_apart {s : State} (hP : P = .dist) (h_s : OtherSame P s₀ s) :
    OtherSame P s₀ (ptpSecond s) := by
  unfold ptpSecond
  split
  · extract_lets v40 v41
    apply iteState_apart
    · apply refMark_apart
      · with_reducible assumption
      · apply onPtp_apart
        · with_reducible assumption
        · with_reducible assumption
    · with_reducible assumption
  · with_reducible assumption

theorem ptpRestart_apart {s : State} (hP : P = .dist) (h_s : OtherSame P s₀ s) :
    OtherSame P s₀ (ptpRestart s) := by
  unfold ptpRestart
  extract_lets v42
  have h43 : OtherSame P s₀ v42 := by
    apply failMonitor_apart
    · with_reducible assumption
    · with_reducible assumption
  clear_value v42
  apply restartSrc_apart
  · with_reducible assumption
  · apply chooseMaster_apart
    · with_reducible assumption
    · apply onPtp_apart
      · with_reducible assumption
      · with_reducible assumption

theorem secondOp_apart {c0 : Nat} {c1 : Nat} {c2 : Nat} {c3 : Nat} {s : State} (hP : P = .dist) (h_s : OtherSame P s₀ s) :
    OtherSame P s₀ (secondOp c0 c1 c2 c3 s) := by
  unfold secondOp
  extract_lets v44 v45 v46
  have h48 : OtherSame P s₀ v46 := by
    apply ppsPulse_apart
    · with_reducible assumption
    · apply onRoot_apart
      · with_reducible assumption
      · with_reducible assumption
  clear_value v46
  apply iteState_apart
  · apply iteState_apart
    · apply rootSecond_apart
      · with_reducible assumption
      · apply ptpSecond_apart
        · with_reducible assumption
        · with_reducible assumption
    · with_reducible assumption
  · with_reducible assumption

theorem ifPtp_apart {f : State → State} {s : State}  (h_f : ∀  z, OtherSame P s₀ z → OtherSame P s₀ (f  z)) (h_s : OtherSame P s₀ s) :
    OtherSame P s₀ (ifPtp f s) := by
  unfold ifPtp
  apply ifRoot_apart
  · intro z49 h50
    apply iteState_apart
    · apply h_f
      with_reducible assumption
    · with_reducible assumption
  · with_reducible assumption

theorem ifDistCounts_apart {f : State → State} {s : State}  (h_f : ∀  z, OtherSame P s₀ z → OtherSame P s₀ (f  z)) (h_s : OtherSame P s₀ s) :
    OtherSame P s₀ (ifDistCounts f s) := by
  unfold ifDistCounts
  apply iteState_apart
  · with_reducible assumption
  · apply ifDist_apart
    · with_reducible assumption
    · with_reducible assumption

end Sys2Proof.Machine
end

