-- ==== Sys2Proof/Laws/ApartCalib.lean ====
section
/-! SUPPORT. The operations of Machine/Calib.lean act at one part and leave the other as it is. -/

namespace Sys2Proof.Machine

variable {P : Part} {s₀ : State}

theorem onCal_apart {f : Calib → Calib} {s : State} (hP : P = .dist) (h_s : OtherSame P s₀ s) :
    OtherSame P s₀ (onCal f s) := by
  unfold onCal
  apply onDist_apart
  · with_reducible assumption
  · with_reducible assumption

theorem calUnsolved_apart {n : Nat} {s : State} (hP : P = .dist) (h_s : OtherSame P s₀ s) :
    OtherSame P s₀ (calUnsolved n s) := by
  unfold calUnsolved
  extract_lets v0
  apply iteState_apart
  · with_reducible assumption
  · apply onDist_apart
    · with_reducible assumption
    · with_reducible assumption

theorem calMove_apart {n : Nat} {goal : Int} {s : State} (hP : P = .dist) (h_s : OtherSame P s₀ s) :
    OtherSame P s₀ (calMove n goal s) := by
  unfold calMove
  extract_lets v1 v2 v3 v4 v5
  have h6 : OtherSame P s₀ v1 := by
    apply calUnsolved_apart
    · with_reducible assumption
    · with_reducible assumption
  clear_value v1
  have h7 : OtherSame P s₀ v5 := by
    apply onDist_apart
    · with_reducible assumption
    · with_reducible assumption
  clear_value v5
  apply iteState_apart
  · with_reducible assumption
  · apply onDist_apart
    · with_reducible assumption
    · with_reducible assumption

theorem calRank_apart {s : State} (hP : P = .dist) (h_s : OtherSame P s₀ s) :
    OtherSame P s₀ (calRank s) := by
  unfold calRank
  apply iteState_apart
  · with_reducible assumption
  · apply logD_apart
    · with_reducible assumption
    · apply onDist_apart
      · with_reducible assumption
      · with_reducible assumption

theorem calApply_apart {au : Int} {ar : Int} {s : State} (hP : P = .dist) (h_s : OtherSame P s₀ s) :
    OtherSame P s₀ (calApply au ar s) := by
  unfold calApply
  extract_lets v8 v9 v10 v11
  have h13 : OtherSame P s₀ v11 := by
    apply calMove_apart
    · with_reducible assumption
    · apply calMove_apart
      · with_reducible assumption
      · with_reducible assumption
  clear_value v11
  apply iteState_apart
  · with_reducible assumption
  · apply calMove_apart
    · with_reducible assumption
    · with_reducible assumption

theorem calSolve_apart {s : State} (hP : P = .dist) (h_s : OtherSame P s₀ s) :
    OtherSame P s₀ (calSolve s) := by
  unfold calSolve
  extract_lets v14 v15 v16 v17 v18 v19 v20 v21 v22
  have h23 : OtherSame P s₀ v14 := by
    apply foldState_apart
    · intro z24 z25 h26
      apply calUnsolved_apart
      · with_reducible assumption
      · with_reducible assumption
    · with_reducible assumption
  clear_value v14
  have h28 : OtherSame P s₀ v16 := by
    apply onDist_apart
    · with_reducible assumption
    · with_reducible assumption
  clear_value v16
  have h29 : OtherSame P s₀ v19 := by
    apply onDist_apart
    · with_reducible assumption
    · with_reducible assumption
  clear_value v19
  have h30 : ∀ z0, OtherSame P s₀ z0 → OtherSame P s₀ (v20 z0) := by
    intro z31 h32
    dsimp only [v20]
    apply onDist_apart
    · with_reducible assumption
    · with_reducible assumption
  clear_value v20
  have h33 : OtherSame P s₀ v22 := by
    apply onDist_apart
    · with_reducible assumption
    · apply h30
      with_reducible assumption
  clear_value v22
  split
  · apply calRank_apart
    · with_reducible assumption
    · with_reducible assumption
  · extract_lets v34 v35 v36 v37 v38 v39
    have h40 : OtherSame P s₀ v39 := by
      apply onDist_apart
      · with_reducible assumption
      · apply h30
        with_reducible assumption
    clear_value v39
    apply iteState_apart
    · apply iteState_apart
      · apply logD_apart
        · with_reducible assumption
        · apply onDist_apart
          · with_reducible assumption
          · with_reducible assumption
      · apply calApply_apart
        · with_reducible assumption
        · with_reducible assumption
    · apply iteState_apart
      · apply iteState_apart
        · apply calApply_apart
          · with_reducible assumption
          · with_reducible assumption
        · apply iteState_apart
          · apply calApply_apart
            · with_reducible assumption
            · with_reducible assumption
          · apply calApply_apart
            · with_reducible assumption
            · with_reducible assumption
      · apply calRank_apart
        · with_reducible assumption
        · with_reducible assumption

theorem calNote_apart {s : State} (hP : P = .dist) (h_s : OtherSame P s₀ s) :
    OtherSame P s₀ (calNote s) := by
  unfold calNote
  extract_lets v41 v42 v43 v44
  apply onDist_apart
  · with_reducible assumption
  · with_reducible assumption

theorem calSend_apart {s : State} (hP : P = .dist) (h_s : OtherSame P s₀ s) :
    OtherSame P s₀ (calSend s) := by
  unfold calSend
  extract_lets v46 v47 v48 v49 v50 v51
  have h53 : OtherSame P s₀ v51 := by
    apply ropeSend_apart
    · with_reducible assumption
    · with_reducible assumption
  clear_value v51
  apply iteState_apart
  · with_reducible assumption
  · apply onCal_apart
    · with_reducible assumption
    · with_reducible assumption

theorem calPeriodOp_apart {s : State} (hP : P = .dist) (h_s : OtherSame P s₀ s) :
    OtherSame P s₀ (calPeriodOp s) := by
  unfold calPeriodOp
  extract_lets v54 v55
  have h57 : OtherSame P s₀ v55 := by
    apply onCal_apart
    · with_reducible assumption
    · with_reducible assumption
  clear_value v55
  apply iteState_apart
  · apply calNote_apart
    · with_reducible assumption
    · apply iteState_apart
      · apply foldState_apart
        · intro z58 z59 h60
          apply calUnsolved_apart
          · with_reducible assumption
          · with_reducible assumption
        · with_reducible assumption
      · apply calSolve_apart
        · with_reducible assumption
        · apply calSend_apart
          · with_reducible assumption
          · with_reducible assumption
  · with_reducible assumption

end Sys2Proof.Machine
end

