-- ==== Sys2Proof/Laws/ApartHooks.lean ====
section
/-! SUPPORT. The operations of Machine/Hooks.lean act at one part and leave the other as it is. -/

namespace Sys2Proof.Machine

variable {P : Part} {s₀ : State}

theorem healthUp_apart {body : BitVec 64} {s : State} (hP : P = .dist) (h_s : OtherSame P s₀ s) :
    OtherSame P s₀ (healthUp body s) := by
  unfold healthUp
  apply sendSeq_apart
  · exact (portPart_distRef _).trans hP.symm
  · with_reducible assumption

theorem dupId_apart {uid : Nat} {n : Nat} {s : State} (hP : P = .dist) (h_s : OtherSame P s₀ s) :
    OtherSame P s₀ (dupId uid n s) := by
  unfold dupId
  apply logD_apart
  · with_reducible assumption
  · apply onDist_apart
    · with_reducible assumption
    · with_reducible assumption

theorem idAdmitted_apart {uid : Nat} {n : Nat} {s : State} (hP : P = .dist) (h_s : OtherSame P s₀ s) :
    OtherSame P s₀ (idAdmitted uid n s).2 := by
  unfold idAdmitted
  split
  · dsimp only
    apply dupId_apart
    · with_reducible assumption
    · with_reducible assumption
  · dsimp only
    apply onDist_apart
    · with_reducible assumption
    · with_reducible assumption

theorem idWithdrawn_apart {uid : Nat} {n : Nat} {s : State} (hP : P = .dist) (h_s : OtherSame P s₀ s) :
    OtherSame P s₀ (idWithdrawn uid n s) := by
  unfold idWithdrawn
  apply onDist_apart
  · with_reducible assumption
  · with_reducible assumption

theorem ropeEnd_apart {s : State} (hP : P = .dist) (h_s : OtherSame P s₀ s) :
    OtherSame P s₀ (ropeEnd s) := by
  unfold ropeEnd
  extract_lets v0 v1 v2
  have h3 : OtherSame P s₀ v0 := by
    apply onDist_apart
    · with_reducible assumption
    · with_reducible assumption
  clear_value v0
  have h4 : OtherSame P s₀ v1 := by
    apply iteState_apart
    · apply logD_apart
      · with_reducible assumption
      · apply onDist_apart
        · with_reducible assumption
        · with_reducible assumption
    · with_reducible assumption
  clear_value v1
  have h5 : OtherSame P s₀ v2 := by
    apply foldState_apart
    · intro z6 z7 h8
      apply resolveAbsent_apart
      · with_reducible assumption
      · with_reducible assumption
    · with_reducible assumption
  clear_value v2
  apply censusAll_apart
  · with_reducible assumption
  · apply distSettleAll_apart
    · with_reducible assumption
    · with_reducible assumption

theorem ropeStart_apart {s : State} (hP : P = .dist) (h_s : OtherSame P s₀ s) :
    OtherSame P s₀ (ropeStart s) := by
  unfold ropeStart
  extract_lets v9 v10
  have h11 : OtherSame P s₀ v9 := by
    apply onDist_apart
    · with_reducible assumption
    · with_reducible assumption
  clear_value v9
  have h12 : OtherSame P s₀ v10 := by
    apply iteState_apart
    · apply onDist_apart
      · with_reducible assumption
      · with_reducible assumption
    · with_reducible assumption
  clear_value v10
  apply foldState_apart
  · intro z13 z14 h15
    apply subscribe_apart
    · with_reducible assumption
    · with_reducible assumption
  · apply sendSyncBase_apart
    · with_reducible assumption
    · with_reducible assumption

theorem rechoose_apart {s : State} (hP : P = .dist) (h_s : OtherSame P s₀ s) :
    OtherSame P s₀ (rechoose s) := by
  unfold rechoose
  extract_lets v16
  apply iteState_apart
  · with_reducible assumption
  · apply iteState_apart
    · apply setSts_apart
      · exact hP.symm
      · with_reducible assumption
    · apply iteState_apart
      · apply setSts_apart
        · exact hP.symm
        · with_reducible assumption
      · with_reducible assumption

theorem rootLost_apart {s : State} (hP : P = .dist) (h_s : OtherSame P s₀ s) :
    OtherSame P s₀ (rootLost s) := by
  unfold rootLost
  extract_lets v17
  have h18 : OtherSame P s₀ v17 := by
    apply logD_apart
    · with_reducible assumption
    · with_reducible assumption
  clear_value v17
  apply iteState_apart
  · apply iteState_apart
    · apply sendReport_apart
      · exact (portPart_distRef _).trans hP.symm
      · with_reducible assumption
    · with_reducible assumption
  · with_reducible assumption

theorem downGone_apart {n : Nat} {old : LinkPort} {s : State} (hP : P = .dist) (h_s : OtherSame P s₀ s) :
    OtherSame P s₀ (downGone n old s) := by
  unfold downGone
  extract_lets v19 v20 v21
  have h22 : OtherSame P s₀ v19 := by
    apply onPort_apart
    · exact (portPart_distRef _).trans hP.symm
    · with_reducible assumption
  clear_value v19
  have h23 : OtherSame P s₀ v21 := by
    apply iteState_apart
    · with_reducible assumption
    · apply iteState_apart
      · apply idWithdrawn_apart
        · with_reducible assumption
        · with_reducible assumption
      · apply healthUp_apart
        · with_reducible assumption
        · with_reducible assumption
  clear_value v21
  apply portAbsent_apart
  · with_reducible assumption
  · with_reducible assumption

theorem portGone_apart {p0 : PortRef} {old : LinkPort} {s : State} (hP : portPart p0 = P) (h_s : OtherSame P s₀ s) :
    OtherSame P s₀ (portGone p0 old s) := by
  unfold portGone
  apply iteState_apart
  · with_reducible assumption
  · split
    · apply unitFsm_apart
      · exact hP.symm
      · apply sourceFails_apart
        · assumption
        · with_reducible assumption
    · extract_lets v24
      have h25 : OtherSame P s₀ v24 := by
        apply ropeLeave_apart
        · exact hP.symm
        · apply relayDrop_apart
          · exact hP.symm
          · with_reducible assumption
      clear_value v24
      apply iteState_apart
      · apply downGone_apart
        · exact hP.symm
        · with_reducible assumption
      · apply iteState_apart
        · apply rootLost_apart
          · exact hP.symm
          · apply rechoose_apart
            · exact hP.symm
            · apply sourceFails_apart
              · assumption
              · apply iteState_apart
                · apply relayDrop_apart
                  · exact hP.symm
                  · with_reducible assumption
                · with_reducible assumption
        · apply iteState_apart
          · with_reducible assumption
          · apply ropeEnd_apart
            · exact hP.symm
            · with_reducible assumption

theorem leaving_apart {p0 : PortRef} {f : State → State} {s : State} (hP : portPart p0 = P) (h_f : ∀  z, OtherSame P s₀ z → OtherSame P s₀ (f  z)) (h_s : OtherSame P s₀ s) :
    OtherSame P s₀ (leaving p0 f s) := by
  unfold leaving
  apply portGone_apart
  · with_reducible assumption
  · apply h_f
    with_reducible assumption

theorem linkDead_apart {p0 : PortRef} {s : State} (hP : portPart p0 = P) (h_s : OtherSame P s₀ s) :
    OtherSame P s₀ (linkDead p0 s) := by
  unfold linkDead
  extract_lets v26 v27
  have h28 : OtherSame P s₀ v27 := by
    apply leaving_apart
    · with_reducible assumption
    · intro z29 h30
      extract_lets v31 v32
      have h33 : OtherSame P s₀ v31 := by
        apply logPort_apart
        · with_reducible assumption
        · with_reducible assumption
      clear_value v31
      have h34 : OtherSame P s₀ v32 := by
        apply scorePort_apart
        · with_reducible assumption
        · with_reducible assumption
      clear_value v32
      apply setLinkState_apart
      · with_reducible assumption
      · apply onPort_apart
        · with_reducible assumption
        · with_reducible assumption
    · with_reducible assumption
  clear_value v27
  split
  · with_reducible assumption
  · apply iteState_apart
    · apply rootLost_apart
      · exact hP.symm
      · with_reducible assumption
    · with_reducible assumption

theorem linkReturn_apart {p0 : PortRef} {s : State} (hP : portPart p0 = P) (h_s : OtherSame P s₀ s) :
    OtherSame P s₀ (linkReturn p0 s) := by
  unfold linkReturn
  apply leaving_apart
  · with_reducible assumption
  · intro z35 h36
    apply setLinkState_apart
    · with_reducible assumption
    · apply onPort_apart
      · with_reducible assumption
      · with_reducible assumption
  · with_reducible assumption

theorem admitPort_apart {p0 : PortRef} {s : State} (hP : portPart p0 = P) (h_s : OtherSame P s₀ s) :
    OtherSame P s₀ (admitPort p0 s) := by
  unfold admitPort
  apply setLinkState_apart
  · with_reducible assumption
  · apply onPort_apart
    · with_reducible assumption
    · with_reducible assumption

theorem compareKey_apart {p0 : PortRef} {h : Hap} {key : Word} {s : State} (hP : portPart p0 = P) (h_s : OtherSame P s₀ s) :
    OtherSame P s₀ (compareKey p0 h key s) := by
  unfold compareKey
  extract_lets v37
  have h38 : OtherSame P s₀ v37 := by
    apply onPort_apart
    · with_reducible assumption
    · with_reducible assumption
  clear_value v37
  apply iteState_apart
  · with_reducible assumption
  · apply logPort_apart
    · with_reducible assumption
    · with_reducible assumption

theorem unitAdmitted_apart {d : Dom} {s : State} (hP : P = .unit) (h_s : OtherSame P s₀ s) :
    OtherSame P s₀ (unitAdmitted d s) := by
  unfold unitAdmitted
  apply unitFsm_apart
  · with_reducible assumption
  · apply restartDiff_apart
    · exact hP.symm
    · apply admitPort_apart
      · exact hP.symm
      · with_reducible assumption

theorem upAdmitted_apart {n : Fin 132} {s : State} (hP : P = .dist) (h_s : OtherSame P s₀ s) :
    OtherSame P s₀ (upAdmitted n s) := by
  unfold upAdmitted
  apply restartDiff_apart
  · exact hP.symm
  · apply admitPort_apart
    · exact hP.symm
    · with_reducible assumption

theorem ropeAdmitted_apart {n : Fin 132} {s : State} (hP : P = .dist) (h_s : OtherSame P s₀ s) :
    OtherSame P s₀ (ropeAdmitted n s) := by
  unfold ropeAdmitted
  extract_lets v39 v40
  have h41 : OtherSame P s₀ v40 := by
    apply onDist_apart
    · with_reducible assumption
    · apply ropeAdmit_apart
      · with_reducible assumption
      · apply admitPort_apart
        · exact hP.symm
        · with_reducible assumption
  clear_value v40
  apply iteState_apart
  · with_reducible assumption
  · apply ropeStart_apart
    · with_reducible assumption
    · with_reducible assumption

theorem presenceAfter_apart {n : Nat} {s : State} (hP : P = .dist) (h_s : OtherSame P s₀ s) :
    OtherSame P s₀ (presenceAfter n s) := by
  unfold presenceAfter
  split
  · apply iteState_apart
    · apply sendSeq_apart
      · exact (portPart_distRef _).trans hP.symm
      · with_reducible assumption
    · with_reducible assumption
  · with_reducible assumption

theorem downAdmitted_apart {n : Nat} {s : State} (hP : P = .dist) (h_s : OtherSame P s₀ s) :
    OtherSame P s₀ (downAdmitted n s) := by
  unfold downAdmitted
  extract_lets v42 v43 v44 v45 v46 v47
  have h49 : OtherSame P s₀ v43 := by
    apply iteState_apart
    · apply sendSeq_apart
      · exact (portPart_distRef _).trans hP.symm
      · with_reducible assumption
    · with_reducible assumption
  clear_value v43
  have h50 : OtherSame P s₀ v44 := by
    apply presenceAfter_apart
    · with_reducible assumption
    · with_reducible assumption
  clear_value v44
  have h51 : OtherSame P s₀ v46 := by
    apply portPresent_apart
    · with_reducible assumption
    · with_reducible assumption
  clear_value v46
  have h52 : OtherSame P s₀ v47.2 := by
    apply idAdmitted_apart
    · with_reducible assumption
    · with_reducible assumption
  clear_value v47
  apply iteState_apart
  · with_reducible assumption
  · apply iteState_apart
    · apply iteState_apart
      · with_reducible assumption
      · apply leaving_apart
        · exact (portPart_distRef _).trans hP.symm
        · intro z53 h54
          apply setLinkState_apart
          · exact (portPart_distRef _).trans hP.symm
          · apply onPort_apart
            · exact (portPart_distRef _).trans hP.symm
            · with_reducible assumption
        · with_reducible assumption
    · apply healthUp_apart
      · with_reducible assumption
      · with_reducible assumption

end Sys2Proof.Machine
end

