-- ==== Sys2Proof/Laws/ApartLinkRows.lean ====
section
/-! SUPPORT. The operations of Machine/LinkRows.lean act at one part and leave the other as it is. -/

namespace Sys2Proof.Machine

variable {P : Part} {s₀ : State}

theorem ifPort_apart {p0 : PortRef} {f : State → State} {s : State} (hP : portPart p0 = P) (h_f : ∀  z, OtherSame P s₀ z → OtherSame P s₀ (f  z)) (h_s : OtherSame P s₀ s) :
    OtherSame P s₀ (ifPort p0 f s) := by
  unfold ifPort
  split
  · apply ifUnitRuns_apart
    · with_reducible assumption
    · with_reducible assumption
  · apply ifDistRuns_apart
    · with_reducible assumption
    · with_reducible assumption

theorem enableOp_apart {p0 : PortRef} {en : Bool} {s : State} (hP : portPart p0 = P) (h_s : OtherSame P s₀ s) :
    OtherSame P s₀ (enableOp p0 en s) := by
  unfold enableOp
  extract_lets v0 v1
  have h2 : OtherSame P s₀ v0 := by
    apply onBaseOf_apart
    · with_reducible assumption
    · with_reducible assumption
  clear_value v0
  have h3 : OtherSame P s₀ v1 := by
    apply leaving_apart
    · with_reducible assumption
    · intro z4 h5
      apply linkDown_apart
      · with_reducible assumption
      · with_reducible assumption
    · with_reducible assumption
  clear_value v1
  apply iteState_apart
  · apply testDown_apart
    · with_reducible assumption
    · with_reducible assumption
  · split
    · apply unitFsm_apart
      · exact hP.symm
      · with_reducible assumption
    · with_reducible assumption

theorem signalOp_apart {p0 : PortRef} {lane : Bool} {present : Bool} {s : State} (hP : portPart p0 = P) (h_s : OtherSame P s₀ s) :
    OtherSame P s₀ (signalOp p0 lane present s) := by
  unfold signalOp
  extract_lets v6 v7
  have h8 : OtherSame P s₀ v7 := by
    apply onPort_apart
    · with_reducible assumption
    · with_reducible assumption
  clear_value v7
  apply iteState_apart
  · apply testDown_apart
    · with_reducible assumption
    · with_reducible assumption
  · with_reducible assumption

theorem lockOpLane_apart {p0 : PortRef} {lane : Bool} {v : Bool} {s : State} (hP : portPart p0 = P) (h_s : OtherSame P s₀ s) :
    OtherSame P s₀ (lockOpLane p0 lane v s) := by
  unfold lockOpLane
  extract_lets v9 v10
  apply iteState_apart
  · with_reducible assumption
  · apply onPort_apart
    · with_reducible assumption
    · with_reducible assumption

theorem trainBlockOp_apart {p0 : PortRef} {lane : Bool} {rxLock : Bool} {ready : Bool} {s : State} (hP : portPart p0 = P) (h_s : OtherSame P s₀ s) :
    OtherSame P s₀ (trainBlockOp p0 lane rxLock ready s) := by
  unfold trainBlockOp
  extract_lets v11
  apply iteState_apart
  · apply onPort_apart
    · with_reducible assumption
    · with_reducible assumption
  · with_reducible assumption

theorem spareLost_apart {p0 : PortRef} {s : State} (hP : portPart p0 = P) (h_s : OtherSame P s₀ s) :
    OtherSame P s₀ (spareLost p0 s) := by
  unfold spareLost
  extract_lets v12
  have h13 : OtherSame P s₀ v12 := by
    apply onPort_apart
    · with_reducible assumption
    · with_reducible assumption
  clear_value v12
  apply scorePort_apart
  · with_reducible assumption
  · apply portEvt_apart
    · with_reducible assumption
    · apply logPort_apart
      · with_reducible assumption
      · with_reducible assumption

theorem trainDone_apart {p0 : PortRef} {s : State} (hP : portPart p0 = P) (h_s : OtherSame P s₀ s) :
    OtherSame P s₀ (trainDone p0 s) := by
  unfold trainDone
  extract_lets v14 v15 v16 v17 v18
  have h19 : OtherSame P s₀ v15 := by
    apply onPort_apart
    · with_reducible assumption
    · with_reducible assumption
  clear_value v15
  have h20 : OtherSame P s₀ v16 := by
    apply setLinkState_apart
    · with_reducible assumption
    · with_reducible assumption
  clear_value v16
  have h21 : OtherSame P s₀ v18 := by
    apply iteState_apart
    · apply spareLost_apart
      · with_reducible assumption
      · apply onPort_apart
        · with_reducible assumption
        · with_reducible assumption
    · with_reducible assumption
  clear_value v18
  split
  · apply unitFsm_apart
    · exact hP.symm
    · with_reducible assumption
  · with_reducible assumption

theorem spareDone_apart {p0 : PortRef} {s : State} (hP : portPart p0 = P) (h_s : OtherSame P s₀ s) :
    OtherSame P s₀ (spareDone p0 s) := by
  unfold spareDone
  apply onPort_apart
  · with_reducible assumption
  · with_reducible assumption

theorem framesOp_apart {p0 : PortRef} {s : State} (hP : portPart p0 = P) (h_s : OtherSame P s₀ s) :
    OtherSame P s₀ (framesOp p0 s) := by
  unfold framesOp
  extract_lets v22 v23
  apply iteState_apart
  · split
    · apply iteState_apart
      · apply trainDone_apart
        · with_reducible assumption
        · with_reducible assumption
      · with_reducible assumption
    · with_reducible assumption
  · split
    · apply iteState_apart
      · apply spareDone_apart
        · with_reducible assumption
        · with_reducible assumption
      · with_reducible assumption
    · with_reducible assumption

theorem trainFailOp_apart {p0 : PortRef} {s : State} (hP : portPart p0 = P) (h_s : OtherSame P s₀ s) :
    OtherSame P s₀ (trainFailOp p0 s) := by
  unfold trainFailOp
  extract_lets v24 v25
  have h26 : OtherSame P s₀ v25 := by
    apply scorePort_apart
    · with_reducible assumption
    · apply logPort_apart
      · with_reducible assumption
      · with_reducible assumption
  clear_value v25
  apply iteState_apart
  · apply linkDown_apart
    · with_reducible assumption
    · apply onPort_apart
      · with_reducible assumption
      · with_reducible assumption
  · with_reducible assumption

theorem spareFailOp_apart {p0 : PortRef} {s : State} (hP : portPart p0 = P) (h_s : OtherSame P s₀ s) :
    OtherSame P s₀ (spareFailOp p0 s) := by
  unfold spareFailOp
  extract_lets v27
  apply iteState_apart
  · apply iteState_apart
    · apply onPort_apart
      · with_reducible assumption
      · with_reducible assumption
    · with_reducible assumption
  · split
    · apply iteState_apart
      · apply spareLost_apart
        · with_reducible assumption
        · apply onPort_apart
          · with_reducible assumption
          · with_reducible assumption
      · with_reducible assumption
    · with_reducible assumption

theorem spareRetryOp_apart {p0 : PortRef} {s : State} (hP : portPart p0 = P) (h_s : OtherSame P s₀ s) :
    OtherSame P s₀ (spareRetryOp p0 s) := by
  unfold spareRetryOp
  extract_lets v28
  split
  · apply iteState_apart
    · apply onPort_apart
      · with_reducible assumption
      · with_reducible assumption
    · with_reducible assumption
  · with_reducible assumption

theorem silenceOp_apart {p0 : PortRef} {s : State} (hP : portPart p0 = P) (h_s : OtherSame P s₀ s) :
    OtherSame P s₀ (silenceOp p0 s) := by
  unfold silenceOp
  extract_lets v29 v30
  apply iteState_apart
  · apply iteState_apart
    · apply linkDown_apart
      · with_reducible assumption
      · with_reducible assumption
    · with_reducible assumption
  · apply iteState_apart
    · apply iteState_apart
      · apply testDown_apart
        · with_reducible assumption
        · apply linkDown_apart
          · with_reducible assumption
          · with_reducible assumption
      · with_reducible assumption
    · apply iteState_apart
      · apply iteState_apart
        · apply linkDead_apart
          · with_reducible assumption
          · with_reducible assumption
        · with_reducible assumption
      · with_reducible assumption

theorem readmitOp_apart {p0 : PortRef} {s : State} (hP : portPart p0 = P) (h_s : OtherSame P s₀ s) :
    OtherSame P s₀ (readmitOp p0 s) := by
  unfold readmitOp
  extract_lets v31
  apply iteState_apart
  · apply linkTrain_apart
    · with_reducible assumption
    · with_reducible assumption
  · with_reducible assumption

theorem admitWaitOp_apart {p0 : PortRef} {s : State} (hP : portPart p0 = P) (h_s : OtherSame P s₀ s) :
    OtherSame P s₀ (admitWaitOp p0 s) := by
  unfold admitWaitOp
  extract_lets v32
  apply iteState_apart
  · apply logPort_apart
    · with_reducible assumption
    · apply onPort_apart
      · with_reducible assumption
      · with_reducible assumption
  · with_reducible assumption

theorem scoreCrc_apart {p0 : PortRef} {s : State} (hP : portPart p0 = P) (h_s : OtherSame P s₀ s) :
    OtherSame P s₀ (scoreCrc p0 s) := by
  unfold scoreCrc
  split
  · with_reducible assumption
  · extract_lets k v1
    have h1 : OtherSame P s₀ v1 := onPort_apart hP h_s
    clear_value v1
    apply iteState_apart
    · exact scorePort_apart hP h1
    · exact h1

theorem crcBadOp_apart {p0 : PortRef} {lane : Bool} {f : BitVec 78} {s : State} (hP : portPart p0 = P) (h_s : OtherSame P s₀ s) :
    OtherSame P s₀ (crcBadOp p0 lane f s) := by
  unfold crcBadOp
  extract_lets v33 v34 v35
  have h36 : OtherSame P s₀ v34 := by
    dsimp only [v34]
    split
    · apply onUnit_apart
      · exact hP.symm
      · with_reducible assumption
    · with_reducible assumption
  clear_value v34
  have h37 : OtherSame P s₀ v35 := by
    apply onPort_apart
    · with_reducible assumption
    · with_reducible assumption
  clear_value v35
  apply iteState_apart
  · apply sendNak_apart
    · with_reducible assumption
    · apply scoreCrc_apart
      · with_reducible assumption
      · with_reducible assumption
  · with_reducible assumption

theorem reservedOp_apart {rx : Rx} {t : BitVec 6} {body : BitVec 64} {s : State} (hP : portPart rx.port = P) (h_s : OtherSame P s₀ s) :
    OtherSame P s₀ (reservedOp rx t body s) := by
  unfold reservedOp
  extract_lets v38
  have h39 : OtherSame P s₀ v38.2 := by
    dsimp only [v38]
    split
    · apply rxSeq_apart
      · with_reducible assumption
      · with_reducible assumption
    · apply rxUns_apart
      · with_reducible assumption
      · with_reducible assumption
  clear_value v38
  apply iteState_apart
  · apply iteState_apart
    · apply onPort_apart
      · with_reducible assumption
      · with_reducible assumption
    · with_reducible assumption
  · with_reducible assumption

theorem unexpectedOp_apart {rx : Rx} {t : BitVec 6} {body : BitVec 64} {s : State} (hP : portPart rx.port = P) (h_s : OtherSame P s₀ s) :
    OtherSame P s₀ (unexpectedOp rx t body s) := by
  unfold unexpectedOp
  extract_lets v40
  apply iteState_apart
  · with_reducible assumption
  · apply iteState_apart
    · apply iteState_apart
      · apply rxFrame_apart
        · with_reducible assumption
        · with_reducible assumption
      · apply rxUns_apart
        · with_reducible assumption
        · with_reducible assumption
    · apply iteState_apart
      · apply rxFrame_apart
        · with_reducible assumption
        · with_reducible assumption
      · with_reducible assumption

theorem ackDueOp_apart {p0 : PortRef} {s : State} (hP : portPart p0 = P) (h_s : OtherSame P s₀ s) :
    OtherSame P s₀ (ackDueOp p0 s) := by
  unfold ackDueOp
  split
  · apply iteState_apart
    · apply sendAck_apart
      · with_reducible assumption
      · with_reducible assumption
    · with_reducible assumption
  · with_reducible assumption

theorem ackOp_apart {p0 : PortRef} {q0 : BitVec 8} {s : State} (hP : portPart p0 = P) (h_s : OtherSame P s₀ s) :
    OtherSame P s₀ (ackOp p0 q0 s) := by
  unfold ackOp
  extract_lets v41
  have h42 : OtherSame P s₀ v41 := by
    apply onPort_apart
    · with_reducible assumption
    · with_reducible assumption
  clear_value v41
  split
  · with_reducible assumption
  · apply iteState_apart
    · apply distSettleAll_apart
      · exact hP.symm
      · with_reducible assumption
    · with_reducible assumption

theorem replayOrDead_apart {p0 : PortRef} {s : State} (hP : portPart p0 = P) (h_s : OtherSame P s₀ s) :
    OtherSame P s₀ (replayOrDead p0 s) := by
  unfold replayOrDead
  apply iteState_apart
  · apply linkDead_apart
    · with_reducible assumption
    · with_reducible assumption
  · apply startReplay_apart
    · with_reducible assumption
    · with_reducible assumption

theorem retryOp_apart {p0 : PortRef} {s : State} (hP : portPart p0 = P) (h_s : OtherSame P s₀ s) :
    OtherSame P s₀ (retryOp p0 s) := by
  unfold retryOp
  extract_lets v43
  split
  · apply iteState_apart
    · apply replayOrDead_apart
      · with_reducible assumption
      · with_reducible assumption
    · with_reducible assumption
  · with_reducible assumption

theorem nakOp_apart {p0 : PortRef} {q0 : BitVec 8} {s : State} (hP : portPart p0 = P) (h_s : OtherSame P s₀ s) :
    OtherSame P s₀ (nakOp p0 q0 s) := by
  unfold nakOp
  apply iteState_apart
  · apply replayOrDead_apart
    · with_reducible assumption
    · with_reducible assumption
  · with_reducible assumption

theorem swapOp_apart {p0 : PortRef} {s : State} (hP : portPart p0 = P) (h_s : OtherSame P s₀ s) :
    OtherSame P s₀ (swapOp p0 s) := by
  unfold swapOp
  extract_lets v44 v45
  have h46 : OtherSame P s₀ v45 := by
    apply replayAll_apart
    · with_reducible assumption
    · apply onPort_apart
      · with_reducible assumption
      · with_reducible assumption
  clear_value v45
  apply iteState_apart
  · apply scorePort_apart
    · with_reducible assumption
    · apply portEvt_apart
      · with_reducible assumption
      · apply logPort_apart
        · with_reducible assumption
        · with_reducible assumption
  · with_reducible assumption

end Sys2Proof.Machine
end

