-- ==== Sys2Proof/Laws/ApartEchoTime.lean ====
section
/-! SUPPORT. The operations of Machine/EchoTime.lean act at one part and leave the other as it is. -/

namespace Sys2Proof.Machine

variable {P : Part} {s₀ : State}

/-- The part that a port feeds is its own. -/
theorem portSource_part {p0 : PortRef} {part : Part} {src : Bool} (h : portSource p0 = some (part, src)) :
    part = portPart p0 := by
  cases p0 with
  | unit d =>
    cases h
    rfl
  | dist n =>
    unfold portSource at h
    dsimp only at h
    split at h
    · cases h
      rfl
    · split at h
      · cases h
        rfl
      · cases h

theorem echoLostOp_apart {p0 : PortRef} {s : State} (hP : portPart p0 = P) (h_s : OtherSame P s₀ s) :
    OtherSame P s₀ (echoLostOp p0 s) := by
  unfold echoLostOp
  extract_lets s1 s2
  have h2 : OtherSame P s₀ s2 := by
    apply scorePort_apart hP
    apply portEvt_apart hP
    apply logPort_apart hP
    exact onPort_apart hP h_s
  split
  · exact sourceFails_apart ((portSource_part (by assumption)).trans hP) h2
  · exact h2

theorem exchangeLost_apart {p0 : PortRef} {spare : Bool} {s : State} (hP : portPart p0 = P) (h_s : OtherSame P s₀ s) :
    OtherSame P s₀ (exchangeLost p0 spare s) := by
  unfold exchangeLost
  split
  · extract_lets s1 s2 lp
    have h1 : OtherSame P s₀ s1 := onPort_apart hP h_s
    have h2 : OtherSame P s₀ s2 := by
      apply iteState_apart h1
      split
      · exact rejDrop_apart ((portSource_part (by assumption)).trans hP) h1
      · exact h1
    exact iteState_apart (echoLostOp_apart hP h2) h2
  · exact h_s

theorem echoStart_apart {p0 : PortRef} {spare : Bool} {s : State} (hP : portPart p0 = P) (h_s : OtherSame P s₀ s) :
    OtherSame P s₀ (echoStart p0 spare s) := by
  unfold echoStart
  extract_lets v0 v1
  have h2 : OtherSame P s₀ v1 := by
    apply onPort_apart
    · with_reducible assumption
    · with_reducible assumption
  clear_value v1
  apply iteState_apart
  · apply sendUns_apart
    · with_reducible assumption
    · with_reducible assumption
  · with_reducible assumption

theorem echoAnswer_apart {p0 : PortRef} {spare : Bool} {id : Nat} {frac : Nat} {s : State} (hP : portPart p0 = P) (h_s : OtherSame P s₀ s) :
    OtherSame P s₀ (echoAnswer p0 spare id frac s) := by
  unfold echoAnswer
  extract_lets v3
  apply iteState_apart
  · apply sendUns_apart
    · with_reducible assumption
    · with_reducible assumption
  · with_reducible assumption

theorem chooseParent_apart {n : Nat} {s : State} (hP : P = .dist) (h_s : OtherSame P s₀ s) :
    OtherSame P s₀ (chooseParent n s) := by
  unfold chooseParent
  extract_lets v4 v5 v6
  apply iteState_apart
  · with_reducible assumption
  · apply iteState_apart
    · apply iteState_apart
      · apply setSts_apart
        · exact hP.symm
        · with_reducible assumption
      · with_reducible assumption
    · apply setSts_apart
      · exact hP.symm
      · with_reducible assumption

theorem echoFeed_apart {p0 : PortRef} {theta : Int} {s : State} (hP : portPart p0 = P) (h_s : OtherSame P s₀ s) :
    OtherSame P s₀ (echoFeed p0 theta s) := by
  unfold echoFeed
  split
  · apply unitFsm_apart
    · exact hP.symm
    · apply exchange_apart
      · assumption
      · with_reducible assumption
  · apply iteState_apart
    · apply exchange_apart
      · assumption
      · apply chooseParent_apart
        · exact hP.symm
        · with_reducible assumption
    · with_reducible assumption

theorem echoDone_apart {p0 : PortRef} {spare : Bool} {lane : Bool} {id : BitVec 6} {t2w : Nat} {resid : Nat} {frac : Nat} {fwdSkew : Int} {revSkew : Int} {s : State} (hP : portPart p0 = P) (h_s : OtherSame P s₀ s) :
    OtherSame P s₀ (echoDone p0 spare lane id t2w resid frac fwdSkew revSkew s) := by
  unfold echoDone
  extract_lets v8 v9 v10
  split
  · extract_lets v11 v12 v13 v14 v15 v16 v17
    have h18 : OtherSame P s₀ v16 := by
      apply onPort_apart
      · with_reducible assumption
      · with_reducible assumption
    clear_value v16
    have h19 : OtherSame P s₀ v17 := by
      apply onPort_apart
      · with_reducible assumption
      · with_reducible assumption
    clear_value v17
    apply iteState_apart
    · apply iteState_apart
      · with_reducible assumption
      · apply echoFeed_apart
        · with_reducible assumption
        · with_reducible assumption
    · with_reducible assumption
  · with_reducible assumption

theorem timeDown_apart {delay : Nat} {s : State} (hP : P = .dist) (h_s : OtherSame P s₀ s) :
    OtherSame P s₀ (timeDown delay s) := by
  unfold timeDown
  extract_lets v20
  apply iteState_apart
  · with_reducible assumption
  · apply foldState_apart
    · intro z21 z22 h23
      apply onPort_apart
      · exact (portPart_distRef _).trans hP.symm
      · with_reducible assumption
    · with_reducible assumption

theorem timeCheck_apart {p0 : PortRef} {part : Part} {src : Bool} {ns : BitVec 48} {s : State} (hP : portPart p0 = P) (h_s : OtherSame P s₀ s) :
    OtherSame P s₀ (timeCheck p0 part src ns s) := by
  unfold timeCheck
  extract_lets v24 v25 v26 v27 v28
  have h31 : OtherSame P s₀ v27 := by
    apply onPort_apart
    · with_reducible assumption
    · with_reducible assumption
  clear_value v27
  have h32 : OtherSame P s₀ v28 := by
    apply onPort_apart
    · with_reducible assumption
    · with_reducible assumption
  clear_value v28
  apply iteState_apart
  · apply iteState_apart
    · apply iteState_apart
      · with_reducible assumption
      · apply scorePort_apart
        · with_reducible assumption
        · apply portEvt_apart
          · with_reducible assumption
          · apply logPort_apart
            · with_reducible assumption
            · with_reducible assumption
    · apply iteState_apart
      · apply onPort_apart
        · with_reducible assumption
        · with_reducible assumption
      · with_reducible assumption
  · with_reducible assumption

theorem genCheck_apart {d : Dom} {gen : BitVec 16} {s : State} (hP : P = .unit) (h_s : OtherSame P s₀ s) :
    OtherSame P s₀ (genCheck d gen s) := by
  unfold genCheck
  extract_lets v33 v34 v35
  have h36 : OtherSame P s₀ v35 := by
    apply onPort_apart
    · exact hP.symm
    · with_reducible assumption
  clear_value v35
  apply iteState_apart
  · with_reducible assumption
  · apply iteState_apart
    · apply iteState_apart
      · apply onPort_apart
        · exact hP.symm
        · with_reducible assumption
      · with_reducible assumption
    · apply iteState_apart
      · with_reducible assumption
      · apply sourceFails_apart
        · exact hP.symm
        · apply logPort_apart
          · exact hP.symm
          · with_reducible assumption

theorem unitTime_apart {d : Dom} {ns : BitVec 48} {gen : BitVec 16} {frac : Nat} {s : State} (hP : P = .unit) (h_s : OtherSame P s₀ s) :
    OtherSame P s₀ (unitTime d ns gen frac s) := by
  unfold unitTime
  extract_lets v37
  apply iteState_apart
  · apply iteState_apart
    · apply unitFsm_apart
      · with_reducible assumption
      · apply loadCounter_apart
        · exact hP.symm
        · with_reducible assumption
    · with_reducible assumption
  · apply unitFsm_apart
    · with_reducible assumption
    · apply timeCheck_apart
      · exact hP.symm
      · apply genCheck_apart
        · with_reducible assumption
        · with_reducible assumption

theorem distTime_apart {n : Nat} {ns : BitVec 48} {gen : BitVec 16} {frac : Nat} {s : State} (hP : P = .dist) (h_s : OtherSame P s₀ s) :
    OtherSame P s₀ (distTime n ns gen frac s) := by
  unfold distTime
  extract_lets v38 v39
  have h40 : OtherSame P s₀ v39 := by
    apply iteState_apart
    · apply iteState_apart
      · apply loadCounter_apart
        · exact hP.symm
        · with_reducible assumption
      · with_reducible assumption
    · apply timeCheck_apart
      · exact (portPart_distRef _).trans hP.symm
      · with_reducible assumption
  clear_value v39
  apply iteState_apart
  · with_reducible assumption
  · apply iteState_apart
    · apply timeCheck_apart
      · exact (portPart_distRef _).trans hP.symm
      · with_reducible assumption
    · apply iteState_apart
      · apply timeDown_apart
        · with_reducible assumption
        · with_reducible assumption
      · with_reducible assumption

theorem timeOp_apart {p0 : PortRef} {ns : BitVec 48} {gen : BitVec 16} {frac : Nat} {s : State} (hP : portPart p0 = P) (h_s : OtherSame P s₀ s) :
    OtherSame P s₀ (timeOp p0 ns gen frac s) := by
  unfold timeOp
  extract_lets v41
  have h42 : OtherSame P s₀ v41 := by
    apply onPort_apart
    · with_reducible assumption
    · with_reducible assumption
  clear_value v41
  apply iteState_apart
  · split
    · apply unitTime_apart
      · exact hP.symm
      · with_reducible assumption
    · apply distTime_apart
      · exact hP.symm
      · with_reducible assumption
  · with_reducible assumption

theorem rootTime_apart {s : State} (hP : P = .dist) (h_s : OtherSame P s₀ s) :
    OtherSame P s₀ (rootTime s) := by
  unfold rootTime
  extract_lets v43
  apply iteState_apart
  · apply timeDown_apart
    · with_reducible assumption
    · apply onDist_apart
      · with_reducible assumption
      · with_reducible assumption
  · with_reducible assumption

theorem keepEpoch_apart {p0 : PortRef} {gen : BitVec 16} {applied : BitVec 48} {s : State} (hP : portPart p0 = P) (h_s : OtherSame P s₀ s) :
    OtherSame P s₀ (keepEpoch p0 gen applied s) := by
  unfold keepEpoch
  apply onPort_apart
  · with_reducible assumption
  · with_reducible assumption

theorem epochOp_apart {p0 : PortRef} {gen : BitVec 16} {applied : BitVec 48} {s : State} (hP : portPart p0 = P) (h_s : OtherSame P s₀ s) :
    OtherSame P s₀ (epochOp p0 gen applied s) := by
  unfold epochOp
  apply iteState_apart
  · with_reducible assumption
  · split
    · extract_lets v45
      apply iteState_apart
      · apply keepEpoch_apart
        · with_reducible assumption
        · with_reducible assumption
      · apply iteState_apart
        · apply onUnit_apart
          · exact hP.symm
          · with_reducible assumption
        · with_reducible assumption
    · extract_lets v48 v49
      have h51 : OtherSame P s₀ v49 := by
        apply iteState_apart
        · apply keepEpoch_apart
          · with_reducible assumption
          · with_reducible assumption
        · apply iteState_apart
          · apply onDist_apart
            · exact hP.symm
            · with_reducible assumption
          · with_reducible assumption
      clear_value v49
      apply iteState_apart
      · apply sendDown_apart
        · exact hP.symm
        · with_reducible assumption
      · with_reducible assumption

end Sys2Proof.Machine
end

