-- ==== Sys2Proof/Laws/ApartAdmission.lean ====
section
/-! SUPPORT. The operations of Machine/Admission.lean act at one part and leave the other as it is. -/

namespace Sys2Proof.Machine

variable {P : Part} {s₀ : State}

theorem ropeTest_apart {n : Fin 132} {s : State} (hP : P = .dist) (h_s : OtherSame P s₀ s) :
    OtherSame P s₀ (ropeTest n s) := by
  unfold ropeTest
  extract_lets v0
  apply iteState_apart
  · apply ropeAdmitted_apart
    · with_reducible assumption
    · with_reducible assumption
  · with_reducible assumption

theorem helloOp_apart {p0 : PortRef} {s : State} (hP : portPart p0 = P) (h_s : OtherSame P s₀ s) :
    OtherSame P s₀ (helloOp p0 s) := by
  unfold helloOp
  extract_lets v1 v2 v3 v4 v5
  have h6 : OtherSame P s₀ v4 := by
    apply sendUns_apart
    · with_reducible assumption
    · with_reducible assumption
  clear_value v4
  have h7 : OtherSame P s₀ v5 := by
    apply onPort_apart
    · with_reducible assumption
    · with_reducible assumption
  clear_value v5
  apply iteState_apart
  · split
    · with_reducible assumption
    · apply iteState_apart
      · apply ropeTest_apart
        · exact hP.symm
        · with_reducible assumption
      · with_reducible assumption
  · with_reducible assumption

theorem downHello_apart {n : Fin 132} {h : KeptHello} {s : State} (hP : P = .dist) (h_s : OtherSame P s₀ s) :
    OtherSame P s₀ (downHello n h s) := by
  unfold downHello
  extract_lets v8
  have h9 : OtherSame P s₀ v8 := by
    apply onPort_apart
    · exact hP.symm
    · with_reducible assumption
  clear_value v8
  apply iteState_apart
  · apply linkReturn_apart
    · exact hP.symm
    · with_reducible assumption
  · with_reducible assumption

theorem ropeHello_apart {n : Fin 132} {h : KeptHello} {s : State} (hP : P = .dist) (h_s : OtherSame P s₀ s) :
    OtherSame P s₀ (ropeHello n h s) := by
  unfold ropeHello
  extract_lets v10 v11 v12 v13 v14 v15 v16
  have h17 : OtherSame P s₀ v10 := by
    apply onDist_apart
    · with_reducible assumption
    · with_reducible assumption
  clear_value v10
  have h18 : OtherSame P s₀ v14 := by
    apply iteState_apart
    · apply logPort_apart
      · exact hP.symm
      · with_reducible assumption
    · with_reducible assumption
  clear_value v14
  have h19 : OtherSame P s₀ v15 := by
    apply iteState_apart
    · apply logPort_apart
      · exact hP.symm
      · with_reducible assumption
    · with_reducible assumption
  clear_value v15
  have h20 : OtherSame P s₀ v16 := by
    apply compareKey_apart
    · exact hP.symm
    · with_reducible assumption
  clear_value v16
  apply iteState_apart
  · with_reducible assumption
  · apply iteState_apart
    · with_reducible assumption
    · apply ropeTest_apart
      · with_reducible assumption
      · apply onPort_apart
        · exact hP.symm
        · with_reducible assumption

theorem helloRxOp_apart {n : Fin 132} {h : KeptHello} {s : State} (hP : P = .dist) (h_s : OtherSame P s₀ s) :
    OtherSame P s₀ (helloRxOp n h s) := by
  unfold helloRxOp
  extract_lets v21
  have h22 : OtherSame P s₀ v21 := by
    apply onPort_apart
    · exact hP.symm
    · with_reducible assumption
  clear_value v21
  apply iteState_apart
  · apply downHello_apart
    · with_reducible assumption
    · with_reducible assumption
  · apply ropeHello_apart
    · with_reducible assumption
    · with_reducible assumption

theorem admitNow_apart {n : Fin 132} {h : KeptHello} {s : State} (hP : P = .dist) (h_s : OtherSame P s₀ s) :
    OtherSame P s₀ (admitNow n h s) := by
  unfold admitNow
  extract_lets v23 v24 v25 v26 v27 v28
  have h30 : OtherSame P s₀ v26 := by
    apply sendSeq_apart
    · exact hP.symm
    · with_reducible assumption
  clear_value v26
  have h31 : OtherSame P s₀ v27 := by
    apply onPort_apart
    · exact hP.symm
    · with_reducible assumption
  clear_value v27
  have h32 : OtherSame P s₀ v28 := by
    apply compareKey_apart
    · exact hP.symm
    · with_reducible assumption
  clear_value v28
  apply downAdmitted_apart
  · with_reducible assumption
  · apply portEvt_apart
    · exact hP.symm
    · apply admitPort_apart
      · exact hP.symm
      · with_reducible assumption

theorem examine_apart {n : Fin 132} {s : State} (hP : P = .dist) (h_s : OtherSame P s₀ s) :
    OtherSame P s₀ (examine n s) := by
  unfold examine
  extract_lets v33 v34
  split
  · extract_lets v35
    apply iteState_apart
    · apply iteState_apart
      · apply admitNow_apart
        · with_reducible assumption
        · with_reducible assumption
      · apply portEvt_apart
        · exact hP.symm
        · apply onPort_apart
          · exact hP.symm
          · with_reducible assumption
    · with_reducible assumption
  · with_reducible assumption

theorem slotOp_apart {s : State} (hP : P = .dist) (h_s : OtherSame P s₀ s) :
    OtherSame P s₀ (slotOp s) := by
  unfold slotOp
  extract_lets v36 v37 v38 v39
  have h41 : OtherSame P s₀ v39 := by
    apply onDist_apart
    · with_reducible assumption
    · with_reducible assumption
  clear_value v39
  apply iteState_apart
  · apply examine_apart
    · with_reducible assumption
    · with_reducible assumption
  · with_reducible assumption

theorem unitAdmit_apart {d : Dom} {uid : Nat} {port : Nat} {domB : Bool} {tier : Nat} {dkey : Word} {s : State} (hP : P = .unit) (h_s : OtherSame P s₀ s) :
    OtherSame P s₀ (unitAdmit d uid port domB tier dkey s) := by
  unfold unitAdmit
  extract_lets v42 v43 v44 v45 v46 v47 v48 v49 v50 v51
  have h52 : OtherSame P s₀ v47 := by
    apply onPort_apart
    · exact hP.symm
    · with_reducible assumption
  clear_value v47
  have h53 : OtherSame P s₀ v48 := by
    apply portEvt_apart
    · exact hP.symm
    · with_reducible assumption
  clear_value v48
  have h54 : OtherSame P s₀ v49 := by
    apply onUnit_apart
    · with_reducible assumption
    · with_reducible assumption
  clear_value v49
  have h55 : OtherSame P s₀ v50 := by
    apply onPort_apart
    · exact hP.symm
    · with_reducible assumption
  clear_value v50
  have h56 : OtherSame P s₀ v51 := by
    apply compareKey_apart
    · exact hP.symm
    · with_reducible assumption
  clear_value v51
  apply iteState_apart
  · with_reducible assumption
  · apply iteState_apart
    · apply logPort_apart
      · exact hP.symm
      · apply onPort_apart
        · exact hP.symm
        · with_reducible assumption
    · apply iteState_apart
      · with_reducible assumption
      · apply unitAdmitted_apart
        · with_reducible assumption
        · with_reducible assumption

theorem distAdmit_apart {n : Fin 132} {port : Nat} {tier : Nat} {domB : Bool} {dkey : Word} {s : State} (hP : P = .dist) (h_s : OtherSame P s₀ s) :
    OtherSame P s₀ (distAdmit n port tier domB dkey s) := by
  unfold distAdmit
  extract_lets v57 v58
  have h59 : OtherSame P s₀ v58 := by
    apply onPort_apart
    · exact hP.symm
    · with_reducible assumption
  clear_value v58
  apply iteState_apart
  · with_reducible assumption
  · apply portEvt_apart
    · exact hP.symm
    · apply upAdmitted_apart
      · with_reducible assumption
      · with_reducible assumption

end Sys2Proof.Machine
end

