-- ==== Sys2Proof/Laws/ApartContext.lean ====
section
/-! SUPPORT. The operations of Machine/Context.lean act at one part and leave the other as it is. -/

namespace Sys2Proof.Machine

variable {P : Part} {s₀ : State}

theorem barReach_apart {b : Nat} {s : State} (hP : P = .unit) (h_s : OtherSame P s₀ s) :
    OtherSame P s₀ (barReach b s) := by
  unfold barReach
  extract_lets v0 v1 v2 v3 v4
  have h6 : OtherSame P s₀ v3 := by
    apply onUnit_apart
    · with_reducible assumption
    · with_reducible assumption
  clear_value v3
  have h7 : OtherSame P s₀ v4.2 := by
    apply postOp_apart
    · with_reducible assumption
    · with_reducible assumption
  clear_value v4
  apply iteState_apart
  · apply iteState_apart
    · apply iteState_apart
      · with_reducible assumption
      · apply logU_apart
        · with_reducible assumption
        · apply completeRound_apart
          · with_reducible assumption
          · with_reducible assumption
    · apply completeRound_apart
      · with_reducible assumption
      · with_reducible assumption
  · with_reducible assumption

theorem barLap_apart {b : Nat} {s : State} (hP : P = .unit) (h_s : OtherSame P s₀ s) :
    OtherSame P s₀ (barLap b s) := by
  unfold barLap
  extract_lets v8
  have h9 : OtherSame P s₀ v8 := by
    apply logU_apart
    · with_reducible assumption
    · apply onUnit_apart
      · with_reducible assumption
      · with_reducible assumption
  clear_value v8
  apply iteState_apart
  · apply onUnit_apart
    · with_reducible assumption
    · with_reducible assumption
  · with_reducible assumption

theorem barEnterOp_apart {r : Req} {b : Nat} {s : State} (hP : P = .unit) (h_s : OtherSame P s₀ s) :
    OtherSame P s₀ (barEnterOp r b s) := by
  unfold barEnterOp
  extract_lets v10 v11 v12 v13 v14 v15 v16 v17
  have h19 : OtherSame P s₀ v13 := by
    apply iteState_apart
    · apply barLap_apart
      · with_reducible assumption
      · with_reducible assumption
    · with_reducible assumption
  clear_value v13
  have h20 : OtherSame P s₀ v17 := by
    apply onUnit_apart
    · with_reducible assumption
    · with_reducible assumption
  clear_value v17
  apply iteState_apart
  · apply onUnit_apart
    · with_reducible assumption
    · with_reducible assumption
  · apply iteState_apart
    · apply barReach_apart
      · with_reducible assumption
      · with_reducible assumption
    · apply iteState_apart
      · with_reducible assumption
      · apply barLap_apart
        · with_reducible assumption
        · with_reducible assumption

theorem barDeadlineOp_apart {b : Nat} {s : State} (hP : P = .unit) (h_s : OtherSame P s₀ s) :
    OtherSame P s₀ (barDeadlineOp b s) := by
  unfold barDeadlineOp
  extract_lets v21 v22 v23 v24 v25
  have h26 : OtherSame P s₀ v24 := by
    apply logU_apart
    · with_reducible assumption
    · apply onUnit_apart
      · with_reducible assumption
      · with_reducible assumption
  clear_value v24
  have h27 : OtherSame P s₀ v25 := by
    apply iteState_apart
    · apply onUnit_apart
      · with_reducible assumption
      · with_reducible assumption
    · with_reducible assumption
  clear_value v25
  apply iteState_apart
  · apply onUnit_apart
    · with_reducible assumption
    · with_reducible assumption
  · with_reducible assumption

theorem barResetOp_apart {b : Nat} {s : State} (hP : P = .unit) (h_s : OtherSame P s₀ s) :
    OtherSame P s₀ (barResetOp b s) := by
  unfold barResetOp
  extract_lets v28
  apply iteState_apart
  · with_reducible assumption
  · apply iteState_apart
    · apply logU_apart
      · with_reducible assumption
      · with_reducible assumption
    · apply onUnit_apart
      · with_reducible assumption
      · with_reducible assumption

theorem barCtlOp_apart {b : Nat} {be : BitVec 4} {data : Word} {s : State} (hP : P = .unit) (h_s : OtherSame P s₀ s) :
    OtherSame P s₀ (barCtlOp b be data s) := by
  unfold barCtlOp
  extract_lets v29 v30 v31 v32 v33
  have h35 : OtherSame P s₀ v33 := by
    apply onUnit_apart
    · with_reducible assumption
    · with_reducible assumption
  clear_value v33
  apply iteState_apart
  · with_reducible assumption
  · apply iteState_apart
    · apply logU_apart
      · with_reducible assumption
      · with_reducible assumption
    · apply iteState_apart
      · apply logU_apart
        · with_reducible assumption
        · with_reducible assumption
      · apply iteState_apart
        · with_reducible assumption
        · apply iteState_apart
          · apply onUnit_apart
            · with_reducible assumption
            · with_reducible assumption
          · apply iteState_apart
            · apply onUnit_apart
              · with_reducible assumption
              · with_reducible assumption
            · with_reducible assumption

theorem barGuarded_apart {b : Nat} {a : Nat} {logged : Bool} {be : BitVec 4} {flds : List Fld} {data : Word} {s : State} (hP : P = .unit) (h_s : OtherSame P s₀ s) :
    OtherSame P s₀ (barGuarded b a logged be flds data s) := by
  unfold barGuarded
  extract_lets v36
  apply iteState_apart
  · with_reducible assumption
  · apply iteState_apart
    · apply iteState_apart
      · apply logU_apart
        · with_reducible assumption
        · with_reducible assumption
      · with_reducible assumption
    · apply onUnit_apart
      · with_reducible assumption
      · with_reducible assumption

theorem fncOver_apart {src : BitVec 16} {tag : BitVec 16} {s : State} (hP : P = .unit) (h_s : OtherSame P s₀ s) :
    OtherSame P s₀ (fncOver src tag s) := by
  unfold fncOver
  apply iteState_apart
  · with_reducible assumption
  · apply logU_apart
    · with_reducible assumption
    · apply onUnit_apart
      · with_reducible assumption
      · with_reducible assumption

theorem fncPair_apart {src : BitVec 16} {tag : BitVec 16} {s : State} (hP : P = .unit) (h_s : OtherSame P s₀ s) :
    OtherSame P s₀ (fncPair src tag s).2 := by
  unfold fncPair
  split
  · with_reducible assumption
  · split
    · dsimp only
      apply onUnit_apart
      · with_reducible assumption
      · with_reducible assumption
    · dsimp only
      apply fncOver_apart
      · with_reducible assumption
      · with_reducible assumption

theorem fncApply_apart {g : FncSig} {s : State} (hP : P = .unit) (h_s : OtherSame P s₀ s) :
    OtherSame P s₀ (fncApply g s) := by
  unfold fncApply
  extract_lets v38
  apply iteState_apart
  · apply onUnit_apart
    · with_reducible assumption
    · with_reducible assumption
  · apply iteState_apart
    · apply logU_apart
      · with_reducible assumption
      · apply onUnit_apart
        · with_reducible assumption
        · with_reducible assumption
    · apply semSignal_apart
      · with_reducible assumption
      · apply onUnit_apart
        · with_reducible assumption
        · with_reducible assumption

theorem fenceSignalOp_apart {src : BitVec 16} {tag : BitVec 16} {wcount : BitVec 32} {sem : BitVec 16} {amount : BitVec 32} {s : State} (hP : P = .unit) (h_s : OtherSame P s₀ s) :
    OtherSame P s₀ (fenceSignalOp src tag wcount sem amount s) := by
  unfold fenceSignalOp
  extract_lets v39
  have h40 : OtherSame P s₀ v39.2 := by
    apply fncPair_apart
    · with_reducible assumption
    · with_reducible assumption
  clear_value v39
  apply iteState_apart
  · with_reducible assumption
  · split
    · apply onUnit_apart
      · with_reducible assumption
      · with_reducible assumption
    · extract_lets v41
      apply iteState_apart
      · apply onUnit_apart
        · with_reducible assumption
        · with_reducible assumption
      · apply iteState_apart
        · apply fncApply_apart
          · with_reducible assumption
          · with_reducible assumption
        · apply onUnit_apart
          · with_reducible assumption
          · with_reducible assumption

theorem drainOp_apart {src : BitVec 16} {tag : BitVec 16} {delta : BitVec 16} {s : State} (hP : P = .unit) (h_s : OtherSame P s₀ s) :
    OtherSame P s₀ (drainOp src tag delta s) := by
  unfold drainOp
  extract_lets v42
  have h43 : OtherSame P s₀ v42.2 := by
    apply fncPair_apart
    · with_reducible assumption
    · with_reducible assumption
  clear_value v42
  apply iteState_apart
  · with_reducible assumption
  · split
    · with_reducible assumption
    · extract_lets v44 v45 v46 v47
      have h48 : OtherSame P s₀ v45 := by
        apply onUnit_apart
        · with_reducible assumption
        · with_reducible assumption
      clear_value v45
      have h49 : OtherSame P s₀ v47 := by
        apply onUnit_apart
        · with_reducible assumption
        · with_reducible assumption
      clear_value v47
      apply iteState_apart
      · with_reducible assumption
      · apply foldState_apart
        · intro z50 z51 h52
          apply fncApply_apart
          · with_reducible assumption
          · with_reducible assumption
        · with_reducible assumption

theorem fncTimeoutOp_apart {s : State} (hP : P = .unit) (h_s : OtherSame P s₀ s) :
    OtherSame P s₀ (fncTimeoutOp s) := by
  unfold fncTimeoutOp
  extract_lets v53 v54 v55
  have h56 : OtherSame P s₀ v55 := by
    apply onUnit_apart
    · with_reducible assumption
    · with_reducible assumption
  clear_value v55
  apply foldState_apart
  · intro z57 z58 h59
    apply logU_apart
    · with_reducible assumption
    · apply onUnit_apart
      · with_reducible assumption
      · with_reducible assumption
  · with_reducible assumption

theorem deadlockOp_apart {s : State} (hP : P = .unit) (h_s : OtherSame P s₀ s) :
    OtherSame P s₀ (deadlockOp s) := by
  unfold deadlockOp
  extract_lets v60 v61 v62 v63
  have h65 : OtherSame P s₀ v63 := by
    apply onUnit_apart
    · with_reducible assumption
    · with_reducible assumption
  clear_value v63
  apply iteState_apart
  · apply logU_apart
    · with_reducible assumption
    · with_reducible assumption
  · with_reducible assumption

theorem ctxClearOp_apart {s : State} (hP : P = .unit) (h_s : OtherSame P s₀ s) :
    OtherSame P s₀ (ctxClearOp s) := by
  unfold ctxClearOp
  extract_lets v66 v67 v68 v69
  have h70 : OtherSame P s₀ v66 := by
    apply onUnit_apart
    · with_reducible assumption
    · with_reducible assumption
  clear_value v66
  have h71 : OtherSame P s₀ v67 := by
    apply onUnit_apart
    · with_reducible assumption
    · with_reducible assumption
  clear_value v67
  have h72 : OtherSame P s₀ v68 := by
    apply onUnit_apart
    · with_reducible assumption
    · with_reducible assumption
  clear_value v68
  have h73 : OtherSame P s₀ v69 := by
    apply onUnit_apart
    · with_reducible assumption
    · with_reducible assumption
  clear_value v69
  apply iteState_apart
  · with_reducible assumption
  · apply onUnit_apart
    · with_reducible assumption
    · apply clientClear_apart
      · with_reducible assumption
      · with_reducible assumption

theorem retireSem_apart {n : Nat} {s : State} (hP : P = .unit) (h_s : OtherSame P s₀ s) :
    OtherSame P s₀ (retireSem n s) := by
  unfold retireSem
  extract_lets v74 v75 v76 v77
  have h79 : OtherSame P s₀ v77 := by
    apply onUnit_apart
    · with_reducible assumption
    · with_reducible assumption
  clear_value v77
  apply iteState_apart
  · with_reducible assumption
  · apply logU_apart
    · with_reducible assumption
    · apply onUnit_apart
      · with_reducible assumption
      · with_reducible assumption

theorem eccOp_apart {t : EccTarget} {s : State} (hP : P = .unit) (h_s : OtherSame P s₀ s) :
    OtherSame P s₀ (eccOp t s) := by
  unfold eccOp
  extract_lets v80
  split
  · apply iteState_apart
    · with_reducible assumption
    · apply retireSem_apart
      · with_reducible assumption
      · with_reducible assumption
  · apply iteState_apart
    · with_reducible assumption
    · apply retireSem_apart
      · with_reducible assumption
      · apply onUnit_apart
        · with_reducible assumption
        · with_reducible assumption
  · apply iteState_apart
    · with_reducible assumption
    · apply onUnit_apart
      · with_reducible assumption
      · with_reducible assumption
  · extract_lets v81 v82
    have h83 : OtherSame P s₀ v82 := by
      apply onUnit_apart
      · with_reducible assumption
      · with_reducible assumption
    clear_value v82
    apply iteState_apart
    · with_reducible assumption
    · apply logU_apart
      · with_reducible assumption
      · with_reducible assumption
  · apply iteState_apart
    · with_reducible assumption
    · apply logU_apart
      · with_reducible assumption
      · apply onUnit_apart
        · with_reducible assumption
        · with_reducible assumption
  · extract_lets v84
    have h85 : OtherSame P s₀ v84 := by
      apply onUnit_apart
      · with_reducible assumption
      · with_reducible assumption
    clear_value v84
    apply iteState_apart
    · with_reducible assumption
    · apply logU_apart
      · with_reducible assumption
      · with_reducible assumption

theorem contextTick_apart {s : State} (hP : P = .unit) (h_s : OtherSame P s₀ s) :
    OtherSame P s₀ (contextTick s) := by
  unfold contextTick
  extract_lets v86 v87 v88
  have h89 : OtherSame P s₀ v87 := by
    apply foldState_apart
    · intro z90 z91 h92
      apply barReach_apart
      · with_reducible assumption
      · with_reducible assumption
    · with_reducible assumption
  clear_value v87
  have h93 : OtherSame P s₀ v88 := by
    apply onUnit_apart
    · with_reducible assumption
    · with_reducible assumption
  clear_value v88
  apply onUnit_apart
  · with_reducible assumption
  · with_reducible assumption

end Sys2Proof.Machine
end

