-- ==== Sys2Proof/Laws/ApartHealth.lean ====
section
/-! SUPPORT. The operations of Machine/Health.lean act at one part and leave the other as it is. -/

namespace Sys2Proof.Machine

variable {P : Part} {s₀ : State}

theorem forwardLimited_apart {key : Nat} {body : BitVec 64} {s : State} (hP : P = .dist) (h_s : OtherSame P s₀ s) :
    OtherSame P s₀ (forwardLimited key body s) := by
  unfold forwardLimited
  extract_lets v0 v1
  apply iteState_apart
  · with_reducible assumption
  · apply iteState_apart
    · apply onDist_apart
      · with_reducible assumption
      · with_reducible assumption
    · apply healthUp_apart
      · with_reducible assumption
      · apply onDist_apart
        · with_reducible assumption
        · with_reducible assumption

theorem launchReport_apart {code : BitVec 12} {obj : Nat} {body : BitVec 64} {s : State} (hP : P = .dist) (h_s : OtherSame P s₀ s) :
    OtherSame P s₀ (launchReport code obj body s) := by
  unfold launchReport
  apply iteState_apart
  · apply iteState_apart
    · apply logD_apart
      · with_reducible assumption
      · with_reducible assumption
    · with_reducible assumption
  · apply forwardLimited_apart
    · with_reducible assumption
    · with_reducible assumption

theorem unreachableReport_apart {n : Nat} {body : BitVec 64} {s : State} (hP : P = .dist) (h_s : OtherSame P s₀ s) :
    OtherSame P s₀ (unreachableReport n body s) := by
  unfold unreachableReport
  apply iteState_apart
  · apply iteState_apart
    · apply forwardLimited_apart
      · with_reducible assumption
      · with_reducible assumption
    · with_reducible assumption
  · apply iteState_apart
    · apply onPort_apart
      · exact (portPart_distRef _).trans hP.symm
      · with_reducible assumption
    · with_reducible assumption

theorem faultReport_apart {n : Nat} {uid : Nat} {dist : Bool} {code : BitVec 12} {detail : Nat} {body : BitVec 64} {s : State} (hP : P = .dist) (h_s : OtherSame P s₀ s) :
    OtherSame P s₀ (faultReport n uid dist code detail body s) := by
  unfold faultReport
  extract_lets v3 v4 v5 v6
  have h7 : OtherSame P s₀ v5 := by
    apply onDist_apart
    · with_reducible assumption
    · with_reducible assumption
  clear_value v5
  have h8 : OtherSame P s₀ v6 := by
    apply onDist_apart
    · with_reducible assumption
    · with_reducible assumption
  clear_value v6
  apply iteState_apart
  · apply launchReport_apart
    · with_reducible assumption
    · with_reducible assumption
  · apply iteState_apart
    · apply iteState_apart
      · with_reducible assumption
      · apply healthUp_apart
        · with_reducible assumption
        · with_reducible assumption
    · apply iteState_apart
      · apply unreachableReport_apart
        · with_reducible assumption
        · with_reducible assumption
      · apply iteState_apart
        · apply sendSyncBase_apart
          · with_reducible assumption
          · with_reducible assumption
        · with_reducible assumption

theorem idReport_apart {n : Nat} {uid : Nat} {gone : Bool} {body : BitVec 64} {s : State} (hP : P = .dist) (h_s : OtherSame P s₀ s) :
    OtherSame P s₀ (idReport n uid gone body s) := by
  unfold idReport
  apply iteState_apart
  · apply iteState_apart
    · apply idWithdrawn_apart
      · with_reducible assumption
      · with_reducible assumption
    · apply idAdmitted_apart
      · with_reducible assumption
      · with_reducible assumption
  · apply healthUp_apart
    · with_reducible assumption
    · with_reducible assumption

theorem voteOp_apart {n : Nat} {detail : Nat} {s : State} (hP : P = .dist) (h_s : OtherSame P s₀ s) :
    OtherSame P s₀ (voteOp n detail s) := by
  unfold voteOp
  apply addScore_apart
  · with_reducible assumption
  · apply onPort_apart
    · exact (portPart_distRef _).trans hP.symm
    · with_reducible assumption

theorem healthOp_apart {n : Nat} {uid : Nat} {dist : Bool} {kind : Nat} {code : BitVec 12} {detail : Nat} {body : BitVec 64} {s : State} (hP : P = .dist) (h_s : OtherSame P s₀ s) :
    OtherSame P s₀ (healthOp n uid dist kind code detail body s) := by
  unfold healthOp
  apply iteState_apart
  · with_reducible assumption
  · apply iteState_apart
    · apply iteState_apart
      · apply idReport_apart
        · with_reducible assumption
        · with_reducible assumption
      · with_reducible assumption
    · apply iteState_apart
      · apply faultReport_apart
        · with_reducible assumption
        · with_reducible assumption
      · apply iteState_apart
        · apply voteOp_apart
          · with_reducible assumption
          · with_reducible assumption
        · with_reducible assumption

theorem voteSend_apart {p0 : PortRef} {s : State} (hP : portPart p0 = P) (h_s : OtherSame P s₀ s) :
    OtherSame P s₀ (voteSend p0 s) := by
  unfold voteSend
  extract_lets v9 v10 v11 v12
  have h13 : OtherSame P s₀ v12 := by
    apply onPort_apart
    · with_reducible assumption
    · with_reducible assumption
  clear_value v12
  apply iteState_apart
  · apply sendSeq_apart
    · with_reducible assumption
    · with_reducible assumption
  · with_reducible assumption

theorem expelPort_apart {n : Nat} {s : State} (hP : P = .dist) (h_s : OtherSame P s₀ s) :
    OtherSame P s₀ (expelPort n s) := by
  unfold expelPort
  extract_lets v14 v15 v16 v17
  have h18 : OtherSame P s₀ v15 := by
    apply leaving_apart
    · exact (portPart_distRef _).trans hP.symm
    · intro z19 h20
      apply linkDown_apart
      · exact (portPart_distRef _).trans hP.symm
      · with_reducible assumption
    · apply onPort_apart
      · exact (portPart_distRef _).trans hP.symm
      · with_reducible assumption
  clear_value v15
  have h21 : OtherSame P s₀ v16 := by
    apply onDist_apart
    · with_reducible assumption
    · with_reducible assumption
  clear_value v16
  have h22 : OtherSame P s₀ v17 := by
    apply logD_apart
    · with_reducible assumption
    · with_reducible assumption
  clear_value v17
  apply iteState_apart
  · with_reducible assumption
  · apply sendReport_apart
    · exact (portPart_distRef _).trans hP.symm
    · with_reducible assumption

theorem wouldExpel_apart {n : Nat} {cause : Nat} {s : State} (hP : P = .dist) (h_s : OtherSame P s₀ s) :
    OtherSame P s₀ (wouldExpel n cause s) := by
  unfold wouldExpel
  extract_lets v23 v24 v25 v26
  have h27 : OtherSame P s₀ v25 := by
    apply onPort_apart
    · exact (portPart_distRef _).trans hP.symm
    · with_reducible assumption
  clear_value v25
  have h28 : OtherSame P s₀ v26 := by
    apply iteState_apart
    · with_reducible assumption
    · apply onDist_apart
      · with_reducible assumption
      · with_reducible assumption
  clear_value v26
  apply iteState_apart
  · with_reducible assumption
  · apply logD_apart
    · with_reducible assumption
    · apply onDist_apart
      · with_reducible assumption
      · with_reducible assumption

theorem evaluateOp_apart {s : State} (hP : P = .dist) (h_s : OtherSame P s₀ s) :
    OtherSame P s₀ (evaluateOp s) := by
  unfold evaluateOp
  extract_lets v29 v30
  have h32 : OtherSame P s₀ v30 := by
    apply onDist_apart
    · with_reducible assumption
    · with_reducible assumption
  clear_value v30
  apply iteState_apart
  · apply foldState_apart
    · intro z33 z34 h35
      extract_lets v36
      apply iteState_apart
      · apply expelPort_apart
        · with_reducible assumption
        · with_reducible assumption
      · apply wouldExpel_apart
        · with_reducible assumption
        · with_reducible assumption
    · with_reducible assumption
  · with_reducible assumption

theorem healthReadmitOp_apart {n : Fin 132} {s : State} (hP : P = .dist) (h_s : OtherSame P s₀ s) :
    OtherSame P s₀ (healthReadmitOp n s) := by
  unfold healthReadmitOp
  apply testDown_apart
  · exact hP.symm
  · apply onPort_apart
    · exact hP.symm
    · with_reducible assumption

theorem distStop_apart {s : State} (hP : P = .dist) (h_s : OtherSame P s₀ s) :
    OtherSame P s₀ (distStop s) := by
  unfold distStop
  extract_lets v37
  have h38 : OtherSame P s₀ v37 := by
    apply foldState_apart
    · intro z39 z40 h41
      apply linkDown_apart
      · exact (portPart_distRef _).trans hP.symm
      · with_reducible assumption
    · with_reducible assumption
  clear_value v37
  apply onDist_apart
  · with_reducible assumption
  · with_reducible assumption

theorem wdogOp_apart {engine : Nat} {s : State} (hP : P = .dist) (h_s : OtherSame P s₀ s) :
    OtherSame P s₀ (wdogOp engine s) := by
  unfold wdogOp
  apply distStop_apart
  · with_reducible assumption
  · apply logD_apart
    · with_reducible assumption
    · with_reducible assumption

theorem memFatalOp_apart {mem : Nat} {s : State} (hP : P = .dist) (h_s : OtherSame P s₀ s) :
    OtherSame P s₀ (memFatalOp mem s) := by
  unfold memFatalOp
  apply distStop_apart
  · with_reducible assumption
  · apply logD_apart
    · with_reducible assumption
    · with_reducible assumption

theorem thmJudge_apart {s : State} (hP : P = .dist) (h_s : OtherSame P s₀ s) :
    OtherSame P s₀ (thmJudge s) := by
  unfold thmJudge
  extract_lets v42 v43 v44
  have h45 : OtherSame P s₀ v44 := by
    apply onDist_apart
    · with_reducible assumption
    · with_reducible assumption
  clear_value v44
  apply iteState_apart
  · apply logD_apart
    · with_reducible assumption
    · apply onDist_apart
      · with_reducible assumption
      · with_reducible assumption
  · apply iteState_apart
    · apply onDist_apart
      · with_reducible assumption
      · with_reducible assumption
    · with_reducible assumption

theorem thmSampleOp_apart {k : Nat} {temp : Nat} {s : State} (hP : P = .dist) (h_s : OtherSame P s₀ s) :
    OtherSame P s₀ (thmSampleOp k temp s) := by
  unfold thmSampleOp
  extract_lets v46 v47 v48 v49
  have h50 : OtherSame P s₀ v48 := by
    apply onDist_apart
    · with_reducible assumption
    · with_reducible assumption
  clear_value v48
  have h51 : OtherSame P s₀ v49 := by
    apply thmJudge_apart
    · with_reducible assumption
    · with_reducible assumption
  clear_value v49
  apply iteState_apart
  · apply distStop_apart
    · with_reducible assumption
    · apply logD_apart
      · with_reducible assumption
      · with_reducible assumption
  · with_reducible assumption

theorem thmFailOp_apart {k : Nat} {s : State} (hP : P = .dist) (h_s : OtherSame P s₀ s) :
    OtherSame P s₀ (thmFailOp k s) := by
  unfold thmFailOp
  extract_lets v52
  apply iteState_apart
  · apply logD_apart
    · with_reducible assumption
    · apply onDist_apart
      · with_reducible assumption
      · with_reducible assumption
  · with_reducible assumption

theorem muteOp_apart {s : State} (hP : P = .dist) (h_s : OtherSame P s₀ s) :
    OtherSame P s₀ (muteOp s) := by
  unfold muteOp
  extract_lets v54 v55
  apply iteState_apart
  · apply logD_apart
    · with_reducible assumption
    · apply onDist_apart
      · with_reducible assumption
      · with_reducible assumption
  · with_reducible assumption

theorem soleOp_apart {s : State} (hP : P = .dist) (h_s : OtherSame P s₀ s) :
    OtherSame P s₀ (soleOp s) := by
  unfold soleOp
  extract_lets v57 v58
  have h60 : OtherSame P s₀ v58 := by
    apply onDist_apart
    · with_reducible assumption
    · with_reducible assumption
  clear_value v58
  apply iteState_apart
  · apply launchTake_apart
    · with_reducible assumption
    · apply distSettleAll_apart
      · with_reducible assumption
      · apply logD_apart
        · with_reducible assumption
        · with_reducible assumption
  · with_reducible assumption

theorem ropeLostOp_apart {s : State} (hP : P = .dist) (h_s : OtherSame P s₀ s) :
    OtherSame P s₀ (ropeLostOp s) := by
  unfold ropeLostOp
  extract_lets v61
  apply iteState_apart
  · apply logD_apart
    · with_reducible assumption
    · apply onDist_apart
      · with_reducible assumption
      · with_reducible assumption
  · with_reducible assumption

theorem handbackOp_apart {s : State} (hP : P = .dist) (h_s : OtherSame P s₀ s) :
    OtherSame P s₀ (handbackOp s) := by
  unfold handbackOp
  extract_lets v63 v64 v65 v66
  have h68 : OtherSame P s₀ v64 := by
    apply sendSync_apart
    · with_reducible assumption
    · with_reducible assumption
  clear_value v64
  have h69 : OtherSame P s₀ v66 := by
    apply onDist_apart
    · with_reducible assumption
    · with_reducible assumption
  clear_value v66
  apply iteState_apart
  · apply logD_apart
    · with_reducible assumption
    · with_reducible assumption
  · with_reducible assumption

end Sys2Proof.Machine
end

