-- ==== Sys2Proof/Laws/ApartStartup.lean ====
section
/-! SUPPORT. The operations of Machine/Startup.lean act at one part and leave the other as it is. -/

namespace Sys2Proof.Machine

variable {P : Part} {s₀ : State}

theorem supplyFaultOp_apart {s : State} (hP : P = .dist) (h_s : OtherSame P s₀ s) :
    OtherSame P s₀ (supplyFaultOp s) := by
  unfold supplyFaultOp
  apply onDist_apart
  · with_reducible assumption
  · with_reducible assumption

theorem powerOnOp_apart {s : State} (hP : P = .dist) (h_s : OtherSame P s₀ s) :
    OtherSame P s₀ (powerOnOp s) := by
  unfold powerOnOp
  apply iteState_apart
  · apply onDist_apart
    · with_reducible assumption
    · with_reducible assumption
  · with_reducible assumption

theorem warmResetOp_apart {s : State} (hP : P = .dist) (h_s : OtherSame P s₀ s) :
    OtherSame P s₀ (warmResetOp s) := by
  unfold warmResetOp
  apply iteState_apart
  · with_reducible assumption
  · apply onDist_apart
    · with_reducible assumption
    · with_reducible assumption

theorem perstOp_apart {s : State} (hP : P = .dist) (h_s : OtherSame P s₀ s) :
    OtherSame P s₀ (perstOp s) := by
  unfold perstOp
  apply onDist_apart
  · with_reducible assumption
  · with_reducible assumption

theorem distReleaseOp_apart {st : Straps} {s : State} (hP : P = .dist) (h_s : OtherSame P s₀ s) :
    OtherSame P s₀ (distReleaseOp st s) := by
  unfold distReleaseOp
  extract_lets v0 v1 v2 v3 v4
  apply iteState_apart
  · apply onDist_apart
    · with_reducible assumption
    · with_reducible assumption
  · with_reducible assumption

theorem distInitOp_apart {s : State} (hP : P = .dist) (h_s : OtherSame P s₀ s) :
    OtherSame P s₀ (distInitOp s) := by
  unfold distInitOp
  extract_lets v15
  apply iteState_apart
  · apply foldState_apart
    · intro z18 z19 h20
      apply testDown_apart
      · exact (portPart_distRef _).trans hP.symm
      · with_reducible assumption
    · apply onDist_apart
      · with_reducible assumption
      · with_reducible assumption
  · with_reducible assumption

theorem unitReleaseOp_apart {s : State} (hP : P = .unit) (h_s : OtherSame P s₀ s) :
    OtherSame P s₀ (unitReleaseOp s) := by
  unfold unitReleaseOp
  apply iteState_apart
  · apply onUnit_apart
    · with_reducible assumption
    · with_reducible assumption
  · with_reducible assumption

theorem unitInitOp_apart {s : State} (hP : P = .unit) (h_s : OtherSame P s₀ s) :
    OtherSame P s₀ (unitInitOp s) := by
  unfold unitInitOp
  extract_lets v21 v22
  have h25 : OtherSame P s₀ v22 := by
    apply onUnit_apart
    · with_reducible assumption
    · with_reducible assumption
  clear_value v22
  apply iteState_apart
  · apply unitFsm_apart
    · with_reducible assumption
    · apply testDown_apart
      · exact hP.symm
      · apply testDown_apart
        · exact hP.symm
        · apply setTck_apart
          · with_reducible assumption
          · with_reducible assumption
  · with_reducible assumption

theorem servoReload_apart {s : State} (hP : P = .unit) (h_s : OtherSame P s₀ s) :
    OtherSame P s₀ (servoReload s) := by
  unfold servoReload
  extract_lets v26 v27
  have h28 : OtherSame P s₀ v26 := by
    apply restartDiff_apart
    · exact hP.symm
    · apply stopRebase_apart
      · exact hP.symm
      · with_reducible assumption
  clear_value v26
  have h29 : OtherSame P s₀ v27 := by
    apply onUnit_apart
    · with_reducible assumption
    · with_reducible assumption
  clear_value v27
  apply setSts_apart
  · exact hP.symm
  · apply setSts_apart
    · exact hP.symm
    · apply setLock_apart
      · exact hP.symm
      · apply onServo_apart
        · exact hP.symm
        · with_reducible assumption

theorem reloadOp_apart {s : State} (hP : P = .unit) (h_s : OtherSame P s₀ s) :
    OtherSame P s₀ (reloadOp s) := by
  unfold reloadOp
  extract_lets v30 v31 v32 v33 v34
  have h35 : OtherSame P s₀ v30 := by
    apply onUnit_apart
    · with_reducible assumption
    · with_reducible assumption
  clear_value v30
  have h36 : OtherSame P s₀ v31 := by
    apply dripsReload_apart
    · with_reducible assumption
    · apply clientClear_apart
      · with_reducible assumption
      · apply onUnit_apart
        · with_reducible assumption
        · apply launchReload_apart
          · with_reducible assumption
          · with_reducible assumption
  clear_value v31
  have h37 : OtherSame P s₀ v32 := by
    apply servoReload_apart
    · with_reducible assumption
    · apply onUnit_apart
      · with_reducible assumption
      · with_reducible assumption
  clear_value v32
  have h38 : OtherSame P s₀ v33 := by
    apply onUnit_apart
    · with_reducible assumption
    · with_reducible assumption
  clear_value v33
  have h39 : OtherSame P s₀ v34 := by
    apply onUnit_apart
    · with_reducible assumption
    · with_reducible assumption
  clear_value v34
  apply iteState_apart
  · apply logU_apart
    · with_reducible assumption
    · with_reducible assumption
  · apply unitFsm_apart
    · with_reducible assumption
    · apply chooseActive_apart
      · with_reducible assumption
      · apply onUnit_apart
        · with_reducible assumption
        · apply setTck_apart
          · with_reducible assumption
          · with_reducible assumption

end Sys2Proof.Machine
end

