-- ==== Sys2Proof/Laws/ApartRegWrite.lean ====
section
/-! SUPPORT. The operations of Machine/RegWrite.lean act at one part and leave the other as it is. -/

namespace Sys2Proof.Machine

variable {P : Part} {s₀ : State}

theorem logPart_apart {part : Part} {hu : Hap} {hd : Hap} {obj : Nat} {aux : Nat} {s : State} (hP : part = P) (h_s : OtherSame P s₀ s) :
    OtherSame P s₀ (logPart part hu hd obj aux s) := by
  unfold logPart
  split
  · apply logU_apart
    · exact hP.symm
    · with_reducible assumption
  · apply logD_apart
    · exact hP.symm
    · with_reducible assumption

theorem acceptPrw_apart {part : Part} {p0 : Nat} {o : Nat} {s : State} (hP : part = P) (h_s : OtherSame P s₀ s) :
    OtherSame P s₀ (acceptPrw part p0 o s) := by
  unfold acceptPrw
  extract_lets v0
  have h1 : OtherSame P s₀ v0 := by
    dsimp only [v0]
    split
    · apply onUnit_apart
      · exact hP.symm
      · with_reducible assumption
    · apply onDist_apart
      · exact hP.symm
      · with_reducible assumption
  clear_value v0
  apply logPart_apart
  · with_reducible assumption
  · with_reducible assumption

theorem storeOne_apart {part : Part} {p0 : Nat} {win : Bool} {flds : List Fld} {w : RegW} {s : State} (hP : part = P) (h_s : OtherSame P s₀ s) :
    OtherSame P s₀ (storeOne part p0 win flds w s) := by
  unfold storeOne
  extract_lets v2
  apply onPartBase_apart
  · with_reducible assumption
  · with_reducible assumption

theorem store_apart {part : Part} {p0 : Nat} {flds : Nat → List Fld} {ws : List RegW} {s : State} (hP : part = P) (h_s : OtherSame P s₀ s) :
    OtherSame P s₀ (store part p0 flds ws s) := by
  unfold store
  extract_lets v3 v4 v5 v6 v7
  have h8 : OtherSame P s₀ v7 := by
    apply foldState_apart
    · intro z9 z10 h11
      apply storeOne_apart
      · with_reducible assumption
      · with_reducible assumption
    · with_reducible assumption
  clear_value v7
  apply iteState_apart
  · apply logPart_apart
    · with_reducible assumption
    · with_reducible assumption
  · apply iteState_apart
    · apply acceptPrw_apart
      · with_reducible assumption
      · with_reducible assumption
    · with_reducible assumption

theorem storeChecked_apart {part : Part} {p0 : Nat} {ws : List RegW} {s : State} (hP : part = P) (h_s : OtherSame P s₀ s) :
    OtherSame P s₀ (storeChecked part p0 ws s) := by
  unfold storeChecked
  extract_lets v12 v13 v14 v15 v16
  split
  · apply iteState_apart
    · apply logU_apart
      · exact hP.symm
      · apply store_apart
        · with_reducible assumption
        · with_reducible assumption
    · apply store_apart
      · with_reducible assumption
      · with_reducible assumption
  · apply iteState_apart
    · apply logD_apart
      · exact hP.symm
      · with_reducible assumption
    · apply iteState_apart
      · apply logD_apart
        · exact hP.symm
        · apply store_apart
          · with_reducible assumption
          · with_reducible assumption
      · apply iteState_apart
        · apply logD_apart
          · exact hP.symm
          · apply store_apart
            · with_reducible assumption
            · with_reducible assumption
        · apply store_apart
          · with_reducible assumption
          · with_reducible assumption

theorem setStage_apart {part : Part} {ch : Nat} {p0 : Nat} {o : Nat} {v : Option Word} {s : State} (hP : part = P) (h_s : OtherSame P s₀ s) :
    OtherSame P s₀ (setStage part ch p0 o v s) := by
  unfold setStage
  apply onPartBase_apart
  · with_reducible assumption
  · with_reducible assumption

theorem putReg_apart {part : Part} {ch : Nat} {p0 : Nat} {w : RegW} {s : State} (hP : part = P) (h_s : OtherSame P s₀ s) :
    OtherSame P s₀ (putReg part ch p0 w s) := by
  unfold putReg
  split
  · extract_lets v18 v19
    apply iteState_apart
    · apply setStage_apart
      · with_reducible assumption
      · with_reducible assumption
    · apply storeChecked_apart
      · with_reducible assumption
      · apply foldState_apart
        · intro z20 z21 h22
          apply setStage_apart
          · with_reducible assumption
          · with_reducible assumption
        · with_reducible assumption
  · apply storeChecked_apart
    · with_reducible assumption
    · with_reducible assumption

theorem lockWrite_apart {part : Part} {p0 : Nat} {be : BitVec 4} {data : Word} {s : State} (hP : part = P) (h_s : OtherSame P s₀ s) :
    OtherSame P s₀ (lockWrite part p0 be data s) := by
  unfold lockWrite
  apply iteState_apart
  · with_reducible assumption
  · apply onPartBase_apart
    · with_reducible assumption
    · with_reducible assumption

theorem evcOwn_apart {part : Part} {o : Nat} {be : BitVec 4} {data : Word} {s : State} (hP : part = P) (h_s : OtherSame P s₀ s) :
    OptApart P s₀ (evcOwn part o be data s) := by
  unfold evcOwn
  extract_lets v23
  split
  · apply optSome_apart
    apply pendWriteOp_apart
    · with_reducible assumption
    · with_reducible assumption
  · apply optSome_apart
    apply onPartBase_apart
    · with_reducible assumption
    · with_reducible assumption
  · apply optSome_apart
    apply onPartBase_apart
    · with_reducible assumption
    · with_reducible assumption
  · apply optSome_apart
    apply onPartBase_apart
    · with_reducible assumption
    · with_reducible assumption
  · exact optNone_apart

theorem unitOwn_apart {p0 : Nat} {o : Nat} {be : BitVec 4} {data : Word} {s : State} (hP : P = .unit) (h_s : OtherSame P s₀ s) :
    OptApart P s₀ (unitOwn p0 o be data s) := by
  unfold unitOwn
  extract_lets v24
  apply iteOpt_apart
  · apply optSome_apart
    apply barCtlOp_apart
    · with_reducible assumption
    · with_reducible assumption
  · apply iteOpt_apart
    · apply optSome_apart
      apply barGuarded_apart
      · with_reducible assumption
      · with_reducible assumption
    · apply iteOpt_apart
      · apply optSome_apart
        apply barGuarded_apart
        · with_reducible assumption
        · with_reducible assumption
      · apply iteOpt_apart
        · apply optSome_apart
          apply logU_apart
          · with_reducible assumption
          · with_reducible assumption
        · apply iteOpt_apart
          · apply optSome_apart
            apply galStateOp_apart
            · with_reducible assumption
            · with_reducible assumption
          · apply iteOpt_apart
            · apply optSome_apart
              apply iteState_apart
              · apply modeWriteOp_apart
                · with_reducible assumption
                · with_reducible assumption
              · with_reducible assumption
            · apply iteOpt_apart
              · apply optSome_apart
                apply logU_apart
                · with_reducible assumption
                · with_reducible assumption
              · apply iteOpt_apart
                · apply evcOwn_apart
                  · exact hP.symm
                  · with_reducible assumption
                · exact optNone_apart

theorem galEntryState_apart {p0 : Nat} {o : Nat} {s : State} (hP : P = .dist) (h_s : OtherSame P s₀ s) :
    OptApart P s₀ (galEntryState p0 o s) := by
  unfold galEntryState
  extract_lets v25
  apply iteOpt_apart
  · apply optSome_apart
    apply logD_apart
    · with_reducible assumption
    · with_reducible assumption
  · exact optNone_apart

theorem distOwn_apart {p0 : Nat} {o : Nat} {be : BitVec 4} {data : Word} {s : State} (hP : P = .dist) (h_s : OtherSame P s₀ s) :
    OptApart P s₀ (distOwn p0 o be data s) := by
  unfold distOwn
  apply iteOpt_apart
  · apply optSome_apart
    with_reducible assumption
  · apply iteOpt_apart
    · apply evcOwn_apart
      · exact hP.symm
      · with_reducible assumption
    · apply galEntryState_apart
      · with_reducible assumption
      · with_reducible assumption

theorem restartAvg_apart {part : Part} {s : State} (hP : part = P) (h_s : OtherSame P s₀ s) :
    OtherSame P s₀ (restartAvg part s) := by
  unfold restartAvg
  apply onServo_apart
  · with_reducible assumption
  · with_reducible assumption

theorem groupMove_apart {part : Part} {o : Nat} {old : Base} {s : State} (hP : part = P) (h_s : OtherSame P s₀ s) :
    OtherSame P s₀ (groupMove part o old s) := by
  unfold groupMove
  extract_lets v26
  split
  · apply iteState_apart
    · apply onPartBase_apart
      · with_reducible assumption
      · with_reducible assumption
    · with_reducible assumption
  · with_reducible assumption

theorem linkEnMoved_apart {port : PortRef} {old : Base} {s : State} (hP : portPart port = P) (h_s : OtherSame P s₀ s) :
    OtherSame P s₀ (linkEnMoved port old s) := by
  unfold linkEnMoved
  extract_lets v29
  apply iteState_apart
  · apply enableOp_apart
    · with_reducible assumption
    · with_reducible assumption
  · with_reducible assumption

theorem tapEnMoved_apart {n : Nat} {old : Base} {s : State} (hP : P = .unit) (h_s : OtherSame P s₀ s) :
    OtherSame P s₀ (tapEnMoved n old s) := by
  unfold tapEnMoved
  apply iteState_apart
  · apply onUnit_apart
    · with_reducible assumption
    · with_reducible assumption
  · with_reducible assumption

theorem unitAfter_apart {p0 : Nat} {o : Nat} {be : BitVec 4} {old : Base} {s : State} (hP : P = .unit) (h_s : OtherSame P s₀ s) :
    OtherSame P s₀ (unitAfter p0 o be old s) := by
  unfold unitAfter
  extract_lets v30 v31
  split
  · apply iteState_apart
    · apply restartDiff_apart
      · exact hP.symm
      · with_reducible assumption
    · apply iteState_apart
      · apply restartAvg_apart
        · exact hP.symm
        · with_reducible assumption
      · apply iteState_apart
        · apply applyWord_apart
          · exact hP.symm
          · with_reducible assumption
        · with_reducible assumption
  · apply iteState_apart
    · apply linkEnMoved_apart
      · exact hP.symm
      · with_reducible assumption
    · with_reducible assumption
  · apply iteState_apart
    · apply linkEnMoved_apart
      · exact hP.symm
      · with_reducible assumption
    · with_reducible assumption
  · split
    · apply tapEnMoved_apart
      · with_reducible assumption
      · with_reducible assumption
    · with_reducible assumption
  · split
    · apply onUnit_apart
      · with_reducible assumption
      · with_reducible assumption
    · with_reducible assumption
  · apply iteState_apart
    · apply onUnit_apart
      · with_reducible assumption
      · with_reducible assumption
    · apply iteState_apart
      · apply onUnit_apart
        · with_reducible assumption
        · with_reducible assumption
      · with_reducible assumption
  · apply groupMove_apart
    · exact hP.symm
    · with_reducible assumption
  · apply iteState_apart
    · apply onUnit_apart
      · with_reducible assumption
      · with_reducible assumption
    · with_reducible assumption
  · apply iteState_apart
    · apply applyWord_apart
      · exact hP.symm
      · with_reducible assumption
    · apply iteState_apart
      · apply onUnit_apart
        · with_reducible assumption
        · with_reducible assumption
      · apply iteState_apart
        · apply dripsLimit_apart
          · with_reducible assumption
          · with_reducible assumption
        · with_reducible assumption
  · apply iteState_apart
    · apply onUnit_apart
      · with_reducible assumption
      · with_reducible assumption
    · apply iteState_apart
      · apply onUnit_apart
        · with_reducible assumption
        · with_reducible assumption
      · with_reducible assumption
  · with_reducible assumption

theorem restartRaws_apart {s : State} (hP : P = .dist) (h_s : OtherSame P s₀ s) :
    OtherSame P s₀ (restartRaws s) := by
  unfold restartRaws
  apply foldState_apart
  · intro z34 z35 h36
    apply onPort_apart
    · exact (portPart_distRef _).trans hP.symm
    · with_reducible assumption
  · with_reducible assumption

theorem outsLimit_apart {old : Base} {s : State} (hP : P = .dist) (h_s : OtherSame P s₀ s) :
    OtherSame P s₀ (outsLimit old s) := by
  unfold outsLimit
  extract_lets v37 v38
  have h39 : OtherSame P s₀ v38 := by
    apply iteState_apart
    · apply onRoot_apart
      · with_reducible assumption
      · apply onDist_apart
        · with_reducible assumption
        · with_reducible assumption
    · with_reducible assumption
  clear_value v38
  apply iteState_apart
  · apply onRoot_apart
    · with_reducible assumption
    · apply onDist_apart
      · with_reducible assumption
      · with_reducible assumption
  · with_reducible assumption

theorem steerMoved_apart {s : State} (hP : P = .dist) (h_s : OtherSame P s₀ s) :
    OtherSame P s₀ (steerMoved s) := by
  unfold steerMoved
  apply iteState_apart
  · apply rootWord_apart
    · with_reducible assumption
    · with_reducible assumption
  · apply applyWord_apart
    · exact hP.symm
    · with_reducible assumption

theorem membersMoved_apart {s : State} (hP : P = .dist) (h_s : OtherSame P s₀ s) :
    OtherSame P s₀ (membersMoved s) := by
  unfold membersMoved
  apply iteState_apart
  · apply foldState_apart
    · intro z40 z41 h42
      apply subscribe_apart
      · with_reducible assumption
      · with_reducible assumption
    · with_reducible assumption
  · with_reducible assumption

theorem distAfterLow_apart {p0 : Nat} {o : Nat} {old : Base} {s : State} (hP : P = .dist) (h_s : OtherSame P s₀ s) :
    OtherSame P s₀ (distAfterLow p0 o old s) := by
  unfold distAfterLow
  extract_lets v43 v44 v45
  split
  · apply iteState_apart
    · apply reselect_apart
      · with_reducible assumption
      · with_reducible assumption
    · with_reducible assumption
  · apply iteState_apart
    · apply noteAge_apart
      · with_reducible assumption
      · apply onRoot_apart
        · with_reducible assumption
        · with_reducible assumption
    · with_reducible assumption
  · apply iteState_apart
    · apply ptpRestart_apart
      · with_reducible assumption
      · with_reducible assumption
    · apply iteState_apart
      · apply ptpRestart_apart
        · with_reducible assumption
        · with_reducible assumption
      · apply iteState_apart
        · apply ptpRestart_apart
          · with_reducible assumption
          · with_reducible assumption
        · with_reducible assumption
  · apply iteState_apart
    · with_reducible assumption
    · apply iteState_apart
      · apply restartDiff_apart
        · exact hP.symm
        · with_reducible assumption
      · apply iteState_apart
        · apply restartAvg_apart
          · exact hP.symm
          · with_reducible assumption
        · with_reducible assumption
  · apply iteState_apart
    · apply outsLimit_apart
      · with_reducible assumption
      · with_reducible assumption
    · apply iteState_apart
      · apply steerMoved_apart
        · with_reducible assumption
        · with_reducible assumption
      · apply iteState_apart
        · apply onDist_apart
          · with_reducible assumption
          · with_reducible assumption
        · with_reducible assumption
  · apply iteState_apart
    · apply onDist_apart
      · with_reducible assumption
      · with_reducible assumption
    · apply iteState_apart
      · apply onDist_apart
        · with_reducible assumption
        · with_reducible assumption
      · apply groupMove_apart
        · exact hP.symm
        · with_reducible assumption
  · apply iteState_apart
    · apply restartRaws_apart
      · with_reducible assumption
      · with_reducible assumption
    · with_reducible assumption
  · apply iteState_apart
    · apply thmJudge_apart
      · with_reducible assumption
      · with_reducible assumption
    · with_reducible assumption
  · apply iteState_apart
    · apply restartSrc_apart
      · with_reducible assumption
      · with_reducible assumption
    · with_reducible assumption

theorem distAfter_apart {p0 : Nat} {o : Nat} {old : Base} {s : State} (hP : P = .dist) (h_s : OtherSame P s₀ s) :
    OtherSame P s₀ (distAfter p0 o old s) := by
  unfold distAfter
  extract_lets v48
  have h49 : OtherSame P s₀ v48 := by
    apply onDist_apart
    · with_reducible assumption
    · with_reducible assumption
  clear_value v48
  apply iteState_apart
  · apply iteState_apart
    · apply membersMoved_apart
      · with_reducible assumption
      · with_reducible assumption
    · with_reducible assumption
  · apply iteState_apart
    · apply iteState_apart
      · apply linkEnMoved_apart
        · exact (portPart_distRef _).trans hP.symm
        · with_reducible assumption
      · with_reducible assumption
    · apply distAfterLow_apart
      · with_reducible assumption
      · with_reducible assumption

theorem onBit_apart {m : Nat} {i : Nat} {f : State → State} {s : State}  (h_f : ∀  z, OtherSame P s₀ z → OtherSame P s₀ (f  z)) (h_s : OtherSame P s₀ s) :
    OtherSame P s₀ (onBit m i f s) := by
  unfold onBit
  apply iteState_apart
  · apply h_f
    with_reducible assumption
  · with_reducible assumption

theorem semCmds_apart {m : Nat} {s : State} (hP : P = .unit) (h_s : OtherSame P s₀ s) :
    OtherSame P s₀ (semCmds m s) := by
  unfold semCmds
  extract_lets v50
  have h51 : OtherSame P s₀ v50 := by
    apply iteState_apart
    · apply semAddCmd_apart
      · with_reducible assumption
      · with_reducible assumption
    · apply iteState_apart
      · apply semSubCmd_apart
        · with_reducible assumption
        · with_reducible assumption
      · apply iteState_apart
        · apply semSetCmd_apart
          · with_reducible assumption
          · with_reducible assumption
        · apply iteState_apart
          · apply semClrCmd_apart
            · with_reducible assumption
            · with_reducible assumption
          · with_reducible assumption
  clear_value v50
  apply onBit_apart
  · intro z52 h53
    apply semViewCmd_apart
    · with_reducible assumption
    · with_reducible assumption
  · with_reducible assumption

theorem fncDiscard_apart {s : State} (hP : P = .unit) (h_s : OtherSame P s₀ s) :
    OtherSame P s₀ (fncDiscard s) := by
  unfold fncDiscard
  extract_lets v54
  apply logU_apart
  · with_reducible assumption
  · apply onUnit_apart
    · with_reducible assumption
    · with_reducible assumption

theorem fltCmds_apart {part : Part} {m : Nat} {s : State} (hP : part = P) (h_s : OtherSame P s₀ s) :
    OtherSame P s₀ (fltCmds part m s) := by
  unfold fltCmds
  apply onBit_apart
  · intro z55 h56
    apply onPartBase_apart
    · with_reducible assumption
    · with_reducible assumption
  · apply onBit_apart
    · intro z57 h58
      apply onPartBase_apart
      · with_reducible assumption
      · with_reducible assumption
    · with_reducible assumption

theorem origCmds_apart {m : Nat} {s : State} (hP : P = .unit) (h_s : OtherSame P s₀ s) :
    OtherSame P s₀ (origCmds m s) := by
  unfold origCmds
  apply iteState_apart
  · apply cancelLaunch_apart
    · with_reducible assumption
    · with_reducible assumption
  · apply iteState_apart
    · apply origStart_apart
      · with_reducible assumption
      · with_reducible assumption
    · with_reducible assumption

theorem unitCmdsA_apart {p0 : Nat} {o : Nat} {m : Nat} {s : State} (hP : P = .unit) (h_s : OtherSame P s₀ s) :
    OtherSame P s₀ (unitCmdsA p0 o m s) := by
  unfold unitCmdsA
  split
  · apply onBit_apart
    · intro z59 h60
      apply reloadOp_apart
      · with_reducible assumption
      · with_reducible assumption
    · with_reducible assumption
  · apply onBit_apart
    · intro z61 h62
      apply ifUnitRuns_apart
      · intro z63 h64
        apply rebaseOp_apart
        · with_reducible assumption
        · with_reducible assumption
      · with_reducible assumption
    · apply onBit_apart
      · intro z65 h66
        apply ifUnitRuns_apart
        · intro z67 h68
          apply commandSwitch_apart
          · exact hP.symm
          · with_reducible assumption
        · with_reducible assumption
      · with_reducible assumption
  · apply onBit_apart
    · intro z69 h70
      apply onPort_apart
      · exact hP.symm
      · with_reducible assumption
    · with_reducible assumption
  · apply onBit_apart
    · intro z71 h72
      apply onPort_apart
      · exact hP.symm
      · with_reducible assumption
    · with_reducible assumption
  · split
    · apply onBit_apart
      · intro z73 h74
        apply onUnit_apart
        · with_reducible assumption
        · with_reducible assumption
      · with_reducible assumption
    · with_reducible assumption
  · split
    · apply iteState_apart
      · apply onUnit_apart
        · with_reducible assumption
        · with_reducible assumption
      · apply onBit_apart
        · intro z75 h76
          apply dripRegArm_apart
          · with_reducible assumption
          · with_reducible assumption
        · with_reducible assumption
    · with_reducible assumption
  · apply origCmds_apart
    · with_reducible assumption
    · with_reducible assumption
  · apply onBit_apart
    · intro z77 h78
      apply onUnit_apart
      · with_reducible assumption
      · with_reducible assumption
    · apply onBit_apart
      · intro z79 h80
        apply onUnit_apart
        · with_reducible assumption
        · with_reducible assumption
      · apply onBit_apart
        · intro z81 h82
          apply insertOp_apart
          · with_reducible assumption
          · with_reducible assumption
        · with_reducible assumption

theorem unitCmdsB_apart {p0 : Nat} {o : Nat} {m : Nat} {be : BitVec 4} {s : State} (hP : P = .unit) (h_s : OtherSame P s₀ s) :
    OtherSame P s₀ (unitCmdsB p0 o m be s) := by
  unfold unitCmdsB
  split
  · apply semCmds_apart
    · with_reducible assumption
    · with_reducible assumption
  · apply onBit_apart
    · intro z83 h84
      apply barResetOp_apart
      · with_reducible assumption
      · with_reducible assumption
    · with_reducible assumption
  · apply onBit_apart
    · intro z85 h86
      apply onUnit_apart
      · with_reducible assumption
      · with_reducible assumption
    · apply onBit_apart
      · intro z87 h88
        apply onUnit_apart
        · with_reducible assumption
        · with_reducible assumption
      · with_reducible assumption
  · apply onBit_apart
    · intro z89 h90
      apply fncDiscard_apart
      · with_reducible assumption
      · with_reducible assumption
    · apply onBit_apart
      · intro z91 h92
        apply onUnit_apart
        · with_reducible assumption
        · with_reducible assumption
      · with_reducible assumption
  · split
    · apply iteState_apart
      · apply eoi_apart
        · with_reducible assumption
        · with_reducible assumption
      · with_reducible assumption
    · apply onBit_apart
      · intro z93 h94
        apply onUnit_apart
        · with_reducible assumption
        · with_reducible assumption
      · with_reducible assumption
    · with_reducible assumption
  · apply onBit_apart
    · intro z95 h96
      apply onUnit_apart
      · with_reducible assumption
      · with_reducible assumption
    · with_reducible assumption
  · apply fltCmds_apart
    · exact hP.symm
    · with_reducible assumption
  · apply onBit_apart
    · intro z97 h98
      apply ctxClearOp_apart
      · with_reducible assumption
      · with_reducible assumption
    · with_reducible assumption
  · apply onBit_apart
    · intro z99 h100
      apply onUnit_apart
      · with_reducible assumption
      · with_reducible assumption
    · apply onBit_apart
      · intro z101 h102
        apply onUnit_apart
        · with_reducible assumption
        · with_reducible assumption
      · apply onBit_apart
        · intro z103 h104
          apply onUnit_apart
          · with_reducible assumption
          · with_reducible assumption
        · apply onBit_apart
          · intro z105 h106
            apply onUnit_apart
            · with_reducible assumption
            · with_reducible assumption
          · with_reducible assumption
  · with_reducible assumption

theorem armEpochOp_apart {s : State} (hP : P = .dist) (h_s : OtherSame P s₀ s) :
    OtherSame P s₀ (armEpochOp s) := by
  unfold armEpochOp
  extract_lets v107 v108
  apply iteState_apart
  · apply logD_apart
    · with_reducible assumption
    · with_reducible assumption
  · apply onRoot_apart
    · with_reducible assumption
    · apply onDist_apart
      · with_reducible assumption
      · with_reducible assumption

theorem distCmds_apart {p0 : Nat} {m : Nat} {s : State} (hP : P = .dist) (h_s : OtherSame P s₀ s) :
    OtherSame P s₀ (distCmds p0 m s) := by
  unfold distCmds
  apply iteState_apart
  · split
    · apply onBit_apart
      · intro z110 h111
        apply healthReadmitOp_apart
        · with_reducible assumption
        · with_reducible assumption
      · apply onBit_apart
        · intro z112 h113
          apply onPort_apart
          · exact hP.symm
          · with_reducible assumption
        · with_reducible assumption
    · with_reducible assumption
  · split
    · apply onBit_apart
      · intro z114 h115
        apply armEpochOp_apart
        · with_reducible assumption
        · with_reducible assumption
      · with_reducible assumption
    · apply onBit_apart
      · intro z116 h117
        apply ifDistRuns_apart
        · intro z118 h119
          apply realignOp_apart
          · with_reducible assumption
          · with_reducible assumption
        · with_reducible assumption
      · with_reducible assumption
    · apply onBit_apart
      · intro z120 h121
        apply ifDistRuns_apart
        · intro z122 h123
          apply iteState_apart
          · with_reducible assumption
          · apply commandSwitch_apart
            · exact hP.symm
            · with_reducible assumption
        · with_reducible assumption
      · with_reducible assumption
    · apply onBit_apart
      · intro z124 h125
        apply closeOp_apart
        · with_reducible assumption
        · with_reducible assumption
      · with_reducible assumption
    · apply fltCmds_apart
      · exact hP.symm
      · with_reducible assumption
    · apply onBit_apart
      · intro z126 h127
        apply onDist_apart
        · with_reducible assumption
        · with_reducible assumption
      · with_reducible assumption
    · with_reducible assumption

theorem writeReg_apart {part : Part} {ch : Nat} {p0 : Nat} {o : Nat} {be : BitVec 4} {data : Word} {s : State} (hP : part = P)
    (h_s : OtherSame P s₀ s) : OtherSame P s₀ (writeReg part ch p0 o be data s) := by
  unfold writeReg
  extract_lets v1 own old flds v2
  have ho : OptApart P s₀ own := by
    cases part
    · dsimp only [own]
      apply iteOpt_apart
      · exact optSome_apart h_s
      · exact unitOwn_apart hP.symm h_s
    · exact distOwn_apart hP.symm h_s
  clear_value own
  cases own with
  | some t => exact ho t rfl
  | none =>
    dsimp only
    apply iteState_apart
    · apply lockWrite_apart
      · with_reducible assumption
      · with_reducible assumption
    · split
      · apply iteState_apart
        · apply iteState_apart
          · with_reducible assumption
          · apply putReg_apart
            · with_reducible assumption
            · with_reducible assumption
        · apply iteState_apart
          · apply iteState_apart
            · apply unitCmdsA_apart
              · exact hP.symm
              · apply unitAfter_apart
                · exact hP.symm
                · apply iteState_apart
                  · with_reducible assumption
                  · apply putReg_apart
                    · with_reducible assumption
                    · with_reducible assumption
            · apply unitCmdsB_apart
              · exact hP.symm
              · apply unitAfter_apart
                · exact hP.symm
                · apply iteState_apart
                  · with_reducible assumption
                  · apply putReg_apart
                    · with_reducible assumption
                    · with_reducible assumption
          · apply unitAfter_apart
            · exact hP.symm
            · apply iteState_apart
              · with_reducible assumption
              · apply putReg_apart
                · with_reducible assumption
                · with_reducible assumption
      · apply iteState_apart
        · apply iteState_apart
          · with_reducible assumption
          · apply putReg_apart
            · with_reducible assumption
            · with_reducible assumption
        · apply iteState_apart
          · apply distCmds_apart
            · exact hP.symm
            · apply distAfter_apart
              · exact hP.symm
              · apply iteState_apart
                · with_reducible assumption
                · apply putReg_apart
                  · with_reducible assumption
                  · with_reducible assumption
          · apply distAfter_apart
            · exact hP.symm
            · apply iteState_apart
              · with_reducible assumption
              · apply putReg_apart
                · with_reducible assumption
                · with_reducible assumption

end Sys2Proof.Machine
end

