-- ==== Sys2Proof/Laws/ApartRegAccess.lean ====
section
/-! SUPPORT. The operations of Machine/RegAccess.lean act at one part and leave the other as it is. -/

namespace Sys2Proof.Machine

variable {P : Part} {s₀ : State}

theorem noteError_apart {part : Part} {ch : Nat} {addr : Nat} {code : Nat} {write : Bool} {s : State} (hP : part = P) (h_s : OtherSame P s₀ s) :
    OtherSame P s₀ (noteError part ch addr code write s) := by
  unfold noteError
  extract_lets v0
  apply onPartBase_apart
  · with_reducible assumption
  · with_reducible assumption

theorem lockRead_apart {part : Part} {p0 : Nat} {s : State} (hP : part = P) (h_s : OtherSame P s₀ s) :
    OtherSame P s₀ (lockRead part p0 s).2 := by
  unfold lockRead
  extract_lets v1 v2 v3
  dsimp only
  apply iteState_apart
  · with_reducible assumption
  · apply onPartBase_apart
    · with_reducible assumption
    · with_reducible assumption

theorem pendRead_apart {part : Part} {w : Nat} {s : State} (hP : part = P) (h_s : OtherSame P s₀ s) :
    OtherSame P s₀ (pendRead part w s).2 := by
  unfold pendRead
  dsimp only
  apply onPartBase_apart
  · with_reducible assumption
  · with_reducible assumption

theorem unitActs_apart {ch : Nat} {p0 : Nat} {o : Nat} {s : State} (hP : P = .unit) (h_s : OtherSame P s₀ s) :
    OptPairApart P s₀ (unitActs ch p0 o s) := by
  unfold unitActs
  extract_lets v4 v5 v6 v7 v8 v9
  apply iteOptPair_apart
  · apply optPairSome_apart
    dsimp only
    apply iteState_apart
    · with_reducible assumption
    · apply onUnit_apart
      · with_reducible assumption
      · with_reducible assumption
  · split
    · apply optPairSome_apart
      dsimp only
      apply mkUnit_apart
      · with_reducible assumption
      · with_reducible assumption
    · apply optPairSome_apart
      dsimp only
      apply mkUnit_apart
      · with_reducible assumption
      · with_reducible assumption
    · apply optPairSome_apart
      dsimp only
      apply mkUnit_apart
      · with_reducible assumption
      · with_reducible assumption
    · apply optPairSome_apart
      dsimp only
      apply onUnit_apart
      · with_reducible assumption
      · with_reducible assumption
    · split
      · apply optPairSome_apart
        apply claim_apart
        · with_reducible assumption
        · with_reducible assumption
      · apply optPairSome_apart
        apply pendRead_apart
        · exact hP.symm
        · with_reducible assumption
      · exact optPairNone_apart
    · exact optPairNone_apart

theorem distActs_apart {ch : Nat} {p0 : Nat} {o : Nat} {s : State} (hP : P = .dist) (h_s : OtherSame P s₀ s) :
    OptPairApart P s₀ (distActs ch p0 o s) := by
  unfold distActs
  split
  · exact optPairSome_apart (onDist_apart hP h_s)
  · generalize arrIx _ 0x080 4 6 = w
    cases w with
    | none => exact optPairNone_apart
    | some w => exact optPairSome_apart (pendRead_apart hP.symm h_s)
  · exact optPairNone_apart

theorem readActs_apart {part : Part} {ch : Nat} {p0 : Nat} {o : Nat} {s : State} (hP : part = P) (h_s : OtherSame P s₀ s) :
    OptPairApart P s₀ (readActs part ch p0 o s) := by
  unfold readActs
  apply iteOptPair_apart
  · apply optPairSome_apart
    apply lockRead_apart
    · with_reducible assumption
    · with_reducible assumption
  · split
    · apply unitActs_apart
      · exact hP.symm
      · with_reducible assumption
    · apply distActs_apart
      · exact hP.symm
      · with_reducible assumption

theorem latchRest_apart {part : Part} {ch : Nat} {p0 : Nat} {b : Nat} {n : Nat} {s : State} (hP : part = P) (h_s : OtherSame P s₀ s) :
    OtherSame P s₀ (latchRest part ch p0 b n s) := by
  unfold latchRest
  apply foldState_apart
  · intro z14 z15 h16
    apply onPartBase_apart
    · with_reducible assumption
    · with_reducible assumption
  · with_reducible assumption

theorem readReg_apart {part : Part} {ch : Nat} {p0 : Nat} {o : Nat} {s : State} (hP : part = P) (h_s : OtherSame P s₀ s) :
    OtherSame P s₀ (readReg part ch p0 o s).2 := by
  unfold readReg
  split
  · exact readActs_apart hP h_s _ (by assumption)
  · split
    · split
      · exact latchRest_apart hP h_s
      · exact h_s
    · exact h_s

theorem readAccess_apart {part : Part} {ch : Nat} {addr : Nat} {s : State} (hP : part = P) (h_s : OtherSame P s₀ s) :
    OtherSame P s₀ (readAccess part ch addr s).2.2 := by
  unfold readAccess
  extract_lets v17 v18
  have h19 : OtherSame P s₀ v18.2 := by
    apply readReg_apart
    · with_reducible assumption
    · with_reducible assumption
  clear_value v18
  split
  · dsimp only
    apply noteError_apart
    · with_reducible assumption
    · with_reducible assumption
  · with_reducible assumption

theorem writeAccess_apart {part : Part} {ch : Nat} {addr : Nat} {be : BitVec 4} {data : Word} {s : State} (hP : part = P) (h_s : OtherSame P s₀ s) :
    OtherSame P s₀ (writeAccess part ch addr be data s).2 := by
  unfold writeAccess
  extract_lets v20
  split
  · dsimp only
    apply noteError_apart
    · with_reducible assumption
    · with_reducible assumption
  · dsimp only
    apply writeReg_apart
    · with_reducible assumption
    · with_reducible assumption

theorem ifChannel_apart {part : Part} {ch : Nat} {f : State → State} {s : State} (hP : part = P) (h_f : ∀  z, OtherSame P s₀ z → OtherSame P s₀ (f  z)) (h_s : OtherSame P s₀ s) :
    OtherSame P s₀ (ifChannel part ch f s) := by
  unfold ifChannel
  apply iteState_apart
  · apply ifPart_apart
    · with_reducible assumption
    · with_reducible assumption
    · with_reducible assumption
  · with_reducible assumption

theorem readRow_apart {part : Part} {ch : BitVec 3} {addr : Nat} {s : State} (hP : part = P) (h_s : OtherSame P s₀ s) :
    OtherSame P s₀ (readRow part ch addr s) := by
  unfold readRow
  extract_lets v21
  apply onPartBase_apart
  · with_reducible assumption
  · apply readAccess_apart
    · with_reducible assumption
    · with_reducible assumption

theorem writeRow_apart {part : Part} {ch : BitVec 3} {addr : Nat} {be : BitVec 4} {data : Word} {s : State} (hP : part = P) (h_s : OtherSame P s₀ s) :
    OtherSame P s₀ (writeRow part ch addr be data s) := by
  unfold writeRow
  extract_lets v22
  have h23 : OtherSame P s₀ v22.2 := by
    apply writeAccess_apart
    · with_reducible assumption
    · with_reducible assumption
  clear_value v22
  apply onPartBase_apart
  · with_reducible assumption
  · with_reducible assumption

theorem timeoutRow_apart {part : Part} {ch : BitVec 3} {write : Bool} {addr : Nat} {s : State} (hP : part = P) (h_s : OtherSame P s₀ s) :
    OtherSame P s₀ (timeoutRow part ch write addr s) := by
  unfold timeoutRow
  extract_lets v24 v25 v26
  have h27 : OtherSame P s₀ v26 := by
    apply noteError_apart
    · with_reducible assumption
    · apply logPart_apart
      · with_reducible assumption
      · with_reducible assumption
  clear_value v26
  apply onPartBase_apart
  · with_reducible assumption
  · with_reducible assumption

theorem smbAnswer_apart {ack : Bool} {data : List (BitVec 8)} {s : State} (hP : P = .dist) (h_s : OtherSame P s₀ s) :
    OtherSame P s₀ (smbAnswer ack data s) := by
  unfold smbAnswer
  apply onDist_apart
  · with_reducible assumption
  · with_reducible assumption

theorem smbWrite_apart {addr : Nat} {data : Word} {pecOk : Bool} {s : State} (hP : P = .dist) (h_s : OtherSame P s₀ s) :
    OtherSame P s₀ (smbWrite addr data pecOk s) := by
  unfold smbWrite
  apply iteState_apart
  · apply smbAnswer_apart
    · with_reducible assumption
    · apply writeAccess_apart
      · exact hP.symm
      · with_reducible assumption
  · apply smbAnswer_apart
    · with_reducible assumption
    · with_reducible assumption

theorem smbRequest_apart {addr : Nat} {pecOk : Bool} {s : State} (hP : P = .dist) (h_s : OtherSame P s₀ s) :
    OtherSame P s₀ (smbRequest addr pecOk s) := by
  unfold smbRequest
  extract_lets v28
  apply iteState_apart
  · apply smbAnswer_apart
    · with_reducible assumption
    · apply onDist_apart
      · with_reducible assumption
      · apply readAccess_apart
        · exact hP.symm
        · with_reducible assumption
  · apply smbAnswer_apart
    · with_reducible assumption
    · with_reducible assumption

theorem smbRead_apart {s : State} (hP : P = .dist) (h_s : OtherSame P s₀ s) :
    OtherSame P s₀ (smbRead s) := by
  unfold smbRead
  extract_lets v29
  apply smbAnswer_apart
  · with_reducible assumption
  · apply onDist_apart
    · with_reducible assumption
    · with_reducible assumption

end Sys2Proof.Machine
end

