-- ==== Sys2Proof/Laws/ApartCommands.lean ====
section
/-! SUPPORT. What every command leaves as it is: the part at which it does not happen. -/

namespace Sys2Proof.Machine



/-! ## Machine/LinkRows.lean -/

theorem execLinkEnableWrite_apart {port : PortRef} {en : Bool} {s t : State} {P : Part} (hP : commandPart (.linkEnableWrite port en) = P)
    (h : execLinkEnableWrite port en s = .next t) : OtherSame P s t := by
  unfold execLinkEnableWrite at h
  injection h with h
  rw [← h]
  have h0 := OtherSame.refl P s
  dsimp only [commandPart] at hP
  split
  · apply ifUnit_apart
    · intro z0 h1
      apply enableOp_apart
      · with_reducible assumption
      · with_reducible assumption
    · with_reducible assumption
  · apply ifDist_apart
    · intro z2 h3
      apply enableOp_apart
      · with_reducible assumption
      · with_reducible assumption
    · with_reducible assumption

theorem execLinkCntClr_apart {port : PortRef} {s t : State} {P : Part} (hP : commandPart (.linkCntClr port) = P)
    (h : execLinkCntClr port s = .next t) : OtherSame P s t := by
  unfold execLinkCntClr at h
  injection h with h
  rw [← h]
  have h0 := OtherSame.refl P s
  dsimp only [commandPart] at hP
  split
  · apply ifUnit_apart
    · intro z4 h5
      apply onPort_apart
      · with_reducible assumption
      · with_reducible assumption
    · with_reducible assumption
  · apply ifDist_apart
    · intro z6 h7
      apply onPort_apart
      · with_reducible assumption
      · with_reducible assumption
    · with_reducible assumption

theorem execSignalDetect_apart {port : PortRef} {lane : Bool} {present : Bool} {s t : State} {P : Part} (hP : commandPart (.signalDetect port lane present) = P)
    (h : execSignalDetect port lane present s = .next t) : OtherSame P s t := by
  unfold execSignalDetect at h
  injection h with h
  rw [← h]
  have h0 := OtherSame.refl P s
  dsimp only [commandPart] at hP
  apply signalOp_apart
  · with_reducible assumption
  · with_reducible assumption

theorem execBlockLockAcquired_apart {port : PortRef} {lane : Bool} {s t : State} {P : Part} (hP : commandPart (.blockLockAcquired port lane) = P)
    (h : execBlockLockAcquired port lane s = .next t) : OtherSame P s t := by
  unfold execBlockLockAcquired at h
  injection h with h
  rw [← h]
  have h0 := OtherSame.refl P s
  dsimp only [commandPart] at hP
  apply ifPort_apart
  · with_reducible assumption
  · intro z8 h9
    apply lockOpLane_apart
    · with_reducible assumption
    · with_reducible assumption
  · with_reducible assumption

theorem execBlockLockLost_apart {port : PortRef} {lane : Bool} {s t : State} {P : Part} (hP : commandPart (.blockLockLost port lane) = P)
    (h : execBlockLockLost port lane s = .next t) : OtherSame P s t := by
  unfold execBlockLockLost at h
  injection h with h
  rw [← h]
  have h0 := OtherSame.refl P s
  dsimp only [commandPart] at hP
  apply ifPort_apart
  · with_reducible assumption
  · intro z10 h11
    apply lockOpLane_apart
    · with_reducible assumption
    · with_reducible assumption
  · with_reducible assumption

theorem execTrainingBlockRx_apart {port : PortRef} {lane : Bool} {rxLock : Bool} {ready : Bool} {s t : State} {P : Part} (hP : commandPart (.trainingBlockRx port lane rxLock ready) = P)
    (h : execTrainingBlockRx port lane rxLock ready s = .next t) : OtherSame P s t := by
  unfold execTrainingBlockRx at h
  injection h with h
  rw [← h]
  have h0 := OtherSame.refl P s
  dsimp only [commandPart] at hP
  apply ifPort_apart
  · with_reducible assumption
  · intro z12 h13
    apply trainBlockOp_apart
    · with_reducible assumption
    · with_reducible assumption
  · with_reducible assumption

theorem execFramesStart_apart {port : PortRef} {s t : State} {P : Part} (hP : commandPart (.framesStart port) = P)
    (h : execFramesStart port s = .next t) : OtherSame P s t := by
  unfold execFramesStart at h
  injection h with h
  rw [← h]
  have h0 := OtherSame.refl P s
  dsimp only [commandPart] at hP
  apply ifPort_apart
  · with_reducible assumption
  · intro z14 h15
    apply framesOp_apart
    · with_reducible assumption
    · with_reducible assumption
  · with_reducible assumption

theorem execTrainLimitExpiry_apart {port : PortRef} {s t : State} {P : Part} (hP : commandPart (.trainLimitExpiry port) = P)
    (h : execTrainLimitExpiry port s = .next t) : OtherSame P s t := by
  unfold execTrainLimitExpiry at h
  injection h with h
  rw [← h]
  have h0 := OtherSame.refl P s
  dsimp only [commandPart] at hP
  apply ifPort_apart
  · with_reducible assumption
  · intro z16 h17
    apply trainFailOp_apart
    · with_reducible assumption
    · with_reducible assumption
  · with_reducible assumption

theorem execTrainRetryTimer_apart {port : PortRef} {s t : State} {P : Part} (hP : commandPart (.trainRetryTimer port) = P)
    (h : execTrainRetryTimer port s = .next t) : OtherSame P s t := by
  unfold execTrainRetryTimer at h
  injection h with h
  rw [← h]
  have h0 := OtherSame.refl P s
  dsimp only [commandPart] at hP
  apply ifPort_apart
  · with_reducible assumption
  · intro z18 h19
    apply testDown_apart
    · with_reducible assumption
    · with_reducible assumption
  · with_reducible assumption

theorem execSpareTrainTimeout_apart {port : PortRef} {s t : State} {P : Part} (hP : commandPart (.spareTrainTimeout port) = P)
    (h : execSpareTrainTimeout port s = .next t) : OtherSame P s t := by
  unfold execSpareTrainTimeout at h
  injection h with h
  rw [← h]
  have h0 := OtherSame.refl P s
  dsimp only [commandPart] at hP
  apply ifPort_apart
  · with_reducible assumption
  · intro z20 h21
    apply spareFailOp_apart
    · with_reducible assumption
    · with_reducible assumption
  · with_reducible assumption

theorem execSpareRetrainTimer_apart {port : PortRef} {s t : State} {P : Part} (hP : commandPart (.spareRetrainTimer port) = P)
    (h : execSpareRetrainTimer port s = .next t) : OtherSame P s t := by
  unfold execSpareRetrainTimer at h
  injection h with h
  rw [← h]
  have h0 := OtherSame.refl P s
  dsimp only [commandPart] at hP
  apply ifPort_apart
  · with_reducible assumption
  · intro z22 h23
    apply spareRetryOp_apart
    · with_reducible assumption
    · with_reducible assumption
  · with_reducible assumption

theorem execLinkSilence_apart {port : PortRef} {s t : State} {P : Part} (hP : commandPart (.linkSilence port) = P)
    (h : execLinkSilence port s = .next t) : OtherSame P s t := by
  unfold execLinkSilence at h
  injection h with h
  rw [← h]
  have h0 := OtherSame.refl P s
  dsimp only [commandPart] at hP
  apply ifPort_apart
  · with_reducible assumption
  · intro z24 h25
    split
    · apply unitFsm_apart
      · exact hP.symm
      · apply silenceOp_apart
        · with_reducible assumption
        · with_reducible assumption
    · apply silenceOp_apart
      · with_reducible assumption
      · with_reducible assumption
  · with_reducible assumption

theorem execReadmitTimer_apart {port : PortRef} {s t : State} {P : Part} (hP : commandPart (.readmitTimer port) = P)
    (h : execReadmitTimer port s = .next t) : OtherSame P s t := by
  unfold execReadmitTimer at h
  injection h with h
  rw [← h]
  have h0 := OtherSame.refl P s
  dsimp only [commandPart] at hP
  apply ifPort_apart
  · with_reducible assumption
  · intro z26 h27
    apply readmitOp_apart
    · with_reducible assumption
    · with_reducible assumption
  · with_reducible assumption

theorem execAdmitWaitTimer_apart {port : PortRef} {s t : State} {P : Part} (hP : commandPart (.admitWaitTimer port) = P)
    (h : execAdmitWaitTimer port s = .next t) : OtherSame P s t := by
  unfold execAdmitWaitTimer at h
  injection h with h
  rw [← h]
  have h0 := OtherSame.refl P s
  dsimp only [commandPart] at hP
  apply ifPort_apart
  · with_reducible assumption
  · intro z28 h29
    apply admitWaitOp_apart
    · with_reducible assumption
    · with_reducible assumption
  · with_reducible assumption

theorem execIdleRx_apart {rx : RxU} {spareOk : Bool} {rxLane : Bool} {slipEn : Bool} {slip : BitVec 2} {s t : State} {P : Part} (hP : commandPart (.idleRx rx spareOk rxLane slipEn slip) = P)
    (h : execIdleRx rx spareOk rxLane slipEn slip s = .next t) : OtherSame P s t := by
  unfold execIdleRx at h
  injection h with h
  rw [← h]
  have h0 := OtherSame.refl P s
  dsimp only [commandPart] at hP
  apply ifPort_apart
  · with_reducible assumption
  · intro z30 h31
    extract_lets v32
    apply iteState_apart
    · apply onPort_apart
      · with_reducible assumption
      · apply rxUns_apart
        · with_reducible assumption
        · with_reducible assumption
    · apply rxUns_apart
      · with_reducible assumption
      · with_reducible assumption
  · with_reducible assumption

theorem execCrcBadFrameRx_apart {port : PortRef} {lane : Bool} {frame : BitVec 78} {s t : State} {P : Part} (hP : commandPart (.crcBadFrameRx port lane frame) = P)
    (h : execCrcBadFrameRx port lane frame s = .next t) : OtherSame P s t := by
  unfold execCrcBadFrameRx at h
  injection h with h
  rw [← h]
  have h0 := OtherSame.refl P s
  dsimp only [commandPart] at hP
  apply ifPort_apart
  · with_reducible assumption
  · intro z34 h35
    apply crcBadOp_apart
    · with_reducible assumption
    · with_reducible assumption
  · with_reducible assumption

theorem execReservedTypeFrameRx_apart {rx : Rx} {typ : BitVec 6} {body : BitVec 64} {s t : State} {P : Part} (hP : commandPart (.reservedTypeFrameRx rx typ body) = P)
    (h : execReservedTypeFrameRx rx typ body s = .next t) : OtherSame P s t := by
  unfold execReservedTypeFrameRx at h
  injection h with h
  rw [← h]
  have h0 := OtherSame.refl P s
  dsimp only [commandPart] at hP
  apply ifPort_apart
  · with_reducible assumption
  · intro z36 h37
    apply reservedOp_apart
    · with_reducible assumption
    · with_reducible assumption
  · with_reducible assumption

theorem execUnexpectedFrameRx_apart {rx : Rx} {typ : BitVec 6} {body : BitVec 64} {s t : State} {P : Part} (hP : commandPart (.unexpectedFrameRx rx typ body) = P)
    (h : execUnexpectedFrameRx rx typ body s = .next t) : OtherSame P s t := by
  unfold execUnexpectedFrameRx at h
  injection h with h
  rw [← h]
  have h0 := OtherSame.refl P s
  dsimp only [commandPart] at hP
  apply ifPort_apart
  · with_reducible assumption
  · intro z38 h39
    apply unexpectedOp_apart
    · with_reducible assumption
    · with_reducible assumption
  · with_reducible assumption

theorem execAckTimer_apart {port : PortRef} {s t : State} {P : Part} (hP : commandPart (.ackTimer port) = P)
    (h : execAckTimer port s = .next t) : OtherSame P s t := by
  unfold execAckTimer at h
  injection h with h
  rw [← h]
  have h0 := OtherSame.refl P s
  dsimp only [commandPart] at hP
  apply ifPort_apart
  · with_reducible assumption
  · intro z40 h41
    apply ackDueOp_apart
    · with_reducible assumption
    · with_reducible assumption
  · with_reducible assumption

theorem execAckRx_apart {rx : RxU} {ackSeq : BitVec 8} {s t : State} {P : Part} (hP : commandPart (.ackRx rx ackSeq) = P)
    (h : execAckRx rx ackSeq s = .next t) : OtherSame P s t := by
  unfold execAckRx at h
  injection h with h
  rw [← h]
  have h0 := OtherSame.refl P s
  dsimp only [commandPart] at hP
  apply ifPort_apart
  · with_reducible assumption
  · intro z42 h43
    extract_lets v44
    apply iteState_apart
    · apply ackOp_apart
      · with_reducible assumption
      · apply rxUns_apart
        · with_reducible assumption
        · with_reducible assumption
    · apply rxUns_apart
      · with_reducible assumption
      · with_reducible assumption
  · with_reducible assumption

theorem execNakRx_apart {rx : RxU} {expSeq : BitVec 8} {reason : BitVec 2} {s t : State} {P : Part} (hP : commandPart (.nakRx rx expSeq reason) = P)
    (h : execNakRx rx expSeq reason s = .next t) : OtherSame P s t := by
  unfold execNakRx at h
  injection h with h
  rw [← h]
  have h0 := OtherSame.refl P s
  dsimp only [commandPart] at hP
  apply ifPort_apart
  · with_reducible assumption
  · intro z46 h47
    extract_lets v48
    apply iteState_apart
    · split
      · apply unitFsm_apart
        · simp_all [portPart]
        · apply nakOp_apart
          · with_reducible assumption
          · apply rxUns_apart
            · with_reducible assumption
            · with_reducible assumption
      · apply nakOp_apart
        · with_reducible assumption
        · apply rxUns_apart
          · with_reducible assumption
          · with_reducible assumption
    · apply rxUns_apart
      · with_reducible assumption
      · with_reducible assumption
  · with_reducible assumption

theorem execRetryTimerExpiry_apart {port : PortRef} {s t : State} {P : Part} (hP : commandPart (.retryTimerExpiry port) = P)
    (h : execRetryTimerExpiry port s = .next t) : OtherSame P s t := by
  unfold execRetryTimerExpiry at h
  injection h with h
  rw [← h]
  have h0 := OtherSame.refl P s
  dsimp only [commandPart] at hP
  apply ifPort_apart
  · with_reducible assumption
  · intro z50 h51
    split
    · apply unitFsm_apart
      · exact hP.symm
      · apply retryOp_apart
        · with_reducible assumption
        · with_reducible assumption
    · apply retryOp_apart
      · with_reducible assumption
      · with_reducible assumption
  · with_reducible assumption

theorem execLaneSwap_apart {port : PortRef} {s t : State} {P : Part} (hP : commandPart (.laneSwap port) = P)
    (h : execLaneSwap port s = .next t) : OtherSame P s t := by
  unfold execLaneSwap at h
  injection h with h
  rw [← h]
  have h0 := OtherSame.refl P s
  dsimp only [commandPart] at hP
  apply ifPort_apart
  · with_reducible assumption
  · intro z52 h53
    apply swapOp_apart
    · with_reducible assumption
    · with_reducible assumption
  · with_reducible assumption

/-! ## Machine/EchoTime.lean -/

theorem execEchoIntervalTimer_apart {port : PortRef} {spare : Bool} {s t : State} {P : Part} (hP : commandPart (.echoIntervalTimer port spare) = P)
    (h : execEchoIntervalTimer port spare s = .next t) : OtherSame P s t := by
  unfold execEchoIntervalTimer at h
  injection h with h
  rw [← h]
  have h0 := OtherSame.refl P s
  dsimp only [commandPart] at hP
  apply ifPort_apart
  · with_reducible assumption
  · intro z54 h55
    apply echoStart_apart
    · with_reducible assumption
    · with_reducible assumption
  · with_reducible assumption

theorem execEchoReqRx_apart {rx : RxU} {spare : Bool} {echoId : BitVec 6} {t1 : BitVec 54} {frac : BitVec 6} {s t : State} {P : Part} (hP : commandPart (.echoReqRx rx spare echoId t1 frac) = P)
    (h : execEchoReqRx rx spare echoId t1 frac s = .next t) : OtherSame P s t := by
  unfold execEchoReqRx at h
  injection h with h
  rw [← h]
  have h0 := OtherSame.refl P s
  dsimp only [commandPart] at hP
  apply ifPort_apart
  · with_reducible assumption
  · intro z56 h57
    extract_lets v58
    apply iteState_apart
    · apply echoAnswer_apart
      · with_reducible assumption
      · apply rxUns_apart
        · with_reducible assumption
        · with_reducible assumption
    · apply rxUns_apart
      · with_reducible assumption
      · with_reducible assumption
  · with_reducible assumption

theorem execEchoRspRx_apart {rx : RxU} {spare : Bool} {echoId : BitVec 6} {t2 : BitVec 32} {resid : BitVec 24} {frac : BitVec 6} {fwdSkew : Int} {revSkew : Int} {s t : State} {P : Part} (hP : commandPart (.echoRspRx rx spare echoId t2 resid frac fwdSkew revSkew) = P)
    (h : execEchoRspRx rx spare echoId t2 resid frac fwdSkew revSkew s = .next t) : OtherSame P s t := by
  unfold execEchoRspRx at h
  injection h with h
  rw [← h]
  have h0 := OtherSame.refl P s
  dsimp only [commandPart] at hP
  apply ifPort_apart
  · with_reducible assumption
  · intro z60 h61
    extract_lets v62 v63
    apply iteState_apart
    · apply echoDone_apart
      · with_reducible assumption
      · apply rxUns_apart
        · with_reducible assumption
        · with_reducible assumption
    · apply rxUns_apart
      · with_reducible assumption
      · with_reducible assumption
  · with_reducible assumption

theorem execEchoExchangeTimeout_apart {port : PortRef} {spare : Bool} {s t : State} {P : Part} (hP : commandPart (.echoExchangeTimeout port spare) = P)
    (h : execEchoExchangeTimeout port spare s = .next t) : OtherSame P s t := by
  unfold execEchoExchangeTimeout at h
  injection h with h
  rw [← h]
  have h0 := OtherSame.refl P s
  dsimp only [commandPart] at hP
  apply ifPort_apart
  · with_reducible assumption
  · intro z65 h66
    split
    · apply unitFsm_apart
      · exact hP.symm
      · apply exchangeLost_apart
        · with_reducible assumption
        · with_reducible assumption
    · apply exchangeLost_apart
      · with_reducible assumption
      · with_reducible assumption
  · with_reducible assumption

theorem execTimeRx_apart {rx : RxU} {ns : BitVec 48} {gen : BitVec 16} {frac : BitVec 6} {s t : State} {P : Part} (hP : commandPart (.timeRx rx ns gen frac) = P)
    (h : execTimeRx rx ns gen frac s = .next t) : OtherSame P s t := by
  unfold execTimeRx at h
  injection h with h
  rw [← h]
  have h0 := OtherSame.refl P s
  dsimp only [commandPart] at hP
  apply ifPort_apart
  · with_reducible assumption
  · intro z67 h68
    extract_lets v69
    apply iteState_apart
    · apply timeOp_apart
      · with_reducible assumption
      · apply rxUns_apart
        · with_reducible assumption
        · with_reducible assumption
    · apply rxUns_apart
      · with_reducible assumption
      · with_reducible assumption
  · with_reducible assumption

theorem execRootTimeTimer_apart  {s t : State} {P : Part} (hP : commandPart (.rootTimeTimer) = P)
    (h : execRootTimeTimer s = .next t) : OtherSame P s t := by
  unfold execRootTimeTimer at h
  injection h with h
  rw [← h]
  have h0 := OtherSame.refl P s
  dsimp only [commandPart] at hP
  apply ifDistRuns_apart
  · intro z71 h72
    apply rootTime_apart
    · exact hP.symm
    · with_reducible assumption
  · with_reducible assumption

theorem execEpochFrameRx_apart {rx : Rx} {gen : BitVec 16} {applied : BitVec 48} {s t : State} {P : Part} (hP : commandPart (.epochFrameRx rx gen applied) = P)
    (h : execEpochFrameRx rx gen applied s = .next t) : OtherSame P s t := by
  unfold execEpochFrameRx at h
  injection h with h
  rw [← h]
  have h0 := OtherSame.refl P s
  dsimp only [commandPart] at hP
  apply ifPort_apart
  · with_reducible assumption
  · intro z79 h80
    extract_lets v81
    apply iteState_apart
    · apply epochOp_apart
      · with_reducible assumption
      · apply rxSeq_apart
        · with_reducible assumption
        · with_reducible assumption
    · apply rxSeq_apart
      · with_reducible assumption
      · with_reducible assumption
  · with_reducible assumption

/-! ## Machine/RegAccess.lean -/

theorem execEpochArm_apart {ch : BitVec 3} {gen : BitVec 16} {s t : State} {P : Part} (hP : commandPart (.epochArm ch gen) = P)
    (h : execEpochArm ch gen s = .next t) : OtherSame P s t := by
  unfold execEpochArm at h
  injection h with h
  rw [← h]
  have h0 := OtherSame.refl P s
  dsimp only [commandPart] at hP
  apply ifChannel_apart
  · with_reducible assumption
  · intro z73 h74
    apply writeRow_apart
    · with_reducible assumption
    · with_reducible assumption
  · with_reducible assumption

theorem execPtpCfgCommit_apart {ch : BitVec 3} {be : BitVec 4} {data : Word} {s t : State} {P : Part} (hP : commandPart (.ptpCfgCommit ch be data) = P)
    (h : execPtpCfgCommit ch be data s = .next t) : OtherSame P s t := by
  unfold execPtpCfgCommit at h
  injection h with h
  rw [← h]
  have h0 := OtherSame.refl P s
  dsimp only [commandPart] at hP
  apply ifChannel_apart
  · with_reducible assumption
  · intro z459 h460
    apply writeRow_apart
    · with_reducible assumption
    · with_reducible assumption
  · with_reducible assumption

theorem execRegisterWrite_apart {part : Part} {ch : BitVec 3} {addr : BitVec 22} {be : BitVec 4} {data : Word} {s t : State} {P : Part} (hP : commandPart (.registerWrite part ch addr be data) = P)
    (h : execRegisterWrite part ch addr be data s = .next t) : OtherSame P s t := by
  unfold execRegisterWrite at h
  injection h with h
  rw [← h]
  have h0 := OtherSame.refl P s
  dsimp only [commandPart] at hP
  apply ifChannel_apart
  · with_reducible assumption
  · intro z478 h479
    apply writeRow_apart
    · with_reducible assumption
    · with_reducible assumption
  · with_reducible assumption

theorem execRegisterRead_apart {part : Part} {ch : BitVec 3} {addr : BitVec 22} {s t : State} {P : Part} (hP : commandPart (.registerRead part ch addr) = P)
    (h : execRegisterRead part ch addr s = .next t) : OtherSame P s t := by
  unfold execRegisterRead at h
  injection h with h
  rw [← h]
  have h0 := OtherSame.refl P s
  dsimp only [commandPart] at hP
  apply ifChannel_apart
  · with_reducible assumption
  · intro z480 h481
    apply readRow_apart
    · with_reducible assumption
    · with_reducible assumption
  · with_reducible assumption

theorem execRegAccessTimeout_apart {part : Part} {ch : BitVec 3} {write : Bool} {addr : BitVec 22} {s t : State} {P : Part} (hP : commandPart (.regAccessTimeout part ch write addr) = P)
    (h : execRegAccessTimeout part ch write addr s = .next t) : OtherSame P s t := by
  unfold execRegAccessTimeout at h
  injection h with h
  rw [← h]
  have h0 := OtherSame.refl P s
  dsimp only [commandPart] at hP
  apply ifChannel_apart
  · with_reducible assumption
  · intro z482 h483
    apply timeoutRow_apart
    · with_reducible assumption
    · with_reducible assumption
  · with_reducible assumption

theorem execPageLockRead_apart {part : Part} {ch : BitVec 3} {page : BitVec 10} {s t : State} {P : Part} (hP : commandPart (.pageLockRead part ch page) = P)
    (h : execPageLockRead part ch page s = .next t) : OtherSame P s t := by
  unfold execPageLockRead at h
  injection h with h
  rw [← h]
  have h0 := OtherSame.refl P s
  dsimp only [commandPart] at hP
  apply ifChannel_apart
  · with_reducible assumption
  · intro z484 h485
    apply readRow_apart
    · with_reducible assumption
    · with_reducible assumption
  · with_reducible assumption

theorem execSmbusBlockWrite_apart {addr : BitVec 22} {data : Word} {pecOk : Bool} {s t : State} {P : Part} (hP : commandPart (.smbusBlockWrite addr data pecOk) = P)
    (h : execSmbusBlockWrite addr data pecOk s = .next t) : OtherSame P s t := by
  unfold execSmbusBlockWrite at h
  injection h with h
  rw [← h]
  have h0 := OtherSame.refl P s
  dsimp only [commandPart] at hP
  apply ifDist_apart
  · intro z486 h487
    apply smbWrite_apart
    · exact hP.symm
    · with_reducible assumption
  · with_reducible assumption

theorem execSmbusReadRequest_apart {addr : BitVec 22} {pecOk : Bool} {s t : State} {P : Part} (hP : commandPart (.smbusReadRequest addr pecOk) = P)
    (h : execSmbusReadRequest addr pecOk s = .next t) : OtherSame P s t := by
  unfold execSmbusReadRequest at h
  injection h with h
  rw [← h]
  have h0 := OtherSame.refl P s
  dsimp only [commandPart] at hP
  apply ifDist_apart
  · intro z488 h489
    apply smbRequest_apart
    · exact hP.symm
    · with_reducible assumption
  · with_reducible assumption

theorem execSmbusBlockRead_apart  {s t : State} {P : Part} (hP : commandPart (.smbusBlockRead) = P)
    (h : execSmbusBlockRead s = .next t) : OtherSame P s t := by
  unfold execSmbusBlockRead at h
  injection h with h
  rw [← h]
  have h0 := OtherSame.refl P s
  dsimp only [commandPart] at hP
  apply ifDist_apart
  · intro z490 h491
    apply smbRead_apart
    · exact hP.symm
    · with_reducible assumption
  · with_reducible assumption

/-! ## Machine/Refs.lean -/

theorem execEpochApply_apart {frac : BitVec 6} {s t : State} {P : Part} (hP : commandPart (.epochApply frac) = P)
    (h : execEpochApply frac s = .next t) : OtherSame P s t := by
  unfold execEpochApply at h
  injection h with h
  rw [← h]
  have h0 := OtherSame.refl P s
  dsimp only [commandPart] at hP
  apply ifRoot_apart
  · intro z75 h76
    extract_lets v77
    apply iteState_apart
    · split
      · apply iteState_apart
        · apply epochTake_apart
          · exact hP.symm
          · with_reducible assumption
        · with_reducible assumption
      · apply iteState_apart
        · with_reducible assumption
        · apply setBuildout_apart
          · exact hP.symm
          · apply epochTake_apart
            · exact hP.symm
            · with_reducible assumption
    · with_reducible assumption
  · with_reducible assumption

theorem execXoFail_apart  {s t : State} {P : Part} (hP : commandPart (.xoFail) = P)
    (h : execXoFail s = .next t) : OtherSame P s t := by
  unfold execXoFail at h
  injection h with h
  rw [← h]
  have h0 := OtherSame.refl P s
  dsimp only [commandPart] at hP
  apply ifRoot_apart
  · intro z426 h427
    apply iteState_apart
    · apply noteAge_apart
      · exact hP.symm
      · apply logD_apart
        · exact hP.symm
        · apply onDist_apart
          · exact hP.symm
          · with_reducible assumption
    · with_reducible assumption
  · with_reducible assumption

theorem execRefClockLoss_apart {n : BitVec 2} {s t : State} {P : Part} (hP : commandPart (.refClockLoss n) = P)
    (h : execRefClockLoss n s = .next t) : OtherSame P s t := by
  unfold execRefClockLoss at h
  injection h with h
  rw [← h]
  have h0 := OtherSame.refl P s
  dsimp only [commandPart] at hP
  apply ifRoot_apart
  · intro z428 h429
    apply iteState_apart
    · apply failMonitor_apart
      · exact hP.symm
      · with_reducible assumption
    · with_reducible assumption
  · with_reducible assumption

theorem execRefPulseTimeout_apart {n : BitVec 2} {s t : State} {P : Part} (hP : commandPart (.refPulseTimeout n) = P)
    (h : execRefPulseTimeout n s = .next t) : OtherSame P s t := by
  unfold execRefPulseTimeout at h
  injection h with h
  rw [← h]
  have h0 := OtherSame.refl P s
  dsimp only [commandPart] at hP
  apply ifRoot_apart
  · intro z430 h431
    extract_lets v432
    split
    · apply iteState_apart
      · apply failMonitor_apart
        · exact hP.symm
        · with_reducible assumption
      · with_reducible assumption
    · with_reducible assumption
  · with_reducible assumption

theorem execRefSecondMark_apart {n : BitVec 2} {edge : PpsEdge} {s t : State} {P : Part} (hP : commandPart (.refSecondMark n edge) = P)
    (h : execRefSecondMark n edge s = .next t) : OtherSame P s t := by
  unfold execRefSecondMark at h
  injection h with h
  rw [← h]
  have h0 := OtherSame.refl P s
  dsimp only [commandPart] at hP
  apply ifRoot_apart
  · intro z433 h434
    apply refMarkOp_apart
    · exact hP.symm
    · with_reducible assumption
  · with_reducible assumption

theorem execSourceQualified_apart {src : BitVec 3} {s t : State} {P : Part} (hP : commandPart (.sourceQualified src) = P)
    (h : execSourceQualified src s = .next t) : OtherSame P s t := by
  unfold execSourceQualified at h
  injection h with h
  rw [← h]
  have h0 := OtherSame.refl P s
  dsimp only [commandPart] at hP
  apply ifRoot_apart
  · intro z435 h436
    extract_lets v437
    apply iteState_apart
    · apply reselect_apart
      · exact hP.symm
      · apply onDist_apart
        · exact hP.symm
        · apply onDist_apart
          · exact hP.symm
          · apply onSrc_apart
            · exact hP.symm
            · with_reducible assumption
    · with_reducible assumption
  · with_reducible assumption

theorem execWtrExpiry_apart {src : BitVec 3} {s t : State} {P : Part} (hP : commandPart (.wtrExpiry src) = P)
    (h : execWtrExpiry src s = .next t) : OtherSame P s t := by
  unfold execWtrExpiry at h
  injection h with h
  rw [← h]
  have h0 := OtherSame.refl P s
  dsimp only [commandPart] at hP
  apply ifRoot_apart
  · intro z439 h440
    apply iteState_apart
    · apply reselect_apart
      · exact hP.symm
      · apply onSrc_apart
        · exact hP.symm
        · with_reducible assumption
    · with_reducible assumption
  · with_reducible assumption

theorem execSwitchCommit_apart  {s t : State} {P : Part} (hP : commandPart (.switchCommit) = P)
    (h : execSwitchCommit s = .next t) : OtherSame P s t := by
  unfold execSwitchCommit at h
  injection h with h
  rw [← h]
  have h0 := OtherSame.refl P s
  dsimp only [commandPart] at hP
  apply ifRoot_apart
  · intro z441 h442
    apply commitOp_apart
    · exact hP.symm
    · with_reducible assumption
  · with_reducible assumption

theorem execRealign_apart  {s t : State} {P : Part} (hP : commandPart (.realign) = P)
    (h : execRealign s = .next t) : OtherSame P s t := by
  unfold execRealign at h
  injection h with h
  rw [← h]
  have h0 := OtherSame.refl P s
  dsimp only [commandPart] at hP
  apply ifRoot_apart
  · intro z443 h444
    apply realignOp_apart
    · exact hP.symm
    · with_reducible assumption
  · with_reducible assumption

theorem execFrmoutPulse_apart  {s t : State} {P : Part} (hP : commandPart (.frmoutPulse) = P)
    (h : execFrmoutPulse s = .next t) : OtherSame P s t := by
  unfold execFrmoutPulse at h
  injection h with h
  rw [← h]
  have h0 := OtherSame.refl P s
  dsimp only [commandPart] at hP
  apply ifDistRuns_apart
  · intro z461 h462
    extract_lets v463
    apply iteState_apart
    · apply onRoot_apart
      · exact hP.symm
      · apply onDist_apart
        · exact hP.symm
        · with_reducible assumption
    · with_reducible assumption
  · with_reducible assumption

theorem execPpsoutPulseEnd_apart  {s t : State} {P : Part} (hP : commandPart (.ppsoutPulseEnd) = P)
    (h : execPpsoutPulseEnd s = .next t) : OtherSame P s t := by
  unfold execPpsoutPulseEnd at h
  injection h with h
  rw [← h]
  have h0 := OtherSame.refl P s
  dsimp only [commandPart] at hP
  apply ifDistRuns_apart
  · intro z466 h467
    split
    · apply iteState_apart
      · apply onRoot_apart
        · exact hP.symm
        · apply onDist_apart
          · exact hP.symm
          · with_reducible assumption
      · with_reducible assumption
    · with_reducible assumption
  · with_reducible assumption

/-! ## Machine/Startup.lean -/

theorem execTckReload_apart  {s t : State} {P : Part} (hP : commandPart (.tckReload) = P)
    (h : execTckReload s = .next t) : OtherSame P s t := by
  unfold execTckReload at h
  injection h with h
  rw [← h]
  have h0 := OtherSame.refl P s
  dsimp only [commandPart] at hP
  apply ifUnit_apart
  · intro z83 h84
    apply reloadOp_apart
    · exact hP.symm
    · with_reducible assumption
  · with_reducible assumption

theorem execPowerOnReset_apart  {s t : State} {P : Part} (hP : commandPart (.powerOnReset) = P)
    (h : execPowerOnReset s = .next t) : OtherSame P s t := by
  unfold execPowerOnReset at h
  injection h with h
  rw [← h]
  have h0 := OtherSame.refl P s
  dsimp only [commandPart] at hP
  apply powerOnOp_apart
  · exact hP.symm
  · with_reducible assumption

theorem execSupplyFault_apart  {s t : State} {P : Part} (hP : commandPart (.supplyFault) = P)
    (h : execSupplyFault s = .next t) : OtherSame P s t := by
  unfold execSupplyFault at h
  injection h with h
  rw [← h]
  have h0 := OtherSame.refl P s
  dsimp only [commandPart] at hP
  apply supplyFaultOp_apart
  · exact hP.symm
  · with_reducible assumption

theorem execWarmReset_apart  {s t : State} {P : Part} (hP : commandPart (.warmReset) = P)
    (h : execWarmReset s = .next t) : OtherSame P s t := by
  unfold execWarmReset at h
  injection h with h
  rw [← h]
  have h0 := OtherSame.refl P s
  dsimp only [commandPart] at hP
  apply warmResetOp_apart
  · exact hP.symm
  · with_reducible assumption

theorem execPerst_apart  {s t : State} {P : Part} (hP : commandPart (.perst) = P)
    (h : execPerst s = .next t) : OtherSame P s t := by
  unfold execPerst at h
  injection h with h
  rw [← h]
  have h0 := OtherSame.refl P s
  dsimp only [commandPart] at hP
  apply ifDist_apart
  · intro z99 h100
    apply perstOp_apart
    · exact hP.symm
    · with_reducible assumption
  · with_reducible assumption

theorem execDistResetRelease_apart {root : Bool} {domB : Bool} {tier : BitVec 2} {smba : BitVec 3} {s t : State} {P : Part} (hP : commandPart (.distResetRelease root domB tier smba) = P)
    (h : execDistResetRelease root domB tier smba s = .next t) : OtherSame P s t := by
  unfold execDistResetRelease at h
  injection h with h
  rw [← h]
  have h0 := OtherSame.refl P s
  dsimp only [commandPart] at hP
  apply distReleaseOp_apart
  · exact hP.symm
  · with_reducible assumption

theorem execDistSramInitDone_apart  {s t : State} {P : Part} (hP : commandPart (.distSramInitDone) = P)
    (h : execDistSramInitDone s = .next t) : OtherSame P s t := by
  unfold execDistSramInitDone at h
  injection h with h
  rw [← h]
  have h0 := OtherSame.refl P s
  dsimp only [commandPart] at hP
  apply distInitOp_apart
  · exact hP.symm
  · with_reducible assumption

theorem execUnitReset_apart {porst : Bool} {s t : State} {P : Part} (hP : commandPart (.unitReset porst) = P)
    (h : execUnitReset porst s = .next t) : OtherSame P s t := by
  unfold execUnitReset at h
  injection h with h
  rw [← h]
  have h0 := OtherSame.refl P s
  dsimp only [commandPart] at hP
  apply onUnit_apart
  · exact hP.symm
  · with_reducible assumption

theorem execUnitResetRelease_apart  {s t : State} {P : Part} (hP : commandPart (.unitResetRelease) = P)
    (h : execUnitResetRelease s = .next t) : OtherSame P s t := by
  unfold execUnitResetRelease at h
  injection h with h
  rw [← h]
  have h0 := OtherSame.refl P s
  dsimp only [commandPart] at hP
  apply unitReleaseOp_apart
  · exact hP.symm
  · with_reducible assumption

theorem execUnitSramInitDone_apart  {s t : State} {P : Part} (hP : commandPart (.unitSramInitDone) = P)
    (h : execUnitSramInitDone s = .next t) : OtherSame P s t := by
  unfold execUnitSramInitDone at h
  injection h with h
  rw [← h]
  have h0 := OtherSame.refl P s
  dsimp only [commandPart] at hP
  apply unitInitOp_apart
  · exact hP.symm
  · with_reducible assumption

theorem execDbgArm_apart  {s t : State} {P : Part} (hP : commandPart (.dbgArm) = P)
    (h : execDbgArm s = .next t) : OtherSame P s t := by
  unfold execDbgArm at h
  injection h with h
  rw [← h]
  have h0 := OtherSame.refl P s
  dsimp only [commandPart] at hP
  apply ifUnit_apart
  · intro z245 h246
    apply onUnit_apart
    · exact hP.symm
    · with_reducible assumption
  · with_reducible assumption

theorem execDbgTrigger_apart  {s t : State} {P : Part} (hP : commandPart (.dbgTrigger) = P)
    (h : execDbgTrigger s = .next t) : OtherSame P s t := by
  unfold execDbgTrigger at h
  injection h with h
  rw [← h]
  have h0 := OtherSame.refl P s
  dsimp only [commandPart] at hP
  apply ifUnit_apart
  · intro z247 h248
    apply onUnit_apart
    · exact hP.symm
    · with_reducible assumption
  · with_reducible assumption

theorem execDbgStop_apart  {s t : State} {P : Part} (hP : commandPart (.dbgStop) = P)
    (h : execDbgStop s = .next t) : OtherSame P s t := by
  unfold execDbgStop at h
  injection h with h
  rw [← h]
  have h0 := OtherSame.refl P s
  dsimp only [commandPart] at hP
  apply ifUnit_apart
  · intro z249 h250
    apply onUnit_apart
    · exact hP.symm
    · with_reducible assumption
  · with_reducible assumption

theorem execDbgInject_apart  {s t : State} {P : Part} (hP : commandPart (.dbgInject) = P)
    (h : execDbgInject s = .next t) : OtherSame P s t := by
  unfold execDbgInject at h
  injection h with h
  rw [← h]
  have h0 := OtherSame.refl P s
  dsimp only [commandPart] at hP
  apply ifUnit_apart
  · intro z251 h252
    apply onUnit_apart
    · exact hP.symm
    · with_reducible assumption
  · with_reducible assumption

/-! ## Machine/Admission.lean -/

theorem execHelloTimer_apart {port : PortRef} {s t : State} {P : Part} (hP : commandPart (.helloTimer port) = P)
    (h : execHelloTimer port s = .next t) : OtherSame P s t := by
  unfold execHelloTimer at h
  injection h with h
  rw [← h]
  have h0 := OtherSame.refl P s
  dsimp only [commandPart] at hP
  apply ifPort_apart
  · with_reducible assumption
  · intro z85 h86
    apply helloOp_apart
    · with_reducible assumption
    · with_reducible assumption
  · with_reducible assumption

theorem execHelloRx_apart {rx : RxU} {kind : BitVec 4} {domB : Bool} {tier : BitVec 2} {dkey : Word} {stepping : BitVec 8} {gen : BitVec 16} {valid : Bool} {s t : State} {P : Part} (hP : commandPart (.helloRx rx kind domB tier dkey stepping gen valid) = P)
    (h : execHelloRx rx kind domB tier dkey stepping gen valid s = .next t) : OtherSame P s t := by
  unfold execHelloRx at h
  injection h with h
  rw [← h]
  have h0 := OtherSame.refl P s
  dsimp only [commandPart] at hP
  apply ifPort_apart
  · with_reducible assumption
  · intro z87 h88
    extract_lets v89 v90
    apply iteState_apart
    · split
      · apply rxUns_apart
        · with_reducible assumption
        · with_reducible assumption
      · apply helloRxOp_apart
        · simp_all [portPart]
        · apply rxUns_apart
          · with_reducible assumption
          · with_reducible assumption
    · apply rxUns_apart
      · with_reducible assumption
      · with_reducible assumption
  · with_reducible assumption

theorem execAdmissionSlot_apart  {s t : State} {P : Part} (hP : commandPart (.admissionSlot) = P)
    (h : execAdmissionSlot s = .next t) : OtherSame P s t := by
  unfold execAdmissionSlot at h
  injection h with h
  rw [← h]
  have h0 := OtherSame.refl P s
  dsimp only [commandPart] at hP
  apply ifDistRuns_apart
  · intro z92 h93
    apply slotOp_apart
    · exact hP.symm
    · with_reducible assumption
  · with_reducible assumption

theorem execAdmitRx_apart {rx : Rx} {unitId : BitVec 20} {port : BitVec 8} {domB : Bool} {tier : BitVec 2} {dkey : Word} {childDist : Bool} {s t : State} {P : Part} (hP : commandPart (.admitRx rx unitId port domB tier dkey childDist) = P)
    (h : execAdmitRx rx unitId port domB tier dkey childDist s = .next t) : OtherSame P s t := by
  unfold execAdmitRx at h
  injection h with h
  rw [← h]
  have h0 := OtherSame.refl P s
  dsimp only [commandPart] at hP
  apply ifPort_apart
  · with_reducible assumption
  · intro z94 h95
    extract_lets v96 v97
    apply iteState_apart
    · split
      · apply unitAdmit_apart
        · simp_all [portPart]
        · apply rxSeq_apart
          · with_reducible assumption
          · with_reducible assumption
      · apply distAdmit_apart
        · simp_all [portPart]
        · apply rxSeq_apart
          · with_reducible assumption
          · with_reducible assumption
    · apply rxSeq_apart
      · with_reducible assumption
      · with_reducible assumption
  · with_reducible assumption

/-! ## Machine/Health.lean -/

theorem execHealthRx_apart {rx : Rx} {unitId : BitVec 20} {dist : Bool} {kind : BitVec 7} {code : BitVec 12} {detail : BitVec 24} {s t : State} {P : Part} (hP : commandPart (.healthRx rx unitId dist kind code detail) = P)
    (h : execHealthRx rx unitId dist kind code detail s = .next t) : OtherSame P s t := by
  unfold execHealthRx at h
  injection h with h
  rw [← h]
  have h0 := OtherSame.refl P s
  dsimp only [commandPart] at hP
  apply ifPort_apart
  · with_reducible assumption
  · intro z101 h102
    extract_lets v103
    apply onDistRx_apart
    · with_reducible assumption
    · apply rxSeq_apart
      · with_reducible assumption
      · with_reducible assumption
    · intro z104 z105 z106 h107
      apply healthOp_apart
      · with_reducible assumption
      · with_reducible assumption
  · with_reducible assumption

theorem execHealthVoteSend_apart {port : PortRef} {s t : State} {P : Part} (hP : commandPart (.healthVoteSend port) = P)
    (h : execHealthVoteSend port s = .next t) : OtherSame P s t := by
  unfold execHealthVoteSend at h
  injection h with h
  rw [← h]
  have h0 := OtherSame.refl P s
  dsimp only [commandPart] at hP
  apply ifPort_apart
  · with_reducible assumption
  · intro z108 h109
    apply voteSend_apart
    · with_reducible assumption
    · with_reducible assumption
  · with_reducible assumption

theorem execHealthDecay_apart  {s t : State} {P : Part} (hP : commandPart (.healthDecay) = P)
    (h : execHealthDecay s = .next t) : OtherSame P s t := by
  unfold execHealthDecay at h
  injection h with h
  rw [← h]
  have h0 := OtherSame.refl P s
  dsimp only [commandPart] at hP
  apply ifDistRuns_apart
  · intro z110 h111
    apply onDist_apart
    · exact hP.symm
    · with_reducible assumption
  · with_reducible assumption

theorem execExpulsionEvaluate_apart  {s t : State} {P : Part} (hP : commandPart (.expulsionEvaluate) = P)
    (h : execExpulsionEvaluate s = .next t) : OtherSame P s t := by
  unfold execExpulsionEvaluate at h
  injection h with h
  rw [← h]
  have h0 := OtherSame.refl P s
  dsimp only [commandPart] at hP
  apply ifDistRuns_apart
  · intro z112 h113
    apply evaluateOp_apart
    · exact hP.symm
    · with_reducible assumption
  · with_reducible assumption

theorem execHealthReadmit_apart {port : Fin 132} {s t : State} {P : Part} (hP : commandPart (.healthReadmit port) = P)
    (h : execHealthReadmit port s = .next t) : OtherSame P s t := by
  unfold execHealthReadmit at h
  injection h with h
  rw [← h]
  have h0 := OtherSame.refl P s
  dsimp only [commandPart] at hP
  apply ifDist_apart
  · intro z114 h115
    apply healthReadmitOp_apart
    · exact hP.symm
    · with_reducible assumption
  · with_reducible assumption

theorem execWdogFail_apart {engine : BitVec 3} {s t : State} {P : Part} (hP : commandPart (.wdogFail engine) = P)
    (h : execWdogFail engine s = .next t) : OtherSame P s t := by
  unfold execWdogFail at h
  injection h with h
  rw [← h]
  have h0 := OtherSame.refl P s
  dsimp only [commandPart] at hP
  apply ifDistRuns_apart
  · intro z116 h117
    apply wdogOp_apart
    · exact hP.symm
    · with_reducible assumption
  · with_reducible assumption

theorem execDistMemFatal_apart {mem : BitVec 8} {s t : State} {P : Part} (hP : commandPart (.distMemFatal mem) = P)
    (h : execDistMemFatal mem s = .next t) : OtherSame P s t := by
  unfold execDistMemFatal at h
  injection h with h
  rw [← h]
  have h0 := OtherSame.refl P s
  dsimp only [commandPart] at hP
  apply ifDistRuns_apart
  · intro z118 h119
    apply memFatalOp_apart
    · exact hP.symm
    · with_reducible assumption
  · with_reducible assumption

theorem execSoleRoot_apart  {s t : State} {P : Part} (hP : commandPart (.soleRoot) = P)
    (h : execSoleRoot s = .next t) : OtherSame P s t := by
  unfold execSoleRoot at h
  injection h with h
  rw [← h]
  have h0 := OtherSame.refl P s
  dsimp only [commandPart] at hP
  apply ifDistRuns_apart
  · intro z120 h121
    apply soleOp_apart
    · exact hP.symm
    · with_reducible assumption
  · with_reducible assumption

theorem execRootRopeLost_apart  {s t : State} {P : Part} (hP : commandPart (.rootRopeLost) = P)
    (h : execRootRopeLost s = .next t) : OtherSame P s t := by
  unfold execRootRopeLost at h
  injection h with h
  rw [← h]
  have h0 := OtherSame.refl P s
  dsimp only [commandPart] at hP
  apply ifDistRuns_apart
  · intro z122 h123
    apply ropeLostOp_apart
    · exact hP.symm
    · with_reducible assumption
  · with_reducible assumption

theorem execLeadHandback_apart  {s t : State} {P : Part} (hP : commandPart (.leadHandback) = P)
    (h : execLeadHandback s = .next t) : OtherSame P s t := by
  unfold execLeadHandback at h
  injection h with h
  rw [← h]
  have h0 := OtherSame.refl P s
  dsimp only [commandPart] at hP
  apply ifDistRuns_apart
  · intro z124 h125
    apply handbackOp_apart
    · exact hP.symm
    · with_reducible assumption
  · with_reducible assumption

theorem execFltRecRead_apart {part : Part} {ch : BitVec 3} {s t : State} {P : Part} (hP : commandPart (.fltRecRead part ch) = P)
    (h : execFltRecRead part ch s = .next t) : OtherSame P s t := by
  unfold execFltRecRead at h
  injection h with h
  rw [← h]
  have h0 := OtherSame.refl P s
  dsimp only [commandPart] at hP
  apply ifPart_apart
  · with_reducible assumption
  · intro z126 h127
    extract_lets v128
    apply answer_apart
    · with_reducible assumption
    · apply onPartBase_apart
      · with_reducible assumption
      · with_reducible assumption
  · with_reducible assumption

theorem execFltFlush_apart {part : Part} {s t : State} {P : Part} (hP : commandPart (.fltFlush part) = P)
    (h : execFltFlush part s = .next t) : OtherSame P s t := by
  unfold execFltFlush at h
  injection h with h
  rw [← h]
  have h0 := OtherSame.refl P s
  dsimp only [commandPart] at hP
  apply ifPart_apart
  · with_reducible assumption
  · intro z129 h130
    apply onPartBase_apart
    · with_reducible assumption
    · with_reducible assumption
  · with_reducible assumption

theorem execFltClrFirst_apart {part : Part} {s t : State} {P : Part} (hP : commandPart (.fltClrFirst part) = P)
    (h : execFltClrFirst part s = .next t) : OtherSame P s t := by
  unfold execFltClrFirst at h
  injection h with h
  rw [← h]
  have h0 := OtherSame.refl P s
  dsimp only [commandPart] at hP
  apply ifPart_apart
  · with_reducible assumption
  · intro z131 h132
    apply onPartBase_apart
    · with_reducible assumption
    · with_reducible assumption
  · with_reducible assumption

theorem execDistMute_apart  {s t : State} {P : Part} (hP : commandPart (.distMute) = P)
    (h : execDistMute s = .next t) : OtherSame P s t := by
  unfold execDistMute at h
  injection h with h
  rw [← h]
  have h0 := OtherSame.refl P s
  dsimp only [commandPart] at hP
  apply ifDistRuns_apart
  · intro z239 h240
    apply muteOp_apart
    · exact hP.symm
    · with_reducible assumption
  · with_reducible assumption

theorem execThmSample_apart {k : BitVec 2} {temp : BitVec 12} {s t : State} {P : Part} (hP : commandPart (.thmSample k temp) = P)
    (h : execThmSample k temp s = .next t) : OtherSame P s t := by
  unfold execThmSample at h
  injection h with h
  rw [← h]
  have h0 := OtherSame.refl P s
  dsimp only [commandPart] at hP
  apply ifDist_apart
  · intro z472 h473
    apply thmSampleOp_apart
    · exact hP.symm
    · with_reducible assumption
  · with_reducible assumption

theorem execThmSensorFail_apart {k : BitVec 2} {s t : State} {P : Part} (hP : commandPart (.thmSensorFail k) = P)
    (h : execThmSensorFail k s = .next t) : OtherSame P s t := by
  unfold execThmSensorFail at h
  injection h with h
  rw [← h]
  have h0 := OtherSame.refl P s
  dsimp only [commandPart] at hP
  apply ifDist_apart
  · intro z474 h475
    apply thmFailOp_apart
    · exact hP.symm
    · with_reducible assumption
  · with_reducible assumption

theorem execThmClrMax_apart  {s t : State} {P : Part} (hP : commandPart (.thmClrMax) = P)
    (h : execThmClrMax s = .next t) : OtherSame P s t := by
  unfold execThmClrMax at h
  injection h with h
  rw [← h]
  have h0 := OtherSame.refl P s
  dsimp only [commandPart] at hP
  apply ifDist_apart
  · intro z476 h477
    apply onDist_apart
    · exact hP.symm
    · with_reducible assumption
  · with_reducible assumption

/-! ## Machine/Events.lean -/

theorem execHevtEdge_apart {n : BitVec 7} {level : Bool} {s t : State} {P : Part} (hP : commandPart (.hevtEdge n level) = P)
    (h : execHevtEdge n level s = .next t) : OtherSame P s t := by
  unfold execHevtEdge at h
  injection h with h
  rw [← h]
  have h0 := OtherSame.refl P s
  dsimp only [commandPart] at hP
  apply ifUnit_apart
  · intro z133 h134
    apply onUnit_apart
    · exact hP.symm
    · with_reducible assumption
  · with_reducible assumption

theorem execEvinEdge_apart {i : BitVec 4} {level : Bool} {s t : State} {P : Part} (hP : commandPart (.evinEdge i level) = P)
    (h : execEvinEdge i level s = .next t) : OtherSame P s t := by
  unfold execEvinEdge at h
  injection h with h
  rw [← h]
  have h0 := OtherSame.refl P s
  dsimp only [commandPart] at hP
  apply ifUnit_apart
  · intro z135 h136
    apply onUnit_apart
    · exact hP.symm
    · with_reducible assumption
  · with_reducible assumption

theorem execEvcAssign_apart  {s t : State} {P : Part} (hP : commandPart (.evcAssign) = P)
    (h : execEvcAssign s = .next t) : OtherSame P s t := by
  unfold execEvcAssign at h
  injection h with h
  rw [← h]
  have h0 := OtherSame.refl P s
  dsimp only [commandPart] at hP
  apply ifUnit_apart
  · intro z137 h138
    apply onUnit_apart
    · exact hP.symm
    · apply logUnrouted_apart
      · exact hP.symm
      · with_reducible assumption
  · with_reducible assumption

theorem execClaimRead_apart {k : BitVec 3} {ch : BitVec 3} {s t : State} {P : Part} (hP : commandPart (.claimRead k ch) = P)
    (h : execClaimRead k ch s = .next t) : OtherSame P s t := by
  unfold execClaimRead at h
  injection h with h
  rw [← h]
  have h0 := OtherSame.refl P s
  dsimp only [commandPart] at hP
  apply ifUnit_apart
  · intro z139 h140
    extract_lets v141
    apply answer_apart
    · with_reducible assumption
    · apply claim_apart
      · exact hP.symm
      · with_reducible assumption
  · with_reducible assumption

theorem execEoiWrite_apart {k : BitVec 3} {src : BitVec 9} {s t : State} {P : Part} (hP : commandPart (.eoiWrite k src) = P)
    (h : execEoiWrite k src s = .next t) : OtherSame P s t := by
  unfold execEoiWrite at h
  injection h with h
  rw [← h]
  have h0 := OtherSame.refl P s
  dsimp only [commandPart] at hP
  apply ifUnit_apart
  · intro z143 h144
    apply eoi_apart
    · exact hP.symm
    · with_reducible assumption
  · with_reducible assumption

theorem execCpuFlush_apart {k : BitVec 3} {s t : State} {P : Part} (hP : commandPart (.cpuFlush k) = P)
    (h : execCpuFlush k s = .next t) : OtherSame P s t := by
  unfold execCpuFlush at h
  injection h with h
  rw [← h]
  have h0 := OtherSame.refl P s
  dsimp only [commandPart] at hP
  apply ifUnit_apart
  · intro z145 h146
    apply onUnit_apart
    · exact hP.symm
    · with_reducible assumption
  · with_reducible assumption

theorem execPendRead_apart {part : Part} {ch : BitVec 3} {w : BitVec 4} {s t : State} {P : Part} (hP : commandPart (.pendRead part ch w) = P)
    (h : execPendRead part ch w s = .next t) : OtherSame P s t := by
  unfold execPendRead at h
  injection h with h
  rw [← h]
  have h0 := OtherSame.refl P s
  dsimp only [commandPart] at hP
  apply ifPart_apart
  · with_reducible assumption
  · intro z147 h148
    apply onPartBase_apart
    · with_reducible assumption
    · apply answer_apart
      · with_reducible assumption
      · with_reducible assumption
  · with_reducible assumption

theorem execPendWrite_apart {part : Part} {w : BitVec 4} {be : BitVec 4} {data : Word} {s t : State} {P : Part} (hP : commandPart (.pendWrite part w be data) = P)
    (h : execPendWrite part w be data s = .next t) : OtherSame P s t := by
  unfold execPendWrite at h
  injection h with h
  rw [← h]
  have h0 := OtherSame.refl P s
  dsimp only [commandPart] at hP
  apply ifPart_apart
  · with_reducible assumption
  · intro z149 h150
    apply pendWriteOp_apart
    · with_reducible assumption
    · with_reducible assumption
  · with_reducible assumption

theorem execPendSet_apart {part : Part} {w : BitVec 4} {be : BitVec 4} {data : Word} {s t : State} {P : Part} (hP : commandPart (.pendSet part w be data) = P)
    (h : execPendSet part w be data s = .next t) : OtherSame P s t := by
  unfold execPendSet at h
  injection h with h
  rw [← h]
  have h0 := OtherSame.refl P s
  dsimp only [commandPart] at hP
  apply ifPart_apart
  · with_reducible assumption
  · intro z151 h152
    apply onPartBase_apart
    · with_reducible assumption
    · with_reducible assumption
  · with_reducible assumption

theorem execMaskSet_apart {part : Part} {w : BitVec 4} {be : BitVec 4} {data : Word} {s t : State} {P : Part} (hP : commandPart (.maskSet part w be data) = P)
    (h : execMaskSet part w be data s = .next t) : OtherSame P s t := by
  unfold execMaskSet at h
  injection h with h
  rw [← h]
  have h0 := OtherSame.refl P s
  dsimp only [commandPart] at hP
  apply ifPart_apart
  · with_reducible assumption
  · intro z153 h154
    apply onPartBase_apart
    · with_reducible assumption
    · with_reducible assumption
  · with_reducible assumption

theorem execMaskClr_apart {part : Part} {w : BitVec 4} {be : BitVec 4} {data : Word} {s t : State} {P : Part} (hP : commandPart (.maskClr part w be data) = P)
    (h : execMaskClr part w be data s = .next t) : OtherSame P s t := by
  unfold execMaskClr at h
  injection h with h
  rw [← h]
  have h0 := OtherSame.refl P s
  dsimp only [commandPart] at hP
  apply ifPart_apart
  · with_reducible assumption
  · intro z155 h156
    apply onPartBase_apart
    · with_reducible assumption
    · with_reducible assumption
  · with_reducible assumption

theorem execHoldoffExpiry_apart {part : Part} {g : BitVec 4} {s t : State} {P : Part} (hP : commandPart (.holdoffExpiry part g) = P)
    (h : execHoldoffExpiry part g s = .next t) : OtherSame P s t := by
  unfold execHoldoffExpiry at h
  injection h with h
  rw [← h]
  have h0 := OtherSame.refl P s
  dsimp only [commandPart] at hP
  apply ifPart_apart
  · with_reducible assumption
  · intro z157 h158
    apply onPartBase_apart
    · with_reducible assumption
    · with_reducible assumption
  · with_reducible assumption

theorem execLanternEnter_apart {psleep : BitVec 8} {s t : State} {P : Part} (hP : commandPart (.lanternEnter psleep) = P)
    (h : execLanternEnter psleep s = .next t) : OtherSame P s t := by
  unfold execLanternEnter at h
  injection h with h
  rw [← h]
  have h0 := OtherSame.refl P s
  dsimp only [commandPart] at hP
  apply ifUnit_apart
  · intro z159 h160
    apply lanternEnterOp_apart
    · exact hP.symm
    · with_reducible assumption
  · with_reducible assumption

theorem execLanternExit_apart {psleep : BitVec 8} {s t : State} {P : Part} (hP : commandPart (.lanternExit psleep) = P)
    (h : execLanternExit psleep s = .next t) : OtherSame P s t := by
  unfold execLanternExit at h
  injection h with h
  rw [← h]
  have h0 := OtherSame.refl P s
  dsimp only [commandPart] at hP
  apply ifUnit_apart
  · intro z161 h162
    apply onUnit_apart
    · exact hP.symm
    · with_reducible assumption
  · with_reducible assumption

theorem execConfigurationRequest_apart {msixEn : Bool} {fmask : Bool} {s t : State} {P : Part} (hP : commandPart (.configurationRequest msixEn fmask) = P)
    (h : execConfigurationRequest msixEn fmask s = .next t) : OtherSame P s t := by
  unfold execConfigurationRequest at h
  injection h with h
  rw [← h]
  have h0 := OtherSame.refl P s
  dsimp only [commandPart] at hP
  apply ifDist_apart
  · intro z163 h164
    apply onDist_apart
    · exact hP.symm
    · with_reducible assumption
  · with_reducible assumption

/-! ## Machine/Presence.lean -/

theorem execPresencePress_apart  {s t : State} {P : Part} (hP : commandPart (.presencePress) = P)
    (h : execPresencePress s = .next t) : OtherSame P s t := by
  unfold execPresencePress at h
  injection h with h
  rw [← h]
  have h0 := OtherSame.refl P s
  dsimp only [commandPart] at hP
  apply ifDistRuns_apart
  · intro z165 h166
    apply pressOp_apart
    · exact hP.symm
    · with_reducible assumption
  · with_reducible assumption

theorem execPresenceRx_apart {rx : Rx} {expiry : BitVec 48} {window : BitVec 16} {s t : State} {P : Part} (hP : commandPart (.presenceRx rx expiry window) = P)
    (h : execPresenceRx rx expiry window s = .next t) : OtherSame P s t := by
  unfold execPresenceRx at h
  dsimp only at h
  have h0 := OtherSame.refl P s
  dsimp only [commandPart] at hP
  split at h
  · split at h
    · injection h with h
      rw [← h]
      apply unitPresence_apart
      · simp_all [portPart]
      · apply rxSeq_apart
        · with_reducible assumption
        · with_reducible assumption
    · injection h with h
      rw [← h]
      apply distPresence_apart
      · simp_all [portPart]
      · apply rxSeq_apart
        · with_reducible assumption
        · with_reducible assumption
  · injection h with h
    rw [← h]
    apply rxSeq_apart
    · with_reducible assumption
    · with_reducible assumption

theorem execPresenceClose_apart  {s t : State} {P : Part} (hP : commandPart (.presenceClose) = P)
    (h : execPresenceClose s = .next t) : OtherSame P s t := by
  unfold execPresenceClose at h
  injection h with h
  rw [← h]
  have h0 := OtherSame.refl P s
  dsimp only [commandPart] at hP
  apply ifDist_apart
  · intro z167 h168
    apply closeOp_apart
    · exact hP.symm
    · with_reducible assumption
  · with_reducible assumption

theorem execPresenceExpiry_apart {part : Part} {s t : State} {P : Part} (hP : commandPart (.presenceExpiry part) = P)
    (h : execPresenceExpiry part s = .next t) : OtherSame P s t := by
  unfold execPresenceExpiry at h
  injection h with h
  rw [← h]
  have h0 := OtherSame.refl P s
  dsimp only [commandPart] at hP
  apply ifPart_apart
  · with_reducible assumption
  · intro z169 h170
    apply expireOp_apart
    · with_reducible assumption
    · with_reducible assumption
  · with_reducible assumption

theorem execCfgLockChange_apart {part : Part} {low : Bool} {s t : State} {P : Part} (hP : commandPart (.cfgLockChange part low) = P)
    (h : execCfgLockChange part low s = .next t) : OtherSame P s t := by
  unfold execCfgLockChange at h
  injection h with h
  rw [← h]
  have h0 := OtherSame.refl P s
  dsimp only [commandPart] at hP
  apply ifPart_apart
  · with_reducible assumption
  · intro z171 h172
    apply lockOp_apart
    · with_reducible assumption
    · with_reducible assumption
  · with_reducible assumption

theorem execSealBreak_apart  {s t : State} {P : Part} (hP : commandPart (.sealBreak) = P)
    (h : execSealBreak s = .next t) : OtherSame P s t := by
  unfold execSealBreak at h
  injection h with h
  rw [← h]
  have h0 := OtherSame.refl P s
  dsimp only [commandPart] at hP
  apply ifDist_apart
  · intro z173 h174
    apply sealOp_apart
    · exact hP.symm
    · with_reducible assumption
  · with_reducible assumption

/-! ## Machine/Semaphore.lean -/

theorem execSemAdd_apart {req : Req} {sem : BitVec 16} {amount : BitVec 32} {s t : State} {P : Part} (hP : commandPart (.semAdd req sem amount) = P)
    (h : execSemAdd req sem amount s = .next t) : OtherSame P s t := by
  unfold execSemAdd at h
  injection h with h
  rw [← h]
  have h0 := OtherSame.refl P s
  dsimp only [commandPart] at hP
  apply request_apart
  · exact hP.symm
  · intro z175 h176
    apply onLiveSem_apart
    · exact hP.symm
    · intro z177 h178
      extract_lets v179 v180
      apply onUnit_apart
      · exact hP.symm
      · apply onUnit_apart
        · exact hP.symm
        · apply semAddVal_apart
          · exact hP.symm
          · with_reducible assumption
    · with_reducible assumption
  · with_reducible assumption

theorem execSemSub_apart {req : Req} {sem : BitVec 16} {amount : BitVec 32} {s t : State} {P : Part} (hP : commandPart (.semSub req sem amount) = P)
    (h : execSemSub req sem amount s = .next t) : OtherSame P s t := by
  unfold execSemSub at h
  injection h with h
  rw [← h]
  have h0 := OtherSame.refl P s
  dsimp only [commandPart] at hP
  apply request_apart
  · exact hP.symm
  · intro z183 h184
    apply onLiveSem_apart
    · exact hP.symm
    · intro z185 h186
      extract_lets v187
      apply onUnit_apart
      · exact hP.symm
      · apply semSubVal_apart
        · exact hP.symm
        · with_reducible assumption
    · with_reducible assumption
  · with_reducible assumption

theorem execSemRead_apart {req : Req} {sem : BitVec 16} {s t : State} {P : Part} (hP : commandPart (.semRead req sem) = P)
    (h : execSemRead req sem s = .next t) : OtherSame P s t := by
  unfold execSemRead at h
  injection h with h
  rw [← h]
  have h0 := OtherSame.refl P s
  dsimp only [commandPart] at hP
  apply request_apart
  · exact hP.symm
  · intro z189 h190
    apply onLiveSem_apart
    · exact hP.symm
    · intro z191 h192
      apply onUnit_apart
      · exact hP.symm
      · with_reducible assumption
    · with_reducible assumption
  · with_reducible assumption

theorem execSemWait_apart {req : Req} {take : Bool} {sem : BitVec 16} {tout : BitVec 32} {n : BitVec 32} {s t : State} {P : Part} (hP : commandPart (.semWait req take sem tout n) = P)
    (h : execSemWait req take sem tout n s = .next t) : OtherSame P s t := by
  unfold execSemWait at h
  injection h with h
  rw [← h]
  have h0 := OtherSame.refl P s
  dsimp only [commandPart] at hP
  apply request_apart
  · exact hP.symm
  · intro z193 h194
    apply onLiveSem_apart
    · exact hP.symm
    · intro z195 h196
      apply semWaitOp_apart
      · exact hP.symm
      · with_reducible assumption
    · with_reducible assumption
  · with_reducible assumption

theorem execWchCancel_apart {req : Req} {obj : BitVec 16} {cls : BitVec 4} {wcore : BitVec 10} {wtag : BitVec 8} {s t : State} {P : Part} (hP : commandPart (.wchCancel req obj cls wcore wtag) = P)
    (h : execWchCancel req obj cls wcore wtag s = .next t) : OtherSame P s t := by
  unfold execWchCancel at h
  injection h with h
  rw [← h]
  have h0 := OtherSame.refl P s
  dsimp only [commandPart] at hP
  apply request_apart
  · exact hP.symm
  · intro z197 h198
    apply cancelOp_apart
    · exact hP.symm
    · with_reducible assumption
  · with_reducible assumption

theorem execMemWait_apart {req : Req} {addr : BitVec 45} {n : BitVec 48} {s t : State} {P : Part} (hP : commandPart (.memWait req addr n) = P)
    (h : execMemWait req addr n s = .next t) : OtherSame P s t := by
  unfold execMemWait at h
  injection h with h
  rw [← h]
  have h0 := OtherSame.refl P s
  dsimp only [commandPart] at hP
  apply request_apart
  · exact hP.symm
  · intro z199 h200
    apply memWaitOp_apart
    · exact hP.symm
    · with_reducible assumption
  · with_reducible assumption

theorem execSnoopWrite_apart {addr : BitVec 45} {be : BitVec 8} {data : BitVec 64} {s t : State} {P : Part} (hP : commandPart (.snoopWrite addr be data) = P)
    (h : execSnoopWrite addr be data s = .next t) : OtherSame P s t := by
  unfold execSnoopWrite at h
  injection h with h
  rw [← h]
  have h0 := OtherSame.refl P s
  dsimp only [commandPart] at hP
  apply ifUnitRuns_apart
  · intro z201 h202
    apply onUnit_apart
    · exact hP.symm
    · with_reducible assumption
  · with_reducible assumption

theorem execWatchTimeout_apart {cls : BitVec 4} {obj : BitVec 16} {core : BitVec 10} {tag : BitVec 8} {s t : State} {P : Part} (hP : commandPart (.watchTimeout cls obj core tag) = P)
    (h : execWatchTimeout cls obj core tag s = .next t) : OtherSame P s t := by
  unfold execWatchTimeout at h
  injection h with h
  rw [← h]
  have h0 := OtherSame.refl P s
  dsimp only [commandPart] at hP
  apply ifUnitRuns_apart
  · intro z203 h204
    apply watchTimeoutOp_apart
    · exact hP.symm
    · with_reducible assumption
  · with_reducible assumption

theorem execMsgBadOp_apart {req : Req} {op : BitVec 6} {s t : State} {P : Part} (hP : commandPart (.msgBadOp req op) = P)
    (h : execMsgBadOp req op s = .next t) : OtherSame P s t := by
  unfold execMsgBadOp at h
  injection h with h
  rw [← h]
  have h0 := OtherSame.refl P s
  dsimp only [commandPart] at hP
  apply request_apart
  · exact hP.symm
  · intro z205 h206
    dsimp only [id]
    with_reducible assumption
  · with_reducible assumption

theorem execResponseEmit_apart {ready : BitVec 16} {s t : State} {P : Part} (hP : commandPart (.responseEmit ready) = P)
    (h : execResponseEmit ready s = .next t) : OtherSame P s t := by
  unfold execResponseEmit at h
  injection h with h
  rw [← h]
  have h0 := OtherSame.refl P s
  dsimp only [commandPart] at hP
  apply ifUnitRuns_apart
  · intro z207 h208
    apply onUnit_apart
    · exact hP.symm
    · with_reducible assumption
  · with_reducible assumption

theorem execScrub_apart {target : ScrubTarget} {correctable : Bool} {s t : State} {P : Part} (hP : commandPart (.scrub target correctable) = P)
    (h : execScrub target correctable s = .next t) : OtherSame P s t := by
  unfold execScrub at h
  have h0 := OtherSame.refl P s
  cases target <;> dsimp only [commandPart] at hP <;> injection h with h <;> rw [← h]
  · exact ifUnitRuns_apart (fun _ h => onUnit_apart hP.symm h) h0
  · exact ifDistRuns_apart (fun _ h => onDist_apart hP.symm h) h0

theorem execSumpRead_apart {ch : BitVec 3} {s t : State} {P : Part} (hP : commandPart (.sumpRead ch) = P)
    (h : execSumpRead ch s = .next t) : OtherSame P s t := by
  unfold execSumpRead at h
  injection h with h
  rw [← h]
  have h0 := OtherSame.refl P s
  dsimp only [commandPart] at hP
  apply ifUnitRuns_apart
  · intro z217 h218
    extract_lets v219
    apply answer_apart
    · with_reducible assumption
    · apply mkUnit_apart
      · exact hP.symm
      · with_reducible assumption
  · with_reducible assumption

theorem execSemCmdAdd_apart  {s t : State} {P : Part} (hP : commandPart (.semCmdAdd) = P)
    (h : execSemCmdAdd s = .next t) : OtherSame P s t := by
  unfold execSemCmdAdd at h
  injection h with h
  rw [← h]
  have h0 := OtherSame.refl P s
  dsimp only [commandPart] at hP
  apply semAddCmd_apart
  · exact hP.symm
  · with_reducible assumption

theorem execSemCmdSub_apart  {s t : State} {P : Part} (hP : commandPart (.semCmdSub) = P)
    (h : execSemCmdSub s = .next t) : OtherSame P s t := by
  unfold execSemCmdSub at h
  injection h with h
  rw [← h]
  have h0 := OtherSame.refl P s
  dsimp only [commandPart] at hP
  apply semSubCmd_apart
  · exact hP.symm
  · with_reducible assumption

theorem execSemCmdSet_apart  {s t : State} {P : Part} (hP : commandPart (.semCmdSet) = P)
    (h : execSemCmdSet s = .next t) : OtherSame P s t := by
  unfold execSemCmdSet at h
  injection h with h
  rw [← h]
  have h0 := OtherSame.refl P s
  dsimp only [commandPart] at hP
  apply semSetCmd_apart
  · exact hP.symm
  · with_reducible assumption

theorem execSemCmdClrFlags_apart  {s t : State} {P : Part} (hP : commandPart (.semCmdClrFlags) = P)
    (h : execSemCmdClrFlags s = .next t) : OtherSame P s t := by
  unfold execSemCmdClrFlags at h
  injection h with h
  rw [← h]
  have h0 := OtherSame.refl P s
  dsimp only [commandPart] at hP
  apply semClrCmd_apart
  · exact hP.symm
  · with_reducible assumption

theorem execSemCmdLoadView_apart  {s t : State} {P : Part} (hP : commandPart (.semCmdLoadView) = P)
    (h : execSemCmdLoadView s = .next t) : OtherSame P s t := by
  unfold execSemCmdLoadView at h
  injection h with h
  rw [← h]
  have h0 := OtherSame.refl P s
  dsimp only [commandPart] at hP
  apply ifUnitRuns_apart
  · intro z221 h222
    apply semViewCmd_apart
    · exact hP.symm
    · with_reducible assumption
  · with_reducible assumption

/-! ## Machine/Context.lean -/

theorem execCtxClear_apart  {s t : State} {P : Part} (hP : commandPart (.ctxClear) = P)
    (h : execCtxClear s = .next t) : OtherSame P s t := by
  unfold execCtxClear at h
  injection h with h
  rw [← h]
  have h0 := OtherSame.refl P s
  dsimp only [commandPart] at hP
  apply ifUnitRuns_apart
  · intro z209 h210
    apply ctxClearOp_apart
    · exact hP.symm
    · with_reducible assumption
  · with_reducible assumption

theorem execCtxClearDone_apart  {s t : State} {P : Part} (hP : commandPart (.ctxClearDone) = P)
    (h : execCtxClearDone s = .next t) : OtherSame P s t := by
  unfold execCtxClearDone at h
  injection h with h
  rw [← h]
  have h0 := OtherSame.refl P s
  dsimp only [commandPart] at hP
  apply ifUnitRuns_apart
  · intro z211 h212
    apply onUnit_apart
    · exact hP.symm
    · with_reducible assumption
  · with_reducible assumption

theorem execEccUncorrectable_apart {target : EccTarget} {s t : State} {P : Part} (hP : commandPart (.eccUncorrectable target) = P)
    (h : execEccUncorrectable target s = .next t) : OtherSame P s t := by
  unfold execEccUncorrectable at h
  injection h with h
  rw [← h]
  have h0 := OtherSame.refl P s
  dsimp only [commandPart] at hP
  apply ifUnitRuns_apart
  · intro z213 h214
    apply eccOp_apart
    · exact hP.symm
    · with_reducible assumption
  · with_reducible assumption

theorem execBarEnter_apart {req : Req} {barrier : BitVec 8} {s t : State} {P : Part} (hP : commandPart (.barEnter req barrier) = P)
    (h : execBarEnter req barrier s = .next t) : OtherSame P s t := by
  unfold execBarEnter at h
  injection h with h
  rw [← h]
  have h0 := OtherSame.refl P s
  dsimp only [commandPart] at hP
  apply request_apart
  · exact hP.symm
  · intro z347 h348
    apply barEnterOp_apart
    · exact hP.symm
    · with_reducible assumption
  · with_reducible assumption

theorem execBarDeadline_apart {barrier : BitVec 8} {s t : State} {P : Part} (hP : commandPart (.barDeadline barrier) = P)
    (h : execBarDeadline barrier s = .next t) : OtherSame P s t := by
  unfold execBarDeadline at h
  injection h with h
  rw [← h]
  have h0 := OtherSame.refl P s
  dsimp only [commandPart] at hP
  apply ifUnitRuns_apart
  · intro z349 h350
    apply barDeadlineOp_apart
    · exact hP.symm
    · with_reducible assumption
  · with_reducible assumption

theorem execBarReset_apart  {s t : State} {P : Part} (hP : commandPart (.barReset) = P)
    (h : execBarReset s = .next t) : OtherSame P s t := by
  unfold execBarReset at h
  injection h with h
  rw [← h]
  have h0 := OtherSame.refl P s
  dsimp only [commandPart] at hP
  apply ifUnitRuns_apart
  · intro z351 h352
    apply barResetOp_apart
    · exact hP.symm
    · with_reducible assumption
  · with_reducible assumption

theorem execBarEnWrite_apart {be : BitVec 4} {data : Word} {s t : State} {P : Part} (hP : commandPart (.barEnWrite be data) = P)
    (h : execBarEnWrite be data s = .next t) : OtherSame P s t := by
  unfold execBarEnWrite at h
  injection h with h
  rw [← h]
  have h0 := OtherSame.refl P s
  dsimp only [commandPart] at hP
  apply ifUnitRuns_apart
  · intro z353 h354
    apply barCtlOp_apart
    · exact hP.symm
    · with_reducible assumption
  · with_reducible assumption

theorem execFenceSignal_apart {src : BitVec 16} {tag : BitVec 16} {wcount : BitVec 32} {sem : BitVec 16} {amount : BitVec 32} {s t : State} {P : Part} (hP : commandPart (.fenceSignal src tag wcount sem amount) = P)
    (h : execFenceSignal src tag wcount sem amount s = .next t) : OtherSame P s t := by
  unfold execFenceSignal at h
  injection h with h
  rw [← h]
  have h0 := OtherSame.refl P s
  dsimp only [commandPart] at hP
  apply ifUnitRuns_apart
  · intro z363 h364
    apply fenceSignalOp_apart
    · exact hP.symm
    · with_reducible assumption
  · with_reducible assumption

theorem execDrainReport_apart {src : BitVec 16} {tag : BitVec 16} {delta : BitVec 16} {s t : State} {P : Part} (hP : commandPart (.drainReport src tag delta) = P)
    (h : execDrainReport src tag delta s = .next t) : OtherSame P s t := by
  unfold execDrainReport at h
  injection h with h
  rw [← h]
  have h0 := OtherSame.refl P s
  dsimp only [commandPart] at hP
  apply ifUnitRuns_apart
  · intro z365 h366
    apply drainOp_apart
    · exact hP.symm
    · with_reducible assumption
  · with_reducible assumption

theorem execFncTimeout_apart  {s t : State} {P : Part} (hP : commandPart (.fncTimeout) = P)
    (h : execFncTimeout s = .next t) : OtherSame P s t := by
  unfold execFncTimeout at h
  injection h with h
  rw [← h]
  have h0 := OtherSame.refl P s
  dsimp only [commandPart] at hP
  apply ifUnitRuns_apart
  · intro z367 h368
    apply fncTimeoutOp_apart
    · exact hP.symm
    · with_reducible assumption
  · with_reducible assumption

theorem execFncDiscard_apart  {s t : State} {P : Part} (hP : commandPart (.fncDiscard) = P)
    (h : execFncDiscard s = .next t) : OtherSame P s t := by
  unfold execFncDiscard at h
  injection h with h
  rw [← h]
  have h0 := OtherSame.refl P s
  dsimp only [commandPart] at hP
  apply ifUnitRuns_apart
  · intro z369 h370
    extract_lets v371
    apply logU_apart
    · exact hP.symm
    · apply onUnit_apart
      · exact hP.symm
      · with_reducible assumption
  · with_reducible assumption

theorem execFncLoadView_apart  {s t : State} {P : Part} (hP : commandPart (.fncLoadView) = P)
    (h : execFncLoadView s = .next t) : OtherSame P s t := by
  unfold execFncLoadView at h
  injection h with h
  rw [← h]
  have h0 := OtherSame.refl P s
  dsimp only [commandPart] at hP
  apply ifUnitRuns_apart
  · intro z372 h373
    apply onUnit_apart
    · exact hP.symm
    · with_reducible assumption
  · with_reducible assumption

theorem execApplyChannelReady_apart {ready : Bool} {s t : State} {P : Part} (hP : commandPart (.applyChannelReady ready) = P)
    (h : execApplyChannelReady ready s = .next t) : OtherSame P s t := by
  unfold execApplyChannelReady at h
  injection h with h
  rw [← h]
  have h0 := OtherSame.refl P s
  dsimp only [commandPart] at hP
  apply ifUnitRuns_apart
  · intro z374 h375
    apply iteState_apart
    · apply onUnit_apart
      · exact hP.symm
      · with_reducible assumption
    · with_reducible assumption
  · with_reducible assumption

theorem execDeadlock_apart  {s t : State} {P : Part} (hP : commandPart (.deadlock) = P)
    (h : execDeadlock s = .next t) : OtherSame P s t := by
  unfold execDeadlock at h
  injection h with h
  rw [← h]
  have h0 := OtherSame.refl P s
  dsimp only [commandPart] at hP
  apply ifUnitRuns_apart
  · intro z376 h377
    apply deadlockOp_apart
    · exact hP.symm
    · with_reducible assumption
  · with_reducible assumption

theorem execDlkRearm_apart  {s t : State} {P : Part} (hP : commandPart (.dlkRearm) = P)
    (h : execDlkRearm s = .next t) : OtherSame P s t := by
  unfold execDlkRearm at h
  injection h with h
  rw [← h]
  have h0 := OtherSame.refl P s
  dsimp only [commandPart] at hP
  apply ifUnitRuns_apart
  · intro z378 h379
    apply onUnit_apart
    · exact hP.symm
    · with_reducible assumption
  · with_reducible assumption

/-! ## Machine/Servo.lean -/

theorem execDomSwitch_apart  {s t : State} {P : Part} (hP : commandPart (.domSwitch) = P)
    (h : execDomSwitch s = .next t) : OtherSame P s t := by
  unfold execDomSwitch at h
  injection h with h
  rw [← h]
  have h0 := OtherSame.refl P s
  dsimp only [commandPart] at hP
  apply ifUnitRuns_apart
  · intro z223 h224
    apply commandSwitch_apart
    · with_reducible assumption
    · with_reducible assumption
  · with_reducible assumption

theorem execRebase_apart  {s t : State} {P : Part} (hP : commandPart (.rebase) = P)
    (h : execRebase s = .next t) : OtherSame P s t := by
  unfold execRebase at h
  injection h with h
  rw [← h]
  have h0 := OtherSame.refl P s
  dsimp only [commandPart] at hP
  apply ifUnitRuns_apart
  · intro z225 h226
    apply rebaseOp_apart
    · exact hP.symm
    · with_reducible assumption
  · with_reducible assumption

theorem execRebaseStep_apart  {s t : State} {P : Part} (hP : commandPart (.rebaseStep) = P)
    (h : execRebaseStep s = .next t) : OtherSame P s t := by
  unfold execRebaseStep at h
  injection h with h
  rw [← h]
  have h0 := OtherSame.refl P s
  dsimp only [commandPart] at hP
  apply ifUnitRuns_apart
  · intro z227 h228
    apply rebaseStepOp_apart
    · exact hP.symm
    · with_reducible assumption
  · with_reducible assumption

theorem execParentSwitch_apart  {s t : State} {P : Part} (hP : commandPart (.parentSwitch) = P)
    (h : execParentSwitch s = .next t) : OtherSame P s t := by
  unfold execParentSwitch at h
  injection h with h
  rw [← h]
  have h0 := OtherSame.refl P s
  dsimp only [commandPart] at hP
  apply ifDistRuns_apart
  · intro z229 h230
    apply iteState_apart
    · with_reducible assumption
    · apply commandSwitch_apart
      · with_reducible assumption
      · with_reducible assumption
  · with_reducible assumption

theorem execSrvModeWrite_apart {manual : Bool} {s t : State} {P : Part} (hP : commandPart (.srvModeWrite manual) = P)
    (h : execSrvModeWrite manual s = .next t) : OtherSame P s t := by
  unfold execSrvModeWrite at h
  injection h with h
  rw [← h]
  have h0 := OtherSame.refl P s
  dsimp only [commandPart] at hP
  apply ifUnit_apart
  · intro z231 h232
    apply modeWriteOp_apart
    · exact hP.symm
    · with_reducible assumption
  · with_reducible assumption

theorem execHandover_apart {part : Part} {s t : State} {P : Part} (hP : commandPart (.handover part) = P)
    (h : execHandover part s = .next t) : OtherSame P s t := by
  unfold execHandover at h
  injection h with h
  rw [← h]
  have h0 := OtherSame.refl P s
  dsimp only [commandPart] at hP
  apply ifPart_apart
  · with_reducible assumption
  · intro z233 h234
    split
    · apply unitFsm_apart
      · exact hP.symm
      · apply doHandover_apart
        · with_reducible assumption
        · with_reducible assumption
    · apply doHandover_apart
      · with_reducible assumption
      · with_reducible assumption
  · with_reducible assumption

theorem execHandoverTimeout_apart {part : Part} {s t : State} {P : Part} (hP : commandPart (.handoverTimeout part) = P)
    (h : execHandoverTimeout part s = .next t) : OtherSame P s t := by
  unfold execHandoverTimeout at h
  injection h with h
  rw [← h]
  have h0 := OtherSame.refl P s
  dsimp only [commandPart] at hP
  apply ifPart_apart
  · with_reducible assumption
  · intro z235 h236
    split
    · apply unitFsm_apart
      · exact hP.symm
      · apply handoverLate_apart
        · with_reducible assumption
        · with_reducible assumption
    · apply handoverLate_apart
      · with_reducible assumption
      · with_reducible assumption
  · with_reducible assumption

theorem execHoldoverAgeExpiry_apart  {s t : State} {P : Part} (hP : commandPart (.holdoverAgeExpiry) = P)
    (h : execHoldoverAgeExpiry s = .next t) : OtherSame P s t := by
  unfold execHoldoverAgeExpiry at h
  injection h with h
  rw [← h]
  have h0 := OtherSame.refl P s
  dsimp only [commandPart] at hP
  apply ifUnitRuns_apart
  · intro z237 h238
    apply holdAgeOp_apart
    · exact hP.symm
    · with_reducible assumption
  · with_reducible assumption

theorem execAcquireTimeout_apart  {s t : State} {P : Part} (hP : commandPart (.acquireTimeout) = P)
    (h : execAcquireTimeout s = .next t) : OtherSame P s t := by
  unfold execAcquireTimeout at h
  injection h with h
  rw [← h]
  have h0 := OtherSame.refl P s
  dsimp only [commandPart] at hP
  apply ifUnitRuns_apart
  · intro z241 h242
    apply acquireTimeoutOp_apart
    · exact hP.symm
    · with_reducible assumption
  · with_reducible assumption

/-! ## Machine/Calib.lean -/

theorem execCalPeriod_apart  {s t : State} {P : Part} (hP : commandPart (.calPeriod) = P)
    (h : execCalPeriod s = .next t) : OtherSame P s t := by
  unfold execCalPeriod at h
  injection h with h
  rw [← h]
  have h0 := OtherSame.refl P s
  dsimp only [commandPart] at hP
  apply ifDistRuns_apart
  · intro z243 h244
    apply calPeriodOp_apart
    · exact hP.symm
    · with_reducible assumption
  · with_reducible assumption

theorem execCalibrationRecord_apart {rx : Rx} {k : RopeKey} {rhoUp : BitVec 32} {defUp : BitVec 16} {sigma : BitVec 8} {defValid : Bool} {rhoValid : Bool} {upPort : Bool} {s t : State} {P : Part} (hP : commandPart (.calibrationRecord rx k rhoUp defUp sigma defValid rhoValid upPort) = P)
    (h : execCalibrationRecord rx k rhoUp defUp sigma defValid rhoValid upPort s = .next t) : OtherSame P s t := by
  unfold execCalibrationRecord at h
  injection h with h
  rw [← h]
  have h0 := OtherSame.refl P s
  dsimp only [commandPart] at hP
  split
  · rename_i hc
    have hd : P = .dist := hP.symm.trans (rxRope_fst_part (by first | exact hc | exact (Bool.and_eq_true_iff.mp hc).1 | exact (Bool.and_eq_true_iff.mp (Bool.and_eq_true_iff.mp hc).1).1))
    extract_lets v425
    apply onDist_apart
    · with_reducible assumption
    · apply onCal_apart
      · with_reducible assumption
      · apply rxRope_apart
        · with_reducible assumption
        · with_reducible assumption
  · apply rxRope_apart
    · with_reducible assumption
    · with_reducible assumption

/-! ## Machine/Die.lean -/

theorem execSyncFrameSend_apart  {s t : State} {P : Part} (hP : commandPart (.syncFrameSend) = P)
    (h : execSyncFrameSend s = .next t) : OtherSame P s t := by
  unfold execSyncFrameSend at h
  injection h with h
  rw [← h]
  have h0 := OtherSame.refl P s
  dsimp only [commandPart] at hP
  apply ifUnit_apart
  · intro z253 h254
    apply onUnit_apart
    · exact hP.symm
    · with_reducible assumption
  · with_reducible assumption

theorem execTapSyncFrameRx_apart {region : BitVec 6} {ns : BitVec 64} {crc : BitVec 8} {s t : State} {P : Part} (hP : commandPart (.tapSyncFrameRx region ns crc) = P)
    (h : execTapSyncFrameRx region ns crc s = .next t) : OtherSame P s t := by
  unfold execTapSyncFrameRx at h
  injection h with h
  rw [← h]
  have h0 := OtherSame.refl P s
  dsimp only [commandPart] at hP
  apply ifUnit_apart
  · intro z255 h256
    apply tapSyncOp_apart
    · exact hP.symm
    · with_reducible assumption
  · with_reducible assumption

theorem execTapDelayUpdate_apart {region : BitVec 6} {loopUnits : BitVec 16} {s t : State} {P : Part} (hP : commandPart (.tapDelayUpdate region loopUnits) = P)
    (h : execTapDelayUpdate region loopUnits s = .next t) : OtherSame P s t := by
  unfold execTapDelayUpdate at h
  injection h with h
  rw [← h]
  have h0 := OtherSame.refl P s
  dsimp only [commandPart] at hP
  apply ifUnit_apart
  · intro z257 h258
    apply tapDelayOp_apart
    · exact hP.symm
    · with_reducible assumption
  · with_reducible assumption

theorem execTapReturnLost_apart {region : BitVec 6} {s t : State} {P : Part} (hP : commandPart (.tapReturnLost region) = P)
    (h : execTapReturnLost region s = .next t) : OtherSame P s t := by
  unfold execTapReturnLost at h
  injection h with h
  rw [← h]
  have h0 := OtherSame.refl P s
  dsimp only [commandPart] at hP
  apply ifUnit_apart
  · intro z259 h260
    apply tapLostOp_apart
    · exact hP.symm
    · with_reducible assumption
  · with_reducible assumption

theorem execTapResync_apart {region : BitVec 6} {s t : State} {P : Part} (hP : commandPart (.tapResync region) = P)
    (h : execTapResync region s = .next t) : OtherSame P s t := by
  unfold execTapResync at h
  injection h with h
  rw [← h]
  have h0 := OtherSame.refl P s
  dsimp only [commandPart] at hP
  apply ifUnit_apart
  · intro z261 h262
    apply onUnit_apart
    · exact hP.symm
    · with_reducible assumption
  · with_reducible assumption

theorem execTapEnWrite_apart {region : BitVec 6} {en : Bool} {s t : State} {P : Part} (hP : commandPart (.tapEnWrite region en) = P)
    (h : execTapEnWrite region en s = .next t) : OtherSame P s t := by
  unfold execTapEnWrite at h
  injection h with h
  rw [← h]
  have h0 := OtherSame.refl P s
  dsimp only [commandPart] at hP
  apply ifUnit_apart
  · intro z263 h264
    apply onUnit_apart
    · exact hP.symm
    · with_reducible assumption
  · with_reducible assumption

theorem execTapReadReq_apart {region : BitVec 6} {port : BitVec 4} {s t : State} {P : Part} (hP : commandPart (.tapReadReq region port) = P)
    (h : execTapReadReq region port s = .next t) : OtherSame P s t := by
  unfold execTapReadReq at h
  injection h with h
  rw [← h]
  have h0 := OtherSame.refl P s
  dsimp only [commandPart] at hP
  apply ifUnit_apart
  · intro z267 h268
    apply onUnit_apart
    · exact hP.symm
    · with_reducible assumption
  · with_reducible assumption

theorem execCaptureEdge_apart {kind : BitVec 2} {idx : BitVec 6} {fall : Bool} {frac : BitVec 6} {s t : State} {P : Part} (hP : commandPart (.captureEdge kind idx fall frac) = P)
    (h : execCaptureEdge kind idx fall frac s = .next t) : OtherSame P s t := by
  unfold execCaptureEdge at h
  injection h with h
  rw [← h]
  have h0 := OtherSame.refl P s
  dsimp only [commandPart] at hP
  apply ifUnit_apart
  · intro z269 h270
    apply onUnit_apart
    · exact hP.symm
    · with_reducible assumption
  · with_reducible assumption

theorem execCaptureRecordEnter_apart  {s t : State} {P : Part} (hP : commandPart (.captureRecordEnter) = P)
    (h : execCaptureRecordEnter s = .next t) : OtherSame P s t := by
  unfold execCaptureRecordEnter at h
  injection h with h
  rw [← h]
  have h0 := OtherSame.refl P s
  dsimp only [commandPart] at hP
  apply ifUnit_apart
  · intro z271 h272
    apply capEnterOp_apart
    · exact hP.symm
    · with_reducible assumption
  · with_reducible assumption

theorem execCapRecRead_apart {ch : BitVec 3} {s t : State} {P : Part} (hP : commandPart (.capRecRead ch) = P)
    (h : execCapRecRead ch s = .next t) : OtherSame P s t := by
  unfold execCapRecRead at h
  injection h with h
  rw [← h]
  have h0 := OtherSame.refl P s
  dsimp only [commandPart] at hP
  apply ifUnit_apart
  · intro z273 h274
    extract_lets v275
    apply answer_apart
    · with_reducible assumption
    · apply mkUnit_apart
      · exact hP.symm
      · with_reducible assumption
  · with_reducible assumption

theorem execDripArm_apart {k : BitVec 3} {s t : State} {P : Part} (hP : commandPart (.dripArm k) = P)
    (h : execDripArm k s = .next t) : OtherSame P s t := by
  unfold execDripArm at h
  injection h with h
  rw [← h]
  have h0 := OtherSame.refl P s
  dsimp only [commandPart] at hP
  apply ifUnit_apart
  · intro z277 h278
    apply dripRegArm_apart
    · exact hP.symm
    · with_reducible assumption
  · with_reducible assumption

theorem execDripStop_apart {k : BitVec 3} {s t : State} {P : Part} (hP : commandPart (.dripStop k) = P)
    (h : execDripStop k s = .next t) : OtherSame P s t := by
  unfold execDripStop at h
  injection h with h
  rw [← h]
  have h0 := OtherSame.refl P s
  dsimp only [commandPart] at hP
  apply ifUnit_apart
  · intro z279 h280
    apply onUnit_apart
    · exact hP.symm
    · with_reducible assumption
  · with_reducible assumption

theorem execDripPulseStart_apart {k : BitVec 3} {s t : State} {P : Part} (hP : commandPart (.dripPulseStart k) = P)
    (h : execDripPulseStart k s = .next t) : OtherSame P s t := by
  unfold execDripPulseStart at h
  injection h with h
  rw [← h]
  have h0 := OtherSame.refl P s
  dsimp only [commandPart] at hP
  apply ifUnit_apart
  · intro z281 h282
    apply dripPulseOp_apart
    · exact hP.symm
    · with_reducible assumption
  · with_reducible assumption

theorem execDripPulseEnd_apart {k : BitVec 3} {s t : State} {P : Part} (hP : commandPart (.dripPulseEnd k) = P)
    (h : execDripPulseEnd k s = .next t) : OtherSame P s t := by
  unfold execDripPulseEnd at h
  injection h with h
  rw [← h]
  have h0 := OtherSame.refl P s
  dsimp only [commandPart] at hP
  apply ifUnit_apart
  · intro z283 h284
    apply onUnit_apart
    · exact hP.symm
    · with_reducible assumption
  · with_reducible assumption

/-! ## Machine/Launch.lean -/

theorem execRegionStopEdge_apart {region : BitVec 6} {stopped : Bool} {s t : State} {P : Part} (hP : commandPart (.regionStopEdge region stopped) = P)
    (h : execRegionStopEdge region stopped s = .next t) : OtherSame P s t := by
  unfold execRegionStopEdge at h
  injection h with h
  rw [← h]
  have h0 := OtherSame.refl P s
  dsimp only [commandPart] at hP
  apply ifUnit_apart
  · intro z265 h266
    apply regionEdgeOp_apart
    · exact hP.symm
    · with_reducible assumption
  · with_reducible assumption

theorem execLaunchOrigStart_apart {msg : Option LchStart} {s t : State} {P : Part} (hP : commandPart (.launchOrigStart msg) = P)
    (h : execLaunchOrigStart msg s = .next t) : OtherSame P s t := by
  unfold execLaunchOrigStart at h

  have h0 := OtherSame.refl P s
  dsimp only [commandPart] at hP
  split at h
  · injection h with h
    rw [← h]
    apply ifUnit_apart
    · intro z285 h286
      apply origStart_apart
      · exact hP.symm
      · with_reducible assumption
    · with_reducible assumption
  · injection h with h
    rw [← h]
    apply request_apart
    · exact hP.symm
    · intro z287 h288
      apply lchStartMsg_apart
      · exact hP.symm
      · with_reducible assumption
    · with_reducible assumption

theorem execLaunchOrigCancel_apart {msg : Option LchCancel} {s t : State} {P : Part} (hP : commandPart (.launchOrigCancel msg) = P)
    (h : execLaunchOrigCancel msg s = .next t) : OtherSame P s t := by
  unfold execLaunchOrigCancel at h

  have h0 := OtherSame.refl P s
  dsimp only [commandPart] at hP
  split at h
  · injection h with h
    rw [← h]
    apply ifUnit_apart
    · intro z289 h290
      apply cancelLaunch_apart
      · exact hP.symm
      · with_reducible assumption
    · with_reducible assumption
  · injection h with h
    rw [← h]
    apply request_apart
    · exact hP.symm
    · intro z291 h292
      apply lchCancelMsg_apart
      · exact hP.symm
      · with_reducible assumption
    · with_reducible assumption

theorem execLaunchReqTimeout_apart {gallery : BitVec 12} {lid : BitVec 16} {s t : State} {P : Part} (hP : commandPart (.launchReqTimeout gallery lid) = P)
    (h : execLaunchReqTimeout gallery lid s = .next t) : OtherSame P s t := by
  unfold execLaunchReqTimeout at h
  injection h with h
  rw [← h]
  have h0 := OtherSame.refl P s
  dsimp only [commandPart] at hP
  apply ifUnit_apart
  · intro z293 h294
    apply reqTimeoutOp_apart
    · exact hP.symm
    · with_reducible assumption
  · with_reducible assumption

theorem execArmBroadcastUnit_apart {rx : Rx} {a : Arm} {s t : State} {P : Part} (hP : commandPart (.armBroadcastUnit rx a) = P)
    (h : execArmBroadcastUnit rx a s = .next t) : OtherSame P s t := by
  unfold execArmBroadcastUnit at h
  dsimp only at h
  have h0 := OtherSame.refl P s
  dsimp only [commandPart] at hP
  split at h
  · injection h with h
    rw [← h]
    apply iteState_apart
    · apply armBroadcastOp_apart
      · simp_all [portPart]
      · apply rxArm_apart
        · with_reducible assumption
        · with_reducible assumption
    · apply rxArm_apart
      · with_reducible assumption
      · with_reducible assumption
  · injection h with h
    rw [← h]
    apply rxArm_apart
    · with_reducible assumption
    · with_reducible assumption

theorem execGoRx_apart {rx : Rx} {g : Go} {s t : State} {P : Part} (hP : commandPart (.goRx rx g) = P)
    (h : execGoRx rx g s = .next t) : OtherSame P s t := by
  unfold execGoRx at h
  dsimp only at h
  have h0 := OtherSame.refl P s
  dsimp only [commandPart] at hP
  split at h
  · injection h with h
    rw [← h]
    apply iteState_apart
    · apply goOp_apart
      · simp_all [portPart]
      · apply rxSeq_apart
        · with_reducible assumption
        · with_reducible assumption
    · apply rxSeq_apart
      · with_reducible assumption
      · with_reducible assumption
  · injection h with h
    rw [← h]
    apply rxSeq_apart
    · with_reducible assumption
    · with_reducible assumption

theorem execAbortRxUnit_apart {rx : Rx} {a : Abort} {s t : State} {P : Part} (hP : commandPart (.abortRxUnit rx a) = P)
    (h : execAbortRxUnit rx a s = .next t) : OtherSame P s t := by
  unfold execAbortRxUnit at h
  dsimp only at h
  have h0 := OtherSame.refl P s
  dsimp only [commandPart] at hP
  split at h
  · injection h with h
    rw [← h]
    apply iteState_apart
    · apply abortOp_apart
      · simp_all [portPart]
      · apply rxSeq_apart
        · with_reducible assumption
        · with_reducible assumption
    · apply rxSeq_apart
      · with_reducible assumption
      · with_reducible assumption
  · injection h with h
    rw [← h]
    apply rxSeq_apart
    · with_reducible assumption
    · with_reducible assumption

theorem execLaunchGuardExpiry_apart {gallery : BitVec 12} {lid : BitVec 16} {s t : State} {P : Part} (hP : commandPart (.launchGuardExpiry gallery lid) = P)
    (h : execLaunchGuardExpiry gallery lid s = .next t) : OtherSame P s t := by
  unfold execLaunchGuardExpiry at h
  injection h with h
  rw [← h]
  have h0 := OtherSame.refl P s
  dsimp only [commandPart] at hP
  apply ifUnit_apart
  · intro z319 h320
    apply guardOp_apart
    · exact hP.symm
    · with_reducible assumption
  · with_reducible assumption

theorem execLaunchFire_apart  {s t : State} {P : Part} (hP : commandPart (.launchFire) = P)
    (h : execLaunchFire s = .next t) : OtherSame P s t := by
  unfold execLaunchFire at h
  injection h with h
  rw [← h]
  have h0 := OtherSame.refl P s
  dsimp only [commandPart] at hP
  apply ifUnit_apart
  · intro z321 h322
    apply launchFireOp_apart
    · exact hP.symm
    · with_reducible assumption
  · with_reducible assumption

theorem execLaunchLatenessJudge_apart  {s t : State} {P : Part} (hP : commandPart (.launchLatenessJudge) = P)
    (h : execLaunchLatenessJudge s = .next t) : OtherSame P s t := by
  unfold execLaunchLatenessJudge at h
  injection h with h
  rw [← h]
  have h0 := OtherSame.refl P s
  dsimp only [commandPart] at hP
  apply ifUnit_apart
  · intro z323 h324
    apply judgeOp_apart
    · exact hP.symm
    · with_reducible assumption
  · with_reducible assumption

theorem execLaunchDeadline_apart  {s t : State} {P : Part} (hP : commandPart (.launchDeadline) = P)
    (h : execLaunchDeadline s = .next t) : OtherSame P s t := by
  unfold execLaunchDeadline at h
  injection h with h
  rw [← h]
  have h0 := OtherSame.refl P s
  dsimp only [commandPart] at hP
  apply ifUnit_apart
  · intro z325 h326
    apply deadlineOp_apart
    · exact hP.symm
    · with_reducible assumption
  · with_reducible assumption

theorem execLchRecRead_apart {ch : BitVec 3} {s t : State} {P : Part} (hP : commandPart (.lchRecRead ch) = P)
    (h : execLchRecRead ch s = .next t) : OtherSame P s t := by
  unfold execLchRecRead at h
  injection h with h
  rw [← h]
  have h0 := OtherSame.refl P s
  dsimp only [commandPart] at hP
  apply ifUnit_apart
  · intro z327 h328
    extract_lets v329
    apply answer_apart
    · with_reducible assumption
    · apply mkUnit_apart
      · exact hP.symm
      · with_reducible assumption
  · with_reducible assumption

theorem execLaunchTokenRefill_apart  {s t : State} {P : Part} (hP : commandPart (.launchTokenRefill) = P)
    (h : execLaunchTokenRefill s = .next t) : OtherSame P s t := by
  unfold execLaunchTokenRefill at h
  injection h with h
  rw [← h]
  have h0 := OtherSame.refl P s
  dsimp only [commandPart] at hP
  apply ifUnit_apart
  · intro z331 h332
    apply onUnit_apart
    · exact hP.symm
    · with_reducible assumption
  · with_reducible assumption

theorem execTtbInsertCmd_apart {msg : Option TtbInsert} {s t : State} {P : Part} (hP : commandPart (.ttbInsertCmd msg) = P)
    (h : execTtbInsertCmd msg s = .next t) : OtherSame P s t := by
  unfold execTtbInsertCmd at h

  have h0 := OtherSame.refl P s
  dsimp only [commandPart] at hP
  split at h
  · injection h with h
    rw [← h]
    apply ifUnit_apart
    · intro z335 h336
      apply insertOp_apart
      · exact hP.symm
      · with_reducible assumption
    · with_reducible assumption
  · injection h with h
    rw [← h]
    apply request_apart
    · exact hP.symm
    · intro z337 h338
      apply ttbInsertMsg_apart
      · exact hP.symm
      · with_reducible assumption
    · with_reducible assumption

theorem execTtbCancelCmd_apart  {s t : State} {P : Part} (hP : commandPart (.ttbCancelCmd) = P)
    (h : execTtbCancelCmd s = .next t) : OtherSame P s t := by
  unfold execTtbCancelCmd at h
  injection h with h
  rw [← h]
  have h0 := OtherSame.refl P s
  dsimp only [commandPart] at hP
  apply ifUnit_apart
  · intro z339 h340
    apply onUnit_apart
    · exact hP.symm
    · with_reducible assumption
  · with_reducible assumption

theorem execTtbLoadCmd_apart  {s t : State} {P : Part} (hP : commandPart (.ttbLoadCmd) = P)
    (h : execTtbLoadCmd s = .next t) : OtherSame P s t := by
  unfold execTtbLoadCmd at h
  injection h with h
  rw [← h]
  have h0 := OtherSame.refl P s
  dsimp only [commandPart] at hP
  apply ifUnit_apart
  · intro z341 h342
    apply onUnit_apart
    · exact hP.symm
    · with_reducible assumption
  · with_reducible assumption

theorem execTtbStage_apart  {s t : State} {P : Part} (hP : commandPart (.ttbStage) = P)
    (h : execTtbStage s = .next t) : OtherSame P s t := by
  unfold execTtbStage at h
  injection h with h
  rw [← h]
  have h0 := OtherSame.refl P s
  dsimp only [commandPart] at hP
  apply ifUnitRuns_apart
  · intro z343 h344
    apply onUnit_apart
    · exact hP.symm
    · with_reducible assumption
  · with_reducible assumption

theorem execTtbAct_apart  {s t : State} {P : Part} (hP : commandPart (.ttbAct) = P)
    (h : execTtbAct s = .next t) : OtherSame P s t := by
  unfold execTtbAct at h
  injection h with h
  rw [← h]
  have h0 := OtherSame.refl P s
  dsimp only [commandPart] at hP
  apply ifUnitRuns_apart
  · intro z345 h346
    apply ttbActOp_apart
    · exact hP.symm
    · with_reducible assumption
  · with_reducible assumption

/-! ## Machine/LaunchDist.lean -/

theorem execArmRequestRx_apart {rx : Rx} {a : Arm} {s t : State} {P : Part} (hP : commandPart (.armRequestRx rx a) = P)
    (h : execArmRequestRx rx a s = .next t) : OtherSame P s t := by
  unfold execArmRequestRx at h
  injection h with h
  rw [← h]
  have h0 := OtherSame.refl P s
  dsimp only [commandPart] at hP
  apply onDistRx_apart
  · with_reducible assumption
  · apply rxArm_apart
    · with_reducible assumption
    · with_reducible assumption
  · intro z295 z296 z297 h298
    apply requestOp_apart
    · with_reducible assumption
    · with_reducible assumption

theorem execArmBroadcastDist_apart {rx : Rx} {a : Arm} {s t : State} {P : Part} (hP : commandPart (.armBroadcastDist rx a) = P)
    (h : execArmBroadcastDist rx a s = .next t) : OtherSame P s t := by
  unfold execArmBroadcastDist at h
  injection h with h
  rw [← h]
  have h0 := OtherSame.refl P s
  dsimp only [commandPart] at hP
  apply onDistRx_apart
  · with_reducible assumption
  · apply rxArm_apart
    · with_reducible assumption
    · with_reducible assumption
  · intro z299 z300 z301 h302
    apply iteState_apart
    · apply distArmOp_apart
      · with_reducible assumption
      · with_reducible assumption
    · with_reducible assumption

theorem execCensusRx_apart {rx : Rx} {a : Arm} {refused : Bool} {s t : State} {P : Part} (hP : commandPart (.censusRx rx a refused) = P)
    (h : execCensusRx rx a refused s = .next t) : OtherSame P s t := by
  unfold execCensusRx at h
  injection h with h
  rw [← h]
  have h0 := OtherSame.refl P s
  dsimp only [commandPart] at hP
  apply onDistRx_apart
  · with_reducible assumption
  · apply rxArm_apart
    · with_reducible assumption
    · with_reducible assumption
  · intro z303 z304 z305 h306
    extract_lets v307
    apply iteState_apart
    · with_reducible assumption
    · apply censusAdd_apart
      · with_reducible assumption
      · apply iteState_apart
        · apply ropeSend_apart
          · with_reducible assumption
          · with_reducible assumption
        · with_reducible assumption

theorem execLaunchCutoffExpiry_apart {gallery : BitVec 12} {lid : BitVec 16} {s t : State} {P : Part} (hP : commandPart (.launchCutoffExpiry gallery lid) = P)
    (h : execLaunchCutoffExpiry gallery lid s = .next t) : OtherSame P s t := by
  unfold execLaunchCutoffExpiry at h
  injection h with h
  rw [← h]
  have h0 := OtherSame.refl P s
  dsimp only [commandPart] at hP
  apply ifDistRuns_apart
  · intro z309 h310
    apply cutoffOp_apart
    · exact hP.symm
    · with_reducible assumption
  · with_reducible assumption

theorem execGoRelay_apart {rx : Rx} {g : Go} {s t : State} {P : Part} (hP : commandPart (.goRelay rx g) = P)
    (h : execGoRelay rx g s = .next t) : OtherSame P s t := by
  unfold execGoRelay at h
  injection h with h
  rw [← h]
  have h0 := OtherSame.refl P s
  dsimp only [commandPart] at hP
  apply onDistRx_apart
  · with_reducible assumption
  · apply rxSeq_apart
    · with_reducible assumption
    · with_reducible assumption
  · intro z311 z312 z313 h314
    apply iteState_apart
    · apply downGo_apart
      · with_reducible assumption
      · apply onDist_apart
        · with_reducible assumption
        · with_reducible assumption
    · with_reducible assumption

theorem execAbortRelay_apart {rx : Rx} {a : Abort} {s t : State} {P : Part} (hP : commandPart (.abortRelay rx a) = P)
    (h : execAbortRelay rx a s = .next t) : OtherSame P s t := by
  unfold execAbortRelay at h
  injection h with h
  rw [← h]
  have h0 := OtherSame.refl P s
  dsimp only [commandPart] at hP
  apply onDistRx_apart
  · with_reducible assumption
  · apply rxSeq_apart
    · with_reducible assumption
    · with_reducible assumption
  · intro z315 z316 z317 h318
    apply iteState_apart
    · apply abortUpOp_apart
      · with_reducible assumption
      · with_reducible assumption
    · apply iteState_apart
      · apply downAbort_apart
        · with_reducible assumption
        · apply onDist_apart
          · with_reducible assumption
          · with_reducible assumption
      · with_reducible assumption

theorem execReqTokenRefill_apart {port : Fin 132} {s t : State} {P : Part} (hP : commandPart (.reqTokenRefill port) = P)
    (h : execReqTokenRefill port s = .next t) : OtherSame P s t := by
  unfold execReqTokenRefill at h
  injection h with h
  rw [← h]
  have h0 := OtherSame.refl P s
  dsimp only [commandPart] at hP
  apply ifDist_apart
  · intro z333 h334
    apply onDist_apart
    · exact hP.symm
    · with_reducible assumption
  · with_reducible assumption

theorem execLaunchOpen_apart {rx : Rx} {k : RopeKey} {target : BitVec 48} {mask : BitVec 64} {tol : BitVec 16} {uid : BitVec 20} {s t : State} {P : Part} (hP : commandPart (.launchOpen rx k target mask tol uid) = P)
    (h : execLaunchOpen rx k target mask tol uid s = .next t) : OtherSame P s t := by
  unfold execLaunchOpen at h
  injection h with h
  rw [← h]
  have h0 := OtherSame.refl P s
  dsimp only [commandPart] at hP
  split
  · rename_i hc
    have hd : P = .dist := hP.symm.trans (rxRope_fst_part (by first | exact hc | exact (Bool.and_eq_true_iff.mp hc).1 | exact (Bool.and_eq_true_iff.mp (Bool.and_eq_true_iff.mp hc).1).1))
    apply openRecordOp_apart
    · with_reducible assumption
    · apply rxRope_apart
      · with_reducible assumption
      · with_reducible assumption
  · apply rxRope_apart
    · with_reducible assumption
    · with_reducible assumption

theorem execLaunchDecision_apart {rx : Rx} {k : RopeKey} {go : Bool} {reason : BitVec 8} {s t : State} {P : Part} (hP : commandPart (.launchDecision rx k go reason) = P)
    (h : execLaunchDecision rx k go reason s = .next t) : OtherSame P s t := by
  unfold execLaunchDecision at h
  injection h with h
  rw [← h]
  have h0 := OtherSame.refl P s
  dsimp only [commandPart] at hP
  split
  · rename_i hc
    have hd : P = .dist := hP.symm.trans (rxRope_fst_part (by first | exact hc | exact (Bool.and_eq_true_iff.mp hc).1 | exact (Bool.and_eq_true_iff.mp (Bool.and_eq_true_iff.mp hc).1).1))
    apply decisionRecordOp_apart
    · with_reducible assumption
    · apply rxRope_apart
      · with_reducible assumption
      · with_reducible assumption
  · apply rxRope_apart
    · with_reducible assumption
    · with_reducible assumption

theorem execLaunchCensus_apart {rx : Rx} {k : RopeKey} {port : BitVec 8} {uid : BitVec 20} {refused : Bool} {s t : State} {P : Part} (hP : commandPart (.launchCensus rx k port uid refused) = P)
    (h : execLaunchCensus rx k port uid refused s = .next t) : OtherSame P s t := by
  unfold execLaunchCensus at h
  injection h with h
  rw [← h]
  have h0 := OtherSame.refl P s
  dsimp only [commandPart] at hP
  generalize bodyOf [(8, port.toNat), (20, uid.toNat), (1, if refused then 1 else 0)] = body
  split
  · rename_i hc
    have hd : P = .dist := hP.symm.trans (rxRope_fst_part (by first | exact hc | exact (Bool.and_eq_true_iff.mp hc).1 | exact (Bool.and_eq_true_iff.mp (Bool.and_eq_true_iff.mp hc).1).1))
    apply censusAdd_apart
    · with_reducible assumption
    · apply rxRope_apart
      · with_reducible assumption
      · with_reducible assumption
  · apply rxRope_apart
    · with_reducible assumption
    · with_reducible assumption

theorem execLaunchReq_apart {rx : Rx} {k : RopeKey} {target : BitVec 48} {mask : BitVec 64} {tol : BitVec 16} {uid : BitVec 20} {s t : State} {P : Part} (hP : commandPart (.launchReq rx k target mask tol uid) = P)
    (h : execLaunchReq rx k target mask tol uid s = .next t) : OtherSame P s t := by
  unfold execLaunchReq at h
  injection h with h
  rw [← h]
  have h0 := OtherSame.refl P s
  dsimp only [commandPart] at hP
  split
  · rename_i hc
    have hd : P = .dist := hP.symm.trans (rxRope_fst_part (by first | exact hc | exact (Bool.and_eq_true_iff.mp hc).1 | exact (Bool.and_eq_true_iff.mp (Bool.and_eq_true_iff.mp hc).1).1))
    apply decideRequest_apart
    · with_reducible assumption
    · apply rxRope_apart
      · with_reducible assumption
      · with_reducible assumption
  · apply rxRope_apart
    · with_reducible assumption
    · with_reducible assumption

/-! ## Machine/Barrier.lean -/

theorem execFlwProd_apart {req : Req} {pair : BitVec 16} {amount : BitVec 32} {s t : State} {P : Part} (hP : commandPart (.flwProd req pair amount) = P)
    (h : execFlwProd req pair amount s = .next t) : OtherSame P s t := by
  unfold execFlwProd at h
  injection h with h
  rw [← h]
  have h0 := OtherSame.refl P s
  dsimp only [commandPart] at hP
  apply request_apart
  · exact hP.symm
  · intro z355 h356
    apply flowAdvance_apart
    · exact hP.symm
    · with_reducible assumption
  · with_reducible assumption

theorem execFlwCons_apart {req : Req} {pair : BitVec 16} {amount : BitVec 32} {s t : State} {P : Part} (hP : commandPart (.flwCons req pair amount) = P)
    (h : execFlwCons req pair amount s = .next t) : OtherSame P s t := by
  unfold execFlwCons at h
  injection h with h
  rw [← h]
  have h0 := OtherSame.refl P s
  dsimp only [commandPart] at hP
  apply request_apart
  · exact hP.symm
  · intro z357 h358
    apply flowAdvance_apart
    · exact hP.symm
    · with_reducible assumption
  · with_reducible assumption

theorem execFlwLoadView_apart  {s t : State} {P : Part} (hP : commandPart (.flwLoadView) = P)
    (h : execFlwLoadView s = .next t) : OtherSame P s t := by
  unfold execFlwLoadView at h
  injection h with h
  rw [← h]
  have h0 := OtherSame.refl P s
  dsimp only [commandPart] at hP
  apply ifUnitRuns_apart
  · intro z359 h360
    apply onUnit_apart
    · exact hP.symm
    · with_reducible assumption
  · with_reducible assumption

theorem execFlwReset_apart  {s t : State} {P : Part} (hP : commandPart (.flwReset) = P)
    (h : execFlwReset s = .next t) : OtherSame P s t := by
  unfold execFlwReset at h
  injection h with h
  rw [← h]
  have h0 := OtherSame.refl P s
  dsimp only [commandPart] at hP
  apply ifUnitRuns_apart
  · intro z361 h362
    apply onUnit_apart
    · exact hP.symm
    · with_reducible assumption
  · with_reducible assumption

/-! ## Machine/Combine.lean -/

theorem execCmbData_apart {req : Req} {buf : BitVec 8} {chunk : BitVec 3} {data : BitVec 64} {s t : State} {P : Part} (hP : commandPart (.cmbData req buf chunk data) = P)
    (h : execCmbData req buf chunk data s = .next t) : OtherSame P s t := by
  unfold execCmbData at h
  injection h with h
  rw [← h]
  have h0 := OtherSame.refl P s
  dsimp only [commandPart] at hP
  apply request_apart
  · exact hP.symm
  · intro z380 h381
    apply onUnit_apart
    · exact hP.symm
    · with_reducible assumption
  · with_reducible assumption

theorem execCmbPost_apart {req : Req} {buf : BitVec 8} {gallery : BitVec 12} {op : BitVec 8} {chunks : BitVec 4} {gseq : BitVec 16} {sigSem : BitVec 16} {sigEn : Bool} {notify : Bool} {s t : State} {P : Part} (hP : commandPart (.cmbPost req buf gallery op chunks gseq sigSem sigEn notify) = P)
    (h : execCmbPost req buf gallery op chunks gseq sigSem sigEn notify s = .next t) : OtherSame P s t := by
  unfold execCmbPost at h
  injection h with h
  rw [← h]
  have h0 := OtherSame.refl P s
  dsimp only [commandPart] at hP
  apply request_apart
  · exact hP.symm
  · intro z382 h383
    apply cmbPostOp_apart
    · exact hP.symm
    · with_reducible assumption
  · with_reducible assumption

theorem execCmbRead_apart {req : Req} {buf : BitVec 8} {chunk : BitVec 3} {s t : State} {P : Part} (hP : commandPart (.cmbRead req buf chunk) = P)
    (h : execCmbRead req buf chunk s = .next t) : OtherSame P s t := by
  unfold execCmbRead at h
  injection h with h
  rw [← h]
  have h0 := OtherSame.refl P s
  dsimp only [commandPart] at hP
  apply request_apart
  · exact hP.symm
  · intro z384 h385
    apply onUnit_apart
    · exact hP.symm
    · with_reducible assumption
  · with_reducible assumption

theorem execCmbDownRxUnit_apart {rx : Rx} {k : CmbKey} {op : BitVec 8} {repro : Bool} {status : BitVec 4} {payload : List (BitVec 64)} {s t : State} {P : Part} (hP : commandPart (.cmbDownRxUnit rx k op repro status payload) = P)
    (h : execCmbDownRxUnit rx k op repro status payload s = .next t) : OtherSame P s t := by
  unfold execCmbDownRxUnit at h
  dsimp only at h
  have h0 := OtherSame.refl P s
  dsimp only [commandPart] at hP
  split at h
  · injection h with h
    rw [← h]
    apply iteState_apart
    · apply unitDownOp_apart
      · simp_all [portPart]
      · apply rxCmbDown_apart
        · with_reducible assumption
        · with_reducible assumption
    · apply rxCmbDown_apart
      · with_reducible assumption
      · with_reducible assumption
  · injection h with h
    rw [← h]
    apply rxCmbDown_apart
    · with_reducible assumption
    · with_reducible assumption

theorem execCommitRxUnit_apart {rx : Rx} {k : CmbKey} {s t : State} {P : Part} (hP : commandPart (.commitRxUnit rx k) = P)
    (h : execCommitRxUnit rx k s = .next t) : OtherSame P s t := by
  unfold execCommitRxUnit at h
  dsimp only at h
  have h0 := OtherSame.refl P s
  dsimp only [commandPart] at hP
  split at h
  · injection h with h
    rw [← h]
    apply iteState_apart
    · apply unitCommitOp_apart
      · simp_all [portPart]
      · apply rxCommit_apart
        · with_reducible assumption
        · with_reducible assumption
    · apply rxCommit_apart
      · with_reducible assumption
      · with_reducible assumption
  · injection h with h
    rw [← h]
    apply rxCommit_apart
    · with_reducible assumption
    · with_reducible assumption

theorem execHeldCommitRelease_apart  {s t : State} {P : Part} (hP : commandPart (.heldCommitRelease) = P)
    (h : execHeldCommitRelease s = .next t) : OtherSame P s t := by
  unfold execHeldCommitRelease at h
  injection h with h
  rw [← h]
  have h0 := OtherSame.refl P s
  dsimp only [commandPart] at hP
  apply ifUnitRuns_apart
  · intro z414 h415
    apply settleAll_apart
    · exact hP.symm
    · with_reducible assumption
  · with_reducible assumption

theorem execCmbUnitDeadline_apart {gallery : BitVec 12} {s t : State} {P : Part} (hP : commandPart (.cmbUnitDeadline gallery) = P)
    (h : execCmbUnitDeadline gallery s = .next t) : OtherSame P s t := by
  unfold execCmbUnitDeadline at h
  injection h with h
  rw [← h]
  have h0 := OtherSame.refl P s
  dsimp only [commandPart] at hP
  apply ifUnitRuns_apart
  · intro z416 h417
    apply unitDeadlineOp_apart
    · exact hP.symm
    · with_reducible assumption
  · with_reducible assumption

theorem execCmbGalStateWrite_apart {be : BitVec 4} {data : Word} {s t : State} {P : Part} (hP : commandPart (.cmbGalStateWrite be data) = P)
    (h : execCmbGalStateWrite be data s = .next t) : OtherSame P s t := by
  unfold execCmbGalStateWrite at h
  injection h with h
  rw [← h]
  have h0 := OtherSame.refl P s
  dsimp only [commandPart] at hP
  apply ifUnitRuns_apart
  · intro z418 h419
    apply galStateOp_apart
    · exact hP.symm
    · with_reducible assumption
  · with_reducible assumption

/-! ## Machine/CombineDist.lean -/

theorem execCmbUpRx_apart {rx : Rx} {k : CmbKey} {op : BitVec 8} {repro : Bool} {payload : List (BitVec 64)} {s t : State} {P : Part} (hP : commandPart (.cmbUpRx rx k op repro payload) = P)
    (h : execCmbUpRx rx k op repro payload s = .next t) : OtherSame P s t := by
  unfold execCmbUpRx at h
  injection h with h
  rw [← h]
  have h0 := OtherSame.refl P s
  dsimp only [commandPart] at hP
  apply onDistRx_apart
  · with_reducible assumption
  · apply rxCmbUp_apart
    · with_reducible assumption
    · with_reducible assumption
  · intro z386 z387 z388 h389
    apply cmbUpOp_apart
    · with_reducible assumption
    · with_reducible assumption

theorem execAccSetGrant_apart  {s t : State} {P : Part} (hP : commandPart (.accSetGrant) = P)
    (h : execAccSetGrant s = .next t) : OtherSame P s t := by
  unfold execAccSetGrant at h
  injection h with h
  rw [← h]
  have h0 := OtherSame.refl P s
  dsimp only [commandPart] at hP
  apply ifDistRuns_apart
  · intro z390 h391
    apply accGrant_apart
    · exact hP.symm
    · with_reducible assumption
  · with_reducible assumption

theorem execSubstTimeout_apart {port : BitVec 7} {s t : State} {P : Part} (hP : commandPart (.substTimeout port) = P)
    (h : execSubstTimeout port s = .next t) : OtherSame P s t := by
  unfold execSubstTimeout at h
  injection h with h
  rw [← h]
  have h0 := OtherSame.refl P s
  dsimp only [commandPart] at hP
  apply ifDistRuns_apart
  · intro z392 h393
    apply substTimeoutOp_apart
    · exact hP.symm
    · with_reducible assumption
  · with_reducible assumption

theorem execCmbDeadlineExpiry_apart {gallery : BitVec 12} {gseq : BitVec 16} {s t : State} {P : Part} (hP : commandPart (.cmbDeadlineExpiry gallery gseq) = P)
    (h : execCmbDeadlineExpiry gallery gseq s = .next t) : OtherSame P s t := by
  unfold execCmbDeadlineExpiry at h
  injection h with h
  rw [← h]
  have h0 := OtherSame.refl P s
  dsimp only [commandPart] at hP
  apply ifDistRuns_apart
  · intro z394 h395
    apply ctxDeadlineOp_apart
    · exact hP.symm
    · with_reducible assumption
  · with_reducible assumption

theorem execCmbDownRxDist_apart {rx : Rx} {k : CmbKey} {op : BitVec 8} {repro : Bool} {status : BitVec 4} {payload : List (BitVec 64)} {s t : State} {P : Part} (hP : commandPart (.cmbDownRxDist rx k op repro status payload) = P)
    (h : execCmbDownRxDist rx k op repro status payload s = .next t) : OtherSame P s t := by
  unfold execCmbDownRxDist at h
  injection h with h
  rw [← h]
  have h0 := OtherSame.refl P s
  dsimp only [commandPart] at hP
  apply iteState_apart
  · apply onDistRx_apart
    · with_reducible assumption
    · apply rxCmbDown_apart
      · with_reducible assumption
      · with_reducible assumption
    · intro z396 z397 z398 h399
      apply iteState_apart
      · apply cmbDownOp_apart
        · with_reducible assumption
        · with_reducible assumption
      · with_reducible assumption
  · apply onDistRx_apart
    · with_reducible assumption
    · dsimp only
      apply rxCmbDown_apart
      · with_reducible assumption
      · with_reducible assumption
    · intro z400 z401 z402 h403
      apply iteState_apart
      · apply relayPart_apart
        · with_reducible assumption
        · with_reducible assumption
      · with_reducible assumption

theorem execAckcmbRx_apart {rx : Rx} {k : CmbKey} {good : Bool} {s t : State} {P : Part} (hP : commandPart (.ackcmbRx rx k good) = P)
    (h : execAckcmbRx rx k good s = .next t) : OtherSame P s t := by
  unfold execAckcmbRx at h
  injection h with h
  rw [← h]
  have h0 := OtherSame.refl P s
  dsimp only [commandPart] at hP
  apply onDistRx_apart
  · with_reducible assumption
  · apply rxSeq_apart
    · with_reducible assumption
    · with_reducible assumption
  · intro z404 z405 z406 h407
    apply iteState_apart
    · with_reducible assumption
    · apply ackcmbOp_apart
      · with_reducible assumption
      · with_reducible assumption

theorem execCmbAckTimeout_apart {gallery : BitVec 12} {gseq : BitVec 16} {port : BitVec 7} {s t : State} {P : Part} (hP : commandPart (.cmbAckTimeout gallery gseq port) = P)
    (h : execCmbAckTimeout gallery gseq port s = .next t) : OtherSame P s t := by
  unfold execCmbAckTimeout at h
  injection h with h
  rw [← h]
  have h0 := OtherSame.refl P s
  dsimp only [commandPart] at hP
  apply ifDistRuns_apart
  · intro z408 h409
    apply ackTimeoutOp_apart
    · exact hP.symm
    · with_reducible assumption
  · with_reducible assumption

theorem execCommitRxDist_apart {rx : Rx} {k : CmbKey} {s t : State} {P : Part} (hP : commandPart (.commitRxDist rx k) = P)
    (h : execCommitRxDist rx k s = .next t) : OtherSame P s t := by
  unfold execCommitRxDist at h
  injection h with h
  rw [← h]
  have h0 := OtherSame.refl P s
  dsimp only [commandPart] at hP
  apply onDistRx_apart
  · with_reducible assumption
  · apply rxCommit_apart
    · with_reducible assumption
    · with_reducible assumption
  · intro z410 z411 z412 h413
    apply iteState_apart
    · apply distCommitOp_apart
      · with_reducible assumption
      · with_reducible assumption
    · with_reducible assumption

theorem execSubstHdr_apart {rx : Rx} {k : RopeKey} {port : BitVec 8} {op : BitVec 8} {repro : Bool} {absent : Bool} {dlen : BitVec 7} {all : Bool} {s t : State} {P : Part} (hP : commandPart (.substHdr rx k port op repro absent dlen all) = P)
    (h : execSubstHdr rx k port op repro absent dlen all s = .next t) : OtherSame P s t := by
  unfold execSubstHdr at h
  injection h with h
  rw [← h]
  have h0 := OtherSame.refl P s
  dsimp only [commandPart] at hP
  split
  · rename_i hc
    have hd : P = .dist := hP.symm.trans (rxRope_fst_part (by first | exact hc | exact (Bool.and_eq_true_iff.mp hc).1 | exact (Bool.and_eq_true_iff.mp (Bool.and_eq_true_iff.mp hc).1).1))
    apply substHdrOp_apart
    · with_reducible assumption
    · apply rxRope_apart
      · with_reducible assumption
      · with_reducible assumption
  · apply rxRope_apart
    · with_reducible assumption
    · with_reducible assumption

theorem execSubstData_apart {rx : Rx} {k : RopeKey} {payload : List (BitVec 64)} {s t : State} {P : Part} (hP : commandPart (.substData rx k payload) = P)
    (h : execSubstData rx k payload s = .next t) : OtherSame P s t := by
  unfold execSubstData at h
  injection h with h
  rw [← h]
  have h0 := OtherSame.refl P s
  dsimp only [commandPart] at hP
  split
  · rename_i hc
    have hd : P = .dist := hP.symm.trans (rxRope_fst_part (by first | exact hc | exact (Bool.and_eq_true_iff.mp hc).1 | exact (Bool.and_eq_true_iff.mp (Bool.and_eq_true_iff.mp hc).1).1))
    apply substDataOp_apart
    · with_reducible assumption
    · apply rxRope_apart
      · with_reducible assumption
      · with_reducible assumption
  · apply rxRope_apart
    · with_reducible assumption
    · with_reducible assumption

theorem execSubstReq_apart {rx : Rx} {k : RopeKey} {port : BitVec 8} {on : Bool} {s t : State} {P : Part} (hP : commandPart (.substReq rx k port on) = P)
    (h : execSubstReq rx k port on s = .next t) : OtherSame P s t := by
  unfold execSubstReq at h
  injection h with h
  rw [← h]
  have h0 := OtherSame.refl P s
  dsimp only [commandPart] at hP
  split
  · rename_i hc
    have hd : P = .dist := hP.symm.trans (rxRope_fst_part (by first | exact hc | exact (Bool.and_eq_true_iff.mp hc).1 | exact (Bool.and_eq_true_iff.mp (Bool.and_eq_true_iff.mp hc).1).1))
    apply substReqOp_apart
    · with_reducible assumption
    · apply rxRope_apart
      · with_reducible assumption
      · with_reducible assumption
  · apply rxRope_apart
    · with_reducible assumption
    · with_reducible assumption

theorem execResultRecord_apart {rx : Rx} {k : RopeKey} {op : BitVec 6} {status : BitVec 2} {repro : Bool} {payload : List (BitVec 64)} {s t : State} {P : Part} (hP : commandPart (.resultRecord rx k op status repro payload) = P)
    (h : execResultRecord rx k op status repro payload s = .next t) : OtherSame P s t := by
  unfold execResultRecord at h
  injection h with h
  rw [← h]
  have h0 := OtherSame.refl P s
  dsimp only [commandPart] at hP
  split
  · rename_i hc
    have hd : P = .dist := hP.symm.trans (rxRope_fst_part (by first | exact hc | exact (Bool.and_eq_true_iff.mp hc).1 | exact (Bool.and_eq_true_iff.mp (Bool.and_eq_true_iff.mp hc).1).1))
    apply resultRecOp_apart
    · with_reducible assumption
    · apply rxRope_apart
      · with_reducible assumption
      · with_reducible assumption
  · apply onDistRx_apart
    · with_reducible assumption
    · dsimp only
      apply rxRope_apart
      · with_reducible assumption
      · with_reducible assumption
    · intro z420 z421 z422 h423
      extract_lets v424
      apply iteState_apart
      · apply relayPart_apart
        · with_reducible assumption
        · with_reducible assumption
      · with_reducible assumption

theorem execSyncRecord_apart {rx : Rx} {k : RopeKey} {epoch : BitVec 16} {valid : Bool} {s t : State} {P : Part} (hP : commandPart (.syncRecord rx k epoch valid) = P)
    (h : execSyncRecord rx k epoch valid s = .next t) : OtherSame P s t := by
  unfold execSyncRecord at h
  injection h with h
  rw [← h]
  have h0 := OtherSame.refl P s
  dsimp only [commandPart] at hP
  split
  · rename_i hc
    have hd : P = .dist := hP.symm.trans (rxRope_fst_part (by first | exact hc | exact (Bool.and_eq_true_iff.mp hc).1 | exact (Bool.and_eq_true_iff.mp (Bool.and_eq_true_iff.mp hc).1).1))
    apply syncOp_apart
    · with_reducible assumption
    · apply rxRope_apart
      · with_reducible assumption
      · with_reducible assumption
  · apply rxRope_apart
    · with_reducible assumption
    · with_reducible assumption

/-! ## Machine/Ptp.lean -/

theorem execHtSecondMark_apart {count0 : Word} {count1 : Word} {count2 : Word} {count3 : Word} {s t : State} {P : Part} (hP : commandPart (.htSecondMark count0 count1 count2 count3) = P)
    (h : execHtSecondMark count0 count1 count2 count3 s = .next t) : OtherSame P s t := by
  unfold execHtSecondMark at h
  injection h with h
  rw [← h]
  have h0 := OtherSame.refl P s
  dsimp only [commandPart] at hP
  apply ifDistCounts_apart
  · intro z445 h446
    apply secondOp_apart
    · exact hP.symm
    · with_reducible assumption
  · with_reducible assumption

theorem execPtpAnnounceRx_apart {h : PtpHdr} {ann : PtpAnn} {s t : State} {P : Part} (hP : commandPart (.ptpAnnounceRx h ann) = P)
    (h : execPtpAnnounceRx h ann s = .next t) : OtherSame P s t := by
  unfold execPtpAnnounceRx at h
  injection h with h
  rw [← h]
  have h0 := OtherSame.refl P s
  dsimp only [commandPart] at hP
  apply ifPtp_apart
  · intro z447 h448
    apply announceOp_apart
    · exact hP.symm
    · with_reducible assumption
  · with_reducible assumption

theorem execPtpSyncRx_apart {h : PtpHdr} {twoStep : Bool} {origin : PtpTime} {s t : State} {P : Part} (hP : commandPart (.ptpSyncRx h twoStep origin) = P)
    (h : execPtpSyncRx h twoStep origin s = .next t) : OtherSame P s t := by
  unfold execPtpSyncRx at h
  injection h with h
  rw [← h]
  have h0 := OtherSame.refl P s
  dsimp only [commandPart] at hP
  apply ifPtp_apart
  · intro z449 h450
    apply ptpSyncOp_apart
    · exact hP.symm
    · with_reducible assumption
  · with_reducible assumption

theorem execPtpFollowUpRx_apart {h : PtpHdr} {origin : PtpTime} {s t : State} {P : Part} (hP : commandPart (.ptpFollowUpRx h origin) = P)
    (h : execPtpFollowUpRx h origin s = .next t) : OtherSame P s t := by
  unfold execPtpFollowUpRx at h
  injection h with h
  rw [← h]
  have h0 := OtherSame.refl P s
  dsimp only [commandPart] at hP
  apply ifPtp_apart
  · intro z451 h452
    apply followUpOp_apart
    · exact hP.symm
    · with_reducible assumption
  · with_reducible assumption

theorem execPtpDelayReqTimer_apart  {s t : State} {P : Part} (hP : commandPart (.ptpDelayReqTimer) = P)
    (h : execPtpDelayReqTimer s = .next t) : OtherSame P s t := by
  unfold execPtpDelayReqTimer at h
  injection h with h
  rw [← h]
  have h0 := OtherSame.refl P s
  dsimp only [commandPart] at hP
  apply ifPtp_apart
  · intro z453 h454
    apply delayReqOp_apart
    · exact hP.symm
    · with_reducible assumption
  · with_reducible assumption

theorem execPtpDelayRespRx_apart {h : PtpHdr} {rxTime : PtpTime} {mine : Bool} {s t : State} {P : Part} (hP : commandPart (.ptpDelayRespRx h rxTime mine) = P)
    (h : execPtpDelayRespRx h rxTime mine s = .next t) : OtherSame P s t := by
  unfold execPtpDelayRespRx at h
  injection h with h
  rw [← h]
  have h0 := OtherSame.refl P s
  dsimp only [commandPart] at hP
  apply ifPtp_apart
  · intro z455 h456
    apply delayRespOp_apart
    · exact hP.symm
    · with_reducible assumption
  · with_reducible assumption

theorem execPtpActivityTimeout_apart  {s t : State} {P : Part} (hP : commandPart (.ptpActivityTimeout) = P)
    (h : execPtpActivityTimeout s = .next t) : OtherSame P s t := by
  unfold execPtpActivityTimeout at h
  injection h with h
  rw [← h]
  have h0 := OtherSame.refl P s
  dsimp only [commandPart] at hP
  apply ifPtp_apart
  · intro z457 h458
    apply activityOp_apart
    · exact hP.symm
    · with_reducible assumption
  · with_reducible assumption

theorem execArpRequestRx_apart {target : BitVec 32} {s t : State} {P : Part} (hP : commandPart (.arpRequestRx target) = P)
    (h : execArpRequestRx target s = .next t) : OtherSame P s t := by
  unfold execArpRequestRx at h
  injection h with h
  rw [← h]
  have h0 := OtherSame.refl P s
  dsimp only [commandPart] at hP
  apply ifRoot_apart
  · intro z468 h469
    apply iteState_apart
    · apply onDist_apart
      · exact hP.symm
      · with_reducible assumption
    · with_reducible assumption
  · with_reducible assumption

theorem execPtpDiscardedFrame_apart  {s t : State} {P : Part} (hP : commandPart (.ptpDiscardedFrame) = P)
    (h : execPtpDiscardedFrame s = .next t) : OtherSame P s t := by
  unfold execPtpDiscardedFrame at h
  injection h with h
  rw [← h]
  have h0 := OtherSame.refl P s
  dsimp only [commandPart] at hP
  apply ifPtp_apart
  · intro z470 h471
    apply ptpDiscard_apart
    · exact hP.symm
    · with_reducible assumption
  · with_reducible assumption

end Sys2Proof.Machine
end

