-- ==== Sys2Proof/Laws/ApartTick.lean ====
section
/-! SUPPORT. The operations of Machine/Tick.lean act at one part and leave the other as it is. -/

namespace Sys2Proof.Machine

variable {P : Part} {s₀ : State}

theorem unitTick_apart {s : State} (hP : P = .unit) (h_s : OtherSame P s₀ s) :
    OtherSame P s₀ (unitTick s) := by
  unfold unitTick
  extract_lets v0 v1 v2
  have h3 : OtherSame P s₀ v0 := by
    apply onUnit_apart
    · with_reducible assumption
    · with_reducible assumption
  clear_value v0
  have h4 : OtherSame P s₀ v1 := by
    apply starved_apart
    · exact hP.symm
    · apply doHandover_apart
      · exact hP.symm
      · apply onUnit_apart
        · with_reducible assumption
        · with_reducible assumption
  clear_value v1
  have h5 : OtherSame P s₀ v2 := by
    apply unitFsm_apart
    · with_reducible assumption
    · apply lanternWake_apart
      · with_reducible assumption
      · apply onUnit_apart
        · with_reducible assumption
        · with_reducible assumption
  clear_value v2
  apply ifUnitRuns_apart
  · intro z6 h7
    apply contextTick_apart
    · with_reducible assumption
    · with_reducible assumption
  · with_reducible assumption

theorem distTick_apart {s : State} (hP : P = .dist) (h_s : OtherSame P s₀ s) :
    OtherSame P s₀ (distTick s) := by
  unfold distTick
  extract_lets v8
  have h9 : OtherSame P s₀ v8 := by
    apply afterCommit_apart
    · with_reducible assumption
    · apply starved_apart
      · exact hP.symm
      · apply doHandover_apart
        · exact hP.symm
        · with_reducible assumption
  clear_value v8
  apply onDist_apart
  · with_reducible assumption
  · with_reducible assumption

end Sys2Proof.Machine
end

