-- ==== Sys2Proof/Laws/Keeps.lean ====
section
/-! SUPPORT. What every operation keeps, as one relation from an origin to the machine an operation answers: the part's kind,
the canonical register file, the log within its capacity, the queue, and, where `κ` is true, the clock. The lemmas of the
other Keeps files carry it through every operation; these carry it through record updates, choices, folds and the named
operations on a base. -/

namespace Sys2Proof.Machine

/-- From base `b` to base `b'` nothing that must last is lost; with `κ`, the clock is the same too. -/
structure Keeps (κ : Bool) (b b' : Base) : Prop where
  part : isUnit b' = isUnit b
  regs : tabWf (resetOf b.kind) b.regs = true → tabWf (resetOf b'.kind) b'.regs = true
  log : b.log.length ≤ logCap b → b'.log.length ≤ logCap b'
  clock : κ = true → SameClock b b'

/-- The same for a unit, a distributor and the machine, from the machine `s₀`. -/
def UnitKeeps (κ : Bool) (s₀ : State) (u : UnitState) : Prop := Keeps κ s₀.unit.base u.base
def DistKeeps (κ : Bool) (s₀ : State) (d : DistState) : Prop := Keeps κ s₀.dist.base d.base
structure StateKeeps (κ : Bool) (s₀ s : State) : Prop where
  queue : s.pending = s₀.pending
  unit : UnitKeeps κ s₀ s.unit
  dist : DistKeeps κ s₀ s.dist

variable {κ : Bool} {s₀ : State} {b₀ : Base}

theorem Keeps.refl (b : Base) : Keeps κ b b := ⟨rfl, id, id, fun _ => ⟨rfl, rfl, rfl, rfl, rfl⟩⟩
theorem StateKeeps.refl (s : State) : StateKeeps κ s s := ⟨rfl, Keeps.refl _, Keeps.refl _⟩

theorem Keeps.weaken {b : Base} (h : Keeps κ b₀ b) : Keeps false b₀ b := ⟨h.part, h.regs, h.log, fun e => by cases e⟩
theorem StateKeeps.weaken {s : State} (h : StateKeeps κ s₀ s) : StateKeeps false s₀ s :=
  ⟨h.queue, Keeps.weaken h.unit, Keeps.weaken h.dist⟩

/-- The invariant holds after what held it before. -/
theorem StateKeeps.inv {s : State} (h : StateKeeps κ s₀ s) (hi : s₀.Inv) : s.Inv :=
  ⟨⟨h.unit.part.trans hi.1.part, h.unit.regs hi.1.regs, h.unit.log hi.1.log⟩,
   ⟨h.dist.part.trans hi.2.part, h.dist.regs hi.2.regs, h.dist.log hi.2.log⟩⟩

/-- A base that differs only in what this relation does not speak of. -/
theorem Keeps.same {b b' : Base} (h : Keeps κ b₀ b) (hk : b'.kind = b.kind) (hp : b'.phase = b.phase) (ht : b'.tick = b.tick)
    (hn : b'.ns = b.ns) (hv : b'.valid = b.valid) (hr : tabWf (resetOf b.kind) b.regs = true → tabWf (resetOf b.kind) b'.regs = true)
    (hl : b.log.length ≤ logCap b → b'.log.length ≤ logCap b) : Keeps κ b₀ b' := by
  have hu : isUnit b' = isUnit b := by unfold isUnit; rw [hk]
  have hc : logCap b' = logCap b := by unfold logCap; rw [hu]
  refine ⟨hu.trans h.part, fun e => ?_, fun e => ?_, fun e => ?_⟩
  · rw [hk]
    exact hr (h.regs e)
  · rw [hc]
    exact hl (h.log e)
  · have c := h.clock e
    exact ⟨hk.trans c.kind, hp.trans c.phase, ht.trans c.tick, hn.trans c.ns, hv.trans c.valid⟩

/-- A record update that leaves the part, the clock, the registers and the log as they are. -/
theorem base_mk_keeps {b : Base} {pa : Nat} {fr : Nat} {la : Tab Word} {st : Tab (Option Word)} {lg : Bool}
    {fi : Option LogEntry} {wi : Option (BitVec 64)} {lo : Bool} {ev : Evc} {bl : Nat} {sl : Bool} {ou : List Out}
    (h : Keeps κ b₀ b) :
    Keeps κ b₀ ⟨b.kind, b.phase, pa, b.tick, b.ns, b.valid, fr, b.regs, la, st, b.log, lg, fi, wi, lo, ev, bl, sl, ou⟩ :=
  h.same rfl rfl rfl rfl rfl id id
/-- A record update that sets the clock as well. -/
theorem base_set_keeps {b : Base} {ph : Phase} {pa tk : Nat} {ns : BitVec 64} {va : Bool} {fr : Nat} {la : Tab Word}
    {st : Tab (Option Word)} {lg : Bool} {fi : Option LogEntry} {wi : Option (BitVec 64)} {lo : Bool} {ev : Evc} {bl : Nat}
    {sl : Bool} {ou : List Out} (h : Keeps false b₀ b) :
    Keeps false b₀ ⟨b.kind, ph, pa, tk, ns, va, fr, b.regs, la, st, b.log, lg, fi, wi, lo, ev, bl, sl, ou⟩ :=
  ⟨h.part, h.regs, h.log, fun e => by cases e⟩

theorem unit_mk_keeps {b : Base} {pa pb : LinkPort} {db : Dbg} {se : Sems} {sv : Servo} {ta : Nat} {ul : Bool} {tp : Tab Tap}
    {tt : Tab TapPort} {ca : Cap} {dr : Tab Drip} {la : Launch} {ba : Tab Barrier} {fl : Tab FlowPair} {fn : Fence} {dl : Dlk}
    {cm : Client} (h : Keeps κ s₀.unit.base b) :
    UnitKeeps κ s₀ ⟨b, pa, pb, db, se, sv, ta, ul, tp, tt, ca, dr, la, ba, fl, fn, dl, cm⟩ := h
theorem dist_mk_keeps {b : Base} {po : Tab LinkPort} {sv : Servo} {ca : Calib} {ro : Rope} {cm : DistCmb} {rt : Root} {pt : Ptp}
    {ad : DistAdm} {tg : Option (Nat × Nat)} (h : Keeps κ s₀.dist.base b) : DistKeeps κ s₀ ⟨b, po, sv, ca, ro, cm, rt, pt, ad, tg⟩ := h
theorem state_of_keeps {s : State} (hq : s.pending = s₀.pending) (hu : UnitKeeps κ s₀ s.unit) (hd : DistKeeps κ s₀ s.dist) :
    StateKeeps κ s₀ s := ⟨hq, hu, hd⟩

/-! ## Choices -/

section
variable {c : Prop} [Decidable c]
theorem iteState_keeps {a b : State} (ha : StateKeeps κ s₀ a) (hb : StateKeeps κ s₀ b) :
    StateKeeps κ s₀ (if c then a else b) := by split <;> assumption
theorem iteUnit_keeps {a b : UnitState} (ha : UnitKeeps κ s₀ a) (hb : UnitKeeps κ s₀ b) :
    UnitKeeps κ s₀ (if c then a else b) := by split <;> assumption
theorem iteDist_keeps {a b : DistState} (ha : DistKeeps κ s₀ a) (hb : DistKeeps κ s₀ b) :
    DistKeeps κ s₀ (if c then a else b) := by split <;> assumption
theorem iteBase_keeps {a b : Base} (ha : Keeps κ b₀ a) (hb : Keeps κ b₀ b) : Keeps κ b₀ (if c then a else b) := by
  split <;> assumption

/-- The machine an operation answers, where it answers one. -/
def OptKeeps (κ : Bool) (s₀ : State) (o : Option State) : Prop := ∀ t, o = some t → StateKeeps κ s₀ t
def OptPairKeeps (κ : Bool) (s₀ : State) (o : Option (Word × State)) : Prop := ∀ t, o = some t → StateKeeps κ s₀ t.2

theorem optNone_keeps : OptKeeps κ s₀ none := fun _ h => by cases h
theorem optSome_keeps {s : State} (h : StateKeeps κ s₀ s) : OptKeeps κ s₀ (some s) := fun _ e => by cases e; exact h
theorem iteOpt_keeps {a b : Option State} (ha : OptKeeps κ s₀ a) (hb : OptKeeps κ s₀ b) :
    OptKeeps κ s₀ (if c then a else b) := by split <;> assumption
theorem optPairNone_keeps : OptPairKeeps κ s₀ none := fun _ h => by cases h
theorem optPairSome_keeps {x : Word × State} (h : StateKeeps κ s₀ x.2) : OptPairKeeps κ s₀ (some x) :=
  fun _ e => by cases e; exact h
theorem iteOptPair_keeps {a b : Option (Word × State)} (ha : OptPairKeeps κ s₀ a) (hb : OptPairKeeps κ s₀ b) :
    OptPairKeeps κ s₀ (if c then a else b) := by split <;> assumption
end

/-! ## Folds -/

section
variable {α : Type} {l : List α}
theorem foldState_keeps {f : State → α → State} {s : State} (hf : ∀ z x, StateKeeps κ s₀ z → StateKeeps κ s₀ (f z x))
    (hs : StateKeeps κ s₀ s) : StateKeeps κ s₀ (l.foldl f s) := by
  induction l generalizing s with
  | nil => exact hs
  | cons x l ih => exact ih (hf s x hs)
theorem foldUnit_keeps {f : UnitState → α → UnitState} {s : UnitState} (hf : ∀ z x, UnitKeeps κ s₀ z → UnitKeeps κ s₀ (f z x))
    (hs : UnitKeeps κ s₀ s) : UnitKeeps κ s₀ (l.foldl f s) := by
  induction l generalizing s with
  | nil => exact hs
  | cons x l ih => exact ih (hf s x hs)
theorem foldDist_keeps {f : DistState → α → DistState} {s : DistState} (hf : ∀ z x, DistKeeps κ s₀ z → DistKeeps κ s₀ (f z x))
    (hs : DistKeeps κ s₀ s) : DistKeeps κ s₀ (l.foldl f s) := by
  induction l generalizing s with
  | nil => exact hs
  | cons x l ih => exact ih (hf s x hs)
theorem foldBase_keeps {f : Base → α → Base} {s : Base} (hf : ∀ z x, Keeps κ b₀ z → Keeps κ b₀ (f z x)) (hs : Keeps κ b₀ s) :
    Keeps κ b₀ (l.foldl f s) := by
  induction l generalizing s with
  | nil => exact hs
  | cons x l ih => exact ih (hf s x hs)
end

/-! ## Reset and a flushed log -/

theorem baseAtReset_keeps {b : Base} {ph : Phase} {n f : Nat} (h : Keeps false b₀ b) :
    Keeps false b₀ (Base.atReset b.kind ph n f) := ⟨h.part, fun _ => rfl, fun _ => Nat.zero_le _, fun e => by cases e⟩
theorem unitAtReset_keeps {b : Base} (h : Keeps κ s₀.unit.base b) : UnitKeeps κ s₀ (UnitState.atReset b) := h
theorem distAtReset_keeps {b : Base} {n : Nat} (h : Keeps κ s₀.dist.base b) : DistKeeps κ s₀ (DistState.atReset b n) := h
theorem logEmpty_keeps {b : Base} (h : Keeps κ b₀ b) : Keeps κ b₀ { b with log := [] } :=
  h.same rfl rfl rfl rfl rfl id (fun _ => Nat.zero_le _)

/-! ## The named operations of Ops -/

section
variable {b : Base}
theorem wr_keeps {a : Nat} {v : Word} (h : Keeps κ b₀ b) : Keeps κ b₀ (wr a v b) :=
  h.same rfl rfl rfl rfl rfl (tabSet_wf (resetOf b.kind) a v b.regs) id
theorem wrF_keeps {a lo w v : Nat} (h : Keeps κ b₀ b) : Keeps κ b₀ (wrF a lo w v b) := wr_keeps h
theorem wrB_keeps {a i : Nat} {v : Bool} (h : Keeps κ b₀ b) : Keeps κ b₀ (wrB a i v b) := wr_keeps h
theorem incF_keeps {a lo w : Nat} (h : Keeps κ b₀ b) : Keeps κ b₀ (incF a lo w b) := wr_keeps h
theorem inc_keeps {a : Nat} (h : Keeps κ b₀ b) : Keeps κ b₀ (inc a b) := wr_keeps h
theorem wr64_keeps {a : Nat} {v : BitVec 64} (h : Keeps κ b₀ b) : Keeps κ b₀ (wr64 a v b) := wr_keeps (wr_keeps h)
theorem pgEvt_keeps {g i : Nat} (h : Keeps κ b₀ b) : Keeps κ b₀ (pgEvt g i b) := wr_keeps h
theorem emit_keeps {o : Out} (h : Keeps κ b₀ b) : Keeps κ b₀ (emit o b) := base_mk_keeps h
theorem draw_keeps (h : Keeps κ b₀ b) : Keeps κ b₀ (draw b) := base_mk_keeps h
theorem srcSet_keeps {n : Nat} {e : EvSrc} (h : Keeps κ b₀ b) : Keeps κ b₀ (srcSet n e b) := base_mk_keeps h
theorem grpSet_keeps {n : Nat} {e : EvGrp} (h : Keeps κ b₀ b) : Keeps κ b₀ (grpSet n e b) := base_mk_keeps h
theorem makePending_keeps {n m : Nat} (h : Keeps κ b₀ b) : Keeps κ b₀ (makePending n m b) := base_mk_keeps h
theorem occur_keeps {n : Nat} (h : Keeps κ b₀ b) : Keeps κ b₀ (occur n b) := by
  unfold occur
  extract_lets g hold
  apply iteBase_keeps
  · exact srcSet_keeps h
  · apply iteBase_keeps
    · exact makePending_keeps h
    · exact makePending_keeps (grpSet_keeps h)
theorem loadFirst_keeps {e : LogEntry} (h : Keeps κ b₀ b) : Keeps κ b₀ (loadFirst e b) :=
  iteBase_keeps (pgEvt_keeps (base_mk_keeps h)) h

theorem bumpLast_length (l : List LogEntry) : (bumpLast l).length = l.length := by
  induction l with
  | nil => rfl
  | cons x l ih => cases l <;> simp_all [bumpLast]

/-- A new entry's place splits the log (R456). -/
theorem logHead_logTail (e : LogEntry) (l : List LogEntry) : logHead e l ++ logTail e l = l := by
  rw [logHead, logTail, ← List.reverse_append, List.takeWhile_append_dropWhile, List.reverse_reverse]

theorem logSplit_length (e : LogEntry) (l : List LogEntry) : (logHead e l).length + (logTail e l).length = l.length := by
  rw [← List.length_append, logHead_logTail]

/-- A happening leaves the log within its capacity, whether it merges, is inserted or is dropped. -/
theorem addEntry_keeps {pg : Option (Nat × Nat)} {e : LogEntry} (h : Keeps κ b₀ b) : Keeps κ b₀ (addEntry pg e b) := by
  unfold addEntry
  have hb : Keeps κ b₀ (inc (cntAddr b e.kind.toNat) b) := inc_keeps h
  revert hb
  generalize inc (cntAddr b e.kind.toNat) b = c
  intro hb
  have flt : ∀ z, Keeps κ b₀ z → Keeps κ b₀ (match pg with
      | some (p, i) => wrB (pageAddr p 0x018) (min i 31) true z
      | none => z) := by
    intro z hz
    split
    · exact wrB_keeps hz
    · exact hz
  dsimp only
  split
  · apply flt
    exact hb.same rfl rfl rfl rfl rfl id (fun hl => by
      simpa only [List.length_append, bumpLast_length, logSplit_length] using hl)
  · split
    · rename_i ha
      apply flt
      apply loadFirst_keeps
      have hc : Keeps κ b₀ { c with log := logHead e c.log ++ { e with gap := c.logGap } :: logTail e c.log, logGap := false } := by
        refine hb.same rfl rfl rfl rfl rfl id (fun _ => ?_)
        simp only [logAccepts, logFree] at ha
        have hl := logSplit_length e c.log
        simp only [List.length_append, List.length_cons]
        by_cases hk : e.kind = 3
        · rw [if_pos hk] at ha
          have := of_decide_eq_true ha
          omega
        · rw [if_neg hk] at ha
          have := of_decide_eq_true ha
          omega
      exact iteBase_keeps (pgEvt_keeps (wrF_keeps hc)) (wrF_keeps hc)
    · exact inc_keeps (base_mk_keeps hb)
theorem logB_keeps {h : Hap} {a o u x : Nat} (hb : Keeps κ b₀ b) : Keeps κ b₀ (logB h a o u x b) := addEntry_keeps hb
theorem logLink_keeps {r : PortRef} {h : Hap} {o x : Nat} (hb : Keeps κ b₀ b) : Keeps κ b₀ (logLink r h o x b) := by
  unfold logLink
  exact addEntry_keeps hb
end

section
variable {s : State} {f : Base → Base}
theorem uB_keeps {u : UnitState} (hf : ∀ z, Keeps κ s₀.unit.base z → Keeps κ s₀.unit.base (f z)) (h : UnitKeeps κ s₀ u) :
    UnitKeeps κ s₀ (uB f u) := hf _ h
theorem dB_keeps {d : DistState} (hf : ∀ z, Keeps κ s₀.dist.base z → Keeps κ s₀.dist.base (f z)) (h : DistKeeps κ s₀ d) :
    DistKeeps κ s₀ (dB f d) := hf _ h
theorem onUnit_keeps {f : UnitState → UnitState} (hf : ∀ z, UnitKeeps κ s₀ z → UnitKeeps κ s₀ (f z)) (h : StateKeeps κ s₀ s) :
    StateKeeps κ s₀ (onUnit f s) := ⟨h.queue, hf _ h.unit, h.dist⟩
theorem onDist_keeps {f : DistState → DistState} (hf : ∀ z, DistKeeps κ s₀ z → DistKeeps κ s₀ (f z)) (h : StateKeeps κ s₀ s) :
    StateKeeps κ s₀ (onDist f s) := ⟨h.queue, h.unit, hf _ h.dist⟩
theorem onPartBase_keeps {r : Part} (hf : ∀ b₀ z, Keeps κ b₀ z → Keeps κ b₀ (f z)) (h : StateKeeps κ s₀ s) :
    StateKeeps κ s₀ (onPartBase r f s) := by
  cases r
  · exact ⟨h.queue, hf _ _ h.unit, h.dist⟩
  · exact ⟨h.queue, h.unit, hf _ _ h.dist⟩
theorem onBaseOf_keeps {r : PortRef} (hf : ∀ b₀ z, Keeps κ b₀ z → Keeps κ b₀ (f z)) (h : StateKeeps κ s₀ s) :
    StateKeeps κ s₀ (onBaseOf r f s) := by
  cases r
  · exact ⟨h.queue, hf _ _ h.unit, h.dist⟩
  · exact ⟨h.queue, h.unit, hf _ _ h.dist⟩
theorem setUnitPort_keeps {u : UnitState} {d : Dom} {lp : LinkPort} (h : UnitKeeps κ s₀ u) :
    UnitKeeps κ s₀ (setUnitPort u d lp) := by
  cases d <;> exact h
theorem setDistPort_keeps {n : Nat} {lp : LinkPort} {d : DistState} (h : DistKeeps κ s₀ d) :
    DistKeeps κ s₀ (setDistPort n lp d) := h
theorem setPort_keeps {r : PortRef} {lp : LinkPort} (h : StateKeeps κ s₀ s) : StateKeeps κ s₀ (setPort r lp s) := by
  cases r
  · exact ⟨h.queue, setUnitPort_keeps h.unit, h.dist⟩
  · exact ⟨h.queue, h.unit, setDistPort_keeps h.dist⟩
theorem onPort_keeps {r : PortRef} {f : LinkPort → LinkPort} (h : StateKeeps κ s₀ s) : StateKeeps κ s₀ (onPort r f s) :=
  setPort_keeps h
end

end Sys2Proof.Machine
end

