-- ==== Sys2Proof/Laws/KeepsLink.lean ====
section
/-! SUPPORT. What the operations of Machine/Link.lean keep. -/

namespace Sys2Proof.Machine

variable {κ : Bool} {s₀ : State} {b₀ : Base}

theorem traceStop_keeps {u : UnitState} (h_u : UnitKeeps κ s₀ u) :
    UnitKeeps κ s₀ (traceStop u) := by
  unfold traceStop
  extract_lets v0
  apply iteUnit_keeps
  · apply uB_keeps
    · intro z1 h2
      apply pgEvt_keeps
      with_reducible assumption
    · with_reducible apply unit_mk_keeps
      change UnitKeeps κ s₀ _
      with_reducible assumption
  · with_reducible assumption

theorem traceTrigger_keeps {idx : Nat} {u : UnitState} (h_u : UnitKeeps κ s₀ u) :
    UnitKeeps κ s₀ (traceTrigger idx u) := by
  unfold traceTrigger
  extract_lets v3 v4 v5 v6
  have h7 : UnitKeeps κ s₀ v6 := by
    apply uB_keeps
    · intro z8 h9
      apply pgEvt_keeps
      apply wr64_keeps
      with_reducible assumption
    · with_reducible apply unit_mk_keeps
      change UnitKeeps κ s₀ _
      with_reducible assumption
  clear_value v6
  apply iteUnit_keeps
  · apply iteUnit_keeps
    · apply traceStop_keeps
      with_reducible assumption
    · with_reducible assumption
  · with_reducible assumption

theorem traceFrame_keeps {sent : Bool} {crcBad : Bool} {d : Dom} {lane : Bool} {f : Frame} {u : UnitState} (h_u : UnitKeeps κ s₀ u) :
    UnitKeeps κ s₀ (traceFrame sent crcBad d lane f u) := by
  unfold traceFrame
  extract_lets v10 v11 v12 v13 v14 v15 v16 v17 v18 v19 v20 v21 v22 v23
  have h24 : UnitKeeps κ s₀ v19 := by
    dsimp only [v19]
    with_reducible apply unit_mk_keeps
    change UnitKeeps κ s₀ _
    with_reducible assumption
  clear_value v19
  have h25 : UnitKeeps κ s₀ v22 := by
    apply iteUnit_keeps
    · apply traceTrigger_keeps
      with_reducible assumption
    · with_reducible assumption
  clear_value v22
  apply iteUnit_keeps
  · apply iteUnit_keeps
    · apply uB_keeps
      · intro z26 h27
        apply inc_keeps
        with_reducible assumption
      · with_reducible apply unit_mk_keeps
        change UnitKeeps κ s₀ _
        with_reducible assumption
    · apply iteUnit_keeps
      · split
        · apply iteUnit_keeps
          · apply traceStop_keeps
            with_reducible assumption
          · with_reducible apply unit_mk_keeps
            change UnitKeeps κ s₀ _
            with_reducible assumption
        · apply iteUnit_keeps
          · apply traceStop_keeps
            with_reducible assumption
          · with_reducible assumption
      · apply iteUnit_keeps
        · apply traceStop_keeps
          with_reducible assumption
        · with_reducible assumption
  · with_reducible assumption

theorem sendSeq_keeps {p0 : PortRef} {delay : Nat} {cls : Nat} {typ : BitVec 6} {hdr : BitVec 64} {payload : List (BitVec 64)} {s : State} (h_s : StateKeeps κ s₀ s) :
    StateKeeps κ s₀ (sendSeq p0 delay cls typ hdr payload s) := by
  unfold sendSeq
  apply onPort_keeps
  with_reducible assumption

theorem sendUns_keeps {p0 : PortRef} {spare : Bool} {cls : Nat} {typ : BitVec 6} {body : BitVec 64} {fill : Fill} {s : State} (h_s : StateKeeps κ s₀ s) :
    StateKeeps κ s₀ (sendUns p0 spare cls typ body fill s) := by
  unfold sendUns
  apply onPort_keeps
  with_reducible assumption

theorem sendAck_keeps {p0 : PortRef} {s : State} (h_s : StateKeeps κ s₀ s) :
    StateKeeps κ s₀ (sendAck p0 s) := by
  unfold sendAck
  extract_lets v28 v29 v30
  have h31 : StateKeeps κ s₀ v30 := by
    apply sendUns_keeps
    with_reducible assumption
  clear_value v30
  apply onPort_keeps
  with_reducible assumption

theorem sendNak_keeps {p0 : PortRef} {reason : Nat} {s : State} (h_s : StateKeeps κ s₀ s) :
    StateKeeps κ s₀ (sendNak p0 reason s) := by
  unfold sendNak
  extract_lets v32 v33 v34
  have h35 : StateKeeps κ s₀ v34 := by
    apply sendUns_keeps
    with_reducible assumption
  clear_value v34
  apply iteState_keeps
  · with_reducible assumption
  · apply onPort_keeps
    with_reducible assumption

theorem sendReport_keeps {p0 : PortRef} {code : Nat} {detail : Nat} {s : State} (h_s : StateKeeps κ s₀ s) :
    StateKeeps κ s₀ (sendReport p0 code detail s) := by
  unfold sendReport
  extract_lets v36 v37 v38
  apply iteState_keeps
  · apply sendSeq_keeps
    with_reducible assumption
  · apply onBaseOf_keeps
    · intro z39 z40 h41
      apply inc_keeps
      with_reducible assumption
    · with_reducible assumption

theorem sendReports_keeps {ds : List Dom} {code : Nat} {obj : Nat} {aux : Nat} {s : State} (h_s : StateKeeps κ s₀ s) :
    StateKeeps κ s₀ (sendReports ds code obj aux s) := by
  unfold sendReports
  extract_lets v42 v43
  have h44 : StateKeeps κ s₀ v43 := by
    apply iteState_keeps
    · apply sendReport_keeps
      with_reducible assumption
    · with_reducible assumption
  clear_value v43
  split
  · apply sendReport_keeps
    with_reducible assumption
  · apply iteState_keeps
    · apply sendReport_keeps
      with_reducible assumption
    · with_reducible assumption

theorem traceOnFault_keeps {h : Hap} {u : UnitState} (h_u : UnitKeeps κ s₀ u) :
    UnitKeeps κ s₀ (traceOnFault h u) := by
  unfold traceOnFault
  apply iteUnit_keeps
  · apply traceTrigger_keeps
    with_reducible assumption
  · with_reducible assumption

theorem logPort_keeps {p0 : PortRef} {h : Hap} {obj : Nat} {aux : Nat} {s : State} (h_s : StateKeeps κ s₀ s) :
    StateKeeps κ s₀ (logPort p0 h obj aux s) := by
  unfold logPort
  split
  · apply onBaseOf_keeps
    · intro z45 z46 h47
      apply logLink_keeps
      with_reducible assumption
    · with_reducible assumption
  · extract_lets v48 v49 v50
    have h51 : StateKeeps κ s₀ v50 := by
      apply onUnit_keeps
      · intro z52 h53
        apply traceOnFault_keeps
        with_reducible assumption
      · apply onBaseOf_keeps
        · intro z54 z55 h56
          apply logLink_keeps
          with_reducible assumption
        · with_reducible assumption
    clear_value v50
    split
    · apply iteState_keeps
      · with_reducible assumption
      · apply sendReports_keeps
        with_reducible assumption
    · with_reducible assumption

theorem logU_keeps {h : Hap} {port : Nat} {obj : Nat} {uid : Nat} {aux : Nat} {s : State} (h_s : StateKeeps κ s₀ s) :
    StateKeeps κ s₀ (logU h port obj uid aux s) := by
  unfold logU
  extract_lets v57 v58
  have h59 : StateKeeps κ s₀ v58 := by
    apply onUnit_keeps
    · intro z60 h61
      apply traceOnFault_keeps
      apply uB_keeps
      · intro z62 h63
        apply logB_keeps
        with_reducible assumption
      · with_reducible assumption
    · with_reducible assumption
  clear_value v58
  apply iteState_keeps
  · apply sendReports_keeps
    with_reducible assumption
  · with_reducible assumption

theorem logD_keeps {h : Hap} {port : Nat} {obj : Nat} {uid : Nat} {aux : Nat} {s : State} (h_s : StateKeeps κ s₀ s) :
    StateKeeps κ s₀ (logD h port obj uid aux s) := by
  unfold logD
  apply onDist_keeps
  · intro z64 h65
    apply dB_keeps
    · intro z66 h67
      apply logB_keeps
      with_reducible assumption
    · with_reducible assumption
  · with_reducible assumption

theorem addScore_keeps {n : Nat} {pts : Nat} {s : State} (h_s : StateKeeps κ s₀ s) :
    StateKeeps κ s₀ (addScore n pts s) := by
  unfold addScore
  extract_lets v68 v69 v70 v71 v72 v73 v74
  have h75 : StateKeeps κ s₀ v73 := by
    apply onDist_keeps
    · intro z76 h77
      apply setDistPort_keeps
      with_reducible assumption
    · with_reducible assumption
  clear_value v73
  have h78 : StateKeeps κ s₀ v74 := by
    apply logD_keeps
    with_reducible assumption
  clear_value v74
  apply iteState_keeps
  · with_reducible assumption
  · apply iteState_keeps
    · apply onDist_keeps
      · intro z79 h80
        apply dB_keeps
        · intro z81 h82
          apply pgEvt_keeps
          with_reducible assumption
        · apply dB_keeps
          · intro z83 h84
            apply pgEvt_keeps
            with_reducible assumption
          · with_reducible assumption
      · with_reducible assumption
    · with_reducible assumption

theorem scorePort_keeps {p0 : PortRef} {o : Nat} {lo : Nat} {s : State} (h_s : StateKeeps κ s₀ s) :
    StateKeeps κ s₀ (scorePort p0 o lo s) := by
  unfold scorePort
  split
  · with_reducible assumption
  · apply addScore_keeps
    with_reducible assumption

theorem portEvt_keeps {p0 : PortRef} {i : Nat} {s : State} (h_s : StateKeeps κ s₀ s) :
    StateKeeps κ s₀ (portEvt p0 i s) := by
  unfold portEvt
  apply onBaseOf_keeps
  · intro z85 z86 h87
    apply pgEvt_keeps
    with_reducible assumption
  · with_reducible assumption

theorem setLinkState_keeps {p0 : PortRef} {st : LinkState} {s : State} (h_s : StateKeeps κ s₀ s) :
    StateKeeps κ s₀ (setLinkState p0 st s) := by
  unfold setLinkState
  extract_lets v88 v89
  apply iteState_keeps
  · with_reducible assumption
  · apply portEvt_keeps
    apply setPort_keeps
    with_reducible assumption

theorem linkDown_keeps {p0 : PortRef} {s : State} (h_s : StateKeeps κ s₀ s) :
    StateKeeps κ s₀ (linkDown p0 s) := by
  unfold linkDown
  apply setLinkState_keeps
  apply onPort_keeps
  with_reducible assumption

theorem linkTrain_keeps {p0 : PortRef} {s : State} (h_s : StateKeeps κ s₀ s) :
    StateKeeps κ s₀ (linkTrain p0 s) := by
  unfold linkTrain
  apply setLinkState_keeps
  apply onPort_keeps
  with_reducible assumption

theorem testDown_keeps {p0 : PortRef} {s : State} (h_s : StateKeeps κ s₀ s) :
    StateKeeps κ s₀ (testDown p0 s) := by
  unfold testDown
  extract_lets v90 v91 v92
  apply iteState_keeps
  · apply linkTrain_keeps
    apply setPort_keeps
    with_reducible assumption
  · with_reducible assumption

theorem traceRx_keeps {p0 : PortRef} {lane : Bool} {fs : List Frame} {s : State} (h_s : StateKeeps κ s₀ s) :
    StateKeeps κ s₀ (traceRx p0 lane fs s) := by
  unfold traceRx
  split
  · apply foldState_keeps
    · intro z93 z94 h95
      apply onUnit_keeps
      · intro z96 h97
        apply traceFrame_keeps
        with_reducible assumption
      · with_reducible assumption
    · with_reducible assumption
  · with_reducible assumption

theorem noteTrig_keeps {p0 : PortRef} {s : State} (h_s : StateKeeps κ s₀ s) :
    StateKeeps κ s₀ (noteTrig p0 s) := by
  unfold noteTrig
  split
  · with_reducible assumption
  · extract_lets v98
    have h99 : DistKeeps κ s₀ v98 := by
      exact StateKeeps.dist (by assumption)
    clear_value v98
    refine state_of_keeps ?_ ?_ ?_ <;> dsimp only
    · exact StateKeeps.queue (by assumption)
    · exact StateKeeps.unit (by assumption)
    · with_reducible apply dist_mk_keeps
      change DistKeeps κ s₀ _
      with_reducible assumption

theorem seqTest_keeps {p0 : PortRef} {lane : Bool} {seq : BitVec 8} {s : State} (h_s : StateKeeps κ s₀ s) :
    StateKeeps κ s₀ (seqTest p0 lane seq s).2 := by
  unfold seqTest
  extract_lets v100 v101
  have h102 : StateKeeps κ s₀ v101 := by
    apply onPort_keeps
    with_reducible assumption
  clear_value v101
  split
  · dsimp only
    apply noteTrig_keeps
    apply onPort_keeps
    with_reducible assumption
  · split
    · dsimp only
      apply sendAck_keeps
      with_reducible assumption
    · dsimp only
      apply sendNak_keeps
      with_reducible assumption

theorem rxFrame_keeps {rx : Rx} {ok : Bool} {c : Nat} {hdr : Bool} {f : Frame} {s : State} (h_s : StateKeeps κ s₀ s) :
    StateKeeps κ s₀ (rxFrame rx ok c hdr f s) := by
  unfold rxFrame
  extract_lets v103
  have h104 : StateKeeps κ s₀ v103.2 := by
    apply seqTest_keeps
    apply traceRx_keeps
    with_reducible assumption
  clear_value v103
  apply iteState_keeps
  · apply onPort_keeps
    with_reducible assumption
  · with_reducible assumption

theorem rxFrames_keeps {rx : Rx} {ok : Bool} {c : Nat} {hdr : Bool} {seq : BitVec 8} {l : List (BitVec 6 × BitVec 64)}
    {s : State} (h_s : StateKeeps κ s₀ s) : StateKeeps κ s₀ (rxFrames rx ok c hdr seq l s) := by
  induction l generalizing hdr seq s with
  | nil => exact h_s
  | cons x l ih =>
    obtain ⟨t, b⟩ := x
    exact ih (rxFrame_keeps h_s)

theorem rxSeq_keeps {rx : Rx} {ok : Bool} {fs : List (BitVec 6 × BitVec 64)} {s : State} (h_s : StateKeeps κ s₀ s) :
    StateKeeps κ s₀ (rxSeq rx ok fs s).2 := by
  unfold rxSeq
  extract_lets v105 v106
  have h107 : StateKeeps κ s₀ v106 := by
    dsimp only [v106]
    split
    · apply rxFrames_keeps
      with_reducible assumption
    · apply rxFrames_keeps
      with_reducible assumption
  clear_value v106
  split
  · split
    · dsimp only
      apply onPort_keeps
      with_reducible assumption
    · with_reducible assumption
  · with_reducible assumption

theorem rxUns_keeps {rx : RxU} {ok : Bool} {typ : BitVec 6} {body : BitVec 64} {s : State} (h_s : StateKeeps κ s₀ s) :
    StateKeeps κ s₀ (rxUns rx ok typ body s).2 := by
  unfold rxUns
  extract_lets v108 v109
  have h110 : StateKeeps κ s₀ v108 := by
    apply traceRx_keeps
    with_reducible assumption
  clear_value v108
  have h111 : StateKeeps κ s₀ v109 := by
    apply onPort_keeps
    with_reducible assumption
  clear_value v109
  split
  · split
    · with_reducible assumption
    · dsimp only
      apply onPort_keeps
      with_reducible assumption
  · with_reducible assumption

theorem replayAll_keeps {p0 : PortRef} {s : State} (h_s : StateKeeps κ s₀ s) :
    StateKeeps κ s₀ (replayAll p0 s) := by
  unfold replayAll
  extract_lets v112
  apply iteState_keeps
  · with_reducible assumption
  · apply scorePort_keeps
    apply onPort_keeps
    with_reducible assumption

theorem startReplay_keeps {p0 : PortRef} {s : State} (h_s : StateKeeps κ s₀ s) :
    StateKeeps κ s₀ (startReplay p0 s) := by
  unfold startReplay
  extract_lets v113 v114 v115
  have h116 : StateKeeps κ s₀ v113 := by
    apply replayAll_keeps
    with_reducible assumption
  clear_value v113
  have h117 : StateKeeps κ s₀ v115 := by
    apply onPort_keeps
    with_reducible assumption
  clear_value v115
  apply iteState_keeps
  · with_reducible assumption
  · apply iteState_keeps
    · apply onPort_keeps
      with_reducible assumption
    · apply scorePort_keeps
      apply portEvt_keeps
      apply logPort_keeps
      with_reducible assumption

theorem emitTrain_keeps {p0 : PortRef} {lp : LinkPort} {b : Base} (h_b : Keeps κ b₀ b) :
    Keeps κ b₀ (emitTrain p0 lp b) := by
  unfold emitTrain
  apply foldBase_keeps
  · intro z118 z119 h120
    apply emit_keeps
    with_reducible assumption
  · with_reducible assumption

theorem unitEmit_keeps {d : Dom} {fs : List (Bool × Frame)} {u : UnitState} (h_u : UnitKeeps κ s₀ u) :
    UnitKeeps κ s₀ (unitEmit d fs u) := by
  unfold unitEmit
  apply foldUnit_keeps
  · intro z121 z122 h123
    apply traceFrame_keeps
    apply uB_keeps
    · intro z124 h125
      apply emit_keeps
      with_reducible assumption
    · with_reducible assumption
  · with_reducible assumption

theorem blkNext_keeps {b : Base} (h_b : Keeps κ b₀ b) :
    Keeps κ b₀ (blkNext b) := by
  unfold blkNext
  with_reducible apply base_mk_keeps
  with_reducible assumption

theorem unitTx_keeps {u : UnitState} (h_u : UnitKeeps κ s₀ u) :
    UnitKeeps κ s₀ (unitTx u) := by
  unfold unitTx
  extract_lets v126 v127 v128 v129
  have h130 : UnitKeeps κ s₀ v129 := by
    apply unitEmit_keeps
    apply unitEmit_keeps
    with_reducible apply unit_mk_keeps
    change UnitKeeps κ s₀ _
    with_reducible assumption
  clear_value v129
  apply iteUnit_keeps
  · with_reducible assumption
  · apply iteUnit_keeps
    · apply uB_keeps
      · intro z131 h132
        apply blkNext_keeps
        with_reducible assumption
      · apply unitEmit_keeps
        apply unitEmit_keeps
        with_reducible assumption
    · apply uB_keeps
      · intro z133 h134
        apply blkNext_keeps
        apply emitTrain_keeps
        apply emitTrain_keeps
        with_reducible assumption
      · with_reducible assumption

theorem distTx_keeps {d : DistState} (h_d : DistKeeps κ s₀ d) :
    DistKeeps κ s₀ (distTx d) := by
  unfold distTx
  extract_lets v135
  apply iteDist_keeps
  · with_reducible assumption
  · apply iteDist_keeps
    · apply dB_keeps
      · intro z136 h137
        apply blkNext_keeps
        with_reducible assumption
      · apply foldDist_keeps
        · intro z138 z139 h140
          apply dB_keeps
          · intro z141 h142
            apply foldBase_keeps
            · intro z143 z144 h145
              apply emit_keeps
              with_reducible assumption
            · with_reducible assumption
          · with_reducible assumption
        · with_reducible assumption
    · apply dB_keeps
      · intro z146 h147
        apply blkNext_keeps
        with_reducible assumption
      · apply foldDist_keeps
        · intro z148 z149 h150
          extract_lets v151 v152
          have h153 : DistKeeps κ s₀ v152 := by
            apply setDistPort_keeps
            with_reducible assumption
          clear_value v152
          apply dB_keeps
          · intro z154 h155
            apply emitTrain_keeps
            apply foldBase_keeps
            · intro z156 z157 h158
              apply emit_keeps
              with_reducible assumption
            · with_reducible assumption
          · with_reducible assumption
        · with_reducible assumption

end Sys2Proof.Machine
end

