-- ==== Sys2Proof/Laws/KeepsEvents.lean ====
section
/-! SUPPORT. What the operations of Machine/Events.lean keep. -/

namespace Sys2Proof.Machine

variable {κ : Bool} {s₀ : State} {b₀ : Base}

theorem ifUnit_keeps {f : State → State} {s : State} (h_f : ∀  z, StateKeeps κ s₀ z → StateKeeps κ s₀ (f z)) (h_s : StateKeeps κ s₀ s) :
    StateKeeps κ s₀ (ifUnit f s) := by
  unfold ifUnit
  apply iteState_keeps
  · apply h_f
    with_reducible assumption
  · with_reducible assumption

theorem ifDist_keeps {f : State → State} {s : State} (h_f : ∀  z, StateKeeps κ s₀ z → StateKeeps κ s₀ (f z)) (h_s : StateKeeps κ s₀ s) :
    StateKeeps κ s₀ (ifDist f s) := by
  unfold ifDist
  apply iteState_keeps
  · apply h_f
    with_reducible assumption
  · with_reducible assumption

theorem ifPart_keeps {p0 : Part} {f : State → State} {s : State} (h_f : ∀  z, StateKeeps κ s₀ z → StateKeeps κ s₀ (f z)) (h_s : StateKeeps κ s₀ s) :
    StateKeeps κ s₀ (ifPart p0 f s) := by
  unfold ifPart
  apply iteState_keeps
  · apply h_f
    with_reducible assumption
  · with_reducible assumption

theorem ifUnitRuns_keeps {f : State → State} {s : State} (h_f : ∀  z, StateKeeps κ s₀ z → StateKeeps κ s₀ (f z)) (h_s : StateKeeps κ s₀ s) :
    StateKeeps κ s₀ (ifUnitRuns f s) := by
  unfold ifUnitRuns
  apply iteState_keeps
  · apply h_f
    with_reducible assumption
  · with_reducible assumption

theorem ifDistRuns_keeps {f : State → State} {s : State} (h_f : ∀  z, StateKeeps κ s₀ z → StateKeeps κ s₀ (f z)) (h_s : StateKeeps κ s₀ s) :
    StateKeeps κ s₀ (ifDistRuns f s) := by
  unfold ifDistRuns
  apply iteState_keeps
  · apply h_f
    with_reducible assumption
  · with_reducible assumption

theorem answer_keeps {part : Part} {ch : BitVec 3} {v : Word} {s : State} (h_s : StateKeeps κ s₀ s) :
    StateKeeps κ s₀ (answer part ch v s) := by
  unfold answer
  apply onPartBase_keeps
  · intro z0 z1 h2
    apply emit_keeps
    with_reducible assumption
  · with_reducible assumption

theorem setStack_keeps {k : Nat} {l : List Nest} {b : Base} (h_b : Keeps κ b₀ b) :
    Keeps κ b₀ (setStack k l b) := by
  unfold setStack
  extract_lets v3
  with_reducible apply base_mk_keeps
  with_reducible assumption

theorem logUnrouted_keeps {s : State} (h_s : StateKeeps κ s₀ s) :
    StateKeeps κ s₀ (logUnrouted s) := by
  unfold logUnrouted
  apply foldState_keeps
  · intro z4 z5 h6
    extract_lets v7 v8 v9
    have h10 : Keeps κ s₀.unit.base v7 := by
      exact StateKeeps.unit (by assumption)
    clear_value v7
    apply iteState_keeps
    · apply onUnit_keeps
      · intro z11 h12
        apply uB_keeps
        · intro z13 h14
          apply srcSet_keeps
          with_reducible assumption
        · with_reducible assumption
      · apply logU_keeps
        with_reducible assumption
    · apply iteState_keeps
      · apply onUnit_keeps
        · intro z15 h16
          apply uB_keeps
          · intro z17 h18
            apply srcSet_keeps
            with_reducible assumption
          · with_reducible assumption
        · with_reducible assumption
      · with_reducible assumption
  · with_reducible assumption

theorem driveEvreq_keeps {b : Base} (h_b : Keeps κ b₀ b) :
    Keeps κ b₀ (driveEvreq b) := by
  unfold driveEvreq
  extract_lets v19 v20 v21
  have h24 : Keeps κ b₀ v21 := by
    dsimp only [v21]
    with_reducible apply base_mk_keeps
    with_reducible assumption
  clear_value v21
  apply iteBase_keeps
  · with_reducible assumption
  · apply emit_keeps
    with_reducible assumption

theorem claim_keeps {k : Nat} {s : State} (h_s : StateKeeps κ s₀ s) :
    StateKeeps κ s₀ (claim k s).2 := by
  unfold claim
  extract_lets v25
  have h26 : Keeps κ s₀.unit.base v25 := by
    exact StateKeeps.unit (by assumption)
  clear_value v25
  split
  · with_reducible assumption
  · split
    · with_reducible assumption
    · extract_lets v27 v28 v29 v30 v31 v32 v33
      have h34 : Keeps κ s₀.unit.base v31 := by
        apply setStack_keeps
        apply srcSet_keeps
        with_reducible assumption
      clear_value v31
      have h35 : Keeps κ s₀.unit.base v33 := by
        dsimp only [v33]
        with_reducible apply base_mk_keeps
        with_reducible assumption
      clear_value v33
      split
      · dsimp only
        apply logU_keeps
        with_reducible assumption
      · dsimp only
        apply onUnit_keeps
        · intro z36 h37
          apply uB_keeps
          · intro z38 h39
            with_reducible assumption
          · with_reducible assumption
        · with_reducible assumption

theorem eoi_keeps {k : Nat} {n : Nat} {s : State} (h_s : StateKeeps κ s₀ s) :
    StateKeeps κ s₀ (eoi k n s) := by
  unfold eoi
  extract_lets v40
  have h41 : Keeps κ s₀.unit.base v40 := by
    exact StateKeeps.unit (by assumption)
  clear_value v40
  split
  · apply iteState_keeps
    · apply onUnit_keeps
      · intro z42 h43
        apply uB_keeps
        · intro z44 h45
          extract_lets v46
          apply setStack_keeps
          apply srcSet_keeps
          with_reducible assumption
        · with_reducible assumption
      · with_reducible assumption
    · apply logU_keeps
      with_reducible assumption
  · apply logU_keeps
    with_reducible assumption

theorem cpuFlushOp_keeps {k : Nat} {b : Base} (h_b : Keeps κ b₀ b) :
    Keeps κ b₀ (cpuFlushOp k b) := by
  unfold cpuFlushOp
  apply setStack_keeps
  apply foldBase_keeps
  · intro z47 z48 h49
    extract_lets v50
    apply srcSet_keeps
    with_reducible assumption
  · with_reducible assumption

theorem vecSend_keeps {v : Nat} {b : Base} (h_b : Keeps κ b₀ b) :
    Keeps κ b₀ (vecSend v b) := by
  unfold vecSend
  apply iteBase_keeps
  · with_reducible assumption
  · apply iteBase_keeps
    · apply wrB_keeps
      with_reducible assumption
    · apply emit_keeps
      apply wrB_keeps
      with_reducible assumption

theorem vecSendAll_keeps {m : BitVec 16} {b : Base} (h_b : Keeps κ b₀ b) :
    Keeps κ b₀ (vecSendAll m b) := by
  unfold vecSendAll
  apply foldBase_keeps
  · intro z51 z52 h53
    apply iteBase_keeps
    · apply vecSend_keeps
      with_reducible assumption
    · with_reducible assumption
  · with_reducible assumption

theorem pbaSettle_keeps {b : Base} (h_b : Keeps κ b₀ b) :
    Keeps κ b₀ (pbaSettle b) := by
  unfold pbaSettle
  apply foldBase_keeps
  · intro z54 z55 h56
    apply iteBase_keeps
    · apply iteBase_keeps
      · apply wrB_keeps
        with_reducible assumption
      · apply iteBase_keeps
        · with_reducible assumption
        · apply vecSend_keeps
          with_reducible assumption
    · with_reducible assumption
  · with_reducible assumption

theorem msixTick_keeps {b : Base} (h_b : Keeps κ b₀ b) :
    Keeps κ b₀ (msixTick b) := by
  unfold msixTick
  extract_lets v57 v58 v59
  have h62 : Keeps κ b₀ v58 := by
    apply vecSendAll_keeps
    with_reducible assumption
  clear_value v58
  apply pbaSettle_keeps
  with_reducible apply base_mk_keeps
  with_reducible assumption

theorem msixAgain_keeps {b : Base} (h_b : Keeps κ b₀ b) :
    Keeps κ b₀ (msixAgain b) := by
  unfold msixAgain
  apply iteBase_keeps
  · with_reducible assumption
  · exact base_mk_keeps (vecSendAll_keeps h_b)

theorem pendReadOp_keeps {w : Nat} {b : Base} (h_b : Keeps κ b₀ b) :
    Keeps κ b₀ (pendReadOp w b) := by
  unfold pendReadOp
  apply foldBase_keeps
  · intro z63 z64 h65
    extract_lets v66
    apply iteBase_keeps
    · apply srcSet_keeps
      with_reducible assumption
    · with_reducible assumption
  · with_reducible assumption

theorem lostSet_keeps {part : Part} {n : Nat} {s : State} (h_s : StateKeeps κ s₀ s) :
    StateKeeps κ s₀ (lostSet part n s) := by
  unfold lostSet
  extract_lets v67 v68
  have h69 : StateKeeps κ s₀ v68 := by
    apply onPartBase_keeps
    · intro z70 z71 h72
      extract_lets v73 v74
      apply pgEvt_keeps
      apply wrB_keeps
      apply incF_keeps
      apply wrF_keeps
      apply wrB_keeps
      with_reducible assumption
    · with_reducible assumption
  clear_value v68
  split
  · apply logU_keeps
    with_reducible assumption
  · apply logD_keeps
    with_reducible assumption

theorem pendClear1_keeps {part : Part} {n : Nat} {s : State} (h_s : StateKeeps κ s₀ s) :
    StateKeeps κ s₀ (pendClear1 part n s) := by
  unfold pendClear1
  extract_lets v79 v80 v81
  have h84 : StateKeeps κ s₀ v81 := by
    apply onPartBase_keeps
    · intro z85 z86 h87
      apply srcSet_keeps
      with_reducible assumption
    · with_reducible assumption
  clear_value v81
  apply iteState_keeps
  · apply iteState_keeps
    · apply lostSet_keeps
      with_reducible assumption
    · with_reducible assumption
  · with_reducible assumption

theorem pendWriteOp_keeps {part : Part} {w : Nat} {be : BitVec 4} {data : Word} {s : State} (h_s : StateKeeps κ s₀ s) :
    StateKeeps κ s₀ (pendWriteOp part w be data s) := by
  unfold pendWriteOp
  extract_lets v88 v89
  have h90 : StateKeeps κ s₀ v89 := by
    apply foldState_keeps
    · intro z91 z92 h93
      apply iteState_keeps
      · apply pendClear1_keeps
        with_reducible assumption
      · with_reducible assumption
    · with_reducible assumption
  clear_value v89
  apply iteState_keeps
  · apply onPartBase_keeps
    · intro z94 z95 h96
      apply msixAgain_keeps
      with_reducible assumption
    · with_reducible assumption
  · with_reducible assumption

theorem pendSetOp_keeps {w : Nat} {be : BitVec 4} {data : Word} {b : Base} (h_b : Keeps κ b₀ b) :
    Keeps κ b₀ (pendSetOp w be data b) := by
  unfold pendSetOp
  extract_lets v97
  apply foldBase_keeps
  · intro z98 z99 h100
    extract_lets v101
    apply iteBase_keeps
    · apply occur_keeps
      with_reducible assumption
    · with_reducible assumption
  · with_reducible assumption

theorem maskWriteOp_keeps {set : Bool} {w : Nat} {be : BitVec 4} {data : Word} {b : Base} (h_b : Keeps κ b₀ b) :
    Keeps κ b₀ (maskWriteOp set w be data b) := by
  unfold maskWriteOp
  extract_lets v102 v103 v104 v105
  have h108 : Keeps κ b₀ v105 := by
    apply wr_keeps
    with_reducible assumption
  clear_value v105
  apply iteBase_keeps
  · apply iteBase_keeps
    · with_reducible assumption
    · apply msixAgain_keeps
      with_reducible assumption
  · with_reducible assumption

theorem holdoffOp_keeps {g : Nat} {b : Base} (h_b : Keeps κ b₀ b) :
    Keeps κ b₀ (holdoffOp g b) := by
  unfold holdoffOp
  extract_lets v109 v110 v111 v112
  have h115 : Keeps κ b₀ v111 := by
    apply foldBase_keeps
    · intro z116 z117 h118
      extract_lets v119
      apply makePending_keeps
      apply srcSet_keeps
      with_reducible assumption
    · with_reducible assumption
  clear_value v111
  apply iteBase_keeps
  · apply iteBase_keeps
    · apply grpSet_keeps
      with_reducible assumption
    · apply grpSet_keeps
      with_reducible assumption
  · with_reducible assumption

theorem groupChanged_keeps {n : Nat} {b : Base} (h_b : Keeps κ b₀ b) :
    Keeps κ b₀ (groupChanged n b) := by
  unfold groupChanged
  extract_lets v120
  apply iteBase_keeps
  · apply makePending_keeps
    apply srcSet_keeps
    with_reducible assumption
  · with_reducible assumption

theorem hevtOp_keeps {n : Nat} {level : Bool} {b : Base} (h_b : Keeps κ b₀ b) :
    Keeps κ b₀ (hevtOp n level b) := by
  unfold hevtOp
  extract_lets v121 v122 v123
  have h126 : Keeps κ b₀ v123 := by
    apply srcSet_keeps
    with_reducible assumption
  clear_value v123
  apply iteBase_keeps
  · apply occur_keeps
    with_reducible assumption
  · with_reducible assumption

theorem evinOp_keeps {i : Nat} {level : Bool} {b : Base} (h_b : Keeps κ b₀ b) :
    Keeps κ b₀ (evinOp i level b) := by
  unfold evinOp
  extract_lets v127 v128 v129 v130
  have h133 : Keeps κ b₀ v129 := by
    apply srcSet_keeps
    with_reducible assumption
  clear_value v129
  apply iteBase_keeps
  · apply occur_keeps
    with_reducible assumption
  · with_reducible assumption

theorem lanternWake_keeps {s : State} (h_s : StateKeeps κ s₀ s) :
    StateKeeps κ s₀ (lanternWake s) := by
  unfold lanternWake
  extract_lets v134
  have h135 : Keeps κ s₀.unit.base v134 := by
    exact StateKeeps.unit (by assumption)
  clear_value v134
  apply iteState_keeps
  · split
    · extract_lets v136
      have h137 : StateKeeps κ s₀ v136 := by
        apply onUnit_keeps
        · intro z138 h139
          apply uB_keeps
          · intro z140 h141
            extract_lets v142 v143 v144
            have h145 : Keeps κ s₀.unit.base v143 := by
              dsimp only [v143]
              with_reducible apply base_mk_keeps
              with_reducible assumption
            clear_value v143
            have h146 : Keeps κ s₀.unit.base v144 := by
              apply wr_keeps
              apply wr64_keeps
              apply inc_keeps
              with_reducible assumption
            clear_value v144
            apply pgEvt_keeps
            apply emit_keeps
            with_reducible assumption
          · with_reducible assumption
        · with_reducible assumption
      clear_value v136
      apply logU_keeps
      with_reducible assumption
    · with_reducible assumption
  · with_reducible assumption

theorem lanternEnterOp_keeps {psleep : BitVec 8} {s : State} (h_s : StateKeeps κ s₀ s) :
    StateKeeps κ s₀ (lanternEnterOp psleep s) := by
  unfold lanternEnterOp
  extract_lets v147 v148
  have h149 : StateKeeps κ s₀ v147 := by
    apply onUnit_keeps
    · intro z150 h151
      apply uB_keeps
      · intro z152 h153
        extract_lets v154
        with_reducible apply base_mk_keeps
        with_reducible assumption
      · with_reducible assumption
    · with_reducible assumption
  clear_value v147
  have h155 : Keeps κ s₀.unit.base v148 := by
    exact StateKeeps.unit (by assumption)
  clear_value v148
  apply iteState_keeps
  · apply lanternWake_keeps
    apply onUnit_keeps
    · intro z156 h157
      apply uB_keeps
      · intro z158 h159
        extract_lets v160
        apply driveEvreq_keeps
        apply pgEvt_keeps
        apply inc_keeps
        with_reducible apply base_mk_keeps
        with_reducible assumption
      · with_reducible assumption
    · with_reducible assumption
  · with_reducible assumption

theorem lanternLeave_keeps {b : Base} (h_b : Keeps κ b₀ b) :
    Keeps κ b₀ (lanternLeave b) := by
  unfold lanternLeave
  extract_lets v161
  apply iteBase_keeps
  · apply driveEvreq_keeps
    apply emit_keeps
    with_reducible apply base_mk_keeps
    with_reducible assumption
  · with_reducible assumption

theorem lanternExitOp_keeps {psleep : BitVec 8} {b : Base} (h_b : Keeps κ b₀ b) :
    Keeps κ b₀ (lanternExitOp psleep b) := by
  unfold lanternExitOp
  extract_lets v162 v163
  have h166 : Keeps κ b₀ v163 := by
    dsimp only [v163]
    with_reducible apply base_mk_keeps
    with_reducible assumption
  clear_value v163
  apply iteBase_keeps
  · apply lanternLeave_keeps
    with_reducible assumption
  · with_reducible assumption

end Sys2Proof.Machine
end

