-- ==== Sys2Proof/Laws/KeepsPresence.lean ====
section
/-! SUPPORT. What the operations of Machine/Presence.lean keep. -/

namespace Sys2Proof.Machine

variable {κ : Bool} {s₀ : State} {b₀ : Base}

theorem sendDown_keeps {delay : Nat} {cls : Nat} {typ : BitVec 6} {hdr : BitVec 64} {payload : List (BitVec 64)} {s : State} (h_s : StateKeeps κ s₀ s) :
    StateKeeps κ s₀ (sendDown delay cls typ hdr payload s) := by
  unfold sendDown
  apply foldState_keeps
  · intro z0 z1 h2
    apply sendSeq_keeps
    with_reducible assumption
  · with_reducible assumption

theorem distOpen_keeps {expiry : BitVec 64} {window : Nat} {received : Bool} {b : Base} (h_b : Keeps κ b₀ b) :
    Keeps κ b₀ (distOpen expiry window received b) := by
  unfold distOpen
  extract_lets v3 v4
  have h7 : Keeps κ b₀ v3 := by
    dsimp only [v3]
    with_reducible apply base_mk_keeps
    with_reducible assumption
  clear_value v3
  have h10 : Keeps κ b₀ v4 := by
    apply wr64_keeps
    apply wrF_keeps
    apply wrB_keeps
    with_reducible assumption
  clear_value v4
  apply pgEvt_keeps
  with_reducible assumption

theorem distClose_keeps {s : State} (h_s : StateKeeps κ s₀ s) :
    StateKeeps κ s₀ (distClose s) := by
  unfold distClose
  extract_lets v11
  have h12 : StateKeeps κ s₀ v11 := by
    apply onDist_keeps
    · intro z13 h14
      apply dB_keeps
      · intro z15 h16
        apply pgEvt_keeps
        with_reducible apply base_mk_keeps
        with_reducible assumption
      · with_reducible assumption
    · with_reducible assumption
  clear_value v11
  apply logD_keeps
  with_reducible assumption

theorem pressOp_keeps {s : State} (h_s : StateKeeps κ s₀ s) :
    StateKeeps κ s₀ (pressOp s) := by
  unfold pressOp
  extract_lets v17 v18 v19 v20 v21 v22
  have h23 : StateKeeps κ s₀ v17 := by
    apply onDist_keeps
    · intro z24 h25
      apply dB_keeps
      · intro z26 h27
        apply occur_keeps
        apply inc_keeps
        with_reducible assumption
      · with_reducible assumption
    · with_reducible assumption
  clear_value v17
  have h28 : DistKeeps κ s₀ v18 := by
    exact StateKeeps.dist (by assumption)
  clear_value v18
  have h29 : StateKeeps κ s₀ v21 := by
    apply onDist_keeps
    · intro z30 h31
      apply dB_keeps
      · intro z32 h33
        apply distOpen_keeps
        apply wrF_keeps
        with_reducible assumption
      · with_reducible assumption
    · with_reducible assumption
  clear_value v21
  have h34 : StateKeeps κ s₀ v22 := by
    apply logD_keeps
    with_reducible assumption
  clear_value v22
  apply iteState_keeps
  · apply logD_keeps
    with_reducible assumption
  · apply iteState_keeps
    · apply logD_keeps
      with_reducible assumption
    · apply sendDown_keeps
      with_reducible assumption

theorem closeOp_keeps {s : State} (h_s : StateKeeps κ s₀ s) :
    StateKeeps κ s₀ (closeOp s) := by
  unfold closeOp
  extract_lets v35 v36 v37
  have h38 : StateKeeps κ s₀ v37 := by
    apply distClose_keeps
    apply onDist_keeps
    · intro z39 h40
      apply dB_keeps
      · intro z41 h42
        apply wr64_keeps
        with_reducible assumption
      · with_reducible assumption
    · with_reducible assumption
  clear_value v37
  apply iteState_keeps
  · apply sendDown_keeps
    with_reducible assumption
  · with_reducible assumption

theorem distPresence_keeps {n : Nat} {expiry : BitVec 48} {window : Nat} {s : State} (h_s : StateKeeps κ s₀ s) :
    StateKeeps κ s₀ (distPresence n expiry window s) := by
  unfold distPresence
  extract_lets v43 v44 v45
  have h46 : DistKeeps κ s₀ v43 := by
    exact StateKeeps.dist (by assumption)
  clear_value v43
  have h47 : StateKeeps κ s₀ v45 := by
    apply iteState_keeps
    · apply iteState_keeps
      · apply distClose_keeps
        apply onDist_keeps
        · intro z48 h49
          apply dB_keeps
          · intro z50 h51
            apply wr64_keeps
            with_reducible assumption
          · with_reducible assumption
        · with_reducible assumption
      · apply onDist_keeps
        · intro z52 h53
          apply dB_keeps
          · intro z54 h55
            with_reducible apply base_mk_keeps
            with_reducible assumption
          · with_reducible assumption
        · with_reducible assumption
    · apply onDist_keeps
      · intro z56 h57
        apply dB_keeps
        · intro z58 h59
          apply distOpen_keeps
          with_reducible assumption
        · with_reducible assumption
      · with_reducible assumption
  clear_value v45
  apply iteState_keeps
  · apply sendDown_keeps
    with_reducible assumption
  · with_reducible assumption

theorem unitPresence_keeps {dm : Dom} {expiry : BitVec 48} {window : Nat} {s : State} (h_s : StateKeeps κ s₀ s) :
    StateKeeps κ s₀ (unitPresence dm expiry window s) := by
  unfold unitPresence
  extract_lets v60 v61 v62
  have h63 : Keeps κ s₀.unit.base v60 := by
    exact StateKeeps.unit (by assumption)
  clear_value v60
  have h64 : StateKeeps κ s₀ v62 := by
    apply onUnit_keeps
    · intro z65 h66
      apply uB_keeps
      · intro z67 h68
        apply pgEvt_keeps
        apply wr64_keeps
        apply wrF_keeps
        apply wrB_keeps
        with_reducible apply base_mk_keeps
        with_reducible assumption
      · with_reducible assumption
    · with_reducible assumption
  clear_value v62
  apply iteState_keeps
  · apply logU_keeps
    with_reducible assumption
  · apply iteState_keeps
    · apply iteState_keeps
      · apply onUnit_keeps
        · intro z69 h70
          apply uB_keeps
          · intro z71 h72
            split
            · apply pgEvt_keeps
              apply wr64_keeps
              with_reducible apply base_mk_keeps
              with_reducible assumption
            · dsimp only [id]
              apply wr64_keeps
              with_reducible apply base_mk_keeps
              with_reducible assumption
          · with_reducible assumption
        · with_reducible assumption
      · apply logU_keeps
        with_reducible assumption
    · with_reducible assumption

theorem expireOp_keeps {part : Part} {s : State} (h_s : StateKeeps κ s₀ s) :
    StateKeeps κ s₀ (expireOp part s) := by
  unfold expireOp
  extract_lets v73
  split
  · apply iteState_keeps
    · split
      · apply onUnit_keeps
        · intro z76 h77
          apply uB_keeps
          · intro z78 h79
            apply pgEvt_keeps
            with_reducible apply base_mk_keeps
            with_reducible assumption
          · with_reducible assumption
        · with_reducible assumption
      · apply distClose_keeps
        with_reducible assumption
    · with_reducible assumption
  · with_reducible assumption

theorem unitCloseWindow_keeps {b : Base} (h_b : Keeps κ b₀ b) :
    Keeps κ b₀ (unitCloseWindow b) := by
  unfold unitCloseWindow
  apply iteBase_keeps
  · apply pgEvt_keeps
    apply wr64_keeps
    with_reducible apply base_mk_keeps
    with_reducible assumption
  · with_reducible apply base_mk_keeps
    with_reducible assumption

theorem lockOp_keeps {part : Part} {low : Bool} {s : State} (h_s : StateKeeps κ s₀ s) :
    StateKeeps κ s₀ (lockOp part low s) := by
  unfold lockOp
  extract_lets v80
  have h81 : StateKeeps κ s₀ v80 := by
    apply iteState_keeps
    · split
      · apply onUnit_keeps
        · intro z82 h83
          apply uB_keeps
          · intro z84 h85
            apply unitCloseWindow_keeps
            with_reducible assumption
          · with_reducible assumption
        · with_reducible assumption
      · apply closeOp_keeps
        with_reducible assumption
    · with_reducible assumption
  clear_value v80
  apply onPartBase_keeps
  · intro z86 z87 h88
    with_reducible apply base_mk_keeps
    with_reducible assumption
  · with_reducible assumption

theorem sealOp_keeps {s : State} (h_s : StateKeeps κ s₀ s) :
    StateKeeps κ s₀ (sealOp s) := by
  unfold sealOp
  extract_lets v89
  have h90 : StateKeeps κ s₀ v89 := by
    apply onDist_keeps
    · intro z91 h92
      apply dB_keeps
      · intro z93 h94
        apply pgEvt_keeps
        apply wr64_keeps
        apply wrB_keeps
        apply wrB_keeps
        with_reducible assumption
      · with_reducible assumption
    · with_reducible assumption
  clear_value v89
  apply iteState_keeps
  · with_reducible assumption
  · apply logD_keeps
    with_reducible assumption

end Sys2Proof.Machine
end

