-- ==== Sys2Proof/Laws/KeepsRope.lean ====
section
/-! SUPPORT. What the operations of Machine/Rope.lean keep. -/

namespace Sys2Proof.Machine

variable {κ : Bool} {s₀ : State} {b₀ : Base}

theorem ropeSend_keeps {delay : Nat} {kind : Nat} {gallery : Nat} {epochLo : Nat} {gseq : Nat} {payload : List (BitVec 64)} {s : State} (h_s : StateKeeps κ s₀ s) :
    StateKeeps κ s₀ (ropeSend delay kind gallery epochLo gseq payload s) := by
  unfold ropeSend
  extract_lets v0 v1 v2 v3 v4
  have h5 : DistKeeps κ s₀ v0 := by
    exact StateKeeps.dist (by assumption)
  clear_value v0
  have h6 : StateKeeps κ s₀ v4 := by
    apply onDist_keeps
    · intro z7 h8
      extract_lets v9
      apply dB_keeps
      · intro z10 h11
        apply inc_keeps
        with_reducible assumption
      · with_reducible apply dist_mk_keeps
        change DistKeeps κ s₀ _
        with_reducible assumption
    · with_reducible assumption
  clear_value v4
  apply iteState_keeps
  · apply sendSeq_keeps
    with_reducible assumption
  · with_reducible assumption

theorem ropeResend_keeps {l : List RopeRec} {s : State} (h_s : StateKeeps κ s₀ s) :
    StateKeeps κ s₀ (ropeResend l s) := by
  unfold ropeResend
  apply foldState_keeps
  · intro z12 z13 h14
    apply sendSeq_keeps
    with_reducible assumption
  · with_reducible assumption

theorem ropeSettle_keeps {old : LinkPort} {s : State} (h_s : StateKeeps κ s₀ s) :
    StateKeeps κ s₀ (ropeSettle old s) := by
  unfold ropeSettle
  extract_lets v15 v16 v17 v18 v19
  have h20 : DistKeeps κ s₀ v15 := by
    exact StateKeeps.dist (by assumption)
  clear_value v15
  have h21 : StateKeeps κ s₀ v18 := by
    apply onDist_keeps
    · intro z22 h23
      extract_lets v24
      apply dB_keeps
      · intro z25 h26
        apply pgEvt_keeps
        with_reducible assumption
      · with_reducible apply dist_mk_keeps
        change DistKeeps κ s₀ _
        with_reducible assumption
    · with_reducible assumption
  clear_value v18
  have h27 : StateKeeps κ s₀ v19 := by
    apply onPort_keeps
    with_reducible assumption
  clear_value v19
  apply iteState_keeps
  · apply ropeResend_keeps
    with_reducible assumption
  · with_reducible assumption

theorem ropeAdmit_keeps {wasUp : Bool} {s : State} (h_s : StateKeeps κ s₀ s) :
    StateKeeps κ s₀ (ropeAdmit wasUp s) := by
  unfold ropeAdmit
  extract_lets v28
  have h29 : StateKeeps κ s₀ v28 := by
    apply onDist_keeps
    · intro z30 h31
      apply dB_keeps
      · intro z32 h33
        apply wrB_keeps
        with_reducible assumption
      · with_reducible assumption
    · with_reducible assumption
  clear_value v28
  apply iteState_keeps
  · apply ropeSettle_keeps
    with_reducible assumption
  · apply onDist_keeps
    · intro z34 h35
      extract_lets v36
      with_reducible apply dist_mk_keeps
      change DistKeeps κ s₀ _
      with_reducible assumption
    · with_reducible assumption

theorem ropeLeave_keeps {old : LinkPort} {s : State} (h_s : StateKeeps κ s₀ s) :
    StateKeeps κ s₀ (ropeLeave old s) := by
  unfold ropeLeave
  apply iteState_keeps
  · apply ropeSettle_keeps
    with_reducible assumption
  · apply onDist_keeps
    · intro z37 h38
      extract_lets v39
      apply dB_keeps
      · intro z40 h41
        apply pgEvt_keeps
        with_reducible assumption
      · with_reducible apply dist_mk_keeps
        change DistKeeps κ s₀ _
        with_reducible assumption
    · with_reducible assumption

theorem rxRope_keeps {rx : Rx} {rseq : BitVec 16} {hdr : BitVec 64} {payload : List (BitVec 64)} {s : State} (h_s : StateKeeps κ s₀ s) :
    StateKeeps κ s₀ (rxRope rx rseq hdr payload s).2 := by
  unfold rxRope
  extract_lets v42
  have h43 : StateKeeps κ s₀ v42.2 := by
    apply rxSeq_keeps
    with_reducible assumption
  clear_value v42
  split
  · dsimp only
    apply onDist_keeps
    · intro z44 h45
      apply dB_keeps
      · intro z46 h47
        apply inc_keeps
        with_reducible assumption
      · with_reducible apply dist_mk_keeps
        change DistKeeps κ s₀ _
        with_reducible assumption
    · with_reducible assumption
  · with_reducible assumption

end Sys2Proof.Machine
end

