-- ==== Sys2Proof/Laws/KeepsServo.lean ====
section
/-! SUPPORT. What the operations of Machine/Servo.lean keep. -/

namespace Sys2Proof.Machine

variable {κ : Bool} {s₀ : State} {b₀ : Base}

theorem onServo_keeps {p0 : Part} {f : Servo → Servo} {s : State} (h_s : StateKeeps κ s₀ s) :
    StateKeeps κ s₀ (onServo p0 f s) := by
  unfold onServo
  split
  · extract_lets v0
    have h1 : UnitKeeps κ s₀ v0 := by
      exact StateKeeps.unit (by assumption)
    clear_value v0
    refine state_of_keeps ?_ ?_ ?_ <;> dsimp only
    · exact StateKeeps.queue (by assumption)
    · with_reducible apply unit_mk_keeps
      change UnitKeeps κ s₀ _
      with_reducible assumption
    · exact StateKeeps.dist (by assumption)
  · extract_lets v2
    have h3 : DistKeeps κ s₀ v2 := by
      exact StateKeeps.dist (by assumption)
    clear_value v2
    refine state_of_keeps ?_ ?_ ?_ <;> dsimp only
    · exact StateKeeps.queue (by assumption)
    · exact StateKeeps.unit (by assumption)
    · with_reducible apply dist_mk_keeps
      change DistKeeps κ s₀ _
      with_reducible assumption

theorem setSts_keeps {p0 : Part} {i : Nat} {v : Bool} {s : State} (h_s : StateKeeps κ s₀ s) :
    StateKeeps κ s₀ (setSts p0 i v s) := by
  unfold setSts
  apply onPartBase_keeps
  · intro z4 z5 h6
    apply wrB_keeps
    with_reducible assumption
  · with_reducible assumption

theorem logS_keeps {p0 : Part} {hu : Hap} {hd : Hap} {port : Nat} {obj : Nat} {aux : Nat} {s : State} (h_s : StateKeeps κ s₀ s) :
    StateKeeps κ s₀ (logS p0 hu hd port obj aux s) := by
  unfold logS
  split
  · apply logU_keeps
    with_reducible assumption
  · apply logD_keeps
    with_reducible assumption

theorem srvEvt_keeps {p0 : Part} {i : Nat} {s : State} (h_s : StateKeeps κ s₀ s) :
    StateKeeps κ s₀ (srvEvt p0 i s) := by
  unfold srvEvt
  apply onPartBase_keeps
  · intro z7 z8 h9
    apply pgEvt_keeps
    with_reducible assumption
  · with_reducible assumption

theorem applyWord_keeps {p0 : Part} {w : Int} {s : State} (h_s : StateKeeps κ s₀ s) :
    StateKeeps κ s₀ (applyWord p0 w s) := by
  unfold applyWord
  extract_lets v10 v11 v12 v13
  have h14 : StateKeeps κ s₀ v12 := by
    apply onPartBase_keeps
    · intro z15 z16 h17
      apply wr_keeps
      with_reducible assumption
    · with_reducible assumption
  clear_value v12
  have h18 : StateKeeps κ s₀ v13 := by
    apply onServo_keeps
    with_reducible assumption
  clear_value v13
  apply iteState_keeps
  · apply logS_keeps
    with_reducible assumption
  · with_reducible assumption

theorem loopBw_keeps {p0 : Part} {src : Bool} {s : State} (h_s : StateKeeps κ s₀ s) :
    StateKeeps κ s₀ (loopBw p0 src s).2 := by
  unfold loopBw
  extract_lets v19 v20 v21 v22
  have h23 : StateKeeps κ s₀ v22 := by
    apply onPartBase_keeps
    · intro z24 z25 h26
      apply wrF_keeps
      apply wrB_keeps
      with_reducible assumption
    · with_reducible assumption
  clear_value v22
  with_reducible assumption

theorem setLock_keeps {p0 : Part} {v : Bool} {s : State} (h_s : StateKeeps κ s₀ s) :
    StateKeeps κ s₀ (setLock p0 v s) := by
  unfold setLock
  apply iteState_keeps
  · with_reducible assumption
  · apply srvEvt_keeps
    apply setSts_keeps
    with_reducible assumption

theorem leaveHoldover_keeps {p0 : Part} {s : State} (h_s : StateKeeps κ s₀ s) :
    StateKeeps κ s₀ (leaveHoldover p0 s) := by
  unfold leaveHoldover
  extract_lets v27 v28 v29 v30 v31
  have h32 : StateKeeps κ s₀ v29 := by
    apply setSts_keeps
    apply onPartBase_keeps
    · intro z33 z34 h35
      apply wr_keeps
      with_reducible assumption
    · with_reducible assumption
  clear_value v29
  have h36 : StateKeeps κ s₀ v31 := by
    apply logS_keeps
    apply srvEvt_keeps
    with_reducible assumption
  clear_value v31
  apply iteState_keeps
  · apply onServo_keeps
    with_reducible assumption
  · with_reducible assumption

theorem unmute_keeps {s : State} (h_s : StateKeeps κ s₀ s) :
    StateKeeps κ s₀ (unmute s) := by
  unfold unmute
  extract_lets v37 v38
  have h39 : StateKeeps κ s₀ v37 := by
    apply onDist_keeps
    · intro z40 h41
      apply dB_keeps
      · intro z42 h43
        apply pgEvt_keeps
        apply wrB_keeps
        apply wrB_keeps
        with_reducible assumption
      · with_reducible assumption
    · with_reducible assumption
  clear_value v37
  have h44 : StateKeeps κ s₀ v38 := by
    apply logD_keeps
    with_reducible assumption
  clear_value v38
  apply iteState_keeps
  · apply iteState_keeps
    · apply sendReport_keeps
      with_reducible assumption
    · with_reducible assumption
  · with_reducible assumption

theorem judgeLock_keeps {p0 : Part} {e : Int} {s : State} (h_s : StateKeeps κ s₀ s) :
    StateKeeps κ s₀ (judgeLock p0 e s) := by
  unfold judgeLock
  extract_lets v45 v46 v47 v48 v49 v50 v51 v52 v53
  have h54 : StateKeeps κ s₀ v48 := by
    apply onServo_keeps
    with_reducible assumption
  clear_value v48
  have h55 : StateKeeps κ s₀ v49 := by
    apply setLock_keeps
    with_reducible assumption
  clear_value v49
  have h56 : StateKeeps κ s₀ v50 := by
    apply onServo_keeps
    with_reducible assumption
  clear_value v50
  have h57 : StateKeeps κ s₀ v52 := by
    apply onServo_keeps
    with_reducible assumption
  clear_value v52
  have h58 : StateKeeps κ s₀ v53 := by
    apply leaveHoldover_keeps
    apply setLock_keeps
    apply onServo_keeps
    with_reducible assumption
  clear_value v53
  apply iteState_keeps
  · apply iteState_keeps
    · apply logS_keeps
      with_reducible assumption
    · with_reducible assumption
  · apply iteState_keeps
    · split
      · with_reducible assumption
      · apply unmute_keeps
        with_reducible assumption
    · with_reducible assumption

theorem stopRebase_keeps {p0 : Part} {s : State} (h_s : StateKeeps κ s₀ s) :
    StateKeeps κ s₀ (stopRebase p0 s) := by
  unfold stopRebase
  split
  · apply iteState_keeps
    · apply srvEvt_keeps
      apply setSts_keeps
      with_reducible assumption
    · with_reducible assumption
  · with_reducible assumption

theorem holdWord_keeps {p0 : Part} {s : State} (h_s : StateKeeps κ s₀ s) :
    StateKeeps κ s₀ (holdWord p0 s) := by
  unfold holdWord
  extract_lets v59 v60 v61 v62
  have h63 : StateKeeps κ s₀ v61 := by
    apply iteState_keeps
    · apply logS_keeps
      with_reducible assumption
    · with_reducible assumption
  clear_value v61
  have h64 : StateKeeps κ s₀ v62 := by
    apply iteState_keeps
    · with_reducible assumption
    · apply applyWord_keeps
      with_reducible assumption
  clear_value v62
  apply onServo_keeps
  apply onPartBase_keeps
  · intro z65 z66 h67
    apply wr_keeps
    with_reducible assumption
  · with_reducible assumption

theorem enterHoldover_keeps {p0 : Part} {s : State} (h_s : StateKeeps κ s₀ s) :
    StateKeeps κ s₀ (enterHoldover p0 s) := by
  unfold enterHoldover
  extract_lets v68 v69
  have h70 : StateKeeps κ s₀ v68 := by
    apply setSts_keeps
    apply stopRebase_keeps
    apply holdWord_keeps
    with_reducible assumption
  clear_value v68
  have h71 : StateKeeps κ s₀ v69 := by
    apply srvEvt_keeps
    apply setSts_keeps
    apply setLock_keeps
    with_reducible assumption
  clear_value v69
  apply iteState_keeps
  · with_reducible assumption
  · apply logS_keeps
    with_reducible assumption

theorem failActive_keeps {p0 : Part} {s : State} (h_s : StateKeeps κ s₀ s) :
    StateKeeps κ s₀ (failActive p0 s) := by
  unfold failActive
  extract_lets v72 v73 v74
  apply iteState_keeps
  · with_reducible assumption
  · split
    · apply iteState_keeps
      · with_reducible assumption
      · apply onServo_keeps
        with_reducible assumption
    · apply iteState_keeps
      · with_reducible assumption
      · apply iteState_keeps
        · apply setSts_keeps
          apply onServo_keeps
          apply stopRebase_keeps
          with_reducible assumption
        · apply enterHoldover_keeps
          apply onServo_keeps
          with_reducible assumption

theorem rejDrop_keeps {p0 : Part} {src : Bool} {s : State} (h_s : StateKeeps κ s₀ s) :
    StateKeeps κ s₀ (rejDrop p0 src s) := by
  unfold rejDrop
  apply onServo_keeps
  with_reducible assumption

theorem sourceFails_keeps {p0 : Part} {src : Bool} {s : State} (h_s : StateKeeps κ s₀ s) :
    StateKeeps κ s₀ (sourceFails p0 src s) := by
  unfold sourceFails
  extract_lets v75 v76
  have h77 : StateKeeps κ s₀ v75 := by
    apply rejDrop_keeps
    with_reducible assumption
  clear_value v75
  have h78 : StateKeeps κ s₀ v76 := by
    apply setSts_keeps
    apply onServo_keeps
    with_reducible assumption
  clear_value v76
  apply iteState_keeps
  · apply iteState_keeps
    · apply onServo_keeps
      with_reducible assumption
    · with_reducible assumption
  · apply iteState_keeps
    · apply failActive_keeps
      with_reducible assumption
    · split
      · apply iteState_keeps
        · apply enterHoldover_keeps
          with_reducible assumption
        · apply logS_keeps
          with_reducible assumption
      · with_reducible assumption

theorem commandSwitch_keeps {p0 : Part} {s : State} (h_s : StateKeeps κ s₀ s) :
    StateKeeps κ s₀ (commandSwitch p0 s) := by
  unfold commandSwitch
  extract_lets v79 v80 v81
  apply iteState_keeps
  · with_reducible assumption
  · apply iteState_keeps
    · apply setSts_keeps
      apply onServo_keeps
      apply stopRebase_keeps
      with_reducible assumption
    · apply logS_keeps
      with_reducible assumption

theorem steer_keeps {p0 : Part} {src : Bool} {e : Int} {s : State} (h_s : StateKeeps κ s₀ s) :
    StateKeeps κ s₀ (steer p0 src e s) := by
  unfold steer
  extract_lets v82 v83 v84 v85 v86 v87 v88 v89 v90 v91
  have h92 : StateKeeps κ s₀ v82.2 := by
    apply loopBw_keeps
    with_reducible assumption
  clear_value v82
  have h93 : StateKeeps κ s₀ v83 := by
    apply onPartBase_keeps
    · intro z94 z95 h96
      apply draw_keeps
      with_reducible assumption
    · with_reducible assumption
  clear_value v83
  apply iteState_keeps
  · with_reducible assumption
  · apply applyWord_keeps
    apply onServo_keeps
    with_reducible assumption

theorem noteWord_keeps {p0 : Part} {s : State} (h_s : StateKeeps κ s₀ s) :
    StateKeeps κ s₀ (noteWord p0 s) := by
  unfold noteWord
  extract_lets v97
  apply iteState_keeps
  · apply onServo_keeps
    with_reducible assumption
  · with_reducible assumption

theorem sample_keeps {p0 : Part} {src : Bool} {theta : Int} {s : State} (h_s : StateKeeps κ s₀ s) :
    StateKeeps κ s₀ (sample p0 src theta s) := by
  unfold sample
  extract_lets v98 v99 v100 v101 v102 v103 v104 v105 v106 v107 v108
  have h111 : StateKeeps κ s₀ v100 := by
    apply onServo_keeps
    with_reducible assumption
  clear_value v100
  have h112 : StateKeeps κ s₀ v103 := by
    apply onServo_keeps
    apply onPartBase_keeps
    · intro z113 z114 h115
      apply inc_keeps
      with_reducible assumption
    · with_reducible assumption
  clear_value v103
  have h116 : StateKeeps κ s₀ v104 := by
    apply logS_keeps
    apply onServo_keeps
    with_reducible assumption
  clear_value v104
  have h117 : StateKeeps κ s₀ v105 := by
    apply onServo_keeps
    with_reducible assumption
  clear_value v105
  have h118 : StateKeeps κ s₀ v106 := by
    apply onPartBase_keeps
    · intro z119 z120 h121
      apply wr_keeps
      with_reducible assumption
    · with_reducible assumption
  clear_value v106
  have h122 : StateKeeps κ s₀ v107 := by
    apply steer_keeps
    with_reducible assumption
  clear_value v107
  have h123 : StateKeeps κ s₀ v108 := by
    apply onPort_keeps
    with_reducible assumption
  clear_value v108
  apply iteState_keeps
  · apply iteState_keeps
    · apply sourceFails_keeps
      with_reducible assumption
    · with_reducible assumption
  · apply judgeLock_keeps
    apply noteWord_keeps
    with_reducible assumption

theorem updateDiff_keeps {p0 : Part} {s : State} (h_s : StateKeeps κ s₀ s) :
    StateKeeps κ s₀ (updateDiff p0 s) := by
  unfold updateDiff
  extract_lets v124 v125 v126 v127 v128 v129 v130 v131 v132 v133 v134
  have h135 : StateKeeps κ s₀ v132 := by
    apply onServo_keeps
    with_reducible assumption
  clear_value v132
  have h136 : StateKeeps κ s₀ v133 := by
    apply onPartBase_keeps
    · intro z137 z138 h139
      apply wr64_keeps
      apply draw_keeps
      with_reducible assumption
    · with_reducible assumption
  clear_value v133
  have h140 : StateKeeps κ s₀ v134 := by
    apply iteState_keeps
    · apply logS_keeps
      with_reducible assumption
    · with_reducible assumption
  clear_value v134
  apply iteState_keeps
  · apply iteState_keeps
    · apply srvEvt_keeps
      apply setSts_keeps
      with_reducible assumption
    · with_reducible assumption
  · with_reducible assumption

theorem restartDiff_keeps {p0 : Part} {s : State} (h_s : StateKeeps κ s₀ s) :
    StateKeeps κ s₀ (restartDiff p0 s) := by
  unfold restartDiff
  apply setSts_keeps
  apply onServo_keeps
  with_reducible assumption

theorem doHandover_keeps {p0 : Part} {s : State} (h_s : StateKeeps κ s₀ s) :
    StateKeeps κ s₀ (doHandover p0 s) := by
  unfold doHandover
  split
  · extract_lets v141 v142 v143 v144 v145 v146 v147 v148 v149 v150 v151 v152
    have h155 : StateKeeps κ s₀ v146 := by
      apply onPartBase_keeps
      · intro z156 z157 h158
        split
        · apply wr_keeps
          with_reducible assumption
        · apply wr_keeps
          with_reducible assumption
      · with_reducible assumption
    clear_value v146
    have h159 : StateKeeps κ s₀ v147 := by
      apply setSts_keeps
      apply setSts_keeps
      apply stopRebase_keeps
      with_reducible assumption
    clear_value v147
    have h160 : StateKeeps κ s₀ v148 := by
      apply onServo_keeps
      with_reducible assumption
    clear_value v148
    have h161 : StateKeeps κ s₀ v149 := by
      dsimp only [v149]
      split
      · with_reducible assumption
      · apply onPort_keeps
        with_reducible assumption
    clear_value v149
    have h162 : StateKeeps κ s₀ v150 := by
      apply srvEvt_keeps
      apply onPartBase_keeps
      · intro z163 z164 h165
        apply inc_keeps
        with_reducible assumption
      · with_reducible assumption
    clear_value v150
    have h166 : StateKeeps κ s₀ v152 := by
      dsimp only [v152]
      split
      · apply logU_keeps
        with_reducible assumption
      · apply logD_keeps
        with_reducible assumption
    clear_value v152
    apply iteState_keeps
    · apply sample_keeps
      with_reducible assumption
    · with_reducible assumption
  · with_reducible assumption

theorem handoverLate_keeps {p0 : Part} {s : State} (h_s : StateKeeps κ s₀ s) :
    StateKeeps κ s₀ (handoverLate p0 s) := by
  unfold handoverLate
  split
  · extract_lets v167
    apply iteState_keeps
    · apply enterHoldover_keeps
      with_reducible assumption
    · with_reducible assumption
  · with_reducible assumption

theorem rejoin_keeps {p0 : Part} {src : Bool} {theta : Int} {s : State} (h_s : StateKeeps κ s₀ s) :
    StateKeeps κ s₀ (rejoin p0 src theta s) := by
  unfold rejoin
  extract_lets v168 v169 v170 v171 v172 v173 v174 v175 v176
  have h177 : StateKeeps κ s₀ v172 := by
    apply onServo_keeps
    with_reducible assumption
  clear_value v172
  have h178 : StateKeeps κ s₀ v175 := by
    apply setSts_keeps
    with_reducible assumption
  clear_value v175
  have h179 : StateKeeps κ s₀ v176 := by
    apply onServo_keeps
    with_reducible assumption
  clear_value v176
  apply iteState_keeps
  · apply sample_keeps
    with_reducible assumption
  · with_reducible assumption

theorem exchange_keeps {p0 : Part} {src : Bool} {theta : Int} {s : State} (h_s : StateKeeps κ s₀ s) :
    StateKeeps κ s₀ (exchange p0 src theta s) := by
  unfold exchange
  extract_lets v180 v181
  have h182 : StateKeeps κ s₀ v180 := by
    apply onServo_keeps
    with_reducible assumption
  clear_value v180
  have h183 : StateKeeps κ s₀ v181 := by
    apply updateDiff_keeps
    with_reducible assumption
  clear_value v181
  apply iteState_keeps
  · apply rejDrop_keeps
    with_reducible assumption
  · apply iteState_keeps
    · apply iteState_keeps
      · apply iteState_keeps
        · apply sample_keeps
          with_reducible assumption
        · with_reducible assumption
      · apply rejoin_keeps
        with_reducible assumption
    · split
      · apply iteState_keeps
        · apply onServo_keeps
          with_reducible assumption
        · apply iteState_keeps
          · with_reducible assumption
          · apply iteState_keeps
            · apply sample_keeps
              with_reducible assumption
            · with_reducible assumption
      · apply iteState_keeps
        · apply sample_keeps
          with_reducible assumption
        · with_reducible assumption

theorem starved_keeps {p0 : Part} {s : State} (h_s : StateKeeps κ s₀ s) :
    StateKeeps κ s₀ (starved p0 s) := by
  unfold starved
  extract_lets v184 v185 v186
  apply iteState_keeps
  · apply sourceFails_keeps
    with_reducible assumption
  · with_reducible assumption

theorem takeKept_keeps {p0 : Part} {q0 : PortRef} {s : State} (h_s : StateKeeps κ s₀ s) :
    StateKeeps κ s₀ (takeKept p0 q0 s) := by
  unfold takeKept
  split
  · split
    extract_lets v187
    have h188 : StateKeeps κ s₀ v187 := by
      apply onPartBase_keeps
      · intro z189 z190 h191
        apply wr64_keeps
        with_reducible assumption
      · with_reducible assumption
    clear_value v187
    apply iteState_keeps
    · split
      · with_reducible assumption
      · apply onDist_keeps
        · intro z192 h193
          extract_lets v194
          apply dB_keeps
          · intro z195 h196
            apply pgEvt_keeps
            with_reducible assumption
          · with_reducible apply dist_mk_keeps
            change DistKeeps κ s₀ _
            with_reducible assumption
        · with_reducible assumption
    · with_reducible assumption
  · with_reducible assumption

theorem loadCounter_keeps {p0 : Part} {src : Bool} {ns48 : BitVec 48} {gen : BitVec 16} {frac : Nat} {s : State} (h_s : StateKeeps false s₀ s) :
    StateKeeps false s₀ (loadCounter p0 src ns48 gen frac s) := by
  unfold loadCounter
  extract_lets v197 v198 v199 v200 v201 v202 v203
  have h204 : StateKeeps false s₀ v201 := by
    apply onPartBase_keeps
    · intro z205 z206 h207
      with_reducible apply base_set_keeps
      with_reducible assumption
    · with_reducible assumption
  clear_value v201
  have h208 : StateKeeps false s₀ v202 := by
    dsimp only [v202]
    split
    · apply onUnit_keeps
      · intro z209 h210
        apply uB_keeps
        · intro z211 h212
          apply pgEvt_keeps
          apply wr64_keeps
          apply wr64_keeps
          apply wr_keeps
          with_reducible assumption
        · with_reducible assumption
      · with_reducible assumption
    · apply onDist_keeps
      · intro z213 h214
        apply dB_keeps
        · intro z215 h216
          apply pgEvt_keeps
          apply wrB_keeps
          apply wr_keeps
          with_reducible assumption
        · with_reducible assumption
      · with_reducible assumption
  clear_value v202
  have h217 : StateKeeps false s₀ v203 := by
    apply setSts_keeps
    apply onServo_keeps
    with_reducible assumption
  clear_value v203
  apply takeKept_keeps
  apply takeKept_keeps
  with_reducible assumption

theorem setTck_keeps {st : Nat} {s : State} (h_s : StateKeeps κ s₀ s) :
    StateKeeps κ s₀ (setTck st s) := by
  unfold setTck
  apply iteState_keeps
  · with_reducible assumption
  · apply onUnit_keeps
    · intro z218 h219
      extract_lets v220
      have h221 : UnitKeeps κ s₀ v220 := by
        apply uB_keeps
        · intro z222 h223
          apply pgEvt_keeps
          apply wr64_keeps
          apply wrF_keeps
          with_reducible assumption
        · with_reducible assumption
      clear_value v220
      with_reducible apply unit_mk_keeps
      change UnitKeeps κ s₀ _
      with_reducible assumption
    · with_reducible assumption

theorem chooseActive_keeps {s : State} (h_s : StateKeeps κ s₀ s) :
    StateKeeps κ s₀ (chooseActive s) := by
  unfold chooseActive
  extract_lets v224 v225 v226
  apply setSts_keeps
  with_reducible assumption

theorem unitFsm_keeps {s : State} (h_s : StateKeeps κ s₀ s) :
    StateKeeps κ s₀ (unitFsm s) := by
  unfold unitFsm
  extract_lets v227 v228 v229 v230 v231
  have h232 : UnitKeeps κ s₀ v227 := by
    exact StateKeeps.unit (by assumption)
  clear_value v227
  apply iteState_keeps
  · with_reducible assumption
  · apply iteState_keeps
    · apply iteState_keeps
      · apply setTck_keeps
        with_reducible assumption
      · with_reducible assumption
    · apply iteState_keeps
      · apply setTck_keeps
        with_reducible assumption
      · apply iteState_keeps
        · apply setTck_keeps
          with_reducible assumption
        · apply iteState_keeps
          · apply iteState_keeps
            · apply chooseActive_keeps
              apply setTck_keeps
              with_reducible assumption
            · with_reducible assumption
          · apply iteState_keeps
            · apply iteState_keeps
              · apply iteState_keeps
                · apply chooseActive_keeps
                  with_reducible assumption
                · apply setTck_keeps
                  with_reducible assumption
              · with_reducible assumption
            · apply iteState_keeps
              · apply setTck_keeps
                apply setSts_keeps
                apply setSts_keeps
                apply setLock_keeps
                apply stopRebase_keeps
                apply holdWord_keeps
                with_reducible assumption
              · apply iteState_keeps
                · apply setTck_keeps
                  with_reducible assumption
                · apply iteState_keeps
                  · apply setTck_keeps
                    with_reducible assumption
                  · apply iteState_keeps
                    · apply setTck_keeps
                      with_reducible assumption
                    · apply iteState_keeps
                      · apply setTck_keeps
                        with_reducible assumption
                      · with_reducible assumption

theorem rebaseOp_keeps {s : State} (h_s : StateKeeps κ s₀ s) :
    StateKeeps κ s₀ (rebaseOp s) := by
  unfold rebaseOp
  apply iteState_keeps
  · with_reducible assumption
  · apply setSts_keeps
    apply onServo_keeps
    with_reducible assumption

theorem rebaseStepOp_keeps {s : State} (h_s : StateKeeps κ s₀ s) :
    StateKeeps κ s₀ (rebaseStepOp s) := by
  unfold rebaseStepOp
  extract_lets v233 v234 v235 v236 v237
  have h238 : StateKeeps κ s₀ v237 := by
    apply onServo_keeps
    apply onUnit_keeps
    · intro z239 h240
      apply uB_keeps
      · intro z241 h242
        apply wr_keeps
        with_reducible assumption
      · with_reducible assumption
    · with_reducible assumption
  clear_value v237
  apply iteState_keeps
  · apply iteState_keeps
    · apply logU_keeps
      apply stopRebase_keeps
      with_reducible assumption
    · with_reducible assumption
  · with_reducible assumption

theorem modeWriteOp_keeps {man : Bool} {s : State} (h_s : StateKeeps κ s₀ s) :
    StateKeeps κ s₀ (modeWriteOp man s) := by
  unfold modeWriteOp
  extract_lets v243 v244 v245
  have h246 : StateKeeps κ s₀ v244 := by
    apply onUnit_keeps
    · intro z247 h248
      apply uB_keeps
      · intro z249 h250
        apply wrB_keeps
        with_reducible assumption
      · with_reducible assumption
    · with_reducible assumption
  clear_value v244
  have h251 : StateKeeps κ s₀ v245 := by
    apply setSts_keeps
    with_reducible assumption
  clear_value v245
  apply iteState_keeps
  · with_reducible assumption
  · apply iteState_keeps
    · apply applyWord_keeps
      with_reducible assumption
    · apply onServo_keeps
      with_reducible assumption

theorem holdAgeOp_keeps {s : State} (h_s : StateKeeps κ s₀ s) :
    StateKeeps κ s₀ (holdAgeOp s) := by
  unfold holdAgeOp
  apply iteState_keeps
  · apply logU_keeps
    apply onServo_keeps
    with_reducible assumption
  · with_reducible assumption

theorem acquireTimeoutOp_keeps {s : State} (h_s : StateKeeps κ s₀ s) :
    StateKeeps κ s₀ (acquireTimeoutOp s) := by
  unfold acquireTimeoutOp
  extract_lets v252
  have h253 : UnitKeeps κ s₀ v252 := by
    exact StateKeeps.unit (by assumption)
  clear_value v252
  apply iteState_keeps
  · apply logU_keeps
    apply onUnit_keeps
    · intro z254 h255
      with_reducible apply unit_mk_keeps
      change UnitKeeps κ s₀ _
      with_reducible assumption
    · with_reducible assumption
  · with_reducible assumption

end Sys2Proof.Machine
end

