-- ==== Sys2Proof/Laws/KeepsSemaphore.lean ====
section
/-! SUPPORT. What the operations of Machine/Semaphore.lean keep. -/

namespace Sys2Proof.Machine

variable {κ : Bool} {s₀ : State} {b₀ : Base}

theorem onSems_keeps {f : Sems → Sems} {u : UnitState} (h_u : UnitKeeps κ s₀ u) :
    UnitKeeps κ s₀ (onSems f u) := by
  unfold onSems
  with_reducible apply unit_mk_keeps
  change UnitKeeps κ s₀ _
  with_reducible assumption

theorem pushResp_keeps {kind : Nat} {dest : Nat} {tag : Nat} {status : Nat} {ops : Nat} {u : UnitState} (h_u : UnitKeeps κ s₀ u) :
    UnitKeeps κ s₀ (pushResp kind dest tag status ops u) := by
  unfold pushResp
  extract_lets v0
  apply iteUnit_keeps
  · apply uB_keeps
    · intro z1 h2
      apply inc_keeps
      with_reducible assumption
    · with_reducible assumption
  · apply iteUnit_keeps
    · apply onSems_keeps
      with_reducible assumption
    · apply onSems_keeps
      with_reducible assumption

theorem pushReserve_keeps {kind : Nat} {dest : Nat} {tag : Nat} {status : Nat} {ops : Nat} {u : UnitState} (h_u : UnitKeeps κ s₀ u) :
    UnitKeeps κ s₀ (pushReserve kind dest tag status ops u) := by
  unfold pushReserve
  apply iteUnit_keeps
  · apply uB_keeps
    · intro z3 h4
      apply inc_keeps
      with_reducible assumption
    · with_reducible assumption
  · apply onSems_keeps
    with_reducible assumption

theorem respDone_keeps {r : Req} {obj : Nat} {op : Nat} {value : Nat} {u : UnitState} (h_u : UnitKeeps κ s₀ u) :
    UnitKeeps κ s₀ (respDone r obj op value u) := by
  unfold respDone
  apply pushResp_keeps
  with_reducible assumption

theorem respAck_keeps {r : Req} {obj : Nat} {op : Nat} {value : Nat} {u : UnitState} (h_u : UnitKeeps κ s₀ u) :
    UnitKeeps κ s₀ (respAck r obj op value u) := by
  unfold respAck
  apply iteUnit_keeps
  · apply respDone_keeps
    with_reducible assumption
  · with_reducible assumption

theorem respError_keeps {r : Req} {status : Nat} {obj : Nat} {op : Nat} {cause : Nat} {u : UnitState} (h_u : UnitKeeps κ s₀ u) :
    UnitKeeps κ s₀ (respError r status obj op cause u) := by
  unfold respError
  apply pushResp_keeps
  with_reducible assumption

theorem dropStale_keeps {r : Req} {s : State} (h_s : StateKeeps κ s₀ s) :
    StateKeeps κ s₀ (dropStale r s) := by
  unfold dropStale
  extract_lets v5
  have h6 : StateKeeps κ s₀ v5 := by
    apply onUnit_keeps
    · intro z7 h8
      apply uB_keeps
      · intro z9 h10
        apply inc_keeps
        with_reducible assumption
      · with_reducible assumption
    · with_reducible assumption
  clear_value v5
  apply iteState_keeps
  · with_reducible assumption
  · apply logU_keeps
    apply onUnit_keeps
    · intro z11 h12
      apply onSems_keeps
      with_reducible assumption
    · with_reducible assumption

theorem request_keeps {r : Req} {op : Nat} {obj : Nat} {f : State → State} {s : State} (h_f : ∀  z, StateKeeps κ s₀ z → StateKeeps κ s₀ (f z)) (h_s : StateKeeps κ s₀ s) :
    StateKeeps κ s₀ (request r op obj f s) := by
  unfold request
  apply iteState_keeps
  · with_reducible assumption
  · apply iteState_keeps
    · apply dropStale_keeps
      with_reducible assumption
    · apply iteState_keeps
      · apply h_f
        with_reducible assumption
      · apply onUnit_keeps
        · intro z13 h14
          apply respError_keeps
          apply uB_keeps
          · intro z15 h16
            apply inc_keeps
            with_reducible assumption
          · with_reducible assumption
        · with_reducible assumption

theorem injTouch_keeps {mem : Nat} {key : Nat} {u : UnitState} (h_u : UnitKeeps κ s₀ u) :
    UnitKeeps κ s₀ (injTouch mem key u) := by
  unfold injTouch
  extract_lets v17 v18
  have h19 : UnitKeeps κ s₀ v18 := by
    dsimp only [v18]
    with_reducible apply unit_mk_keeps
    change UnitKeeps κ s₀ _
    with_reducible assumption
  clear_value v18
  apply iteUnit_keeps
  · apply iteUnit_keeps
    · apply uB_keeps
      · intro z20 h21
        apply inc_keeps
        with_reducible assumption
      · with_reducible assumption
    · with_reducible assumption
  · with_reducible assumption

theorem injWrite_keeps {mem : Nat} {key : Nat} {u : UnitState} (h_u : UnitKeeps κ s₀ u) :
    UnitKeeps κ s₀ (injWrite mem key u) := by
  unfold injWrite
  extract_lets v22 v23
  have h24 : UnitKeeps κ s₀ v22 := by
    apply injTouch_keeps
    with_reducible assumption
  clear_value v22
  split
  · apply iteUnit_keeps
    · apply uB_keeps
      · intro z25 h26
        apply wrB_keeps
        with_reducible assumption
      · with_reducible apply unit_mk_keeps
        change UnitKeeps κ s₀ _
        with_reducible assumption
    · with_reducible assumption
  · with_reducible assumption

theorem semPut_keeps {n : Nat} {w : SemWord} {u : UnitState} (h_u : UnitKeeps κ s₀ u) :
    UnitKeeps κ s₀ (semPut n w u) := by
  unfold semPut
  apply injWrite_keeps
  apply onSems_keeps
  with_reducible assumption

theorem watchNote_keeps {wasFull : Bool} {u : UnitState} (h_u : UnitKeeps κ s₀ u) :
    UnitKeeps κ s₀ (watchNote wasFull u) := by
  unfold watchNote
  extract_lets v27
  have h28 : UnitKeeps κ s₀ v27 := by
    apply iteUnit_keeps
    · apply uB_keeps
      · intro z29 h30
        apply wrF_keeps
        with_reducible assumption
      · with_reducible assumption
    · with_reducible assumption
  clear_value v27
  apply iteUnit_keeps
  · apply iteUnit_keeps
    · with_reducible assumption
    · apply uB_keeps
      · intro z31 h32
        apply pgEvt_keeps
        with_reducible assumption
      · with_reducible assumption
  · apply onSems_keeps
    with_reducible assumption

theorem watchRefused_keeps {obj : Nat} {s : State} (h_s : StateKeeps κ s₀ s) :
    StateKeeps κ s₀ (watchRefused obj s) := by
  unfold watchRefused
  apply iteState_keeps
  · with_reducible assumption
  · apply logU_keeps
    apply onUnit_keeps
    · intro z33 h34
      apply onSems_keeps
      with_reducible assumption
    · with_reducible assumption

theorem dropWaits_keeps {keep : Wait → Bool} {u : UnitState} (h_u : UnitKeeps κ s₀ u) :
    UnitKeeps κ s₀ (dropWaits keep u) := by
  unfold dropWaits
  apply watchNote_keeps
  apply onSems_keeps
  with_reducible assumption

theorem releaseWait_keeps {w : Wait} {status : Nat} {value : Nat} {u : UnitState} (h_u : UnitKeeps κ s₀ u) :
    UnitKeeps κ s₀ (releaseWait w status value u) := by
  unfold releaseWait
  apply pushResp_keeps
  with_reducible assumption

theorem touchWaits_keeps {n : Nat} {u : UnitState} (h_u : UnitKeeps κ s₀ u) :
    UnitKeeps κ s₀ (touchWaits n u) := by
  unfold touchWaits
  apply iteUnit_keeps
  · apply injTouch_keeps
    with_reducible assumption
  · with_reducible assumption

theorem walkTake_keeps {n : Nat} {u : UnitState} (h_u : UnitKeeps κ s₀ u) :
    UnitKeeps κ s₀ (walkTake n u) := by
  unfold walkTake
  extract_lets v35 v36 v37 v38 v39
  have h40 : UnitKeeps κ s₀ v35 := by
    apply touchWaits_keeps
    with_reducible assumption
  clear_value v35
  have h41 : UnitKeeps κ s₀ v38 := by
    apply semPut_keeps
    with_reducible assumption
  clear_value v38
  have h42 : UnitKeeps κ s₀ v39 := by
    apply watchNote_keeps
    apply onSems_keeps
    with_reducible assumption
  clear_value v39
  apply iteUnit_keeps
  · with_reducible assumption
  · apply foldUnit_keeps
    · intro z43 z44 h45
      apply releaseWait_keeps
      with_reducible assumption
    · with_reducible assumption

theorem walk_keeps {n : Nat} {u : UnitState} (h_u : UnitKeeps κ s₀ u) :
    UnitKeeps κ s₀ (walk n u) := by
  unfold walk
  extract_lets v46 v47 v48 v49 v50
  have h51 : UnitKeeps κ s₀ v46 := by
    apply touchWaits_keeps
    with_reducible assumption
  clear_value v46
  have h52 : UnitKeeps κ s₀ v49 := by
    apply dropWaits_keeps
    with_reducible assumption
  clear_value v49
  have h53 : UnitKeeps κ s₀ v50 := by
    apply walkTake_keeps
    with_reducible assumption
  clear_value v50
  apply foldUnit_keeps
  · intro z54 z55 h56
    apply releaseWait_keeps
    with_reducible assumption
  · with_reducible assumption

theorem sumpAdd_keeps {n : Nat} {src : Nat} {remote : Bool} {lo : Bool} {excess : Nat} {s : State} (h_s : StateKeeps κ s₀ s) :
    StateKeeps κ s₀ (sumpAdd n src remote lo excess s) := by
  unfold sumpAdd
  extract_lets v57 v58 v59 v60
  have h61 : UnitKeeps κ s₀ v57 := by
    exact StateKeeps.unit (by assumption)
  clear_value v57
  have h62 : StateKeeps κ s₀ v60 := by
    apply onUnit_keeps
    · intro z63 h64
      apply onSems_keeps
      with_reducible assumption
    · with_reducible assumption
  clear_value v60
  apply iteState_keeps
  · apply onUnit_keeps
    · intro z65 h66
      apply uB_keeps
      · intro z67 h68
        apply inc_keeps
        with_reducible assumption
      · with_reducible assumption
    · with_reducible assumption
  · apply iteState_keeps
    · apply logU_keeps
      apply onUnit_keeps
      · intro z69 h70
        apply uB_keeps
        · intro z71 h72
          apply occur_keeps
          apply pgEvt_keeps
          with_reducible assumption
        · with_reducible assumption
      · with_reducible assumption
    · with_reducible assumption

theorem semAddVal_keeps {n : Nat} {a : Nat} {src : Nat} {remote : Bool} {mgmt : Bool} {s : State} (h_s : StateKeeps κ s₀ s) :
    StateKeeps κ s₀ (semAddVal n a src remote mgmt s) := by
  unfold semAddVal
  extract_lets v73 v74 v75 v76 v77 v78
  have h79 : UnitKeeps κ s₀ v73 := by
    apply injTouch_keeps
    exact StateKeeps.unit (by assumption)
  clear_value v73
  have h80 : StateKeeps κ s₀ v78 := by
    dsimp only [v78]
    refine state_of_keeps ?_ ?_ ?_ <;> dsimp only
    · exact StateKeeps.queue (by assumption)
    · apply semPut_keeps
      with_reducible assumption
    · exact StateKeeps.dist (by assumption)
  clear_value v78
  apply iteState_keeps
  · apply sumpAdd_keeps
    with_reducible assumption
  · with_reducible assumption

theorem semSubVal_keeps {n : Nat} {a : Nat} {src : Nat} {remote : Bool} {mgmt : Bool} {s : State} (h_s : StateKeeps κ s₀ s) :
    StateKeeps κ s₀ (semSubVal n a src remote mgmt s) := by
  unfold semSubVal
  extract_lets v81 v82 v83 v84 v85
  have h86 : UnitKeeps κ s₀ v81 := by
    apply injTouch_keeps
    exact StateKeeps.unit (by assumption)
  clear_value v81
  have h87 : StateKeeps κ s₀ v85 := by
    dsimp only [v85]
    refine state_of_keeps ?_ ?_ ?_ <;> dsimp only
    · exact StateKeeps.queue (by assumption)
    · apply semPut_keeps
      with_reducible assumption
    · exact StateKeeps.dist (by assumption)
  clear_value v85
  apply iteState_keeps
  · apply sumpAdd_keeps
    with_reducible assumption
  · with_reducible assumption

theorem semSignal_keeps {n : Nat} {a : Nat} {src : Nat} {remote : Bool} {mgmt : Bool} {s : State} (h_s : StateKeeps κ s₀ s) :
    StateKeeps κ s₀ (semSignal n a src remote mgmt s) := by
  unfold semSignal
  apply onUnit_keeps
  · intro z88 h89
    apply walk_keeps
    with_reducible assumption
  · apply semAddVal_keeps
    with_reducible assumption

theorem onLiveSem_keeps {r : Req} {op : Nat} {n : Nat} {f : State → State} {s : State} (h_f : ∀  z, StateKeeps κ s₀ z → StateKeeps κ s₀ (f z)) (h_s : StateKeeps κ s₀ s) :
    StateKeeps κ s₀ (onLiveSem r op n f s) := by
  unfold onLiveSem
  apply iteState_keeps
  · apply onUnit_keeps
    · intro z90 h91
      apply respError_keeps
      with_reducible assumption
    · with_reducible assumption
  · apply h_f
    with_reducible assumption

theorem semWaitOp_keeps {r : Req} {take : Bool} {n : Nat} {tout : Nat} {cond : Nat} {s : State} (h_s : StateKeeps κ s₀ s) :
    StateKeeps κ s₀ (semWaitOp r take n tout cond s) := by
  unfold semWaitOp
  extract_lets v92 v93 v94
  have h95 : UnitKeeps κ s₀ v92 := by
    apply injTouch_keeps
    exact StateKeeps.unit (by assumption)
  clear_value v92
  apply iteState_keeps
  · refine state_of_keeps ?_ ?_ ?_ <;> dsimp only
    · exact StateKeeps.queue (by assumption)
    · apply releaseWait_keeps
      with_reducible assumption
    · exact StateKeeps.dist (by assumption)
  · apply iteState_keeps
    · refine state_of_keeps ?_ ?_ ?_ <;> dsimp only
      · exact StateKeeps.queue (by assumption)
      · apply releaseWait_keeps
        apply semPut_keeps
        with_reducible assumption
      · exact StateKeeps.dist (by assumption)
    · apply iteState_keeps
      · apply watchRefused_keeps
        refine state_of_keeps ?_ ?_ ?_ <;> dsimp only
        · exact StateKeeps.queue (by assumption)
        · apply respError_keeps
          with_reducible assumption
        · exact StateKeeps.dist (by assumption)
      · refine state_of_keeps ?_ ?_ ?_ <;> dsimp only
        · exact StateKeeps.queue (by assumption)
        · apply injWrite_keeps
          apply watchNote_keeps
          apply onSems_keeps
          with_reducible assumption
        · exact StateKeeps.dist (by assumption)

theorem cmpPut_keeps {c : Nat} {x : Option Cmp} {u : UnitState} (h_u : UnitKeeps κ s₀ u) :
    UnitKeeps κ s₀ (cmpPut c x u) := by
  unfold cmpPut
  apply watchNote_keeps
  apply onSems_keeps
  with_reducible assumption

theorem releaseCmp_keeps {c : Nat} {x : Cmp} {status : Nat} {data : Nat} {u : UnitState} (h_u : UnitKeeps κ s₀ u) :
    UnitKeeps κ s₀ (releaseCmp c x status data u) := by
  unfold releaseCmp
  apply pushResp_keeps
  apply cmpPut_keeps
  with_reducible assumption

theorem memWaitOp_keeps {r : Req} {addr : Nat} {n : Nat} {s : State} (h_s : StateKeeps κ s₀ s) :
    StateKeeps κ s₀ (memWaitOp r addr n s) := by
  unfold memWaitOp
  extract_lets v96 v97
  have h98 : UnitKeeps κ s₀ v96 := by
    exact StateKeeps.unit (by assumption)
  clear_value v96
  split
  · apply onUnit_keeps
    · intro z99 h100
      apply respDone_keeps
      apply cmpPut_keeps
      with_reducible assumption
    · with_reducible assumption
  · apply watchRefused_keeps
    apply onUnit_keeps
    · intro z101 h102
      apply respError_keeps
      with_reducible assumption
    · with_reducible assumption

theorem snoopOp_keeps {addr : Nat} {be : BitVec 8} {data : BitVec 64} {u : UnitState} (h_u : UnitKeeps κ s₀ u) :
    UnitKeeps κ s₀ (snoopOp addr be data u) := by
  unfold snoopOp
  apply foldUnit_keeps
  · intro z103 z104 h105
    split
    · apply iteUnit_keeps
      · apply iteUnit_keeps
        · apply iteUnit_keeps
          · apply releaseCmp_keeps
            with_reducible assumption
          · with_reducible assumption
        · apply iteUnit_keeps
          · with_reducible assumption
          · apply releaseCmp_keeps
            with_reducible assumption
      · with_reducible assumption
    · with_reducible assumption
  · with_reducible assumption

theorem logTimeout_keeps {obj : Nat} {cls : Nat} {core : Nat} {s : State} (h_s : StateKeeps κ s₀ s) :
    StateKeeps κ s₀ (logTimeout obj cls core s) := by
  unfold logTimeout
  apply logU_keeps
  apply onUnit_keeps
  · intro z106 h107
    apply uB_keeps
    · intro z108 h109
      apply pgEvt_keeps
      apply inc_keeps
      with_reducible assumption
    · with_reducible assumption
  · with_reducible assumption

theorem endWait_keeps {w : Wait} {rest : List Wait} {status : Nat} {u : UnitState} (h_u : UnitKeeps κ s₀ u) :
    UnitKeeps κ s₀ (endWait w rest status u) := by
  unfold endWait
  extract_lets v110 v111 v112 v113
  have h114 : UnitKeeps κ s₀ v111 := by
    apply touchWaits_keeps
    with_reducible assumption
  clear_value v111
  have h115 : UnitKeeps κ s₀ v112 := by
    apply watchNote_keeps
    apply onSems_keeps
    with_reducible assumption
  clear_value v112
  have h116 : UnitKeeps κ s₀ v113 := by
    apply releaseWait_keeps
    with_reducible assumption
  clear_value v113
  apply iteUnit_keeps
  · apply walkTake_keeps
    with_reducible assumption
  · with_reducible assumption

theorem watchTimeoutOp_keeps {cls : Nat} {obj : Nat} {core : Nat} {tag : Nat} {s : State} (h_s : StateKeeps κ s₀ s) :
    StateKeeps κ s₀ (watchTimeoutOp cls obj core tag s) := by
  unfold watchTimeoutOp
  apply iteState_keeps
  · split
    · apply logTimeout_keeps
      apply onUnit_keeps
      · intro z117 h118
        apply endWait_keeps
        with_reducible assumption
      · with_reducible assumption
    · with_reducible assumption
  · apply iteState_keeps
    · split
      · apply iteState_keeps
        · apply logTimeout_keeps
          apply onUnit_keeps
          · intro z119 h120
            apply releaseCmp_keeps
            with_reducible assumption
          · with_reducible assumption
        · with_reducible assumption
      · with_reducible assumption
    · with_reducible assumption

theorem cancelOp_keeps {r : Req} {obj : Nat} {cls : Nat} {core : Nat} {tag : Nat} {s : State} (h_s : StateKeeps κ s₀ s) :
    StateKeeps κ s₀ (cancelOp r obj cls core tag s) := by
  unfold cancelOp
  extract_lets v121
  have h122 : StateKeeps κ s₀ v121 := by
    apply onUnit_keeps
    · intro z123 h124
      apply respError_keeps
      with_reducible assumption
    · with_reducible assumption
  clear_value v121
  apply iteState_keeps
  · apply onUnit_keeps
    · intro z125 h126
      apply respError_keeps
      with_reducible assumption
    · with_reducible assumption
  · apply iteState_keeps
    · split
      · apply onUnit_keeps
        · intro z127 h128
          apply respAck_keeps
          apply endWait_keeps
          with_reducible assumption
        · with_reducible assumption
      · with_reducible assumption
    · apply iteState_keeps
      · split
        · apply iteState_keeps
          · apply onUnit_keeps
            · intro z129 h130
              apply respAck_keeps
              apply releaseCmp_keeps
              with_reducible assumption
            · with_reducible assumption
          · with_reducible assumption
        · with_reducible assumption
      · with_reducible assumption

theorem resume_keeps {k : Nat} {u : UnitState} (h_u : UnitKeeps κ s₀ u) :
    UnitKeeps κ s₀ (resume k u) := by
  induction k generalizing u with
  | zero => exact h_u
  | succ k ih =>
    unfold resume
    split
    · apply iteUnit_keeps
      · exact ih (onSems_keeps h_u)
      · exact h_u
    · exact h_u

theorem emitOp_keeps {ready : BitVec 16} {u : UnitState} (h_u : UnitKeeps κ s₀ u) :
    UnitKeeps κ s₀ (emitOp ready u) := by
  unfold emitOp
  split
  · extract_lets v131
    have h132 : UnitKeeps κ s₀ v131 := by
      apply uB_keeps
      · intro z133 h134
        apply emit_keeps
        with_reducible assumption
      · apply onSems_keeps
        with_reducible assumption
    clear_value v131
    apply resume_keeps
    with_reducible assumption
  · with_reducible assumption

theorem semCmd_keeps {f : Nat → State → State} {s : State} (h_f : ∀ y0 z, StateKeeps κ s₀ z → StateKeeps κ s₀ (f y0 z)) (h_s : StateKeeps κ s₀ s) :
    StateKeeps κ s₀ (semCmd f s) := by
  unfold semCmd
  extract_lets v135 v136
  have h137 : StateKeeps κ s₀ v136 := by
    apply h_f
    with_reducible assumption
  clear_value v136
  apply iteState_keeps
  · with_reducible assumption
  · apply iteState_keeps
    · apply onUnit_keeps
      · intro z138 h139
        apply uB_keeps
        · intro z140 h141
          apply wrB_keeps
          with_reducible assumption
        · with_reducible assumption
      · with_reducible assumption
    · apply onUnit_keeps
      · intro z142 h143
        apply uB_keeps
        · intro z144 h145
          apply wr_keeps
          with_reducible assumption
        · with_reducible assumption
      · with_reducible assumption

theorem loadView_keeps {u : UnitState} (h_u : UnitKeeps κ s₀ u) :
    UnitKeeps κ s₀ (loadView u) := by
  unfold loadView
  extract_lets v146 v147 v148 v149 v150 v151
  apply uB_keeps
  · intro z152 h153
    apply wr64_keeps
    apply wr_keeps
    apply wr_keeps
    apply wr_keeps
    apply wr_keeps
    apply wr_keeps
    apply wr_keeps
    apply wr_keeps
    with_reducible assumption
  · with_reducible assumption

theorem semAddCmd_keeps {s : State} (h_s : StateKeeps κ s₀ s) :
    StateKeeps κ s₀ (semAddCmd s) := by
  unfold semAddCmd
  apply semCmd_keeps
  · intro z154 z155 h156
    apply semSignal_keeps
    with_reducible assumption
  · with_reducible assumption

theorem semSubCmd_keeps {s : State} (h_s : StateKeeps κ s₀ s) :
    StateKeeps κ s₀ (semSubCmd s) := by
  unfold semSubCmd
  apply semCmd_keeps
  · intro z157 z158 h159
    apply semSubVal_keeps
    with_reducible assumption
  · with_reducible assumption

theorem semSetCmd_keeps {s : State} (h_s : StateKeeps κ s₀ s) :
    StateKeeps κ s₀ (semSetCmd s) := by
  unfold semSetCmd
  apply semCmd_keeps
  · intro z160 z161 h162
    apply onUnit_keeps
    · intro z163 h164
      extract_lets v165
      apply walk_keeps
      apply semPut_keeps
      apply injTouch_keeps
      with_reducible assumption
    · with_reducible assumption
  · with_reducible assumption

theorem semClrCmd_keeps {s : State} (h_s : StateKeeps κ s₀ s) :
    StateKeeps κ s₀ (semClrCmd s) := by
  unfold semClrCmd
  apply semCmd_keeps
  · intro z166 z167 h168
    apply onUnit_keeps
    · intro z169 h170
      extract_lets v171
      apply semPut_keeps
      apply injTouch_keeps
      with_reducible assumption
    · with_reducible assumption
  · with_reducible assumption

theorem semViewCmd_keeps {s : State} (h_s : StateKeeps κ s₀ s) :
    StateKeeps κ s₀ (semViewCmd s) := by
  unfold semViewCmd
  apply iteState_keeps
  · with_reducible assumption
  · apply onUnit_keeps
    · intro z172 h173
      apply loadView_keeps
      apply touchWaits_keeps
      apply injTouch_keeps
      with_reducible assumption
    · with_reducible assumption

theorem latch_keeps {ch : Nat} {a : Nat} {v : Word} {b : Base} (h_b : Keeps κ b₀ b) :
    Keeps κ b₀ (latch ch a v b) := by
  unfold latch
  with_reducible apply base_mk_keeps
  with_reducible assumption

theorem latchRec_keeps {ch : Nat} {a : Nat} {r : BitVec 128} {b : Base} (h_b : Keeps κ b₀ b) :
    Keeps κ b₀ (latchRec ch a r b) := by
  unfold latchRec
  apply latch_keeps
  apply latch_keeps
  apply latch_keeps
  with_reducible assumption

theorem sumpReadOp_keeps {ch : Nat} {u : UnitState} (h_u : UnitKeeps κ s₀ u) :
    UnitKeeps κ s₀ (sumpReadOp ch u).2 := by
  unfold sumpReadOp
  split
  · dsimp only
    apply uB_keeps
    · intro z174 h175
      apply latchRec_keeps
      with_reducible assumption
    · apply onSems_keeps
      with_reducible assumption
  · dsimp only
    apply uB_keeps
    · intro z176 h177
      apply latchRec_keeps
      with_reducible assumption
    · with_reducible assumption

theorem eccTouch_keeps {t : EccTarget} {u : UnitState} (h_u : UnitKeeps κ s₀ u) :
    UnitKeeps κ s₀ (eccTouch t u) := by
  unfold eccTouch
  split
  · apply injTouch_keeps
    with_reducible assumption
  · apply injTouch_keeps
    with_reducible assumption
  · with_reducible assumption

end Sys2Proof.Machine
end

