-- ==== Sys2Proof/Laws/KeepsDie.lean ====
section
/-! SUPPORT. What the operations of Machine/Die.lean keep. -/

namespace Sys2Proof.Machine

variable {κ : Bool} {s₀ : State} {b₀ : Base}

theorem tapPut_keeps {n : Nat} {t : Tap} {u : UnitState} (h_u : UnitKeeps κ s₀ u) :
    UnitKeeps κ s₀ (tapPut n t u) := by
  unfold tapPut
  with_reducible apply unit_mk_keeps
  change UnitKeeps κ s₀ _
  with_reducible assumption

theorem tapFail_keeps {n : Nat} {cause : BitVec 3} {u : UnitState} (h_u : UnitKeeps κ s₀ u) :
    UnitKeeps κ s₀ (tapFail n cause u) := by
  unfold tapFail
  extract_lets v0 v1 v2 v3
  have h4 : UnitKeeps κ s₀ v2 := by
    apply tapPut_keeps
    with_reducible assumption
  clear_value v2
  have h5 : UnitKeeps κ s₀ v3 := by
    apply uB_keeps
    · intro z6 h7
      apply pgEvt_keeps
      with_reducible assumption
    · with_reducible assumption
  clear_value v3
  apply iteUnit_keeps
  · apply iteUnit_keeps
    · apply uB_keeps
      · intro z8 h9
        apply inc_keeps
        with_reducible assumption
      · with_reducible assumption
    · with_reducible assumption
  · with_reducible assumption

theorem syncSendOp_keeps {u : UnitState} (h_u : UnitKeeps κ s₀ u) :
    UnitKeeps κ s₀ (syncSendOp u) := by
  unfold syncSendOp
  apply iteUnit_keeps
  · apply foldUnit_keeps
    · intro z10 z11 h12
      extract_lets v13
      apply iteUnit_keeps
      · apply uB_keeps
        · intro z14 h15
          apply emit_keeps
          with_reducible assumption
        · with_reducible assumption
      · with_reducible assumption
    · with_reducible assumption
  · with_reducible assumption

theorem tapLock_keeps {n : Nat} {ns : BitVec 64} {s : State} (h_s : StateKeeps κ s₀ s) :
    StateKeeps κ s₀ (tapLock n ns s) := by
  unfold tapLock
  extract_lets v16 v17
  have h18 : StateKeeps κ s₀ v17 := by
    apply onUnit_keeps
    · intro z19 h20
      apply tapPut_keeps
      apply iteUnit_keeps
      · apply uB_keeps
        · intro z21 h22
          apply pgEvt_keeps
          with_reducible assumption
        · with_reducible assumption
      · with_reducible assumption
    · with_reducible assumption
  clear_value v17
  apply iteState_keeps
  · apply logU_keeps
    with_reducible assumption
  · with_reducible assumption

theorem tapSyncOp_keeps {n : Nat} {ns : BitVec 64} {crc : BitVec 8} {s : State} (h_s : StateKeeps κ s₀ s) :
    StateKeeps κ s₀ (tapSyncOp n ns crc s) := by
  unfold tapSyncOp
  extract_lets v23 v24 v25 v26 v27 v28
  have h29 : UnitKeeps κ s₀ v23 := by
    exact StateKeeps.unit (by assumption)
  clear_value v23
  apply iteState_keeps
  · with_reducible assumption
  · apply iteState_keeps
    · apply iteState_keeps
      · apply onUnit_keeps
        · intro z30 h31
          apply tapPut_keeps
          with_reducible assumption
        · with_reducible assumption
      · apply iteState_keeps
        · apply logU_keeps
          apply onUnit_keeps
          · intro z32 h33
            apply tapFail_keeps
            with_reducible assumption
          · with_reducible assumption
        · apply onUnit_keeps
          · intro z34 h35
            apply tapPut_keeps
            with_reducible assumption
          · with_reducible assumption
    · apply iteState_keeps
      · with_reducible assumption
      · apply iteState_keeps
        · apply onUnit_keeps
          · intro z36 h37
            apply tapPut_keeps
            with_reducible assumption
          · with_reducible assumption
        · split
          · apply iteState_keeps
            · apply tapLock_keeps
              with_reducible assumption
            · apply onUnit_keeps
              · intro z38 h39
                apply tapPut_keeps
                with_reducible assumption
              · with_reducible assumption
          · apply onUnit_keeps
            · intro z40 h41
              apply tapPut_keeps
              with_reducible assumption
            · with_reducible assumption

theorem tapDelayOp_keeps {n : Nat} {loop : Nat} {s : State} (h_s : StateKeeps κ s₀ s) :
    StateKeeps κ s₀ (tapDelayOp n loop s) := by
  unfold tapDelayOp
  extract_lets v42 v43 v44 v45 v46 v47 v48 v49
  have h50 : UnitKeeps κ s₀ v42 := by
    exact StateKeeps.unit (by assumption)
  clear_value v42
  have h51 : StateKeeps κ s₀ v45 := by
    apply onUnit_keeps
    · intro z52 h53
      apply iteUnit_keeps
      · apply tapFail_keeps
        with_reducible assumption
      · with_reducible assumption
    · with_reducible assumption
  clear_value v45
  have h54 : StateKeeps κ s₀ v46 := by
    apply onUnit_keeps
    · intro z55 h56
      extract_lets v57
      apply tapPut_keeps
      with_reducible assumption
    · with_reducible assumption
  clear_value v46
  apply iteState_keeps
  · with_reducible assumption
  · apply iteState_keeps
    · apply iteState_keeps
      · with_reducible assumption
      · apply logU_keeps
        with_reducible assumption
    · apply onUnit_keeps
      · intro z58 h59
        apply tapPut_keeps
        apply iteUnit_keeps
        · with_reducible assumption
        · apply uB_keeps
          · intro z60 h61
            apply emit_keeps
            with_reducible assumption
          · with_reducible assumption
      · with_reducible assumption

theorem tapLostOp_keeps {n : Nat} {s : State} (h_s : StateKeeps κ s₀ s) :
    StateKeeps κ s₀ (tapLostOp n s) := by
  unfold tapLostOp
  apply iteState_keeps
  · apply logU_keeps
    apply onUnit_keeps
    · intro z62 h63
      apply tapFail_keeps
      with_reducible assumption
    · with_reducible assumption
  · with_reducible assumption

theorem tapResyncOp_keeps {n : Nat} {u : UnitState} (h_u : UnitKeeps κ s₀ u) :
    UnitKeeps κ s₀ (tapResyncOp n u) := by
  unfold tapResyncOp
  extract_lets v64
  apply iteUnit_keeps
  · apply tapPut_keeps
    with_reducible assumption
  · with_reducible assumption

theorem tapEnOp_keeps {n : Nat} {en : Bool} {u : UnitState} (h_u : UnitKeeps κ s₀ u) :
    UnitKeeps κ s₀ (tapEnOp n en u) := by
  unfold tapEnOp
  extract_lets v65 v66
  have h67 : UnitKeeps κ s₀ v66 := by
    apply uB_keeps
    · intro z68 h69
      apply wrB_keeps
      with_reducible assumption
    · with_reducible assumption
  clear_value v66
  apply iteUnit_keeps
  · apply iteUnit_keeps
    · apply tapFail_keeps
      with_reducible assumption
    · with_reducible assumption
  · with_reducible assumption

theorem tapsReload_keeps {u : UnitState} (h_u : UnitKeeps κ s₀ u) :
    UnitKeeps κ s₀ (tapsReload u) := by
  unfold tapsReload
  apply foldUnit_keeps
  · intro z70 z71 h72
    apply iteUnit_keeps
    · apply tapFail_keeps
      with_reducible assumption
    · with_reducible assumption
  · with_reducible assumption

theorem regionBack_keeps {n : Nat} {stopped : Bool} {c : RegionChg} {u : UnitState} (h_u : UnitKeeps κ s₀ u) :
    UnitKeeps κ s₀ (regionBack n stopped c u) := by
  unfold regionBack
  extract_lets v73
  apply uB_keeps
  · intro z74 h75
    apply wr64_keeps
    apply wr64_keeps
    with_reducible assumption
  · apply tapPut_keeps
    with_reducible assumption

theorem regionStopOp_keeps {n : Nat} {stopped : Bool} {u : UnitState} (h_u : UnitKeeps κ s₀ u) :
    UnitKeeps κ s₀ (regionStopOp n stopped u) := by
  unfold regionStopOp
  extract_lets v76 v77 v78 v79 v80
  have h81 : UnitKeeps κ s₀ v80 := by
    apply tapPut_keeps
    with_reducible assumption
  clear_value v80
  apply iteUnit_keeps
  · split
    · apply regionBack_keeps
      with_reducible assumption
    · apply iteUnit_keeps
      · apply uB_keeps
        · intro z82 h83
          apply pgEvt_keeps
          apply wr64_keeps
          with_reducible assumption
        · with_reducible assumption
      · apply uB_keeps
        · intro z84 h85
          apply pgEvt_keeps
          apply wr64_keeps
          with_reducible assumption
        · with_reducible assumption
  · with_reducible assumption

theorem tapReadOp_keeps {n : Nat} {port : Nat} {u : UnitState} (h_u : UnitKeeps κ s₀ u) :
    UnitKeeps κ s₀ (tapReadOp n port u) := by
  unfold tapReadOp
  extract_lets v86 v87 v88 v89 v90 v91
  have h92 : UnitKeeps κ s₀ v91 := by
    dsimp only [v91]
    with_reducible apply unit_mk_keeps
    change UnitKeeps κ s₀ _
    with_reducible assumption
  clear_value v91
  apply iteUnit_keeps
  · apply uB_keeps
    · intro z93 h94
      apply emit_keeps
      with_reducible assumption
    · with_reducible assumption
  · with_reducible assumption

theorem capChanPut_keeps {k : Nat} {c : CapChan} {u : UnitState} (h_u : UnitKeeps κ s₀ u) :
    UnitKeeps κ s₀ (capChanPut k c u) := by
  unfold capChanPut
  extract_lets v95
  with_reducible apply unit_mk_keeps
  change UnitKeeps κ s₀ _
  with_reducible assumption

theorem capEdge1_keeps {k : Nat} {kind : Nat} {idx : Nat} {fall : Bool} {frac : BitVec 6} {u : UnitState} (h_u : UnitKeeps κ s₀ u) :
    UnitKeeps κ s₀ (capEdge1 k kind idx fall frac u) := by
  unfold capEdge1
  extract_lets v96 v97 v98 v99 v100 v101
  have h102 : UnitKeeps κ s₀ v100 := by
    apply capChanPut_keeps
    with_reducible assumption
  clear_value v100
  apply iteUnit_keeps
  · apply uB_keeps
    · intro z103 h104
      apply incF_keeps
      with_reducible assumption
    · with_reducible assumption
  · apply iteUnit_keeps
    · with_reducible assumption
    · apply iteUnit_keeps
      · apply capChanPut_keeps
        apply uB_keeps
        · intro z105 h106
          apply inc_keeps
          with_reducible assumption
        · with_reducible assumption
      · with_reducible apply unit_mk_keeps
        change UnitKeeps κ s₀ _
        with_reducible assumption

theorem captureEdgeOp_keeps {kind : Nat} {idx : Nat} {fall : Bool} {frac : BitVec 6} {u : UnitState} (h_u : UnitKeeps κ s₀ u) :
    UnitKeeps κ s₀ (captureEdgeOp kind idx fall frac u) := by
  unfold captureEdgeOp
  apply foldUnit_keeps
  · intro z107 z108 h109
    apply iteUnit_keeps
    · apply capEdge1_keeps
      with_reducible assumption
    · with_reducible assumption
  · with_reducible assumption

theorem capMessage_keeps {bits : BitVec 64} {u : UnitState} (h_u : UnitKeeps κ s₀ u) :
    UnitKeeps κ s₀ (capMessage bits u) := by
  unfold capMessage
  extract_lets v110
  apply iteUnit_keeps
  · apply pushReserve_keeps
    with_reducible assumption
  · apply uB_keeps
    · intro z111 h112
      apply inc_keeps
      with_reducible assumption
    · with_reducible assumption

theorem capEnter1_keeps {r : CapRec} {s : State} (h_s : StateKeeps κ s₀ s) :
    StateKeeps κ s₀ (capEnter1 r s) := by
  unfold capEnter1
  extract_lets v113 v114 v115 v116 v117 v118 v119 v120
  have h121 : UnitKeeps κ s₀ v113 := by
    exact StateKeeps.unit (by assumption)
  clear_value v113
  have h122 : StateKeeps κ s₀ v119 := by
    apply onUnit_keeps
    · intro z123 h124
      apply iteUnit_keeps
      · apply capMessage_keeps
        with_reducible assumption
      · with_reducible assumption
    · with_reducible assumption
  clear_value v119
  have h125 : StateKeeps κ s₀ v120 := by
    apply onUnit_keeps
    · intro z126 h127
      apply capChanPut_keeps
      apply uB_keeps
      · intro z128 h129
        apply pgEvt_keeps
        apply inc_keeps
        with_reducible assumption
      · with_reducible assumption
    · with_reducible assumption
  clear_value v120
  apply iteState_keeps
  · apply iteState_keeps
    · with_reducible assumption
    · apply logU_keeps
      apply onUnit_keeps
      · intro z130 h131
        extract_lets v132
        with_reducible apply unit_mk_keeps
        change UnitKeeps κ s₀ _
        with_reducible assumption
      · with_reducible assumption
  · apply onUnit_keeps
    · intro z133 h134
      extract_lets v135 v136 v137
      have h138 : UnitKeeps κ s₀ v135 := by
        apply capChanPut_keeps
        with_reducible assumption
      clear_value v135
      have h139 : UnitKeeps κ s₀ v136 := by
        apply uB_keeps
        · intro z140 h141
          extract_lets v142
          have h143 : Keeps κ s₀.unit.base v142 := by
            apply inc_keeps
            apply iteBase_keeps
            · apply pgEvt_keeps
              with_reducible assumption
            · with_reducible assumption
          clear_value v142
          apply iteBase_keeps
          · apply occur_keeps
            with_reducible assumption
          · with_reducible assumption
        · with_reducible assumption
      clear_value v136
      with_reducible apply unit_mk_keeps
      change UnitKeeps κ s₀ _
      with_reducible assumption
    · with_reducible assumption

theorem capEnterOp_keeps {s : State} (h_s : StateKeeps κ s₀ s) :
    StateKeeps κ s₀ (capEnterOp s) := by
  unfold capEnterOp
  extract_lets v144 v145 v146
  have h147 : StateKeeps κ s₀ v146 := by
    apply onUnit_keeps
    · intro z148 h149
      extract_lets v150
      with_reducible apply unit_mk_keeps
      change UnitKeeps κ s₀ _
      with_reducible assumption
    · with_reducible assumption
  clear_value v146
  apply foldState_keeps
  · intro z151 z152 h153
    apply capEnter1_keeps
    with_reducible assumption
  · with_reducible assumption

theorem capReadOp_keeps {ch : Nat} {u : UnitState} (h_u : UnitKeeps κ s₀ u) :
    UnitKeeps κ s₀ (capReadOp ch u).2 := by
  unfold capReadOp
  split
  · extract_lets v154
    dsimp only
    apply uB_keeps
    · intro z155 h156
      apply latch_keeps
      with_reducible assumption
    · with_reducible apply unit_mk_keeps
      change UnitKeeps κ s₀ _
      with_reducible assumption
  · dsimp only
    apply uB_keeps
    · intro z157 h158
      apply latch_keeps
      with_reducible assumption
    · with_reducible assumption

theorem dripPut_keeps {k : Nat} {d : Drip} {u : UnitState} (h_u : UnitKeeps κ s₀ u) :
    UnitKeeps κ s₀ (dripPut k d u) := by
  unfold dripPut
  with_reducible apply unit_mk_keeps
  change UnitKeeps κ s₀ _
  with_reducible assumption

theorem dripPad_keeps {k : Nat} {high : Bool} {fine : BitVec 6} {u : UnitState} (h_u : UnitKeeps κ s₀ u) :
    UnitKeeps κ s₀ (dripPad k high fine u) := by
  unfold dripPad
  extract_lets v159
  apply iteUnit_keeps
  · with_reducible assumption
  · apply captureEdgeOp_keeps
    apply uB_keeps
    · intro z160 h161
      apply emit_keeps
      with_reducible assumption
    · apply dripPut_keeps
      with_reducible assumption

theorem dripDrive_keeps {k : Nat} {on : Bool} {fine : BitVec 6} {u : UnitState} (h_u : UnitKeeps κ s₀ u) :
    UnitKeeps κ s₀ (dripDrive k on fine u) := by
  unfold dripDrive
  apply dripPad_keeps
  with_reducible assumption

theorem dripIdlePad_keeps {k : Nat} {u : UnitState} (h_u : UnitKeeps κ s₀ u) :
    UnitKeeps κ s₀ (dripIdlePad k u) := by
  unfold dripIdlePad
  apply iteUnit_keeps
  · with_reducible assumption
  · apply dripDrive_keeps
    with_reducible assumption

theorem dripDone_keeps {k : Nat} {u : UnitState} (h_u : UnitKeeps κ s₀ u) :
    UnitKeeps κ s₀ (dripDone k u) := by
  unfold dripDone
  extract_lets v162 v163
  have h164 : UnitKeeps κ s₀ v163 := by
    apply dripPut_keeps
    with_reducible assumption
  clear_value v163
  apply uB_keeps
  · intro z165 h166
    extract_lets v167
    have h168 : Keeps κ s₀.unit.base v167 := by
      apply pgEvt_keeps
      with_reducible assumption
    clear_value v167
    apply iteBase_keeps
    · apply occur_keeps
      with_reducible assumption
    · with_reducible assumption
  · with_reducible assumption

theorem dripArmOp_keeps {k : Nat} {s : State} (h_s : StateKeeps κ s₀ s) :
    StateKeeps κ s₀ (dripArmOp k s).2 := by
  unfold dripArmOp
  extract_lets v169 v170 v171 v172 v173 v174
  have h175 : UnitKeeps κ s₀ v169 := by
    exact StateKeeps.unit (by assumption)
  clear_value v169
  have h176 : UnitKeeps κ s₀ v172 := by
    apply dripPut_keeps
    with_reducible assumption
  clear_value v172
  have h177 : UnitKeeps κ s₀ v173 := by
    apply uB_keeps
    · intro z178 h179
      apply inc_keeps
      apply wrF_keeps
      apply wr_keeps
      with_reducible assumption
    · with_reducible assumption
  clear_value v173
  have h180 : StateKeeps κ s₀ v174 := by
    apply onUnit_keeps
    · intro z181 h182
      apply uB_keeps
      · intro z183 h184
        apply pgEvt_keeps
        apply inc_keeps
        apply wrF_keeps
        with_reducible assumption
      · with_reducible assumption
    · with_reducible assumption
  clear_value v174
  split
  · with_reducible assumption
  · split
    · dsimp only
      refine state_of_keeps ?_ ?_ ?_ <;> dsimp only
      · exact StateKeeps.queue (by assumption)
      · apply iteUnit_keeps
        · apply dripDone_keeps
          with_reducible assumption
        · with_reducible assumption
      · exact StateKeeps.dist (by assumption)
    · dsimp only
      apply logU_keeps
      with_reducible assumption

theorem dripArmNow_keeps {k : Nat} {s : State} (h_s : StateKeeps κ s₀ s) :
    StateKeeps κ s₀ (dripArmNow k s) := by
  unfold dripArmNow
  extract_lets v185
  have h186 : StateKeeps κ s₀ v185.2 := by
    apply dripArmOp_keeps
    with_reducible assumption
  clear_value v185
  apply iteState_keeps
  · apply onUnit_keeps
    · intro z187 h188
      extract_lets v189
      apply dripPut_keeps
      with_reducible assumption
    · with_reducible assumption
  · with_reducible assumption

theorem dripRegArm_keeps {k : Nat} {s : State} (h_s : StateKeeps κ s₀ s) :
    StateKeeps κ s₀ (dripRegArm k s) := by
  unfold dripRegArm
  extract_lets v190 v191
  have h192 : UnitKeeps κ s₀ v190 := by
    exact StateKeeps.unit (by assumption)
  clear_value v190
  split
  · apply iteState_keeps
    · apply onUnit_keeps
      · intro z193 h194
        extract_lets v195 v196
        apply dripPut_keeps
        with_reducible apply unit_mk_keeps
        change UnitKeeps κ s₀ _
        with_reducible assumption
      · with_reducible assumption
    · apply dripArmNow_keeps
      with_reducible assumption
  · apply dripArmNow_keeps
    with_reducible assumption

theorem dripStopOp_keeps {k : Nat} {u : UnitState} (h_u : UnitKeeps κ s₀ u) :
    UnitKeeps κ s₀ (dripStopOp k u) := by
  unfold dripStopOp
  extract_lets v197
  apply iteUnit_keeps
  · apply dripPut_keeps
    with_reducible assumption
  · with_reducible assumption

theorem dripSettle1_keeps {k : Nat} {u : UnitState} (h_u : UnitKeeps κ s₀ u) :
    UnitKeeps κ s₀ (dripSettle1 k u) := by
  unfold dripSettle1
  extract_lets v198
  split
  · apply iteUnit_keeps
    · apply dripPut_keeps
      with_reducible assumption
    · with_reducible assumption
  · with_reducible assumption

theorem dripsTick_keeps {u : UnitState} (h_u : UnitKeeps κ s₀ u) :
    UnitKeeps κ s₀ (dripsTick u) := by
  unfold dripsTick
  apply foldUnit_keeps
  · intro z199 z200 h201
    apply dripSettle1_keeps
    with_reducible assumption
  · with_reducible assumption

theorem dripAfter_keeps {k : Nat} {u : UnitState} (h_u : UnitKeeps κ s₀ u) :
    UnitKeeps κ s₀ (dripAfter k u) := by
  unfold dripAfter
  extract_lets v202 v203 v204
  have h205 : UnitKeeps κ s₀ v204 := by
    apply dripPut_keeps
    with_reducible assumption
  clear_value v204
  apply iteUnit_keeps
  · apply dripPut_keeps
    with_reducible assumption
  · apply iteUnit_keeps
    · apply dripDone_keeps
      with_reducible assumption
    · apply iteUnit_keeps
      · apply dripDone_keeps
        with_reducible assumption
      · with_reducible assumption

theorem dripPulseOp_keeps {k : Nat} {s : State} (h_s : StateKeeps κ s₀ s) :
    StateKeeps κ s₀ (dripPulseOp k s) := by
  unfold dripPulseOp
  extract_lets v206 v207 v208 v209 v210
  have h211 : UnitKeeps κ s₀ v206 := by
    exact StateKeeps.unit (by assumption)
  clear_value v206
  have h212 : StateKeeps κ s₀ v210 := by
    apply onUnit_keeps
    · intro z213 h214
      apply uB_keeps
      · intro z215 h216
        apply inc_keeps
        with_reducible assumption
      · apply dripAfter_keeps
        apply dripPut_keeps
        with_reducible assumption
    · with_reducible assumption
  clear_value v210
  apply iteState_keeps
  · with_reducible assumption
  · apply iteState_keeps
    · apply iteState_keeps
      · with_reducible assumption
      · apply logU_keeps
        with_reducible assumption
    · apply onUnit_keeps
      · intro z217 h218
        extract_lets v219 v220
        have h221 : UnitKeeps κ s₀ v219 := by
          apply dripPut_keeps
          with_reducible assumption
        clear_value v219
        have h222 : UnitKeeps κ s₀ v220 := by
          apply dripDrive_keeps
          apply uB_keeps
          · intro z223 h224
            apply inc_keeps
            with_reducible assumption
          · with_reducible assumption
        clear_value v220
        apply iteUnit_keeps
        · apply uB_keeps
          · intro z225 h226
            apply occur_keeps
            with_reducible assumption
          · with_reducible assumption
        · with_reducible assumption
      · with_reducible assumption

theorem dripEndOp_keeps {k : Nat} {u : UnitState} (h_u : UnitKeeps κ s₀ u) :
    UnitKeeps κ s₀ (dripEndOp k u) := by
  unfold dripEndOp
  extract_lets v227
  apply iteUnit_keeps
  · apply dripAfter_keeps
    apply dripDrive_keeps
    apply dripPut_keeps
    with_reducible assumption
  · with_reducible assumption

theorem dripsReload_keeps {s : State} (h_s : StateKeeps κ s₀ s) :
    StateKeeps κ s₀ (dripsReload s) := by
  unfold dripsReload
  apply foldState_keeps
  · intro z228 z229 h230
    apply logU_keeps
    apply onUnit_keeps
    · intro z231 h232
      extract_lets v233
      have h234 : UnitKeeps κ s₀ v233 := by
        apply dripDrive_keeps
        with_reducible assumption
      clear_value v233
      apply dripPut_keeps
      with_reducible assumption
    · with_reducible assumption
  · with_reducible assumption

theorem capsReload_keeps {u : UnitState} (h_u : UnitKeeps κ s₀ u) :
    UnitKeeps κ s₀ (capsReload u) := by
  unfold capsReload
  apply foldUnit_keeps
  · intro z235 z236 h237
    extract_lets v238
    apply capChanPut_keeps
    with_reducible assumption
  · with_reducible assumption

theorem dripsLimit_keeps {s : State} (h_s : StateKeeps κ s₀ s) :
    StateKeeps κ s₀ (dripsLimit s) := by
  unfold dripsLimit
  apply foldState_keeps
  · intro z239 z240 h241
    apply iteState_keeps
    · apply logU_keeps
      apply onUnit_keeps
      · intro z242 h243
        apply dripStopOp_keeps
        with_reducible assumption
      · with_reducible assumption
    · with_reducible assumption
  · with_reducible assumption

end Sys2Proof.Machine
end

