-- ==== Sys2Proof/Laws/KeepsLaunch.lean ====
section
/-! SUPPORT. What the operations of Machine/Launch.lean keep. -/

namespace Sys2Proof.Machine

variable {κ : Bool} {s₀ : State} {b₀ : Base}

theorem sendArm_keeps {p0 : PortRef} {delay : Nat} {phase : Nat} {refused : Bool} {a : Arm} {s : State} (h_s : StateKeeps κ s₀ s) :
    StateKeeps κ s₀ (sendArm p0 delay phase refused a s) := by
  unfold sendArm
  apply sendSeq_keeps
  with_reducible assumption

theorem sendAbort_keeps {p0 : PortRef} {delay : Nat} {a : Abort} {s : State} (h_s : StateKeeps κ s₀ s) :
    StateKeeps κ s₀ (sendAbort p0 delay a s) := by
  unfold sendAbort
  apply sendSeq_keeps
  with_reducible assumption

theorem rxArm_keeps {rx : Rx} {ok : Bool} {phase : Nat} {refused : Bool} {a : Arm} {s : State} (h_s : StateKeeps κ s₀ s) :
    StateKeeps κ s₀ (rxArm rx ok phase refused a s).2 := by
  unfold rxArm
  apply rxSeq_keeps
  with_reducible assumption

theorem onLaunch_keeps {f : Launch → Launch} {u : UnitState} (h_u : UnitKeeps κ s₀ u) :
    UnitKeeps κ s₀ (onLaunch f u) := by
  unfold onLaunch
  with_reducible apply unit_mk_keeps
  change UnitKeeps κ s₀ _
  with_reducible assumption

theorem slotPut_keeps {i : Nat} {x : Option Slot} {u : UnitState} (h_u : UnitKeeps κ s₀ u) :
    UnitKeeps κ s₀ (slotPut i x u) := by
  unfold slotPut
  apply onLaunch_keeps
  with_reducible assumption

theorem origNote_keeps {g : Nat} {lid : Nat} {st : Nat} {go : Bool} {reason : Nat} {u : UnitState} (h_u : UnitKeeps κ s₀ u) :
    UnitKeeps κ s₀ (origNote g lid st go reason u) := by
  unfold origNote
  apply iteUnit_keeps
  · apply uB_keeps
    · intro z0 h1
      apply wrF_keeps
      apply wrB_keeps
      apply wrF_keeps
      with_reducible assumption
    · with_reducible assumption
  · with_reducible assumption

theorem freeOrigin_keeps {g : Nat} {lid : Nat} {go : Bool} {reason : Nat} {u : UnitState} (h_u : UnitKeeps κ s₀ u) :
    UnitKeeps κ s₀ (freeOrigin g lid go reason u) := by
  unfold freeOrigin
  split
  · apply origNote_keeps
    apply slotPut_keeps
    with_reducible assumption
  · with_reducible assumption

theorem pushRec_keeps {r : BitVec 64} {status : Nat} {s : State} (h_s : StateKeeps κ s₀ s) :
    StateKeeps κ s₀ (pushRec r status s) := by
  unfold pushRec
  extract_lets v2 v3
  have h4 : UnitKeeps κ s₀ v2 := by
    exact StateKeeps.unit (by assumption)
  clear_value v2
  have h5 : StateKeeps κ s₀ v3 := by
    apply onUnit_keeps
    · intro z6 h7
      apply uB_keeps
      · intro z8 h9
        apply inc_keeps
        with_reducible assumption
      · with_reducible assumption
    · with_reducible assumption
  clear_value v3
  apply iteState_keeps
  · apply iteState_keeps
    · with_reducible assumption
    · apply logU_keeps
      apply onUnit_keeps
      · intro z10 h11
        apply onLaunch_keeps
        with_reducible assumption
      · with_reducible assumption
  · apply onUnit_keeps
    · intro z12 h13
      apply uB_keeps
      · intro z14 h15
        extract_lets v16
        have h17 : Keeps κ s₀.unit.base v16 := by
          apply occur_keeps
          apply pgEvt_keeps
          with_reducible assumption
        clear_value v16
        apply iteBase_keeps
        · apply pgEvt_keeps
          with_reducible assumption
        · with_reducible assumption
      · apply onLaunch_keeps
        with_reducible assumption
    · with_reducible assumption

theorem recReadOp_keeps {ch : Nat} {u : UnitState} (h_u : UnitKeeps κ s₀ u) :
    UnitKeeps κ s₀ (recReadOp ch u).2 := by
  unfold recReadOp
  split
  · dsimp only
    apply uB_keeps
    · intro z18 h19
      apply latch_keeps
      with_reducible assumption
    · apply onLaunch_keeps
      with_reducible assumption
  · dsimp only
    apply uB_keeps
    · intro z20 h21
      apply latch_keeps
      with_reducible assumption
    · with_reducible assumption

theorem origStart_keeps {r : OrigReq} {s : State} (h_s : StateKeeps κ s₀ s) :
    StateKeeps κ s₀ (origStart r s).2 := by
  unfold origStart
  extract_lets v22 v23 v24 v25 v26 v27 v28
  have h29 : StateKeeps κ s₀ v23 := by
    apply onUnit_keeps
    · intro z30 h31
      apply uB_keeps
      · intro z32 h33
        apply wrF_keeps
        apply wrF_keeps
        with_reducible assumption
      · with_reducible assumption
    · with_reducible assumption
  clear_value v23
  have h34 : UnitKeeps κ s₀ v24 := by
    exact StateKeeps.unit (by assumption)
  clear_value v24
  have h35 : StateKeeps κ s₀ v28 := by
    apply onUnit_keeps
    · intro z36 h37
      apply uB_keeps
      · intro z38 h39
        apply wrF_keeps
        apply wr_keeps
        with_reducible assumption
      · apply onLaunch_keeps
        apply slotPut_keeps
        with_reducible assumption
    · with_reducible assumption
  clear_value v28
  split
  · dsimp only
    apply logU_keeps
    with_reducible assumption
  · dsimp only
    apply sendArm_keeps
    with_reducible assumption

theorem lchStartMsg_keeps {m : LchStart} {s : State} (h_s : StateKeeps κ s₀ s) :
    StateKeeps κ s₀ (lchStartMsg m s) := by
  unfold lchStartMsg
  extract_lets v40 v41
  have h42 : StateKeeps κ s₀ v41.2 := by
    apply origStart_keeps
    with_reducible assumption
  clear_value v41
  apply onUnit_keeps
  · intro z43 h44
    split
    · apply respDone_keeps
      with_reducible assumption
    · apply respError_keeps
      with_reducible assumption
  · with_reducible assumption

theorem reqTimeoutOp_keeps {g : Nat} {lid : Nat} {s : State} (h_s : StateKeeps κ s₀ s) :
    StateKeeps κ s₀ (reqTimeoutOp g lid s) := by
  unfold reqTimeoutOp
  split
  · apply iteState_keeps
    · apply logU_keeps
      apply onUnit_keeps
      · intro z45 h46
        apply origNote_keeps
        apply slotPut_keeps
        with_reducible assumption
      · with_reducible assumption
    · with_reducible assumption
  · with_reducible assumption

theorem sendCensus_keeps {a : Arm} {armed : Bool} {s : State} (h_s : StateKeeps κ s₀ s) :
    StateKeeps κ s₀ (sendCensus a armed s) := by
  unfold sendCensus
  extract_lets v47
  apply foldState_keeps
  · intro z48 z49 h50
    apply iteState_keeps
    · apply sendArm_keeps
      with_reducible assumption
    · with_reducible assumption
  · with_reducible assumption

theorem armOp_keeps {a : Arm} {s : State} (h_s : StateKeeps κ s₀ s) :
    StateKeeps κ s₀ (armOp a s) := by
  unfold armOp
  extract_lets v51 v52 v53 v54 v55 v56 v57 v58 v59 v60
  have h61 : UnitKeeps κ s₀ v51 := by
    exact StateKeeps.unit (by assumption)
  clear_value v51
  have h62 : StateKeeps κ s₀ v59 := by
    apply sendCensus_keeps
    with_reducible assumption
  clear_value v59
  have h63 : StateKeeps κ s₀ v60 := by
    apply logU_keeps
    with_reducible assumption
  clear_value v60
  apply iteState_keeps
  · apply sendCensus_keeps
    apply onUnit_keeps
    · intro z64 h65
      apply slotPut_keeps
      with_reducible assumption
    · with_reducible assumption
  · apply pushRec_keeps
    with_reducible assumption

theorem armBroadcastOp_keeps {a : Arm} {s : State} (h_s : StateKeeps κ s₀ s) :
    StateKeeps κ s₀ (armBroadcastOp a s) := by
  unfold armBroadcastOp
  extract_lets v66 v67 v68 v69 v70 v71
  have h72 : UnitKeeps κ s₀ v66 := by
    exact StateKeeps.unit (by assumption)
  clear_value v66
  have h73 : StateKeeps κ s₀ v70 := by
    apply onUnit_keeps
    · intro z74 h75
      apply onLaunch_keeps
      with_reducible assumption
    · with_reducible assumption
  clear_value v70
  have h76 : StateKeeps κ s₀ v71 := by
    dsimp only [v71]
    split
    · apply iteState_keeps
      · apply onUnit_keeps
        · intro z77 h78
          apply origNote_keeps
          apply slotPut_keeps
          with_reducible assumption
        · with_reducible assumption
      · with_reducible assumption
    · with_reducible assumption
  clear_value v71
  apply iteState_keeps
  · with_reducible assumption
  · apply iteState_keeps
    · apply armOp_keeps
      with_reducible assumption
    · with_reducible assumption

theorem missOp_keeps {i : Nat} {k : Slot} {reason : Nat} {s : State} (h_s : StateKeeps κ s₀ s) :
    StateKeeps κ s₀ (missOp i k reason s) := by
  unfold missOp
  extract_lets v79 v80 v81
  have h82 : StateKeeps κ s₀ v79 := by
    apply onUnit_keeps
    · intro z83 h84
      apply origNote_keeps
      apply slotPut_keeps
      with_reducible assumption
    · with_reducible assumption
  clear_value v79
  have h85 : StateKeeps κ s₀ v80 := by
    apply iteState_keeps
    · apply onUnit_keeps
      · intro z86 h87
        apply onLaunch_keeps
        with_reducible assumption
      · with_reducible assumption
    · with_reducible assumption
  clear_value v80
  have h88 : StateKeeps κ s₀ v81 := by
    apply pushRec_keeps
    with_reducible assumption
  clear_value v81
  apply logU_keeps
  with_reducible assumption

theorem guardOp_keeps {g : Nat} {lid : Nat} {s : State} (h_s : StateKeeps κ s₀ s) :
    StateKeeps κ s₀ (guardOp g lid s) := by
  unfold guardOp
  extract_lets v89
  have h90 : StateKeeps κ s₀ v89 := by
    dsimp only [v89]
    split
    · apply iteState_keeps
      · apply onUnit_keeps
        · intro z91 h92
          apply freeOrigin_keeps
          with_reducible assumption
        · with_reducible assumption
      · with_reducible assumption
    · with_reducible assumption
  clear_value v89
  split
  · apply iteState_keeps
    · apply missOp_keeps
      with_reducible assumption
    · with_reducible assumption
  · with_reducible assumption

theorem lateGo_keeps {g : Nat} {lid : Nat} {targetLo : Nat} {s : State} (h_s : StateKeeps κ s₀ s) :
    StateKeeps κ s₀ (lateGo g lid targetLo s) := by
  unfold lateGo
  split
  · apply sendReports_keeps
    apply onUnit_keeps
    · intro z93 h94
      apply onLaunch_keeps
      with_reducible assumption
    · with_reducible assumption
  · with_reducible assumption

theorem goOp_keeps {d : Dom} {m : Go} {s : State} (h_s : StateKeeps κ s₀ s) :
    StateKeeps κ s₀ (goOp d m s) := by
  unfold goOp
  extract_lets v95 v96 v97 v98
  have h99 : StateKeeps κ s₀ v97 := by
    apply onUnit_keeps
    · intro z100 h101
      apply freeOrigin_keeps
      with_reducible assumption
    · with_reducible assumption
  clear_value v97
  have h102 : StateKeeps κ s₀ v98 := by
    apply onUnit_keeps
    · intro z103 h104
      apply uB_keeps
      · intro z105 h106
        apply inc_keeps
        with_reducible assumption
      · with_reducible assumption
    · with_reducible assumption
  clear_value v98
  split
  · extract_lets v107
    split
    · with_reducible assumption
    · apply iteState_keeps
      · with_reducible assumption
      · apply iteState_keeps
        · apply lateGo_keeps
          apply missOp_keeps
          with_reducible assumption
        · apply onUnit_keeps
          · intro z108 h109
            apply origNote_keeps
            apply slotPut_keeps
            with_reducible assumption
          · with_reducible assumption
    · apply iteState_keeps
      · with_reducible assumption
      · with_reducible assumption
    · apply iteState_keeps
      · with_reducible assumption
      · with_reducible assumption
  · apply lateGo_keeps
    with_reducible assumption

theorem abortOp_keeps {g : Nat} {lid : Nat} {reason : Nat} {s : State} (h_s : StateKeeps κ s₀ s) :
    StateKeeps κ s₀ (abortOp g lid reason s) := by
  unfold abortOp
  extract_lets v110
  have h111 : StateKeeps κ s₀ v110 := by
    apply onUnit_keeps
    · intro z112 h113
      apply freeOrigin_keeps
      with_reducible assumption
    · with_reducible assumption
  clear_value v110
  split
  · split
    · with_reducible assumption
    · apply missOp_keeps
      with_reducible assumption
    · apply logU_keeps
      apply onUnit_keeps
      · intro z114 h115
        apply uB_keeps
        · intro z116 h117
          apply inc_keeps
          with_reducible assumption
        · with_reducible assumption
      · with_reducible assumption
    · apply logU_keeps
      apply onUnit_keeps
      · intro z118 h119
        apply uB_keeps
        · intro z120 h121
          apply inc_keeps
          with_reducible assumption
        · with_reducible assumption
      · with_reducible assumption
  · with_reducible assumption

theorem cancelLaunch_keeps {g : Nat} {lid : Nat} {s : State} (h_s : StateKeeps κ s₀ s) :
    StateKeeps κ s₀ (cancelLaunch g lid s).2 := by
  unfold cancelLaunch
  split
  · extract_lets v122 v123
    have h124 : StateKeeps κ s₀ v123 := by
      apply foldState_keeps
      · intro z125 z126 h127
        apply iteState_keeps
        · apply sendAbort_keeps
          with_reducible assumption
        · with_reducible assumption
      · with_reducible assumption
    clear_value v123
    split
    · dsimp only
      apply onUnit_keeps
      · intro z128 h129
        apply freeOrigin_keeps
        with_reducible assumption
      · apply missOp_keeps
        with_reducible assumption
    · with_reducible assumption
  · with_reducible assumption

theorem lchCancelMsg_keeps {m : LchCancel} {s : State} (h_s : StateKeeps κ s₀ s) :
    StateKeeps κ s₀ (lchCancelMsg m s) := by
  unfold lchCancelMsg
  extract_lets v130
  have h131 : StateKeeps κ s₀ v130.2 := by
    apply cancelLaunch_keeps
    with_reducible assumption
  clear_value v130
  apply onUnit_keeps
  · intro z132 h133
    split
    · apply respAck_keeps
      with_reducible assumption
    · apply respError_keeps
      with_reducible assumption
  · with_reducible assumption

theorem fireRegion_keeps {n : Nat} {s : State} (h_s : StateKeeps κ s₀ s) :
    StateKeeps κ s₀ (fireRegion n s) := by
  unfold fireRegion
  extract_lets v134 v135 v136 v137 v138
  have h139 : UnitKeeps κ s₀ v134 := by
    exact StateKeeps.unit (by assumption)
  clear_value v134
  have h140 : StateKeeps κ s₀ v138 := by
    apply onUnit_keeps
    · intro z141 h142
      apply uB_keeps
      · intro z143 h144
        apply emit_keeps
        with_reducible assumption
      · apply tapPut_keeps
        with_reducible assumption
    · with_reducible assumption
  clear_value v138
  apply iteState_keeps
  · with_reducible assumption
  · apply iteState_keeps
    · apply logU_keeps
      with_reducible assumption
    · with_reducible assumption

theorem fireOp_keeps {isLocal : Bool} {g : Nat} {lid : Nat} {target : Nat} {tol : Nat} {mask : BitVec 64} {domb : Bool} {s : State} (h_s : StateKeeps κ s₀ s) :
    StateKeeps κ s₀ (fireOp isLocal g lid target tol mask domb s) := by
  unfold fireOp
  extract_lets v145 v146 v147 v148 v149 v150 v151
  have h152 : UnitKeeps κ s₀ v145 := by
    exact StateKeeps.unit (by assumption)
  clear_value v145
  have h153 : StateKeeps κ s₀ v149 := by
    apply foldState_keeps
    · intro z154 z155 h156
      apply fireRegion_keeps
      with_reducible assumption
    · with_reducible assumption
  clear_value v149
  have h157 : StateKeeps κ s₀ v150 := by
    apply foldState_keeps
    · intro z158 z159 h160
      apply logU_keeps
      with_reducible assumption
    · with_reducible assumption
  clear_value v150
  apply onUnit_keeps
  · intro z161 h162
    apply onLaunch_keeps
    with_reducible assumption
  · with_reducible assumption

theorem launchFireOp_keeps {s : State} (h_s : StateKeeps κ s₀ s) :
    StateKeeps κ s₀ (launchFireOp s) := by
  unfold launchFireOp
  apply foldState_keeps
  · intro z163 z164 h165
    extract_lets v166
    apply fireOp_keeps
    apply onUnit_keeps
    · intro z167 h168
      apply slotPut_keeps
      with_reducible assumption
    · with_reducible assumption
  · with_reducible assumption

theorem launchLines_keeps {u : UnitState} (h_u : UnitKeeps κ s₀ u) :
    UnitKeeps κ s₀ (launchLines u) := by
  unfold launchLines
  apply foldUnit_keeps
  · intro z169 z170 h171
    extract_lets v172 v173
    apply iteUnit_keeps
    · with_reducible assumption
    · apply uB_keeps
      · intro z174 h175
        apply emit_keeps
        with_reducible assumption
      · apply tapPut_keeps
        with_reducible assumption
  · with_reducible assumption

theorem finishFired_keeps {f : Fired} {s : State} (h_s : StateKeeps κ s₀ s) :
    StateKeeps κ s₀ (finishFired f s) := by
  unfold finishFired
  extract_lets v176 v177 v178
  have h179 : StateKeeps κ s₀ v177 := by
    apply iteState_keeps
    · with_reducible assumption
    · split
      · apply onUnit_keeps
        · intro z180 h181
          apply slotPut_keeps
          with_reducible assumption
        · with_reducible assumption
      · with_reducible assumption
  clear_value v177
  have h182 : StateKeeps κ s₀ v178 := by
    apply iteState_keeps
    · apply logU_keeps
      with_reducible assumption
    · apply iteState_keeps
      · apply logU_keeps
        with_reducible assumption
      · with_reducible assumption
  clear_value v178
  apply pushRec_keeps
  with_reducible assumption

theorem settleFired_keeps {f : UnitState → Fired → Fired × Bool} {s : State} (h_s : StateKeeps κ s₀ s) :
    StateKeeps κ s₀ (settleFired f s) := by
  unfold settleFired
  extract_lets v183 v184
  have h185 : StateKeeps κ s₀ v184 := by
    apply onUnit_keeps
    · intro z186 h187
      apply onLaunch_keeps
      with_reducible assumption
    · with_reducible assumption
  clear_value v184
  apply foldState_keeps
  · intro z188 z189 h190
    extract_lets v191
    apply iteState_keeps
    · apply finishFired_keeps
      with_reducible assumption
    · apply onUnit_keeps
      · intro z192 h193
        apply onLaunch_keeps
        with_reducible assumption
      · with_reducible assumption
  · with_reducible assumption

theorem judgeOp_keeps {s : State} (h_s : StateKeeps κ s₀ s) :
    StateKeeps κ s₀ (judgeOp s) := by
  unfold judgeOp
  apply settleFired_keeps
  with_reducible assumption

theorem deadlineOp_keeps {s : State} (h_s : StateKeeps κ s₀ s) :
    StateKeeps κ s₀ (deadlineOp s) := by
  unfold deadlineOp
  extract_lets v194 v195 v196
  have h197 : StateKeeps κ s₀ v196 := by
    apply onUnit_keeps
    · intro z198 h199
      apply onLaunch_keeps
      with_reducible assumption
    · with_reducible assumption
  clear_value v196
  apply foldState_keeps
  · intro z200 z201 h202
    apply logU_keeps
    with_reducible assumption
  · with_reducible assumption

theorem resumeLaunches_keeps {n : Nat} {s : State} (h_s : StateKeeps κ s₀ s) :
    StateKeeps κ s₀ (resumeLaunches n s) := by
  unfold resumeLaunches
  apply settleFired_keeps
  with_reducible assumption

theorem unstopLaunches_keeps {n : Nat} {s : State} (h_s : StateKeeps κ s₀ s) :
    StateKeeps κ s₀ (unstopLaunches n s) := by
  unfold unstopLaunches
  apply settleFired_keeps
  with_reducible assumption

theorem regionEdgeOp_keeps {n : Nat} {stopped : Bool} {s : State} (h_s : StateKeeps κ s₀ s) :
    StateKeeps κ s₀ (regionEdgeOp n stopped s) := by
  unfold regionEdgeOp
  extract_lets v203 v204 v205
  have h206 : StateKeeps κ s₀ v205 := by
    apply onUnit_keeps
    · intro z207 h208
      apply regionStopOp_keeps
      with_reducible assumption
    · with_reducible assumption
  clear_value v205
  apply iteState_keeps
  · apply iteState_keeps
    · apply unstopLaunches_keeps
      with_reducible assumption
    · apply resumeLaunches_keeps
      with_reducible assumption
  · with_reducible assumption

theorem launchReload_keeps {s : State} (h_s : StateKeeps κ s₀ s) :
    StateKeeps κ s₀ (launchReload s) := by
  unfold launchReload
  extract_lets v209 v210 v211 v212 v213
  have h214 : StateKeeps κ s₀ v212 := by
    apply onUnit_keeps
    · intro z215 h216
      apply onLaunch_keeps
      with_reducible assumption
    · with_reducible assumption
  clear_value v212
  have h217 : StateKeeps κ s₀ v213 := by
    apply foldState_keeps
    · intro z218 z219 h220
      split
      · extract_lets v221 v222
        apply pushRec_keeps
        apply onUnit_keeps
        · intro z223 h224
          apply origNote_keeps
          with_reducible assumption
        · with_reducible assumption
      · with_reducible assumption
    · with_reducible assumption
  clear_value v213
  apply foldState_keeps
  · intro z225 z226 h227
    apply pushRec_keeps
    with_reducible assumption
  · with_reducible assumption

theorem tokenRefill_keeps {u : UnitState} (h_u : UnitKeeps κ s₀ u) :
    UnitKeeps κ s₀ (tokenRefill u) := by
  unfold tokenRefill
  extract_lets v228 v229
  have h230 : UnitKeeps κ s₀ v229 := by
    apply onLaunch_keeps
    with_reducible assumption
  clear_value v229
  apply iteUnit_keeps
  · apply iteUnit_keeps
    · apply uB_keeps
      · intro z231 h232
        apply wrF_keeps
        with_reducible assumption
      · with_reducible assumption
    · with_reducible assumption
  · with_reducible assumption

theorem entShow_keeps {e : TtbEnt} {b : Base} (h_b : Keeps κ b₀ b) :
    Keeps κ b₀ (entShow e b) := by
  unfold entShow
  apply wr_keeps
  apply wr_keeps
  apply wr_keeps
  apply wr_keeps
  apply wr64_keeps
  with_reducible assumption

theorem ttbPut_keeps {i : Nat} {e : TtbEnt} {u : UnitState} (h_u : UnitKeeps κ s₀ u) :
    UnitKeeps κ s₀ (ttbPut i e u) := by
  unfold ttbPut
  extract_lets v233
  have h234 : UnitKeeps κ s₀ v233 := by
    apply injWrite_keeps
    apply onLaunch_keeps
    with_reducible assumption
  clear_value v233
  apply iteUnit_keeps
  · apply uB_keeps
    · intro z235 h236
      apply entShow_keeps
      with_reducible assumption
    · with_reducible assumption
  · with_reducible assumption

theorem insertOp_keeps {i : Nat} {e : TtbEnt} {s : State} (h_s : StateKeeps κ s₀ s) :
    StateKeeps κ s₀ (insertOp i e s).2 := by
  unfold insertOp
  extract_lets v237 v238
  have h239 : StateKeeps κ s₀ v238 := by
    apply iteState_keeps
    · apply onUnit_keeps
      · intro z240 h241
        extract_lets v242
        apply ttbPut_keeps
        with_reducible assumption
      · with_reducible assumption
    · with_reducible assumption
  clear_value v238
  split
  · dsimp only
    apply onUnit_keeps
    · intro z243 h244
      apply ttbPut_keeps
      with_reducible assumption
    · with_reducible assumption
  · dsimp only
    apply logU_keeps
    with_reducible assumption

theorem ttbInsertMsg_keeps {m : TtbInsert} {s : State} (h_s : StateKeeps κ s₀ s) :
    StateKeeps κ s₀ (ttbInsertMsg m s) := by
  unfold ttbInsertMsg
  extract_lets v245 v246
  have h247 : StateKeeps κ s₀ v246.2 := by
    apply insertOp_keeps
    with_reducible assumption
  clear_value v246
  apply onUnit_keeps
  · intro z248 h249
    split
    · apply respDone_keeps
      with_reducible assumption
    · apply respError_keeps
      with_reducible assumption
  · with_reducible assumption

theorem stageOp_keeps {u : UnitState} (h_u : UnitKeeps κ s₀ u) :
    UnitKeeps κ s₀ (stageOp u) := by
  unfold stageOp
  split
  · extract_lets v250
    apply ttbPut_keeps
    apply onLaunch_keeps
    with_reducible assumption
  · with_reducible assumption

theorem ttbCancelOp_keeps {u : UnitState} (h_u : UnitKeeps κ s₀ u) :
    UnitKeeps κ s₀ (ttbCancelOp u) := by
  unfold ttbCancelOp
  extract_lets v251 v252 v253
  apply iteUnit_keeps
  · apply ttbPut_keeps
    with_reducible assumption
  · with_reducible assumption

theorem ttbLoadOp_keeps {u : UnitState} (h_u : UnitKeeps κ s₀ u) :
    UnitKeeps κ s₀ (ttbLoadOp u) := by
  unfold ttbLoadOp
  apply uB_keeps
  · intro z254 h255
    apply entShow_keeps
    with_reducible assumption
  · with_reducible assumption

theorem ttbEntOp_keeps {u : UnitState} (h_u : UnitKeeps κ s₀ u) :
    UnitKeeps κ s₀ (ttbEntOp u) := by
  unfold ttbEntOp
  extract_lets v256 v257
  apply ttbPut_keeps
  with_reducible assumption

theorem ttbDrip_keeps {i : Nat} {k : Nat} {s : State} (h_s : StateKeeps κ s₀ s) :
    StateKeeps κ s₀ (ttbDrip i k s).2 := by
  unfold ttbDrip
  extract_lets v258
  have h259 : StateKeeps κ s₀ v258.2 := by
    apply dripArmOp_keeps
    with_reducible assumption
  clear_value v258
  split
  · with_reducible assumption
  · split
    · dsimp only
      apply onUnit_keeps
      · intro z260 h261
        apply dripPut_keeps
        with_reducible assumption
      · with_reducible assumption
    · with_reducible assumption

theorem ttbAction_keeps {i : Nat} {e : TtbEnt} {s : State} (h_s : StateKeeps κ s₀ s) :
    StateKeeps κ s₀ (ttbAction i e s).2 := by
  unfold ttbAction
  extract_lets v262 v263 v264 v265
  have h266 : UnitKeeps κ s₀ v262 := by
    exact StateKeeps.unit (by assumption)
  clear_value v262
  split
  · dsimp only
    apply fireOp_keeps
    with_reducible assumption
  · split
    · apply ttbDrip_keeps
      with_reducible assumption
    · split
      · dsimp only
        apply onUnit_keeps
        · intro z267 h268
          apply dripStopOp_keeps
          with_reducible assumption
        · with_reducible assumption
      · split
        · split
          · dsimp only
            apply onUnit_keeps
            · intro z269 h270
              apply uB_keeps
              · intro z271 h272
                apply wrB_keeps
                apply wr64_keeps
                apply wr64_keeps
                with_reducible assumption
              · with_reducible assumption
            · with_reducible assumption
          · with_reducible assumption
        · dsimp only
          apply iteState_keeps
          · apply onUnit_keeps
            · intro z273 h274
              apply uB_keeps
              · intro z275 h276
                apply occur_keeps
                with_reducible assumption
              · with_reducible assumption
            · with_reducible assumption
          · with_reducible assumption

theorem ttbAct1_keeps {i : Nat} {e : TtbEnt} {s : State} (h_s : StateKeeps κ s₀ s) :
    StateKeeps κ s₀ (ttbAct1 i e s) := by
  unfold ttbAct1
  extract_lets v277 v278 v279 v280 v281 v282 v283 v284
  have h285 : StateKeeps κ s₀ v278.2 := by
    apply ttbAction_keeps
    with_reducible assumption
  clear_value v278
  have h286 : StateKeeps κ s₀ v279 := by
    with_reducible assumption
  clear_value v279
  have h287 : StateKeeps κ s₀ v280 := by
    apply iteState_keeps
    · apply onUnit_keeps
      · intro z288 h289
        apply uB_keeps
        · intro z290 h291
          apply occur_keeps
          with_reducible assumption
        · with_reducible assumption
      · with_reducible assumption
    · with_reducible assumption
  clear_value v280
  have h292 : StateKeeps κ s₀ v281 := by
    apply onUnit_keeps
    · intro z293 h294
      apply uB_keeps
      · intro z295 h296
        apply pgEvt_keeps
        apply iteBase_keeps
        · apply pgEvt_keeps
          apply inc_keeps
          with_reducible assumption
        · with_reducible assumption
      · with_reducible assumption
    · with_reducible assumption
  clear_value v281
  have h297 : StateKeeps κ s₀ v282 := by
    apply iteState_keeps
    · apply logU_keeps
      with_reducible assumption
    · with_reducible assumption
  clear_value v282
  apply onUnit_keeps
  · intro z298 h299
    apply ttbPut_keeps
    with_reducible assumption
  · with_reducible assumption

theorem ttbActOp_keeps {s : State} (h_s : StateKeeps κ s₀ s) :
    StateKeeps κ s₀ (ttbActOp s) := by
  unfold ttbActOp
  extract_lets v300
  apply foldState_keeps
  · intro z301 z302 h303
    apply ttbAct1_keeps
    with_reducible assumption
  · with_reducible assumption

theorem ttbReload_keeps {u : UnitState} (h_u : UnitKeeps κ s₀ u) :
    UnitKeeps κ s₀ (ttbReload u) := by
  unfold ttbReload
  apply foldUnit_keeps
  · intro z304 z305 h306
    extract_lets v307
    apply iteUnit_keeps
    · with_reducible assumption
    · apply ttbPut_keeps
      with_reducible assumption
  · with_reducible assumption

end Sys2Proof.Machine
end

