-- ==== Sys2Proof/Laws/KeepsBarrier.lean ====
section
/-! SUPPORT. What the operations of Machine/Barrier.lean keep. -/

namespace Sys2Proof.Machine

variable {κ : Bool} {s₀ : State} {b₀ : Base}

theorem barPut_keeps {b : Nat} {x : Barrier} {u : UnitState} (h_u : UnitKeeps κ s₀ u) :
    UnitKeeps κ s₀ (barPut b x u) := by
  unfold barPut
  with_reducible apply unit_mk_keeps
  change UnitKeeps κ s₀ _
  with_reducible assumption

theorem releaseBar_keeps {b : Nat} {core : Nat} {tag : Nat} {status : Nat} {lost : Bool} {round : BitVec 32} {u : UnitState} (h_u : UnitKeeps κ s₀ u) :
    UnitKeeps κ s₀ (releaseBar b core tag status lost round u) := by
  unfold releaseBar
  apply pushResp_keeps
  with_reducible assumption

theorem releaseMems_keeps {b : Nat} {status : Nat} {lost : Bool} {sel : BarMem → Option BarEnt} {x : Barrier} {u : UnitState} (h_u : UnitKeeps κ s₀ u) :
    UnitKeeps κ s₀ (releaseMems b status lost sel x u) := by
  unfold releaseMems
  apply foldUnit_keeps
  · intro z0 z1 h2
    split
    · apply releaseBar_keeps
      with_reducible assumption
    · with_reducible assumption
  · with_reducible assumption

theorem endEntries_keeps {b : Nat} {status : Nat} {u : UnitState} (h_u : UnitKeeps κ s₀ u) :
    UnitKeeps κ s₀ (endEntries b status u) := by
  unfold endEntries
  extract_lets v3 v4 v5 v6 v7
  have h8 : UnitKeeps κ s₀ v4 := by
    apply releaseMems_keeps
    with_reducible assumption
  clear_value v4
  have h9 : UnitKeeps κ s₀ v5 := by
    apply releaseMems_keeps
    with_reducible assumption
  clear_value v5
  have h10 : UnitKeeps κ s₀ v6 := by
    apply releaseMems_keeps
    with_reducible assumption
  clear_value v6
  apply barPut_keeps
  with_reducible assumption

theorem flowPut_keeps {n : Nat} {x : FlowPair} {u : UnitState} (h_u : UnitKeeps κ s₀ u) :
    UnitKeeps κ s₀ (flowPut n x u) := by
  unfold flowPut
  with_reducible apply unit_mk_keeps
  change UnitKeeps κ s₀ _
  with_reducible assumption

theorem flowFlag_keeps {n : Nat} {bit : Nat} {h : Hap} {diff : Int} {s : State} (h_s : StateKeeps κ s₀ s) :
    StateKeeps κ s₀ (flowFlag n bit h diff s) := by
  unfold flowFlag
  extract_lets v11 v12 v13 v14
  have h15 : StateKeeps κ s₀ v12 := by
    apply onUnit_keeps
    · intro z16 h17
      apply uB_keeps
      · intro z18 h19
        apply pgEvt_keeps
        apply inc_keeps
        apply wrB_keeps
        with_reducible assumption
      · with_reducible assumption
    · with_reducible assumption
  clear_value v12
  have h20 : StateKeeps κ s₀ v13 := by
    apply logU_keeps
    with_reducible assumption
  clear_value v13
  have h21 : StateKeeps κ s₀ v14 := by
    apply iteState_keeps
    · apply onUnit_keeps
      · intro z22 h23
        apply uB_keeps
        · intro z24 h25
          apply occur_keeps
          with_reducible assumption
        · with_reducible assumption
      · with_reducible assumption
    · with_reducible assumption
  clear_value v14
  apply iteState_keeps
  · with_reducible assumption
  · apply iteState_keeps
    · apply onUnit_keeps
      · intro z26 h27
        apply pushResp_keeps
        with_reducible assumption
      · with_reducible assumption
    · with_reducible assumption

theorem flowCheck_keeps {n : Nat} {s : State} (h_s : StateKeeps κ s₀ s) :
    StateKeeps κ s₀ (flowCheck n s) := by
  unfold flowCheck
  extract_lets v28 v29
  have h30 : StateKeeps κ s₀ v29 := by
    apply iteState_keeps
    · apply flowFlag_keeps
      with_reducible assumption
    · with_reducible assumption
  clear_value v29
  apply iteState_keeps
  · apply flowFlag_keeps
    with_reducible assumption
  · with_reducible assumption

theorem flowAdvance_keeps {r : Req} {op : Nat} {prod : Bool} {n : Nat} {amount : Nat} {s : State} (h_s : StateKeeps κ s₀ s) :
    StateKeeps κ s₀ (flowAdvance r op prod n amount s) := by
  unfold flowAdvance
  extract_lets v31 v32 v33 v34
  have h35 : UnitKeeps κ s₀ v31 := by
    exact StateKeeps.unit (by assumption)
  clear_value v31
  have h36 : StateKeeps κ s₀ v34 := by
    apply onUnit_keeps
    · intro z37 h38
      apply flowPut_keeps
      with_reducible assumption
    · with_reducible assumption
  clear_value v34
  apply iteState_keeps
  · apply onUnit_keeps
    · intro z39 h40
      apply respError_keeps
      with_reducible assumption
    · with_reducible assumption
  · apply iteState_keeps
    · apply onUnit_keeps
      · intro z41 h42
        apply respError_keeps
        with_reducible assumption
      · with_reducible assumption
    · apply onUnit_keeps
      · intro z43 h44
        apply respAck_keeps
        with_reducible assumption
      · apply flowCheck_keeps
        with_reducible assumption

theorem flowAlign1_keeps {b : Nat} {n : Nat} {s : State} (h_s : StateKeeps κ s₀ s) :
    StateKeeps κ s₀ (flowAlign1 b n s) := by
  unfold flowAlign1
  extract_lets v45 v46 v47 v48 v49 v50 v51
  have h52 : UnitKeeps κ s₀ v45 := by
    exact StateKeeps.unit (by assumption)
  clear_value v45
  have h53 : StateKeeps κ s₀ v50 := by
    apply onUnit_keeps
    · intro z54 h55
      apply uB_keeps
      · intro z56 h57
        apply wr_keeps
        with_reducible assumption
      · apply flowPut_keeps
        with_reducible assumption
    · with_reducible assumption
  clear_value v50
  have h58 : StateKeeps κ s₀ v51 := by
    apply onUnit_keeps
    · intro z59 h60
      apply uB_keeps
      · intro z61 h62
        apply wrB_keeps
        with_reducible assumption
      · with_reducible assumption
    · with_reducible assumption
  clear_value v51
  apply iteState_keeps
  · apply flowFlag_keeps
    with_reducible assumption
  · with_reducible assumption

theorem flowAlign_keeps {b : Nat} {s : State} (h_s : StateKeeps κ s₀ s) :
    StateKeeps κ s₀ (flowAlign b s) := by
  unfold flowAlign
  apply foldState_keeps
  · intro z63 z64 h65
    apply flowAlign1_keeps
    with_reducible assumption
  · with_reducible assumption

theorem completeRound_keeps {b : Nat} {status : Nat} {lost : Bool} {s : State} (h_s : StateKeeps κ s₀ s) :
    StateKeeps κ s₀ (completeRound b status lost s) := by
  unfold completeRound
  extract_lets v66 v67 v68 v69 v70 v71
  have h72 : StateKeeps κ s₀ v68 := by
    apply onUnit_keeps
    · intro z73 h74
      apply releaseMems_keeps
      with_reducible assumption
    · with_reducible assumption
  clear_value v68
  have h75 : StateKeeps κ s₀ v71 := by
    apply onUnit_keeps
    · intro z76 h77
      apply barPut_keeps
      with_reducible assumption
    · with_reducible assumption
  clear_value v71
  apply iteState_keeps
  · apply flowAlign_keeps
    with_reducible assumption
  · with_reducible assumption

theorem hallSettle_keeps {b : Nat} {cmbStatus : Nat} {s : State} (h_s : StateKeeps κ s₀ s) :
    StateKeeps κ s₀ (hallSettle b cmbStatus s) := by
  unfold hallSettle
  apply iteState_keeps
  · apply iteState_keeps
    · apply completeRound_keeps
      with_reducible assumption
    · apply iteState_keeps
      · apply logU_keeps
        apply completeRound_keeps
        with_reducible assumption
      · apply logU_keeps
        apply completeRound_keeps
        with_reducible assumption
  · with_reducible assumption

theorem flowView_keeps {u : UnitState} (h_u : UnitKeeps κ s₀ u) :
    UnitKeeps κ s₀ (flowView u) := by
  unfold flowView
  extract_lets v78 v79
  apply uB_keeps
  · intro z80 h81
    apply wrB_keeps
    apply wr64_keeps
    apply wr64_keeps
    with_reducible assumption
  · with_reducible assumption

theorem flowClear_keeps {n : Nat} {u : UnitState} (h_u : UnitKeeps κ s₀ u) :
    UnitKeeps κ s₀ (flowClear n u) := by
  unfold flowClear
  extract_lets v82
  apply uB_keeps
  · intro z83 h84
    apply wr_keeps
    apply wr_keeps
    with_reducible assumption
  · apply flowPut_keeps
    with_reducible assumption

end Sys2Proof.Machine
end

