-- ==== Sys2Proof/Laws/KeepsCombine.lean ====
section
/-! SUPPORT. What the operations of Machine/Combine.lean keep. -/

namespace Sys2Proof.Machine

variable {κ : Bool} {s₀ : State} {b₀ : Base}

theorem sendAckcmb_keeps {p0 : PortRef} {delay : Nat} {op : Nat} {g : Nat} {ep : Nat} {gseq : Nat} {good : Bool} {s : State} (h_s : StateKeeps κ s₀ s) :
    StateKeeps κ s₀ (sendAckcmb p0 delay op g ep gseq good s) := by
  unfold sendAckcmb
  apply sendSeq_keeps
  with_reducible assumption

theorem rxCmbDown_keeps {rx : Rx} {k : CmbKey} {op : Nat} {repro : Bool} {status : Nat} {pl : List (BitVec 64)} {s : State} (h_s : StateKeeps κ s₀ s) :
    StateKeeps κ s₀ (rxCmbDown rx k op repro status pl s).2 := by
  unfold rxCmbDown
  apply rxSeq_keeps
  with_reducible assumption

theorem rxCmbUp_keeps {rx : Rx} {k : CmbKey} {op : Nat} {repro : Bool} {pl : List (BitVec 64)} {s : State} (h_s : StateKeeps κ s₀ s) :
    StateKeeps κ s₀ (rxCmbUp rx k op repro pl s).2 := by
  unfold rxCmbUp
  apply rxSeq_keeps
  with_reducible assumption

theorem rxCommit_keeps {rx : Rx} {k : CmbKey} {s : State} (h_s : StateKeeps κ s₀ s) :
    StateKeeps κ s₀ (rxCommit rx k s).2 := by
  unfold rxCommit
  apply rxSeq_keeps
  with_reducible assumption

theorem onClient_keeps {f : Client → Client} {u : UnitState} (h_u : UnitKeeps κ s₀ u) :
    UnitKeeps κ s₀ (onClient f u) := by
  unfold onClient
  with_reducible apply unit_mk_keeps
  change UnitKeeps κ s₀ _
  with_reducible assumption

theorem bufPut_keeps {b : Nat} {x : CmbBuf} {u : UnitState} (h_u : UnitKeeps κ s₀ u) :
    UnitKeeps κ s₀ (bufPut b x u) := by
  unfold bufPut
  apply onClient_keeps
  with_reducible assumption

theorem setStale_keeps {g : Nat} {v : Bool} {u : UnitState} (h_u : UnitKeeps κ s₀ u) :
    UnitKeeps κ s₀ (setStale g v u) := by
  unfold setStale
  extract_lets v0
  have h1 : UnitKeeps κ s₀ v0 := by
    apply onClient_keeps
    with_reducible assumption
  clear_value v0
  apply iteUnit_keeps
  · apply uB_keeps
    · intro z2 h3
      apply pgEvt_keeps
      with_reducible assumption
    · with_reducible assumption
  · with_reducible assumption

theorem opPut_keeps {x : CmbOp} {u : UnitState} (h_u : UnitKeeps κ s₀ u) :
    UnitKeeps κ s₀ (opPut x u) := by
  unfold opPut
  apply onClient_keeps
  with_reducible assumption

theorem opDrop_keeps {g : Nat} {gseq : BitVec 16} {u : UnitState} (h_u : UnitKeeps κ s₀ u) :
    UnitKeeps κ s₀ (opDrop g gseq u) := by
  unfold opDrop
  apply onClient_keeps
  with_reducible assumption

theorem cmbDataOp_keeps {r : Req} {b : Nat} {chunk : Nat} {data : BitVec 64} {u : UnitState} (h_u : UnitKeeps κ s₀ u) :
    UnitKeeps κ s₀ (cmbDataOp r b chunk data u) := by
  unfold cmbDataOp
  extract_lets v4 v5 v6
  apply iteUnit_keeps
  · apply respError_keeps
    with_reducible assumption
  · apply iteUnit_keeps
    · apply respError_keeps
      with_reducible assumption
    · apply respAck_keeps
      apply injWrite_keeps
      apply bufPut_keeps
      with_reducible assumption

theorem sendCmbUp_keeps {p0 : PostReq} {s : State} (h_s : StateKeeps κ s₀ s) :
    StateKeeps κ s₀ (sendCmbUp p0 s) := by
  unfold sendCmbUp
  extract_lets v7 v8
  apply foldState_keeps
  · intro z9 z10 h11
    apply iteState_keeps
    · apply sendSeq_keeps
      with_reducible assumption
    · with_reducible assumption
  · with_reducible assumption

theorem postOp_keeps {p0 : PostReq} {s : State} (h_s : StateKeeps κ s₀ s) :
    StateKeeps κ s₀ (postOp p0 s).2 := by
  unfold postOp
  extract_lets v12 v13 v14
  have h15 : StateKeeps κ s₀ v14 := by
    apply sendCmbUp_keeps
    with_reducible assumption
  clear_value v14
  split
  · dsimp only
    apply logU_keeps
    apply onUnit_keeps
    · intro z16 h17
      apply uB_keeps
      · intro z18 h19
        apply inc_keeps
        with_reducible assumption
      · with_reducible assumption
    · with_reducible assumption
  · dsimp only
    apply onUnit_keeps
    · intro z20 h21
      apply uB_keeps
      · intro z22 h23
        apply inc_keeps
        with_reducible assumption
      · apply onClient_keeps
        apply iteUnit_keeps
        · with_reducible assumption
        · apply bufPut_keeps
          with_reducible assumption
    · with_reducible assumption

theorem cmbPostOp_keeps {r : Req} {p0 : PostReq} {s : State} (h_s : StateKeeps κ s₀ s) :
    StateKeeps κ s₀ (cmbPostOp r p0 s) := by
  unfold cmbPostOp
  extract_lets v24
  have h25 : StateKeeps κ s₀ v24.2 := by
    apply postOp_keeps
    with_reducible assumption
  clear_value v24
  apply iteState_keeps
  · apply onUnit_keeps
    · intro z26 h27
      apply respError_keeps
      with_reducible assumption
    · with_reducible assumption
  · apply onUnit_keeps
    · intro z28 h29
      split
      · apply respAck_keeps
        with_reducible assumption
      · apply respError_keeps
        with_reducible assumption
    · with_reducible assumption

theorem cmbReadOp_keeps {r : Req} {b : Nat} {chunk : Nat} {u : UnitState} (h_u : UnitKeeps κ s₀ u) :
    UnitKeeps κ s₀ (cmbReadOp r b chunk u) := by
  unfold cmbReadOp
  extract_lets v30 v31
  have h32 : UnitKeeps κ s₀ v30 := by
    apply injTouch_keeps
    with_reducible assumption
  clear_value v30
  apply iteUnit_keeps
  · apply respError_keeps
    with_reducible assumption
  · apply iteUnit_keeps
    · apply respError_keeps
      with_reducible assumption
    · apply iteUnit_keeps
      · apply respError_keeps
        with_reducible assumption
      · apply pushResp_keeps
        with_reducible assumption

theorem releaseCmb_keeps {o : CmbOp} {cst : Nat} {repro : Bool} {domb : Bool} {u : UnitState} (h_u : UnitKeeps κ s₀ u) :
    UnitKeeps κ s₀ (releaseCmb o cst repro domb u) := by
  unfold releaseCmb
  extract_lets v33 v34
  apply iteUnit_keeps
  · apply uB_keeps
    · intro z35 h36
      apply inc_keeps
      with_reducible assumption
    · with_reducible assumption
  · apply onSems_keeps
    with_reducible assumption

theorem bufDone_keeps {o : CmbOp} {cst : Nat} {repro : Bool} {domb : Bool} {pl : List (BitVec 64)} {u : UnitState} (h_u : UnitKeeps κ s₀ u) :
    UnitKeeps κ s₀ (bufDone o cst repro domb pl u) := by
  unfold bufDone
  extract_lets v37
  apply iteUnit_keeps
  · apply injWrite_keeps
    apply bufPut_keeps
    with_reducible assumption
  · with_reducible assumption

theorem countCmb_keeps {cst : Nat} {b : Base} (h_b : Keeps κ b₀ b) :
    Keeps κ b₀ (countCmb cst b) := by
  unfold countCmb
  apply iteBase_keeps
  · apply pgEvt_keeps
    apply inc_keeps
    with_reducible assumption
  · apply pgEvt_keeps
    apply inc_keeps
    with_reducible assumption

theorem completeOp_keeps {o : CmbOp} {cst : Nat} {repro : Bool} {domb : Bool} {pl : List (BitVec 64)} {s : State} (h_s : StateKeeps κ s₀ s) :
    StateKeeps κ s₀ (completeOp o cst repro domb pl s) := by
  unfold completeOp
  extract_lets v38 v39 v40
  have h41 : StateKeeps κ s₀ v38 := by
    apply onUnit_keeps
    · intro z42 h43
      apply uB_keeps
      · intro z44 h45
        apply countCmb_keeps
        with_reducible assumption
      · apply bufDone_keeps
        apply opDrop_keeps
        with_reducible assumption
    · with_reducible assumption
  clear_value v38
  have h46 : StateKeeps κ s₀ v39 := by
    apply iteState_keeps
    · apply semSignal_keeps
      with_reducible assumption
    · with_reducible assumption
  clear_value v39
  have h47 : StateKeeps κ s₀ v40 := by
    apply iteState_keeps
    · apply onUnit_keeps
      · intro z48 h49
        apply releaseCmb_keeps
        with_reducible assumption
      · with_reducible assumption
    · with_reducible assumption
  clear_value v40
  split
  · apply hallSettle_keeps
    with_reducible assumption
  · with_reducible assumption

theorem advanceGal_keeps {g : Nat} {c : CmbCopy} {b : Base} (h_b : Keeps κ b₀ b) :
    Keeps κ b₀ (advanceGal g c b) := by
  unfold advanceGal
  extract_lets v50 v51
  have h54 : Keeps κ b₀ v51 := by
    apply wrF_keeps
    with_reducible assumption
  clear_value v51
  apply iteBase_keeps
  · apply wrF_keeps
    with_reducible assumption
  · with_reducible assumption

theorem settleStep_keeps {g : Nat} {s : State} (h_s : StateKeeps κ s₀ s) :
    OptKeeps κ s₀ (settleStep g s) := by
  unfold settleStep
  split
  · apply iteOpt_keeps
    · apply optSome_keeps
      apply completeOp_keeps
      apply onUnit_keeps
      · intro z55 h56
        apply uB_keeps
        · intro z57 h58
          apply advanceGal_keeps
          with_reducible assumption
        · with_reducible assumption
      · with_reducible assumption
    · exact optNone_keeps
  · split
    · apply iteOpt_keeps
      · apply optSome_keeps
        apply completeOp_keeps
        with_reducible assumption
      · exact optNone_keeps
    · exact optNone_keeps

theorem settleGal_keeps {k g : Nat} {s : State} (h_s : StateKeeps κ s₀ s) :
    StateKeeps κ s₀ (settleGal k g s) := by
  induction k generalizing s with
  | zero => exact h_s
  | succ k ih =>
    unfold settleGal
    split
    · exact ih (settleStep_keeps h_s _ (by assumption))
    · exact h_s

theorem settle_keeps {g : Nat} {s : State} (h_s : StateKeeps κ s₀ s) :
    StateKeeps κ s₀ (settle g s) := by
  unfold settle
  apply settleGal_keeps
  with_reducible assumption

theorem settleAll_keeps {s : State} (h_s : StateKeeps κ s₀ s) :
    StateKeeps κ s₀ (settleAll s) := by
  unfold settleAll
  apply foldState_keeps
  · intro z59 z60 h61
    apply settle_keeps
    with_reducible assumption
  · with_reducible assumption

theorem unitDownOp_keeps {d : Dom} {k : CmbKey} {op : Nat} {c : CmbCopy} {s : State} (h_s : StateKeeps κ s₀ s) :
    StateKeeps κ s₀ (unitDownOp d k op c s) := by
  unfold unitDownOp
  extract_lets v62 v63
  have h64 : StateKeeps κ s₀ v63 := by
    apply sendAckcmb_keeps
    with_reducible assumption
  clear_value v63
  split
  · extract_lets v65
    apply settle_keeps
    apply onUnit_keeps
    · intro z66 h67
      apply opPut_keeps
      with_reducible assumption
    · with_reducible assumption
  · with_reducible assumption

theorem unitCommitOp_keeps {d : Dom} {k : CmbKey} {s : State} (h_s : StateKeeps κ s₀ s) :
    StateKeeps κ s₀ (unitCommitOp d k s) := by
  unfold unitCommitOp
  extract_lets v68
  split
  · extract_lets v69 v70 v71
    have h72 : StateKeeps κ s₀ v71 := by
      apply onUnit_keeps
      · intro z73 h74
        apply opPut_keeps
        with_reducible assumption
      · with_reducible assumption
    clear_value v71
    apply iteState_keeps
    · apply settle_keeps
      with_reducible assumption
    · apply sendAckcmb_keeps
      apply onUnit_keeps
      · intro z75 h76
        apply uB_keeps
        · intro z77 h78
          apply inc_keeps
          with_reducible assumption
        · with_reducible assumption
      · with_reducible assumption
  · with_reducible assumption

theorem unitDeadlineOp_keeps {g : Nat} {s : State} (h_s : StateKeeps κ s₀ s) :
    StateKeeps κ s₀ (unitDeadlineOp g s) := by
  unfold unitDeadlineOp
  split
  · extract_lets v79 v80 v81
    have h82 : StateKeeps κ s₀ v81 := by
      apply onUnit_keeps
      · intro z83 h84
        apply setStale_keeps
        apply onClient_keeps
        with_reducible assumption
      · with_reducible assumption
    clear_value v81
    apply settle_keeps
    apply logU_keeps
    with_reducible assumption
  · with_reducible assumption

theorem clientClear_keeps {s : State} (h_s : StateKeeps κ s₀ s) :
    StateKeeps κ s₀ (clientClear s) := by
  unfold clientClear
  extract_lets v85 v86 v87
  have h88 : StateKeeps κ s₀ v86 := by
    apply onUnit_keeps
    · intro z89 h90
      apply foldUnit_keeps
      · intro z91 z92 h93
        apply setStale_keeps
        with_reducible assumption
      · with_reducible assumption
    · with_reducible assumption
  clear_value v86
  have h94 : StateKeeps κ s₀ v87 := by
    apply onUnit_keeps
    · intro z95 h96
      apply onClient_keeps
      with_reducible assumption
    · with_reducible assumption
  clear_value v87
  apply settleAll_keeps
  with_reducible assumption

theorem galStateOp_keeps {be : BitVec 4} {data : Word} {s : State} (h_s : StateKeeps κ s₀ s) :
    StateKeeps κ s₀ (galStateOp be data s) := by
  unfold galStateOp
  extract_lets v97
  apply iteState_keeps
  · apply onUnit_keeps
    · intro z98 h99
      apply setStale_keeps
      apply uB_keeps
      · intro z100 h101
        apply wr_keeps
        with_reducible assumption
      · with_reducible assumption
    · with_reducible assumption
  · apply logU_keeps
    with_reducible assumption

end Sys2Proof.Machine
end

