-- ==== Sys2Proof/Laws/KeepsLaunchDist.lean ====
section
/-! SUPPORT. What the operations of Machine/LaunchDist.lean keep. -/

namespace Sys2Proof.Machine

variable {κ : Bool} {s₀ : State} {b₀ : Base}

theorem onCmb_keeps {f : DistCmb → DistCmb} {d : DistState} (h_d : DistKeeps κ s₀ d) :
    DistKeeps κ s₀ (onCmb f d) := by
  unfold onCmb
  with_reducible apply dist_mk_keeps
  change DistKeeps κ s₀ _
  with_reducible assumption

theorem setLead_keeps {v : Bool} {d : DistState} (h_d : DistKeeps κ s₀ d) :
    DistKeeps κ s₀ (setLead v d) := by
  unfold setLead
  apply iteDist_keeps
  · with_reducible assumption
  · apply dB_keeps
    · intro z0 h1
      apply pgEvt_keeps
      apply wr64_keeps
      apply wrB_keeps
      with_reducible assumption
    · with_reducible assumption

theorem lctxDrop_keeps {g : Nat} {lid : Nat} {d : DistState} (h_d : DistKeeps κ s₀ d) :
    DistKeeps κ s₀ (lctxDrop g lid d) := by
  unfold lctxDrop
  apply onCmb_keeps
  with_reducible assumption

theorem lctxPut_keeps {x : LCtx} {d : DistState} (h_d : DistKeeps κ s₀ d) :
    DistKeeps κ s₀ (lctxPut x d) := by
  unfold lctxPut
  apply onCmb_keeps
  with_reducible assumption

theorem lctxOpen_keeps {own : Bool} {a : Arm} {d : DistState} (h_d : DistKeeps κ s₀ d) :
    DistKeeps κ s₀ (lctxOpen own a d) := by
  unfold lctxOpen
  apply onCmb_keeps
  with_reducible assumption

theorem downArm_keeps {a : Arm} {s : State} (h_s : StateKeeps κ s₀ s) :
    StateKeeps κ s₀ (downArm a s) := by
  unfold downArm
  apply sendDown_keeps
  with_reducible assumption

theorem downGo_keeps {g : Go} {s : State} (h_s : StateKeeps κ s₀ s) :
    StateKeeps κ s₀ (downGo g s) := by
  unfold downGo
  apply sendDown_keeps
  with_reducible assumption

theorem downAbort_keeps {a : Abort} {s : State} (h_s : StateKeeps κ s₀ s) :
    StateKeeps κ s₀ (downAbort a s) := by
  unfold downAbort
  apply sendDown_keeps
  with_reducible assumption

theorem rootAbort_keeps {g : Nat} {ep : Nat} {lid : Nat} {reason : Nat} {s : State} (h_s : StateKeeps κ s₀ s) :
    StateKeeps κ s₀ (rootAbort g ep lid reason s) := by
  unfold rootAbort
  extract_lets v2 v3
  have h4 : StateKeeps κ s₀ v2 := by
    apply onDist_keeps
    · intro z5 h6
      apply lctxDrop_keeps
      with_reducible assumption
    · with_reducible assumption
  clear_value v2
  have h7 : StateKeeps κ s₀ v3 := by
    apply downAbort_keeps
    with_reducible assumption
  clear_value v3
  apply ropeSend_keeps
  with_reducible assumption

theorem rootGo_keeps {c : LCtx} {s : State} (h_s : StateKeeps κ s₀ s) :
    StateKeeps κ s₀ (rootGo c s) := by
  unfold rootGo
  extract_lets v8 v9
  have h10 : StateKeeps κ s₀ v8 := by
    apply onDist_keeps
    · intro z11 h12
      apply onCmb_keeps
      apply lctxDrop_keeps
      with_reducible assumption
    · with_reducible assumption
  clear_value v8
  have h13 : StateKeeps κ s₀ v9 := by
    apply downGo_keeps
    with_reducible assumption
  clear_value v9
  apply ropeSend_keeps
  with_reducible assumption

theorem sendCensusUp_keeps {c : LCtx} {count : Nat} {refused : Bool} {s : State} (h_s : StateKeeps κ s₀ s) :
    StateKeeps κ s₀ (sendCensusUp c count refused s) := by
  unfold sendCensusUp
  apply foldState_keeps
  · intro z14 z15 h16
    apply sendArm_keeps
    with_reducible assumption
  · with_reducible assumption

theorem noteDead_keeps {c : LCtx} {s : State} (h_s : StateKeeps κ s₀ s) :
    StateKeeps κ s₀ (noteDead c s) := by
  unfold noteDead
  apply foldState_keeps
  · intro z17 z18 h19
    apply onPort_keeps
    with_reducible assumption
  · with_reducible assumption

theorem censusTest_keeps {g : Nat} {lid : Nat} {s : State} (h_s : StateKeeps κ s₀ s) :
    StateKeeps κ s₀ (censusTest g lid s) := by
  unfold censusTest
  extract_lets v20
  have h21 : DistKeeps κ s₀ v20 := by
    exact StateKeeps.dist (by assumption)
  clear_value v20
  split
  · extract_lets v22
    have h23 : StateKeeps κ s₀ v22 := by
      apply noteDead_keeps
      apply onDist_keeps
      · intro z24 h25
        apply lctxPut_keeps
        with_reducible assumption
      · with_reducible assumption
    clear_value v22
    apply iteState_keeps
    · with_reducible assumption
    · apply iteState_keeps
      · with_reducible assumption
      · apply iteState_keeps
        · apply iteState_keeps
          · apply rootAbort_keeps
            with_reducible assumption
          · apply iteState_keeps
            · apply rootAbort_keeps
              with_reducible assumption
            · apply rootGo_keeps
              with_reducible assumption
        · apply sendCensusUp_keeps
          with_reducible assumption
  · with_reducible assumption

theorem censusAdd_keeps {g : Nat} {lid : Nat} {p0 : Nat} {count : Nat} {refused : Bool} {s : State} (h_s : StateKeeps κ s₀ s) :
    StateKeeps κ s₀ (censusAdd g lid p0 count refused s) := by
  unfold censusAdd
  split
  · extract_lets v26
    have h27 : StateKeeps κ s₀ v26 := by
      apply iteState_keeps
      · with_reducible assumption
      · apply onDist_keeps
        · intro z28 h29
          apply lctxPut_keeps
          with_reducible assumption
        · with_reducible assumption
    clear_value v26
    apply censusTest_keeps
    with_reducible assumption
  · with_reducible assumption

theorem censusAll_keeps {s : State} (h_s : StateKeeps κ s₀ s) :
    StateKeeps κ s₀ (censusAll s) := by
  unfold censusAll
  apply foldState_keeps
  · intro z30 z31 h32
    apply censusTest_keeps
    with_reducible assumption
  · with_reducible assumption

theorem decideRequest_keeps {a : Arm} {s : State} (h_s : StateKeeps κ s₀ s) :
    StateKeeps κ s₀ (decideRequest a s) := by
  unfold decideRequest
  extract_lets v33 v34 v35 v36 v37
  have h38 : StateKeeps κ s₀ v36 := by
    apply downArm_keeps
    apply onDist_keeps
    · intro z39 h40
      apply lctxOpen_keeps
      with_reducible assumption
    · with_reducible assumption
  clear_value v36
  have h41 : StateKeeps κ s₀ v37 := by
    apply ropeSend_keeps
    with_reducible assumption
  clear_value v37
  apply iteState_keeps
  · apply logD_keeps
    with_reducible assumption
  · apply iteState_keeps
    · apply rootAbort_keeps
      with_reducible assumption
    · apply censusTest_keeps
      with_reducible assumption

theorem rootRequest_keeps {a : Arm} {s : State} (h_s : StateKeeps κ s₀ s) :
    StateKeeps κ s₀ (rootRequest a s) := by
  unfold rootRequest
  extract_lets v42
  have h43 : DistKeeps κ s₀ v42 := by
    exact StateKeeps.dist (by assumption)
  clear_value v42
  apply iteState_keeps
  · apply decideRequest_keeps
    with_reducible assumption
  · apply iteState_keeps
    · apply ropeSend_keeps
      with_reducible assumption
    · apply downAbort_keeps
      with_reducible assumption

theorem dropRequest_keeps {p0 : Nat} {s : State} (h_s : StateKeeps κ s₀ s) :
    StateKeeps κ s₀ (dropRequest p0 s) := by
  unfold dropRequest
  extract_lets v44 v45
  have h46 : StateKeeps κ s₀ v45 := by
    apply onDist_keeps
    · intro z47 h48
      apply dB_keeps
      · intro z49 h50
        apply pgEvt_keeps
        apply inc_keeps
        with_reducible assumption
      · apply onCmb_keeps
        with_reducible assumption
    · with_reducible assumption
  clear_value v45
  apply iteState_keeps
  · with_reducible assumption
  · apply logD_keeps
    with_reducible assumption

theorem takeToken_keeps {p0 : Nat} {s : State} (h_s : StateKeeps κ s₀ s) :
    StateKeeps κ s₀ (takeToken p0 s) := by
  unfold takeToken
  extract_lets v51 v52
  apply iteState_keeps
  · with_reducible assumption
  · apply onDist_keeps
    · intro z53 h54
      apply onCmb_keeps
      with_reducible assumption
    · with_reducible assumption

theorem requestOp_keeps {p0 : Nat} {a : Arm} {s : State} (h_s : StateKeeps κ s₀ s) :
    StateKeeps κ s₀ (requestOp p0 a s) := by
  unfold requestOp
  extract_lets v55
  have h56 : StateKeeps κ s₀ v55 := by
    apply takeToken_keeps
    with_reducible assumption
  clear_value v55
  apply iteState_keeps
  · with_reducible assumption
  · apply iteState_keeps
    · apply dropRequest_keeps
      with_reducible assumption
    · apply iteState_keeps
      · apply rootRequest_keeps
        apply iteState_keeps
        · apply takeToken_keeps
          with_reducible assumption
        · with_reducible assumption
      · apply sendArm_keeps
        with_reducible assumption

theorem distArmOp_keeps {a : Arm} {s : State} (h_s : StateKeeps κ s₀ s) :
    StateKeeps κ s₀ (distArmOp a s) := by
  unfold distArmOp
  extract_lets v57 v58 v59 v60
  have h61 : StateKeeps κ s₀ v59 := by
    apply downArm_keeps
    with_reducible assumption
  clear_value v59
  have h62 : DistKeeps κ s₀ v60 := by
    exact StateKeeps.dist (by assumption)
  clear_value v60
  apply iteState_keeps
  · with_reducible assumption
  · apply iteState_keeps
    · apply logD_keeps
      apply sendCensusUp_keeps
      with_reducible assumption
    · apply censusTest_keeps
      apply onDist_keeps
      · intro z63 h64
        apply lctxOpen_keeps
        with_reducible assumption
      · with_reducible assumption

theorem abortUpOp_keeps {a : Abort} {s : State} (h_s : StateKeeps κ s₀ s) :
    StateKeeps κ s₀ (abortUpOp a s) := by
  unfold abortUpOp
  extract_lets v65 v66 v67
  have h68 : DistKeeps κ s₀ v65 := by
    exact StateKeeps.dist (by assumption)
  clear_value v65
  apply iteState_keeps
  · with_reducible assumption
  · apply iteState_keeps
    · split
      · apply iteState_keeps
        · apply rootAbort_keeps
          with_reducible assumption
        · with_reducible assumption
      · apply iteState_keeps
        · apply logD_keeps
          with_reducible assumption
        · with_reducible assumption
    · apply sendAbort_keeps
      with_reducible assumption

theorem cutoffOp_keeps {g : Nat} {lid : Nat} {s : State} (h_s : StateKeeps κ s₀ s) :
    StateKeeps κ s₀ (cutoffOp g lid s) := by
  unfold cutoffOp
  extract_lets v69
  have h70 : DistKeeps κ s₀ v69 := by
    exact StateKeeps.dist (by assumption)
  clear_value v69
  split
  · apply iteState_keeps
    · apply rootAbort_keeps
      with_reducible assumption
    · with_reducible assumption
  · with_reducible assumption

theorem launchEpoch_keeps {g : Nat} {s : State} (h_s : StateKeeps κ s₀ s) :
    StateKeeps κ s₀ (launchEpoch g s) := by
  unfold launchEpoch
  apply iteState_keeps
  · apply foldState_keeps
    · intro z71 z72 h73
      apply rootAbort_keeps
      with_reducible assumption
    · with_reducible assumption
  · with_reducible assumption

theorem launchTake_keeps {s : State} (h_s : StateKeeps κ s₀ s) :
    StateKeeps κ s₀ (launchTake s) := by
  unfold launchTake
  extract_lets v74
  have h75 : StateKeeps κ s₀ v74 := by
    apply onDist_keeps
    · intro z76 h77
      apply onCmb_keeps
      with_reducible assumption
    · with_reducible assumption
  clear_value v74
  apply foldState_keeps
  · intro z78 z79 h80
    apply iteState_keeps
    · apply rootAbort_keeps
      with_reducible assumption
    · apply censusTest_keeps
      with_reducible assumption
  · with_reducible assumption

theorem openRecordOp_keeps {a : Arm} {s : State} (h_s : StateKeeps κ s₀ s) :
    StateKeeps κ s₀ (openRecordOp a s) := by
  unfold openRecordOp
  apply iteState_keeps
  · apply downArm_keeps
    apply onDist_keeps
    · intro z81 h82
      apply lctxOpen_keeps
      with_reducible assumption
    · with_reducible assumption
  · with_reducible assumption

theorem decisionRecordOp_keeps {g : Nat} {ep : Nat} {lid : Nat} {go : Bool} {reason : Nat} {s : State} (h_s : StateKeeps κ s₀ s) :
    StateKeeps κ s₀ (decisionRecordOp g ep lid go reason s) := by
  unfold decisionRecordOp
  apply iteState_keeps
  · with_reducible assumption
  · apply iteState_keeps
    · split
      · apply downGo_keeps
        apply onDist_keeps
        · intro z83 h84
          apply onCmb_keeps
          apply lctxDrop_keeps
          with_reducible assumption
        · with_reducible assumption
      · with_reducible assumption
    · apply downAbort_keeps
      apply onDist_keeps
      · intro z85 h86
        apply lctxDrop_keeps
        with_reducible assumption
      · with_reducible assumption

theorem onDistRx_keeps {rx : Rx} {r : Bool × State} {f : Nat → State → State} (h_r : StateKeeps κ s₀ r.2) (h_f : ∀ y0 z, StateKeeps κ s₀ z → StateKeeps κ s₀ (f y0 z)) :
    StateKeeps κ s₀ (onDistRx rx r f) := by
  unfold onDistRx
  split
  · apply iteState_keeps
    · apply h_f
      with_reducible assumption
    · with_reducible assumption
  · with_reducible assumption

theorem reqRefill_keeps {p0 : Nat} {d : DistState} (h_d : DistKeeps κ s₀ d) :
    DistKeeps κ s₀ (reqRefill p0 d) := by
  unfold reqRefill
  extract_lets v87 v88
  apply iteDist_keeps
  · apply onCmb_keeps
    with_reducible assumption
  · with_reducible assumption

end Sys2Proof.Machine
end

