-- ==== Sys2Proof/Laws/KeepsCombineDist.lean ====
section
/-! SUPPORT. What the operations of Machine/CombineDist.lean keep. -/

namespace Sys2Proof.Machine

variable {κ : Bool} {s₀ : State} {b₀ : Base}

theorem ctxPut_keeps {x : CmbCtx} {d : DistState} (h_d : DistKeeps κ s₀ d) :
    DistKeeps κ s₀ (ctxPut x d) := by
  unfold ctxPut
  apply onCmb_keeps
  with_reducible assumption

theorem ctxDrop_keeps {g : Nat} {q0 : BitVec 16} {d : DistState} (h_d : DistKeeps κ s₀ d) :
    DistKeeps κ s₀ (ctxDrop g q0 d) := by
  unfold ctxDrop
  apply onCmb_keeps
  with_reducible assumption

theorem sendAbsent_keeps {c : CmbCtx} {p0 : Nat} {s : State} (h_s : StateKeeps κ s₀ s) :
    StateKeeps κ s₀ (sendAbsent c p0 s) := by
  unfold sendAbsent
  apply ropeSend_keeps
  with_reducible assumption

theorem forwardCon_keeps {g : Nat} {q0 : BitVec 16} {x : Contrib} {s : State} (h_s : StateKeeps κ s₀ s) :
    StateKeeps κ s₀ (forwardCon g q0 x s) := by
  unfold forwardCon
  extract_lets v0
  have h1 : StateKeeps κ s₀ v0 := by
    apply ropeSend_keeps
    with_reducible assumption
  clear_value v0
  apply ropeSend_keeps
  with_reducible assumption

theorem noteSub_keeps {p0 : Nat} {v : Bool} {b : Base} (h_b : Keeps κ b₀ b) :
    Keeps κ b₀ (noteSub p0 v b) := by
  unfold noteSub
  apply wrB_keeps
  with_reducible assumption

theorem subscribe_keeps {p0 : Nat} {s : State} (h_s : StateKeeps κ s₀ s) :
    StateKeeps κ s₀ (subscribe p0 s) := by
  unfold subscribe
  extract_lets v2
  have h3 : StateKeeps κ s₀ v2 := by
    apply onDist_keeps
    · intro z4 h5
      apply dB_keeps
      · intro z6 h7
        apply noteSub_keeps
        with_reducible assumption
      · apply onCmb_keeps
        with_reducible assumption
    · with_reducible assumption
  clear_value v2
  apply iteState_keeps
  · with_reducible assumption
  · apply ropeSend_keeps
    with_reducible assumption

theorem sendResult_keeps {delay : Nat} {ports : List Nat} {c : CmbCtx} {r : CmbCopy} {s : State} (h_s : StateKeeps κ s₀ s) :
    StateKeeps κ s₀ (sendResult delay ports c r s) := by
  unfold sendResult
  apply foldState_keeps
  · intro z8 z9 h10
    apply sendSeq_keeps
    with_reducible assumption
  · with_reducible assumption

theorem countResult_keeps {r : CmbCopy} {b : Base} (h_b : Keeps κ b₀ b) :
    Keeps κ b₀ (countResult r b) := by
  unfold countResult
  apply iteBase_keeps
  · apply pgEvt_keeps
    apply inc_keeps
    with_reducible assumption
  · apply iteBase_keeps
    · apply pgEvt_keeps
      apply inc_keeps
      with_reducible assumption
    · with_reducible assumption

theorem bumpEpoch_keeps {g : Nat} {s : State} (h_s : StateKeeps κ s₀ s) :
    StateKeeps κ s₀ (bumpEpoch g s) := by
  unfold bumpEpoch
  apply launchEpoch_keeps
  apply onDist_keeps
  · intro z11 h12
    apply dB_keeps
    · intro z13 h14
      apply wrF_keeps
      with_reducible assumption
    · with_reducible assumption
  · with_reducible assumption

theorem unfresh_keeps {d : DistState} (h_d : DistKeeps κ s₀ d) :
    DistKeeps κ s₀ (unfresh d) := by
  unfold unfresh
  apply onCmb_keeps
  with_reducible assumption

theorem relayDrop_keeps {s : State} (h_s : StateKeeps κ s₀ s) :
    StateKeeps κ s₀ (relayDrop s) := by
  unfold relayDrop
  split
  · apply foldState_keeps
    · intro z15 z16 h17
      apply onPort_keeps
      with_reducible assumption
    · apply onDist_keeps
      · intro z18 h19
        apply onCmb_keeps
        with_reducible assumption
      · with_reducible assumption
  · with_reducible assumption

theorem relayMore_keeps {op : Nat} {len : Nat} {o : List (BitVec 64)} {l : CmbRelay} {s : State} (h_s : StateKeeps κ s₀ s) :
    StateKeeps κ s₀ (relayMore op len o l s) := by
  unfold relayMore
  extract_lets v20 v21 v22
  have h23 : StateKeeps κ s₀ v22 := by
    apply foldState_keeps
    · intro z24 z25 h26
      apply onPort_keeps
      with_reducible assumption
    · with_reducible assumption
  clear_value v22
  apply onDist_keeps
  · intro z27 h28
    apply onCmb_keeps
    with_reducible assumption
  · with_reducible assumption

theorem relayOpen_keeps {ports : List Nat} {g : Nat} {q0 : BitVec 16} {s : State} (h_s : StateKeeps κ s₀ s) :
    StateKeeps κ s₀ (relayOpen ports g q0 s).2 := by
  unfold relayOpen
  extract_lets v29
  dsimp only
  apply foldState_keeps
  · intro z30 z31 h32
    apply onPort_keeps
    with_reducible assumption
  · with_reducible assumption

theorem relayPart_keeps {g : Nat} {q0 : BitVec 16} {op : Nat} {len : Nat} {o : List (BitVec 64)} {s : State} (h_s : StateKeeps κ s₀ s) :
    StateKeeps κ s₀ (relayPart g q0 op len o s) := by
  unfold relayPart
  apply iteState_keeps
  · with_reducible assumption
  · split
    · apply relayMore_keeps
      with_reducible assumption
    · extract_lets v33 v34 v35
      have h36 : StateKeeps κ s₀ v33 := by
        apply relayDrop_keeps
        with_reducible assumption
      clear_value v33
      have h37 : StateKeeps κ s₀ v35.2 := by
        apply relayOpen_keeps
        with_reducible assumption
      clear_value v35
      apply iteState_keeps
      · with_reducible assumption
      · apply relayMore_keeps
        with_reducible assumption

theorem relayRest_keeps {g : Nat} {q0 : BitVec 16} {op : Nat} {len : Nat} {o : List (BitVec 64)} {s : State} (h_s : StateKeeps κ s₀ s) :
    StateKeeps κ s₀ (relayRest g q0 op len o s).2 := by
  unfold relayRest
  split
  · dsimp only
    apply onDist_keeps
    · intro z38 h39
      apply onCmb_keeps
      with_reducible assumption
    · apply relayMore_keeps
      with_reducible assumption
  · dsimp only
    apply relayDrop_keeps
    with_reducible assumption

theorem relayResult_keeps {delay : Nat} {sent : List Nat} {c : CmbCtx} {r : CmbCopy} {s : State} (h_s : StateKeeps κ s₀ s) :
    StateKeeps κ s₀ (relayResult delay sent c r s) := by
  unfold relayResult
  extract_lets v40 v41 v42
  have h43 : StateKeeps κ s₀ v42 := by
    apply sendResult_keeps
    with_reducible assumption
  clear_value v42
  apply onDist_keeps
  · intro z44 h45
    apply dB_keeps
    · intro z46 h47
      apply countResult_keeps
      with_reducible assumption
    · apply unfresh_keeps
      apply ctxPut_keeps
      with_reducible assumption
  · with_reducible assumption

theorem formResult_keeps {c : CmbCtx} {s : State} (h_s : StateKeeps κ s₀ s) :
    StateKeeps κ s₀ (formResult c s) := by
  unfold formResult
  extract_lets v48 v49 v50 v51 v52 v53 v54 v55 v56 v57
  have h58 : DistKeeps κ s₀ v48 := by
    exact StateKeeps.dist (by assumption)
  clear_value v48
  have h59 : StateKeeps κ s₀ v53 := by
    apply relayResult_keeps
    with_reducible assumption
  clear_value v53
  have h60 : StateKeeps κ s₀ v54 := by
    apply onDist_keeps
    · intro z61 h62
      apply dB_keeps
      · intro z63 h64
        apply inc_keeps
        with_reducible assumption
      · with_reducible assumption
    · with_reducible assumption
  clear_value v54
  have h65 : StateKeeps κ s₀ v55 := by
    apply ropeSend_keeps
    with_reducible assumption
  clear_value v55
  have h66 : StateKeeps κ s₀ v56 := by
    dsimp only [v56]
    split
    · apply logD_keeps
      with_reducible assumption
    · with_reducible assumption
  clear_value v56
  have h67 : StateKeeps κ s₀ v57 := by
    apply iteState_keeps
    · apply onDist_keeps
      · intro z68 h69
        apply dB_keeps
        · intro z70 h71
          apply inc_keeps
          with_reducible assumption
        · with_reducible assumption
      · with_reducible assumption
    · with_reducible assumption
  clear_value v57
  apply iteState_keeps
  · apply bumpEpoch_keeps
    with_reducible assumption
  · with_reducible assumption

theorem leadStep_keeps {g : Nat} {s : State} (h_s : StateKeeps κ s₀ s) :
    OptKeeps κ s₀ (leadStep g s) := by
  unfold leadStep
  split
  · extract_lets v72
    have h73 : StateKeeps κ s₀ v72 := by
      apply formResult_keeps
      with_reducible assumption
    clear_value v72
    apply iteOpt_keeps
    · apply optSome_keeps
      apply onDist_keeps
      · intro z74 h75
        apply onCmb_keeps
        with_reducible assumption
      · with_reducible assumption
    · exact optNone_keeps
  · exact optNone_keeps

theorem leadRun_keeps {k g : Nat} {s : State} (h_s : StateKeeps κ s₀ s) :
    StateKeeps κ s₀ (leadRun k g s) := by
  induction k generalizing s with
  | zero => exact h_s
  | succ k ih =>
    unfold leadRun
    split
    · exact ih (leadStep_keeps h_s _ (by assumption))
    · exact h_s

theorem keepCtx_keeps {c : CmbCtx} {d : DistState} (h_d : DistKeeps κ s₀ d) :
    DistKeeps κ s₀ (keepCtx c d) := by
  unfold keepCtx
  extract_lets v76
  apply onCmb_keeps
  with_reducible assumption

theorem heldPut_keeps {c : CmbCtx} {d : DistState} (h_d : DistKeeps κ s₀ d) :
    DistKeeps κ s₀ (heldPut c d) := by
  unfold heldPut
  apply iteDist_keeps
  · apply ctxPut_keeps
    with_reducible assumption
  · apply keepCtx_keeps
    with_reducible assumption

theorem commitStep_keeps {g : Nat} {s : State} (h_s : StateKeeps κ s₀ s) :
    OptKeeps κ s₀ (commitStep g s) := by
  unfold commitStep
  extract_lets v77
  have h78 : DistKeeps κ s₀ v77 := by
    exact StateKeeps.dist (by assumption)
  clear_value v77
  split
  · extract_lets v79 v80
    have h81 : StateKeeps κ s₀ v80 := by
      apply foldState_keeps
      · intro z82 z83 h84
        apply sendSeq_keeps
        with_reducible assumption
      · with_reducible assumption
    clear_value v80
    apply iteOpt_keeps
    · apply optSome_keeps
      apply onDist_keeps
      · intro z85 h86
        apply dB_keeps
        · intro z87 h88
          apply wrF_keeps
          with_reducible assumption
        · apply keepCtx_keeps
          apply ctxDrop_keeps
          apply unfresh_keeps
          with_reducible assumption
      · with_reducible assumption
    · exact optNone_keeps
  · exact optNone_keeps

theorem commitRun_keeps {k g : Nat} {s : State} (h_s : StateKeeps κ s₀ s) :
    StateKeeps κ s₀ (commitRun k g s) := by
  induction k generalizing s with
  | zero => exact h_s
  | succ k ih =>
    unfold commitRun
    split
    · exact ih (commitStep_keeps h_s _ (by assumption))
    · exact h_s

theorem epochRun_keeps {k g : Nat} {s : State} (h_s : StateKeeps κ s₀ s) :
    StateKeeps κ s₀ (epochRun k g s) := by
  induction k generalizing s with
  | zero => exact h_s
  | succ k ih =>
    unfold epochRun
    split
    · split
      · apply ih
        apply iteState_keeps
        · exact bumpEpoch_keeps (onDist_keeps (fun z h => ctxPut_keeps h) h_s)
        · exact onDist_keeps (fun z h => ctxPut_keeps h) h_s
      · exact h_s
    · exact h_s

theorem distSettle_keeps {g : Nat} {s : State} (h_s : StateKeeps κ s₀ s) :
    StateKeeps κ s₀ (distSettle g s) := by
  unfold distSettle
  extract_lets v89 v90
  have h91 : StateKeeps κ s₀ v89 := by
    apply epochRun_keeps
    with_reducible assumption
  clear_value v89
  have h92 : StateKeeps κ s₀ v90 := by
    apply iteState_keeps
    · apply leadRun_keeps
      with_reducible assumption
    · with_reducible assumption
  clear_value v90
  apply commitRun_keeps
  with_reducible assumption

theorem distSettleAll_keeps {s : State} (h_s : StateKeeps κ s₀ s) :
    StateKeeps κ s₀ (distSettleAll s) := by
  unfold distSettleAll
  apply foldState_keeps
  · intro z93 z94 h95
    apply distSettle_keeps
    with_reducible assumption
  · with_reducible assumption

theorem sendPartial_keeps {c : CmbCtx} {s : State} (h_s : StateKeeps κ s₀ s) :
    StateKeeps κ s₀ (sendPartial c s) := by
  unfold sendPartial
  extract_lets v96 v97 v98 v99
  have h100 : StateKeeps κ s₀ v99 := by
    apply sendSeq_keeps
    with_reducible assumption
  clear_value v99
  apply onDist_keeps
  · intro z101 h102
    apply unfresh_keeps
    apply onCmb_keeps
    with_reducible assumption
  · with_reducible assumption

theorem countDone_keeps {g : Nat} {q0 : BitVec 16} {s : State} (h_s : StateKeeps κ s₀ s) :
    StateKeeps κ s₀ (countDone g q0 s) := by
  unfold countDone
  apply onDist_keeps
  · intro z103 h104
    apply dB_keeps
    · intro z105 h106
      apply inc_keeps
      apply wrF_keeps
      with_reducible assumption
    · with_reducible assumption
  · with_reducible assumption

theorem completeTest_keeps {g : Nat} {q0 : BitVec 16} {s : State} (h_s : StateKeeps κ s₀ s) :
    StateKeeps κ s₀ (completeTest g q0 s) := by
  unfold completeTest
  split
  · extract_lets v107
    have h108 : StateKeeps κ s₀ v107 := by
      apply countDone_keeps
      apply onDist_keeps
      · intro z109 h110
        apply ctxPut_keeps
        with_reducible assumption
      · with_reducible assumption
    clear_value v107
    apply iteState_keeps
    · with_reducible assumption
    · apply iteState_keeps
      · apply distSettle_keeps
        with_reducible assumption
      · apply iteState_keeps
        · with_reducible assumption
        · apply sendPartial_keeps
          with_reducible assumption
  · with_reducible assumption

theorem completeGal_keeps {g : Nat} {s : State} (h_s : StateKeeps κ s₀ s) :
    StateKeeps κ s₀ (completeGal g s) := by
  unfold completeGal
  apply foldState_keeps
  · intro z111 z112 h113
    apply completeTest_keeps
    with_reducible assumption
  · with_reducible assumption

theorem portLost_keeps {g : Nat} {p0 : Nat} {q0 : Nat} {s : State} (h_s : StateKeeps κ s₀ s) :
    StateKeeps κ s₀ (portLost g p0 q0 s) := by
  unfold portLost
  extract_lets v114 v115 v116
  have h117 : StateKeeps κ s₀ v114 := by
    apply onDist_keeps
    · intro z118 h119
      apply dB_keeps
      · intro z120 h121
        apply wrB_keeps
        with_reducible assumption
      · apply onCmb_keeps
        with_reducible assumption
    · with_reducible assumption
  clear_value v114
  have h122 : StateKeeps κ s₀ v115 := by
    apply onPort_keeps
    with_reducible assumption
  clear_value v115
  have h123 : StateKeeps κ s₀ v116 := by
    apply scorePort_keeps
    apply logD_keeps
    apply onDist_keeps
    · intro z124 h125
      apply dB_keeps
      · intro z126 h127
        apply pgEvt_keeps
        with_reducible assumption
      · with_reducible assumption
    · with_reducible assumption
  clear_value v116
  apply iteState_keeps
  · with_reducible assumption
  · apply distSettle_keeps
    apply completeGal_keeps
    with_reducible assumption

theorem resolveAbsent_keeps {p0 : Nat} {s : State} (h_s : StateKeeps κ s₀ s) :
    StateKeeps κ s₀ (resolveAbsent p0 s) := by
  unfold resolveAbsent
  apply iteState_keeps
  · with_reducible assumption
  · apply iteState_keeps
    · apply subscribe_keeps
      with_reducible assumption
    · apply foldState_keeps
      · intro z128 z129 h130
        apply portLost_keeps
        with_reducible assumption
      · with_reducible assumption

theorem cancelTest_keeps {p0 : Nat} {s : State} (h_s : StateKeeps κ s₀ s) :
    StateKeeps κ s₀ (cancelTest p0 s) := by
  unfold cancelTest
  extract_lets v131 v132
  have h133 : DistKeeps κ s₀ v131 := by
    exact StateKeeps.dist (by assumption)
  clear_value v131
  have h134 : StateKeeps κ s₀ v132 := by
    apply onDist_keeps
    · intro z135 h136
      apply dB_keeps
      · intro z137 h138
        apply noteSub_keeps
        with_reducible assumption
      · apply onCmb_keeps
        with_reducible assumption
    · with_reducible assumption
  clear_value v132
  apply iteState_keeps
  · apply ropeSend_keeps
    with_reducible assumption
  · with_reducible assumption

theorem portAbsent_keeps {p0 : Nat} {s : State} (h_s : StateKeeps κ s₀ s) :
    StateKeeps κ s₀ (portAbsent p0 s) := by
  unfold portAbsent
  extract_lets v139 v140 v141
  have h142 : DistKeeps κ s₀ v139 := by
    exact StateKeeps.dist (by assumption)
  clear_value v139
  have h143 : StateKeeps κ s₀ v140 := by
    apply iteState_keeps
    · apply resolveAbsent_keeps
      with_reducible assumption
    · with_reducible assumption
  clear_value v140
  have h144 : StateKeeps κ s₀ v141 := by
    apply iteState_keeps
    · apply foldState_keeps
      · intro z145 z146 h147
        apply sendAbsent_keeps
        with_reducible assumption
      · with_reducible assumption
    · with_reducible assumption
  clear_value v141
  apply censusAll_keeps
  apply distSettleAll_keeps
  with_reducible assumption

theorem portPresent_keeps {p0 : Nat} {s : State} (h_s : StateKeeps κ s₀ s) :
    StateKeeps κ s₀ (portPresent p0 s) := by
  unfold portPresent
  apply onDist_keeps
  · intro z148 h149
    apply onCmb_keeps
    with_reducible assumption
  · with_reducible assumption

theorem ctxOpen_keeps {g : Nat} {q0 : BitVec 16} {ep : Nat} {op : Nat} {s : State} (h_s : StateKeeps κ s₀ s) :
    StateKeeps κ s₀ (ctxOpen g q0 ep op s) := by
  unfold ctxOpen
  split
  · extract_lets v150
    apply iteState_keeps
    · with_reducible assumption
    · apply onDist_keeps
      · intro z151 h152
        apply ctxPut_keeps
        with_reducible assumption
      · with_reducible assumption
  · apply onDist_keeps
    · intro z153 h154
      apply onCmb_keeps
      with_reducible assumption
    · with_reducible assumption

theorem ctxBlank_keeps {g : Nat} {q0 : BitVec 16} {ep : Nat} {s : State} (h_s : StateKeeps κ s₀ s) :
    StateKeeps κ s₀ (ctxBlank g q0 ep s) := by
  unfold ctxBlank
  split
  · with_reducible assumption
  · apply onDist_keeps
    · intro z155 h156
      apply onCmb_keeps
      with_reducible assumption
    · with_reducible assumption

theorem ctxResolve_keeps {c : CmbCtx} {s : State} (h_s : StateKeeps κ s₀ s) :
    StateKeeps κ s₀ (ctxResolve c s) := by
  unfold ctxResolve
  apply foldState_keeps
  · intro z157 z158 h159
    extract_lets v160
    have h161 : StateKeeps κ s₀ v160 := by
      apply iteState_keeps
      · apply sendAbsent_keeps
        with_reducible assumption
      · with_reducible assumption
    clear_value v160
    apply resolveAbsent_keeps
    with_reducible assumption
  · with_reducible assumption

theorem discard_keeps {s : State} (h_s : StateKeeps κ s₀ s) :
    StateKeeps κ s₀ (discard s) := by
  unfold discard
  apply onDist_keeps
  · intro z162 h163
    apply dB_keeps
    · intro z164 h165
      apply inc_keeps
      with_reducible assumption
    · with_reducible assumption
  · with_reducible assumption

theorem takeCon_keeps {g : Nat} {q0 : BitVec 16} {ep : Nat} {opcode : Nat} {x : Contrib} {s : State} (h_s : StateKeeps κ s₀ s) :
    StateKeeps κ s₀ (takeCon g q0 ep opcode x s) := by
  unfold takeCon
  extract_lets v166 v167 v168
  have h169 : StateKeeps κ s₀ v168 := by
    apply ctxOpen_keeps
    with_reducible assumption
  clear_value v168
  apply iteState_keeps
  · apply discard_keeps
    apply onDist_keeps
    · intro z170 h171
      apply dB_keeps
      · intro z172 h173
        apply inc_keeps
        with_reducible assumption
      · with_reducible assumption
    · with_reducible assumption
  · split
    · extract_lets v174 v175 v176
      have h177 : StateKeeps κ s₀ v176 := by
        apply onDist_keeps
        · intro z178 h179
          apply ctxPut_keeps
          with_reducible assumption
        · with_reducible assumption
      clear_value v176
      apply iteState_keeps
      · apply discard_keeps
        with_reducible assumption
      · apply completeTest_keeps
        apply iteState_keeps
        · apply ctxResolve_keeps
          with_reducible assumption
        · with_reducible assumption
    · with_reducible assumption

theorem notMember_keeps {g : Nat} {p0 : Nat} {q0 : BitVec 16} {s : State} (h_s : StateKeeps κ s₀ s) :
    StateKeeps κ s₀ (notMember g p0 q0 s) := by
  unfold notMember
  extract_lets v180 v181
  have h182 : StateKeeps κ s₀ v181 := by
    apply discard_keeps
    with_reducible assumption
  clear_value v181
  apply iteState_keeps
  · with_reducible assumption
  · apply logD_keeps
    apply onDist_keeps
    · intro z183 h184
      apply onCmb_keeps
      with_reducible assumption
    · with_reducible assumption

theorem cmbUpOp_keeps {p0 : Nat} {k : CmbKey} {opcode : Nat} {repro : Bool} {pl : List (BitVec 64)} {s : State} (h_s : StateKeeps κ s₀ s) :
    StateKeeps κ s₀ (cmbUpOp p0 k opcode repro pl s) := by
  unfold cmbUpOp
  extract_lets v185 v186 v187 v188 v189 v190
  have h191 : DistKeeps κ s₀ v185 := by
    exact StateKeeps.dist (by assumption)
  clear_value v185
  have h192 : StateKeeps κ s₀ v189 := by
    apply onDist_keeps
    · intro z193 h194
      apply onCmb_keeps
      with_reducible assumption
    · with_reducible assumption
  clear_value v189
  have h195 : StateKeeps κ s₀ v190 := by
    apply iteState_keeps
    · apply forwardCon_keeps
      with_reducible assumption
    · with_reducible assumption
  clear_value v190
  apply iteState_keeps
  · with_reducible assumption
  · apply iteState_keeps
    · apply discard_keeps
      with_reducible assumption
    · apply iteState_keeps
      · apply notMember_keeps
        with_reducible assumption
      · apply cancelTest_keeps
        apply takeCon_keeps
        with_reducible assumption

theorem accGrant_keeps {s : State} (h_s : StateKeeps κ s₀ s) :
    StateKeeps κ s₀ (accGrant s) := by
  unfold accGrant
  extract_lets v196
  have h197 : DistKeeps κ s₀ v196 := by
    exact StateKeeps.dist (by assumption)
  clear_value v196
  apply iteState_keeps
  · split
    · apply completeTest_keeps
      apply onDist_keeps
      · intro z198 h199
        apply ctxPut_keeps
        with_reducible assumption
      · with_reducible assumption
    · with_reducible assumption
  · with_reducible assumption

theorem accTick_keeps {d : DistState} (h_d : DistKeeps κ s₀ d) :
    DistKeeps κ s₀ (accTick d) := by
  unfold accTick
  extract_lets v200
  apply iteDist_keeps
  · with_reducible assumption
  · apply dB_keeps
    · intro z201 h202
      apply wrF_keeps
      with_reducible assumption
    · with_reducible assumption

theorem substTimeoutOp_keeps {p0 : Nat} {s : State} (h_s : StateKeeps κ s₀ s) :
    StateKeeps κ s₀ (substTimeoutOp p0 s) := by
  unfold substTimeoutOp
  apply cancelTest_keeps
  apply foldState_keeps
  · intro z203 z204 h205
    apply portLost_keeps
    with_reducible assumption
  · with_reducible assumption

theorem ctxDeadlineOp_keeps {g : Nat} {q0 : BitVec 16} {s : State} (h_s : StateKeeps κ s₀ s) :
    StateKeeps κ s₀ (ctxDeadlineOp g q0 s) := by
  unfold ctxDeadlineOp
  split
  · extract_lets v206 v207 v208 v209
    have h210 : DistKeeps κ s₀ v206 := by
      exact StateKeeps.dist (by assumption)
    clear_value v206
    have h211 : StateKeeps κ s₀ v209 := by
      apply foldState_keeps
      · intro z212 z213 h214
        apply portLost_keeps
        with_reducible assumption
      · with_reducible assumption
    clear_value v209
    apply iteState_keeps
    · split
      · apply iteState_keeps
        · with_reducible assumption
        · apply distSettle_keeps
          apply countDone_keeps
          apply onDist_keeps
          · intro z215 h216
            apply ctxPut_keeps
            with_reducible assumption
          · with_reducible assumption
      · with_reducible assumption
    · with_reducible assumption
  · with_reducible assumption

theorem ackTimeoutOp_keeps {g : Nat} {q0 : BitVec 16} {p0 : Nat} {s : State} (h_s : StateKeeps κ s₀ s) :
    StateKeeps κ s₀ (ackTimeoutOp g q0 p0 s) := by
  unfold ackTimeoutOp
  split
  · apply iteState_keeps
    · apply distSettle_keeps
      apply portLost_keeps
      with_reducible assumption
    · with_reducible assumption
  · with_reducible assumption

theorem relayDown_keeps {g : Nat} {q0 : BitVec 16} {op : Nat} {c : CmbCtx} {r : CmbCopy} {s : State} (h_s : StateKeeps κ s₀ s) :
    StateKeeps κ s₀ (relayDown g q0 op c r s) := by
  unfold relayDown
  extract_lets v217
  have h218 : StateKeeps κ s₀ v217.2 := by
    apply relayRest_keeps
    with_reducible assumption
  clear_value v217
  apply distSettle_keeps
  apply relayResult_keeps
  with_reducible assumption

theorem cmbDownOp_keeps {k : CmbKey} {op : Nat} {r : CmbCopy} {s : State} (h_s : StateKeeps κ s₀ s) :
    StateKeeps κ s₀ (cmbDownOp k op r s) := by
  unfold cmbDownOp
  extract_lets v219 v220 v221
  have h222 : ∀ z0, StateKeeps κ s₀ z0 → StateKeeps κ s₀ (v220 z0) := by
    intro z223 h224
    dsimp only [v220]
    apply sendAckcmb_keeps
    with_reducible assumption
  clear_value v220
  have h225 : StateKeeps κ s₀ v221 := by
    apply h222
    apply ctxBlank_keeps
    with_reducible assumption
  clear_value v221
  apply iteState_keeps
  · apply h222
    with_reducible assumption
  · split
    · apply iteState_keeps
      · with_reducible assumption
      · apply relayDown_keeps
        with_reducible assumption
    · with_reducible assumption

theorem distCommitOp_keeps {k : CmbKey} {s : State} (h_s : StateKeeps κ s₀ s) :
    StateKeeps κ s₀ (distCommitOp k s) := by
  unfold distCommitOp
  extract_lets v226 v227
  have h228 : StateKeeps κ s₀ v227 := by
    apply ctxBlank_keeps
    with_reducible assumption
  clear_value v227
  apply iteState_keeps
  · with_reducible assumption
  · split
    · extract_lets v229
      have h230 : StateKeeps κ s₀ v229 := by
        apply onDist_keeps
        · intro z231 h232
          apply ctxPut_keeps
          with_reducible assumption
        · with_reducible assumption
      clear_value v229
      apply iteState_keeps
      · apply distSettle_keeps
        with_reducible assumption
      · apply sendAckcmb_keeps
        with_reducible assumption
    · with_reducible assumption

theorem ackcmbOp_keeps {p0 : Nat} {k : CmbKey} {good : Bool} {s : State} (h_s : StateKeeps κ s₀ s) :
    StateKeeps κ s₀ (ackcmbOp p0 k good s) := by
  unfold ackcmbOp
  extract_lets v233
  split
  · extract_lets v234
    have h235 : StateKeeps κ s₀ v234 := by
      apply iteState_keeps
      · with_reducible assumption
      · apply onDist_keeps
        · intro z236 h237
          apply heldPut_keeps
          with_reducible assumption
        · with_reducible assumption
    clear_value v234
    apply iteState_keeps
    · apply distSettle_keeps
      with_reducible assumption
    · split
      · extract_lets v238 v239
        have h240 : StateKeeps κ s₀ v239 := by
          apply onDist_keeps
          · intro z241 h242
            apply dB_keeps
            · intro z243 h244
              apply inc_keeps
              with_reducible assumption
            · apply heldPut_keeps
              with_reducible assumption
          · with_reducible assumption
        clear_value v239
        apply sendResult_keeps
        with_reducible assumption
      · with_reducible assumption
  · with_reducible assumption

theorem substHdrOp_keeps {h : SubstHdr} {absent : Bool} {all : Bool} {s : State} (h_s : StateKeeps κ s₀ s) :
    StateKeeps κ s₀ (substHdrOp h absent all s) := by
  unfold substHdrOp
  extract_lets v245 v246 v247
  have h248 : StateKeeps κ s₀ v246 := by
    apply onDist_keeps
    · intro z249 h250
      apply onCmb_keeps
      with_reducible assumption
    · with_reducible assumption
  clear_value v246
  have h251 : StateKeeps κ s₀ v247 := by
    apply iteState_keeps
    · with_reducible assumption
    · apply iteState_keeps
      · apply foldState_keeps
        · intro z252 z253 h254
          apply portLost_keeps
          with_reducible assumption
        · with_reducible assumption
      · apply iteState_keeps
        · apply portLost_keeps
          with_reducible assumption
        · with_reducible assumption
  clear_value v247
  apply iteState_keeps
  · apply censusAll_keeps
    apply cancelTest_keeps
    with_reducible assumption
  · apply onDist_keeps
    · intro z255 h256
      apply onCmb_keeps
      with_reducible assumption
    · with_reducible assumption

theorem substDataOp_keeps {g : Nat} {q0 : BitVec 16} {pl : List (BitVec 64)} {s : State} (h_s : StateKeeps κ s₀ s) :
    StateKeeps κ s₀ (substDataOp g q0 pl s) := by
  unfold substDataOp
  split
  · extract_lets v257 v258 v259
    have h260 : StateKeeps κ s₀ v257 := by
      apply onDist_keeps
      · intro z261 h262
        apply onCmb_keeps
        with_reducible assumption
      · with_reducible assumption
    clear_value v257
    have h263 : DistKeeps κ s₀ v258 := by
      exact StateKeeps.dist (by assumption)
    clear_value v258
    apply iteState_keeps
    · apply iteState_keeps
      · apply discard_keeps
        with_reducible assumption
      · apply cancelTest_keeps
        apply takeCon_keeps
        with_reducible assumption
    · with_reducible assumption
  · with_reducible assumption

theorem substReqOp_keeps {p0 : Nat} {on : Bool} {s : State} (h_s : StateKeeps κ s₀ s) :
    StateKeeps κ s₀ (substReqOp p0 on s) := by
  unfold substReqOp
  extract_lets v264
  have h265 : StateKeeps κ s₀ v264 := by
    apply onDist_keeps
    · intro z266 h267
      apply onCmb_keeps
      with_reducible assumption
    · with_reducible assumption
  clear_value v264
  apply iteState_keeps
  · with_reducible assumption
  · apply iteState_keeps
    · apply ropeSend_keeps
      with_reducible assumption
    · apply foldState_keeps
      · intro z268 z269 h270
        split
        · apply forwardCon_keeps
          with_reducible assumption
        · apply iteState_keeps
          · with_reducible assumption
          · apply sendAbsent_keeps
            with_reducible assumption
      · with_reducible assumption

theorem resultRecOp_keeps {g : Nat} {q0 : BitVec 16} {op : Nat} {r : CmbCopy} {s : State} (h_s : StateKeeps κ s₀ s) :
    StateKeeps κ s₀ (resultRecOp g q0 op r s) := by
  unfold resultRecOp
  extract_lets v271 v272
  have h273 : StateKeeps κ s₀ v271 := by
    apply iteState_keeps
    · apply onDist_keeps
      · intro z274 h275
        apply setLead_keeps
        with_reducible assumption
      · with_reducible assumption
    · with_reducible assumption
  clear_value v271
  have h276 : StateKeeps κ s₀ v272 := by
    apply ctxBlank_keeps
    with_reducible assumption
  clear_value v272
  apply iteState_keeps
  · with_reducible assumption
  · split
    · apply iteState_keeps
      · with_reducible assumption
      · apply relayDown_keeps
        apply onDist_keeps
        · intro z277 h278
          apply dB_keeps
          · intro z279 h280
            apply inc_keeps
            with_reducible assumption
          · with_reducible assumption
        · with_reducible assumption
    · with_reducible assumption

theorem sendSync_keeps {f : DistState → Nat → BitVec 16} {s : State} (h_s : StateKeeps κ s₀ s) :
    StateKeeps κ s₀ (sendSync f s) := by
  unfold sendSync
  extract_lets v281 v282
  have h283 : DistKeeps κ s₀ v281 := by
    exact StateKeeps.dist (by assumption)
  clear_value v281
  have h284 : StateKeeps κ s₀ v282 := by
    apply foldState_keeps
    · intro z285 z286 h287
      apply ropeSend_keeps
      with_reducible assumption
    · with_reducible assumption
  clear_value v282
  apply ropeSend_keeps
  with_reducible assumption

theorem sendSyncBase_keeps {s : State} (h_s : StateKeeps κ s₀ s) :
    StateKeeps κ s₀ (sendSyncBase s) := by
  unfold sendSyncBase
  apply sendSync_keeps
  apply onDist_keeps
  · intro z288 h289
    apply dB_keeps
    · intro z290 h291
      apply wrF_keeps
      with_reducible assumption
    · with_reducible assumption
  · with_reducible assumption

theorem resilverDone_keeps {s : State} (h_s : StateKeeps κ s₀ s) :
    StateKeeps κ s₀ (resilverDone s) := by
  unfold resilverDone
  extract_lets v292 v293
  have h294 : StateKeeps κ s₀ v293 := by
    apply onDist_keeps
    · intro z295 h296
      apply foldDist_keeps
      · intro z297 z298 h299
        apply iteDist_keeps
        · apply dB_keeps
          · intro z300 h301
            apply wr_keeps
            with_reducible assumption
          · with_reducible assumption
        · with_reducible assumption
      · apply onCmb_keeps
        with_reducible assumption
    · with_reducible assumption
  clear_value v293
  apply logD_keeps
  apply onDist_keeps
  · intro z302 h303
    apply dB_keeps
    · intro z304 h305
      apply pgEvt_keeps
      apply wrB_keeps
      with_reducible assumption
    · with_reducible assumption
  · with_reducible assumption

theorem leadBack_keeps {s : State} (h_s : StateKeeps κ s₀ s) :
    StateKeeps κ s₀ (leadBack s) := by
  unfold leadBack
  extract_lets v306 v307
  have h308 : StateKeeps κ s₀ v307 := by
    apply onDist_keeps
    · intro z309 h310
      apply onCmb_keeps
      with_reducible assumption
    · with_reducible assumption
  clear_value v307
  apply distSettleAll_keeps
  apply logD_keeps
  apply onDist_keeps
  · intro z311 h312
    apply setLead_keeps
    with_reducible assumption
  · with_reducible assumption

theorem syncOp_keeps {g : Nat} {base : BitVec 16} {epoch : BitVec 16} {valid : Bool} {s : State} (h_s : StateKeeps κ s₀ s) :
    StateKeeps κ s₀ (syncOp g base epoch valid s) := by
  unfold syncOp
  extract_lets v313 v314 v315
  have h316 : DistKeeps κ s₀ v313 := by
    exact StateKeeps.dist (by assumption)
  clear_value v313
  have h317 : StateKeeps κ s₀ v315 := by
    apply iteState_keeps
    · apply onDist_keeps
      · intro z318 h319
        apply dB_keeps
        · intro z320 h321
          apply wrF_keeps
          with_reducible assumption
        · with_reducible assumption
      · with_reducible assumption
    · with_reducible assumption
  clear_value v315
  apply iteState_keeps
  · with_reducible assumption
  · apply iteState_keeps
    · apply onDist_keeps
      · intro z322 h323
        apply onCmb_keeps
        with_reducible assumption
      · with_reducible assumption
    · apply iteState_keeps
      · apply resilverDone_keeps
        with_reducible assumption
      · apply leadBack_keeps
        with_reducible assumption

theorem freeContexts_keeps {d : DistState} (h_d : DistKeeps κ s₀ d) :
    DistKeeps κ s₀ (freeContexts d) := by
  unfold freeContexts
  apply onCmb_keeps
  with_reducible assumption

end Sys2Proof.Machine
end

