-- ==== Sys2Proof/Laws/KeepsRefs.lean ====
section
/-! SUPPORT. What the operations of Machine/Refs.lean keep. -/

namespace Sys2Proof.Machine

variable {κ : Bool} {s₀ : State} {b₀ : Base}

theorem onRoot_keeps {f : Root → Root} {s : State} (h_s : StateKeeps κ s₀ s) :
    StateKeeps κ s₀ (onRoot f s) := by
  unfold onRoot
  apply onDist_keeps
  · intro z0 h1
    with_reducible apply dist_mk_keeps
    change DistKeeps κ s₀ _
    with_reducible assumption
  · with_reducible assumption

theorem onSrc_keeps {n : Nat} {f : RefSrc → RefSrc} {s : State} (h_s : StateKeeps κ s₀ s) :
    StateKeeps κ s₀ (onSrc n f s) := by
  unfold onSrc
  apply onRoot_keeps
  with_reducible assumption

theorem setBuildout_keeps {b : Int} {s : State} (h_s : StateKeeps κ s₀ s) :
    StateKeeps κ s₀ (setBuildout b s) := by
  unfold setBuildout
  apply onDist_keeps
  · intro z2 h3
    apply dB_keeps
    · intro z4 h5
      apply wr64_keeps
      with_reducible assumption
    · with_reducible assumption
  · with_reducible assumption

theorem rootWord_keeps {w : Int} {s : State} (h_s : StateKeeps κ s₀ s) :
    StateKeeps κ s₀ (rootWord w s) := by
  unfold rootWord
  extract_lets v6 v7
  apply applyWord_keeps
  apply onRoot_keeps
  with_reducible assumption

theorem noteAge_keeps {s : State} (h_s : StateKeeps κ s₀ s) :
    StateKeeps κ s₀ (noteAge s) := by
  unfold noteAge
  extract_lets v8 v9 v10
  have h11 : StateKeeps κ s₀ v10 := by
    apply iteState_keeps
    · apply onDist_keeps
      · intro z12 h13
        apply dB_keeps
        · intro z14 h15
          apply wr_keeps
          with_reducible assumption
        · with_reducible assumption
      · with_reducible assumption
    · with_reducible assumption
  clear_value v10
  apply iteState_keeps
  · with_reducible assumption
  · apply onDist_keeps
    · intro z16 h17
      apply dB_keeps
      · intro z18 h19
        apply pgEvt_keeps
        apply wrB_keeps
        with_reducible assumption
      · with_reducible assumption
    · with_reducible assumption

theorem rootPins_keeps {d : DistState} (h_d : DistKeeps κ s₀ d) :
    DistKeeps κ s₀ (rootPins d) := by
  unfold rootPins
  extract_lets v20 v21 v22 v23
  have h24 : DistKeeps κ s₀ v22 := by
    apply dB_keeps
    · intro z25 h26
      apply emit_keeps
      apply emit_keeps
      with_reducible assumption
    · with_reducible assumption
  clear_value v22
  with_reducible apply dist_mk_keeps
  change DistKeeps κ s₀ _
  with_reducible assumption

theorem setRoot_keeps {st : Nat} {h : Hap} {s : State} (h_s : StateKeeps κ s₀ s) :
    StateKeeps κ s₀ (setRoot st h s) := by
  unfold setRoot
  extract_lets v27 v28 v29 v30
  have h31 : StateKeeps κ s₀ v28 := by
    apply onDist_keeps
    · intro z32 h33
      apply rootPins_keeps
      apply dB_keeps
      · intro z34 h35
        apply pgEvt_keeps
        apply wr64_keeps
        apply wrF_keeps
        with_reducible assumption
      · with_reducible assumption
    · with_reducible assumption
  clear_value v28
  have h36 : StateKeeps κ s₀ v29 := by
    apply iteState_keeps
    · apply onDist_keeps
      · intro z37 h38
        apply dB_keeps
        · intro z39 h40
          apply pgEvt_keeps
          with_reducible assumption
        · with_reducible assumption
      · with_reducible assumption
    · apply iteState_keeps
      · apply onDist_keeps
        · intro z41 h42
          apply dB_keeps
          · intro z43 h44
            apply pgEvt_keeps
            with_reducible assumption
          · with_reducible assumption
        · with_reducible assumption
      · with_reducible assumption
  clear_value v29
  have h45 : StateKeeps κ s₀ v30 := by
    apply onRoot_keeps
    with_reducible assumption
  clear_value v30
  apply iteState_keeps
  · with_reducible assumption
  · apply logD_keeps
    with_reducible assumption

theorem endSwitch_keeps {s : State} (h_s : StateKeeps κ s₀ s) :
    StateKeeps κ s₀ (endSwitch s) := by
  unfold endSwitch
  apply onRoot_keeps
  apply onDist_keeps
  · intro z46 h47
    apply dB_keeps
    · intro z48 h49
      apply wrF_keeps
      apply wrB_keeps
      with_reducible assumption
    · with_reducible assumption
  · with_reducible assumption

theorem stopRealign_keeps {s : State} (h_s : StateKeeps κ s₀ s) :
    StateKeeps κ s₀ (stopRealign s) := by
  unfold stopRealign
  apply iteState_keeps
  · apply logD_keeps
    apply onDist_keeps
    · intro z50 h51
      apply dB_keeps
      · intro z52 h53
        apply pgEvt_keeps
        apply wrB_keeps
        with_reducible assumption
      · with_reducible assumption
    · with_reducible assumption
  · with_reducible assumption

theorem startSwitch_keeps {n : Nat} {keep : Bool} {s : State} (h_s : StateKeeps κ s₀ s) :
    StateKeeps κ s₀ (startSwitch n keep s) := by
  unfold startSwitch
  extract_lets v54 v55
  have h56 : StateKeeps κ s₀ v54 := by
    apply stopRealign_keeps
    with_reducible assumption
  clear_value v54
  have h57 : StateKeeps κ s₀ v55 := by
    apply iteState_keeps
    · with_reducible assumption
    · apply rootWord_keeps
      with_reducible assumption
  clear_value v55
  apply onRoot_keeps
  apply onDist_keeps
  · intro z58 h59
    apply dB_keeps
    · intro z60 h61
      apply wrF_keeps
      apply wrB_keeps
      with_reducible assumption
    · with_reducible assumption
  · with_reducible assumption

theorem loseRoot_keeps {s : State} (h_s : StateKeeps κ s₀ s) :
    StateKeeps κ s₀ (loseRoot s) := by
  unfold loseRoot
  extract_lets v62 v63 v64 v65 v66 v67 v68 v69 v70 v71
  have h72 : DistKeeps κ s₀ v62 := by
    exact StateKeeps.dist (by assumption)
  clear_value v62
  have h73 : StateKeeps κ s₀ v65 := by
    apply endSwitch_keeps
    apply onDist_keeps
    · intro z74 h75
      apply dB_keeps
      · intro z76 h77
        apply wrF_keeps
        apply wr64_keeps
        with_reducible assumption
      · with_reducible assumption
    · apply stopRealign_keeps
      with_reducible assumption
  clear_value v65
  have h78 : StateKeeps κ s₀ v68 := by
    apply onDist_keeps
    · intro z79 h80
      apply dB_keeps
      · intro z81 h82
        apply wrF_keeps
        apply wrB_keeps
        apply wr_keeps
        with_reducible assumption
      · with_reducible assumption
    · with_reducible assumption
  clear_value v68
  have h83 : StateKeeps κ s₀ v69 := by
    apply iteState_keeps
    · apply logD_keeps
      with_reducible assumption
    · with_reducible assumption
  clear_value v69
  apply iteState_keeps
  · apply setRoot_keeps
    apply rootWord_keeps
    with_reducible assumption
  · apply setRoot_keeps
    apply onRoot_keeps
    with_reducible assumption

theorem noteElig_keeps {n : Nat} {s : State} (h_s : StateKeeps κ s₀ s) :
    StateKeeps κ s₀ (noteElig n s) := by
  unfold noteElig
  extract_lets v84 v85
  have h86 : StateKeeps κ s₀ v85 := by
    apply iteState_keeps
    · apply onDist_keeps
      · intro z87 h88
        apply dB_keeps
        · intro z89 h90
          apply pgEvt_keeps
          with_reducible assumption
        · with_reducible assumption
      · with_reducible assumption
    · with_reducible assumption
  clear_value v85
  apply onSrc_keeps
  with_reducible assumption

theorem choose_keeps {s : State} (h_s : StateKeeps κ s₀ s) :
    StateKeeps κ s₀ (choose s) := by
  unfold choose
  extract_lets v91 v92 v93 v94 v95
  have h96 : DistKeeps κ s₀ v91 := by
    exact StateKeeps.dist (by assumption)
  clear_value v91
  have h97 : StateKeeps κ s₀ v94 := by
    apply logD_keeps
    apply endSwitch_keeps
    with_reducible assumption
  clear_value v94
  apply iteState_keeps
  · apply iteState_keeps
    · with_reducible assumption
    · split
      · apply startSwitch_keeps
        with_reducible assumption
      · apply loseRoot_keeps
        with_reducible assumption
  · apply iteState_keeps
    · split
      · apply startSwitch_keeps
        apply setRoot_keeps
        with_reducible assumption
      · with_reducible assumption
    · split
      · apply iteState_keeps
        · apply startSwitch_keeps
          with_reducible assumption
        · apply iteState_keeps
          · apply startSwitch_keeps
            with_reducible assumption
          · with_reducible assumption
      · apply iteState_keeps
        · apply loseRoot_keeps
          with_reducible assumption
        · with_reducible assumption

theorem reselect_keeps {s : State} (h_s : StateKeeps κ s₀ s) :
    StateKeeps κ s₀ (reselect s) := by
  unfold reselect
  apply choose_keeps
  apply foldState_keeps
  · intro z98 z99 h100
    apply noteElig_keeps
    with_reducible assumption
  · with_reducible assumption

theorem disqualify_keeps {n : Nat} {cause : Nat} {s : State} (h_s : StateKeeps κ s₀ s) :
    StateKeeps κ s₀ (disqualify n cause s) := by
  unfold disqualify
  extract_lets v101 v102 v103
  have h104 : StateKeeps κ s₀ v101 := by
    apply onSrc_keeps
    with_reducible assumption
  clear_value v101
  have h105 : StateKeeps κ s₀ v103 := by
    apply onDist_keeps
    · intro z106 h107
      apply dB_keeps
      · intro z108 h109
        apply pgEvt_keeps
        apply iteBase_keeps
        · apply inc_keeps
          with_reducible assumption
        · with_reducible assumption
      · with_reducible assumption
    · with_reducible assumption
  clear_value v103
  apply iteState_keeps
  · apply reselect_keeps
    apply onDist_keeps
    · intro z110 h111
      apply dB_keeps
      · intro z112 h113
        apply emit_keeps
        with_reducible assumption
      · with_reducible assumption
    · with_reducible assumption
  · with_reducible assumption

theorem failMonitor_keeps {n : Nat} {cause : Nat} {h : Hap} {was : Bool} {f : RefSrc → RefSrc} {s : State} (h_s : StateKeeps κ s₀ s) :
    StateKeeps κ s₀ (failMonitor n cause h was f s) := by
  unfold failMonitor
  extract_lets v114
  have h115 : StateKeeps κ s₀ v114 := by
    apply onSrc_keeps
    with_reducible assumption
  clear_value v114
  apply disqualify_keeps
  apply iteState_keeps
  · apply logD_keeps
    with_reducible assumption
  · with_reducible assumption

theorem restartSrc_keeps {n : Nat} {s : State} (h_s : StateKeeps κ s₀ s) :
    StateKeeps κ s₀ (restartSrc n s) := by
  unfold restartSrc
  apply onSrc_keeps
  apply disqualify_keeps
  with_reducible assumption

theorem ppsPulse_keeps {s : State} (h_s : StateKeeps κ s₀ s) :
    StateKeeps κ s₀ (ppsPulse s) := by
  unfold ppsPulse
  extract_lets v116 v117
  have h119 : Keeps κ s₀.dist.base v116 := by
    exact StateKeeps.dist (by assumption)
  clear_value v116
  have h120 : StateKeeps κ s₀ v117 := by
    apply onDist_keeps
    · intro z121 h122
      apply dB_keeps
      · intro z123 h124
        apply pgEvt_keeps
        with_reducible assumption
      · with_reducible assumption
    · with_reducible assumption
  clear_value v117
  apply iteState_keeps
  · apply onRoot_keeps
    apply onDist_keeps
    · intro z125 h126
      apply dB_keeps
      · intro z127 h128
        apply emit_keeps
        with_reducible assumption
      · with_reducible assumption
    · with_reducible assumption
  · with_reducible assumption

theorem windowMove_keeps {load : BitVec 64} {b : Base} (h_b : Keeps κ b₀ b) :
    Keeps κ b₀ (windowMove load b) := by
  unfold windowMove
  split
  · extract_lets v129
    apply iteBase_keeps
    · apply pgEvt_keeps
      apply wr64_keeps
      with_reducible apply base_mk_keeps
      with_reducible assumption
    · with_reducible assumption
  · with_reducible assumption

theorem rebaseSrc_keeps {psi : Int} {n : Nat} {s : State} (h_s : StateKeeps κ s₀ s) :
    StateKeeps κ s₀ (rebaseSrc psi n s) := by
  unfold rebaseSrc
  extract_lets v130
  have h131 : StateKeeps κ s₀ v130 := by
    apply onSrc_keeps
    with_reducible assumption
  clear_value v130
  apply iteState_keeps
  · with_reducible assumption
  · apply onDist_keeps
    · intro z132 h133
      apply dB_keeps
      · intro z134 h135
        apply wr64_keeps
        with_reducible assumption
      · with_reducible assumption
    · with_reducible assumption

theorem epochTake_keeps {s : State} (h_s : StateKeeps false s₀ s) :
    StateKeeps false s₀ (epochTake s) := by
  unfold epochTake
  extract_lets v136 v137 v138 v139 v140 v141 v142 v143
  have h144 : StateKeeps false s₀ v137 := by
    apply foldState_keeps
    · intro z145 z146 h147
      apply rebaseSrc_keeps
      with_reducible assumption
    · with_reducible assumption
  clear_value v137
  have h148 : StateKeeps false s₀ v138 := by
    apply onRoot_keeps
    with_reducible assumption
  clear_value v138
  have h150 : Keeps false s₀.dist.base v139 := by
    exact StateKeeps.dist (by assumption)
  clear_value v139
  have h151 : StateKeeps false s₀ v142 := by
    apply onDist_keeps
    · intro z152 h153
      apply dB_keeps
      · intro z154 h155
        extract_lets v156
        have h158 : Keeps false s₀.dist.base v156 := by
          apply windowMove_keeps
          with_reducible assumption
        clear_value v156
        with_reducible apply base_set_keeps
        with_reducible assumption
      · with_reducible assumption
    · with_reducible assumption
  clear_value v142
  have h159 : StateKeeps false s₀ v143 := by
    apply onDist_keeps
    · intro z160 h161
      apply dB_keeps
      · intro z162 h163
        apply pgEvt_keeps
        apply wrB_keeps
        apply wrB_keeps
        apply wrF_keeps
        apply wr64_keeps
        with_reducible assumption
      · with_reducible assumption
    · with_reducible assumption
  clear_value v143
  apply ppsPulse_keeps
  apply onRoot_keeps
  with_reducible assumption

theorem rootServo_keeps {n : Nat} {phi : Int} {s : State} (h_s : StateKeeps κ s₀ s) :
    StateKeeps κ s₀ (rootServo n phi s) := by
  unfold rootServo
  extract_lets v164 v165 v166 v167 v168 v169 v170 v171
  have h172 : StateKeeps κ s₀ v169 := by
    apply onRoot_keeps
    with_reducible assumption
  clear_value v169
  have h173 : StateKeeps κ s₀ v170 := by
    apply onDist_keeps
    · intro z174 h175
      apply dB_keeps
      · intro z176 h177
        apply wrB_keeps
        apply wr_keeps
        apply draw_keeps
        with_reducible assumption
      · with_reducible assumption
    · with_reducible assumption
  clear_value v170
  apply rootWord_keeps
  with_reducible assumption

theorem refMark_keeps {n : Nat} {phi : Int} {s : State} (h_s : StateKeeps κ s₀ s) :
    StateKeeps κ s₀ (refMark n phi s) := by
  unfold refMark
  extract_lets v178 v179 v180 v181 v182 v183 v184 v185
  have h186 : DistKeeps κ s₀ v178 := by
    exact StateKeeps.dist (by assumption)
  clear_value v178
  have h187 : StateKeeps κ s₀ v184 := by
    apply onDist_keeps
    · intro z188 h189
      apply dB_keeps
      · intro z190 h191
        apply wr64_keeps
        apply draw_keeps
        with_reducible assumption
      · with_reducible assumption
    · with_reducible assumption
  clear_value v184
  have h192 : StateKeeps κ s₀ v185 := by
    apply onSrc_keeps
    with_reducible assumption
  clear_value v185
  apply iteState_keeps
  · apply failMonitor_keeps
    with_reducible assumption
  · apply iteState_keeps
    · apply iteState_keeps
      · apply onRoot_keeps
        with_reducible assumption
      · with_reducible assumption
    · apply iteState_keeps
      · apply rootServo_keeps
        with_reducible assumption
      · with_reducible assumption

theorem refMarkOp_keeps {n : Nat} {falling : Bool} {frac : Nat} {s : State} (h_s : StateKeeps false s₀ s) :
    StateKeeps false s₀ (refMarkOp n falling frac s) := by
  unfold refMarkOp
  extract_lets v193
  have h194 : DistKeeps false s₀ v193 := by
    exact StateKeeps.dist (by assumption)
  clear_value v193
  apply iteState_keeps
  · with_reducible assumption
  · apply iteState_keeps
    · apply onRoot_keeps
      apply setBuildout_keeps
      apply epochTake_keeps
      apply refMark_keeps
      with_reducible assumption
    · apply refMark_keeps
      with_reducible assumption

theorem commitOp_keeps {s : State} (h_s : StateKeeps κ s₀ s) :
    StateKeeps κ s₀ (commitOp s) := by
  unfold commitOp
  extract_lets v195 v196 v197 v198 v199 v200 v201
  have h202 : DistKeeps κ s₀ v195 := by
    exact StateKeeps.dist (by assumption)
  clear_value v195
  have h203 : StateKeeps κ s₀ v199 := by
    apply endSwitch_keeps
    apply setBuildout_keeps
    with_reducible assumption
  clear_value v199
  have h204 : StateKeeps κ s₀ v200 := by
    apply onDist_keeps
    · intro z205 h206
      apply dB_keeps
      · intro z207 h208
        apply pgEvt_keeps
        apply inc_keeps
        apply wrF_keeps
        with_reducible assumption
      · with_reducible assumption
    · with_reducible assumption
  clear_value v200
  have h209 : StateKeeps κ s₀ v201 := by
    apply onRoot_keeps
    with_reducible assumption
  clear_value v201
  apply iteState_keeps
  · apply logD_keeps
    with_reducible assumption
  · with_reducible assumption

theorem afterCommit_keeps {s : State} (h_s : StateKeeps κ s₀ s) :
    StateKeeps κ s₀ (afterCommit s) := by
  unfold afterCommit
  split
  · apply iteState_keeps
    · apply choose_keeps
      apply onRoot_keeps
      with_reducible assumption
    · with_reducible assumption
  · with_reducible assumption

theorem realignOp_keeps {s : State} (h_s : StateKeeps κ s₀ s) :
    StateKeeps κ s₀ (realignOp s) := by
  unfold realignOp
  extract_lets v210
  have h211 : DistKeeps κ s₀ v210 := by
    exact StateKeeps.dist (by assumption)
  clear_value v210
  apply iteState_keeps
  · apply logD_keeps
    with_reducible assumption
  · apply onDist_keeps
    · intro z212 h213
      apply dB_keeps
      · intro z214 h215
        apply wrB_keeps
        with_reducible assumption
      · with_reducible assumption
    · with_reducible assumption

theorem voteSrc_keeps {n : Nat} {soft : Bool} {hard : Bool} {s : State} (h_s : StateKeeps κ s₀ s) :
    StateKeeps κ s₀ (voteSrc n soft hard s) := by
  unfold voteSrc
  extract_lets v216 v217 v218
  have h219 : StateKeeps κ s₀ v217 := by
    apply onSrc_keeps
    with_reducible assumption
  clear_value v217
  have h220 : StateKeeps κ s₀ v218 := by
    apply iteState_keeps
    · apply logD_keeps
      apply onDist_keeps
      · intro z221 h222
        apply dB_keeps
        · intro z223 h224
          apply pgEvt_keeps
          with_reducible assumption
        · with_reducible assumption
      · with_reducible assumption
    · with_reducible assumption
  clear_value v218
  apply iteState_keeps
  · apply failMonitor_keeps
    with_reducible assumption
  · apply iteState_keeps
    · with_reducible assumption
    · apply onSrc_keeps
      with_reducible assumption

theorem driftVote_keeps {s : State} (h_s : StateKeeps κ s₀ s) :
    StateKeeps κ s₀ (driftVote s) := by
  unfold driftVote
  extract_lets v225 v226 v227 v228 v229 v230 v231 v232 v233 v234 v235 v236 v237 v238 v239
  have h240 : DistKeeps κ s₀ v225 := by
    exact StateKeeps.dist (by assumption)
  clear_value v225
  have h241 : StateKeeps κ s₀ v235 := by
    apply onDist_keeps
    · intro z242 h243
      apply dB_keeps
      · intro z244 h245
        apply wr_keeps
        with_reducible assumption
      · with_reducible assumption
    · with_reducible assumption
  clear_value v235
  have h246 : ∀ z0, StateKeeps κ s₀ z0 → StateKeeps κ s₀ (v236 z0) := by
    intro z247 h248
    dsimp only [v236]
    apply onDist_keeps
    · intro z249 h250
      apply dB_keeps
      · intro z251 h252
        apply pgEvt_keeps
        with_reducible assumption
      · with_reducible assumption
    · with_reducible assumption
  clear_value v236
  have h253 : StateKeeps κ s₀ v237 := by
    apply iteState_keeps
    · apply logD_keeps
      apply h246
      with_reducible assumption
    · with_reducible assumption
  clear_value v237
  have h254 : StateKeeps κ s₀ v238 := by
    apply iteState_keeps
    · apply logD_keeps
      apply h246
      with_reducible assumption
    · with_reducible assumption
  clear_value v238
  have h255 : StateKeeps κ s₀ v239 := by
    apply onRoot_keeps
    with_reducible assumption
  clear_value v239
  apply foldState_keeps
  · intro z256 z257 h258
    apply voteSrc_keeps
    with_reducible assumption
  · with_reducible assumption

theorem freqMonitor_keeps {n : Nat} {count : Nat} {s : State} (h_s : StateKeeps κ s₀ s) :
    StateKeeps κ s₀ (freqMonitor n count s) := by
  unfold freqMonitor
  extract_lets v259 v260 v261 v262 v263 v264 v265
  have h266 : DistKeeps κ s₀ v259 := by
    exact StateKeeps.dist (by assumption)
  clear_value v259
  have h267 : StateKeeps κ s₀ v264 := by
    apply onDist_keeps
    · intro z268 h269
      apply dB_keeps
      · intro z270 h271
        apply wr_keeps
        with_reducible assumption
      · with_reducible assumption
    · with_reducible assumption
  clear_value v264
  have h272 : StateKeeps κ s₀ v265 := by
    apply onSrc_keeps
    with_reducible assumption
  clear_value v265
  apply iteState_keeps
  · apply iteState_keeps
    · apply iteState_keeps
      · apply failMonitor_keeps
        with_reducible assumption
      · apply onSrc_keeps
        with_reducible assumption
    · apply onSrc_keeps
      with_reducible assumption
  · with_reducible assumption

theorem recordSecond_keeps {elapsed : Nat} {s : State} (h_s : StateKeeps κ s₀ s) :
    StateKeeps κ s₀ (recordSecond elapsed s) := by
  unfold recordSecond
  extract_lets v273 v274 v275 v276
  apply onRoot_keeps
  with_reducible assumption

theorem lockCheck_keeps {s : State} (h_s : StateKeeps κ s₀ s) :
    StateKeeps κ s₀ (lockCheck s) := by
  unfold lockCheck
  extract_lets v277 v278 v279 v280 v281 v282 v283 v284
  have h285 : DistKeeps κ s₀ v277 := by
    exact StateKeeps.dist (by assumption)
  clear_value v277
  have h286 : StateKeeps κ s₀ v282 := by
    apply onRoot_keeps
    with_reducible assumption
  clear_value v282
  have h287 : StateKeeps κ s₀ v284 := by
    apply onRoot_keeps
    with_reducible assumption
  clear_value v284
  apply iteState_keeps
  · with_reducible assumption
  · apply iteState_keeps
    · apply iteState_keeps
      · apply setRoot_keeps
        with_reducible assumption
      · with_reducible assumption
    · apply iteState_keeps
      · apply iteState_keeps
        · apply setRoot_keeps
          with_reducible assumption
        · with_reducible assumption
      · with_reducible assumption

theorem serveSrc_keeps {n : Nat} {s : State} (h_s : StateKeeps κ s₀ s) :
    StateKeeps κ s₀ (serveSrc n s) := by
  unfold serveSrc
  extract_lets v288
  apply onSrc_keeps
  with_reducible assumption

theorem holdSecond_keeps {s : State} (h_s : StateKeeps κ s₀ s) :
    StateKeeps κ s₀ (holdSecond s) := by
  unfold holdSecond
  extract_lets v289 v290 v291 v292 v293 v294
  have h295 : DistKeeps κ s₀ v289 := by
    exact StateKeeps.dist (by assumption)
  clear_value v289
  have h296 : StateKeeps κ s₀ v294 := by
    apply onDist_keeps
    · intro z297 h298
      apply dB_keeps
      · intro z299 h300
        apply incF_keeps
        with_reducible assumption
      · with_reducible assumption
    · with_reducible assumption
  clear_value v294
  apply iteState_keeps
  · apply rootWord_keeps
    with_reducible assumption
  · with_reducible assumption

theorem realignSecond_keeps {s : State} (h_s : StateKeeps κ s₀ s) :
    StateKeeps κ s₀ (realignSecond s) := by
  unfold realignSecond
  extract_lets v301 v302 v303 v304
  have h305 : DistKeeps κ s₀ v301 := by
    exact StateKeeps.dist (by assumption)
  clear_value v301
  have h306 : StateKeeps κ s₀ v304 := by
    apply setBuildout_keeps
    with_reducible assumption
  clear_value v304
  apply iteState_keeps
  · apply iteState_keeps
    · apply logD_keeps
      apply onDist_keeps
      · intro z307 h308
        apply dB_keeps
        · intro z309 h310
          apply pgEvt_keeps
          apply wrB_keeps
          with_reducible assumption
        · with_reducible assumption
      · with_reducible assumption
    · with_reducible assumption
  · with_reducible assumption

theorem rootSecond_keeps {c0 : Nat} {c1 : Nat} {c2 : Nat} {c3 : Nat} {elapsed : Nat} {s : State} (h_s : StateKeeps κ s₀ s) :
    StateKeeps κ s₀ (rootSecond c0 c1 c2 c3 elapsed s) := by
  unfold rootSecond
  extract_lets v311 v312 v313 v314 v315
  have h316 : StateKeeps κ s₀ v311 := by
    apply freqMonitor_keeps
    apply freqMonitor_keeps
    apply freqMonitor_keeps
    apply freqMonitor_keeps
    with_reducible assumption
  clear_value v311
  have h317 : StateKeeps κ s₀ v312 := by
    apply recordSecond_keeps
    with_reducible assumption
  clear_value v312
  have h318 : StateKeeps κ s₀ v313 := by
    apply lockCheck_keeps
    with_reducible assumption
  clear_value v313
  have h319 : StateKeeps κ s₀ v314 := by
    apply foldState_keeps
    · intro z320 z321 h322
      apply serveSrc_keeps
      with_reducible assumption
    · with_reducible assumption
  clear_value v314
  have h323 : StateKeeps κ s₀ v315 := by
    apply driftVote_keeps
    apply noteAge_keeps
    with_reducible assumption
  clear_value v315
  apply reselect_keeps
  apply realignSecond_keeps
  apply holdSecond_keeps
  with_reducible assumption

theorem ifRoot_keeps {f : State → State} {s : State} (h_f : ∀  z, StateKeeps κ s₀ z → StateKeeps κ s₀ (f z)) (h_s : StateKeeps κ s₀ s) :
    StateKeeps κ s₀ (ifRoot f s) := by
  unfold ifRoot
  apply iteState_keeps
  · apply ifDistRuns_keeps
    · with_reducible assumption
    · with_reducible assumption
  · with_reducible assumption

theorem frmoutEnd_keeps {d : DistState} (h_d : DistKeeps κ s₀ d) :
    DistKeeps κ s₀ (frmoutEnd d) := by
  unfold frmoutEnd
  split
  · extract_lets v324
    apply iteDist_keeps
    · apply dB_keeps
      · intro z325 h326
        apply emit_keeps
        with_reducible assumption
      · with_reducible apply dist_mk_keeps
        change DistKeeps κ s₀ _
        with_reducible assumption
    · with_reducible assumption
  · with_reducible assumption

end Sys2Proof.Machine
end

