-- ==== Sys2Proof/Laws/KeepsPtp.lean ====
section
/-! SUPPORT. What the operations of Machine/Ptp.lean keep. -/

namespace Sys2Proof.Machine

variable {κ : Bool} {s₀ : State} {b₀ : Base}

theorem onPtp_keeps {f : Ptp → Ptp} {s : State} (h_s : StateKeeps κ s₀ s) :
    StateKeeps κ s₀ (onPtp f s) := by
  unfold onPtp
  apply onDist_keeps
  · intro z0 h1
    with_reducible apply dist_mk_keeps
    change DistKeeps κ s₀ _
    with_reducible assumption
  · with_reducible assumption

theorem ptpDiscard_keeps {s : State} (h_s : StateKeeps κ s₀ s) :
    StateKeeps κ s₀ (ptpDiscard s) := by
  unfold ptpDiscard
  apply onDist_keeps
  · intro z2 h3
    apply dB_keeps
    · intro z4 h5
      apply incF_keeps
      with_reducible assumption
    · with_reducible assumption
  · with_reducible assumption

theorem chooseMaster_keeps {s : State} (h_s : StateKeeps κ s₀ s) :
    StateKeeps κ s₀ (chooseMaster s) := by
  unfold chooseMaster
  extract_lets v6 v7 v8 v9
  have h10 : StateKeeps κ s₀ v8 := by
    apply onPtp_keeps
    with_reducible assumption
  clear_value v8
  apply iteState_keeps
  · with_reducible assumption
  · apply onDist_keeps
    · intro z11 h12
      apply dB_keeps
      · intro z13 h14
        apply pgEvt_keeps
        apply wr_keeps
        apply wr64_keeps
        with_reducible assumption
      · with_reducible assumption
    · with_reducible assumption

theorem announceOp_keeps {h : PtpHdr} {a : PtpAnn} {s : State} (h_s : StateKeeps κ s₀ s) :
    StateKeeps κ s₀ (announceOp h a s) := by
  unfold announceOp
  extract_lets v15 v16
  have h17 : StateKeeps κ s₀ v16 := by
    apply onDist_keeps
    · intro z18 h19
      apply dB_keeps
      · intro z20 h21
        apply inc_keeps
        with_reducible assumption
      · with_reducible assumption
    · with_reducible assumption
  clear_value v16
  apply iteState_keeps
  · apply ptpDiscard_keeps
    with_reducible assumption
  · apply chooseMaster_keeps
    apply onPtp_keeps
    with_reducible assumption

theorem syncDone_keeps {t1 : Int} {t2 : Int} {corr : Int} {s : State} (h_s : StateKeeps κ s₀ s) :
    StateKeeps κ s₀ (syncDone t1 t2 corr s) := by
  unfold syncDone
  apply onSrc_keeps
  apply onPtp_keeps
  with_reducible assumption

theorem ptpSyncOp_keeps {h : PtpHdr} {twoStep : Bool} {origin : PtpTime} {s : State} (h_s : StateKeeps κ s₀ s) :
    StateKeeps κ s₀ (ptpSyncOp h twoStep origin s) := by
  unfold ptpSyncOp
  extract_lets v22 v23 v24 v25 v26
  have h28 : Keeps κ s₀.dist.base v23 := by
    exact StateKeeps.dist (by assumption)
  clear_value v23
  have h29 : StateKeeps κ s₀ v25 := by
    apply onDist_keeps
    · intro z30 h31
      apply dB_keeps
      · intro z32 h33
        apply wrF_keeps
        apply inc_keeps
        with_reducible assumption
      · with_reducible assumption
    · with_reducible assumption
  clear_value v25
  have h34 : StateKeeps κ s₀ v26 := by
    apply onPtp_keeps
    with_reducible assumption
  clear_value v26
  apply iteState_keeps
  · apply ptpDiscard_keeps
    with_reducible assumption
  · apply iteState_keeps
    · apply iteState_keeps
      · apply onPtp_keeps
        with_reducible assumption
      · apply syncDone_keeps
        with_reducible assumption
    · with_reducible assumption

theorem followUpOp_keeps {h : PtpHdr} {origin : PtpTime} {s : State} (h_s : StateKeeps κ s₀ s) :
    StateKeeps κ s₀ (followUpOp h origin s) := by
  unfold followUpOp
  apply iteState_keeps
  · apply ptpDiscard_keeps
    with_reducible assumption
  · apply iteState_keeps
    · split
      · apply iteState_keeps
        · apply syncDone_keeps
          with_reducible assumption
        · with_reducible assumption
      · with_reducible assumption
    · with_reducible assumption

theorem delayReqOp_keeps {s : State} (h_s : StateKeeps κ s₀ s) :
    StateKeeps κ s₀ (delayReqOp s) := by
  unfold delayReqOp
  extract_lets v35 v36 v37 v38 v39 v40
  have h42 : Keeps κ s₀.dist.base v36 := by
    exact StateKeeps.dist (by assumption)
  clear_value v36
  have h43 : StateKeeps κ s₀ v40 := by
    apply onPtp_keeps
    with_reducible assumption
  clear_value v40
  apply iteState_keeps
  · apply onDist_keeps
    · intro z44 h45
      apply dB_keeps
      · intro z46 h47
        apply inc_keeps
        apply emit_keeps
        with_reducible assumption
      · with_reducible assumption
    · with_reducible assumption
  · with_reducible assumption

theorem delayRespOp_keeps {h : PtpHdr} {rx : PtpTime} {mine : Bool} {s : State} (h_s : StateKeeps κ s₀ s) :
    StateKeeps κ s₀ (delayRespOp h rx mine s) := by
  unfold delayRespOp
  extract_lets v48
  apply iteState_keeps
  · apply ptpDiscard_keeps
    with_reducible assumption
  · apply iteState_keeps
    · split
      · extract_lets v49 v50 v51
        have h52 : StateKeeps κ s₀ v51 := by
          apply onPtp_keeps
          with_reducible assumption
        clear_value v51
        apply iteState_keeps
        · apply onDist_keeps
          · intro z53 h54
            apply dB_keeps
            · intro z55 h56
              apply inc_keeps
              apply wr_keeps
              with_reducible assumption
            · with_reducible assumption
          · with_reducible assumption
        · with_reducible assumption
      · with_reducible assumption
    · with_reducible assumption

theorem activityOp_keeps {s : State} (h_s : StateKeeps κ s₀ s) :
    StateKeeps κ s₀ (activityOp s) := by
  unfold activityOp
  extract_lets v57 v58 v59 v60 v61
  have h62 : StateKeeps κ s₀ v61 := by
    apply onPtp_keeps
    with_reducible assumption
  clear_value v61
  split
  · extract_lets v63 v64
    have h65 : StateKeeps κ s₀ v64 := by
      apply iteState_keeps
      · apply failMonitor_keeps
        with_reducible assumption
      · with_reducible assumption
    clear_value v64
    apply chooseMaster_keeps
    with_reducible assumption
  · with_reducible assumption

theorem ptpSecond_keeps {s : State} (h_s : StateKeeps κ s₀ s) :
    StateKeeps κ s₀ (ptpSecond s) := by
  unfold ptpSecond
  split
  · extract_lets v66 v67
    apply iteState_keeps
    · apply refMark_keeps
      apply onPtp_keeps
      with_reducible assumption
    · with_reducible assumption
  · with_reducible assumption

theorem ptpRestart_keeps {s : State} (h_s : StateKeeps κ s₀ s) :
    StateKeeps κ s₀ (ptpRestart s) := by
  unfold ptpRestart
  extract_lets v68
  have h69 : StateKeeps κ s₀ v68 := by
    apply failMonitor_keeps
    with_reducible assumption
  clear_value v68
  apply restartSrc_keeps
  apply chooseMaster_keeps
  apply onPtp_keeps
  with_reducible assumption

theorem secondOp_keeps {c0 : Nat} {c1 : Nat} {c2 : Nat} {c3 : Nat} {s : State} (h_s : StateKeeps κ s₀ s) :
    StateKeeps κ s₀ (secondOp c0 c1 c2 c3 s) := by
  unfold secondOp
  extract_lets v70 v71 v72
  have h73 : DistKeeps κ s₀ v70 := by
    exact StateKeeps.dist (by assumption)
  clear_value v70
  have h74 : StateKeeps κ s₀ v72 := by
    apply ppsPulse_keeps
    apply onRoot_keeps
    with_reducible assumption
  clear_value v72
  apply iteState_keeps
  · apply iteState_keeps
    · apply rootSecond_keeps
      apply ptpSecond_keeps
      with_reducible assumption
    · with_reducible assumption
  · with_reducible assumption

theorem ifPtp_keeps {f : State → State} {s : State} (h_f : ∀  z, StateKeeps κ s₀ z → StateKeeps κ s₀ (f z)) (h_s : StateKeeps κ s₀ s) :
    StateKeeps κ s₀ (ifPtp f s) := by
  unfold ifPtp
  apply ifRoot_keeps
  · intro z75 h76
    apply iteState_keeps
    · apply h_f
      with_reducible assumption
    · with_reducible assumption
  · with_reducible assumption

theorem ifDistCounts_keeps {f : State → State} {s : State} (h_f : ∀  z, StateKeeps κ s₀ z → StateKeeps κ s₀ (f z)) (h_s : StateKeeps κ s₀ s) :
    StateKeeps κ s₀ (ifDistCounts f s) := by
  unfold ifDistCounts
  apply iteState_keeps
  · with_reducible assumption
  · apply ifDist_keeps
    · with_reducible assumption
    · with_reducible assumption

end Sys2Proof.Machine
end

