-- ==== Sys2Proof/Laws/KeepsCalib.lean ====
section
/-! SUPPORT. What the operations of Machine/Calib.lean keep. -/

namespace Sys2Proof.Machine

variable {κ : Bool} {s₀ : State} {b₀ : Base}

theorem onCal_keeps {f : Calib → Calib} {s : State} (h_s : StateKeeps κ s₀ s) :
    StateKeeps κ s₀ (onCal f s) := by
  unfold onCal
  apply onDist_keeps
  · intro z0 h1
    with_reducible apply dist_mk_keeps
    change DistKeeps κ s₀ _
    with_reducible assumption
  · with_reducible assumption

theorem calUnsolved_keeps {n : Nat} {s : State} (h_s : StateKeeps κ s₀ s) :
    StateKeeps κ s₀ (calUnsolved n s) := by
  unfold calUnsolved
  extract_lets v2
  apply iteState_keeps
  · with_reducible assumption
  · apply onDist_keeps
    · intro z3 h4
      apply dB_keeps
      · intro z5 h6
        apply wrF_keeps
        with_reducible assumption
      · with_reducible assumption
    · with_reducible assumption

theorem calMove_keeps {n : Nat} {goal : Int} {s : State} (h_s : StateKeeps κ s₀ s) :
    StateKeeps κ s₀ (calMove n goal s) := by
  unfold calMove
  extract_lets v7 v8 v9 v10 v11
  have h12 : StateKeeps κ s₀ v7 := by
    apply calUnsolved_keeps
    with_reducible assumption
  clear_value v7
  have h13 : StateKeeps κ s₀ v11 := by
    apply onDist_keeps
    · intro z14 h15
      apply dB_keeps
      · intro z16 h17
        apply wrB_keeps
        apply wrF_keeps
        with_reducible assumption
      · with_reducible assumption
    · with_reducible assumption
  clear_value v11
  apply iteState_keeps
  · with_reducible assumption
  · apply onDist_keeps
    · intro z18 h19
      apply dB_keeps
      · intro z20 h21
        apply pgEvt_keeps
        with_reducible assumption
      · with_reducible assumption
    · with_reducible assumption

theorem calRank_keeps {s : State} (h_s : StateKeeps κ s₀ s) :
    StateKeeps κ s₀ (calRank s) := by
  unfold calRank
  apply iteState_keeps
  · with_reducible assumption
  · apply logD_keeps
    apply onDist_keeps
    · intro z22 h23
      apply dB_keeps
      · intro z24 h25
        apply pgEvt_keeps
        apply wrB_keeps
        with_reducible assumption
      · with_reducible assumption
    · with_reducible assumption

theorem calApply_keeps {au : Int} {ar : Int} {s : State} (h_s : StateKeeps κ s₀ s) :
    StateKeeps κ s₀ (calApply au ar s) := by
  unfold calApply
  extract_lets v26 v27 v28 v29
  have h30 : DistKeeps κ s₀ v26 := by
    exact StateKeeps.dist (by assumption)
  clear_value v26
  have h31 : StateKeeps κ s₀ v29 := by
    apply calMove_keeps
    apply calMove_keeps
    with_reducible assumption
  clear_value v29
  apply iteState_keeps
  · with_reducible assumption
  · apply calMove_keeps
    with_reducible assumption

theorem calSolve_keeps {s : State} (h_s : StateKeeps κ s₀ s) :
    StateKeeps κ s₀ (calSolve s) := by
  unfold calSolve
  extract_lets v32 v33 v34 v35 v36 v37 v38 v39 v40
  have h41 : StateKeeps κ s₀ v32 := by
    apply foldState_keeps
    · intro z42 z43 h44
      apply calUnsolved_keeps
      with_reducible assumption
    · with_reducible assumption
  clear_value v32
  have h45 : DistKeeps κ s₀ v33 := by
    exact StateKeeps.dist (by assumption)
  clear_value v33
  have h46 : StateKeeps κ s₀ v34 := by
    apply onDist_keeps
    · intro z47 h48
      apply dB_keeps
      · intro z49 h50
        apply wrB_keeps
        apply wrB_keeps
        with_reducible assumption
      · with_reducible assumption
    · with_reducible assumption
  clear_value v34
  have h51 : StateKeeps κ s₀ v37 := by
    apply onDist_keeps
    · intro z52 h53
      apply dB_keeps
      · intro z54 h55
        apply inc_keeps
        with_reducible assumption
      · with_reducible assumption
    · with_reducible assumption
  clear_value v37
  have h56 : ∀ z0, StateKeeps κ s₀ z0 → StateKeeps κ s₀ (v38 z0) := by
    intro z57 h58
    dsimp only [v38]
    apply onDist_keeps
    · intro z59 h60
      apply dB_keeps
      · intro z61 h62
        apply wrB_keeps
        with_reducible assumption
      · with_reducible assumption
    · with_reducible assumption
  clear_value v38
  have h63 : StateKeeps κ s₀ v40 := by
    apply onDist_keeps
    · intro z64 h65
      apply dB_keeps
      · intro z66 h67
        apply wr_keeps
        with_reducible assumption
      · with_reducible assumption
    · apply h56
      with_reducible assumption
  clear_value v40
  split
  · apply calRank_keeps
    with_reducible assumption
  · extract_lets v68 v69 v70 v71 v72 v73
    have h74 : StateKeeps κ s₀ v73 := by
      apply onDist_keeps
      · intro z75 h76
        apply dB_keeps
        · intro z77 h78
          apply wr_keeps
          with_reducible assumption
        · with_reducible assumption
      · apply h56
        with_reducible assumption
    clear_value v73
    apply iteState_keeps
    · apply iteState_keeps
      · apply logD_keeps
        apply onDist_keeps
        · intro z79 h80
          apply dB_keeps
          · intro z81 h82
            apply pgEvt_keeps
            apply wrB_keeps
            with_reducible assumption
          · with_reducible assumption
        · with_reducible assumption
      · apply calApply_keeps
        with_reducible assumption
    · apply iteState_keeps
      · apply iteState_keeps
        · apply calApply_keeps
          with_reducible assumption
        · apply iteState_keeps
          · apply calApply_keeps
            with_reducible assumption
          · apply calApply_keeps
            with_reducible assumption
      · apply calRank_keeps
        with_reducible assumption

theorem calNote_keeps {s : State} (h_s : StateKeeps κ s₀ s) :
    StateKeeps κ s₀ (calNote s) := by
  unfold calNote
  extract_lets v83 v84 v85 v86
  have h87 : DistKeeps κ s₀ v83 := by
    exact StateKeeps.dist (by assumption)
  clear_value v83
  apply onDist_keeps
  · intro z88 h89
    apply dB_keeps
    · intro z90 h91
      apply wr_keeps
      apply wr_keeps
      apply wr_keeps
      with_reducible assumption
    · with_reducible assumption
  · with_reducible assumption

theorem calSend_keeps {s : State} (h_s : StateKeeps κ s₀ s) :
    StateKeeps κ s₀ (calSend s) := by
  unfold calSend
  extract_lets v92 v93 v94 v95 v96 v97
  have h98 : DistKeeps κ s₀ v92 := by
    exact StateKeeps.dist (by assumption)
  clear_value v92
  have h99 : StateKeeps κ s₀ v97 := by
    apply ropeSend_keeps
    with_reducible assumption
  clear_value v97
  apply iteState_keeps
  · with_reducible assumption
  · apply onCal_keeps
    with_reducible assumption

theorem calPeriodOp_keeps {s : State} (h_s : StateKeeps κ s₀ s) :
    StateKeeps κ s₀ (calPeriodOp s) := by
  unfold calPeriodOp
  extract_lets v100 v101
  have h102 : DistKeeps κ s₀ v100 := by
    exact StateKeeps.dist (by assumption)
  clear_value v100
  have h103 : StateKeeps κ s₀ v101 := by
    apply onCal_keeps
    with_reducible assumption
  clear_value v101
  apply iteState_keeps
  · apply calNote_keeps
    apply iteState_keeps
    · apply foldState_keeps
      · intro z104 z105 h106
        apply calUnsolved_keeps
        with_reducible assumption
      · with_reducible assumption
    · apply calSolve_keeps
      apply calSend_keeps
      with_reducible assumption
  · with_reducible assumption

end Sys2Proof.Machine
end

