-- ==== Sys2Proof/Laws/KeepsHooks.lean ====
section
/-! SUPPORT. What the operations of Machine/Hooks.lean keep. -/

namespace Sys2Proof.Machine

variable {κ : Bool} {s₀ : State} {b₀ : Base}

theorem onAdm_keeps {f : DistAdm → DistAdm} {d : DistState} (h_d : DistKeeps κ s₀ d) :
    DistKeeps κ s₀ (onAdm f d) := by
  unfold onAdm
  with_reducible apply dist_mk_keeps
  change DistKeeps κ s₀ _
  with_reducible assumption

theorem healthUp_keeps {body : BitVec 64} {s : State} (h_s : StateKeeps κ s₀ s) :
    StateKeeps κ s₀ (healthUp body s) := by
  unfold healthUp
  apply sendSeq_keeps
  with_reducible assumption

theorem noteIds_keeps {d : DistState} (h_d : DistKeeps κ s₀ d) :
    DistKeeps κ s₀ (noteIds d) := by
  unfold noteIds
  apply dB_keeps
  · intro z0 h1
    apply wr_keeps
    with_reducible assumption
  · with_reducible assumption

theorem dupId_keeps {uid : Nat} {n : Nat} {s : State} (h_s : StateKeeps κ s₀ s) :
    StateKeeps κ s₀ (dupId uid n s) := by
  unfold dupId
  apply logD_keeps
  apply onDist_keeps
  · intro z2 h3
    apply dB_keeps
    · intro z4 h5
      apply wr_keeps
      with_reducible assumption
    · with_reducible assumption
  · with_reducible assumption

theorem idAdmitted_keeps {uid : Nat} {n : Nat} {s : State} (h_s : StateKeeps κ s₀ s) :
    StateKeeps κ s₀ (idAdmitted uid n s).2 := by
  unfold idAdmitted
  split
  · dsimp only
    apply dupId_keeps
    with_reducible assumption
  · dsimp only
    apply onDist_keeps
    · intro z6 h7
      apply noteIds_keeps
      apply onAdm_keeps
      with_reducible assumption
    · with_reducible assumption

theorem idWithdrawn_keeps {uid : Nat} {n : Nat} {s : State} (h_s : StateKeeps κ s₀ s) :
    StateKeeps κ s₀ (idWithdrawn uid n s) := by
  unfold idWithdrawn
  apply onDist_keeps
  · intro z8 h9
    apply noteIds_keeps
    apply onAdm_keeps
    with_reducible assumption
  · with_reducible assumption

theorem ropeEnd_keeps {s : State} (h_s : StateKeeps κ s₀ s) :
    StateKeeps κ s₀ (ropeEnd s) := by
  unfold ropeEnd
  extract_lets v10 v11 v12
  have h13 : StateKeeps κ s₀ v10 := by
    apply onDist_keeps
    · intro z14 h15
      apply dB_keeps
      · intro z16 h17
        apply wr_keeps
        apply wr_keeps
        apply wr_keeps
        apply wr_keeps
        with_reducible assumption
      · apply onCmb_keeps
        with_reducible assumption
    · with_reducible assumption
  clear_value v10
  have h18 : StateKeeps κ s₀ v11 := by
    apply iteState_keeps
    · apply logD_keeps
      apply onDist_keeps
      · intro z19 h20
        apply dB_keeps
        · intro z21 h22
          apply pgEvt_keeps
          apply inc_keeps
          with_reducible assumption
        · apply freeContexts_keeps
          with_reducible assumption
      · with_reducible assumption
    · with_reducible assumption
  clear_value v11
  have h23 : StateKeeps κ s₀ v12 := by
    apply foldState_keeps
    · intro z24 z25 h26
      apply resolveAbsent_keeps
      with_reducible assumption
    · with_reducible assumption
  clear_value v12
  apply censusAll_keeps
  apply distSettleAll_keeps
  with_reducible assumption

theorem ropeStart_keeps {s : State} (h_s : StateKeeps κ s₀ s) :
    StateKeeps κ s₀ (ropeStart s) := by
  unfold ropeStart
  extract_lets v27 v28
  have h29 : StateKeeps κ s₀ v27 := by
    apply onDist_keeps
    · intro z30 h31
      apply onCmb_keeps
      with_reducible assumption
    · with_reducible assumption
  clear_value v27
  have h32 : StateKeeps κ s₀ v28 := by
    apply iteState_keeps
    · apply onDist_keeps
      · intro z33 h34
        apply dB_keeps
        · intro z35 h36
          apply wrB_keeps
          with_reducible assumption
        · with_reducible assumption
      · with_reducible assumption
    · with_reducible assumption
  clear_value v28
  apply foldState_keeps
  · intro z37 z38 h39
    apply subscribe_keeps
    with_reducible assumption
  · apply sendSyncBase_keeps
    with_reducible assumption

theorem dropReports_keeps {d : DistState} (h_d : DistKeeps κ s₀ d) :
    DistKeeps κ s₀ (dropReports d) := by
  unfold dropReports
  apply foldDist_keeps
  · intro z40 z41 h42
    extract_lets v43 v44
    apply setDistPort_keeps
    with_reducible assumption
  · with_reducible assumption

theorem rechoose_keeps {s : State} (h_s : StateKeeps κ s₀ s) :
    StateKeeps κ s₀ (rechoose s) := by
  unfold rechoose
  extract_lets v45
  apply iteState_keeps
  · with_reducible assumption
  · apply iteState_keeps
    · apply setSts_keeps
      with_reducible assumption
    · apply iteState_keeps
      · apply setSts_keeps
        with_reducible assumption
      · with_reducible assumption

theorem rootLost_keeps {s : State} (h_s : StateKeeps κ s₀ s) :
    StateKeeps κ s₀ (rootLost s) := by
  unfold rootLost
  extract_lets v46
  have h47 : StateKeeps κ s₀ v46 := by
    apply logD_keeps
    with_reducible assumption
  clear_value v46
  apply iteState_keeps
  · apply iteState_keeps
    · apply sendReport_keeps
      with_reducible assumption
    · with_reducible assumption
  · with_reducible assumption

theorem downGone_keeps {n : Nat} {old : LinkPort} {s : State} (h_s : StateKeeps κ s₀ s) :
    StateKeeps κ s₀ (downGone n old s) := by
  unfold downGone
  extract_lets v48 v49 v50
  have h51 : StateKeeps κ s₀ v48 := by
    apply onPort_keeps
    with_reducible assumption
  clear_value v48
  have h52 : StateKeeps κ s₀ v50 := by
    apply iteState_keeps
    · with_reducible assumption
    · apply iteState_keeps
      · apply idWithdrawn_keeps
        with_reducible assumption
      · apply healthUp_keeps
        with_reducible assumption
  clear_value v50
  apply portAbsent_keeps
  with_reducible assumption

theorem portGone_keeps {p0 : PortRef} {old : LinkPort} {s : State} (h_s : StateKeeps κ s₀ s) :
    StateKeeps κ s₀ (portGone p0 old s) := by
  unfold portGone
  apply iteState_keeps
  · with_reducible assumption
  · split
    · apply unitFsm_keeps
      apply sourceFails_keeps
      with_reducible assumption
    · extract_lets v53
      have h54 : StateKeeps κ s₀ v53 := by
        apply ropeLeave_keeps
        apply relayDrop_keeps
        with_reducible assumption
      clear_value v53
      apply iteState_keeps
      · apply downGone_keeps
        with_reducible assumption
      · apply iteState_keeps
        · apply rootLost_keeps
          apply rechoose_keeps
          apply sourceFails_keeps
          apply iteState_keeps
          · apply relayDrop_keeps
            with_reducible assumption
          · with_reducible assumption
        · apply iteState_keeps
          · with_reducible assumption
          · apply ropeEnd_keeps
            with_reducible assumption

theorem leaving_keeps {p0 : PortRef} {f : State → State} {s : State} (h_f : ∀  z, StateKeeps κ s₀ z → StateKeeps κ s₀ (f z)) (h_s : StateKeeps κ s₀ s) :
    StateKeeps κ s₀ (leaving p0 f s) := by
  unfold leaving
  apply portGone_keeps
  apply h_f
  with_reducible assumption

theorem linkDead_keeps {p0 : PortRef} {s : State} (h_s : StateKeeps κ s₀ s) :
    StateKeeps κ s₀ (linkDead p0 s) := by
  unfold linkDead
  extract_lets v55 v56
  have h57 : StateKeeps κ s₀ v56 := by
    apply leaving_keeps
    · intro z58 h59
      extract_lets v60 v61
      have h62 : StateKeeps κ s₀ v60 := by
        apply logPort_keeps
        with_reducible assumption
      clear_value v60
      have h63 : StateKeeps κ s₀ v61 := by
        apply scorePort_keeps
        with_reducible assumption
      clear_value v61
      apply setLinkState_keeps
      apply onPort_keeps
      with_reducible assumption
    · with_reducible assumption
  clear_value v56
  split
  · with_reducible assumption
  · apply iteState_keeps
    · apply rootLost_keeps
      with_reducible assumption
    · with_reducible assumption

theorem linkReturn_keeps {p0 : PortRef} {s : State} (h_s : StateKeeps κ s₀ s) :
    StateKeeps κ s₀ (linkReturn p0 s) := by
  unfold linkReturn
  apply leaving_keeps
  · intro z64 h65
    apply setLinkState_keeps
    apply onPort_keeps
    with_reducible assumption
  · with_reducible assumption

theorem admitPort_keeps {p0 : PortRef} {s : State} (h_s : StateKeeps κ s₀ s) :
    StateKeeps κ s₀ (admitPort p0 s) := by
  unfold admitPort
  apply setLinkState_keeps
  apply onPort_keeps
  with_reducible assumption

theorem compareKey_keeps {p0 : PortRef} {h : Hap} {key : Word} {s : State} (h_s : StateKeeps κ s₀ s) :
    StateKeeps κ s₀ (compareKey p0 h key s) := by
  unfold compareKey
  extract_lets v66
  have h67 : StateKeeps κ s₀ v66 := by
    apply onPort_keeps
    with_reducible assumption
  clear_value v66
  apply iteState_keeps
  · with_reducible assumption
  · apply logPort_keeps
    with_reducible assumption

theorem unitAdmitted_keeps {d : Dom} {s : State} (h_s : StateKeeps κ s₀ s) :
    StateKeeps κ s₀ (unitAdmitted d s) := by
  unfold unitAdmitted
  apply unitFsm_keeps
  apply restartDiff_keeps
  apply admitPort_keeps
  with_reducible assumption

theorem upAdmitted_keeps {n : Fin 132} {s : State} (h_s : StateKeeps κ s₀ s) :
    StateKeeps κ s₀ (upAdmitted n s) := by
  unfold upAdmitted
  apply restartDiff_keeps
  apply admitPort_keeps
  with_reducible assumption

theorem ropeAdmitted_keeps {n : Fin 132} {s : State} (h_s : StateKeeps κ s₀ s) :
    StateKeeps κ s₀ (ropeAdmitted n s) := by
  unfold ropeAdmitted
  extract_lets v68 v69
  have h70 : StateKeeps κ s₀ v69 := by
    apply onDist_keeps
    · intro z71 h72
      apply dropReports_keeps
      with_reducible assumption
    · apply ropeAdmit_keeps
      apply admitPort_keeps
      with_reducible assumption
  clear_value v69
  apply iteState_keeps
  · with_reducible assumption
  · apply ropeStart_keeps
    with_reducible assumption

theorem presenceAfter_keeps {n : Nat} {s : State} (h_s : StateKeeps κ s₀ s) :
    StateKeeps κ s₀ (presenceAfter n s) := by
  unfold presenceAfter
  split
  · apply iteState_keeps
    · apply sendSeq_keeps
      with_reducible assumption
    · with_reducible assumption
  · with_reducible assumption

theorem downAdmitted_keeps {n : Nat} {s : State} (h_s : StateKeeps κ s₀ s) :
    StateKeeps κ s₀ (downAdmitted n s) := by
  unfold downAdmitted
  extract_lets v73 v74 v75 v76 v77 v78
  have h79 : DistKeeps κ s₀ v73 := by
    exact StateKeeps.dist (by assumption)
  clear_value v73
  have h80 : StateKeeps κ s₀ v74 := by
    apply iteState_keeps
    · apply sendSeq_keeps
      with_reducible assumption
    · with_reducible assumption
  clear_value v74
  have h81 : StateKeeps κ s₀ v75 := by
    apply presenceAfter_keeps
    with_reducible assumption
  clear_value v75
  have h82 : StateKeeps κ s₀ v77 := by
    apply portPresent_keeps
    with_reducible assumption
  clear_value v77
  have h83 : StateKeeps κ s₀ v78.2 := by
    apply idAdmitted_keeps
    with_reducible assumption
  clear_value v78
  apply iteState_keeps
  · with_reducible assumption
  · apply iteState_keeps
    · apply iteState_keeps
      · with_reducible assumption
      · apply leaving_keeps
        · intro z84 h85
          apply setLinkState_keeps
          apply onPort_keeps
          with_reducible assumption
        · with_reducible assumption
    · apply healthUp_keeps
      with_reducible assumption

end Sys2Proof.Machine
end

