-- ==== Sys2Proof/Laws/KeepsLinkRows.lean ====
section
/-! SUPPORT. What the operations of Machine/LinkRows.lean keep. -/

namespace Sys2Proof.Machine

variable {κ : Bool} {s₀ : State} {b₀ : Base}

theorem ifPort_keeps {p0 : PortRef} {f : State → State} {s : State} (h_f : ∀  z, StateKeeps κ s₀ z → StateKeeps κ s₀ (f z)) (h_s : StateKeeps κ s₀ s) :
    StateKeeps κ s₀ (ifPort p0 f s) := by
  unfold ifPort
  split
  · apply ifUnitRuns_keeps
    · with_reducible assumption
    · with_reducible assumption
  · apply ifDistRuns_keeps
    · with_reducible assumption
    · with_reducible assumption

theorem enableOp_keeps {p0 : PortRef} {en : Bool} {s : State} (h_s : StateKeeps κ s₀ s) :
    StateKeeps κ s₀ (enableOp p0 en s) := by
  unfold enableOp
  extract_lets v0 v1
  have h2 : StateKeeps κ s₀ v0 := by
    apply onBaseOf_keeps
    · intro z3 z4 h5
      apply wrB_keeps
      with_reducible assumption
    · with_reducible assumption
  clear_value v0
  have h6 : StateKeeps κ s₀ v1 := by
    apply leaving_keeps
    · intro z7 h8
      apply linkDown_keeps
      with_reducible assumption
    · with_reducible assumption
  clear_value v1
  apply iteState_keeps
  · apply testDown_keeps
    with_reducible assumption
  · split
    · apply unitFsm_keeps
      with_reducible assumption
    · with_reducible assumption

theorem signalOp_keeps {p0 : PortRef} {lane : Bool} {present : Bool} {s : State} (h_s : StateKeeps κ s₀ s) :
    StateKeeps κ s₀ (signalOp p0 lane present s) := by
  unfold signalOp
  extract_lets v9 v10
  have h11 : StateKeeps κ s₀ v10 := by
    apply onPort_keeps
    with_reducible assumption
  clear_value v10
  apply iteState_keeps
  · apply testDown_keeps
    with_reducible assumption
  · with_reducible assumption

theorem lockOpLane_keeps {p0 : PortRef} {lane : Bool} {v : Bool} {s : State} (h_s : StateKeeps κ s₀ s) :
    StateKeeps κ s₀ (lockOpLane p0 lane v s) := by
  unfold lockOpLane
  extract_lets v12 v13
  apply iteState_keeps
  · with_reducible assumption
  · apply onPort_keeps
    with_reducible assumption

theorem trainBlockOp_keeps {p0 : PortRef} {lane : Bool} {rxLock : Bool} {ready : Bool} {s : State} (h_s : StateKeeps κ s₀ s) :
    StateKeeps κ s₀ (trainBlockOp p0 lane rxLock ready s) := by
  unfold trainBlockOp
  extract_lets v14
  apply iteState_keeps
  · apply onPort_keeps
    with_reducible assumption
  · with_reducible assumption

theorem spareLost_keeps {p0 : PortRef} {s : State} (h_s : StateKeeps κ s₀ s) :
    StateKeeps κ s₀ (spareLost p0 s) := by
  unfold spareLost
  extract_lets v15
  have h16 : StateKeeps κ s₀ v15 := by
    apply onPort_keeps
    with_reducible assumption
  clear_value v15
  apply scorePort_keeps
  apply portEvt_keeps
  apply logPort_keeps
  with_reducible assumption

theorem trainDone_keeps {p0 : PortRef} {s : State} (h_s : StateKeeps κ s₀ s) :
    StateKeeps κ s₀ (trainDone p0 s) := by
  unfold trainDone
  extract_lets v17 v18 v19 v20 v21
  have h22 : StateKeeps κ s₀ v18 := by
    apply onPort_keeps
    with_reducible assumption
  clear_value v18
  have h23 : StateKeeps κ s₀ v19 := by
    apply setLinkState_keeps
    with_reducible assumption
  clear_value v19
  have h24 : StateKeeps κ s₀ v21 := by
    apply iteState_keeps
    · apply spareLost_keeps
      apply onPort_keeps
      with_reducible assumption
    · with_reducible assumption
  clear_value v21
  split
  · apply unitFsm_keeps
    with_reducible assumption
  · with_reducible assumption

theorem spareDone_keeps {p0 : PortRef} {s : State} (h_s : StateKeeps κ s₀ s) :
    StateKeeps κ s₀ (spareDone p0 s) := by
  unfold spareDone
  apply onPort_keeps
  with_reducible assumption

theorem framesOp_keeps {p0 : PortRef} {s : State} (h_s : StateKeeps κ s₀ s) :
    StateKeeps κ s₀ (framesOp p0 s) := by
  unfold framesOp
  extract_lets v25 v26
  apply iteState_keeps
  · split
    · apply iteState_keeps
      · apply trainDone_keeps
        with_reducible assumption
      · with_reducible assumption
    · with_reducible assumption
  · split
    · apply iteState_keeps
      · apply spareDone_keeps
        with_reducible assumption
      · with_reducible assumption
    · with_reducible assumption

theorem trainFailOp_keeps {p0 : PortRef} {s : State} (h_s : StateKeeps κ s₀ s) :
    StateKeeps κ s₀ (trainFailOp p0 s) := by
  unfold trainFailOp
  extract_lets v27 v28
  have h29 : StateKeeps κ s₀ v28 := by
    apply scorePort_keeps
    apply logPort_keeps
    with_reducible assumption
  clear_value v28
  apply iteState_keeps
  · apply linkDown_keeps
    apply onPort_keeps
    with_reducible assumption
  · with_reducible assumption

theorem spareFailOp_keeps {p0 : PortRef} {s : State} (h_s : StateKeeps κ s₀ s) :
    StateKeeps κ s₀ (spareFailOp p0 s) := by
  unfold spareFailOp
  extract_lets v30
  apply iteState_keeps
  · apply iteState_keeps
    · apply onPort_keeps
      with_reducible assumption
    · with_reducible assumption
  · split
    · apply iteState_keeps
      · apply spareLost_keeps
        apply onPort_keeps
        with_reducible assumption
      · with_reducible assumption
    · with_reducible assumption

theorem spareRetryOp_keeps {p0 : PortRef} {s : State} (h_s : StateKeeps κ s₀ s) :
    StateKeeps κ s₀ (spareRetryOp p0 s) := by
  unfold spareRetryOp
  extract_lets v31
  split
  · apply iteState_keeps
    · apply onPort_keeps
      with_reducible assumption
    · with_reducible assumption
  · with_reducible assumption

theorem silenceOp_keeps {p0 : PortRef} {s : State} (h_s : StateKeeps κ s₀ s) :
    StateKeeps κ s₀ (silenceOp p0 s) := by
  unfold silenceOp
  extract_lets v32 v33
  apply iteState_keeps
  · apply iteState_keeps
    · apply linkDown_keeps
      with_reducible assumption
    · with_reducible assumption
  · apply iteState_keeps
    · apply iteState_keeps
      · apply testDown_keeps
        apply linkDown_keeps
        with_reducible assumption
      · with_reducible assumption
    · apply iteState_keeps
      · apply iteState_keeps
        · apply linkDead_keeps
          with_reducible assumption
        · with_reducible assumption
      · with_reducible assumption

theorem readmitOp_keeps {p0 : PortRef} {s : State} (h_s : StateKeeps κ s₀ s) :
    StateKeeps κ s₀ (readmitOp p0 s) := by
  unfold readmitOp
  extract_lets v34
  apply iteState_keeps
  · apply linkTrain_keeps
    with_reducible assumption
  · with_reducible assumption

theorem admitWaitOp_keeps {p0 : PortRef} {s : State} (h_s : StateKeeps κ s₀ s) :
    StateKeeps κ s₀ (admitWaitOp p0 s) := by
  unfold admitWaitOp
  extract_lets v35
  apply iteState_keeps
  · apply logPort_keeps
    apply onPort_keeps
    with_reducible assumption
  · with_reducible assumption

theorem scoreCrc_keeps {p0 : PortRef} {s : State} (h_s : StateKeeps κ s₀ s) : StateKeeps κ s₀ (scoreCrc p0 s) := by
  unfold scoreCrc
  split
  · exact h_s
  · exact iteState_keeps (scorePort_keeps (onPort_keeps h_s)) (onPort_keeps h_s)

theorem crcBadOp_keeps {p0 : PortRef} {lane : Bool} {f : BitVec 78} {s : State} (h_s : StateKeeps κ s₀ s) :
    StateKeeps κ s₀ (crcBadOp p0 lane f s) := by
  unfold crcBadOp
  extract_lets v36 v37 v38
  have h39 : StateKeeps κ s₀ v37 := by
    dsimp only [v37]
    split
    · apply onUnit_keeps
      · intro z40 h41
        apply traceFrame_keeps
        with_reducible assumption
      · with_reducible assumption
    · with_reducible assumption
  clear_value v37
  have h42 : StateKeeps κ s₀ v38 := by
    apply onPort_keeps
    with_reducible assumption
  clear_value v38
  apply iteState_keeps
  · apply sendNak_keeps
    apply scoreCrc_keeps
    with_reducible assumption
  · with_reducible assumption

theorem reservedOp_keeps {rx : Rx} {t : BitVec 6} {body : BitVec 64} {s : State} (h_s : StateKeeps κ s₀ s) :
    StateKeeps κ s₀ (reservedOp rx t body s) := by
  unfold reservedOp
  extract_lets v43
  have h44 : StateKeeps κ s₀ v43.2 := by
    dsimp only [v43]
    split
    · apply rxSeq_keeps
      with_reducible assumption
    · apply rxUns_keeps
      with_reducible assumption
  clear_value v43
  apply iteState_keeps
  · apply iteState_keeps
    · apply onPort_keeps
      with_reducible assumption
    · with_reducible assumption
  · with_reducible assumption

theorem unexpectedOp_keeps {rx : Rx} {t : BitVec 6} {body : BitVec 64} {s : State} (h_s : StateKeeps κ s₀ s) :
    StateKeeps κ s₀ (unexpectedOp rx t body s) := by
  unfold unexpectedOp
  extract_lets v45
  apply iteState_keeps
  · with_reducible assumption
  · apply iteState_keeps
    · apply iteState_keeps
      · apply rxFrame_keeps
        with_reducible assumption
      · apply rxUns_keeps
        with_reducible assumption
    · apply iteState_keeps
      · apply rxFrame_keeps
        with_reducible assumption
      · with_reducible assumption

theorem ackDueOp_keeps {p0 : PortRef} {s : State} (h_s : StateKeeps κ s₀ s) :
    StateKeeps κ s₀ (ackDueOp p0 s) := by
  unfold ackDueOp
  split
  · apply iteState_keeps
    · apply sendAck_keeps
      with_reducible assumption
    · with_reducible assumption
  · with_reducible assumption

theorem ackOp_keeps {p0 : PortRef} {q0 : BitVec 8} {s : State} (h_s : StateKeeps κ s₀ s) :
    StateKeeps κ s₀ (ackOp p0 q0 s) := by
  unfold ackOp
  extract_lets v46
  have h47 : StateKeeps κ s₀ v46 := by
    apply onPort_keeps
    with_reducible assumption
  clear_value v46
  split
  · with_reducible assumption
  · apply iteState_keeps
    · apply distSettleAll_keeps
      with_reducible assumption
    · with_reducible assumption

theorem replayOrDead_keeps {p0 : PortRef} {s : State} (h_s : StateKeeps κ s₀ s) :
    StateKeeps κ s₀ (replayOrDead p0 s) := by
  unfold replayOrDead
  apply iteState_keeps
  · apply linkDead_keeps
    with_reducible assumption
  · apply startReplay_keeps
    with_reducible assumption

theorem retryOp_keeps {p0 : PortRef} {s : State} (h_s : StateKeeps κ s₀ s) :
    StateKeeps κ s₀ (retryOp p0 s) := by
  unfold retryOp
  extract_lets v48
  split
  · apply iteState_keeps
    · apply replayOrDead_keeps
      with_reducible assumption
    · with_reducible assumption
  · with_reducible assumption

theorem nakOp_keeps {p0 : PortRef} {q0 : BitVec 8} {s : State} (h_s : StateKeeps κ s₀ s) :
    StateKeeps κ s₀ (nakOp p0 q0 s) := by
  unfold nakOp
  apply iteState_keeps
  · apply replayOrDead_keeps
    with_reducible assumption
  · with_reducible assumption

theorem swapOp_keeps {p0 : PortRef} {s : State} (h_s : StateKeeps κ s₀ s) :
    StateKeeps κ s₀ (swapOp p0 s) := by
  unfold swapOp
  extract_lets v49 v50
  have h51 : StateKeeps κ s₀ v50 := by
    apply replayAll_keeps
    apply onPort_keeps
    with_reducible assumption
  clear_value v50
  apply iteState_keeps
  · apply scorePort_keeps
    apply portEvt_keeps
    apply logPort_keeps
    with_reducible assumption
  · with_reducible assumption

end Sys2Proof.Machine
end

