-- ==== Sys2Proof/Laws/KeepsEchoTime.lean ====
section
/-! SUPPORT. What the operations of Machine/EchoTime.lean keep. -/

namespace Sys2Proof.Machine

variable {κ : Bool} {s₀ : State} {b₀ : Base}

theorem echoLostOp_keeps {p0 : PortRef} {s : State} (h_s : StateKeeps κ s₀ s) :
    StateKeeps κ s₀ (echoLostOp p0 s) := by
  unfold echoLostOp
  extract_lets v0 v1
  have h2 : StateKeeps κ s₀ v0 := by
    apply onPort_keeps
    with_reducible assumption
  clear_value v0
  have h3 : StateKeeps κ s₀ v1 := by
    apply scorePort_keeps
    apply portEvt_keeps
    apply logPort_keeps
    with_reducible assumption
  clear_value v1
  split
  · apply sourceFails_keeps
    with_reducible assumption
  · with_reducible assumption

theorem exchangeLost_keeps {p0 : PortRef} {spare : Bool} {s : State} (h_s : StateKeeps κ s₀ s) :
    StateKeeps κ s₀ (exchangeLost p0 spare s) := by
  unfold exchangeLost
  extract_lets v4 v5 v6
  have h7 : StateKeeps κ s₀ v4 := by
    apply onPort_keeps
    with_reducible assumption
  clear_value v4
  have h8 : StateKeeps κ s₀ v5 := by
    apply iteState_keeps
    · with_reducible assumption
    · split
      · apply rejDrop_keeps
        with_reducible assumption
      · with_reducible assumption
  clear_value v5
  apply iteState_keeps
  · apply iteState_keeps
    · apply echoLostOp_keeps
      with_reducible assumption
    · with_reducible assumption
  · with_reducible assumption

theorem echoStart_keeps {p0 : PortRef} {spare : Bool} {s : State} (h_s : StateKeeps κ s₀ s) :
    StateKeeps κ s₀ (echoStart p0 spare s) := by
  unfold echoStart
  extract_lets v9 v10
  have h11 : StateKeeps κ s₀ v10 := by
    apply onPort_keeps
    with_reducible assumption
  clear_value v10
  apply iteState_keeps
  · apply sendUns_keeps
    with_reducible assumption
  · with_reducible assumption

theorem echoAnswer_keeps {p0 : PortRef} {spare : Bool} {id : Nat} {frac : Nat} {s : State} (h_s : StateKeeps κ s₀ s) :
    StateKeeps κ s₀ (echoAnswer p0 spare id frac s) := by
  unfold echoAnswer
  extract_lets v12
  apply iteState_keeps
  · apply sendUns_keeps
    with_reducible assumption
  · with_reducible assumption

theorem chooseParent_keeps {n : Nat} {s : State} (h_s : StateKeeps κ s₀ s) :
    StateKeeps κ s₀ (chooseParent n s) := by
  unfold chooseParent
  extract_lets v13 v14 v15
  have h16 : DistKeeps κ s₀ v13 := by
    exact StateKeeps.dist (by assumption)
  clear_value v13
  apply iteState_keeps
  · with_reducible assumption
  · apply iteState_keeps
    · apply iteState_keeps
      · apply setSts_keeps
        with_reducible assumption
      · with_reducible assumption
    · apply setSts_keeps
      with_reducible assumption

theorem echoFeed_keeps {p0 : PortRef} {theta : Int} {s : State} (h_s : StateKeeps κ s₀ s) :
    StateKeeps κ s₀ (echoFeed p0 theta s) := by
  unfold echoFeed
  split
  · apply unitFsm_keeps
    apply exchange_keeps
    with_reducible assumption
  · apply iteState_keeps
    · apply exchange_keeps
      apply chooseParent_keeps
      with_reducible assumption
    · with_reducible assumption

theorem echoDone_keeps {p0 : PortRef} {spare : Bool} {lane : Bool} {id : BitVec 6} {t2w : Nat} {resid : Nat} {frac : Nat} {fwdSkew : Int} {revSkew : Int} {s : State} (h_s : StateKeeps κ s₀ s) :
    StateKeeps κ s₀ (echoDone p0 spare lane id t2w resid frac fwdSkew revSkew s) := by
  unfold echoDone
  extract_lets v17 v18 v19
  split
  · extract_lets v20 v21 v22 v23 v24 v25 v26
    have h27 : StateKeeps κ s₀ v25 := by
      apply onPort_keeps
      with_reducible assumption
    clear_value v25
    have h28 : StateKeeps κ s₀ v26 := by
      apply onPort_keeps
      with_reducible assumption
    clear_value v26
    apply iteState_keeps
    · apply iteState_keeps
      · with_reducible assumption
      · apply echoFeed_keeps
        with_reducible assumption
    · with_reducible assumption
  · with_reducible assumption

theorem timeDown_keeps {delay : Nat} {s : State} (h_s : StateKeeps κ s₀ s) :
    StateKeeps κ s₀ (timeDown delay s) := by
  unfold timeDown
  extract_lets v29
  apply iteState_keeps
  · with_reducible assumption
  · apply foldState_keeps
    · intro z30 z31 h32
      apply onPort_keeps
      with_reducible assumption
    · with_reducible assumption

theorem timeCheck_keeps {p0 : PortRef} {part : Part} {src : Bool} {ns : BitVec 48} {s : State} (h_s : StateKeeps κ s₀ s) :
    StateKeeps κ s₀ (timeCheck p0 part src ns s) := by
  unfold timeCheck
  extract_lets v33 v34 v35 v36 v37
  have h40 : StateKeeps κ s₀ v36 := by
    apply onPort_keeps
    with_reducible assumption
  clear_value v36
  have h41 : StateKeeps κ s₀ v37 := by
    apply onPort_keeps
    with_reducible assumption
  clear_value v37
  apply iteState_keeps
  · apply iteState_keeps
    · apply iteState_keeps
      · with_reducible assumption
      · apply scorePort_keeps
        apply portEvt_keeps
        apply logPort_keeps
        with_reducible assumption
    · apply iteState_keeps
      · apply onPort_keeps
        with_reducible assumption
      · with_reducible assumption
  · with_reducible assumption

theorem genCheck_keeps {d : Dom} {gen : BitVec 16} {s : State} (h_s : StateKeeps κ s₀ s) :
    StateKeeps κ s₀ (genCheck d gen s) := by
  unfold genCheck
  extract_lets v42 v43 v44
  have h45 : StateKeeps κ s₀ v44 := by
    apply onPort_keeps
    with_reducible assumption
  clear_value v44
  apply iteState_keeps
  · with_reducible assumption
  · apply iteState_keeps
    · apply iteState_keeps
      · apply onPort_keeps
        with_reducible assumption
      · with_reducible assumption
    · apply iteState_keeps
      · with_reducible assumption
      · apply sourceFails_keeps
        apply logPort_keeps
        with_reducible assumption

theorem unitTime_keeps {d : Dom} {ns : BitVec 48} {gen : BitVec 16} {frac : Nat} {s : State} (h_s : StateKeeps false s₀ s) :
    StateKeeps false s₀ (unitTime d ns gen frac s) := by
  unfold unitTime
  extract_lets v46
  apply iteState_keeps
  · apply iteState_keeps
    · apply unitFsm_keeps
      apply loadCounter_keeps
      with_reducible assumption
    · with_reducible assumption
  · apply unitFsm_keeps
    apply timeCheck_keeps
    apply genCheck_keeps
    with_reducible assumption

theorem distTime_keeps {n : Nat} {ns : BitVec 48} {gen : BitVec 16} {frac : Nat} {s : State} (h_s : StateKeeps false s₀ s) :
    StateKeeps false s₀ (distTime n ns gen frac s) := by
  unfold distTime
  extract_lets v47 v48
  have h49 : StateKeeps false s₀ v48 := by
    apply iteState_keeps
    · apply iteState_keeps
      · apply loadCounter_keeps
        with_reducible assumption
      · with_reducible assumption
    · apply timeCheck_keeps
      with_reducible assumption
  clear_value v48
  apply iteState_keeps
  · with_reducible assumption
  · apply iteState_keeps
    · apply timeCheck_keeps
      with_reducible assumption
    · apply iteState_keeps
      · apply timeDown_keeps
        with_reducible assumption
      · with_reducible assumption

theorem timeOp_keeps {p0 : PortRef} {ns : BitVec 48} {gen : BitVec 16} {frac : Nat} {s : State} (h_s : StateKeeps false s₀ s) :
    StateKeeps false s₀ (timeOp p0 ns gen frac s) := by
  unfold timeOp
  extract_lets v50
  have h51 : StateKeeps false s₀ v50 := by
    apply onPort_keeps
    with_reducible assumption
  clear_value v50
  apply iteState_keeps
  · split
    · apply unitTime_keeps
      with_reducible assumption
    · apply distTime_keeps
      with_reducible assumption
  · with_reducible assumption

theorem rootTime_keeps {s : State} (h_s : StateKeeps κ s₀ s) :
    StateKeeps κ s₀ (rootTime s) := by
  unfold rootTime
  extract_lets v52
  have h53 : DistKeeps κ s₀ v52 := by
    exact StateKeeps.dist (by assumption)
  clear_value v52
  apply iteState_keeps
  · apply timeDown_keeps
    apply onDist_keeps
    · intro z54 h55
      apply onAdm_keeps
      with_reducible assumption
    · with_reducible assumption
  · with_reducible assumption

theorem keepEpoch_keeps {p0 : PortRef} {gen : BitVec 16} {applied : BitVec 48} {s : State} (h_s : StateKeeps κ s₀ s) :
    StateKeeps κ s₀ (keepEpoch p0 gen applied s) := by
  unfold keepEpoch
  apply onPort_keeps
  with_reducible assumption

theorem epochOp_keeps {p0 : PortRef} {gen : BitVec 16} {applied : BitVec 48} {s : State} (h_s : StateKeeps κ s₀ s) :
    StateKeeps κ s₀ (epochOp p0 gen applied s) := by
  unfold epochOp
  apply iteState_keeps
  · with_reducible assumption
  · split
    · extract_lets v56
      have h57 : Keeps κ s₀.unit.base v56 := by
        exact StateKeeps.unit (by assumption)
      clear_value v56
      apply iteState_keeps
      · apply keepEpoch_keeps
        with_reducible assumption
      · apply iteState_keeps
        · apply onUnit_keeps
          · intro z58 h59
            apply uB_keeps
            · intro z60 h61
              apply wr64_keeps
              with_reducible assumption
            · with_reducible assumption
          · with_reducible assumption
        · with_reducible assumption
    · extract_lets v62 v63
      have h64 : DistKeeps κ s₀ v62 := by
        exact StateKeeps.dist (by assumption)
      clear_value v62
      have h65 : StateKeeps κ s₀ v63 := by
        apply iteState_keeps
        · apply keepEpoch_keeps
          with_reducible assumption
        · apply iteState_keeps
          · apply onDist_keeps
            · intro z66 h67
              apply onAdm_keeps
              apply dB_keeps
              · intro z68 h69
                apply pgEvt_keeps
                apply wr64_keeps
                with_reducible assumption
              · with_reducible assumption
            · with_reducible assumption
          · with_reducible assumption
      clear_value v63
      apply iteState_keeps
      · apply sendDown_keeps
        with_reducible assumption
      · with_reducible assumption

end Sys2Proof.Machine
end

