-- ==== Sys2Proof/Laws/KeepsAdmission.lean ====
section
/-! SUPPORT. What the operations of Machine/Admission.lean keep. -/

namespace Sys2Proof.Machine

variable {κ : Bool} {s₀ : State} {b₀ : Base}

theorem ropeTest_keeps {n : Fin 132} {s : State} (h_s : StateKeeps κ s₀ s) :
    StateKeeps κ s₀ (ropeTest n s) := by
  unfold ropeTest
  extract_lets v0
  apply iteState_keeps
  · apply ropeAdmitted_keeps
    with_reducible assumption
  · with_reducible assumption

theorem helloOp_keeps {p0 : PortRef} {s : State} (h_s : StateKeeps κ s₀ s) :
    StateKeeps κ s₀ (helloOp p0 s) := by
  unfold helloOp
  extract_lets v1 v2 v3 v4 v5
  have h6 : StateKeeps κ s₀ v4 := by
    apply sendUns_keeps
    with_reducible assumption
  clear_value v4
  have h7 : StateKeeps κ s₀ v5 := by
    apply onPort_keeps
    with_reducible assumption
  clear_value v5
  apply iteState_keeps
  · split
    · with_reducible assumption
    · apply iteState_keeps
      · apply ropeTest_keeps
        with_reducible assumption
      · with_reducible assumption
  · with_reducible assumption

theorem downHello_keeps {n : Fin 132} {h : KeptHello} {s : State} (h_s : StateKeeps κ s₀ s) :
    StateKeeps κ s₀ (downHello n h s) := by
  unfold downHello
  extract_lets v8
  have h9 : StateKeeps κ s₀ v8 := by
    apply onPort_keeps
    with_reducible assumption
  clear_value v8
  apply iteState_keeps
  · apply linkReturn_keeps
    with_reducible assumption
  · with_reducible assumption

theorem ropeHello_keeps {n : Fin 132} {h : KeptHello} {s : State} (h_s : StateKeeps κ s₀ s) :
    StateKeeps κ s₀ (ropeHello n h s) := by
  unfold ropeHello
  extract_lets v10 v11 v12 v13 v14 v15 v16
  have h17 : StateKeeps κ s₀ v10 := by
    apply onDist_keeps
    · intro z18 h19
      apply dB_keeps
      · intro z20 h21
        apply wrF_keeps
        apply wrB_keeps
        with_reducible assumption
      · with_reducible assumption
    · with_reducible assumption
  clear_value v10
  have h22 : StateKeeps κ s₀ v14 := by
    apply iteState_keeps
    · apply logPort_keeps
      with_reducible assumption
    · with_reducible assumption
  clear_value v14
  have h23 : StateKeeps κ s₀ v15 := by
    apply iteState_keeps
    · apply logPort_keeps
      with_reducible assumption
    · with_reducible assumption
  clear_value v15
  have h24 : StateKeeps κ s₀ v16 := by
    apply compareKey_keeps
    with_reducible assumption
  clear_value v16
  apply iteState_keeps
  · with_reducible assumption
  · apply iteState_keeps
    · with_reducible assumption
    · apply ropeTest_keeps
      apply onPort_keeps
      with_reducible assumption

theorem helloRxOp_keeps {n : Fin 132} {h : KeptHello} {s : State} (h_s : StateKeeps κ s₀ s) :
    StateKeeps κ s₀ (helloRxOp n h s) := by
  unfold helloRxOp
  extract_lets v25
  have h26 : StateKeeps κ s₀ v25 := by
    apply onPort_keeps
    with_reducible assumption
  clear_value v25
  apply iteState_keeps
  · apply downHello_keeps
    with_reducible assumption
  · apply ropeHello_keeps
    with_reducible assumption

theorem admitNow_keeps {n : Fin 132} {h : KeptHello} {s : State} (h_s : StateKeeps κ s₀ s) :
    StateKeeps κ s₀ (admitNow n h s) := by
  unfold admitNow
  extract_lets v27 v28 v29 v30 v31 v32
  have h33 : DistKeeps κ s₀ v28 := by
    exact StateKeeps.dist (by assumption)
  clear_value v28
  have h34 : StateKeeps κ s₀ v30 := by
    apply sendSeq_keeps
    with_reducible assumption
  clear_value v30
  have h35 : StateKeeps κ s₀ v31 := by
    apply onPort_keeps
    with_reducible assumption
  clear_value v31
  have h36 : StateKeeps κ s₀ v32 := by
    apply compareKey_keeps
    with_reducible assumption
  clear_value v32
  apply downAdmitted_keeps
  apply portEvt_keeps
  apply admitPort_keeps
  with_reducible assumption

theorem examine_keeps {n : Fin 132} {s : State} (h_s : StateKeeps κ s₀ s) :
    StateKeeps κ s₀ (examine n s) := by
  unfold examine
  extract_lets v37 v38
  split
  · extract_lets v39
    apply iteState_keeps
    · apply iteState_keeps
      · apply admitNow_keeps
        with_reducible assumption
      · apply portEvt_keeps
        apply onPort_keeps
        with_reducible assumption
    · with_reducible assumption
  · with_reducible assumption

theorem slotOp_keeps {s : State} (h_s : StateKeeps κ s₀ s) :
    StateKeeps κ s₀ (slotOp s) := by
  unfold slotOp
  extract_lets v40 v41 v42 v43
  have h44 : DistKeeps κ s₀ v40 := by
    exact StateKeeps.dist (by assumption)
  clear_value v40
  have h45 : StateKeeps κ s₀ v43 := by
    apply onDist_keeps
    · intro z46 h47
      apply onAdm_keeps
      with_reducible assumption
    · with_reducible assumption
  clear_value v43
  apply iteState_keeps
  · apply examine_keeps
    with_reducible assumption
  · with_reducible assumption

theorem unitAdmit_keeps {d : Dom} {uid : Nat} {port : Nat} {domB : Bool} {tier : Nat} {dkey : Word} {s : State} (h_s : StateKeeps κ s₀ s) :
    StateKeeps κ s₀ (unitAdmit d uid port domB tier dkey s) := by
  unfold unitAdmit
  extract_lets v48 v49 v50 v51 v52 v53 v54 v55 v56 v57
  have h58 : StateKeeps κ s₀ v53 := by
    apply onPort_keeps
    with_reducible assumption
  clear_value v53
  have h59 : StateKeeps κ s₀ v54 := by
    apply portEvt_keeps
    with_reducible assumption
  clear_value v54
  have h60 : StateKeeps κ s₀ v55 := by
    apply onUnit_keeps
    · intro z61 h62
      apply uB_keeps
      · intro z63 h64
        apply wr_keeps
        with_reducible assumption
      · with_reducible assumption
    · with_reducible assumption
  clear_value v55
  have h65 : StateKeeps κ s₀ v56 := by
    apply onPort_keeps
    with_reducible assumption
  clear_value v56
  have h66 : StateKeeps κ s₀ v57 := by
    apply compareKey_keeps
    with_reducible assumption
  clear_value v57
  apply iteState_keeps
  · with_reducible assumption
  · apply iteState_keeps
    · apply logPort_keeps
      apply onPort_keeps
      with_reducible assumption
    · apply iteState_keeps
      · with_reducible assumption
      · apply unitAdmitted_keeps
        with_reducible assumption

theorem distAdmit_keeps {n : Fin 132} {port : Nat} {tier : Nat} {domB : Bool} {dkey : Word} {s : State} (h_s : StateKeeps κ s₀ s) :
    StateKeeps κ s₀ (distAdmit n port tier domB dkey s) := by
  unfold distAdmit
  extract_lets v67 v68
  have h69 : StateKeeps κ s₀ v68 := by
    apply onPort_keeps
    with_reducible assumption
  clear_value v68
  apply iteState_keeps
  · with_reducible assumption
  · apply portEvt_keeps
    apply upAdmitted_keeps
    with_reducible assumption

end Sys2Proof.Machine
end

