-- ==== Sys2Proof/Laws/KeepsContext.lean ====
section
/-! SUPPORT. What the operations of Machine/Context.lean keep. -/

namespace Sys2Proof.Machine

variable {κ : Bool} {s₀ : State} {b₀ : Base}

theorem barReach_keeps {b : Nat} {s : State} (h_s : StateKeeps κ s₀ s) :
    StateKeeps κ s₀ (barReach b s) := by
  unfold barReach
  extract_lets v0 v1 v2 v3 v4
  have h5 : UnitKeeps κ s₀ v0 := by
    exact StateKeeps.unit (by assumption)
  clear_value v0
  have h6 : StateKeeps κ s₀ v3 := by
    apply onUnit_keeps
    · intro z7 h8
      apply uB_keeps
      · intro z9 h10
        apply wrF_keeps
        with_reducible assumption
      · apply barPut_keeps
        with_reducible assumption
    · with_reducible assumption
  clear_value v3
  have h11 : StateKeeps κ s₀ v4.2 := by
    apply postOp_keeps
    with_reducible assumption
  clear_value v4
  apply iteState_keeps
  · apply iteState_keeps
    · apply iteState_keeps
      · with_reducible assumption
      · apply logU_keeps
        apply completeRound_keeps
        with_reducible assumption
    · apply completeRound_keeps
      with_reducible assumption
  · with_reducible assumption

theorem barLap_keeps {b : Nat} {s : State} (h_s : StateKeeps κ s₀ s) :
    StateKeeps κ s₀ (barLap b s) := by
  unfold barLap
  extract_lets v12
  have h13 : StateKeeps κ s₀ v12 := by
    apply logU_keeps
    apply onUnit_keeps
    · intro z14 h15
      apply uB_keeps
      · intro z16 h17
        apply pgEvt_keeps
        apply inc_keeps
        with_reducible assumption
      · with_reducible assumption
    · with_reducible assumption
  clear_value v12
  apply iteState_keeps
  · apply onUnit_keeps
    · intro z18 h19
      apply uB_keeps
      · intro z20 h21
        apply occur_keeps
        with_reducible assumption
      · with_reducible assumption
    · with_reducible assumption
  · with_reducible assumption

theorem barEnterOp_keeps {r : Req} {b : Nat} {s : State} (h_s : StateKeeps κ s₀ s) :
    StateKeeps κ s₀ (barEnterOp r b s) := by
  unfold barEnterOp
  extract_lets v22 v23 v24 v25 v26 v27 v28 v29
  have h30 : UnitKeeps κ s₀ v22 := by
    exact StateKeeps.unit (by assumption)
  clear_value v22
  have h31 : StateKeeps κ s₀ v25 := by
    apply iteState_keeps
    · apply barLap_keeps
      with_reducible assumption
    · with_reducible assumption
  clear_value v25
  have h32 : StateKeeps κ s₀ v29 := by
    apply onUnit_keeps
    · intro z33 h34
      apply barPut_keeps
      with_reducible assumption
    · with_reducible assumption
  clear_value v29
  apply iteState_keeps
  · apply onUnit_keeps
    · intro z35 h36
      apply respError_keeps
      with_reducible assumption
    · with_reducible assumption
  · apply iteState_keeps
    · apply barReach_keeps
      with_reducible assumption
    · apply iteState_keeps
      · with_reducible assumption
      · apply barLap_keeps
        with_reducible assumption

theorem barDeadlineOp_keeps {b : Nat} {s : State} (h_s : StateKeeps κ s₀ s) :
    StateKeeps κ s₀ (barDeadlineOp b s) := by
  unfold barDeadlineOp
  extract_lets v37 v38 v39 v40 v41
  have h42 : StateKeeps κ s₀ v40 := by
    apply logU_keeps
    apply onUnit_keeps
    · intro z43 h44
      apply uB_keeps
      · intro z45 h46
        apply pgEvt_keeps
        apply inc_keeps
        with_reducible assumption
      · with_reducible assumption
    · with_reducible assumption
  clear_value v40
  have h47 : StateKeeps κ s₀ v41 := by
    apply iteState_keeps
    · apply onUnit_keeps
      · intro z48 h49
        apply uB_keeps
        · intro z50 h51
          apply occur_keeps
          with_reducible assumption
        · with_reducible assumption
      · with_reducible assumption
    · with_reducible assumption
  clear_value v41
  apply iteState_keeps
  · apply onUnit_keeps
    · intro z52 h53
      extract_lets v54 v55
      have h56 : UnitKeeps κ s₀ v54 := by
        apply endEntries_keeps
        with_reducible assumption
      clear_value v54
      apply barPut_keeps
      with_reducible assumption
    · with_reducible assumption
  · with_reducible assumption

theorem barFresh_keeps {u : UnitState} {b : Nat} (h_u : UnitKeeps κ s₀ u) :
    UnitKeeps κ s₀ (barFresh u b) := by
  unfold barFresh
  extract_lets v57
  apply barPut_keeps
  with_reducible assumption

theorem barResetOp_keeps {b : Nat} {s : State} (h_s : StateKeeps κ s₀ s) :
    StateKeeps κ s₀ (barResetOp b s) := by
  unfold barResetOp
  extract_lets v58
  apply iteState_keeps
  · with_reducible assumption
  · apply iteState_keeps
    · apply logU_keeps
      with_reducible assumption
    · apply onUnit_keeps
      · intro z59 h60
        apply barFresh_keeps
        apply endEntries_keeps
        with_reducible assumption
      · with_reducible assumption

theorem barCtlOp_keeps {b : Nat} {be : BitVec 4} {data : Word} {s : State} (h_s : StateKeeps κ s₀ s) :
    StateKeeps κ s₀ (barCtlOp b be data s) := by
  unfold barCtlOp
  extract_lets v61 v62 v63 v64 v65
  have h66 : UnitKeeps κ s₀ v61 := by
    exact StateKeeps.unit (by assumption)
  clear_value v61
  have h67 : StateKeeps κ s₀ v65 := by
    apply onUnit_keeps
    · intro z68 h69
      apply uB_keeps
      · intro z70 h71
        apply wr_keeps
        with_reducible assumption
      · with_reducible assumption
    · with_reducible assumption
  clear_value v65
  apply iteState_keeps
  · with_reducible assumption
  · apply iteState_keeps
    · apply logU_keeps
      with_reducible assumption
    · apply iteState_keeps
      · apply logU_keeps
        with_reducible assumption
      · apply iteState_keeps
        · with_reducible assumption
        · apply iteState_keeps
          · apply onUnit_keeps
            · intro z72 h73
              apply barFresh_keeps
              with_reducible assumption
            · with_reducible assumption
          · apply iteState_keeps
            · apply onUnit_keeps
              · intro z74 h75
                extract_lets v76 v77
                have h78 : UnitKeeps κ s₀ v76 := by
                  apply endEntries_keeps
                  with_reducible assumption
                clear_value v76
                apply barPut_keeps
                with_reducible assumption
              · with_reducible assumption
            · with_reducible assumption

theorem barGuarded_keeps {b : Nat} {a : Nat} {logged : Bool} {be : BitVec 4} {flds : List Fld} {data : Word} {s : State} (h_s : StateKeeps κ s₀ s) :
    StateKeeps κ s₀ (barGuarded b a logged be flds data s) := by
  unfold barGuarded
  extract_lets v79
  have h80 : UnitKeeps κ s₀ v79 := by
    exact StateKeeps.unit (by assumption)
  clear_value v79
  apply iteState_keeps
  · with_reducible assumption
  · apply iteState_keeps
    · apply iteState_keeps
      · apply logU_keeps
        with_reducible assumption
      · with_reducible assumption
    · apply onUnit_keeps
      · intro z81 h82
        apply uB_keeps
        · intro z83 h84
          apply wr_keeps
          with_reducible assumption
        · with_reducible assumption
      · with_reducible assumption

theorem onFnc_keeps {f : Fence → Fence} {u : UnitState} (h_u : UnitKeeps κ s₀ u) :
    UnitKeeps κ s₀ (onFnc f u) := by
  unfold onFnc
  with_reducible apply unit_mk_keeps
  change UnitKeeps κ s₀ _
  with_reducible assumption

theorem fncPut_keeps {p0 : Nat} {x : Option FncPair} {u : UnitState} (h_u : UnitKeeps κ s₀ u) :
    UnitKeeps κ s₀ (fncPut p0 x u) := by
  unfold fncPut
  apply onFnc_keeps
  with_reducible assumption

theorem fncCount_keeps {n : Nat} {u : UnitState} (h_u : UnitKeeps κ s₀ u) :
    UnitKeeps κ s₀ (fncCount n u) := by
  unfold fncCount
  apply uB_keeps
  · intro z85 h86
    apply wr_keeps
    with_reducible assumption
  · with_reducible assumption

theorem fncOver_keeps {src : BitVec 16} {tag : BitVec 16} {s : State} (h_s : StateKeeps κ s₀ s) :
    StateKeeps κ s₀ (fncOver src tag s) := by
  unfold fncOver
  apply iteState_keeps
  · with_reducible assumption
  · apply logU_keeps
    apply onUnit_keeps
    · intro z87 h88
      apply uB_keeps
      · intro z89 h90
        apply pgEvt_keeps
        apply wrB_keeps
        with_reducible assumption
      · with_reducible assumption
    · with_reducible assumption

theorem fncPair_keeps {src : BitVec 16} {tag : BitVec 16} {s : State} (h_s : StateKeeps κ s₀ s) :
    StateKeeps κ s₀ (fncPair src tag s).2 := by
  unfold fncPair
  split
  · with_reducible assumption
  · split
    · dsimp only
      apply onUnit_keeps
      · intro z91 h92
        apply fncPut_keeps
        with_reducible assumption
      · with_reducible assumption
    · dsimp only
      apply fncOver_keeps
      with_reducible assumption

theorem fncApply_keeps {g : FncSig} {s : State} (h_s : StateKeeps κ s₀ s) :
    StateKeeps κ s₀ (fncApply g s) := by
  unfold fncApply
  extract_lets v93
  apply iteState_keeps
  · apply onUnit_keeps
    · intro z94 h95
      apply onFnc_keeps
      with_reducible assumption
    · with_reducible assumption
  · apply iteState_keeps
    · apply logU_keeps
      apply onUnit_keeps
      · intro z96 h97
        apply fncCount_keeps
        with_reducible assumption
      · with_reducible assumption
    · apply semSignal_keeps
      apply onUnit_keeps
      · intro z98 h99
        apply uB_keeps
        · intro z100 h101
          apply inc_keeps
          with_reducible assumption
        · with_reducible assumption
      · with_reducible assumption

theorem fenceSignalOp_keeps {src : BitVec 16} {tag : BitVec 16} {wcount : BitVec 32} {sem : BitVec 16} {amount : BitVec 32} {s : State} (h_s : StateKeeps κ s₀ s) :
    StateKeeps κ s₀ (fenceSignalOp src tag wcount sem amount s) := by
  unfold fenceSignalOp
  extract_lets v102
  have h103 : StateKeeps κ s₀ v102.2 := by
    apply fncPair_keeps
    with_reducible assumption
  clear_value v102
  apply iteState_keeps
  · with_reducible assumption
  · split
    · apply onUnit_keeps
      · intro z104 h105
        apply fncCount_keeps
        with_reducible assumption
      · with_reducible assumption
    · extract_lets v106
      apply iteState_keeps
      · apply onUnit_keeps
        · intro z107 h108
          apply fncCount_keeps
          with_reducible assumption
        · with_reducible assumption
      · apply iteState_keeps
        · apply fncApply_keeps
          with_reducible assumption
        · apply onUnit_keeps
          · intro z109 h110
            apply onFnc_keeps
            with_reducible assumption
          · with_reducible assumption

theorem drainOp_keeps {src : BitVec 16} {tag : BitVec 16} {delta : BitVec 16} {s : State} (h_s : StateKeeps κ s₀ s) :
    StateKeeps κ s₀ (drainOp src tag delta s) := by
  unfold drainOp
  extract_lets v111
  have h112 : StateKeeps κ s₀ v111.2 := by
    apply fncPair_keeps
    with_reducible assumption
  clear_value v111
  apply iteState_keeps
  · with_reducible assumption
  · split
    · with_reducible assumption
    · extract_lets v113 v114 v115 v116
      have h117 : StateKeeps κ s₀ v114 := by
        apply onUnit_keeps
        · intro z118 h119
          apply fncPut_keeps
          with_reducible assumption
        · with_reducible assumption
      clear_value v114
      have h120 : StateKeeps κ s₀ v116 := by
        apply onUnit_keeps
        · intro z121 h122
          apply onFnc_keeps
          with_reducible assumption
        · with_reducible assumption
      clear_value v116
      apply iteState_keeps
      · with_reducible assumption
      · apply foldState_keeps
        · intro z123 z124 h125
          apply fncApply_keeps
          with_reducible assumption
        · with_reducible assumption

theorem fncTimeoutOp_keeps {s : State} (h_s : StateKeeps κ s₀ s) :
    StateKeeps κ s₀ (fncTimeoutOp s) := by
  unfold fncTimeoutOp
  extract_lets v126 v127 v128
  have h129 : StateKeeps κ s₀ v128 := by
    apply onUnit_keeps
    · intro z130 h131
      apply onFnc_keeps
      with_reducible assumption
    · with_reducible assumption
  clear_value v128
  apply foldState_keeps
  · intro z132 z133 h134
    apply logU_keeps
    apply onUnit_keeps
    · intro z135 h136
      apply uB_keeps
      · intro z137 h138
        apply pgEvt_keeps
        apply inc_keeps
        with_reducible assumption
      · with_reducible assumption
    · with_reducible assumption
  · with_reducible assumption

theorem fncDrop_keeps {p0 : Nat} {u : UnitState} (h_u : UnitKeeps κ s₀ u) :
    UnitKeeps κ s₀ (fncDrop p0 u) := by
  unfold fncDrop
  extract_lets v139 v140
  apply fncCount_keeps
  apply onFnc_keeps
  with_reducible assumption

theorem fncView_keeps {u : UnitState} (h_u : UnitKeeps κ s₀ u) :
    UnitKeeps κ s₀ (fncView u) := by
  unfold fncView
  extract_lets v141 v142 v143 v144 v145
  apply uB_keeps
  · intro z146 h147
    apply wr_keeps
    apply wr_keeps
    apply wr_keeps
    apply wr_keeps
    with_reducible assumption
  · with_reducible assumption

theorem dlkTick_keeps {u : UnitState} (h_u : UnitKeeps κ s₀ u) :
    UnitKeeps κ s₀ (dlkTick u) := by
  unfold dlkTick
  extract_lets v148
  with_reducible apply unit_mk_keeps
  change UnitKeeps κ s₀ _
  with_reducible assumption

theorem deadlockOp_keeps {s : State} (h_s : StateKeeps κ s₀ s) :
    StateKeeps κ s₀ (deadlockOp s) := by
  unfold deadlockOp
  extract_lets v149 v150 v151 v152
  have h153 : UnitKeeps κ s₀ v149 := by
    exact StateKeeps.unit (by assumption)
  clear_value v149
  have h154 : StateKeeps κ s₀ v152 := by
    apply onUnit_keeps
    · intro z155 h156
      extract_lets v157
      apply uB_keeps
      · intro z158 h159
        apply occur_keeps
        apply pgEvt_keeps
        apply inc_keeps
        apply wr64_keeps
        with_reducible assumption
      · with_reducible apply unit_mk_keeps
        change UnitKeeps κ s₀ _
        with_reducible assumption
    · with_reducible assumption
  clear_value v152
  apply iteState_keeps
  · apply logU_keeps
    with_reducible assumption
  · with_reducible assumption

theorem clearWaits_keeps {u : UnitState} (h_u : UnitKeeps κ s₀ u) :
    UnitKeeps κ s₀ (clearWaits u) := by
  unfold clearWaits
  extract_lets v160 v161 v162
  have h163 : UnitKeeps κ s₀ v161 := by
    apply foldUnit_keeps
    · intro z164 z165 h166
      apply foldUnit_keeps
      · intro z167 z168 h169
        apply releaseWait_keeps
        with_reducible assumption
      · with_reducible assumption
    · with_reducible assumption
  clear_value v161
  have h170 : UnitKeeps κ s₀ v162 := by
    apply dropWaits_keeps
    with_reducible assumption
  clear_value v162
  apply foldUnit_keeps
  · intro z171 z172 h173
    split
    · apply releaseCmp_keeps
      with_reducible assumption
    · with_reducible assumption
  · with_reducible assumption

theorem clearBars_keeps {u : UnitState} (h_u : UnitKeeps κ s₀ u) :
    UnitKeeps κ s₀ (clearBars u) := by
  unfold clearBars
  apply foldUnit_keeps
  · intro z174 z175 h176
    extract_lets v177
    apply iteUnit_keeps
    · with_reducible assumption
    · apply iteUnit_keeps
      · apply iteUnit_keeps
        · with_reducible assumption
        · apply barPut_keeps
          with_reducible assumption
      · apply barFresh_keeps
        apply endEntries_keeps
        with_reducible assumption
  · with_reducible assumption

theorem clearObjects_keeps {u : UnitState} (h_u : UnitKeeps κ s₀ u) :
    UnitKeeps κ s₀ (clearObjects u) := by
  unfold clearObjects
  extract_lets v178 v179 v180 v181 v182 v183 v184 v185
  have h186 : UnitKeeps κ s₀ v178 := by
    apply onSems_keeps
    with_reducible assumption
  clear_value v178
  have h187 : UnitKeeps κ s₀ v179 := by
    apply uB_keeps
    · intro z188 h189
      apply wrF_keeps
      apply wr_keeps
      with_reducible assumption
    · with_reducible assumption
  clear_value v179
  have h190 : UnitKeeps κ s₀ v181 := by
    apply foldUnit_keeps
    · intro z191 z192 h193
      apply flowClear_keeps
      with_reducible assumption
    · with_reducible assumption
  clear_value v181
  have h194 : UnitKeeps κ s₀ v182 := by
    apply fncCount_keeps
    with_reducible assumption
  clear_value v182
  have h195 : UnitKeeps κ s₀ v183 := by
    apply onFnc_keeps
    with_reducible assumption
  clear_value v183
  have h196 : UnitKeeps κ s₀ v184 := by
    apply uB_keeps
    · intro z197 h198
      apply wrB_keeps
      with_reducible assumption
    · with_reducible assumption
  clear_value v184
  with_reducible apply unit_mk_keeps
  change UnitKeeps κ s₀ _
  with_reducible assumption

theorem ctxClearOp_keeps {s : State} (h_s : StateKeeps κ s₀ s) :
    StateKeeps κ s₀ (ctxClearOp s) := by
  unfold ctxClearOp
  extract_lets v199 v200 v201 v202
  have h203 : StateKeeps κ s₀ v199 := by
    apply onUnit_keeps
    · intro z204 h205
      apply onSems_keeps
      with_reducible assumption
    · with_reducible assumption
  clear_value v199
  have h206 : StateKeeps κ s₀ v200 := by
    apply onUnit_keeps
    · intro z207 h208
      apply clearBars_keeps
      apply clearWaits_keeps
      with_reducible assumption
    · with_reducible assumption
  clear_value v200
  have h209 : StateKeeps κ s₀ v201 := by
    apply onUnit_keeps
    · intro z210 h211
      apply uB_keeps
      · intro z212 h213
        apply wrF_keeps
        with_reducible assumption
      · with_reducible assumption
    · with_reducible assumption
  clear_value v201
  have h214 : StateKeeps κ s₀ v202 := by
    apply onUnit_keeps
    · intro z215 h216
      apply onSems_keeps
      with_reducible assumption
    · with_reducible assumption
  clear_value v202
  apply iteState_keeps
  · with_reducible assumption
  · apply onUnit_keeps
    · intro z217 h218
      apply clearObjects_keeps
      with_reducible assumption
    · apply clientClear_keeps
      with_reducible assumption

theorem ctxClearDoneOp_keeps {u : UnitState} (h_u : UnitKeeps κ s₀ u) :
    UnitKeeps κ s₀ (ctxClearDoneOp u) := by
  unfold ctxClearDoneOp
  split
  · apply iteUnit_keeps
    · apply uB_keeps
      · intro z219 h220
        apply pgEvt_keeps
        with_reducible assumption
      · apply onSems_keeps
        with_reducible assumption
    · with_reducible assumption
  · with_reducible assumption

theorem retireSem_keeps {n : Nat} {s : State} (h_s : StateKeeps κ s₀ s) :
    StateKeeps κ s₀ (retireSem n s) := by
  unfold retireSem
  extract_lets v221 v222 v223 v224
  have h225 : UnitKeeps κ s₀ v221 := by
    exact StateKeeps.unit (by assumption)
  clear_value v221
  have h226 : StateKeeps κ s₀ v224 := by
    apply onUnit_keeps
    · intro z227 h228
      extract_lets v229 v230
      have h231 : UnitKeeps κ s₀ v229 := by
        apply onSems_keeps
        with_reducible assumption
      clear_value v229
      have h232 : UnitKeeps κ s₀ v230 := by
        apply dropWaits_keeps
        with_reducible assumption
      clear_value v230
      apply foldUnit_keeps
      · intro z233 z234 h235
        apply releaseWait_keeps
        with_reducible assumption
      · with_reducible assumption
    · with_reducible assumption
  clear_value v224
  apply iteState_keeps
  · with_reducible assumption
  · apply logU_keeps
    apply onUnit_keeps
    · intro z236 h237
      apply uB_keeps
      · intro z238 h239
        apply pgEvt_keeps
        with_reducible assumption
      · with_reducible assumption
    · with_reducible assumption

theorem loseEntry_keeps {u : UnitState} (h_u : UnitKeeps κ s₀ u) :
    UnitKeeps κ s₀ (loseEntry u) := by
  unfold loseEntry
  apply watchNote_keeps
  apply onSems_keeps
  with_reducible assumption

theorem eccOp_keeps {t : EccTarget} {s : State} (h_s : StateKeeps κ s₀ s) :
    StateKeeps κ s₀ (eccOp t s) := by
  unfold eccOp
  extract_lets v240
  split
  · apply iteState_keeps
    · with_reducible assumption
    · apply retireSem_keeps
      with_reducible assumption
  · apply iteState_keeps
    · with_reducible assumption
    · apply retireSem_keeps
      apply onUnit_keeps
      · intro z241 h242
        apply loseEntry_keeps
        with_reducible assumption
      · with_reducible assumption
  · apply iteState_keeps
    · with_reducible assumption
    · apply onUnit_keeps
      · intro z243 h244
        apply loseEntry_keeps
        with_reducible assumption
      · with_reducible assumption
  · extract_lets v245 v246
    have h247 : StateKeeps κ s₀ v246 := by
      apply onUnit_keeps
      · intro z248 h249
        extract_lets v250 v251
        have h252 : UnitKeeps κ s₀ v250 := by
          apply endEntries_keeps
          with_reducible assumption
        clear_value v250
        apply barPut_keeps
        with_reducible assumption
      · with_reducible assumption
    clear_value v246
    apply iteState_keeps
    · with_reducible assumption
    · apply logU_keeps
      with_reducible assumption
  · apply iteState_keeps
    · with_reducible assumption
    · apply logU_keeps
      apply onUnit_keeps
      · intro z253 h254
        extract_lets v255
        apply flowPut_keeps
        with_reducible assumption
      · with_reducible assumption
  · extract_lets v256
    have h257 : StateKeeps κ s₀ v256 := by
      apply onUnit_keeps
      · intro z258 h259
        apply fncDrop_keeps
        apply onFnc_keeps
        with_reducible assumption
      · with_reducible assumption
    clear_value v256
    apply iteState_keeps
    · with_reducible assumption
    · apply logU_keeps
      with_reducible assumption

theorem applyTick_keeps {u : UnitState} (h_u : UnitKeeps κ s₀ u) :
    UnitKeeps κ s₀ (applyTick u) := by
  unfold applyTick
  split
  · apply iteUnit_keeps
    · apply uB_keeps
      · intro z260 h261
        apply inc_keeps
        apply emit_keeps
        with_reducible assumption
      · apply onFnc_keeps
        with_reducible assumption
    · with_reducible assumption
  · with_reducible assumption

theorem fncTick_keeps {u : UnitState} (h_u : UnitKeeps κ s₀ u) :
    UnitKeeps κ s₀ (fncTick u) := by
  unfold fncTick
  apply iteUnit_keeps
  · with_reducible assumption
  · apply uB_keeps
    · intro z262 h263
      apply inc_keeps
      with_reducible assumption
    · with_reducible assumption

theorem contextTick_keeps {s : State} (h_s : StateKeeps κ s₀ s) :
    StateKeeps κ s₀ (contextTick s) := by
  unfold contextTick
  extract_lets v264 v265 v266
  have h267 : StateKeeps κ s₀ v265 := by
    apply foldState_keeps
    · intro z268 z269 h270
      apply barReach_keeps
      with_reducible assumption
    · with_reducible assumption
  clear_value v265
  have h271 : StateKeeps κ s₀ v266 := by
    apply onUnit_keeps
    · intro z272 h273
      apply iteUnit_keeps
      · apply uB_keeps
        · intro z274 h275
          apply inc_keeps
          with_reducible assumption
        · with_reducible assumption
      · with_reducible assumption
    · with_reducible assumption
  clear_value v266
  apply onUnit_keeps
  · intro z276 h277
    apply dlkTick_keeps
    apply applyTick_keeps
    with_reducible assumption
  · with_reducible assumption

end Sys2Proof.Machine
end

