-- ==== Sys2Proof/Laws/KeepsHealth.lean ====
section
/-! SUPPORT. What the operations of Machine/Health.lean keep. -/

namespace Sys2Proof.Machine

variable {κ : Bool} {s₀ : State} {b₀ : Base}

theorem forwardLimited_keeps {key : Nat} {body : BitVec 64} {s : State} (h_s : StateKeeps κ s₀ s) :
    StateKeeps κ s₀ (forwardLimited key body s) := by
  unfold forwardLimited
  extract_lets v0 v1
  have h2 : DistKeeps κ s₀ v0 := by
    exact StateKeeps.dist (by assumption)
  clear_value v0
  apply iteState_keeps
  · with_reducible assumption
  · apply iteState_keeps
    · apply onDist_keeps
      · intro z3 h4
        apply dB_keeps
        · intro z5 h6
          apply inc_keeps
          with_reducible assumption
        · with_reducible assumption
      · with_reducible assumption
    · apply healthUp_keeps
      apply onDist_keeps
      · intro z7 h8
        apply onAdm_keeps
        with_reducible assumption
      · with_reducible assumption

theorem launchReport_keeps {code : BitVec 12} {obj : Nat} {body : BitVec 64} {s : State} (h_s : StateKeeps κ s₀ s) :
    StateKeeps κ s₀ (launchReport code obj body s) := by
  unfold launchReport
  apply iteState_keeps
  · apply iteState_keeps
    · apply logD_keeps
      with_reducible assumption
    · with_reducible assumption
  · apply forwardLimited_keeps
    with_reducible assumption

theorem unreachableReport_keeps {n : Nat} {body : BitVec 64} {s : State} (h_s : StateKeeps κ s₀ s) :
    StateKeeps κ s₀ (unreachableReport n body s) := by
  unfold unreachableReport
  apply iteState_keeps
  · apply iteState_keeps
    · apply forwardLimited_keeps
      with_reducible assumption
    · with_reducible assumption
  · apply iteState_keeps
    · apply onPort_keeps
      with_reducible assumption
    · with_reducible assumption

theorem faultReport_keeps {n : Nat} {uid : Nat} {dist : Bool} {code : BitVec 12} {detail : Nat} {body : BitVec 64} {s : State} (h_s : StateKeeps κ s₀ s) :
    StateKeeps κ s₀ (faultReport n uid dist code detail body s) := by
  unfold faultReport
  extract_lets v9 v10 v11 v12
  have h13 : StateKeeps κ s₀ v11 := by
    apply onDist_keeps
    · intro z14 h15
      apply dB_keeps
      · intro z16 h17
        apply addEntry_keeps
        with_reducible assumption
      · with_reducible assumption
    · with_reducible assumption
  clear_value v11
  have h18 : StateKeeps κ s₀ v12 := by
    apply onDist_keeps
    · intro z19 h20
      apply onAdm_keeps
      with_reducible assumption
    · with_reducible assumption
  clear_value v12
  apply iteState_keeps
  · apply launchReport_keeps
    with_reducible assumption
  · apply iteState_keeps
    · apply iteState_keeps
      · with_reducible assumption
      · apply healthUp_keeps
        with_reducible assumption
    · apply iteState_keeps
      · apply unreachableReport_keeps
        with_reducible assumption
      · apply iteState_keeps
        · apply sendSyncBase_keeps
          with_reducible assumption
        · with_reducible assumption

theorem idReport_keeps {n : Nat} {uid : Nat} {gone : Bool} {body : BitVec 64} {s : State} (h_s : StateKeeps κ s₀ s) :
    StateKeeps κ s₀ (idReport n uid gone body s) := by
  unfold idReport
  apply iteState_keeps
  · apply iteState_keeps
    · apply idWithdrawn_keeps
      with_reducible assumption
    · apply idAdmitted_keeps
      with_reducible assumption
  · apply healthUp_keeps
    with_reducible assumption

theorem voteOp_keeps {n : Nat} {detail : Nat} {s : State} (h_s : StateKeeps κ s₀ s) :
    StateKeeps κ s₀ (voteOp n detail s) := by
  unfold voteOp
  apply addScore_keeps
  apply onPort_keeps
  with_reducible assumption

theorem healthOp_keeps {n : Nat} {uid : Nat} {dist : Bool} {kind : Nat} {code : BitVec 12} {detail : Nat} {body : BitVec 64} {s : State} (h_s : StateKeeps κ s₀ s) :
    StateKeeps κ s₀ (healthOp n uid dist kind code detail body s) := by
  unfold healthOp
  apply iteState_keeps
  · with_reducible assumption
  · apply iteState_keeps
    · apply iteState_keeps
      · apply idReport_keeps
        with_reducible assumption
      · with_reducible assumption
    · apply iteState_keeps
      · apply faultReport_keeps
        with_reducible assumption
      · apply iteState_keeps
        · apply voteOp_keeps
          with_reducible assumption
        · with_reducible assumption

theorem voteSend_keeps {p0 : PortRef} {s : State} (h_s : StateKeeps κ s₀ s) :
    StateKeeps κ s₀ (voteSend p0 s) := by
  unfold voteSend
  extract_lets v21 v22 v23 v24
  have h25 : StateKeeps κ s₀ v24 := by
    apply onPort_keeps
    with_reducible assumption
  clear_value v24
  apply iteState_keeps
  · apply sendSeq_keeps
    with_reducible assumption
  · with_reducible assumption

theorem decayOp_keeps {d : DistState} (h_d : DistKeeps κ s₀ d) :
    DistKeeps κ s₀ (decayOp d) := by
  unfold decayOp
  extract_lets v26
  have h27 : DistKeeps κ s₀ v26 := by
    apply onAdm_keeps
    with_reducible assumption
  clear_value v26
  apply iteDist_keeps
  · apply foldDist_keeps
    · intro z28 z29 h30
      apply setDistPort_keeps
      with_reducible assumption
    · with_reducible assumption
  · with_reducible assumption

theorem expelPort_keeps {n : Nat} {s : State} (h_s : StateKeeps κ s₀ s) :
    StateKeeps κ s₀ (expelPort n s) := by
  unfold expelPort
  extract_lets v31 v32 v33 v34
  have h35 : StateKeeps κ s₀ v32 := by
    apply leaving_keeps
    · intro z36 h37
      apply linkDown_keeps
      with_reducible assumption
    · apply onPort_keeps
      with_reducible assumption
  clear_value v32
  have h38 : StateKeeps κ s₀ v33 := by
    apply onDist_keeps
    · intro z39 h40
      apply dB_keeps
      · intro z41 h42
        apply inc_keeps
        apply pgEvt_keeps
        apply pgEvt_keeps
        with_reducible assumption
      · apply onAdm_keeps
        with_reducible assumption
    · with_reducible assumption
  clear_value v33
  have h43 : StateKeeps κ s₀ v34 := by
    apply logD_keeps
    with_reducible assumption
  clear_value v34
  apply iteState_keeps
  · with_reducible assumption
  · apply sendReport_keeps
    with_reducible assumption

theorem wouldExpel_keeps {n : Nat} {cause : Nat} {s : State} (h_s : StateKeeps κ s₀ s) :
    StateKeeps κ s₀ (wouldExpel n cause s) := by
  unfold wouldExpel
  extract_lets v44 v45 v46 v47
  have h48 : StateKeeps κ s₀ v46 := by
    apply onPort_keeps
    with_reducible assumption
  clear_value v46
  have h49 : StateKeeps κ s₀ v47 := by
    apply iteState_keeps
    · with_reducible assumption
    · apply onDist_keeps
      · intro z50 h51
        apply dB_keeps
        · intro z52 h53
          apply pgEvt_keeps
          with_reducible assumption
        · with_reducible assumption
      · with_reducible assumption
  clear_value v47
  apply iteState_keeps
  · with_reducible assumption
  · apply logD_keeps
    apply onDist_keeps
    · intro z54 h55
      apply dB_keeps
      · intro z56 h57
        apply inc_keeps
        with_reducible assumption
      · with_reducible assumption
    · with_reducible assumption

theorem crcPeriod_keeps {d : DistState} (h_d : DistKeeps κ s₀ d) : DistKeeps κ s₀ (crcPeriod d) :=
  foldDist_keeps (fun _ _ h => setDistPort_keeps h) h_d

theorem evaluateOp_keeps {s : State} (h_s : StateKeeps κ s₀ s) :
    StateKeeps κ s₀ (evaluateOp s) := by
  unfold evaluateOp
  extract_lets v58 v59
  have h60 : DistKeeps κ s₀ v58 := by
    exact StateKeeps.dist (by assumption)
  clear_value v58
  have h61 : StateKeeps κ s₀ v59 := by
    apply onDist_keeps
    · intro z62 h63
      apply crcPeriod_keeps
      apply onAdm_keeps
      with_reducible assumption
    · with_reducible assumption
  clear_value v59
  apply iteState_keeps
  · apply foldState_keeps
    · intro z64 z65 h66
      extract_lets v67
      apply iteState_keeps
      · apply expelPort_keeps
        with_reducible assumption
      · apply wouldExpel_keeps
        with_reducible assumption
    · with_reducible assumption
  · with_reducible assumption

theorem healthReadmitOp_keeps {n : Fin 132} {s : State} (h_s : StateKeeps κ s₀ s) :
    StateKeeps κ s₀ (healthReadmitOp n s) := by
  unfold healthReadmitOp
  apply testDown_keeps
  apply onPort_keeps
  with_reducible assumption

theorem distStop_keeps {s : State} (h_s : StateKeeps false s₀ s) :
    StateKeeps false s₀ (distStop s) := by
  unfold distStop
  extract_lets v68
  have h69 : StateKeeps false s₀ v68 := by
    apply foldState_keeps
    · intro z70 z71 h72
      apply linkDown_keeps
      with_reducible assumption
    · with_reducible assumption
  clear_value v68
  apply onDist_keeps
  · intro z73 h74
    extract_lets v75 v76
    have h77 : DistKeeps false s₀ v75 := by
      apply dB_keeps
      · intro z78 h79
        extract_lets v80
        have h82 : Keeps false s₀.dist.base v80 := by
          apply emit_keeps
          apply emit_keeps
          with_reducible assumption
        clear_value v80
        with_reducible apply base_set_keeps
        with_reducible assumption
      · with_reducible assumption
    clear_value v75
    with_reducible apply dist_mk_keeps
    change DistKeeps false s₀ _
    with_reducible assumption
  · with_reducible assumption

theorem wdogOp_keeps {engine : Nat} {s : State} (h_s : StateKeeps false s₀ s) :
    StateKeeps false s₀ (wdogOp engine s) := by
  unfold wdogOp
  apply distStop_keeps
  apply logD_keeps
  with_reducible assumption

theorem memFatalOp_keeps {mem : Nat} {s : State} (h_s : StateKeeps false s₀ s) :
    StateKeeps false s₀ (memFatalOp mem s) := by
  unfold memFatalOp
  apply distStop_keeps
  apply logD_keeps
  with_reducible assumption

theorem thmJudge_keeps {s : State} (h_s : StateKeeps κ s₀ s) :
    StateKeeps κ s₀ (thmJudge s) := by
  unfold thmJudge
  extract_lets v83 v84 v85
  have h86 : StateKeeps κ s₀ v85 := by
    apply onDist_keeps
    · intro z87 h88
      apply dB_keeps
      · intro z89 h90
        apply wr_keeps
        with_reducible assumption
      · with_reducible assumption
    · with_reducible assumption
  clear_value v85
  apply iteState_keeps
  · apply logD_keeps
    apply onDist_keeps
    · intro z91 h92
      apply dB_keeps
      · intro z93 h94
        apply pgEvt_keeps
        with_reducible assumption
      · with_reducible assumption
    · with_reducible assumption
  · apply iteState_keeps
    · apply onDist_keeps
      · intro z95 h96
        apply dB_keeps
        · intro z97 h98
          apply pgEvt_keeps
          with_reducible assumption
        · with_reducible assumption
      · with_reducible assumption
    · with_reducible assumption

theorem thmSampleOp_keeps {k : Nat} {temp : Nat} {s : State} (h_s : StateKeeps false s₀ s) :
    StateKeeps false s₀ (thmSampleOp k temp s) := by
  unfold thmSampleOp
  extract_lets v99 v100 v101 v102
  have h103 : StateKeeps false s₀ v101 := by
    apply onDist_keeps
    · intro z104 h105
      apply dB_keeps
      · intro z106 h107
        extract_lets v108
        have h110 : Keeps false s₀.dist.base v108 := by
          apply wr_keeps
          with_reducible assumption
        clear_value v108
        apply iteBase_keeps
        · apply wrF_keeps
          with_reducible assumption
        · with_reducible assumption
      · with_reducible assumption
    · with_reducible assumption
  clear_value v101
  have h111 : StateKeeps false s₀ v102 := by
    apply thmJudge_keeps
    with_reducible assumption
  clear_value v102
  apply iteState_keeps
  · apply distStop_keeps
    apply logD_keeps
    with_reducible assumption
  · with_reducible assumption

theorem thmFailOp_keeps {k : Nat} {s : State} (h_s : StateKeeps κ s₀ s) :
    StateKeeps κ s₀ (thmFailOp k s) := by
  unfold thmFailOp
  extract_lets v112
  have h113 : DistKeeps κ s₀ v112 := by
    exact StateKeeps.dist (by assumption)
  clear_value v112
  apply iteState_keeps
  · apply logD_keeps
    apply onDist_keeps
    · intro z114 h115
      apply onAdm_keeps
      with_reducible assumption
    · with_reducible assumption
  · with_reducible assumption

theorem muteOp_keeps {s : State} (h_s : StateKeeps κ s₀ s) :
    StateKeeps κ s₀ (muteOp s) := by
  unfold muteOp
  extract_lets v116 v117
  have h118 : DistKeeps κ s₀ v116 := by
    exact StateKeeps.dist (by assumption)
  clear_value v116
  apply iteState_keeps
  · apply logD_keeps
    apply onDist_keeps
    · intro z119 h120
      apply dB_keeps
      · intro z121 h122
        apply pgEvt_keeps
        apply wrB_keeps
        with_reducible assumption
      · apply freeContexts_keeps
        apply onCmb_keeps
        with_reducible assumption
    · with_reducible assumption
  · with_reducible assumption

theorem soleOp_keeps {s : State} (h_s : StateKeeps κ s₀ s) :
    StateKeeps κ s₀ (soleOp s) := by
  unfold soleOp
  extract_lets v123 v124
  have h125 : DistKeeps κ s₀ v123 := by
    exact StateKeeps.dist (by assumption)
  clear_value v123
  have h126 : StateKeeps κ s₀ v124 := by
    apply onDist_keeps
    · intro z127 h128
      apply setLead_keeps
      apply onCmb_keeps
      with_reducible assumption
    · with_reducible assumption
  clear_value v124
  apply iteState_keeps
  · apply launchTake_keeps
    apply distSettleAll_keeps
    apply logD_keeps
    with_reducible assumption
  · with_reducible assumption

theorem ropeLostOp_keeps {s : State} (h_s : StateKeeps κ s₀ s) :
    StateKeeps κ s₀ (ropeLostOp s) := by
  unfold ropeLostOp
  extract_lets v129
  have h130 : DistKeeps κ s₀ v129 := by
    exact StateKeeps.dist (by assumption)
  clear_value v129
  apply iteState_keeps
  · apply logD_keeps
    apply onDist_keeps
    · intro z131 h132
      extract_lets v133
      with_reducible apply dist_mk_keeps
      change DistKeeps κ s₀ _
      with_reducible assumption
    · with_reducible assumption
  · with_reducible assumption

theorem handbackOp_keeps {s : State} (h_s : StateKeeps κ s₀ s) :
    StateKeeps κ s₀ (handbackOp s) := by
  unfold handbackOp
  extract_lets v134 v135 v136 v137
  have h138 : DistKeeps κ s₀ v134 := by
    exact StateKeeps.dist (by assumption)
  clear_value v134
  have h139 : StateKeeps κ s₀ v135 := by
    apply sendSync_keeps
    with_reducible assumption
  clear_value v135
  have h140 : StateKeeps κ s₀ v137 := by
    apply onDist_keeps
    · intro z141 h142
      apply setLead_keeps
      apply onCmb_keeps
      with_reducible assumption
    · with_reducible assumption
  clear_value v137
  apply iteState_keeps
  · apply logD_keeps
    with_reducible assumption
  · with_reducible assumption

theorem recRead_keeps {ch : Nat} {b : Base} (h_b : Keeps κ b₀ b) : Keeps κ b₀ (recRead ch b).2 := by
  unfold recRead
  apply latch_keeps
  apply latch_keeps
  apply latch_keeps
  refine h_b.same rfl rfl rfl rfl rfl id (fun e => Nat.le_trans ?_ e)
  simp only [List.length_drop]
  exact Nat.sub_le _ _

end Sys2Proof.Machine
end

