-- ==== Sys2Proof/Laws/KeepsStartup.lean ====
section
/-! SUPPORT. What the operations of Machine/Startup.lean keep. -/

namespace Sys2Proof.Machine

variable {κ : Bool} {s₀ : State} {b₀ : Base}

theorem keepRegs_keeps {l : List Nat} {old : Base} {new : Base} (h_new : Keeps κ b₀ new) :
    Keeps κ b₀ (keepRegs l old new) := by
  unfold keepRegs
  apply foldBase_keeps
  · intro z0 z1 h2
    apply wr_keeps
    with_reducible assumption
  · with_reducible assumption

theorem formDkey_keeps {b : Base} (h_b : Keeps κ b₀ b) :
    Keeps κ b₀ (formDkey b) := by
  unfold formDkey
  apply wr_keeps
  with_reducible assumption

theorem drivePins_keeps {d : DistState} (h_d : DistKeeps κ s₀ d) :
    DistKeeps κ s₀ (drivePins d) := by
  unfold drivePins
  extract_lets v3
  apply iteDist_keeps
  · with_reducible assumption
  · apply dB_keeps
    · intro z4 h5
      apply emit_keeps
      apply emit_keeps
      with_reducible assumption
    · apply onAdm_keeps
      with_reducible assumption

theorem distHeld_keeps {phase : Phase} {keep : List Nat} {d : DistState} (h_d : DistKeeps false s₀ d) :
    DistKeeps false s₀ (distHeld phase keep d) := by
  unfold distHeld
  extract_lets v6 v7 v8
  have h10 : Keeps false s₀.dist.base v6 := by
    change DistKeeps false s₀ _
    with_reducible assumption
  clear_value v6
  have h12 : Keeps false s₀.dist.base v7 := by
    apply keepRegs_keeps
    apply baseAtReset_keeps
    with_reducible assumption
  clear_value v7
  have h14 : Keeps false s₀.dist.base v8 := by
    apply wrB_keeps
    with_reducible apply base_mk_keeps
    with_reducible assumption
  clear_value v8
  apply distAtReset_keeps
  apply emit_keeps
  apply emit_keeps
  apply emit_keeps
  with_reducible assumption

theorem supplyFaultOp_keeps {s : State} (h_s : StateKeeps false s₀ s) :
    StateKeeps false s₀ (supplyFaultOp s) := by
  unfold supplyFaultOp
  apply onDist_keeps
  · intro z15 h16
    apply distHeld_keeps
    with_reducible assumption
  · with_reducible assumption

theorem powerOnOp_keeps {s : State} (h_s : StateKeeps false s₀ s) :
    StateKeeps false s₀ (powerOnOp s) := by
  unfold powerOnOp
  apply iteState_keeps
  · apply onDist_keeps
    · intro z17 h18
      apply distHeld_keeps
      with_reducible assumption
    · with_reducible assumption
  · with_reducible assumption

theorem warmResetOp_keeps {s : State} (h_s : StateKeeps false s₀ s) :
    StateKeeps false s₀ (warmResetOp s) := by
  unfold warmResetOp
  apply iteState_keeps
  · with_reducible assumption
  · apply onDist_keeps
    · intro z19 h20
      apply distHeld_keeps
      with_reducible assumption
    · with_reducible assumption

theorem perstOp_keeps {s : State} (h_s : StateKeeps κ s₀ s) : StateKeeps κ s₀ (perstOp s) := by
  unfold perstOp
  apply onDist_keeps
  · intro z hz
    apply dB_keeps
    · intro b hb
      exact hb.same rfl rfl rfl rfl rfl (tabFilter_wf _ _ _) id
    · exact hz
  · exact h_s

theorem recast_keeps {st : Straps} {b : Base} (h_b : Keeps false b₀ b) (hd : isUnit b₀ = false) :
    Keeps false b₀ (recast (.dist st) b) := by
  unfold recast
  apply foldBase_keeps
  · intro z x hz
    exact wr_keeps hz
  · have hu : isUnit b = false := h_b.part.trans hd
    refine ⟨hd.symm, fun _ => rfl, fun e => ?_, fun e => by cases e⟩
    have h := h_b.log e
    simp only [logCap, hu] at h
    exact h

theorem distReleaseOp_keeps {st : Straps} {s : State} (h_s : StateKeeps false s₀ s) (hd : isUnit s₀.dist.base = false) :
    StateKeeps false s₀ (distReleaseOp st s) := by
  unfold distReleaseOp
  extract_lets v21 v22 v23 v24 v25
  have h27 : Keeps false s₀.dist.base v21 := by
    exact StateKeeps.dist (by assumption)
  clear_value v21
  have h29 : Keeps false s₀.dist.base v22 := by
    apply recast_keeps
    · with_reducible assumption
    · with_reducible assumption
  clear_value v22
  have h31 : Keeps false s₀.dist.base v23 := by
    apply formDkey_keeps
    with_reducible apply base_set_keeps
    with_reducible assumption
  clear_value v23
  have h33 : Keeps false s₀.dist.base v24 := by
    apply iteBase_keeps
    · apply pgEvt_keeps
      apply wrB_keeps
      with_reducible apply base_set_keeps
      with_reducible assumption
    · with_reducible assumption
  clear_value v24
  have h35 : Keeps false s₀.dist.base v25 := by
    apply iteBase_keeps
    · apply wrB_keeps
      with_reducible assumption
    · with_reducible assumption
  clear_value v25
  apply iteState_keeps
  · apply onDist_keeps
    · intro z36 h37
      apply drivePins_keeps
      apply distAtReset_keeps
      with_reducible assumption
    · with_reducible assumption
  · with_reducible assumption

theorem distInitOp_keeps {s : State} (h_s : StateKeeps false s₀ s) :
    StateKeeps false s₀ (distInitOp s) := by
  unfold distInitOp
  extract_lets v38
  have h40 : Keeps false s₀.dist.base v38 := by
    exact StateKeeps.dist (by assumption)
  clear_value v38
  apply iteState_keeps
  · apply foldState_keeps
    · intro z41 z42 h43
      apply testDown_keeps
      with_reducible assumption
    · apply onDist_keeps
      · intro z44 h45
        apply dB_keeps
        · intro z46 h47
          with_reducible apply base_set_keeps
          with_reducible assumption
        · with_reducible assumption
      · with_reducible assumption
  · with_reducible assumption

theorem unitHeld_keeps {porst : Bool} {u : UnitState} (h_u : UnitKeeps false s₀ u) :
    UnitKeeps false s₀ (unitHeld porst u) := by
  unfold unitHeld
  extract_lets v48 v49 v50 v51 v52 v53 v54 v55 v56
  have h57 : Keeps false s₀.unit.base v48 := by
    change UnitKeeps false s₀ _
    with_reducible assumption
  clear_value v48
  have h58 : Keeps false s₀.unit.base v50 := by
    apply keepRegs_keeps
    apply baseAtReset_keeps
    with_reducible assumption
  clear_value v50
  have h59 : Keeps false s₀.unit.base v51 := by
    dsimp only [v51]
    with_reducible apply base_mk_keeps
    with_reducible assumption
  clear_value v51
  have h60 : Keeps false s₀.unit.base v53 := by
    apply foldBase_keeps
    · intro z61 z62 h63
      apply emit_keeps
      with_reducible assumption
    · with_reducible assumption
  clear_value v53
  have h64 : Keeps false s₀.unit.base v54 := by
    apply emit_keeps
    apply emit_keeps
    with_reducible assumption
  clear_value v54
  have h65 : UnitKeeps false s₀ v55 := by
    apply unitAtReset_keeps
    with_reducible assumption
  clear_value v55
  with_reducible apply unit_mk_keeps
  change UnitKeeps false s₀ _
  with_reducible assumption

theorem unitReleaseOp_keeps {s : State} (h_s : StateKeeps false s₀ s) :
    StateKeeps false s₀ (unitReleaseOp s) := by
  unfold unitReleaseOp
  apply iteState_keeps
  · apply onUnit_keeps
    · intro z66 h67
      extract_lets v68
      have h69 : UnitKeeps false s₀ v68 := by
        apply uB_keeps
        · intro z70 h71
          apply formDkey_keeps
          with_reducible apply base_set_keeps
          with_reducible assumption
        · with_reducible assumption
      clear_value v68
      with_reducible apply unit_mk_keeps
      change UnitKeeps false s₀ _
      with_reducible assumption
    · with_reducible assumption
  · with_reducible assumption

theorem unitInitOp_keeps {s : State} (h_s : StateKeeps false s₀ s) :
    StateKeeps false s₀ (unitInitOp s) := by
  unfold unitInitOp
  extract_lets v72 v73
  have h74 : Keeps false s₀.unit.base v72 := by
    exact StateKeeps.unit (by assumption)
  clear_value v72
  have h75 : StateKeeps false s₀ v73 := by
    apply onUnit_keeps
    · intro z76 h77
      apply uB_keeps
      · intro z78 h79
        with_reducible apply base_set_keeps
        with_reducible assumption
      · with_reducible assumption
    · with_reducible assumption
  clear_value v73
  apply iteState_keeps
  · apply unitFsm_keeps
    apply testDown_keeps
    apply testDown_keeps
    apply setTck_keeps
    with_reducible assumption
  · with_reducible assumption

theorem servoReload_keeps {s : State} (h_s : StateKeeps κ s₀ s) :
    StateKeeps κ s₀ (servoReload s) := by
  unfold servoReload
  extract_lets v80 v81
  have h82 : StateKeeps κ s₀ v80 := by
    apply restartDiff_keeps
    apply stopRebase_keeps
    with_reducible assumption
  clear_value v80
  have h83 : StateKeeps κ s₀ v81 := by
    apply onUnit_keeps
    · intro z84 h85
      apply uB_keeps
      · intro z86 h87
        apply wr_keeps
        apply wr_keeps
        with_reducible assumption
      · with_reducible assumption
    · with_reducible assumption
  clear_value v81
  apply setSts_keeps
  apply setSts_keeps
  apply setLock_keeps
  apply onServo_keeps
  with_reducible assumption

theorem reloadOp_keeps {s : State} (h_s : StateKeeps false s₀ s) :
    StateKeeps false s₀ (reloadOp s) := by
  unfold reloadOp
  extract_lets v88 v89 v90 v91 v92
  have h93 : StateKeeps false s₀ v88 := by
    apply onUnit_keeps
    · intro z94 h95
      apply uB_keeps
      · intro z96 h97
        apply wr_keeps
        with_reducible assumption
      · with_reducible assumption
    · with_reducible assumption
  clear_value v88
  have h98 : StateKeeps false s₀ v89 := by
    apply dripsReload_keeps
    apply clientClear_keeps
    apply onUnit_keeps
    · intro z99 h100
      apply ttbReload_keeps
      with_reducible assumption
    · apply launchReload_keeps
      with_reducible assumption
  clear_value v89
  have h101 : StateKeeps false s₀ v90 := by
    apply servoReload_keeps
    apply onUnit_keeps
    · intro z102 h103
      apply capsReload_keeps
      apply tapsReload_keeps
      with_reducible assumption
    · with_reducible assumption
  clear_value v90
  have h104 : StateKeeps false s₀ v91 := by
    apply onUnit_keeps
    · intro z105 h106
      apply uB_keeps
      · intro z107 h108
        apply inc_keeps
        apply unitCloseWindow_keeps
        with_reducible assumption
      · with_reducible assumption
    · with_reducible assumption
  clear_value v91
  have h109 : StateKeeps false s₀ v92 := by
    apply onUnit_keeps
    · intro z110 h111
      with_reducible apply unit_mk_keeps
      change UnitKeeps false s₀ _
      with_reducible assumption
    · with_reducible assumption
  clear_value v92
  apply iteState_keeps
  · apply logU_keeps
    with_reducible assumption
  · apply unitFsm_keeps
    apply chooseActive_keeps
    apply onUnit_keeps
    · intro z112 h113
      apply uB_keeps
      · intro z114 h115
        with_reducible apply base_set_keeps
        with_reducible assumption
      · with_reducible assumption
    · apply setTck_keeps
      with_reducible assumption

theorem dbgArmOp_keeps {u : UnitState} (h_u : UnitKeeps κ s₀ u) :
    UnitKeeps κ s₀ (dbgArmOp u) := by
  unfold dbgArmOp
  extract_lets v116
  with_reducible apply unit_mk_keeps
  change UnitKeeps κ s₀ _
  with_reducible assumption

theorem dbgTriggerOp_keeps {u : UnitState} (h_u : UnitKeeps κ s₀ u) :
    UnitKeeps κ s₀ (dbgTriggerOp u) := by
  unfold dbgTriggerOp
  apply traceTrigger_keeps
  with_reducible assumption

theorem dbgInjectOp_keeps {u : UnitState} (h_u : UnitKeeps κ s₀ u) :
    UnitKeeps κ s₀ (dbgInjectOp u) := by
  unfold dbgInjectOp
  extract_lets v117
  apply iteUnit_keeps
  · with_reducible assumption
  · with_reducible apply unit_mk_keeps
    change UnitKeeps κ s₀ _
    with_reducible assumption

end Sys2Proof.Machine
end

