-- ==== Sys2Proof/Laws/KeepsRegWrite.lean ====
section
/-! SUPPORT. What the operations of Machine/RegWrite.lean keep. -/

namespace Sys2Proof.Machine

variable {κ : Bool} {s₀ : State} {b₀ : Base}

theorem logPart_keeps {part : Part} {hu : Hap} {hd : Hap} {obj : Nat} {aux : Nat} {s : State} (h_s : StateKeeps κ s₀ s) :
    StateKeeps κ s₀ (logPart part hu hd obj aux s) := by
  unfold logPart
  split
  · apply logU_keeps
    with_reducible assumption
  · apply logD_keeps
    with_reducible assumption

theorem acceptPrw_keeps {part : Part} {p0 : Nat} {o : Nat} {s : State} (h_s : StateKeeps κ s₀ s) :
    StateKeeps κ s₀ (acceptPrw part p0 o s) := by
  unfold acceptPrw
  extract_lets v0
  have h1 : StateKeeps κ s₀ v0 := by
    dsimp only [v0]
    split
    · apply onUnit_keeps
      · intro z2 h3
        apply uB_keeps
        · intro z4 h5
          apply pgEvt_keeps
          with_reducible assumption
        · with_reducible assumption
      · with_reducible assumption
    · apply onDist_keeps
      · intro z6 h7
        apply dB_keeps
        · intro z8 h9
          apply wr_keeps
          with_reducible assumption
        · with_reducible assumption
      · with_reducible assumption
  clear_value v0
  apply logPart_keeps
  with_reducible assumption

theorem storeOne_keeps {part : Part} {p0 : Nat} {win : Bool} {flds : List Fld} {w : RegW} {s : State} (h_s : StateKeeps κ s₀ s) :
    StateKeeps κ s₀ (storeOne part p0 win flds w s) := by
  unfold storeOne
  extract_lets v10
  apply onPartBase_keeps
  · intro z11 z12 h13
    apply wr_keeps
    with_reducible assumption
  · with_reducible assumption

theorem store_keeps {part : Part} {p0 : Nat} {flds : Nat → List Fld} {ws : List RegW} {s : State} (h_s : StateKeeps κ s₀ s) :
    StateKeeps κ s₀ (store part p0 flds ws s) := by
  unfold store
  extract_lets v14 v15 v16 v17 v18
  have h19 : StateKeeps κ s₀ v18 := by
    apply foldState_keeps
    · intro z20 z21 h22
      apply storeOne_keeps
      with_reducible assumption
    · with_reducible assumption
  clear_value v18
  apply iteState_keeps
  · apply logPart_keeps
    with_reducible assumption
  · apply iteState_keeps
    · apply acceptPrw_keeps
      with_reducible assumption
    · with_reducible assumption

theorem storeChecked_keeps {part : Part} {p0 : Nat} {ws : List RegW} {s : State} (h_s : StateKeeps κ s₀ s) :
    StateKeeps κ s₀ (storeChecked part p0 ws s) := by
  unfold storeChecked
  extract_lets v23 v24 v25 v26 v27
  have h28 : StateKeeps κ s₀ v26 := by
    apply store_keeps
    with_reducible assumption
  clear_value v26
  split
  · apply iteState_keeps
    · apply logU_keeps
      with_reducible assumption
    · with_reducible assumption
  · apply iteState_keeps
    · apply logD_keeps
      with_reducible assumption
    · apply iteState_keeps
      · apply logD_keeps
        apply store_keeps
        with_reducible assumption
      · apply iteState_keeps
        · apply logD_keeps
          apply store_keeps
          with_reducible assumption
        · apply store_keeps
          with_reducible assumption

theorem setStage_keeps {part : Part} {ch : Nat} {p0 : Nat} {o : Nat} {v : Option Word} {s : State} (h_s : StateKeeps κ s₀ s) :
    StateKeeps κ s₀ (setStage part ch p0 o v s) := by
  unfold setStage
  apply onPartBase_keeps
  · intro z29 z30 h31
    with_reducible apply base_mk_keeps
    with_reducible assumption
  · with_reducible assumption

theorem putReg_keeps {part : Part} {ch : Nat} {p0 : Nat} {w : RegW} {s : State} (h_s : StateKeeps κ s₀ s) :
    StateKeeps κ s₀ (putReg part ch p0 w s) := by
  unfold putReg
  split
  · extract_lets v32 v33
    apply iteState_keeps
    · apply setStage_keeps
      with_reducible assumption
    · apply storeChecked_keeps
      apply foldState_keeps
      · intro z34 z35 h36
        apply setStage_keeps
        with_reducible assumption
      · with_reducible assumption
  · apply storeChecked_keeps
    with_reducible assumption

theorem lockWrite_keeps {part : Part} {p0 : Nat} {be : BitVec 4} {data : Word} {s : State} (h_s : StateKeeps κ s₀ s) :
    StateKeeps κ s₀ (lockWrite part p0 be data s) := by
  unfold lockWrite
  apply iteState_keeps
  · with_reducible assumption
  · apply onPartBase_keeps
    · intro z37 z38 h39
      extract_lets v40 v41 v42
      apply wr_keeps
      with_reducible assumption
    · with_reducible assumption

theorem evcOwn_keeps {part : Part} {o : Nat} {be : BitVec 4} {data : Word} {s : State} (h_s : StateKeeps κ s₀ s) :
    OptKeeps κ s₀ (evcOwn part o be data s) := by
  unfold evcOwn
  extract_lets v43
  split
  · apply optSome_keeps
    apply pendWriteOp_keeps
    with_reducible assumption
  · apply optSome_keeps
    apply onPartBase_keeps
    · intro z44 z45 h46
      apply pendSetOp_keeps
      with_reducible assumption
    · with_reducible assumption
  · apply optSome_keeps
    apply onPartBase_keeps
    · intro z47 z48 h49
      apply maskWriteOp_keeps
      with_reducible assumption
    · with_reducible assumption
  · apply optSome_keeps
    apply onPartBase_keeps
    · intro z50 z51 h52
      apply maskWriteOp_keeps
      with_reducible assumption
    · with_reducible assumption
  · exact optNone_keeps

theorem unitOwn_keeps {p0 : Nat} {o : Nat} {be : BitVec 4} {data : Word} {s : State} (h_s : StateKeeps κ s₀ s) :
    OptKeeps κ s₀ (unitOwn p0 o be data s) := by
  unfold unitOwn
  extract_lets v53
  apply iteOpt_keeps
  · apply optSome_keeps
    apply barCtlOp_keeps
    with_reducible assumption
  · apply iteOpt_keeps
    · apply optSome_keeps
      apply barGuarded_keeps
      with_reducible assumption
    · apply iteOpt_keeps
      · apply optSome_keeps
        apply barGuarded_keeps
        with_reducible assumption
      · apply iteOpt_keeps
        · apply optSome_keeps
          apply logU_keeps
          with_reducible assumption
        · apply iteOpt_keeps
          · apply optSome_keeps
            apply galStateOp_keeps
            with_reducible assumption
          · apply iteOpt_keeps
            · apply optSome_keeps
              apply iteState_keeps
              · apply modeWriteOp_keeps
                with_reducible assumption
              · with_reducible assumption
            · apply iteOpt_keeps
              · apply optSome_keeps
                apply logU_keeps
                with_reducible assumption
              · apply iteOpt_keeps
                · apply evcOwn_keeps
                  with_reducible assumption
                · exact optNone_keeps

theorem galEntryState_keeps {p0 : Nat} {o : Nat} {s : State} (h_s : StateKeeps κ s₀ s) :
    OptKeeps κ s₀ (galEntryState p0 o s) := by
  unfold galEntryState
  extract_lets v54
  apply iteOpt_keeps
  · apply optSome_keeps
    apply logD_keeps
    with_reducible assumption
  · exact optNone_keeps

theorem distOwn_keeps {p0 : Nat} {o : Nat} {be : BitVec 4} {data : Word} {s : State} (h_s : StateKeeps κ s₀ s) :
    OptKeeps κ s₀ (distOwn p0 o be data s) := by
  unfold distOwn
  apply iteOpt_keeps
  · apply optSome_keeps
    with_reducible assumption
  · apply iteOpt_keeps
    · apply evcOwn_keeps
      with_reducible assumption
    · apply galEntryState_keeps
      with_reducible assumption

theorem restartAvg_keeps {part : Part} {s : State} (h_s : StateKeeps κ s₀ s) :
    StateKeeps κ s₀ (restartAvg part s) := by
  unfold restartAvg
  apply onServo_keeps
  with_reducible assumption

theorem groupMove_keeps {part : Part} {o : Nat} {old : Base} {s : State} (h_s : StateKeeps κ s₀ s) :
    StateKeeps κ s₀ (groupMove part o old s) := by
  unfold groupMove
  extract_lets v55
  split
  · apply iteState_keeps
    · apply onPartBase_keeps
      · intro z58 z59 h60
        apply groupChanged_keeps
        with_reducible assumption
      · with_reducible assumption
    · with_reducible assumption
  · with_reducible assumption

theorem linkEnMoved_keeps {port : PortRef} {old : Base} {s : State} (h_s : StateKeeps κ s₀ s) :
    StateKeeps κ s₀ (linkEnMoved port old s) := by
  unfold linkEnMoved
  extract_lets v61
  apply iteState_keeps
  · apply enableOp_keeps
    with_reducible assumption
  · with_reducible assumption

theorem tapEnMoved_keeps {n : Nat} {old : Base} {s : State} (h_s : StateKeeps κ s₀ s) :
    StateKeeps κ s₀ (tapEnMoved n old s) := by
  unfold tapEnMoved
  apply iteState_keeps
  · apply onUnit_keeps
    · intro z62 h63
      apply tapFail_keeps
      with_reducible assumption
    · with_reducible assumption
  · with_reducible assumption

theorem unitAfter_keeps {p0 : Nat} {o : Nat} {be : BitVec 4} {old : Base} {s : State} (h_s : StateKeeps κ s₀ s) :
    StateKeeps κ s₀ (unitAfter p0 o be old s) := by
  unfold unitAfter
  extract_lets v64 v65
  have h66 : Keeps κ s₀.unit.base v64 := by
    exact StateKeeps.unit (by assumption)
  clear_value v64
  split
  · apply iteState_keeps
    · apply restartDiff_keeps
      with_reducible assumption
    · apply iteState_keeps
      · apply restartAvg_keeps
        with_reducible assumption
      · apply iteState_keeps
        · apply applyWord_keeps
          with_reducible assumption
        · with_reducible assumption
  · apply iteState_keeps
    · apply linkEnMoved_keeps
      with_reducible assumption
    · with_reducible assumption
  · apply iteState_keeps
    · apply linkEnMoved_keeps
      with_reducible assumption
    · with_reducible assumption
  · split
    · apply tapEnMoved_keeps
      with_reducible assumption
    · with_reducible assumption
  · split
    · apply onUnit_keeps
      · intro z67 h68
        apply dripIdlePad_keeps
        with_reducible assumption
      · with_reducible assumption
    · with_reducible assumption
  · apply iteState_keeps
    · apply onUnit_keeps
      · intro z69 h70
        apply ttbLoadOp_keeps
        with_reducible assumption
      · with_reducible assumption
    · apply iteState_keeps
      · apply onUnit_keeps
        · intro z71 h72
          apply ttbEntOp_keeps
          with_reducible assumption
        · with_reducible assumption
      · with_reducible assumption
  · apply groupMove_keeps
    with_reducible assumption
  · apply iteState_keeps
    · apply onUnit_keeps
      · intro z73 h74
        apply uB_keeps
        · intro z75 h76
          apply lanternLeave_keeps
          with_reducible assumption
        · with_reducible assumption
      · with_reducible assumption
    · with_reducible assumption
  · apply iteState_keeps
    · apply applyWord_keeps
      with_reducible assumption
    · apply iteState_keeps
      · apply onUnit_keeps
        · intro z77 h78
          apply uB_keeps
          · intro z79 h80
            apply wrF_keeps
            with_reducible assumption
          · apply onLaunch_keeps
            with_reducible assumption
        · with_reducible assumption
      · apply iteState_keeps
        · apply dripsLimit_keeps
          with_reducible assumption
        · with_reducible assumption
  · apply iteState_keeps
    · apply onUnit_keeps
      · intro z81 h82
        apply traceStop_keeps
        with_reducible assumption
      · with_reducible assumption
    · apply iteState_keeps
      · apply onUnit_keeps
        · intro z83 h84
          apply uB_keeps
          · intro z85 h86
            apply wrB_keeps
            with_reducible assumption
          · with_reducible assumption
        · with_reducible assumption
      · with_reducible assumption
  · with_reducible assumption

theorem restartRaws_keeps {s : State} (h_s : StateKeeps κ s₀ s) :
    StateKeeps κ s₀ (restartRaws s) := by
  unfold restartRaws
  apply foldState_keeps
  · intro z87 z88 h89
    apply onPort_keeps
    with_reducible assumption
  · with_reducible assumption

theorem capReqTok_keeps {old : Base} {d : DistState} (h_d : DistKeeps κ s₀ d) :
    DistKeeps κ s₀ (capReqTok old d) := by
  unfold capReqTok
  extract_lets v90
  apply foldDist_keeps
  · intro z91 z92 h93
    apply onCmb_keeps
    with_reducible assumption
  · with_reducible assumption

theorem outsLimit_keeps {old : Base} {s : State} (h_s : StateKeeps κ s₀ s) :
    StateKeeps κ s₀ (outsLimit old s) := by
  unfold outsLimit
  extract_lets v94 v95
  have h96 : StateKeeps κ s₀ v95 := by
    apply iteState_keeps
    · apply onRoot_keeps
      apply onDist_keeps
      · intro z97 h98
        apply dB_keeps
        · intro z99 h100
          apply emit_keeps
          with_reducible assumption
        · with_reducible assumption
      · with_reducible assumption
    · with_reducible assumption
  clear_value v95
  apply iteState_keeps
  · apply onRoot_keeps
    apply onDist_keeps
    · intro z101 h102
      apply dB_keeps
      · intro z103 h104
        apply emit_keeps
        with_reducible assumption
      · with_reducible assumption
    · with_reducible assumption
  · with_reducible assumption

theorem steerMoved_keeps {s : State} (h_s : StateKeeps κ s₀ s) :
    StateKeeps κ s₀ (steerMoved s) := by
  unfold steerMoved
  apply iteState_keeps
  · apply rootWord_keeps
    with_reducible assumption
  · apply applyWord_keeps
    with_reducible assumption

theorem membersMoved_keeps {s : State} (h_s : StateKeeps κ s₀ s) :
    StateKeeps κ s₀ (membersMoved s) := by
  unfold membersMoved
  apply iteState_keeps
  · apply foldState_keeps
    · intro z105 z106 h107
      apply subscribe_keeps
      with_reducible assumption
    · with_reducible assumption
  · with_reducible assumption

theorem distAfterLow_keeps {p0 : Nat} {o : Nat} {old : Base} {s : State} (h_s : StateKeeps κ s₀ s) :
    StateKeeps κ s₀ (distAfterLow p0 o old s) := by
  unfold distAfterLow
  extract_lets v108 v109 v110
  have h112 : Keeps κ s₀.dist.base v108 := by
    exact StateKeeps.dist (by assumption)
  clear_value v108
  split
  · apply iteState_keeps
    · apply reselect_keeps
      with_reducible assumption
    · with_reducible assumption
  · apply iteState_keeps
    · apply noteAge_keeps
      apply onRoot_keeps
      with_reducible assumption
    · with_reducible assumption
  · apply iteState_keeps
    · apply ptpRestart_keeps
      with_reducible assumption
    · apply iteState_keeps
      · apply ptpRestart_keeps
        with_reducible assumption
      · apply iteState_keeps
        · apply ptpRestart_keeps
          with_reducible assumption
        · with_reducible assumption
  · apply iteState_keeps
    · with_reducible assumption
    · apply iteState_keeps
      · apply restartDiff_keeps
        with_reducible assumption
      · apply iteState_keeps
        · apply restartAvg_keeps
          with_reducible assumption
        · with_reducible assumption
  · apply iteState_keeps
    · apply outsLimit_keeps
      with_reducible assumption
    · apply iteState_keeps
      · apply steerMoved_keeps
        with_reducible assumption
      · apply iteState_keeps
        · apply onDist_keeps
          · intro z113 h114
            apply capReqTok_keeps
            with_reducible assumption
          · with_reducible assumption
        · with_reducible assumption
  · apply iteState_keeps
    · apply onDist_keeps
      · intro z115 h116
        apply dB_keeps
        · intro z117 h118
          apply msixAgain_keeps
          with_reducible assumption
        · with_reducible assumption
      · with_reducible assumption
    · apply iteState_keeps
      · apply onDist_keeps
        · intro z119 h120
          apply dB_keeps
          · intro z121 h122
            apply pbaSettle_keeps
            with_reducible assumption
          · with_reducible assumption
        · with_reducible assumption
      · apply groupMove_keeps
        with_reducible assumption
  · apply iteState_keeps
    · apply restartRaws_keeps
      with_reducible assumption
    · with_reducible assumption
  · apply iteState_keeps
    · apply thmJudge_keeps
      with_reducible assumption
    · with_reducible assumption
  · apply iteState_keeps
    · apply restartSrc_keeps
      with_reducible assumption
    · with_reducible assumption

theorem entryWritten_keeps {g : Nat} {d : DistState} (h_d : DistKeeps κ s₀ d) :
    DistKeeps κ s₀ (entryWritten g d) := by
  unfold entryWritten
  apply onCmb_keeps
  with_reducible assumption

theorem distAfter_keeps {p0 : Nat} {o : Nat} {old : Base} {s : State} (h_s : StateKeeps κ s₀ s) :
    StateKeeps κ s₀ (distAfter p0 o old s) := by
  unfold distAfter
  extract_lets v123
  have h124 : StateKeeps κ s₀ v123 := by
    apply onDist_keeps
    · intro z125 h126
      apply entryWritten_keeps
      with_reducible assumption
    · with_reducible assumption
  clear_value v123
  apply iteState_keeps
  · apply iteState_keeps
    · apply membersMoved_keeps
      with_reducible assumption
    · with_reducible assumption
  · apply iteState_keeps
    · apply iteState_keeps
      · apply linkEnMoved_keeps
        with_reducible assumption
      · with_reducible assumption
    · apply distAfterLow_keeps
      with_reducible assumption

theorem onBit_keeps {m : Nat} {i : Nat} {f : State → State} {s : State} (h_f : ∀  z, StateKeeps κ s₀ z → StateKeeps κ s₀ (f z)) (h_s : StateKeeps κ s₀ s) :
    StateKeeps κ s₀ (onBit m i f s) := by
  unfold onBit
  apply iteState_keeps
  · apply h_f
    with_reducible assumption
  · with_reducible assumption

theorem semCmds_keeps {m : Nat} {s : State} (h_s : StateKeeps κ s₀ s) :
    StateKeeps κ s₀ (semCmds m s) := by
  unfold semCmds
  extract_lets v127
  have h128 : StateKeeps κ s₀ v127 := by
    apply iteState_keeps
    · apply semAddCmd_keeps
      with_reducible assumption
    · apply iteState_keeps
      · apply semSubCmd_keeps
        with_reducible assumption
      · apply iteState_keeps
        · apply semSetCmd_keeps
          with_reducible assumption
        · apply iteState_keeps
          · apply semClrCmd_keeps
            with_reducible assumption
          · with_reducible assumption
  clear_value v127
  apply onBit_keeps
  · intro z129 h130
    apply semViewCmd_keeps
    with_reducible assumption
  · with_reducible assumption

theorem fncDiscard_keeps {s : State} (h_s : StateKeeps κ s₀ s) :
    StateKeeps κ s₀ (fncDiscard s) := by
  unfold fncDiscard
  extract_lets v131
  apply logU_keeps
  apply onUnit_keeps
  · intro z132 h133
    apply fncDrop_keeps
    with_reducible assumption
  · with_reducible assumption

theorem fltCmds_keeps {part : Part} {m : Nat} {s : State} (h_s : StateKeeps κ s₀ s) : StateKeeps κ s₀ (fltCmds part m s) := by
  unfold fltCmds
  apply onBit_keeps
  · intro z hz
    exact onPartBase_keeps (fun _ _ h => logEmpty_keeps h) hz
  · apply onBit_keeps
    · intro z hz
      exact onPartBase_keeps (fun _ _ h => base_mk_keeps h) hz
    · exact h_s

theorem origCmds_keeps {m : Nat} {s : State} (h_s : StateKeeps κ s₀ s) :
    StateKeeps κ s₀ (origCmds m s) := by
  unfold origCmds
  apply iteState_keeps
  · apply cancelLaunch_keeps
    with_reducible assumption
  · apply iteState_keeps
    · apply origStart_keeps
      with_reducible assumption
    · with_reducible assumption

theorem dlkRearm_keeps {u : UnitState} (h_u : UnitKeeps κ s₀ u) :
    UnitKeeps κ s₀ (dlkRearm u) := by
  unfold dlkRearm
  extract_lets v134
  with_reducible apply unit_mk_keeps
  change UnitKeeps κ s₀ _
  with_reducible assumption

theorem unitCmdsA_keeps {p0 : Nat} {o : Nat} {m : Nat} {s : State} (h_s : StateKeeps false s₀ s) :
    StateKeeps false s₀ (unitCmdsA p0 o m s) := by
  unfold unitCmdsA
  split
  · apply onBit_keeps
    · intro z135 h136
      apply reloadOp_keeps
      with_reducible assumption
    · with_reducible assumption
  · apply onBit_keeps
    · intro z137 h138
      apply ifUnitRuns_keeps
      · intro z139 h140
        apply rebaseOp_keeps
        with_reducible assumption
      · with_reducible assumption
    · apply onBit_keeps
      · intro z141 h142
        apply ifUnitRuns_keeps
        · intro z143 h144
          apply commandSwitch_keeps
          with_reducible assumption
        · with_reducible assumption
      · with_reducible assumption
  · apply onBit_keeps
    · intro z145 h146
      apply onPort_keeps
      with_reducible assumption
    · with_reducible assumption
  · apply onBit_keeps
    · intro z147 h148
      apply onPort_keeps
      with_reducible assumption
    · with_reducible assumption
  · split
    · apply onBit_keeps
      · intro z149 h150
        apply onUnit_keeps
        · intro z151 h152
          apply tapResyncOp_keeps
          with_reducible assumption
        · with_reducible assumption
      · with_reducible assumption
    · with_reducible assumption
  · split
    · apply iteState_keeps
      · apply onUnit_keeps
        · intro z153 h154
          apply dripStopOp_keeps
          with_reducible assumption
        · with_reducible assumption
      · apply onBit_keeps
        · intro z155 h156
          apply dripRegArm_keeps
          with_reducible assumption
        · with_reducible assumption
    · with_reducible assumption
  · apply origCmds_keeps
    with_reducible assumption
  · apply onBit_keeps
    · intro z157 h158
      apply onUnit_keeps
      · intro z159 h160
        apply ttbLoadOp_keeps
        with_reducible assumption
      · with_reducible assumption
    · apply onBit_keeps
      · intro z161 h162
        apply onUnit_keeps
        · intro z163 h164
          apply ttbCancelOp_keeps
          with_reducible assumption
        · with_reducible assumption
      · apply onBit_keeps
        · intro z165 h166
          apply insertOp_keeps
          with_reducible assumption
        · with_reducible assumption

theorem unitCmdsB_keeps {p0 : Nat} {o : Nat} {m : Nat} {be : BitVec 4} {s : State} (h_s : StateKeeps κ s₀ s) :
    StateKeeps κ s₀ (unitCmdsB p0 o m be s) := by
  unfold unitCmdsB
  split
  · apply semCmds_keeps
    with_reducible assumption
  · apply onBit_keeps
    · intro z167 h168
      apply barResetOp_keeps
      with_reducible assumption
    · with_reducible assumption
  · apply onBit_keeps
    · intro z169 h170
      apply onUnit_keeps
      · intro z171 h172
        apply flowClear_keeps
        with_reducible assumption
      · with_reducible assumption
    · apply onBit_keeps
      · intro z173 h174
        apply onUnit_keeps
        · intro z175 h176
          apply flowView_keeps
          with_reducible assumption
        · with_reducible assumption
      · with_reducible assumption
  · apply onBit_keeps
    · intro z177 h178
      apply fncDiscard_keeps
      with_reducible assumption
    · apply onBit_keeps
      · intro z179 h180
        apply onUnit_keeps
        · intro z181 h182
          apply fncView_keeps
          with_reducible assumption
        · with_reducible assumption
      · with_reducible assumption
  · split
    · apply iteState_keeps
      · apply eoi_keeps
        with_reducible assumption
      · with_reducible assumption
    · apply onBit_keeps
      · intro z183 h184
        apply onUnit_keeps
        · intro z185 h186
          apply uB_keeps
          · intro z187 h188
            apply cpuFlushOp_keeps
            with_reducible assumption
          · with_reducible assumption
        · with_reducible assumption
      · with_reducible assumption
    · with_reducible assumption
  · apply onBit_keeps
    · intro z189 h190
      apply onUnit_keeps
      · intro z191 h192
        apply dlkRearm_keeps
        with_reducible assumption
      · with_reducible assumption
    · with_reducible assumption
  · apply fltCmds_keeps
    with_reducible assumption
  · apply onBit_keeps
    · intro z193 h194
      apply ctxClearOp_keeps
      with_reducible assumption
    · with_reducible assumption
  · apply onBit_keeps
    · intro z195 h196
      apply onUnit_keeps
      · intro z197 h198
        apply dbgInjectOp_keeps
        with_reducible assumption
      · with_reducible assumption
    · apply onBit_keeps
      · intro z199 h200
        apply onUnit_keeps
        · intro z201 h202
          apply traceStop_keeps
          with_reducible assumption
        · with_reducible assumption
      · apply onBit_keeps
        · intro z203 h204
          apply onUnit_keeps
          · intro z205 h206
            apply dbgTriggerOp_keeps
            with_reducible assumption
          · with_reducible assumption
        · apply onBit_keeps
          · intro z207 h208
            apply onUnit_keeps
            · intro z209 h210
              apply dbgArmOp_keeps
              with_reducible assumption
            · with_reducible assumption
          · with_reducible assumption
  · with_reducible assumption

theorem armEpochOp_keeps {s : State} (h_s : StateKeeps κ s₀ s) :
    StateKeeps κ s₀ (armEpochOp s) := by
  unfold armEpochOp
  extract_lets v211 v212
  have h213 : DistKeeps κ s₀ v211 := by
    exact StateKeeps.dist (by assumption)
  clear_value v211
  apply iteState_keeps
  · apply logD_keeps
    with_reducible assumption
  · apply onRoot_keeps
    apply onDist_keeps
    · intro z214 h215
      apply dB_keeps
      · intro z216 h217
        apply wrB_keeps
        with_reducible assumption
      · with_reducible assumption
    · with_reducible assumption

theorem distCmds_keeps {p0 : Nat} {m : Nat} {s : State} (h_s : StateKeeps κ s₀ s) :
    StateKeeps κ s₀ (distCmds p0 m s) := by
  unfold distCmds
  apply iteState_keeps
  · split
    · apply onBit_keeps
      · intro z218 h219
        apply healthReadmitOp_keeps
        with_reducible assumption
      · apply onBit_keeps
        · intro z220 h221
          apply onPort_keeps
          with_reducible assumption
        · with_reducible assumption
    · with_reducible assumption
  · split
    · apply onBit_keeps
      · intro z222 h223
        apply armEpochOp_keeps
        with_reducible assumption
      · with_reducible assumption
    · apply onBit_keeps
      · intro z224 h225
        apply ifDistRuns_keeps
        · intro z226 h227
          apply realignOp_keeps
          with_reducible assumption
        · with_reducible assumption
      · with_reducible assumption
    · apply onBit_keeps
      · intro z228 h229
        apply ifDistRuns_keeps
        · intro z230 h231
          apply iteState_keeps
          · with_reducible assumption
          · apply commandSwitch_keeps
            with_reducible assumption
        · with_reducible assumption
      · with_reducible assumption
    · apply onBit_keeps
      · intro z232 h233
        apply closeOp_keeps
        with_reducible assumption
      · with_reducible assumption
    · apply fltCmds_keeps
      with_reducible assumption
    · apply onBit_keeps
      · intro z234 h235
        apply onDist_keeps
        · intro z236 h237
          apply dB_keeps
          · intro z238 h239
            apply wr_keeps
            with_reducible assumption
          · with_reducible assumption
        · with_reducible assumption
      · with_reducible assumption
    · with_reducible assumption

theorem writeReg_keeps {part : Part} {ch : Nat} {p0 : Nat} {o : Nat} {be : BitVec 4} {data : Word} {s : State} (h_s : StateKeeps κ s₀ s)
    (hw : part = .unit → κ = false) :
    StateKeeps κ s₀ (writeReg part ch p0 o be data s) := by
  unfold writeReg
  extract_lets v1 own old flds v2
  have ho : OptKeeps κ s₀ own := by
    cases part
    · dsimp only [own]
      apply iteOpt_keeps
      · exact optSome_keeps h_s
      · exact unitOwn_keeps h_s
    · exact distOwn_keeps h_s
  clear_value own
  cases own with
  | some t => exact ho t rfl
  | none =>
    dsimp only
    apply iteState_keeps
    · apply lockWrite_keeps
      with_reducible assumption
    · split
      · have hκ := hw rfl
        subst hκ
        apply iteState_keeps
        · apply iteState_keeps
          · with_reducible assumption
          · apply putReg_keeps
            with_reducible assumption
        · apply iteState_keeps
          · apply iteState_keeps
            · apply unitCmdsA_keeps
              apply unitAfter_keeps
              apply iteState_keeps
              · with_reducible assumption
              · apply putReg_keeps
                with_reducible assumption
            · apply unitCmdsB_keeps
              apply unitAfter_keeps
              apply iteState_keeps
              · with_reducible assumption
              · apply putReg_keeps
                with_reducible assumption
          · apply unitAfter_keeps
            apply iteState_keeps
            · with_reducible assumption
            · apply putReg_keeps
              with_reducible assumption
      · apply iteState_keeps
        · apply iteState_keeps
          · with_reducible assumption
          · apply putReg_keeps
            with_reducible assumption
        · apply iteState_keeps
          · apply distCmds_keeps
            apply distAfter_keeps
            apply iteState_keeps
            · with_reducible assumption
            · apply putReg_keeps
              with_reducible assumption
          · apply distAfter_keeps
            apply iteState_keeps
            · with_reducible assumption
            · apply putReg_keeps
              with_reducible assumption

end Sys2Proof.Machine
end

