-- ==== Sys2Proof/Laws/KeepsRegAccess.lean ====
section
/-! SUPPORT. What the operations of Machine/RegAccess.lean keep. -/

namespace Sys2Proof.Machine

variable {κ : Bool} {s₀ : State} {b₀ : Base}

theorem noteError_keeps {part : Part} {ch : Nat} {addr : Nat} {code : Nat} {write : Bool} {s : State} (h_s : StateKeeps κ s₀ s) :
    StateKeeps κ s₀ (noteError part ch addr code write s) := by
  unfold noteError
  extract_lets v0
  apply onPartBase_keeps
  · intro z1 z2 h3
    apply inc_keeps
    apply wr_keeps
    with_reducible assumption
  · with_reducible assumption

theorem lockRead_keeps {part : Part} {p0 : Nat} {s : State} (h_s : StateKeeps κ s₀ s) :
    StateKeeps κ s₀ (lockRead part p0 s).2 := by
  unfold lockRead
  extract_lets v4 v5 v6
  dsimp only
  apply iteState_keeps
  · with_reducible assumption
  · apply onPartBase_keeps
    · intro z7 z8 h9
      apply wr_keeps
      with_reducible assumption
    · with_reducible assumption

theorem pendRead_keeps {part : Part} {w : Nat} {s : State} (h_s : StateKeeps κ s₀ s) :
    StateKeeps κ s₀ (pendRead part w s).2 := by
  unfold pendRead
  dsimp only
  apply onPartBase_keeps
  · intro z10 z11 h12
    apply pendReadOp_keeps
    with_reducible assumption
  · with_reducible assumption

theorem unitActs_keeps {ch : Nat} {p0 : Nat} {o : Nat} {s : State} (h_s : StateKeeps κ s₀ s) :
    OptPairKeeps κ s₀ (unitActs ch p0 o s) := by
  unfold unitActs
  extract_lets v13 v14 v15 v16 v17 v18
  have h19 : UnitKeeps κ s₀ v13 := by
    exact StateKeeps.unit (by assumption)
  clear_value v13
  have h20 : UnitKeeps κ s₀ v15.2 := by
    apply capReadOp_keeps
    with_reducible assumption
  clear_value v15
  have h21 : UnitKeeps κ s₀ v16.2 := by
    apply recReadOp_keeps
    with_reducible assumption
  clear_value v16
  have h22 : UnitKeeps κ s₀ v17.2 := by
    apply sumpReadOp_keeps
    with_reducible assumption
  clear_value v17
  apply iteOptPair_keeps
  · apply optPairSome_keeps
    dsimp only
    apply iteState_keeps
    · with_reducible assumption
    · apply onUnit_keeps
      · intro z23 h24
        apply injTouch_keeps
        with_reducible assumption
      · with_reducible assumption
  · split
    · apply optPairSome_keeps
      dsimp only
      refine state_of_keeps ?_ ?_ ?_ <;> dsimp only
      · exact StateKeeps.queue (by assumption)
      · with_reducible assumption
      · exact StateKeeps.dist (by assumption)
    · apply optPairSome_keeps
      dsimp only
      refine state_of_keeps ?_ ?_ ?_ <;> dsimp only
      · exact StateKeeps.queue (by assumption)
      · with_reducible assumption
      · exact StateKeeps.dist (by assumption)
    · apply optPairSome_keeps
      dsimp only
      refine state_of_keeps ?_ ?_ ?_ <;> dsimp only
      · exact StateKeeps.queue (by assumption)
      · with_reducible assumption
      · exact StateKeeps.dist (by assumption)
    · apply optPairSome_keeps
      dsimp only
      apply onUnit_keeps
      · intro z25 h26
        apply uB_keeps
        · intro z27 h28
          apply recRead_keeps
          change UnitKeeps κ s₀ _
          with_reducible assumption
        · with_reducible assumption
      · with_reducible assumption
    · split
      · apply optPairSome_keeps
        apply claim_keeps
        with_reducible assumption
      · apply optPairSome_keeps
        apply pendRead_keeps
        with_reducible assumption
      · exact optPairNone_keeps
    · exact optPairNone_keeps

theorem distActs_keeps {ch : Nat} {p0 : Nat} {o : Nat} {s : State} (h_s : StateKeeps κ s₀ s) : OptPairKeeps κ s₀ (distActs ch p0 o s) := by
  unfold distActs
  split
  · refine optPairSome_keeps (onDist_keeps (fun z hz => dB_keeps (fun _ _ => ?_) hz) h_s)
    exact recRead_keeps h_s.dist
  · generalize arrIx _ 0x080 4 6 = w
    cases w with
    | none => exact optPairNone_keeps
    | some w => exact optPairSome_keeps (pendRead_keeps h_s)
  · exact optPairNone_keeps

theorem readActs_keeps {part : Part} {ch : Nat} {p0 : Nat} {o : Nat} {s : State} (h_s : StateKeeps κ s₀ s) :
    OptPairKeeps κ s₀ (readActs part ch p0 o s) := by
  unfold readActs
  apply iteOptPair_keeps
  · apply optPairSome_keeps
    apply lockRead_keeps
    with_reducible assumption
  · split
    · apply unitActs_keeps
      with_reducible assumption
    · apply distActs_keeps
      with_reducible assumption

theorem latchRest_keeps {part : Part} {ch : Nat} {p0 : Nat} {b : Nat} {n : Nat} {s : State} (h_s : StateKeeps κ s₀ s) :
    StateKeeps κ s₀ (latchRest part ch p0 b n s) := by
  unfold latchRest
  apply foldState_keeps
  · intro z29 z30 h31
    apply onPartBase_keeps
    · intro z32 z33 h34
      apply latch_keeps
      with_reducible assumption
    · with_reducible assumption
  · with_reducible assumption

theorem readReg_keeps {part : Part} {ch : Nat} {p0 : Nat} {o : Nat} {s : State} (h_s : StateKeeps κ s₀ s) :
    StateKeeps κ s₀ (readReg part ch p0 o s).2 := by
  unfold readReg
  split
  · exact readActs_keeps h_s _ (by assumption)
  · split
    · split
      · exact latchRest_keeps h_s
      · exact h_s
    · exact h_s

theorem readAccess_keeps {part : Part} {ch : Nat} {addr : Nat} {s : State} (h_s : StateKeeps κ s₀ s) :
    StateKeeps κ s₀ (readAccess part ch addr s).2.2 := by
  unfold readAccess
  extract_lets v35 v36
  have h37 : StateKeeps κ s₀ v36.2 := by
    apply readReg_keeps
    with_reducible assumption
  clear_value v36
  split
  · dsimp only
    apply noteError_keeps
    with_reducible assumption
  · with_reducible assumption

theorem writeAccess_keeps {part : Part} {ch : Nat} {addr : Nat} {be : BitVec 4} {data : Word} {s : State}
    (h_s : StateKeeps κ s₀ s) (hw : part = .unit → κ = false) : StateKeeps κ s₀ (writeAccess part ch addr be data s).2 := by
  unfold writeAccess
  dsimp only
  split
  · exact noteError_keeps h_s
  · exact writeReg_keeps h_s hw

theorem ifChannel_keeps {part : Part} {ch : Nat} {f : State → State} {s : State} (h_f : ∀  z, StateKeeps κ s₀ z → StateKeeps κ s₀ (f z)) (h_s : StateKeeps κ s₀ s) :
    StateKeeps κ s₀ (ifChannel part ch f s) := by
  unfold ifChannel
  apply iteState_keeps
  · apply ifPart_keeps
    · with_reducible assumption
    · with_reducible assumption
  · with_reducible assumption

theorem readRow_keeps {part : Part} {ch : BitVec 3} {addr : Nat} {s : State} (h_s : StateKeeps κ s₀ s) :
    StateKeeps κ s₀ (readRow part ch addr s) := by
  unfold readRow
  extract_lets v38
  apply onPartBase_keeps
  · intro z39 z40 h41
    apply emit_keeps
    with_reducible assumption
  · apply readAccess_keeps
    with_reducible assumption

theorem writeRow_keeps {part : Part} {ch : BitVec 3} {addr : Nat} {be : BitVec 4} {data : Word} {s : State}
    (h_s : StateKeeps κ s₀ s) (hw : part = .unit → κ = false) : StateKeeps κ s₀ (writeRow part ch addr be data s) := by
  unfold writeRow
  dsimp only
  apply onPartBase_keeps
  · intro z1 z2 h3
    exact emit_keeps h3
  · exact writeAccess_keeps h_s hw

theorem timeoutRow_keeps {part : Part} {ch : BitVec 3} {write : Bool} {addr : Nat} {s : State} (h_s : StateKeeps κ s₀ s) :
    StateKeeps κ s₀ (timeoutRow part ch write addr s) := by
  unfold timeoutRow
  extract_lets v42 v43 v44
  have h45 : StateKeeps κ s₀ v44 := by
    apply noteError_keeps
    apply logPart_keeps
    with_reducible assumption
  clear_value v44
  apply onPartBase_keeps
  · intro z46 z47 h48
    apply emit_keeps
    with_reducible assumption
  · with_reducible assumption

theorem smbAnswer_keeps {ack : Bool} {data : List (BitVec 8)} {s : State} (h_s : StateKeeps κ s₀ s) :
    StateKeeps κ s₀ (smbAnswer ack data s) := by
  unfold smbAnswer
  apply onDist_keeps
  · intro z49 h50
    apply dB_keeps
    · intro z51 h52
      apply emit_keeps
      with_reducible assumption
    · with_reducible assumption
  · with_reducible assumption

theorem smbWrite_keeps {addr : Nat} {data : Word} {pecOk : Bool} {s : State} (h_s : StateKeeps κ s₀ s) :
    StateKeeps κ s₀ (smbWrite addr data pecOk s) := by
  unfold smbWrite
  split
  · exact smbAnswer_keeps (writeAccess_keeps h_s (fun h => by cases h))
  · exact smbAnswer_keeps h_s

theorem smbRequest_keeps {addr : Nat} {pecOk : Bool} {s : State} (h_s : StateKeeps κ s₀ s) :
    StateKeeps κ s₀ (smbRequest addr pecOk s) := by
  unfold smbRequest
  extract_lets v53
  apply iteState_keeps
  · apply smbAnswer_keeps
    apply onDist_keeps
    · intro z54 h55
      apply onAdm_keeps
      with_reducible assumption
    · apply readAccess_keeps
      with_reducible assumption
  · apply smbAnswer_keeps
    with_reducible assumption

theorem smbRead_keeps {s : State} (h_s : StateKeeps κ s₀ s) :
    StateKeeps κ s₀ (smbRead s) := by
  unfold smbRead
  extract_lets v56
  apply smbAnswer_keeps
  apply onDist_keeps
  · intro z57 h58
    apply onAdm_keeps
    with_reducible assumption
  · with_reducible assumption

end Sys2Proof.Machine
end

