-- ==== Sys2Proof/Laws/KeepsTick.lean ====
section
/-! SUPPORT. What the operations of Machine/Tick.lean keep. -/

namespace Sys2Proof.Machine

variable {κ : Bool} {s₀ : State} {b₀ : Base}

theorem clockBase_keeps {b : Base} (h_b : Keeps false b₀ b) :
    Keeps false b₀ (clockBase b) := by
  unfold clockBase
  with_reducible apply base_set_keeps
  with_reducible assumption

theorem unitSecond_keeps {b : Base} (h_b : Keeps κ b₀ b) :
    Keeps κ b₀ (unitSecond b) := by
  unfold unitSecond
  apply iteBase_keeps
  · apply pgEvt_keeps
    with_reducible assumption
  · with_reducible assumption

theorem unitTick_keeps {s : State} (h_s : StateKeeps κ s₀ s) :
    StateKeeps κ s₀ (unitTick s) := by
  unfold unitTick
  extract_lets v0 v1 v2
  have h3 : StateKeeps κ s₀ v0 := by
    apply onUnit_keeps
    · intro z4 h5
      apply fncTick_keeps
      apply launchLines_keeps
      apply dripsTick_keeps
      with_reducible assumption
    · with_reducible assumption
  clear_value v0
  have h6 : StateKeeps κ s₀ v1 := by
    apply starved_keeps
    apply doHandover_keeps
    apply onUnit_keeps
    · intro z7 h8
      apply uB_keeps
      · intro z9 h10
        apply unitSecond_keeps
        with_reducible assumption
      · with_reducible assumption
    · with_reducible assumption
  clear_value v1
  have h11 : StateKeeps κ s₀ v2 := by
    apply unitFsm_keeps
    apply lanternWake_keeps
    apply onUnit_keeps
    · intro z12 h13
      apply unitTx_keeps
      with_reducible assumption
    · with_reducible assumption
  clear_value v2
  apply ifUnitRuns_keeps
  · intro z14 h15
    apply contextTick_keeps
    with_reducible assumption
  · with_reducible assumption

theorem noteLock_keeps {d : DistState} (h_d : DistKeeps κ s₀ d) :
    DistKeeps κ s₀ (noteLock d) := by
  unfold noteLock
  apply drivePins_keeps
  apply onAdm_keeps
  with_reducible assumption

theorem distTick_keeps {s : State} (h_s : StateKeeps κ s₀ s) :
    StateKeeps κ s₀ (distTick s) := by
  unfold distTick
  extract_lets v16
  have h17 : StateKeeps κ s₀ v16 := by
    apply afterCommit_keeps
    apply starved_keeps
    apply doHandover_keeps
    with_reducible assumption
  clear_value v16
  apply onDist_keeps
  · intro z18 h19
    apply noteLock_keeps
    apply frmoutEnd_keeps
    apply dB_keeps
    · intro z20 h21
      apply msixTick_keeps
      with_reducible assumption
    · apply distTx_keeps
      apply accTick_keeps
      with_reducible assumption
  · with_reducible assumption

theorem tickOp_keeps {s : State} (h_s : StateKeeps false s₀ s) :
    StateKeeps false s₀ (tickOp s) := by
  unfold tickOp
  extract_lets v22
  have h23 : StateKeeps false s₀ v22 := by
    apply onDist_keeps
    · intro z24 h25
      apply dB_keeps
      · intro z26 h27
        apply clockBase_keeps
        with_reducible assumption
      · with_reducible assumption
    · apply onUnit_keeps
      · intro z28 h29
        apply uB_keeps
        · intro z30 h31
          apply clockBase_keeps
          with_reducible assumption
        · with_reducible assumption
      · with_reducible assumption
  clear_value v22
  apply ifDist_keeps
  · intro z32 h33
    apply distTick_keeps
    with_reducible assumption
  · apply ifUnit_keeps
    · intro z34 h35
      apply unitTick_keeps
      with_reducible assumption
    · with_reducible assumption

end Sys2Proof.Machine
end

