-- ==== Sys2Proof/Laws/KeepsCommands.lean ====
section
/-! SUPPORT. What every command keeps. -/

namespace Sys2Proof.Machine

variable {κ : Bool} {s₀ : State}

/-! ## Machine/LinkRows.lean -/

theorem execLinkEnableWrite_keeps {port : PortRef} {en : Bool} {s t : State} (h_s : StateKeeps κ s₀ s)
    (h : execLinkEnableWrite port en s = .next t) : StateKeeps κ s₀ t := by
  unfold execLinkEnableWrite at h
  injection h with h
  rw [← h]
  split
  · apply ifUnit_keeps
    · intro z0 h1
      apply enableOp_keeps
      with_reducible assumption
    · with_reducible assumption
  · apply ifDist_keeps
    · intro z2 h3
      apply enableOp_keeps
      with_reducible assumption
    · with_reducible assumption

theorem execLinkCntClr_keeps {port : PortRef} {s t : State} (h_s : StateKeeps κ s₀ s)
    (h : execLinkCntClr port s = .next t) : StateKeeps κ s₀ t := by
  unfold execLinkCntClr at h
  injection h with h
  rw [← h]
  split
  · apply ifUnit_keeps
    · intro z4 h5
      apply onPort_keeps
      with_reducible assumption
    · with_reducible assumption
  · apply ifDist_keeps
    · intro z6 h7
      apply onPort_keeps
      with_reducible assumption
    · with_reducible assumption

theorem execSignalDetect_keeps {port : PortRef} {lane : Bool} {present : Bool} {s t : State} (h_s : StateKeeps κ s₀ s)
    (h : execSignalDetect port lane present s = .next t) : StateKeeps κ s₀ t := by
  unfold execSignalDetect at h
  injection h with h
  rw [← h]
  apply signalOp_keeps
  with_reducible assumption

theorem execBlockLockAcquired_keeps {port : PortRef} {lane : Bool} {s t : State} (h_s : StateKeeps κ s₀ s)
    (h : execBlockLockAcquired port lane s = .next t) : StateKeeps κ s₀ t := by
  unfold execBlockLockAcquired at h
  injection h with h
  rw [← h]
  apply ifPort_keeps
  · intro z8 h9
    apply lockOpLane_keeps
    with_reducible assumption
  · with_reducible assumption

theorem execBlockLockLost_keeps {port : PortRef} {lane : Bool} {s t : State} (h_s : StateKeeps κ s₀ s)
    (h : execBlockLockLost port lane s = .next t) : StateKeeps κ s₀ t := by
  unfold execBlockLockLost at h
  injection h with h
  rw [← h]
  apply ifPort_keeps
  · intro z10 h11
    apply lockOpLane_keeps
    with_reducible assumption
  · with_reducible assumption

theorem execTrainingBlockRx_keeps {port : PortRef} {lane : Bool} {rxLock : Bool} {ready : Bool} {s t : State} (h_s : StateKeeps κ s₀ s)
    (h : execTrainingBlockRx port lane rxLock ready s = .next t) : StateKeeps κ s₀ t := by
  unfold execTrainingBlockRx at h
  injection h with h
  rw [← h]
  apply ifPort_keeps
  · intro z12 h13
    apply trainBlockOp_keeps
    with_reducible assumption
  · with_reducible assumption

theorem execFramesStart_keeps {port : PortRef} {s t : State} (h_s : StateKeeps κ s₀ s)
    (h : execFramesStart port s = .next t) : StateKeeps κ s₀ t := by
  unfold execFramesStart at h
  injection h with h
  rw [← h]
  apply ifPort_keeps
  · intro z14 h15
    apply framesOp_keeps
    with_reducible assumption
  · with_reducible assumption

theorem execTrainLimitExpiry_keeps {port : PortRef} {s t : State} (h_s : StateKeeps κ s₀ s)
    (h : execTrainLimitExpiry port s = .next t) : StateKeeps κ s₀ t := by
  unfold execTrainLimitExpiry at h
  injection h with h
  rw [← h]
  apply ifPort_keeps
  · intro z16 h17
    apply trainFailOp_keeps
    with_reducible assumption
  · with_reducible assumption

theorem execTrainRetryTimer_keeps {port : PortRef} {s t : State} (h_s : StateKeeps κ s₀ s)
    (h : execTrainRetryTimer port s = .next t) : StateKeeps κ s₀ t := by
  unfold execTrainRetryTimer at h
  injection h with h
  rw [← h]
  apply ifPort_keeps
  · intro z18 h19
    apply testDown_keeps
    with_reducible assumption
  · with_reducible assumption

theorem execSpareTrainTimeout_keeps {port : PortRef} {s t : State} (h_s : StateKeeps κ s₀ s)
    (h : execSpareTrainTimeout port s = .next t) : StateKeeps κ s₀ t := by
  unfold execSpareTrainTimeout at h
  injection h with h
  rw [← h]
  apply ifPort_keeps
  · intro z20 h21
    apply spareFailOp_keeps
    with_reducible assumption
  · with_reducible assumption

theorem execSpareRetrainTimer_keeps {port : PortRef} {s t : State} (h_s : StateKeeps κ s₀ s)
    (h : execSpareRetrainTimer port s = .next t) : StateKeeps κ s₀ t := by
  unfold execSpareRetrainTimer at h
  injection h with h
  rw [← h]
  apply ifPort_keeps
  · intro z22 h23
    apply spareRetryOp_keeps
    with_reducible assumption
  · with_reducible assumption

theorem execLinkSilence_keeps {port : PortRef} {s t : State} (h_s : StateKeeps κ s₀ s)
    (h : execLinkSilence port s = .next t) : StateKeeps κ s₀ t := by
  unfold execLinkSilence at h
  injection h with h
  rw [← h]
  apply ifPort_keeps
  · intro z24 h25
    split
    · apply unitFsm_keeps
      apply silenceOp_keeps
      with_reducible assumption
    · apply silenceOp_keeps
      with_reducible assumption
  · with_reducible assumption

theorem execReadmitTimer_keeps {port : PortRef} {s t : State} (h_s : StateKeeps κ s₀ s)
    (h : execReadmitTimer port s = .next t) : StateKeeps κ s₀ t := by
  unfold execReadmitTimer at h
  injection h with h
  rw [← h]
  apply ifPort_keeps
  · intro z26 h27
    apply readmitOp_keeps
    with_reducible assumption
  · with_reducible assumption

theorem execAdmitWaitTimer_keeps {port : PortRef} {s t : State} (h_s : StateKeeps κ s₀ s)
    (h : execAdmitWaitTimer port s = .next t) : StateKeeps κ s₀ t := by
  unfold execAdmitWaitTimer at h
  injection h with h
  rw [← h]
  apply ifPort_keeps
  · intro z28 h29
    apply admitWaitOp_keeps
    with_reducible assumption
  · with_reducible assumption

theorem execIdleRx_keeps {rx : RxU} {spareOk : Bool} {rxLane : Bool} {slipEn : Bool} {slip : BitVec 2} {s t : State} (h_s : StateKeeps κ s₀ s)
    (h : execIdleRx rx spareOk rxLane slipEn slip s = .next t) : StateKeeps κ s₀ t := by
  unfold execIdleRx at h
  injection h with h
  rw [← h]
  apply ifPort_keeps
  · intro z30 h31
    extract_lets v32
    have h33 : StateKeeps κ s₀ v32.2 := by
      apply rxUns_keeps
      with_reducible assumption
    clear_value v32
    apply iteState_keeps
    · apply onPort_keeps
      with_reducible assumption
    · with_reducible assumption
  · with_reducible assumption

theorem execCrcBadFrameRx_keeps {port : PortRef} {lane : Bool} {frame : BitVec 78} {s t : State} (h_s : StateKeeps κ s₀ s)
    (h : execCrcBadFrameRx port lane frame s = .next t) : StateKeeps κ s₀ t := by
  unfold execCrcBadFrameRx at h
  injection h with h
  rw [← h]
  apply ifPort_keeps
  · intro z34 h35
    apply crcBadOp_keeps
    with_reducible assumption
  · with_reducible assumption

theorem execReservedTypeFrameRx_keeps {rx : Rx} {typ : BitVec 6} {body : BitVec 64} {s t : State} (h_s : StateKeeps κ s₀ s)
    (h : execReservedTypeFrameRx rx typ body s = .next t) : StateKeeps κ s₀ t := by
  unfold execReservedTypeFrameRx at h
  injection h with h
  rw [← h]
  apply ifPort_keeps
  · intro z36 h37
    apply reservedOp_keeps
    with_reducible assumption
  · with_reducible assumption

theorem execUnexpectedFrameRx_keeps {rx : Rx} {typ : BitVec 6} {body : BitVec 64} {s t : State} (h_s : StateKeeps κ s₀ s)
    (h : execUnexpectedFrameRx rx typ body s = .next t) : StateKeeps κ s₀ t := by
  unfold execUnexpectedFrameRx at h
  injection h with h
  rw [← h]
  apply ifPort_keeps
  · intro z38 h39
    apply unexpectedOp_keeps
    with_reducible assumption
  · with_reducible assumption

theorem execAckTimer_keeps {port : PortRef} {s t : State} (h_s : StateKeeps κ s₀ s)
    (h : execAckTimer port s = .next t) : StateKeeps κ s₀ t := by
  unfold execAckTimer at h
  injection h with h
  rw [← h]
  apply ifPort_keeps
  · intro z40 h41
    apply ackDueOp_keeps
    with_reducible assumption
  · with_reducible assumption

theorem execAckRx_keeps {rx : RxU} {ackSeq : BitVec 8} {s t : State} (h_s : StateKeeps κ s₀ s)
    (h : execAckRx rx ackSeq s = .next t) : StateKeeps κ s₀ t := by
  unfold execAckRx at h
  injection h with h
  rw [← h]
  apply ifPort_keeps
  · intro z42 h43
    extract_lets v44
    have h45 : StateKeeps κ s₀ v44.2 := by
      apply rxUns_keeps
      with_reducible assumption
    clear_value v44
    apply iteState_keeps
    · apply ackOp_keeps
      with_reducible assumption
    · with_reducible assumption
  · with_reducible assumption

theorem execNakRx_keeps {rx : RxU} {expSeq : BitVec 8} {reason : BitVec 2} {s t : State} (h_s : StateKeeps κ s₀ s)
    (h : execNakRx rx expSeq reason s = .next t) : StateKeeps κ s₀ t := by
  unfold execNakRx at h
  injection h with h
  rw [← h]
  apply ifPort_keeps
  · intro z46 h47
    extract_lets v48
    have h49 : StateKeeps κ s₀ v48.2 := by
      apply rxUns_keeps
      with_reducible assumption
    clear_value v48
    apply iteState_keeps
    · split
      · apply unitFsm_keeps
        apply nakOp_keeps
        with_reducible assumption
      · apply nakOp_keeps
        with_reducible assumption
    · with_reducible assumption
  · with_reducible assumption

theorem execRetryTimerExpiry_keeps {port : PortRef} {s t : State} (h_s : StateKeeps κ s₀ s)
    (h : execRetryTimerExpiry port s = .next t) : StateKeeps κ s₀ t := by
  unfold execRetryTimerExpiry at h
  injection h with h
  rw [← h]
  apply ifPort_keeps
  · intro z50 h51
    split
    · apply unitFsm_keeps
      apply retryOp_keeps
      with_reducible assumption
    · apply retryOp_keeps
      with_reducible assumption
  · with_reducible assumption

theorem execLaneSwap_keeps {port : PortRef} {s t : State} (h_s : StateKeeps κ s₀ s)
    (h : execLaneSwap port s = .next t) : StateKeeps κ s₀ t := by
  unfold execLaneSwap at h
  injection h with h
  rw [← h]
  apply ifPort_keeps
  · intro z52 h53
    apply swapOp_keeps
    with_reducible assumption
  · with_reducible assumption

/-! ## Machine/EchoTime.lean -/

theorem execEchoIntervalTimer_keeps {port : PortRef} {spare : Bool} {s t : State} (h_s : StateKeeps κ s₀ s)
    (h : execEchoIntervalTimer port spare s = .next t) : StateKeeps κ s₀ t := by
  unfold execEchoIntervalTimer at h
  injection h with h
  rw [← h]
  apply ifPort_keeps
  · intro z54 h55
    apply echoStart_keeps
    with_reducible assumption
  · with_reducible assumption

theorem execEchoReqRx_keeps {rx : RxU} {spare : Bool} {echoId : BitVec 6} {t1 : BitVec 54} {frac : BitVec 6} {s t : State} (h_s : StateKeeps κ s₀ s)
    (h : execEchoReqRx rx spare echoId t1 frac s = .next t) : StateKeeps κ s₀ t := by
  unfold execEchoReqRx at h
  injection h with h
  rw [← h]
  apply ifPort_keeps
  · intro z56 h57
    extract_lets v58
    have h59 : StateKeeps κ s₀ v58.2 := by
      apply rxUns_keeps
      with_reducible assumption
    clear_value v58
    apply iteState_keeps
    · apply echoAnswer_keeps
      with_reducible assumption
    · with_reducible assumption
  · with_reducible assumption

theorem execEchoRspRx_keeps {rx : RxU} {spare : Bool} {echoId : BitVec 6} {t2 : BitVec 32} {resid : BitVec 24} {frac : BitVec 6} {fwdSkew : Int} {revSkew : Int} {s t : State} (h_s : StateKeeps κ s₀ s)
    (h : execEchoRspRx rx spare echoId t2 resid frac fwdSkew revSkew s = .next t) : StateKeeps κ s₀ t := by
  unfold execEchoRspRx at h
  injection h with h
  rw [← h]
  apply ifPort_keeps
  · intro z60 h61
    extract_lets v62 v63
    have h64 : StateKeeps κ s₀ v63.2 := by
      apply rxUns_keeps
      with_reducible assumption
    clear_value v63
    apply iteState_keeps
    · apply echoDone_keeps
      with_reducible assumption
    · with_reducible assumption
  · with_reducible assumption

theorem execEchoExchangeTimeout_keeps {port : PortRef} {spare : Bool} {s t : State} (h_s : StateKeeps κ s₀ s)
    (h : execEchoExchangeTimeout port spare s = .next t) : StateKeeps κ s₀ t := by
  unfold execEchoExchangeTimeout at h
  injection h with h
  rw [← h]
  apply ifPort_keeps
  · intro z65 h66
    split
    · apply unitFsm_keeps
      apply exchangeLost_keeps
      with_reducible assumption
    · apply exchangeLost_keeps
      with_reducible assumption
  · with_reducible assumption

theorem execTimeRx_keeps {rx : RxU} {ns : BitVec 48} {gen : BitVec 16} {frac : BitVec 6} {s t : State} (h_s : StateKeeps false s₀ s)
    (h : execTimeRx rx ns gen frac s = .next t) : StateKeeps false s₀ t := by
  unfold execTimeRx at h
  injection h with h
  rw [← h]
  apply ifPort_keeps
  · intro z67 h68
    extract_lets v69
    have h70 : StateKeeps false s₀ v69.2 := by
      apply rxUns_keeps
      with_reducible assumption
    clear_value v69
    apply iteState_keeps
    · apply timeOp_keeps
      with_reducible assumption
    · with_reducible assumption
  · with_reducible assumption

theorem execRootTimeTimer_keeps  {s t : State} (h_s : StateKeeps κ s₀ s)
    (h : execRootTimeTimer s = .next t) : StateKeeps κ s₀ t := by
  unfold execRootTimeTimer at h
  injection h with h
  rw [← h]
  apply ifDistRuns_keeps
  · intro z71 h72
    apply rootTime_keeps
    with_reducible assumption
  · with_reducible assumption

theorem execEpochFrameRx_keeps {rx : Rx} {gen : BitVec 16} {applied : BitVec 48} {s t : State} (h_s : StateKeeps κ s₀ s)
    (h : execEpochFrameRx rx gen applied s = .next t) : StateKeeps κ s₀ t := by
  unfold execEpochFrameRx at h
  injection h with h
  rw [← h]
  apply ifPort_keeps
  · intro z80 h81
    extract_lets v82
    have h83 : StateKeeps κ s₀ v82.2 := by
      apply rxSeq_keeps
      with_reducible assumption
    clear_value v82
    apply iteState_keeps
    · apply epochOp_keeps
      with_reducible assumption
    · with_reducible assumption
  · with_reducible assumption

/-! ## Machine/RegAccess.lean -/

theorem execEpochArm_keeps {ch : BitVec 3} {gen : BitVec 16} {s t : State} (h_s : StateKeeps κ s₀ s)
    (h : execEpochArm ch gen s = .next t) : StateKeeps κ s₀ t := by
  unfold execEpochArm at h
  injection h with h
  rw [← h]
  apply ifChannel_keeps
  · intro z73 h74
    apply writeRow_keeps
    · with_reducible assumption
    · intro z75
      trivial
  · with_reducible assumption

theorem execPtpCfgCommit_keeps {ch : BitVec 3} {be : BitVec 4} {data : Word} {s t : State} (h_s : StateKeeps κ s₀ s)
    (h : execPtpCfgCommit ch be data s = .next t) : StateKeeps κ s₀ t := by
  unfold execPtpCfgCommit at h
  injection h with h
  rw [← h]
  apply ifChannel_keeps
  · intro z579 h580
    apply writeRow_keeps
    · with_reducible assumption
    · intro z581
      trivial
  · with_reducible assumption

theorem execRegisterWrite_keeps {part : Part} {ch : BitVec 3} {addr : BitVec 22} {be : BitVec 4} {data : Word} {s t : State} (h_s : StateKeeps κ s₀ s) (hw : part = .unit → κ = false)
    (h : execRegisterWrite part ch addr be data s = .next t) : StateKeeps κ s₀ t := by
  unfold execRegisterWrite at h
  injection h with h
  rw [← h]
  apply ifChannel_keeps
  · intro z0 h1
    exact writeRow_keeps h1 hw
  · with_reducible assumption

theorem execRegisterRead_keeps {part : Part} {ch : BitVec 3} {addr : BitVec 22} {s t : State} (h_s : StateKeeps κ s₀ s)
    (h : execRegisterRead part ch addr s = .next t) : StateKeeps κ s₀ t := by
  unfold execRegisterRead at h
  injection h with h
  rw [← h]
  apply ifChannel_keeps
  · intro z615 h616
    apply readRow_keeps
    with_reducible assumption
  · with_reducible assumption

theorem execRegAccessTimeout_keeps {part : Part} {ch : BitVec 3} {write : Bool} {addr : BitVec 22} {s t : State} (h_s : StateKeeps κ s₀ s)
    (h : execRegAccessTimeout part ch write addr s = .next t) : StateKeeps κ s₀ t := by
  unfold execRegAccessTimeout at h
  injection h with h
  rw [← h]
  apply ifChannel_keeps
  · intro z617 h618
    apply timeoutRow_keeps
    with_reducible assumption
  · with_reducible assumption

theorem execPageLockRead_keeps {part : Part} {ch : BitVec 3} {page : BitVec 10} {s t : State} (h_s : StateKeeps κ s₀ s)
    (h : execPageLockRead part ch page s = .next t) : StateKeeps κ s₀ t := by
  unfold execPageLockRead at h
  injection h with h
  rw [← h]
  apply ifChannel_keeps
  · intro z619 h620
    apply readRow_keeps
    with_reducible assumption
  · with_reducible assumption

theorem execSmbusBlockWrite_keeps {addr : BitVec 22} {data : Word} {pecOk : Bool} {s t : State} (h_s : StateKeeps κ s₀ s)
    (h : execSmbusBlockWrite addr data pecOk s = .next t) : StateKeeps κ s₀ t := by
  unfold execSmbusBlockWrite at h
  injection h with h
  rw [← h]
  apply ifDist_keeps
  · intro z621 h622
    apply smbWrite_keeps
    with_reducible assumption
  · with_reducible assumption

theorem execSmbusReadRequest_keeps {addr : BitVec 22} {pecOk : Bool} {s t : State} (h_s : StateKeeps κ s₀ s)
    (h : execSmbusReadRequest addr pecOk s = .next t) : StateKeeps κ s₀ t := by
  unfold execSmbusReadRequest at h
  injection h with h
  rw [← h]
  apply ifDist_keeps
  · intro z623 h624
    apply smbRequest_keeps
    with_reducible assumption
  · with_reducible assumption

theorem execSmbusBlockRead_keeps  {s t : State} (h_s : StateKeeps κ s₀ s)
    (h : execSmbusBlockRead s = .next t) : StateKeeps κ s₀ t := by
  unfold execSmbusBlockRead at h
  injection h with h
  rw [← h]
  apply ifDist_keeps
  · intro z625 h626
    apply smbRead_keeps
    with_reducible assumption
  · with_reducible assumption

/-! ## Machine/Refs.lean -/

theorem execEpochApply_keeps {frac : BitVec 6} {s t : State} (h_s : StateKeeps false s₀ s)
    (h : execEpochApply frac s = .next t) : StateKeeps false s₀ t := by
  unfold execEpochApply at h
  injection h with h
  rw [← h]
  apply ifRoot_keeps
  · intro z76 h77
    extract_lets v78
    have h79 : DistKeeps false s₀ v78 := by
      exact StateKeeps.dist (by assumption)
    clear_value v78
    apply iteState_keeps
    · split
      · apply iteState_keeps
        · apply epochTake_keeps
          with_reducible assumption
        · with_reducible assumption
      · apply iteState_keeps
        · with_reducible assumption
        · apply setBuildout_keeps
          apply epochTake_keeps
          with_reducible assumption
    · with_reducible assumption
  · with_reducible assumption

theorem execXoFail_keeps  {s t : State} (h_s : StateKeeps κ s₀ s)
    (h : execXoFail s = .next t) : StateKeeps κ s₀ t := by
  unfold execXoFail at h
  injection h with h
  rw [← h]
  apply ifRoot_keeps
  · intro z534 h535
    apply iteState_keeps
    · apply noteAge_keeps
      apply logD_keeps
      apply onDist_keeps
      · intro z536 h537
        apply dB_keeps
        · intro z538 h539
          apply wrB_keeps
          apply wrB_keeps
          with_reducible assumption
        · with_reducible assumption
      · with_reducible assumption
    · with_reducible assumption
  · with_reducible assumption

theorem execRefClockLoss_keeps {n : BitVec 2} {s t : State} (h_s : StateKeeps κ s₀ s)
    (h : execRefClockLoss n s = .next t) : StateKeeps κ s₀ t := by
  unfold execRefClockLoss at h
  injection h with h
  rw [← h]
  apply ifRoot_keeps
  · intro z540 h541
    apply iteState_keeps
    · apply failMonitor_keeps
      with_reducible assumption
    · with_reducible assumption
  · with_reducible assumption

theorem execRefPulseTimeout_keeps {n : BitVec 2} {s t : State} (h_s : StateKeeps κ s₀ s)
    (h : execRefPulseTimeout n s = .next t) : StateKeeps κ s₀ t := by
  unfold execRefPulseTimeout at h
  injection h with h
  rw [← h]
  apply ifRoot_keeps
  · intro z542 h543
    extract_lets v544
    split
    · apply iteState_keeps
      · apply failMonitor_keeps
        with_reducible assumption
      · with_reducible assumption
    · with_reducible assumption
  · with_reducible assumption

theorem execRefSecondMark_keeps {n : BitVec 2} {edge : PpsEdge} {s t : State} (h_s : StateKeeps false s₀ s)
    (h : execRefSecondMark n edge s = .next t) : StateKeeps false s₀ t := by
  unfold execRefSecondMark at h
  injection h with h
  rw [← h]
  apply ifRoot_keeps
  · intro z545 h546
    apply refMarkOp_keeps
    with_reducible assumption
  · with_reducible assumption

theorem execSourceQualified_keeps {src : BitVec 3} {s t : State} (h_s : StateKeeps κ s₀ s)
    (h : execSourceQualified src s = .next t) : StateKeeps κ s₀ t := by
  unfold execSourceQualified at h
  injection h with h
  rw [← h]
  apply ifRoot_keeps
  · intro z547 h548
    extract_lets v549
    have h550 : StateKeeps κ s₀ v549 := by
      apply onDist_keeps
      · intro z551 h552
        apply dB_keeps
        · intro z553 h554
          apply pgEvt_keeps
          with_reducible assumption
        · with_reducible assumption
      · apply onSrc_keeps
        with_reducible assumption
    clear_value v549
    apply iteState_keeps
    · apply reselect_keeps
      apply onDist_keeps
      · intro z555 h556
        apply dB_keeps
        · intro z557 h558
          apply emit_keeps
          with_reducible assumption
        · with_reducible assumption
      · with_reducible assumption
    · with_reducible assumption
  · with_reducible assumption

theorem execWtrExpiry_keeps {src : BitVec 3} {s t : State} (h_s : StateKeeps κ s₀ s)
    (h : execWtrExpiry src s = .next t) : StateKeeps κ s₀ t := by
  unfold execWtrExpiry at h
  injection h with h
  rw [← h]
  apply ifRoot_keeps
  · intro z559 h560
    apply iteState_keeps
    · apply reselect_keeps
      apply onSrc_keeps
      with_reducible assumption
    · with_reducible assumption
  · with_reducible assumption

theorem execSwitchCommit_keeps  {s t : State} (h_s : StateKeeps κ s₀ s)
    (h : execSwitchCommit s = .next t) : StateKeeps κ s₀ t := by
  unfold execSwitchCommit at h
  injection h with h
  rw [← h]
  apply ifRoot_keeps
  · intro z561 h562
    apply commitOp_keeps
    with_reducible assumption
  · with_reducible assumption

theorem execRealign_keeps  {s t : State} (h_s : StateKeeps κ s₀ s)
    (h : execRealign s = .next t) : StateKeeps κ s₀ t := by
  unfold execRealign at h
  injection h with h
  rw [← h]
  apply ifRoot_keeps
  · intro z563 h564
    apply realignOp_keeps
    with_reducible assumption
  · with_reducible assumption

theorem execFrmoutPulse_keeps  {s t : State} (h_s : StateKeeps κ s₀ s)
    (h : execFrmoutPulse s = .next t) : StateKeeps κ s₀ t := by
  unfold execFrmoutPulse at h
  injection h with h
  rw [← h]
  apply ifDistRuns_keeps
  · intro z582 h583
    extract_lets v584
    have h586 : Keeps κ s₀.dist.base v584 := by
      exact StateKeeps.dist (by assumption)
    clear_value v584
    apply iteState_keeps
    · apply onRoot_keeps
      apply onDist_keeps
      · intro z587 h588
        apply dB_keeps
        · intro z589 h590
          apply emit_keeps
          with_reducible assumption
        · with_reducible assumption
      · with_reducible assumption
    · with_reducible assumption
  · with_reducible assumption

theorem execPpsoutPulseEnd_keeps  {s t : State} (h_s : StateKeeps κ s₀ s)
    (h : execPpsoutPulseEnd s = .next t) : StateKeeps κ s₀ t := by
  unfold execPpsoutPulseEnd at h
  injection h with h
  rw [← h]
  apply ifDistRuns_keeps
  · intro z591 h592
    split
    · apply iteState_keeps
      · apply onRoot_keeps
        apply onDist_keeps
        · intro z593 h594
          apply dB_keeps
          · intro z595 h596
            apply emit_keeps
            with_reducible assumption
          · with_reducible assumption
        · with_reducible assumption
      · with_reducible assumption
    · with_reducible assumption
  · with_reducible assumption

/-! ## Machine/Startup.lean -/

theorem execTckReload_keeps  {s t : State} (h_s : StateKeeps false s₀ s)
    (h : execTckReload s = .next t) : StateKeeps false s₀ t := by
  unfold execTckReload at h
  injection h with h
  rw [← h]
  apply ifUnit_keeps
  · intro z84 h85
    apply reloadOp_keeps
    with_reducible assumption
  · with_reducible assumption

theorem execPowerOnReset_keeps  {s t : State} (h_s : StateKeeps false s₀ s)
    (h : execPowerOnReset s = .next t) : StateKeeps false s₀ t := by
  unfold execPowerOnReset at h
  injection h with h
  rw [← h]
  apply powerOnOp_keeps
  with_reducible assumption

theorem execSupplyFault_keeps  {s t : State} (h_s : StateKeeps false s₀ s)
    (h : execSupplyFault s = .next t) : StateKeeps false s₀ t := by
  unfold execSupplyFault at h
  injection h with h
  rw [← h]
  apply supplyFaultOp_keeps
  with_reducible assumption

theorem execWarmReset_keeps  {s t : State} (h_s : StateKeeps false s₀ s)
    (h : execWarmReset s = .next t) : StateKeeps false s₀ t := by
  unfold execWarmReset at h
  injection h with h
  rw [← h]
  apply warmResetOp_keeps
  with_reducible assumption

theorem execPerst_keeps  {s t : State} (h_s : StateKeeps κ s₀ s)
    (h : execPerst s = .next t) : StateKeeps κ s₀ t := by
  unfold execPerst at h
  injection h with h
  rw [← h]
  apply ifDist_keeps
  · intro z100 h101
    apply perstOp_keeps
    with_reducible assumption
  · with_reducible assumption

theorem execDistResetRelease_keeps {root : Bool} {domB : Bool} {tier : BitVec 2} {smba : BitVec 3} {s t : State} (h_s : StateKeeps false s₀ s) (hd : isUnit s₀.dist.base = false)
    (h : execDistResetRelease root domB tier smba s = .next t) : StateKeeps false s₀ t := by
  unfold execDistResetRelease at h
  injection h with h
  rw [← h]
  apply distReleaseOp_keeps
  · with_reducible assumption
  · with_reducible assumption

theorem execDistSramInitDone_keeps  {s t : State} (h_s : StateKeeps false s₀ s)
    (h : execDistSramInitDone s = .next t) : StateKeeps false s₀ t := by
  unfold execDistSramInitDone at h
  injection h with h
  rw [← h]
  apply distInitOp_keeps
  with_reducible assumption

theorem execUnitReset_keeps {porst : Bool} {s t : State} (h_s : StateKeeps false s₀ s)
    (h : execUnitReset porst s = .next t) : StateKeeps false s₀ t := by
  unfold execUnitReset at h
  injection h with h
  rw [← h]
  apply onUnit_keeps
  · intro z102 h103
    apply unitHeld_keeps
    with_reducible assumption
  · with_reducible assumption

theorem execUnitResetRelease_keeps  {s t : State} (h_s : StateKeeps false s₀ s)
    (h : execUnitResetRelease s = .next t) : StateKeeps false s₀ t := by
  unfold execUnitResetRelease at h
  injection h with h
  rw [← h]
  apply unitReleaseOp_keeps
  with_reducible assumption

theorem execUnitSramInitDone_keeps  {s t : State} (h_s : StateKeeps false s₀ s)
    (h : execUnitSramInitDone s = .next t) : StateKeeps false s₀ t := by
  unfold execUnitSramInitDone at h
  injection h with h
  rw [← h]
  apply unitInitOp_keeps
  with_reducible assumption

theorem execDbgArm_keeps  {s t : State} (h_s : StateKeeps κ s₀ s)
    (h : execDbgArm s = .next t) : StateKeeps κ s₀ t := by
  unfold execDbgArm at h
  injection h with h
  rw [← h]
  apply ifUnit_keeps
  · intro z312 h313
    apply onUnit_keeps
    · intro z314 h315
      apply dbgArmOp_keeps
      with_reducible assumption
    · with_reducible assumption
  · with_reducible assumption

theorem execDbgTrigger_keeps  {s t : State} (h_s : StateKeeps κ s₀ s)
    (h : execDbgTrigger s = .next t) : StateKeeps κ s₀ t := by
  unfold execDbgTrigger at h
  injection h with h
  rw [← h]
  apply ifUnit_keeps
  · intro z316 h317
    apply onUnit_keeps
    · intro z318 h319
      apply dbgTriggerOp_keeps
      with_reducible assumption
    · with_reducible assumption
  · with_reducible assumption

theorem execDbgStop_keeps  {s t : State} (h_s : StateKeeps κ s₀ s)
    (h : execDbgStop s = .next t) : StateKeeps κ s₀ t := by
  unfold execDbgStop at h
  injection h with h
  rw [← h]
  apply ifUnit_keeps
  · intro z320 h321
    apply onUnit_keeps
    · intro z322 h323
      apply traceStop_keeps
      with_reducible assumption
    · with_reducible assumption
  · with_reducible assumption

theorem execDbgInject_keeps  {s t : State} (h_s : StateKeeps κ s₀ s)
    (h : execDbgInject s = .next t) : StateKeeps κ s₀ t := by
  unfold execDbgInject at h
  injection h with h
  rw [← h]
  apply ifUnit_keeps
  · intro z324 h325
    apply onUnit_keeps
    · intro z326 h327
      apply dbgInjectOp_keeps
      with_reducible assumption
    · with_reducible assumption
  · with_reducible assumption

/-! ## Machine/Admission.lean -/

theorem execHelloTimer_keeps {port : PortRef} {s t : State} (h_s : StateKeeps κ s₀ s)
    (h : execHelloTimer port s = .next t) : StateKeeps κ s₀ t := by
  unfold execHelloTimer at h
  injection h with h
  rw [← h]
  apply ifPort_keeps
  · intro z86 h87
    apply helloOp_keeps
    with_reducible assumption
  · with_reducible assumption

theorem execHelloRx_keeps {rx : RxU} {kind : BitVec 4} {domB : Bool} {tier : BitVec 2} {dkey : Word} {stepping : BitVec 8} {gen : BitVec 16} {valid : Bool} {s t : State} (h_s : StateKeeps κ s₀ s)
    (h : execHelloRx rx kind domB tier dkey stepping gen valid s = .next t) : StateKeeps κ s₀ t := by
  unfold execHelloRx at h
  injection h with h
  rw [← h]
  apply ifPort_keeps
  · intro z88 h89
    extract_lets v90 v91
    have h92 : StateKeeps κ s₀ v91.2 := by
      apply rxUns_keeps
      with_reducible assumption
    clear_value v91
    apply iteState_keeps
    · split
      · with_reducible assumption
      · apply helloRxOp_keeps
        with_reducible assumption
    · with_reducible assumption
  · with_reducible assumption

theorem execAdmissionSlot_keeps  {s t : State} (h_s : StateKeeps κ s₀ s)
    (h : execAdmissionSlot s = .next t) : StateKeeps κ s₀ t := by
  unfold execAdmissionSlot at h
  injection h with h
  rw [← h]
  apply ifDistRuns_keeps
  · intro z93 h94
    apply slotOp_keeps
    with_reducible assumption
  · with_reducible assumption

theorem execAdmitRx_keeps {rx : Rx} {unitId : BitVec 20} {port : BitVec 8} {domB : Bool} {tier : BitVec 2} {dkey : Word} {childDist : Bool} {s t : State} (h_s : StateKeeps κ s₀ s)
    (h : execAdmitRx rx unitId port domB tier dkey childDist s = .next t) : StateKeeps κ s₀ t := by
  unfold execAdmitRx at h
  injection h with h
  rw [← h]
  apply ifPort_keeps
  · intro z95 h96
    extract_lets v97 v98
    have h99 : StateKeeps κ s₀ v98.2 := by
      apply rxSeq_keeps
      with_reducible assumption
    clear_value v98
    apply iteState_keeps
    · split
      · apply unitAdmit_keeps
        with_reducible assumption
      · apply distAdmit_keeps
        with_reducible assumption
    · with_reducible assumption
  · with_reducible assumption

/-! ## Machine/Health.lean -/

theorem execHealthRx_keeps {rx : Rx} {unitId : BitVec 20} {dist : Bool} {kind : BitVec 7} {code : BitVec 12} {detail : BitVec 24} {s t : State} (h_s : StateKeeps κ s₀ s)
    (h : execHealthRx rx unitId dist kind code detail s = .next t) : StateKeeps κ s₀ t := by
  unfold execHealthRx at h
  injection h with h
  rw [← h]
  apply ifPort_keeps
  · intro z104 h105
    extract_lets v106
    apply onDistRx_keeps
    · apply rxSeq_keeps
      with_reducible assumption
    · intro z107 z108 h109
      apply healthOp_keeps
      with_reducible assumption
  · with_reducible assumption

theorem execHealthVoteSend_keeps {port : PortRef} {s t : State} (h_s : StateKeeps κ s₀ s)
    (h : execHealthVoteSend port s = .next t) : StateKeeps κ s₀ t := by
  unfold execHealthVoteSend at h
  injection h with h
  rw [← h]
  apply ifPort_keeps
  · intro z110 h111
    apply voteSend_keeps
    with_reducible assumption
  · with_reducible assumption

theorem execHealthDecay_keeps  {s t : State} (h_s : StateKeeps κ s₀ s)
    (h : execHealthDecay s = .next t) : StateKeeps κ s₀ t := by
  unfold execHealthDecay at h
  injection h with h
  rw [← h]
  apply ifDistRuns_keeps
  · intro z112 h113
    apply onDist_keeps
    · intro z114 h115
      apply decayOp_keeps
      with_reducible assumption
    · with_reducible assumption
  · with_reducible assumption

theorem execExpulsionEvaluate_keeps  {s t : State} (h_s : StateKeeps κ s₀ s)
    (h : execExpulsionEvaluate s = .next t) : StateKeeps κ s₀ t := by
  unfold execExpulsionEvaluate at h
  injection h with h
  rw [← h]
  apply ifDistRuns_keeps
  · intro z116 h117
    apply evaluateOp_keeps
    with_reducible assumption
  · with_reducible assumption

theorem execHealthReadmit_keeps {port : Fin 132} {s t : State} (h_s : StateKeeps κ s₀ s)
    (h : execHealthReadmit port s = .next t) : StateKeeps κ s₀ t := by
  unfold execHealthReadmit at h
  injection h with h
  rw [← h]
  apply ifDist_keeps
  · intro z118 h119
    apply healthReadmitOp_keeps
    with_reducible assumption
  · with_reducible assumption

theorem execWdogFail_keeps {engine : BitVec 3} {s t : State} (h_s : StateKeeps false s₀ s)
    (h : execWdogFail engine s = .next t) : StateKeeps false s₀ t := by
  unfold execWdogFail at h
  injection h with h
  rw [← h]
  apply ifDistRuns_keeps
  · intro z120 h121
    apply wdogOp_keeps
    with_reducible assumption
  · with_reducible assumption

theorem execDistMemFatal_keeps {mem : BitVec 8} {s t : State} (h_s : StateKeeps false s₀ s)
    (h : execDistMemFatal mem s = .next t) : StateKeeps false s₀ t := by
  unfold execDistMemFatal at h
  injection h with h
  rw [← h]
  apply ifDistRuns_keeps
  · intro z122 h123
    apply memFatalOp_keeps
    with_reducible assumption
  · with_reducible assumption

theorem execSoleRoot_keeps  {s t : State} (h_s : StateKeeps κ s₀ s)
    (h : execSoleRoot s = .next t) : StateKeeps κ s₀ t := by
  unfold execSoleRoot at h
  injection h with h
  rw [← h]
  apply ifDistRuns_keeps
  · intro z124 h125
    apply soleOp_keeps
    with_reducible assumption
  · with_reducible assumption

theorem execRootRopeLost_keeps  {s t : State} (h_s : StateKeeps κ s₀ s)
    (h : execRootRopeLost s = .next t) : StateKeeps κ s₀ t := by
  unfold execRootRopeLost at h
  injection h with h
  rw [← h]
  apply ifDistRuns_keeps
  · intro z126 h127
    apply ropeLostOp_keeps
    with_reducible assumption
  · with_reducible assumption

theorem execLeadHandback_keeps  {s t : State} (h_s : StateKeeps κ s₀ s)
    (h : execLeadHandback s = .next t) : StateKeeps κ s₀ t := by
  unfold execLeadHandback at h
  injection h with h
  rw [← h]
  apply ifDistRuns_keeps
  · intro z128 h129
    apply handbackOp_keeps
    with_reducible assumption
  · with_reducible assumption

theorem execFltRecRead_keeps {part : Part} {ch : BitVec 3} {s t : State} (h_s : StateKeeps κ s₀ s)
    (h : execFltRecRead part ch s = .next t) : StateKeeps κ s₀ t := by
  unfold execFltRecRead at h
  injection h with h
  rw [← h]
  apply ifPart_keeps
  · intro z0 h1
    dsimp only
    apply answer_keeps
    have h2 : Keeps κ (partBase s₀ part) (recRead ch.toNat (partBase z0 part)).2 := by
      cases part
      · exact recRead_keeps h1.unit
      · exact recRead_keeps h1.dist
    cases part
    · exact ⟨h1.queue, h2, h1.dist⟩
    · exact ⟨h1.queue, h1.unit, h2⟩
  · with_reducible assumption

theorem execFltFlush_keeps {part : Part} {s t : State} (h_s : StateKeeps κ s₀ s)
    (h : execFltFlush part s = .next t) : StateKeeps κ s₀ t := by
  unfold execFltFlush at h
  injection h with h
  rw [← h]
  apply ifPart_keeps
  · intro z0 h1
    exact onPartBase_keeps (fun _ _ h => logEmpty_keeps h) h1
  · with_reducible assumption

theorem execFltClrFirst_keeps {part : Part} {s t : State} (h_s : StateKeeps κ s₀ s)
    (h : execFltClrFirst part s = .next t) : StateKeeps κ s₀ t := by
  unfold execFltClrFirst at h
  injection h with h
  rw [← h]
  apply ifPart_keeps
  · intro z130 h131
    apply onPartBase_keeps
    · intro z132 z133 h134
      with_reducible apply base_mk_keeps
      with_reducible assumption
    · with_reducible assumption
  · with_reducible assumption

theorem execDistMute_keeps  {s t : State} (h_s : StateKeeps κ s₀ s)
    (h : execDistMute s = .next t) : StateKeeps κ s₀ t := by
  unfold execDistMute at h
  injection h with h
  rw [← h]
  apply ifDistRuns_keeps
  · intro z306 h307
    apply muteOp_keeps
    with_reducible assumption
  · with_reducible assumption

theorem execThmSample_keeps {k : BitVec 2} {temp : BitVec 12} {s t : State} (h_s : StateKeeps false s₀ s)
    (h : execThmSample k temp s = .next t) : StateKeeps false s₀ t := by
  unfold execThmSample at h
  injection h with h
  rw [← h]
  apply ifDist_keeps
  · intro z605 h606
    apply thmSampleOp_keeps
    with_reducible assumption
  · with_reducible assumption

theorem execThmSensorFail_keeps {k : BitVec 2} {s t : State} (h_s : StateKeeps κ s₀ s)
    (h : execThmSensorFail k s = .next t) : StateKeeps κ s₀ t := by
  unfold execThmSensorFail at h
  injection h with h
  rw [← h]
  apply ifDist_keeps
  · intro z607 h608
    apply thmFailOp_keeps
    with_reducible assumption
  · with_reducible assumption

theorem execThmClrMax_keeps  {s t : State} (h_s : StateKeeps κ s₀ s)
    (h : execThmClrMax s = .next t) : StateKeeps κ s₀ t := by
  unfold execThmClrMax at h
  injection h with h
  rw [← h]
  apply ifDist_keeps
  · intro z609 h610
    apply onDist_keeps
    · intro z611 h612
      apply dB_keeps
      · intro z613 h614
        apply wr_keeps
        with_reducible assumption
      · with_reducible assumption
    · with_reducible assumption
  · with_reducible assumption

/-! ## Machine/Events.lean -/

theorem execHevtEdge_keeps {n : BitVec 7} {level : Bool} {s t : State} (h_s : StateKeeps κ s₀ s)
    (h : execHevtEdge n level s = .next t) : StateKeeps κ s₀ t := by
  unfold execHevtEdge at h
  injection h with h
  rw [← h]
  apply ifUnit_keeps
  · intro z135 h136
    apply onUnit_keeps
    · intro z137 h138
      apply uB_keeps
      · intro z139 h140
        apply hevtOp_keeps
        with_reducible assumption
      · with_reducible assumption
    · with_reducible assumption
  · with_reducible assumption

theorem execEvinEdge_keeps {i : BitVec 4} {level : Bool} {s t : State} (h_s : StateKeeps κ s₀ s)
    (h : execEvinEdge i level s = .next t) : StateKeeps κ s₀ t := by
  unfold execEvinEdge at h
  injection h with h
  rw [← h]
  apply ifUnit_keeps
  · intro z141 h142
    apply onUnit_keeps
    · intro z143 h144
      apply uB_keeps
      · intro z145 h146
        apply evinOp_keeps
        with_reducible assumption
      · with_reducible assumption
    · with_reducible assumption
  · with_reducible assumption

theorem execEvcAssign_keeps  {s t : State} (h_s : StateKeeps κ s₀ s)
    (h : execEvcAssign s = .next t) : StateKeeps κ s₀ t := by
  unfold execEvcAssign at h
  injection h with h
  rw [← h]
  apply ifUnit_keeps
  · intro z147 h148
    apply onUnit_keeps
    · intro z149 h150
      apply uB_keeps
      · intro z151 h152
        apply driveEvreq_keeps
        with_reducible assumption
      · with_reducible assumption
    · apply logUnrouted_keeps
      with_reducible assumption
  · with_reducible assumption

theorem execClaimRead_keeps {k : BitVec 3} {ch : BitVec 3} {s t : State} (h_s : StateKeeps κ s₀ s)
    (h : execClaimRead k ch s = .next t) : StateKeeps κ s₀ t := by
  unfold execClaimRead at h
  injection h with h
  rw [← h]
  apply ifUnit_keeps
  · intro z153 h154
    extract_lets v155
    have h156 : StateKeeps κ s₀ v155.2 := by
      apply claim_keeps
      with_reducible assumption
    clear_value v155
    apply answer_keeps
    with_reducible assumption
  · with_reducible assumption

theorem execEoiWrite_keeps {k : BitVec 3} {src : BitVec 9} {s t : State} (h_s : StateKeeps κ s₀ s)
    (h : execEoiWrite k src s = .next t) : StateKeeps κ s₀ t := by
  unfold execEoiWrite at h
  injection h with h
  rw [← h]
  apply ifUnit_keeps
  · intro z157 h158
    apply eoi_keeps
    with_reducible assumption
  · with_reducible assumption

theorem execCpuFlush_keeps {k : BitVec 3} {s t : State} (h_s : StateKeeps κ s₀ s)
    (h : execCpuFlush k s = .next t) : StateKeeps κ s₀ t := by
  unfold execCpuFlush at h
  injection h with h
  rw [← h]
  apply ifUnit_keeps
  · intro z159 h160
    apply onUnit_keeps
    · intro z161 h162
      apply uB_keeps
      · intro z163 h164
        apply cpuFlushOp_keeps
        with_reducible assumption
      · with_reducible assumption
    · with_reducible assumption
  · with_reducible assumption

theorem execPendRead_keeps {part : Part} {ch : BitVec 3} {w : BitVec 4} {s t : State} (h_s : StateKeeps κ s₀ s)
    (h : execPendRead part ch w s = .next t) : StateKeeps κ s₀ t := by
  unfold execPendRead at h
  injection h with h
  rw [← h]
  apply ifPart_keeps
  · intro z165 h166
    apply onPartBase_keeps
    · intro z167 z168 h169
      apply pendReadOp_keeps
      with_reducible assumption
    · apply answer_keeps
      with_reducible assumption
  · with_reducible assumption

theorem execPendWrite_keeps {part : Part} {w : BitVec 4} {be : BitVec 4} {data : Word} {s t : State} (h_s : StateKeeps κ s₀ s)
    (h : execPendWrite part w be data s = .next t) : StateKeeps κ s₀ t := by
  unfold execPendWrite at h
  injection h with h
  rw [← h]
  apply ifPart_keeps
  · intro z170 h171
    apply pendWriteOp_keeps
    with_reducible assumption
  · with_reducible assumption

theorem execPendSet_keeps {part : Part} {w : BitVec 4} {be : BitVec 4} {data : Word} {s t : State} (h_s : StateKeeps κ s₀ s)
    (h : execPendSet part w be data s = .next t) : StateKeeps κ s₀ t := by
  unfold execPendSet at h
  injection h with h
  rw [← h]
  apply ifPart_keeps
  · intro z172 h173
    apply onPartBase_keeps
    · intro z174 z175 h176
      apply pendSetOp_keeps
      with_reducible assumption
    · with_reducible assumption
  · with_reducible assumption

theorem execMaskSet_keeps {part : Part} {w : BitVec 4} {be : BitVec 4} {data : Word} {s t : State} (h_s : StateKeeps κ s₀ s)
    (h : execMaskSet part w be data s = .next t) : StateKeeps κ s₀ t := by
  unfold execMaskSet at h
  injection h with h
  rw [← h]
  apply ifPart_keeps
  · intro z177 h178
    apply onPartBase_keeps
    · intro z179 z180 h181
      apply maskWriteOp_keeps
      with_reducible assumption
    · with_reducible assumption
  · with_reducible assumption

theorem execMaskClr_keeps {part : Part} {w : BitVec 4} {be : BitVec 4} {data : Word} {s t : State} (h_s : StateKeeps κ s₀ s)
    (h : execMaskClr part w be data s = .next t) : StateKeeps κ s₀ t := by
  unfold execMaskClr at h
  injection h with h
  rw [← h]
  apply ifPart_keeps
  · intro z182 h183
    apply onPartBase_keeps
    · intro z184 z185 h186
      apply maskWriteOp_keeps
      with_reducible assumption
    · with_reducible assumption
  · with_reducible assumption

theorem execHoldoffExpiry_keeps {part : Part} {g : BitVec 4} {s t : State} (h_s : StateKeeps κ s₀ s)
    (h : execHoldoffExpiry part g s = .next t) : StateKeeps κ s₀ t := by
  unfold execHoldoffExpiry at h
  injection h with h
  rw [← h]
  apply ifPart_keeps
  · intro z187 h188
    apply onPartBase_keeps
    · intro z189 z190 h191
      apply holdoffOp_keeps
      with_reducible assumption
    · with_reducible assumption
  · with_reducible assumption

theorem execLanternEnter_keeps {psleep : BitVec 8} {s t : State} (h_s : StateKeeps κ s₀ s)
    (h : execLanternEnter psleep s = .next t) : StateKeeps κ s₀ t := by
  unfold execLanternEnter at h
  injection h with h
  rw [← h]
  apply ifUnit_keeps
  · intro z192 h193
    apply lanternEnterOp_keeps
    with_reducible assumption
  · with_reducible assumption

theorem execLanternExit_keeps {psleep : BitVec 8} {s t : State} (h_s : StateKeeps κ s₀ s)
    (h : execLanternExit psleep s = .next t) : StateKeeps κ s₀ t := by
  unfold execLanternExit at h
  injection h with h
  rw [← h]
  apply ifUnit_keeps
  · intro z194 h195
    apply onUnit_keeps
    · intro z196 h197
      apply uB_keeps
      · intro z198 h199
        apply lanternExitOp_keeps
        with_reducible assumption
      · with_reducible assumption
    · with_reducible assumption
  · with_reducible assumption

theorem execConfigurationRequest_keeps {msixEn : Bool} {fmask : Bool} {s t : State} (h_s : StateKeeps κ s₀ s)
    (h : execConfigurationRequest msixEn fmask s = .next t) : StateKeeps κ s₀ t := by
  unfold execConfigurationRequest at h
  injection h with h
  rw [← h]
  apply ifDist_keeps
  · intro z200 h201
    apply onDist_keeps
    · intro z202 h203
      apply dB_keeps
      · intro z204 h205
        extract_lets v206 v207 v207' v208
        have h210 : Keeps κ s₀.dist.base v208 := by
          dsimp only [v208]
          with_reducible apply base_mk_keeps
          with_reducible assumption
        clear_value v208
        apply iteBase_keeps
        · apply vecSendAll_keeps
          with_reducible assumption
        · apply iteBase_keeps
          · apply pbaSettle_keeps
            with_reducible assumption
          · with_reducible assumption
      · with_reducible assumption
    · with_reducible assumption
  · with_reducible assumption

/-! ## Machine/Presence.lean -/

theorem execPresencePress_keeps  {s t : State} (h_s : StateKeeps κ s₀ s)
    (h : execPresencePress s = .next t) : StateKeeps κ s₀ t := by
  unfold execPresencePress at h
  injection h with h
  rw [← h]
  apply ifDistRuns_keeps
  · intro z211 h212
    apply pressOp_keeps
    with_reducible assumption
  · with_reducible assumption

theorem execPresenceRx_keeps {rx : Rx} {expiry : BitVec 48} {window : BitVec 16} {s t : State} (h_s : StateKeeps κ s₀ s)
    (h : execPresenceRx rx expiry window s = .next t) : StateKeeps κ s₀ t := by
  unfold execPresenceRx at h
  dsimp only at h
  split at h
  · split at h
    · injection h with h
      rw [← h]
      apply unitPresence_keeps
      apply rxSeq_keeps
      with_reducible assumption
    · injection h with h
      rw [← h]
      apply distPresence_keeps
      apply rxSeq_keeps
      with_reducible assumption
  · injection h with h
    rw [← h]
    apply rxSeq_keeps
    with_reducible assumption

theorem execPresenceClose_keeps  {s t : State} (h_s : StateKeeps κ s₀ s)
    (h : execPresenceClose s = .next t) : StateKeeps κ s₀ t := by
  unfold execPresenceClose at h
  injection h with h
  rw [← h]
  apply ifDist_keeps
  · intro z213 h214
    apply closeOp_keeps
    with_reducible assumption
  · with_reducible assumption

theorem execPresenceExpiry_keeps {part : Part} {s t : State} (h_s : StateKeeps κ s₀ s)
    (h : execPresenceExpiry part s = .next t) : StateKeeps κ s₀ t := by
  unfold execPresenceExpiry at h
  injection h with h
  rw [← h]
  apply ifPart_keeps
  · intro z215 h216
    apply expireOp_keeps
    with_reducible assumption
  · with_reducible assumption

theorem execCfgLockChange_keeps {part : Part} {low : Bool} {s t : State} (h_s : StateKeeps κ s₀ s)
    (h : execCfgLockChange part low s = .next t) : StateKeeps κ s₀ t := by
  unfold execCfgLockChange at h
  injection h with h
  rw [← h]
  apply ifPart_keeps
  · intro z217 h218
    apply lockOp_keeps
    with_reducible assumption
  · with_reducible assumption

theorem execSealBreak_keeps  {s t : State} (h_s : StateKeeps κ s₀ s)
    (h : execSealBreak s = .next t) : StateKeeps κ s₀ t := by
  unfold execSealBreak at h
  injection h with h
  rw [← h]
  apply ifDist_keeps
  · intro z219 h220
    apply sealOp_keeps
    with_reducible assumption
  · with_reducible assumption

/-! ## Machine/Semaphore.lean -/

theorem execSemAdd_keeps {req : Req} {sem : BitVec 16} {amount : BitVec 32} {s t : State} (h_s : StateKeeps κ s₀ s)
    (h : execSemAdd req sem amount s = .next t) : StateKeeps κ s₀ t := by
  unfold execSemAdd at h
  injection h with h
  rw [← h]
  apply request_keeps
  · intro z221 h222
    apply onLiveSem_keeps
    · intro z223 h224
      extract_lets v225 v226
      have h227 : StateKeeps κ s₀ v225 := by
        apply semAddVal_keeps
        with_reducible assumption
      clear_value v225
      have h228 : StateKeeps κ s₀ v226 := by
        apply onUnit_keeps
        · intro z229 h230
          apply respAck_keeps
          with_reducible assumption
        · with_reducible assumption
      clear_value v226
      apply onUnit_keeps
      · intro z231 h232
        apply walk_keeps
        with_reducible assumption
      · with_reducible assumption
    · with_reducible assumption
  · with_reducible assumption

theorem execSemSub_keeps {req : Req} {sem : BitVec 16} {amount : BitVec 32} {s t : State} (h_s : StateKeeps κ s₀ s)
    (h : execSemSub req sem amount s = .next t) : StateKeeps κ s₀ t := by
  unfold execSemSub at h
  injection h with h
  rw [← h]
  apply request_keeps
  · intro z233 h234
    apply onLiveSem_keeps
    · intro z235 h236
      extract_lets v237
      have h238 : StateKeeps κ s₀ v237 := by
        apply semSubVal_keeps
        with_reducible assumption
      clear_value v237
      apply onUnit_keeps
      · intro z239 h240
        apply respAck_keeps
        with_reducible assumption
      · with_reducible assumption
    · with_reducible assumption
  · with_reducible assumption

theorem execSemRead_keeps {req : Req} {sem : BitVec 16} {s t : State} (h_s : StateKeeps κ s₀ s)
    (h : execSemRead req sem s = .next t) : StateKeeps κ s₀ t := by
  unfold execSemRead at h
  injection h with h
  rw [← h]
  apply request_keeps
  · intro z241 h242
    apply onLiveSem_keeps
    · intro z243 h244
      apply onUnit_keeps
      · intro z245 h246
        extract_lets v247 v248
        have h249 : UnitKeeps κ s₀ v247 := by
          apply injTouch_keeps
          with_reducible assumption
        clear_value v247
        apply pushResp_keeps
        with_reducible assumption
      · with_reducible assumption
    · with_reducible assumption
  · with_reducible assumption

theorem execSemWait_keeps {req : Req} {take : Bool} {sem : BitVec 16} {tout : BitVec 32} {n : BitVec 32} {s t : State} (h_s : StateKeeps κ s₀ s)
    (h : execSemWait req take sem tout n s = .next t) : StateKeeps κ s₀ t := by
  unfold execSemWait at h
  injection h with h
  rw [← h]
  apply request_keeps
  · intro z250 h251
    apply onLiveSem_keeps
    · intro z252 h253
      apply semWaitOp_keeps
      with_reducible assumption
    · with_reducible assumption
  · with_reducible assumption

theorem execWchCancel_keeps {req : Req} {obj : BitVec 16} {cls : BitVec 4} {wcore : BitVec 10} {wtag : BitVec 8} {s t : State} (h_s : StateKeeps κ s₀ s)
    (h : execWchCancel req obj cls wcore wtag s = .next t) : StateKeeps κ s₀ t := by
  unfold execWchCancel at h
  injection h with h
  rw [← h]
  apply request_keeps
  · intro z254 h255
    apply cancelOp_keeps
    with_reducible assumption
  · with_reducible assumption

theorem execMemWait_keeps {req : Req} {addr : BitVec 45} {n : BitVec 48} {s t : State} (h_s : StateKeeps κ s₀ s)
    (h : execMemWait req addr n s = .next t) : StateKeeps κ s₀ t := by
  unfold execMemWait at h
  injection h with h
  rw [← h]
  apply request_keeps
  · intro z256 h257
    apply memWaitOp_keeps
    with_reducible assumption
  · with_reducible assumption

theorem execSnoopWrite_keeps {addr : BitVec 45} {be : BitVec 8} {data : BitVec 64} {s t : State} (h_s : StateKeeps κ s₀ s)
    (h : execSnoopWrite addr be data s = .next t) : StateKeeps κ s₀ t := by
  unfold execSnoopWrite at h
  injection h with h
  rw [← h]
  apply ifUnitRuns_keeps
  · intro z258 h259
    apply onUnit_keeps
    · intro z260 h261
      apply snoopOp_keeps
      with_reducible assumption
    · with_reducible assumption
  · with_reducible assumption

theorem execWatchTimeout_keeps {cls : BitVec 4} {obj : BitVec 16} {core : BitVec 10} {tag : BitVec 8} {s t : State} (h_s : StateKeeps κ s₀ s)
    (h : execWatchTimeout cls obj core tag s = .next t) : StateKeeps κ s₀ t := by
  unfold execWatchTimeout at h
  injection h with h
  rw [← h]
  apply ifUnitRuns_keeps
  · intro z262 h263
    apply watchTimeoutOp_keeps
    with_reducible assumption
  · with_reducible assumption

theorem execMsgBadOp_keeps {req : Req} {op : BitVec 6} {s t : State} (h_s : StateKeeps κ s₀ s)
    (h : execMsgBadOp req op s = .next t) : StateKeeps κ s₀ t := by
  unfold execMsgBadOp at h
  injection h with h
  rw [← h]
  apply request_keeps
  · intro z264 h265
    dsimp only [id]
    with_reducible assumption
  · with_reducible assumption

theorem execResponseEmit_keeps {ready : BitVec 16} {s t : State} (h_s : StateKeeps κ s₀ s)
    (h : execResponseEmit ready s = .next t) : StateKeeps κ s₀ t := by
  unfold execResponseEmit at h
  injection h with h
  rw [← h]
  apply ifUnitRuns_keeps
  · intro z266 h267
    apply onUnit_keeps
    · intro z268 h269
      apply emitOp_keeps
      with_reducible assumption
    · with_reducible assumption
  · with_reducible assumption

theorem scrubObject_keeps {o : EccTarget} {c : Bool} {u : UnitState} (h_u : UnitKeeps κ s₀ u) :
    UnitKeeps κ s₀ (scrubObject o c u) := by
  unfold scrubObject
  split
  · apply iteUnit_keeps
    · exact uB_keeps (fun _ h => inc_keeps h) (eccTouch_keeps h_u)
    · exact eccTouch_keeps h_u
  · exact h_u

theorem scrubDist_keeps {c : Bool} {d : DistState} (h_d : DistKeeps κ s₀ d) : DistKeeps κ s₀ (scrubDist c d) := by
  unfold scrubDist
  split
  · exact dB_keeps (fun _ h => inc_keeps h) h_d
  · exact h_d

theorem execScrub_keeps {target : ScrubTarget} {correctable : Bool} {s t : State} (h_s : StateKeeps κ s₀ s)
    (h : execScrub target correctable s = .next t) : StateKeeps κ s₀ t := by
  unfold execScrub at h
  cases target <;> injection h with h <;> rw [← h]
  · exact ifUnitRuns_keeps (fun _ h => onUnit_keeps (fun _ h' => scrubObject_keeps h') h) h_s
  · exact ifDistRuns_keeps (fun _ h => onDist_keeps (fun _ h' => scrubDist_keeps h') h) h_s

theorem execSumpRead_keeps {ch : BitVec 3} {s t : State} (h_s : StateKeeps κ s₀ s)
    (h : execSumpRead ch s = .next t) : StateKeeps κ s₀ t := by
  unfold execSumpRead at h
  injection h with h
  rw [← h]
  apply ifUnitRuns_keeps
  · intro z284 h285
    extract_lets v286
    have h287 : UnitKeeps κ s₀ v286.2 := by
      apply sumpReadOp_keeps
      exact StateKeeps.unit (by assumption)
    clear_value v286
    apply answer_keeps
    refine state_of_keeps ?_ ?_ ?_ <;> dsimp only
    · exact StateKeeps.queue (by assumption)
    · with_reducible assumption
    · exact StateKeeps.dist (by assumption)
  · with_reducible assumption

theorem execSemCmdAdd_keeps  {s t : State} (h_s : StateKeeps κ s₀ s)
    (h : execSemCmdAdd s = .next t) : StateKeeps κ s₀ t := by
  unfold execSemCmdAdd at h
  injection h with h
  rw [← h]
  apply semAddCmd_keeps
  with_reducible assumption

theorem execSemCmdSub_keeps  {s t : State} (h_s : StateKeeps κ s₀ s)
    (h : execSemCmdSub s = .next t) : StateKeeps κ s₀ t := by
  unfold execSemCmdSub at h
  injection h with h
  rw [← h]
  apply semSubCmd_keeps
  with_reducible assumption

theorem execSemCmdSet_keeps  {s t : State} (h_s : StateKeeps κ s₀ s)
    (h : execSemCmdSet s = .next t) : StateKeeps κ s₀ t := by
  unfold execSemCmdSet at h
  injection h with h
  rw [← h]
  apply semSetCmd_keeps
  with_reducible assumption

theorem execSemCmdClrFlags_keeps  {s t : State} (h_s : StateKeeps κ s₀ s)
    (h : execSemCmdClrFlags s = .next t) : StateKeeps κ s₀ t := by
  unfold execSemCmdClrFlags at h
  injection h with h
  rw [← h]
  apply semClrCmd_keeps
  with_reducible assumption

theorem execSemCmdLoadView_keeps  {s t : State} (h_s : StateKeeps κ s₀ s)
    (h : execSemCmdLoadView s = .next t) : StateKeeps κ s₀ t := by
  unfold execSemCmdLoadView at h
  injection h with h
  rw [← h]
  apply ifUnitRuns_keeps
  · intro z288 h289
    apply semViewCmd_keeps
    with_reducible assumption
  · with_reducible assumption

/-! ## Machine/Context.lean -/

theorem execCtxClear_keeps  {s t : State} (h_s : StateKeeps κ s₀ s)
    (h : execCtxClear s = .next t) : StateKeeps κ s₀ t := by
  unfold execCtxClear at h
  injection h with h
  rw [← h]
  apply ifUnitRuns_keeps
  · intro z270 h271
    apply ctxClearOp_keeps
    with_reducible assumption
  · with_reducible assumption

theorem execCtxClearDone_keeps  {s t : State} (h_s : StateKeeps κ s₀ s)
    (h : execCtxClearDone s = .next t) : StateKeeps κ s₀ t := by
  unfold execCtxClearDone at h
  injection h with h
  rw [← h]
  apply ifUnitRuns_keeps
  · intro z272 h273
    apply onUnit_keeps
    · intro z274 h275
      apply ctxClearDoneOp_keeps
      with_reducible assumption
    · with_reducible assumption
  · with_reducible assumption

theorem execEccUncorrectable_keeps {target : EccTarget} {s t : State} (h_s : StateKeeps κ s₀ s)
    (h : execEccUncorrectable target s = .next t) : StateKeeps κ s₀ t := by
  unfold execEccUncorrectable at h
  injection h with h
  rw [← h]
  apply ifUnitRuns_keeps
  · intro z276 h277
    apply eccOp_keeps
    with_reducible assumption
  · with_reducible assumption

theorem execBarEnter_keeps {req : Req} {barrier : BitVec 8} {s t : State} (h_s : StateKeeps κ s₀ s)
    (h : execBarEnter req barrier s = .next t) : StateKeeps κ s₀ t := by
  unfold execBarEnter at h
  injection h with h
  rw [← h]
  apply request_keeps
  · intro z445 h446
    apply barEnterOp_keeps
    with_reducible assumption
  · with_reducible assumption

theorem execBarDeadline_keeps {barrier : BitVec 8} {s t : State} (h_s : StateKeeps κ s₀ s)
    (h : execBarDeadline barrier s = .next t) : StateKeeps κ s₀ t := by
  unfold execBarDeadline at h
  injection h with h
  rw [← h]
  apply ifUnitRuns_keeps
  · intro z447 h448
    apply barDeadlineOp_keeps
    with_reducible assumption
  · with_reducible assumption

theorem execBarReset_keeps  {s t : State} (h_s : StateKeeps κ s₀ s)
    (h : execBarReset s = .next t) : StateKeeps κ s₀ t := by
  unfold execBarReset at h
  injection h with h
  rw [← h]
  apply ifUnitRuns_keeps
  · intro z449 h450
    apply barResetOp_keeps
    with_reducible assumption
  · with_reducible assumption

theorem execBarEnWrite_keeps {be : BitVec 4} {data : Word} {s t : State} (h_s : StateKeeps κ s₀ s)
    (h : execBarEnWrite be data s = .next t) : StateKeeps κ s₀ t := by
  unfold execBarEnWrite at h
  injection h with h
  rw [← h]
  apply ifUnitRuns_keeps
  · intro z451 h452
    apply barCtlOp_keeps
    with_reducible assumption
  · with_reducible assumption

theorem execFenceSignal_keeps {src : BitVec 16} {tag : BitVec 16} {wcount : BitVec 32} {sem : BitVec 16} {amount : BitVec 32} {s t : State} (h_s : StateKeeps κ s₀ s)
    (h : execFenceSignal src tag wcount sem amount s = .next t) : StateKeeps κ s₀ t := by
  unfold execFenceSignal at h
  injection h with h
  rw [← h]
  apply ifUnitRuns_keeps
  · intro z465 h466
    apply fenceSignalOp_keeps
    with_reducible assumption
  · with_reducible assumption

theorem execDrainReport_keeps {src : BitVec 16} {tag : BitVec 16} {delta : BitVec 16} {s t : State} (h_s : StateKeeps κ s₀ s)
    (h : execDrainReport src tag delta s = .next t) : StateKeeps κ s₀ t := by
  unfold execDrainReport at h
  injection h with h
  rw [← h]
  apply ifUnitRuns_keeps
  · intro z467 h468
    apply drainOp_keeps
    with_reducible assumption
  · with_reducible assumption

theorem execFncTimeout_keeps  {s t : State} (h_s : StateKeeps κ s₀ s)
    (h : execFncTimeout s = .next t) : StateKeeps κ s₀ t := by
  unfold execFncTimeout at h
  injection h with h
  rw [← h]
  apply ifUnitRuns_keeps
  · intro z469 h470
    apply fncTimeoutOp_keeps
    with_reducible assumption
  · with_reducible assumption

theorem execFncDiscard_keeps  {s t : State} (h_s : StateKeeps κ s₀ s)
    (h : execFncDiscard s = .next t) : StateKeeps κ s₀ t := by
  unfold execFncDiscard at h
  injection h with h
  rw [← h]
  apply ifUnitRuns_keeps
  · intro z471 h472
    extract_lets v473
    apply logU_keeps
    apply onUnit_keeps
    · intro z474 h475
      apply fncDrop_keeps
      with_reducible assumption
    · with_reducible assumption
  · with_reducible assumption

theorem execFncLoadView_keeps  {s t : State} (h_s : StateKeeps κ s₀ s)
    (h : execFncLoadView s = .next t) : StateKeeps κ s₀ t := by
  unfold execFncLoadView at h
  injection h with h
  rw [← h]
  apply ifUnitRuns_keeps
  · intro z476 h477
    apply onUnit_keeps
    · intro z478 h479
      apply fncView_keeps
      with_reducible assumption
    · with_reducible assumption
  · with_reducible assumption

theorem execApplyChannelReady_keeps {ready : Bool} {s t : State} (h_s : StateKeeps κ s₀ s)
    (h : execApplyChannelReady ready s = .next t) : StateKeeps κ s₀ t := by
  unfold execApplyChannelReady at h
  injection h with h
  rw [← h]
  apply ifUnitRuns_keeps
  · intro z480 h481
    apply iteState_keeps
    · apply onUnit_keeps
      · intro z482 h483
        apply onFnc_keeps
        with_reducible assumption
      · with_reducible assumption
    · with_reducible assumption
  · with_reducible assumption

theorem execDeadlock_keeps  {s t : State} (h_s : StateKeeps κ s₀ s)
    (h : execDeadlock s = .next t) : StateKeeps κ s₀ t := by
  unfold execDeadlock at h
  injection h with h
  rw [← h]
  apply ifUnitRuns_keeps
  · intro z484 h485
    apply deadlockOp_keeps
    with_reducible assumption
  · with_reducible assumption

theorem execDlkRearm_keeps  {s t : State} (h_s : StateKeeps κ s₀ s)
    (h : execDlkRearm s = .next t) : StateKeeps κ s₀ t := by
  unfold execDlkRearm at h
  injection h with h
  rw [← h]
  apply ifUnitRuns_keeps
  · intro z0 h1
    apply onUnit_keeps
    · intro z2 h3
      exact h3
    · exact h1
  · with_reducible assumption

/-! ## Machine/Servo.lean -/

theorem execDomSwitch_keeps  {s t : State} (h_s : StateKeeps κ s₀ s)
    (h : execDomSwitch s = .next t) : StateKeeps κ s₀ t := by
  unfold execDomSwitch at h
  injection h with h
  rw [← h]
  apply ifUnitRuns_keeps
  · intro z290 h291
    apply commandSwitch_keeps
    with_reducible assumption
  · with_reducible assumption

theorem execRebase_keeps  {s t : State} (h_s : StateKeeps κ s₀ s)
    (h : execRebase s = .next t) : StateKeeps κ s₀ t := by
  unfold execRebase at h
  injection h with h
  rw [← h]
  apply ifUnitRuns_keeps
  · intro z292 h293
    apply rebaseOp_keeps
    with_reducible assumption
  · with_reducible assumption

theorem execRebaseStep_keeps  {s t : State} (h_s : StateKeeps κ s₀ s)
    (h : execRebaseStep s = .next t) : StateKeeps κ s₀ t := by
  unfold execRebaseStep at h
  injection h with h
  rw [← h]
  apply ifUnitRuns_keeps
  · intro z294 h295
    apply rebaseStepOp_keeps
    with_reducible assumption
  · with_reducible assumption

theorem execParentSwitch_keeps  {s t : State} (h_s : StateKeeps κ s₀ s)
    (h : execParentSwitch s = .next t) : StateKeeps κ s₀ t := by
  unfold execParentSwitch at h
  injection h with h
  rw [← h]
  apply ifDistRuns_keeps
  · intro z296 h297
    apply iteState_keeps
    · with_reducible assumption
    · apply commandSwitch_keeps
      with_reducible assumption
  · with_reducible assumption

theorem execSrvModeWrite_keeps {manual : Bool} {s t : State} (h_s : StateKeeps κ s₀ s)
    (h : execSrvModeWrite manual s = .next t) : StateKeeps κ s₀ t := by
  unfold execSrvModeWrite at h
  injection h with h
  rw [← h]
  apply ifUnit_keeps
  · intro z298 h299
    apply modeWriteOp_keeps
    with_reducible assumption
  · with_reducible assumption

theorem execHandover_keeps {part : Part} {s t : State} (h_s : StateKeeps κ s₀ s)
    (h : execHandover part s = .next t) : StateKeeps κ s₀ t := by
  unfold execHandover at h
  injection h with h
  rw [← h]
  apply ifPart_keeps
  · intro z300 h301
    split
    · apply unitFsm_keeps
      apply doHandover_keeps
      with_reducible assumption
    · apply doHandover_keeps
      with_reducible assumption
  · with_reducible assumption

theorem execHandoverTimeout_keeps {part : Part} {s t : State} (h_s : StateKeeps κ s₀ s)
    (h : execHandoverTimeout part s = .next t) : StateKeeps κ s₀ t := by
  unfold execHandoverTimeout at h
  injection h with h
  rw [← h]
  apply ifPart_keeps
  · intro z302 h303
    split
    · apply unitFsm_keeps
      apply handoverLate_keeps
      with_reducible assumption
    · apply handoverLate_keeps
      with_reducible assumption
  · with_reducible assumption

theorem execHoldoverAgeExpiry_keeps  {s t : State} (h_s : StateKeeps κ s₀ s)
    (h : execHoldoverAgeExpiry s = .next t) : StateKeeps κ s₀ t := by
  unfold execHoldoverAgeExpiry at h
  injection h with h
  rw [← h]
  apply ifUnitRuns_keeps
  · intro z304 h305
    apply holdAgeOp_keeps
    with_reducible assumption
  · with_reducible assumption

theorem execAcquireTimeout_keeps  {s t : State} (h_s : StateKeeps κ s₀ s)
    (h : execAcquireTimeout s = .next t) : StateKeeps κ s₀ t := by
  unfold execAcquireTimeout at h
  injection h with h
  rw [← h]
  apply ifUnitRuns_keeps
  · intro z308 h309
    apply acquireTimeoutOp_keeps
    with_reducible assumption
  · with_reducible assumption

/-! ## Machine/Calib.lean -/

theorem execCalPeriod_keeps  {s t : State} (h_s : StateKeeps κ s₀ s)
    (h : execCalPeriod s = .next t) : StateKeeps κ s₀ t := by
  unfold execCalPeriod at h
  injection h with h
  rw [← h]
  apply ifDistRuns_keeps
  · intro z310 h311
    apply calPeriodOp_keeps
    with_reducible assumption
  · with_reducible assumption

theorem execCalibrationRecord_keeps {rx : Rx} {k : RopeKey} {rhoUp : BitVec 32} {defUp : BitVec 16} {sigma : BitVec 8} {defValid : Bool} {rhoValid : Bool} {upPort : Bool} {s t : State} (h_s : StateKeeps κ s₀ s)
    (h : execCalibrationRecord rx k rhoUp defUp sigma defValid rhoValid upPort s = .next t) : StateKeeps κ s₀ t := by
  unfold execCalibrationRecord at h
  injection h with h
  rw [← h]
  extract_lets v529
  apply iteState_keeps
  · apply onDist_keeps
    · intro z530 h531
      apply dB_keeps
      · intro z532 h533
        apply wr_keeps
        with_reducible assumption
      · with_reducible assumption
    · apply onCal_keeps
      apply rxRope_keeps
      with_reducible assumption
  · apply rxRope_keeps
    with_reducible assumption

/-! ## Machine/Die.lean -/

theorem execSyncFrameSend_keeps  {s t : State} (h_s : StateKeeps κ s₀ s)
    (h : execSyncFrameSend s = .next t) : StateKeeps κ s₀ t := by
  unfold execSyncFrameSend at h
  injection h with h
  rw [← h]
  apply ifUnit_keeps
  · intro z328 h329
    apply onUnit_keeps
    · intro z330 h331
      apply syncSendOp_keeps
      with_reducible assumption
    · with_reducible assumption
  · with_reducible assumption

theorem execTapSyncFrameRx_keeps {region : BitVec 6} {ns : BitVec 64} {crc : BitVec 8} {s t : State} (h_s : StateKeeps κ s₀ s)
    (h : execTapSyncFrameRx region ns crc s = .next t) : StateKeeps κ s₀ t := by
  unfold execTapSyncFrameRx at h
  injection h with h
  rw [← h]
  apply ifUnit_keeps
  · intro z332 h333
    apply tapSyncOp_keeps
    with_reducible assumption
  · with_reducible assumption

theorem execTapDelayUpdate_keeps {region : BitVec 6} {loopUnits : BitVec 16} {s t : State} (h_s : StateKeeps κ s₀ s)
    (h : execTapDelayUpdate region loopUnits s = .next t) : StateKeeps κ s₀ t := by
  unfold execTapDelayUpdate at h
  injection h with h
  rw [← h]
  apply ifUnit_keeps
  · intro z334 h335
    apply tapDelayOp_keeps
    with_reducible assumption
  · with_reducible assumption

theorem execTapReturnLost_keeps {region : BitVec 6} {s t : State} (h_s : StateKeeps κ s₀ s)
    (h : execTapReturnLost region s = .next t) : StateKeeps κ s₀ t := by
  unfold execTapReturnLost at h
  injection h with h
  rw [← h]
  apply ifUnit_keeps
  · intro z336 h337
    apply tapLostOp_keeps
    with_reducible assumption
  · with_reducible assumption

theorem execTapResync_keeps {region : BitVec 6} {s t : State} (h_s : StateKeeps κ s₀ s)
    (h : execTapResync region s = .next t) : StateKeeps κ s₀ t := by
  unfold execTapResync at h
  injection h with h
  rw [← h]
  apply ifUnit_keeps
  · intro z338 h339
    apply onUnit_keeps
    · intro z340 h341
      apply tapResyncOp_keeps
      with_reducible assumption
    · with_reducible assumption
  · with_reducible assumption

theorem execTapEnWrite_keeps {region : BitVec 6} {en : Bool} {s t : State} (h_s : StateKeeps κ s₀ s)
    (h : execTapEnWrite region en s = .next t) : StateKeeps κ s₀ t := by
  unfold execTapEnWrite at h
  injection h with h
  rw [← h]
  apply ifUnit_keeps
  · intro z342 h343
    apply onUnit_keeps
    · intro z344 h345
      apply tapEnOp_keeps
      with_reducible assumption
    · with_reducible assumption
  · with_reducible assumption

theorem execTapReadReq_keeps {region : BitVec 6} {port : BitVec 4} {s t : State} (h_s : StateKeeps κ s₀ s)
    (h : execTapReadReq region port s = .next t) : StateKeeps κ s₀ t := by
  unfold execTapReadReq at h
  injection h with h
  rw [← h]
  apply ifUnit_keeps
  · intro z348 h349
    apply onUnit_keeps
    · intro z350 h351
      apply tapReadOp_keeps
      with_reducible assumption
    · with_reducible assumption
  · with_reducible assumption

theorem execCaptureEdge_keeps {kind : BitVec 2} {idx : BitVec 6} {fall : Bool} {frac : BitVec 6} {s t : State} (h_s : StateKeeps κ s₀ s)
    (h : execCaptureEdge kind idx fall frac s = .next t) : StateKeeps κ s₀ t := by
  unfold execCaptureEdge at h
  injection h with h
  rw [← h]
  apply ifUnit_keeps
  · intro z352 h353
    apply onUnit_keeps
    · intro z354 h355
      apply captureEdgeOp_keeps
      with_reducible assumption
    · with_reducible assumption
  · with_reducible assumption

theorem execCaptureRecordEnter_keeps  {s t : State} (h_s : StateKeeps κ s₀ s)
    (h : execCaptureRecordEnter s = .next t) : StateKeeps κ s₀ t := by
  unfold execCaptureRecordEnter at h
  injection h with h
  rw [← h]
  apply ifUnit_keeps
  · intro z356 h357
    apply capEnterOp_keeps
    with_reducible assumption
  · with_reducible assumption

theorem execCapRecRead_keeps {ch : BitVec 3} {s t : State} (h_s : StateKeeps κ s₀ s)
    (h : execCapRecRead ch s = .next t) : StateKeeps κ s₀ t := by
  unfold execCapRecRead at h
  injection h with h
  rw [← h]
  apply ifUnit_keeps
  · intro z358 h359
    extract_lets v360
    have h361 : UnitKeeps κ s₀ v360.2 := by
      apply capReadOp_keeps
      exact StateKeeps.unit (by assumption)
    clear_value v360
    apply answer_keeps
    refine state_of_keeps ?_ ?_ ?_ <;> dsimp only
    · exact StateKeeps.queue (by assumption)
    · with_reducible assumption
    · exact StateKeeps.dist (by assumption)
  · with_reducible assumption

theorem execDripArm_keeps {k : BitVec 3} {s t : State} (h_s : StateKeeps κ s₀ s)
    (h : execDripArm k s = .next t) : StateKeeps κ s₀ t := by
  unfold execDripArm at h
  injection h with h
  rw [← h]
  apply ifUnit_keeps
  · intro z362 h363
    apply dripRegArm_keeps
    with_reducible assumption
  · with_reducible assumption

theorem execDripStop_keeps {k : BitVec 3} {s t : State} (h_s : StateKeeps κ s₀ s)
    (h : execDripStop k s = .next t) : StateKeeps κ s₀ t := by
  unfold execDripStop at h
  injection h with h
  rw [← h]
  apply ifUnit_keeps
  · intro z364 h365
    apply onUnit_keeps
    · intro z366 h367
      apply dripStopOp_keeps
      with_reducible assumption
    · with_reducible assumption
  · with_reducible assumption

theorem execDripPulseStart_keeps {k : BitVec 3} {s t : State} (h_s : StateKeeps κ s₀ s)
    (h : execDripPulseStart k s = .next t) : StateKeeps κ s₀ t := by
  unfold execDripPulseStart at h
  injection h with h
  rw [← h]
  apply ifUnit_keeps
  · intro z368 h369
    apply dripPulseOp_keeps
    with_reducible assumption
  · with_reducible assumption

theorem execDripPulseEnd_keeps {k : BitVec 3} {s t : State} (h_s : StateKeeps κ s₀ s)
    (h : execDripPulseEnd k s = .next t) : StateKeeps κ s₀ t := by
  unfold execDripPulseEnd at h
  injection h with h
  rw [← h]
  apply ifUnit_keeps
  · intro z370 h371
    apply onUnit_keeps
    · intro z372 h373
      apply dripEndOp_keeps
      with_reducible assumption
    · with_reducible assumption
  · with_reducible assumption

/-! ## Machine/Launch.lean -/

theorem execRegionStopEdge_keeps {region : BitVec 6} {stopped : Bool} {s t : State} (h_s : StateKeeps κ s₀ s)
    (h : execRegionStopEdge region stopped s = .next t) : StateKeeps κ s₀ t := by
  unfold execRegionStopEdge at h
  injection h with h
  rw [← h]
  apply ifUnit_keeps
  · intro z346 h347
    apply regionEdgeOp_keeps
    with_reducible assumption
  · with_reducible assumption

theorem execLaunchOrigStart_keeps {msg : Option LchStart} {s t : State} (h_s : StateKeeps κ s₀ s)
    (h : execLaunchOrigStart msg s = .next t) : StateKeeps κ s₀ t := by
  unfold execLaunchOrigStart at h

  split at h
  · injection h with h
    rw [← h]
    apply ifUnit_keeps
    · intro z374 h375
      apply origStart_keeps
      with_reducible assumption
    · with_reducible assumption
  · injection h with h
    rw [← h]
    apply request_keeps
    · intro z376 h377
      apply lchStartMsg_keeps
      with_reducible assumption
    · with_reducible assumption

theorem execLaunchOrigCancel_keeps {msg : Option LchCancel} {s t : State} (h_s : StateKeeps κ s₀ s)
    (h : execLaunchOrigCancel msg s = .next t) : StateKeeps κ s₀ t := by
  unfold execLaunchOrigCancel at h

  split at h
  · injection h with h
    rw [← h]
    apply ifUnit_keeps
    · intro z378 h379
      apply cancelLaunch_keeps
      with_reducible assumption
    · with_reducible assumption
  · injection h with h
    rw [← h]
    apply request_keeps
    · intro z380 h381
      apply lchCancelMsg_keeps
      with_reducible assumption
    · with_reducible assumption

theorem execLaunchReqTimeout_keeps {gallery : BitVec 12} {lid : BitVec 16} {s t : State} (h_s : StateKeeps κ s₀ s)
    (h : execLaunchReqTimeout gallery lid s = .next t) : StateKeeps κ s₀ t := by
  unfold execLaunchReqTimeout at h
  injection h with h
  rw [← h]
  apply ifUnit_keeps
  · intro z382 h383
    apply reqTimeoutOp_keeps
    with_reducible assumption
  · with_reducible assumption

theorem execArmBroadcastUnit_keeps {rx : Rx} {a : Arm} {s t : State} (h_s : StateKeeps κ s₀ s)
    (h : execArmBroadcastUnit rx a s = .next t) : StateKeeps κ s₀ t := by
  unfold execArmBroadcastUnit at h
  dsimp only at h
  split at h
  · injection h with h
    rw [← h]
    apply iteState_keeps
    · apply armBroadcastOp_keeps
      apply rxArm_keeps
      with_reducible assumption
    · apply rxArm_keeps
      with_reducible assumption
  · injection h with h
    rw [← h]
    apply rxArm_keeps
    with_reducible assumption

theorem execGoRx_keeps {rx : Rx} {g : Go} {s t : State} (h_s : StateKeeps κ s₀ s)
    (h : execGoRx rx g s = .next t) : StateKeeps κ s₀ t := by
  unfold execGoRx at h
  dsimp only at h
  split at h
  · injection h with h
    rw [← h]
    apply iteState_keeps
    · apply goOp_keeps
      apply rxSeq_keeps
      with_reducible assumption
    · apply rxSeq_keeps
      with_reducible assumption
  · injection h with h
    rw [← h]
    apply rxSeq_keeps
    with_reducible assumption

theorem execAbortRxUnit_keeps {rx : Rx} {a : Abort} {s t : State} (h_s : StateKeeps κ s₀ s)
    (h : execAbortRxUnit rx a s = .next t) : StateKeeps κ s₀ t := by
  unfold execAbortRxUnit at h
  dsimp only at h
  split at h
  · injection h with h
    rw [← h]
    apply iteState_keeps
    · apply abortOp_keeps
      apply rxSeq_keeps
      with_reducible assumption
    · apply rxSeq_keeps
      with_reducible assumption
  · injection h with h
    rw [← h]
    apply rxSeq_keeps
    with_reducible assumption

theorem execLaunchGuardExpiry_keeps {gallery : BitVec 12} {lid : BitVec 16} {s t : State} (h_s : StateKeeps κ s₀ s)
    (h : execLaunchGuardExpiry gallery lid s = .next t) : StateKeeps κ s₀ t := by
  unfold execLaunchGuardExpiry at h
  injection h with h
  rw [← h]
  apply ifUnit_keeps
  · intro z407 h408
    apply guardOp_keeps
    with_reducible assumption
  · with_reducible assumption

theorem execLaunchFire_keeps  {s t : State} (h_s : StateKeeps κ s₀ s)
    (h : execLaunchFire s = .next t) : StateKeeps κ s₀ t := by
  unfold execLaunchFire at h
  injection h with h
  rw [← h]
  apply ifUnit_keeps
  · intro z409 h410
    apply launchFireOp_keeps
    with_reducible assumption
  · with_reducible assumption

theorem execLaunchLatenessJudge_keeps  {s t : State} (h_s : StateKeeps κ s₀ s)
    (h : execLaunchLatenessJudge s = .next t) : StateKeeps κ s₀ t := by
  unfold execLaunchLatenessJudge at h
  injection h with h
  rw [← h]
  apply ifUnit_keeps
  · intro z411 h412
    apply judgeOp_keeps
    with_reducible assumption
  · with_reducible assumption

theorem execLaunchDeadline_keeps  {s t : State} (h_s : StateKeeps κ s₀ s)
    (h : execLaunchDeadline s = .next t) : StateKeeps κ s₀ t := by
  unfold execLaunchDeadline at h
  injection h with h
  rw [← h]
  apply ifUnit_keeps
  · intro z413 h414
    apply deadlineOp_keeps
    with_reducible assumption
  · with_reducible assumption

theorem execLchRecRead_keeps {ch : BitVec 3} {s t : State} (h_s : StateKeeps κ s₀ s)
    (h : execLchRecRead ch s = .next t) : StateKeeps κ s₀ t := by
  unfold execLchRecRead at h
  injection h with h
  rw [← h]
  apply ifUnit_keeps
  · intro z415 h416
    extract_lets v417
    have h418 : UnitKeeps κ s₀ v417.2 := by
      apply recReadOp_keeps
      exact StateKeeps.unit (by assumption)
    clear_value v417
    apply answer_keeps
    refine state_of_keeps ?_ ?_ ?_ <;> dsimp only
    · exact StateKeeps.queue (by assumption)
    · with_reducible assumption
    · exact StateKeeps.dist (by assumption)
  · with_reducible assumption

theorem execLaunchTokenRefill_keeps  {s t : State} (h_s : StateKeeps κ s₀ s)
    (h : execLaunchTokenRefill s = .next t) : StateKeeps κ s₀ t := by
  unfold execLaunchTokenRefill at h
  injection h with h
  rw [← h]
  apply ifUnit_keeps
  · intro z419 h420
    apply onUnit_keeps
    · intro z421 h422
      apply tokenRefill_keeps
      with_reducible assumption
    · with_reducible assumption
  · with_reducible assumption

theorem execTtbInsertCmd_keeps {msg : Option TtbInsert} {s t : State} (h_s : StateKeeps κ s₀ s)
    (h : execTtbInsertCmd msg s = .next t) : StateKeeps κ s₀ t := by
  unfold execTtbInsertCmd at h

  split at h
  · injection h with h
    rw [← h]
    apply ifUnit_keeps
    · intro z427 h428
      apply insertOp_keeps
      with_reducible assumption
    · with_reducible assumption
  · injection h with h
    rw [← h]
    apply request_keeps
    · intro z429 h430
      apply ttbInsertMsg_keeps
      with_reducible assumption
    · with_reducible assumption

theorem execTtbCancelCmd_keeps  {s t : State} (h_s : StateKeeps κ s₀ s)
    (h : execTtbCancelCmd s = .next t) : StateKeeps κ s₀ t := by
  unfold execTtbCancelCmd at h
  injection h with h
  rw [← h]
  apply ifUnit_keeps
  · intro z431 h432
    apply onUnit_keeps
    · intro z433 h434
      apply ttbCancelOp_keeps
      with_reducible assumption
    · with_reducible assumption
  · with_reducible assumption

theorem execTtbLoadCmd_keeps  {s t : State} (h_s : StateKeeps κ s₀ s)
    (h : execTtbLoadCmd s = .next t) : StateKeeps κ s₀ t := by
  unfold execTtbLoadCmd at h
  injection h with h
  rw [← h]
  apply ifUnit_keeps
  · intro z435 h436
    apply onUnit_keeps
    · intro z437 h438
      apply ttbLoadOp_keeps
      with_reducible assumption
    · with_reducible assumption
  · with_reducible assumption

theorem execTtbStage_keeps  {s t : State} (h_s : StateKeeps κ s₀ s)
    (h : execTtbStage s = .next t) : StateKeeps κ s₀ t := by
  unfold execTtbStage at h
  injection h with h
  rw [← h]
  apply ifUnitRuns_keeps
  · intro z439 h440
    apply onUnit_keeps
    · intro z441 h442
      apply stageOp_keeps
      with_reducible assumption
    · with_reducible assumption
  · with_reducible assumption

theorem execTtbAct_keeps  {s t : State} (h_s : StateKeeps κ s₀ s)
    (h : execTtbAct s = .next t) : StateKeeps κ s₀ t := by
  unfold execTtbAct at h
  injection h with h
  rw [← h]
  apply ifUnitRuns_keeps
  · intro z443 h444
    apply ttbActOp_keeps
    with_reducible assumption
  · with_reducible assumption

/-! ## Machine/LaunchDist.lean -/

theorem execArmRequestRx_keeps {rx : Rx} {a : Arm} {s t : State} (h_s : StateKeeps κ s₀ s)
    (h : execArmRequestRx rx a s = .next t) : StateKeeps κ s₀ t := by
  unfold execArmRequestRx at h
  injection h with h
  rw [← h]
  apply onDistRx_keeps
  · apply rxArm_keeps
    with_reducible assumption
  · intro z384 z385 h386
    apply requestOp_keeps
    with_reducible assumption

theorem execArmBroadcastDist_keeps {rx : Rx} {a : Arm} {s t : State} (h_s : StateKeeps κ s₀ s)
    (h : execArmBroadcastDist rx a s = .next t) : StateKeeps κ s₀ t := by
  unfold execArmBroadcastDist at h
  injection h with h
  rw [← h]
  apply onDistRx_keeps
  · apply rxArm_keeps
    with_reducible assumption
  · intro z387 z388 h389
    apply iteState_keeps
    · apply distArmOp_keeps
      with_reducible assumption
    · with_reducible assumption

theorem execCensusRx_keeps {rx : Rx} {a : Arm} {refused : Bool} {s t : State} (h_s : StateKeeps κ s₀ s)
    (h : execCensusRx rx a refused s = .next t) : StateKeeps κ s₀ t := by
  unfold execCensusRx at h
  injection h with h
  rw [← h]
  apply onDistRx_keeps
  · apply rxArm_keeps
    with_reducible assumption
  · intro z390 z391 h392
    extract_lets v393
    have h394 : StateKeeps κ s₀ v393 := by
      apply iteState_keeps
      · apply ropeSend_keeps
        with_reducible assumption
      · with_reducible assumption
    clear_value v393
    apply iteState_keeps
    · with_reducible assumption
    · apply censusAdd_keeps
      with_reducible assumption

theorem execLaunchCutoffExpiry_keeps {gallery : BitVec 12} {lid : BitVec 16} {s t : State} (h_s : StateKeeps κ s₀ s)
    (h : execLaunchCutoffExpiry gallery lid s = .next t) : StateKeeps κ s₀ t := by
  unfold execLaunchCutoffExpiry at h
  injection h with h
  rw [← h]
  apply ifDistRuns_keeps
  · intro z395 h396
    apply cutoffOp_keeps
    with_reducible assumption
  · with_reducible assumption

theorem execGoRelay_keeps {rx : Rx} {g : Go} {s t : State} (h_s : StateKeeps κ s₀ s)
    (h : execGoRelay rx g s = .next t) : StateKeeps κ s₀ t := by
  unfold execGoRelay at h
  injection h with h
  rw [← h]
  apply onDistRx_keeps
  · apply rxSeq_keeps
    with_reducible assumption
  · intro z397 z398 h399
    apply iteState_keeps
    · apply downGo_keeps
      apply onDist_keeps
      · intro z400 h401
        apply lctxDrop_keeps
        with_reducible assumption
      · with_reducible assumption
    · with_reducible assumption

theorem execAbortRelay_keeps {rx : Rx} {a : Abort} {s t : State} (h_s : StateKeeps κ s₀ s)
    (h : execAbortRelay rx a s = .next t) : StateKeeps κ s₀ t := by
  unfold execAbortRelay at h
  injection h with h
  rw [← h]
  apply onDistRx_keeps
  · apply rxSeq_keeps
    with_reducible assumption
  · intro z402 z403 h404
    apply iteState_keeps
    · apply abortUpOp_keeps
      with_reducible assumption
    · apply iteState_keeps
      · apply downAbort_keeps
        apply onDist_keeps
        · intro z405 h406
          apply lctxDrop_keeps
          with_reducible assumption
        · with_reducible assumption
      · with_reducible assumption

theorem execReqTokenRefill_keeps {port : Fin 132} {s t : State} (h_s : StateKeeps κ s₀ s)
    (h : execReqTokenRefill port s = .next t) : StateKeeps κ s₀ t := by
  unfold execReqTokenRefill at h
  injection h with h
  rw [← h]
  apply ifDist_keeps
  · intro z423 h424
    apply onDist_keeps
    · intro z425 h426
      apply reqRefill_keeps
      with_reducible assumption
    · with_reducible assumption
  · with_reducible assumption

theorem execLaunchOpen_keeps {rx : Rx} {k : RopeKey} {target : BitVec 48} {mask : BitVec 64} {tol : BitVec 16} {uid : BitVec 20} {s t : State} (h_s : StateKeeps κ s₀ s)
    (h : execLaunchOpen rx k target mask tol uid s = .next t) : StateKeeps κ s₀ t := by
  unfold execLaunchOpen at h
  injection h with h
  rw [← h]
  apply iteState_keeps
  · apply openRecordOp_keeps
    apply rxRope_keeps
    with_reducible assumption
  · apply rxRope_keeps
    with_reducible assumption

theorem execLaunchDecision_keeps {rx : Rx} {k : RopeKey} {go : Bool} {reason : BitVec 8} {s t : State} (h_s : StateKeeps κ s₀ s)
    (h : execLaunchDecision rx k go reason s = .next t) : StateKeeps κ s₀ t := by
  unfold execLaunchDecision at h
  injection h with h
  rw [← h]
  apply iteState_keeps
  · apply decisionRecordOp_keeps
    apply rxRope_keeps
    with_reducible assumption
  · apply rxRope_keeps
    with_reducible assumption

theorem execLaunchCensus_keeps {rx : Rx} {k : RopeKey} {port : BitVec 8} {uid : BitVec 20} {refused : Bool} {s t : State} (h_s : StateKeeps κ s₀ s)
    (h : execLaunchCensus rx k port uid refused s = .next t) : StateKeeps κ s₀ t := by
  unfold execLaunchCensus at h
  injection h with h
  rw [← h]
  apply iteState_keeps
  · apply censusAdd_keeps
    apply rxRope_keeps
    with_reducible assumption
  · apply rxRope_keeps
    with_reducible assumption

theorem execLaunchReq_keeps {rx : Rx} {k : RopeKey} {target : BitVec 48} {mask : BitVec 64} {tol : BitVec 16} {uid : BitVec 20} {s t : State} (h_s : StateKeeps κ s₀ s)
    (h : execLaunchReq rx k target mask tol uid s = .next t) : StateKeeps κ s₀ t := by
  unfold execLaunchReq at h
  injection h with h
  rw [← h]
  apply iteState_keeps
  · apply decideRequest_keeps
    apply rxRope_keeps
    with_reducible assumption
  · apply rxRope_keeps
    with_reducible assumption

/-! ## Machine/Barrier.lean -/

theorem execFlwProd_keeps {req : Req} {pair : BitVec 16} {amount : BitVec 32} {s t : State} (h_s : StateKeeps κ s₀ s)
    (h : execFlwProd req pair amount s = .next t) : StateKeeps κ s₀ t := by
  unfold execFlwProd at h
  injection h with h
  rw [← h]
  apply request_keeps
  · intro z453 h454
    apply flowAdvance_keeps
    with_reducible assumption
  · with_reducible assumption

theorem execFlwCons_keeps {req : Req} {pair : BitVec 16} {amount : BitVec 32} {s t : State} (h_s : StateKeeps κ s₀ s)
    (h : execFlwCons req pair amount s = .next t) : StateKeeps κ s₀ t := by
  unfold execFlwCons at h
  injection h with h
  rw [← h]
  apply request_keeps
  · intro z455 h456
    apply flowAdvance_keeps
    with_reducible assumption
  · with_reducible assumption

theorem execFlwLoadView_keeps  {s t : State} (h_s : StateKeeps κ s₀ s)
    (h : execFlwLoadView s = .next t) : StateKeeps κ s₀ t := by
  unfold execFlwLoadView at h
  injection h with h
  rw [← h]
  apply ifUnitRuns_keeps
  · intro z457 h458
    apply onUnit_keeps
    · intro z459 h460
      apply flowView_keeps
      with_reducible assumption
    · with_reducible assumption
  · with_reducible assumption

theorem execFlwReset_keeps  {s t : State} (h_s : StateKeeps κ s₀ s)
    (h : execFlwReset s = .next t) : StateKeeps κ s₀ t := by
  unfold execFlwReset at h
  injection h with h
  rw [← h]
  apply ifUnitRuns_keeps
  · intro z461 h462
    apply onUnit_keeps
    · intro z463 h464
      apply flowClear_keeps
      with_reducible assumption
    · with_reducible assumption
  · with_reducible assumption

/-! ## Machine/Combine.lean -/

theorem execCmbData_keeps {req : Req} {buf : BitVec 8} {chunk : BitVec 3} {data : BitVec 64} {s t : State} (h_s : StateKeeps κ s₀ s)
    (h : execCmbData req buf chunk data s = .next t) : StateKeeps κ s₀ t := by
  unfold execCmbData at h
  injection h with h
  rw [← h]
  apply request_keeps
  · intro z486 h487
    apply onUnit_keeps
    · intro z488 h489
      apply cmbDataOp_keeps
      with_reducible assumption
    · with_reducible assumption
  · with_reducible assumption

theorem execCmbPost_keeps {req : Req} {buf : BitVec 8} {gallery : BitVec 12} {op : BitVec 8} {chunks : BitVec 4} {gseq : BitVec 16} {sigSem : BitVec 16} {sigEn : Bool} {notify : Bool} {s t : State} (h_s : StateKeeps κ s₀ s)
    (h : execCmbPost req buf gallery op chunks gseq sigSem sigEn notify s = .next t) : StateKeeps κ s₀ t := by
  unfold execCmbPost at h
  injection h with h
  rw [← h]
  apply request_keeps
  · intro z490 h491
    apply cmbPostOp_keeps
    with_reducible assumption
  · with_reducible assumption

theorem execCmbRead_keeps {req : Req} {buf : BitVec 8} {chunk : BitVec 3} {s t : State} (h_s : StateKeeps κ s₀ s)
    (h : execCmbRead req buf chunk s = .next t) : StateKeeps κ s₀ t := by
  unfold execCmbRead at h
  injection h with h
  rw [← h]
  apply request_keeps
  · intro z492 h493
    apply onUnit_keeps
    · intro z494 h495
      apply cmbReadOp_keeps
      with_reducible assumption
    · with_reducible assumption
  · with_reducible assumption

theorem execCmbDownRxUnit_keeps {rx : Rx} {k : CmbKey} {op : BitVec 8} {repro : Bool} {status : BitVec 4} {payload : List (BitVec 64)} {s t : State} (h_s : StateKeeps κ s₀ s)
    (h : execCmbDownRxUnit rx k op repro status payload s = .next t) : StateKeeps κ s₀ t := by
  unfold execCmbDownRxUnit at h
  dsimp only at h
  split at h
  · injection h with h
    rw [← h]
    apply iteState_keeps
    · apply unitDownOp_keeps
      apply rxCmbDown_keeps
      with_reducible assumption
    · apply rxCmbDown_keeps
      with_reducible assumption
  · injection h with h
    rw [← h]
    apply rxCmbDown_keeps
    with_reducible assumption

theorem execCommitRxUnit_keeps {rx : Rx} {k : CmbKey} {s t : State} (h_s : StateKeeps κ s₀ s)
    (h : execCommitRxUnit rx k s = .next t) : StateKeeps κ s₀ t := by
  unfold execCommitRxUnit at h
  dsimp only at h
  split at h
  · injection h with h
    rw [← h]
    apply iteState_keeps
    · apply unitCommitOp_keeps
      apply rxCommit_keeps
      with_reducible assumption
    · apply rxCommit_keeps
      with_reducible assumption
  · injection h with h
    rw [← h]
    apply rxCommit_keeps
    with_reducible assumption

theorem execHeldCommitRelease_keeps  {s t : State} (h_s : StateKeeps κ s₀ s)
    (h : execHeldCommitRelease s = .next t) : StateKeeps κ s₀ t := by
  unfold execHeldCommitRelease at h
  injection h with h
  rw [← h]
  apply ifUnitRuns_keeps
  · intro z519 h520
    apply settleAll_keeps
    with_reducible assumption
  · with_reducible assumption

theorem execCmbUnitDeadline_keeps {gallery : BitVec 12} {s t : State} (h_s : StateKeeps κ s₀ s)
    (h : execCmbUnitDeadline gallery s = .next t) : StateKeeps κ s₀ t := by
  unfold execCmbUnitDeadline at h
  injection h with h
  rw [← h]
  apply ifUnitRuns_keeps
  · intro z521 h522
    apply unitDeadlineOp_keeps
    with_reducible assumption
  · with_reducible assumption

theorem execCmbGalStateWrite_keeps {be : BitVec 4} {data : Word} {s t : State} (h_s : StateKeeps κ s₀ s)
    (h : execCmbGalStateWrite be data s = .next t) : StateKeeps κ s₀ t := by
  unfold execCmbGalStateWrite at h
  injection h with h
  rw [← h]
  apply ifUnitRuns_keeps
  · intro z523 h524
    apply galStateOp_keeps
    with_reducible assumption
  · with_reducible assumption

/-! ## Machine/CombineDist.lean -/

theorem execCmbUpRx_keeps {rx : Rx} {k : CmbKey} {op : BitVec 8} {repro : Bool} {payload : List (BitVec 64)} {s t : State} (h_s : StateKeeps κ s₀ s)
    (h : execCmbUpRx rx k op repro payload s = .next t) : StateKeeps κ s₀ t := by
  unfold execCmbUpRx at h
  injection h with h
  rw [← h]
  apply onDistRx_keeps
  · apply rxCmbUp_keeps
    with_reducible assumption
  · intro z496 z497 h498
    apply cmbUpOp_keeps
    with_reducible assumption

theorem execAccSetGrant_keeps  {s t : State} (h_s : StateKeeps κ s₀ s)
    (h : execAccSetGrant s = .next t) : StateKeeps κ s₀ t := by
  unfold execAccSetGrant at h
  injection h with h
  rw [← h]
  apply ifDistRuns_keeps
  · intro z499 h500
    apply accGrant_keeps
    with_reducible assumption
  · with_reducible assumption

theorem execSubstTimeout_keeps {port : BitVec 7} {s t : State} (h_s : StateKeeps κ s₀ s)
    (h : execSubstTimeout port s = .next t) : StateKeeps κ s₀ t := by
  unfold execSubstTimeout at h
  injection h with h
  rw [← h]
  apply ifDistRuns_keeps
  · intro z501 h502
    apply substTimeoutOp_keeps
    with_reducible assumption
  · with_reducible assumption

theorem execCmbDeadlineExpiry_keeps {gallery : BitVec 12} {gseq : BitVec 16} {s t : State} (h_s : StateKeeps κ s₀ s)
    (h : execCmbDeadlineExpiry gallery gseq s = .next t) : StateKeeps κ s₀ t := by
  unfold execCmbDeadlineExpiry at h
  injection h with h
  rw [← h]
  apply ifDistRuns_keeps
  · intro z503 h504
    apply ctxDeadlineOp_keeps
    with_reducible assumption
  · with_reducible assumption

theorem execCmbDownRxDist_keeps {rx : Rx} {k : CmbKey} {op : BitVec 8} {repro : Bool} {status : BitVec 4} {payload : List (BitVec 64)} {s t : State} (h_s : StateKeeps κ s₀ s)
    (h : execCmbDownRxDist rx k op repro status payload s = .next t) : StateKeeps κ s₀ t := by
  unfold execCmbDownRxDist at h
  injection h with h
  rw [← h]
  apply iteState_keeps
  · apply onDistRx_keeps
    · apply rxCmbDown_keeps
      with_reducible assumption
    · intro z505 z506 h507
      apply iteState_keeps
      · apply cmbDownOp_keeps
        with_reducible assumption
      · with_reducible assumption
  · apply onDistRx_keeps
    · dsimp only
      apply rxCmbDown_keeps
      with_reducible assumption
    · intro z508 z509 h510
      apply iteState_keeps
      · apply relayPart_keeps
        with_reducible assumption
      · with_reducible assumption

theorem execAckcmbRx_keeps {rx : Rx} {k : CmbKey} {good : Bool} {s t : State} (h_s : StateKeeps κ s₀ s)
    (h : execAckcmbRx rx k good s = .next t) : StateKeeps κ s₀ t := by
  unfold execAckcmbRx at h
  injection h with h
  rw [← h]
  apply onDistRx_keeps
  · apply rxSeq_keeps
    with_reducible assumption
  · intro z511 z512 h513
    apply iteState_keeps
    · with_reducible assumption
    · apply ackcmbOp_keeps
      with_reducible assumption

theorem execCmbAckTimeout_keeps {gallery : BitVec 12} {gseq : BitVec 16} {port : BitVec 7} {s t : State} (h_s : StateKeeps κ s₀ s)
    (h : execCmbAckTimeout gallery gseq port s = .next t) : StateKeeps κ s₀ t := by
  unfold execCmbAckTimeout at h
  injection h with h
  rw [← h]
  apply ifDistRuns_keeps
  · intro z514 h515
    apply ackTimeoutOp_keeps
    with_reducible assumption
  · with_reducible assumption

theorem execCommitRxDist_keeps {rx : Rx} {k : CmbKey} {s t : State} (h_s : StateKeeps κ s₀ s)
    (h : execCommitRxDist rx k s = .next t) : StateKeeps κ s₀ t := by
  unfold execCommitRxDist at h
  injection h with h
  rw [← h]
  apply onDistRx_keeps
  · apply rxCommit_keeps
    with_reducible assumption
  · intro z516 z517 h518
    apply iteState_keeps
    · apply distCommitOp_keeps
      with_reducible assumption
    · with_reducible assumption

theorem execSubstHdr_keeps {rx : Rx} {k : RopeKey} {port : BitVec 8} {op : BitVec 8} {repro : Bool} {absent : Bool} {dlen : BitVec 7} {all : Bool} {s t : State} (h_s : StateKeeps κ s₀ s)
    (h : execSubstHdr rx k port op repro absent dlen all s = .next t) : StateKeeps κ s₀ t := by
  unfold execSubstHdr at h
  injection h with h
  rw [← h]
  apply iteState_keeps
  · apply substHdrOp_keeps
    apply rxRope_keeps
    with_reducible assumption
  · apply rxRope_keeps
    with_reducible assumption

theorem execSubstData_keeps {rx : Rx} {k : RopeKey} {payload : List (BitVec 64)} {s t : State} (h_s : StateKeeps κ s₀ s)
    (h : execSubstData rx k payload s = .next t) : StateKeeps κ s₀ t := by
  unfold execSubstData at h
  injection h with h
  rw [← h]
  apply iteState_keeps
  · apply substDataOp_keeps
    apply rxRope_keeps
    with_reducible assumption
  · apply rxRope_keeps
    with_reducible assumption

theorem execSubstReq_keeps {rx : Rx} {k : RopeKey} {port : BitVec 8} {on : Bool} {s t : State} (h_s : StateKeeps κ s₀ s)
    (h : execSubstReq rx k port on s = .next t) : StateKeeps κ s₀ t := by
  unfold execSubstReq at h
  injection h with h
  rw [← h]
  apply iteState_keeps
  · apply substReqOp_keeps
    apply rxRope_keeps
    with_reducible assumption
  · apply rxRope_keeps
    with_reducible assumption

theorem execResultRecord_keeps {rx : Rx} {k : RopeKey} {op : BitVec 6} {status : BitVec 2} {repro : Bool} {payload : List (BitVec 64)} {s t : State} (h_s : StateKeeps κ s₀ s)
    (h : execResultRecord rx k op status repro payload s = .next t) : StateKeeps κ s₀ t := by
  unfold execResultRecord at h
  injection h with h
  rw [← h]
  apply iteState_keeps
  · apply resultRecOp_keeps
    apply rxRope_keeps
    with_reducible assumption
  · apply onDistRx_keeps
    · dsimp only
      apply rxRope_keeps
      with_reducible assumption
    · intro z525 z526 h527
      extract_lets v528
      apply iteState_keeps
      · apply relayPart_keeps
        with_reducible assumption
      · with_reducible assumption

theorem execSyncRecord_keeps {rx : Rx} {k : RopeKey} {epoch : BitVec 16} {valid : Bool} {s t : State} (h_s : StateKeeps κ s₀ s)
    (h : execSyncRecord rx k epoch valid s = .next t) : StateKeeps κ s₀ t := by
  unfold execSyncRecord at h
  injection h with h
  rw [← h]
  apply iteState_keeps
  · apply syncOp_keeps
    apply rxRope_keeps
    with_reducible assumption
  · apply rxRope_keeps
    with_reducible assumption

/-! ## Machine/Ptp.lean -/

theorem execHtSecondMark_keeps {count0 : Word} {count1 : Word} {count2 : Word} {count3 : Word} {s t : State} (h_s : StateKeeps κ s₀ s)
    (h : execHtSecondMark count0 count1 count2 count3 s = .next t) : StateKeeps κ s₀ t := by
  unfold execHtSecondMark at h
  injection h with h
  rw [← h]
  apply ifDistCounts_keeps
  · intro z565 h566
    apply secondOp_keeps
    with_reducible assumption
  · with_reducible assumption

theorem execPtpAnnounceRx_keeps {h : PtpHdr} {ann : PtpAnn} {s t : State} (h_s : StateKeeps κ s₀ s)
    (h : execPtpAnnounceRx h ann s = .next t) : StateKeeps κ s₀ t := by
  unfold execPtpAnnounceRx at h
  injection h with h
  rw [← h]
  apply ifPtp_keeps
  · intro z567 h568
    apply announceOp_keeps
    with_reducible assumption
  · with_reducible assumption

theorem execPtpSyncRx_keeps {h : PtpHdr} {twoStep : Bool} {origin : PtpTime} {s t : State} (h_s : StateKeeps κ s₀ s)
    (h : execPtpSyncRx h twoStep origin s = .next t) : StateKeeps κ s₀ t := by
  unfold execPtpSyncRx at h
  injection h with h
  rw [← h]
  apply ifPtp_keeps
  · intro z569 h570
    apply ptpSyncOp_keeps
    with_reducible assumption
  · with_reducible assumption

theorem execPtpFollowUpRx_keeps {h : PtpHdr} {origin : PtpTime} {s t : State} (h_s : StateKeeps κ s₀ s)
    (h : execPtpFollowUpRx h origin s = .next t) : StateKeeps κ s₀ t := by
  unfold execPtpFollowUpRx at h
  injection h with h
  rw [← h]
  apply ifPtp_keeps
  · intro z571 h572
    apply followUpOp_keeps
    with_reducible assumption
  · with_reducible assumption

theorem execPtpDelayReqTimer_keeps  {s t : State} (h_s : StateKeeps κ s₀ s)
    (h : execPtpDelayReqTimer s = .next t) : StateKeeps κ s₀ t := by
  unfold execPtpDelayReqTimer at h
  injection h with h
  rw [← h]
  apply ifPtp_keeps
  · intro z573 h574
    apply delayReqOp_keeps
    with_reducible assumption
  · with_reducible assumption

theorem execPtpDelayRespRx_keeps {h : PtpHdr} {rxTime : PtpTime} {mine : Bool} {s t : State} (h_s : StateKeeps κ s₀ s)
    (h : execPtpDelayRespRx h rxTime mine s = .next t) : StateKeeps κ s₀ t := by
  unfold execPtpDelayRespRx at h
  injection h with h
  rw [← h]
  apply ifPtp_keeps
  · intro z575 h576
    apply delayRespOp_keeps
    with_reducible assumption
  · with_reducible assumption

theorem execPtpActivityTimeout_keeps  {s t : State} (h_s : StateKeeps κ s₀ s)
    (h : execPtpActivityTimeout s = .next t) : StateKeeps κ s₀ t := by
  unfold execPtpActivityTimeout at h
  injection h with h
  rw [← h]
  apply ifPtp_keeps
  · intro z577 h578
    apply activityOp_keeps
    with_reducible assumption
  · with_reducible assumption

theorem execArpRequestRx_keeps {target : BitVec 32} {s t : State} (h_s : StateKeeps κ s₀ s)
    (h : execArpRequestRx target s = .next t) : StateKeeps κ s₀ t := by
  unfold execArpRequestRx at h
  injection h with h
  rw [← h]
  apply ifRoot_keeps
  · intro z597 h598
    apply iteState_keeps
    · apply onDist_keeps
      · intro z599 h600
        apply dB_keeps
        · intro z601 h602
          apply emit_keeps
          with_reducible assumption
        · with_reducible assumption
      · with_reducible assumption
    · with_reducible assumption
  · with_reducible assumption

theorem execPtpDiscardedFrame_keeps  {s t : State} (h_s : StateKeeps κ s₀ s)
    (h : execPtpDiscardedFrame s = .next t) : StateKeeps κ s₀ t := by
  unfold execPtpDiscardedFrame at h
  injection h with h
  rw [← h]
  apply ifPtp_keeps
  · intro z603 h604
    apply ptpDiscard_keeps
    with_reducible assumption
  · with_reducible assumption

end Sys2Proof.Machine
end

