-- ==== Sys2Proof/Laws/KeepsState.lean ====
section
/-! SUPPORT. What the operations of Machine/State.lean keep. -/

namespace Sys2Proof.Machine

variable {κ : Bool} {s₀ : State} {b₀ : Base}

theorem Base_rooted_keeps {b : Base} (h_b : Keeps false b₀ b) :
    Keeps false b₀ (Base.rooted b) := by
  unfold Base.rooted
  with_reducible apply base_set_keeps
  with_reducible assumption

end Sys2Proof.Machine
end

