-- ==== Sys2Proof/Laws/Objects.lean ====
section
/-! SUPPORT. An object after it is put back: it is what was put, every other is as it was, and so is every other field of its
part. -/

namespace Sys2Proof.Machine

section
variable {u : UnitState} {n j : Nat} {t : Tap}
@[simp] theorem tapGet_tapPut_same : tapGet (tapPut n t u) n = t := tabGet_tabSet_same _ _ _ _
theorem tapGet_tapPut_other (h : j ≠ n) : tapGet (tapPut n t u) j = tapGet u j := tabGet_tabSet_other _ _ _ _ _ _ h
@[simp] theorem tapPut_base : (tapPut n t u).base = u.base := rfl
@[simp] theorem tapPut_portA : (tapPut n t u).portA = u.portA := rfl
@[simp] theorem tapPut_portB : (tapPut n t u).portB = u.portB := rfl
@[simp] theorem tapPut_dbg : (tapPut n t u).dbg = u.dbg := rfl
@[simp] theorem tapPut_sems : (tapPut n t u).sems = u.sems := rfl
@[simp] theorem tapPut_servo : (tapPut n t u).servo = u.servo := rfl
@[simp] theorem tapPut_tckAt : (tapPut n t u).tckAt = u.tckAt := rfl
@[simp] theorem tapPut_unlockLogged : (tapPut n t u).unlockLogged = u.unlockLogged := rfl
@[simp] theorem tapPut_tapPorts : (tapPut n t u).tapPorts = u.tapPorts := rfl
@[simp] theorem tapPut_cap : (tapPut n t u).cap = u.cap := rfl
@[simp] theorem tapPut_drips : (tapPut n t u).drips = u.drips := rfl
@[simp] theorem tapPut_launch : (tapPut n t u).launch = u.launch := rfl
@[simp] theorem tapPut_bars : (tapPut n t u).bars = u.bars := rfl
@[simp] theorem tapPut_flows : (tapPut n t u).flows = u.flows := rfl
@[simp] theorem tapPut_fnc : (tapPut n t u).fnc = u.fnc := rfl
@[simp] theorem tapPut_dlk : (tapPut n t u).dlk = u.dlk := rfl
@[simp] theorem tapPut_cmb : (tapPut n t u).cmb = u.cmb := rfl
end

section
variable {u : UnitState} {k j : Nat} {d : Drip}
@[simp] theorem dripGet_dripPut_same : dripGet (dripPut k d u) k = d := tabGet_tabSet_same _ _ _ _
theorem dripGet_dripPut_other (h : j ≠ k) : dripGet (dripPut k d u) j = dripGet u j := tabGet_tabSet_other _ _ _ _ _ _ h
@[simp] theorem dripPut_base : (dripPut k d u).base = u.base := rfl
@[simp] theorem dripPut_portA : (dripPut k d u).portA = u.portA := rfl
@[simp] theorem dripPut_portB : (dripPut k d u).portB = u.portB := rfl
@[simp] theorem dripPut_dbg : (dripPut k d u).dbg = u.dbg := rfl
@[simp] theorem dripPut_sems : (dripPut k d u).sems = u.sems := rfl
@[simp] theorem dripPut_servo : (dripPut k d u).servo = u.servo := rfl
@[simp] theorem dripPut_tckAt : (dripPut k d u).tckAt = u.tckAt := rfl
@[simp] theorem dripPut_unlockLogged : (dripPut k d u).unlockLogged = u.unlockLogged := rfl
@[simp] theorem dripPut_taps : (dripPut k d u).taps = u.taps := rfl
@[simp] theorem dripPut_tapPorts : (dripPut k d u).tapPorts = u.tapPorts := rfl
@[simp] theorem dripPut_cap : (dripPut k d u).cap = u.cap := rfl
@[simp] theorem dripPut_launch : (dripPut k d u).launch = u.launch := rfl
@[simp] theorem dripPut_bars : (dripPut k d u).bars = u.bars := rfl
@[simp] theorem dripPut_flows : (dripPut k d u).flows = u.flows := rfl
@[simp] theorem dripPut_fnc : (dripPut k d u).fnc = u.fnc := rfl
@[simp] theorem dripPut_dlk : (dripPut k d u).dlk = u.dlk := rfl
@[simp] theorem dripPut_cmb : (dripPut k d u).cmb = u.cmb := rfl
end

section
variable {u : UnitState} {i j : Nat} {x : Option Slot}
@[simp] theorem slotGet_slotPut_same : slotGet (slotPut i x u) i = x := tabGet_tabSet_same _ _ _ _
theorem slotGet_slotPut_other (h : j ≠ i) : slotGet (slotPut i x u) j = slotGet u j := tabGet_tabSet_other _ _ _ _ _ _ h
@[simp] theorem slotPut_base : (slotPut i x u).base = u.base := rfl
@[simp] theorem slotPut_portA : (slotPut i x u).portA = u.portA := rfl
@[simp] theorem slotPut_portB : (slotPut i x u).portB = u.portB := rfl
@[simp] theorem slotPut_dbg : (slotPut i x u).dbg = u.dbg := rfl
@[simp] theorem slotPut_sems : (slotPut i x u).sems = u.sems := rfl
@[simp] theorem slotPut_servo : (slotPut i x u).servo = u.servo := rfl
@[simp] theorem slotPut_tckAt : (slotPut i x u).tckAt = u.tckAt := rfl
@[simp] theorem slotPut_unlockLogged : (slotPut i x u).unlockLogged = u.unlockLogged := rfl
@[simp] theorem slotPut_taps : (slotPut i x u).taps = u.taps := rfl
@[simp] theorem slotPut_tapPorts : (slotPut i x u).tapPorts = u.tapPorts := rfl
@[simp] theorem slotPut_cap : (slotPut i x u).cap = u.cap := rfl
@[simp] theorem slotPut_drips : (slotPut i x u).drips = u.drips := rfl
@[simp] theorem slotPut_bars : (slotPut i x u).bars = u.bars := rfl
@[simp] theorem slotPut_flows : (slotPut i x u).flows = u.flows := rfl
@[simp] theorem slotPut_fnc : (slotPut i x u).fnc = u.fnc := rfl
@[simp] theorem slotPut_dlk : (slotPut i x u).dlk = u.dlk := rfl
@[simp] theorem slotPut_cmb : (slotPut i x u).cmb = u.cmb := rfl
end

section
variable {u : UnitState} {b j : Nat} {x : Barrier}
@[simp] theorem barGet_barPut_same : barGet (barPut b x u) b = x := tabGet_tabSet_same _ _ _ _
theorem barGet_barPut_other (h : j ≠ b) : barGet (barPut b x u) j = barGet u j := tabGet_tabSet_other _ _ _ _ _ _ h
@[simp] theorem barPut_base : (barPut b x u).base = u.base := rfl
@[simp] theorem barPut_portA : (barPut b x u).portA = u.portA := rfl
@[simp] theorem barPut_portB : (barPut b x u).portB = u.portB := rfl
@[simp] theorem barPut_dbg : (barPut b x u).dbg = u.dbg := rfl
@[simp] theorem barPut_sems : (barPut b x u).sems = u.sems := rfl
@[simp] theorem barPut_servo : (barPut b x u).servo = u.servo := rfl
@[simp] theorem barPut_tckAt : (barPut b x u).tckAt = u.tckAt := rfl
@[simp] theorem barPut_unlockLogged : (barPut b x u).unlockLogged = u.unlockLogged := rfl
@[simp] theorem barPut_taps : (barPut b x u).taps = u.taps := rfl
@[simp] theorem barPut_tapPorts : (barPut b x u).tapPorts = u.tapPorts := rfl
@[simp] theorem barPut_cap : (barPut b x u).cap = u.cap := rfl
@[simp] theorem barPut_drips : (barPut b x u).drips = u.drips := rfl
@[simp] theorem barPut_launch : (barPut b x u).launch = u.launch := rfl
@[simp] theorem barPut_flows : (barPut b x u).flows = u.flows := rfl
@[simp] theorem barPut_fnc : (barPut b x u).fnc = u.fnc := rfl
@[simp] theorem barPut_dlk : (barPut b x u).dlk = u.dlk := rfl
@[simp] theorem barPut_cmb : (barPut b x u).cmb = u.cmb := rfl
end

section
variable {u : UnitState} {n j : Nat} {x : FlowPair}
@[simp] theorem flowGet_flowPut_same : flowGet (flowPut n x u) n = x := tabGet_tabSet_same _ _ _ _
theorem flowGet_flowPut_other (h : j ≠ n) : flowGet (flowPut n x u) j = flowGet u j := tabGet_tabSet_other _ _ _ _ _ _ h
@[simp] theorem flowPut_base : (flowPut n x u).base = u.base := rfl
@[simp] theorem flowPut_portA : (flowPut n x u).portA = u.portA := rfl
@[simp] theorem flowPut_portB : (flowPut n x u).portB = u.portB := rfl
@[simp] theorem flowPut_dbg : (flowPut n x u).dbg = u.dbg := rfl
@[simp] theorem flowPut_sems : (flowPut n x u).sems = u.sems := rfl
@[simp] theorem flowPut_servo : (flowPut n x u).servo = u.servo := rfl
@[simp] theorem flowPut_tckAt : (flowPut n x u).tckAt = u.tckAt := rfl
@[simp] theorem flowPut_unlockLogged : (flowPut n x u).unlockLogged = u.unlockLogged := rfl
@[simp] theorem flowPut_taps : (flowPut n x u).taps = u.taps := rfl
@[simp] theorem flowPut_tapPorts : (flowPut n x u).tapPorts = u.tapPorts := rfl
@[simp] theorem flowPut_cap : (flowPut n x u).cap = u.cap := rfl
@[simp] theorem flowPut_drips : (flowPut n x u).drips = u.drips := rfl
@[simp] theorem flowPut_launch : (flowPut n x u).launch = u.launch := rfl
@[simp] theorem flowPut_bars : (flowPut n x u).bars = u.bars := rfl
@[simp] theorem flowPut_fnc : (flowPut n x u).fnc = u.fnc := rfl
@[simp] theorem flowPut_dlk : (flowPut n x u).dlk = u.dlk := rfl
@[simp] theorem flowPut_cmb : (flowPut n x u).cmb = u.cmb := rfl
end

section
variable {u : UnitState} {b j : Nat} {x : CmbBuf}
@[simp] theorem bufGet_bufPut_same : bufGet (bufPut b x u) b = x := tabGet_tabSet_same _ _ _ _
theorem bufGet_bufPut_other (h : j ≠ b) : bufGet (bufPut b x u) j = bufGet u j := tabGet_tabSet_other _ _ _ _ _ _ h
@[simp] theorem bufPut_base : (bufPut b x u).base = u.base := rfl
@[simp] theorem bufPut_portA : (bufPut b x u).portA = u.portA := rfl
@[simp] theorem bufPut_portB : (bufPut b x u).portB = u.portB := rfl
@[simp] theorem bufPut_dbg : (bufPut b x u).dbg = u.dbg := rfl
@[simp] theorem bufPut_sems : (bufPut b x u).sems = u.sems := rfl
@[simp] theorem bufPut_servo : (bufPut b x u).servo = u.servo := rfl
@[simp] theorem bufPut_tckAt : (bufPut b x u).tckAt = u.tckAt := rfl
@[simp] theorem bufPut_unlockLogged : (bufPut b x u).unlockLogged = u.unlockLogged := rfl
@[simp] theorem bufPut_taps : (bufPut b x u).taps = u.taps := rfl
@[simp] theorem bufPut_tapPorts : (bufPut b x u).tapPorts = u.tapPorts := rfl
@[simp] theorem bufPut_cap : (bufPut b x u).cap = u.cap := rfl
@[simp] theorem bufPut_drips : (bufPut b x u).drips = u.drips := rfl
@[simp] theorem bufPut_launch : (bufPut b x u).launch = u.launch := rfl
@[simp] theorem bufPut_bars : (bufPut b x u).bars = u.bars := rfl
@[simp] theorem bufPut_flows : (bufPut b x u).flows = u.flows := rfl
@[simp] theorem bufPut_fnc : (bufPut b x u).fnc = u.fnc := rfl
@[simp] theorem bufPut_dlk : (bufPut b x u).dlk = u.dlk := rfl
end

section
variable {u : UnitState} {f : Sems → Sems}
@[simp] theorem onSems_sems : (onSems f u).sems = f u.sems := rfl
@[simp] theorem onSems_base : (onSems f u).base = u.base := rfl
@[simp] theorem onSems_portA : (onSems f u).portA = u.portA := rfl
@[simp] theorem onSems_portB : (onSems f u).portB = u.portB := rfl
@[simp] theorem onSems_dbg : (onSems f u).dbg = u.dbg := rfl
@[simp] theorem onSems_servo : (onSems f u).servo = u.servo := rfl
@[simp] theorem onSems_tckAt : (onSems f u).tckAt = u.tckAt := rfl
@[simp] theorem onSems_unlockLogged : (onSems f u).unlockLogged = u.unlockLogged := rfl
@[simp] theorem onSems_taps : (onSems f u).taps = u.taps := rfl
@[simp] theorem onSems_tapPorts : (onSems f u).tapPorts = u.tapPorts := rfl
@[simp] theorem onSems_cap : (onSems f u).cap = u.cap := rfl
@[simp] theorem onSems_drips : (onSems f u).drips = u.drips := rfl
@[simp] theorem onSems_launch : (onSems f u).launch = u.launch := rfl
@[simp] theorem onSems_bars : (onSems f u).bars = u.bars := rfl
@[simp] theorem onSems_flows : (onSems f u).flows = u.flows := rfl
@[simp] theorem onSems_fnc : (onSems f u).fnc = u.fnc := rfl
@[simp] theorem onSems_dlk : (onSems f u).dlk = u.dlk := rfl
@[simp] theorem onSems_cmb : (onSems f u).cmb = u.cmb := rfl
end

section
variable {u : UnitState} {f : Launch → Launch}
@[simp] theorem onLaunch_launch : (onLaunch f u).launch = f u.launch := rfl
@[simp] theorem onLaunch_base : (onLaunch f u).base = u.base := rfl
@[simp] theorem onLaunch_portA : (onLaunch f u).portA = u.portA := rfl
@[simp] theorem onLaunch_portB : (onLaunch f u).portB = u.portB := rfl
@[simp] theorem onLaunch_dbg : (onLaunch f u).dbg = u.dbg := rfl
@[simp] theorem onLaunch_sems : (onLaunch f u).sems = u.sems := rfl
@[simp] theorem onLaunch_servo : (onLaunch f u).servo = u.servo := rfl
@[simp] theorem onLaunch_tckAt : (onLaunch f u).tckAt = u.tckAt := rfl
@[simp] theorem onLaunch_unlockLogged : (onLaunch f u).unlockLogged = u.unlockLogged := rfl
@[simp] theorem onLaunch_taps : (onLaunch f u).taps = u.taps := rfl
@[simp] theorem onLaunch_tapPorts : (onLaunch f u).tapPorts = u.tapPorts := rfl
@[simp] theorem onLaunch_cap : (onLaunch f u).cap = u.cap := rfl
@[simp] theorem onLaunch_drips : (onLaunch f u).drips = u.drips := rfl
@[simp] theorem onLaunch_bars : (onLaunch f u).bars = u.bars := rfl
@[simp] theorem onLaunch_flows : (onLaunch f u).flows = u.flows := rfl
@[simp] theorem onLaunch_fnc : (onLaunch f u).fnc = u.fnc := rfl
@[simp] theorem onLaunch_dlk : (onLaunch f u).dlk = u.dlk := rfl
@[simp] theorem onLaunch_cmb : (onLaunch f u).cmb = u.cmb := rfl
end

section
variable {u : UnitState} {f : Fence → Fence}
@[simp] theorem onFnc_fnc : (onFnc f u).fnc = f u.fnc := rfl
@[simp] theorem onFnc_base : (onFnc f u).base = u.base := rfl
@[simp] theorem onFnc_portA : (onFnc f u).portA = u.portA := rfl
@[simp] theorem onFnc_portB : (onFnc f u).portB = u.portB := rfl
@[simp] theorem onFnc_dbg : (onFnc f u).dbg = u.dbg := rfl
@[simp] theorem onFnc_sems : (onFnc f u).sems = u.sems := rfl
@[simp] theorem onFnc_servo : (onFnc f u).servo = u.servo := rfl
@[simp] theorem onFnc_tckAt : (onFnc f u).tckAt = u.tckAt := rfl
@[simp] theorem onFnc_unlockLogged : (onFnc f u).unlockLogged = u.unlockLogged := rfl
@[simp] theorem onFnc_taps : (onFnc f u).taps = u.taps := rfl
@[simp] theorem onFnc_tapPorts : (onFnc f u).tapPorts = u.tapPorts := rfl
@[simp] theorem onFnc_cap : (onFnc f u).cap = u.cap := rfl
@[simp] theorem onFnc_drips : (onFnc f u).drips = u.drips := rfl
@[simp] theorem onFnc_launch : (onFnc f u).launch = u.launch := rfl
@[simp] theorem onFnc_bars : (onFnc f u).bars = u.bars := rfl
@[simp] theorem onFnc_flows : (onFnc f u).flows = u.flows := rfl
@[simp] theorem onFnc_dlk : (onFnc f u).dlk = u.dlk := rfl
@[simp] theorem onFnc_cmb : (onFnc f u).cmb = u.cmb := rfl
end

section
variable {u : UnitState} {f : Client → Client}
@[simp] theorem onClient_cmb : (onClient f u).cmb = f u.cmb := rfl
@[simp] theorem onClient_base : (onClient f u).base = u.base := rfl
@[simp] theorem onClient_portA : (onClient f u).portA = u.portA := rfl
@[simp] theorem onClient_portB : (onClient f u).portB = u.portB := rfl
@[simp] theorem onClient_dbg : (onClient f u).dbg = u.dbg := rfl
@[simp] theorem onClient_sems : (onClient f u).sems = u.sems := rfl
@[simp] theorem onClient_servo : (onClient f u).servo = u.servo := rfl
@[simp] theorem onClient_tckAt : (onClient f u).tckAt = u.tckAt := rfl
@[simp] theorem onClient_unlockLogged : (onClient f u).unlockLogged = u.unlockLogged := rfl
@[simp] theorem onClient_taps : (onClient f u).taps = u.taps := rfl
@[simp] theorem onClient_tapPorts : (onClient f u).tapPorts = u.tapPorts := rfl
@[simp] theorem onClient_cap : (onClient f u).cap = u.cap := rfl
@[simp] theorem onClient_drips : (onClient f u).drips = u.drips := rfl
@[simp] theorem onClient_launch : (onClient f u).launch = u.launch := rfl
@[simp] theorem onClient_bars : (onClient f u).bars = u.bars := rfl
@[simp] theorem onClient_flows : (onClient f u).flows = u.flows := rfl
@[simp] theorem onClient_fnc : (onClient f u).fnc = u.fnc := rfl
@[simp] theorem onClient_dlk : (onClient f u).dlk = u.dlk := rfl
end

section
variable {d : DistState} {f : DistAdm → DistAdm}
@[simp] theorem onAdm_adm : (onAdm f d).adm = f d.adm := rfl
@[simp] theorem onAdm_base : (onAdm f d).base = d.base := rfl
@[simp] theorem onAdm_ports : (onAdm f d).ports = d.ports := rfl
@[simp] theorem onAdm_servo : (onAdm f d).servo = d.servo := rfl
@[simp] theorem onAdm_cal : (onAdm f d).cal = d.cal := rfl
@[simp] theorem onAdm_rope : (onAdm f d).rope = d.rope := rfl
@[simp] theorem onAdm_cmb : (onAdm f d).cmb = d.cmb := rfl
@[simp] theorem onAdm_root : (onAdm f d).root = d.root := rfl
@[simp] theorem onAdm_ptp : (onAdm f d).ptp = d.ptp := rfl
@[simp] theorem onAdm_trig : (onAdm f d).trig = d.trig := rfl
end

section
variable {d : DistState} {f : DistCmb → DistCmb}
@[simp] theorem onCmb_cmb : (onCmb f d).cmb = f d.cmb := rfl
@[simp] theorem onCmb_base : (onCmb f d).base = d.base := rfl
@[simp] theorem onCmb_ports : (onCmb f d).ports = d.ports := rfl
@[simp] theorem onCmb_servo : (onCmb f d).servo = d.servo := rfl
@[simp] theorem onCmb_cal : (onCmb f d).cal = d.cal := rfl
@[simp] theorem onCmb_rope : (onCmb f d).rope = d.rope := rfl
@[simp] theorem onCmb_root : (onCmb f d).root = d.root := rfl
@[simp] theorem onCmb_ptp : (onCmb f d).ptp = d.ptp := rfl
@[simp] theorem onCmb_adm : (onCmb f d).adm = d.adm := rfl
@[simp] theorem onCmb_trig : (onCmb f d).trig = d.trig := rfl
end

section
variable {s : State} {f : Root → Root}
@[simp] theorem onRoot_pending : (onRoot f s).pending = s.pending := rfl
@[simp] theorem onRoot_unit : (onRoot f s).unit = s.unit := rfl
@[simp] theorem onRoot_dist_root : (onRoot f s).dist.root = f s.dist.root := rfl
@[simp] theorem onRoot_dist_base : (onRoot f s).dist.base = s.dist.base := rfl
@[simp] theorem onRoot_dist_ports : (onRoot f s).dist.ports = s.dist.ports := rfl
@[simp] theorem onRoot_dist_servo : (onRoot f s).dist.servo = s.dist.servo := rfl
@[simp] theorem onRoot_dist_cal : (onRoot f s).dist.cal = s.dist.cal := rfl
@[simp] theorem onRoot_dist_rope : (onRoot f s).dist.rope = s.dist.rope := rfl
@[simp] theorem onRoot_dist_cmb : (onRoot f s).dist.cmb = s.dist.cmb := rfl
@[simp] theorem onRoot_dist_ptp : (onRoot f s).dist.ptp = s.dist.ptp := rfl
@[simp] theorem onRoot_dist_adm : (onRoot f s).dist.adm = s.dist.adm := rfl
@[simp] theorem onRoot_dist_trig : (onRoot f s).dist.trig = s.dist.trig := rfl
end

section
variable {s : State} {f : Ptp → Ptp}
@[simp] theorem onPtp_pending : (onPtp f s).pending = s.pending := rfl
@[simp] theorem onPtp_unit : (onPtp f s).unit = s.unit := rfl
@[simp] theorem onPtp_dist_ptp : (onPtp f s).dist.ptp = f s.dist.ptp := rfl
@[simp] theorem onPtp_dist_base : (onPtp f s).dist.base = s.dist.base := rfl
@[simp] theorem onPtp_dist_ports : (onPtp f s).dist.ports = s.dist.ports := rfl
@[simp] theorem onPtp_dist_servo : (onPtp f s).dist.servo = s.dist.servo := rfl
@[simp] theorem onPtp_dist_cal : (onPtp f s).dist.cal = s.dist.cal := rfl
@[simp] theorem onPtp_dist_rope : (onPtp f s).dist.rope = s.dist.rope := rfl
@[simp] theorem onPtp_dist_cmb : (onPtp f s).dist.cmb = s.dist.cmb := rfl
@[simp] theorem onPtp_dist_root : (onPtp f s).dist.root = s.dist.root := rfl
@[simp] theorem onPtp_dist_adm : (onPtp f s).dist.adm = s.dist.adm := rfl
@[simp] theorem onPtp_dist_trig : (onPtp f s).dist.trig = s.dist.trig := rfl
end

section
variable {s : State} {f : Calib → Calib}
@[simp] theorem onCal_pending : (onCal f s).pending = s.pending := rfl
@[simp] theorem onCal_unit : (onCal f s).unit = s.unit := rfl
@[simp] theorem onCal_dist_cal : (onCal f s).dist.cal = f s.dist.cal := rfl
@[simp] theorem onCal_dist_base : (onCal f s).dist.base = s.dist.base := rfl
@[simp] theorem onCal_dist_ports : (onCal f s).dist.ports = s.dist.ports := rfl
@[simp] theorem onCal_dist_servo : (onCal f s).dist.servo = s.dist.servo := rfl
@[simp] theorem onCal_dist_rope : (onCal f s).dist.rope = s.dist.rope := rfl
@[simp] theorem onCal_dist_cmb : (onCal f s).dist.cmb = s.dist.cmb := rfl
@[simp] theorem onCal_dist_root : (onCal f s).dist.root = s.dist.root := rfl
@[simp] theorem onCal_dist_ptp : (onCal f s).dist.ptp = s.dist.ptp := rfl
@[simp] theorem onCal_dist_adm : (onCal f s).dist.adm = s.dist.adm := rfl
@[simp] theorem onCal_dist_trig : (onCal f s).dist.trig = s.dist.trig := rfl
end

end Sys2Proof.Machine
end

