-- ==== Sys2Proof/Laws/Request.lean ====
section
/-! SUPPORT. What a request's word gives back of the header and operands that it was made from (R268). -/

namespace Sys2Proof.Laws

variable (op : BitVec 6) (r : Req) (take : Bool) (f : BitVec 96)

/-- Each bit of a request's word. -/
theorem requestWord_bit (i : Nat) : (requestWord op r take f).getLsbD i =
    if i < 96 then f.getLsbD i else if i < 98 then false else if i < 99 then take else if i < 100 then r.ack
    else if i < 108 then r.tag.getLsbD (i - 100) else if i < 118 then r.reply.getLsbD (i - 108)
    else if i < 122 then r.ctxLo.getLsbD (i - 118) else op.getLsbD (i - 122) := by
  unfold requestWord
  repeat rw [BitVec.getLsbD_append]
  simp only [BitVec.getLsbD_ofBool, Nat.sub_sub, Nat.reduceAdd, show (0 : BitVec 2).getLsbD (i - 96) = false by simp]
  have lt (a b c : Nat) (h : a + b = c) (hi : a ≤ i) : (i - a < b) = (i < c) := by simp only [eq_iff_iff]; omega
  by_cases h0 : i < 96
  · simp only [h0, if_true]
  simp only [lt 96 2 98 rfl (by omega)]
  by_cases h1 : i < 98
  · simp only [h0, h1, if_true]
  simp only [lt 98 1 99 rfl (by omega)]
  by_cases h2 : i < 99
  · simp only [h0, h1, h2, if_true, show i - 98 = 0 by omega, decide_true, Bool.true_and]
  simp only [lt 99 1 100 rfl (by omega)]
  by_cases h3 : i < 100
  · simp only [h0, h1, h2, h3, if_true, if_false, show i - 99 = 0 by omega, decide_true, Bool.true_and]
  simp only [lt 100 8 108 rfl (by omega)]
  by_cases h4 : i < 108
  · simp only [h0, h1, h2, h3, h4, if_true, if_false]
  simp only [lt 108 10 118 rfl (by omega)]
  by_cases h5 : i < 118
  · simp only [h0, h1, h2, h3, h4, h5, if_true, if_false]
  simp only [lt 118 4 122 rfl (by omega), h0, h1, h2, h3, h4, h5, if_false]

theorem requestWord_take : (requestWord op r take f).getLsbD 98 = take := by rw [requestWord_bit]; simp

theorem requestWord_operands : (requestWord op r take f).extractLsb' 0 96 = f := by
  apply BitVec.eq_of_getLsbD_eq
  intro i hi
  rw [BitVec.getLsbD_extractLsb', Nat.zero_add, requestWord_bit]
  simp [hi]

theorem requestWord_op : (requestWord op r take f).extractLsb' 122 6 = op := by
  apply BitVec.eq_of_getLsbD_eq
  intro i hi
  rw [BitVec.getLsbD_extractLsb', requestWord_bit]
  repeat rw [if_neg (by omega)]
  simp [hi]

theorem requestWord_header : requestHeader r.lane (requestWord op r take f) = r := by
  obtain ⟨lane, c, rp, tg, a⟩ := r
  simp only [requestHeader, Req.mk.injEq, true_and]
  refine ⟨?_, ?_, ?_, by rw [requestWord_bit]; simp⟩
  all_goals
    apply BitVec.eq_of_getLsbD_eq
    intro i hi
    rw [BitVec.getLsbD_extractLsb', requestWord_bit]
    repeat rw [if_neg (by omega)]
    rw [if_pos (by omega)]
    simp [hi]

end Sys2Proof.Laws
end

