-- ==== Sys2Proof/WellFormed.lean ====
section
/-! DEFINITION. Which commands the environment can give: channels that exist (R545), codes that R66 leaves reserved, and
fields and lengths within the ranges that R71 gives them. `exec` is total on ill-formed commands too. -/

namespace Sys2Proof

/-- Codes that R66 leaves reserved: 0x0B and 0x14 to 0x1F. -/
def codeReserved (t : BitVec 6) : Bool := let c := t.toNat % 32; c == 0x0B || decide (0x14 ≤ c)

/-- The channel exists: eight at the unit, PCI Express and SMBus at the distributor. -/
def chanOk (p : Part) (ch : BitVec 3) : Bool := match p with
  | .unit => true
  | .dist => decide (ch.toNat < 2)

/-- HELLO.KIND is one of the four that R71 defines. -/
def helloKindOk (k : BitVec 4) : Bool := [1, 2, 3, 5].contains k.toNat

/-- A PTP timestamp's nanoseconds are below one second. -/
def ptpTimeOk (t : PtpTime) : Bool := decide (t.ns.toNat < 1000000000)

/-- The command is one the spec's tables allow. -/
def wellFormed : Instr → Bool
  | .fltRecRead p ch | .pendRead p ch _ | .registerWrite p ch _ _ _ | .registerRead p ch _ | .regAccessTimeout p ch _ _
  | .pageLockRead p ch _ => chanOk p ch
  | .ptpCfgCommit ch _ _ => chanOk .dist ch
  | .idleRx _ _ _ slipEn slip => !slipEn || decide (1 ≤ slip.toNat)
  | .reservedTypeFrameRx _ typ _ => codeReserved typ
  | .unexpectedFrameRx _ typ _ => !codeReserved typ
  | .helloRx _ kind _ _ _ _ _ _ => helloKindOk kind
  | .admitRx _ _ port _ _ _ _ => decide (port.toNat ≤ 127)
  | .cmbUpRx _ _ _ _ pl | .substData _ _ pl => decide (pl.length ≤ 80)
  | .cmbDownRxDist _ _ _ _ st pl | .cmbDownRxUnit _ _ _ _ st pl => decide (st.toNat ≤ 2) && decide (pl.length ≤ 8)
  | .resultRecord _ _ _ st _ pl => decide (st.toNat ≤ 2) && decide (pl.length ≤ 8)
  | .sourceQualified src | .wtrExpiry src => decide (src.toNat ≤ 4)
  | .ptpSyncRx _ _ t | .ptpFollowUpRx _ t | .ptpDelayRespRx _ t _ => ptpTimeOk t
  | .linkEnableWrite .. | .linkCntClr .. | .signalDetect .. | .blockLockAcquired .. | .blockLockLost ..
  | .trainingBlockRx .. | .framesStart .. | .trainLimitExpiry .. | .trainRetryTimer .. | .spareTrainTimeout ..
  | .spareRetrainTimer .. | .linkSilence .. | .readmitTimer .. | .admitWaitTimer .. | .crcBadFrameRx .. | .ackTimer ..
  | .ackRx .. | .nakRx .. | .retryTimerExpiry .. | .laneSwap .. | .echoIntervalTimer .. | .echoReqRx .. | .echoRspRx ..
  | .echoExchangeTimeout .. | .timeRx .. | .rootTimeTimer | .epochArm .. | .epochApply .. | .epochFrameRx .. | .tckReload
  | .helloTimer .. | .admissionSlot | .powerOnReset | .supplyFault | .warmReset | .perst | .distResetRelease ..
  | .distSramInitDone | .unitReset .. | .unitResetRelease | .unitSramInitDone | .healthRx .. | .healthVoteSend ..
  | .healthDecay | .expulsionEvaluate | .healthReadmit .. | .wdogFail .. | .distMemFatal .. | .soleRoot | .rootRopeLost
  | .leadHandback | .fltFlush .. | .fltClrFirst .. | .hevtEdge .. | .evinEdge .. | .evcAssign | .claimRead ..
  | .eoiWrite .. | .cpuFlush .. | .pendWrite .. | .pendSet .. | .maskSet .. | .maskClr .. | .holdoffExpiry ..
  | .lanternEnter .. | .lanternExit .. | .configurationRequest .. | .presencePress | .presenceRx .. | .presenceClose
  | .presenceExpiry .. | .cfgLockChange .. | .sealBreak | .semAdd .. | .semSub .. | .semRead .. | .semWait ..
  | .wchCancel .. | .memWait .. | .snoopWrite .. | .watchTimeout .. | .msgBadOp .. | .responseEmit .. | .ctxClear
  | .ctxClearDone | .eccUncorrectable .. | .scrub .. | .sumpRead .. | .semCmdAdd | .semCmdSub | .semCmdSet
  | .semCmdClrFlags | .semCmdLoadView | .domSwitch | .rebase | .rebaseStep | .parentSwitch | .srvModeWrite ..
  | .handover .. | .handoverTimeout .. | .holdoverAgeExpiry | .distMute | .acquireTimeout | .calPeriod | .dbgArm
  | .dbgTrigger | .dbgStop | .dbgInject | .syncFrameSend | .tapSyncFrameRx .. | .tapDelayUpdate .. | .tapReturnLost ..
  | .tapResync .. | .tapEnWrite .. | .regionStopEdge .. | .tapReadReq .. | .captureEdge .. | .captureRecordEnter
  | .capRecRead .. | .dripArm .. | .dripStop .. | .dripPulseStart .. | .dripPulseEnd .. | .launchOrigStart ..
  | .launchOrigCancel .. | .launchReqTimeout .. | .armRequestRx .. | .armBroadcastDist .. | .armBroadcastUnit ..
  | .censusRx .. | .launchCutoffExpiry .. | .goRelay .. | .goRx .. | .abortRxUnit .. | .abortRelay ..
  | .launchGuardExpiry .. | .launchFire | .launchLatenessJudge | .launchDeadline | .lchRecRead .. | .launchTokenRefill
  | .reqTokenRefill .. | .ttbInsertCmd .. | .ttbCancelCmd | .ttbLoadCmd | .ttbStage | .ttbAct | .barEnter ..
  | .barDeadline .. | .barReset | .barEnWrite .. | .flwProd .. | .flwCons .. | .flwLoadView | .flwReset | .fenceSignal ..
  | .drainReport .. | .fncTimeout | .fncDiscard | .fncLoadView | .applyChannelReady .. | .deadlock | .dlkRearm
  | .cmbData .. | .cmbPost .. | .cmbRead .. | .accSetGrant | .substTimeout .. | .cmbDeadlineExpiry .. | .ackcmbRx ..
  | .cmbAckTimeout .. | .commitRxDist .. | .commitRxUnit .. | .heldCommitRelease | .cmbUnitDeadline ..
  | .cmbGalStateWrite .. | .substHdr .. | .substReq .. | .syncRecord .. | .launchOpen .. | .launchDecision ..
  | .launchCensus .. | .launchReq .. | .calibrationRecord .. | .xoFail | .refClockLoss .. | .refPulseTimeout ..
  | .refSecondMark .. | .switchCommit | .realign | .htSecondMark .. | .ptpAnnounceRx .. | .ptpDelayReqTimer
  | .ptpActivityTimeout | .frmoutPulse | .ppsoutPulseEnd | .arpRequestRx .. | .ptpDiscardedFrame | .thmSample ..
  | .thmSensorFail .. | .thmClrMax | .smbusBlockWrite .. | .smbusReadRequest .. | .smbusBlockRead => true

end Sys2Proof
end

