-- ==== Sys2Proof/Tests/Slice0.lean ====
section
/-! SUPPORT. The model's own tests: an ill-formed term for each check of `wellFormed`; for every statement with hypotheses a
state and operands that meet them (`test_meets_…`), at the boundary of its range where it has one; and the spec's worked
examples. Expected values are the spec's, by the rule each test names. -/

namespace Sys2Proof.Tests

open Sys2Proof Sys2Proof.Machine

/-! ## Helper states -/

/-- The tick of the helper states: 2 s. -/
abbrev tk : Nat := 2000000000

/-- A base in service at tick `tk`, its counter valid with NS 4,096. -/
def svc (b : Base) : Base := { b with phase := .run, tick := tk, valid := true, ns := 4096 }

/-- Both parts in service: a W1024 unit, and a root of domain A. -/
def s0 : State :=
  { State.reset with
    unit := { State.reset.unit with base := svc State.reset.unit.base }
    dist := { State.reset.dist with base := svc State.reset.dist.base } }

/-- The same with a distributor of tier 1 that is no root. -/
def n0 : State :=
  { s0 with dist := { s0.dist with base := { s0.dist.base with
      kind := .dist { root := false, domB := false, tier := 1, smba := 0 }, regs := [] } } }

/-- The same with a unit in W64L. -/
def w0 : State :=
  { s0 with unit := { s0.unit with base := { s0.unit.base with
      kind := .unit { w64 := true, cores := 64, procs := 8, regions := 16, channels := 4, tapPorts := 4, build := 0 } } } }

/-- A register of the unit or of the distributor given a value. -/
def ur (a : Nat) (v : Word) (s : State) : State := onPartBase .unit (wr a v) s
def dr (a : Nat) (v : Word) (s : State) : State := onPartBase .dist (wr a v) s

/-- A part in another phase, entered at tick 0. -/
def ph (p : Part) (f : Phase) (s : State) : State := onPartBase p (fun b => { b with phase := f }) s

/-- NS of a part given a value. -/
def ns (p : Part) (v : Nat) (s : State) : State := onPartBase p (fun b => { b with ns := BitVec.ofNat 64 v }) s

/-- A port in a link state, entered at tick `at_`. -/
def lk (p : PortRef) (st : LinkState) (at_ : Nat) (s : State) : State :=
  onPort p (fun lp => { lp with phy := { lp.phy with st := st, stAt := at_ } }) s

abbrev pd : PortRef := .dist 3
abbrev pu : PortRef := .unit .a

/-- The states above with a port admitted at tick 0. -/
def dAdm : State := lk pd .admitted 0 s0
def uAdm : State := lk pu .admitted 0 s0

/-- A message-port request and a frame's place. -/
def rq : Req := { lane := 0, ctxLo := 0, reply := 5, tag := 7, ack := false }
def rxd : Rx := { port := pd, lane := false, seq := 0 }
def rxu : Rx := { port := pu, lane := false, seq := 0 }
def ph0 : PtpHdr := { domain := 0, src := 0, port := 0, seq := 0, log := 0, corr := 0 }

theorem of_some {α : Type} {o : Option α} {x : α} {P : α → Prop} (h : o = some x) (hp : P x) : ∀ t, o = some t → P t := by
  intro t ht
  rw [h] at ht
  cases ht
  exact hp

theorem of_none {α : Type} {o : Option α} {P : α → Prop} (h : o = none) : ∀ t, o = some t → P t := by
  intro t ht
  rw [h] at ht
  cases ht

/-! ## Ill-formed commands are refused -/

theorem test_illformed_channels :
    [Instr.fltRecRead .dist 2, .pendRead .dist 2 0, .registerWrite .dist 2 0 0xF 0, .registerRead .dist 7 0,
     .regAccessTimeout .dist 3 true 0, .pageLockRead .dist 2 0, .ptpCfgCommit 2 0xF 0].all (fun c => !wellFormed c) = true := by
  decide

theorem test_illformed_frames :
    [Instr.idleRx ⟨pd, false⟩ true false true 0, .reservedTypeFrameRx rxd 0x01 0, .unexpectedFrameRx rxd 0x1F 0,
     .helloRx ⟨pd, false⟩ 4 false 0 0 0 0 false, .admitRx rxu 0 128 false 0 0 false].all (fun c => !wellFormed c) = true := by
  decide

theorem test_illformed_payloads :
    [Instr.cmbUpRx rxd ⟨0, 0, 0⟩ 1 false (List.replicate 81 0), .substData rxd ⟨0, 0, 0, 0⟩ (List.replicate 81 0),
     .cmbDownRxDist rxd ⟨0, 0, 0⟩ 1 false 3 [], .cmbDownRxUnit rxu ⟨0, 0, 0⟩ 1 false 0 (List.replicate 9 0),
     .resultRecord rxd ⟨0, 0, 0, 0⟩ 1 3 false []].all (fun c => !wellFormed c) = true := by decide

theorem test_illformed_sources :
    [Instr.sourceQualified 5, .wtrExpiry 7, .ptpSyncRx ph0 false ⟨0, 1000000000⟩,
     .ptpFollowUpRx ph0 ⟨0, 1000000000⟩, .ptpDelayRespRx ph0 ⟨0, 4294967295⟩ true].all
      (fun c => !wellFormed c) = true := by decide

theorem test_wellformed_boundaries :
    [Instr.fltRecRead .dist 1, .fltRecRead .unit 7, .idleRx ⟨pd, false⟩ true false true 3, .reservedTypeFrameRx rxd 0x0B 0,
     .reservedTypeFrameRx rxd 0x34 0, .unexpectedFrameRx rxd 0x13 0, .helloRx ⟨pd, false⟩ 5 false 0 0 0 0 false,
     .admitRx rxu 0 127 false 0 0 false, .cmbUpRx rxd ⟨0, 0, 0⟩ 1 false (List.replicate 80 0), .sourceQualified 4,
     .ptpSyncRx ph0 false ⟨0, 999999999⟩].all wellFormed = true := by decide

/-! ## States that meet the hypotheses: the machine and its links -/

theorem test_meets_StepRunsFrontCommand : ({ s0 with pending := [Instr.dbgStop, .perst] } : State).pending = .dbgStop :: [.perst] :=
  rfl

theorem test_meets_EmptyQueueIsOneTick : State.reset.pending = [] := rfl

theorem test_meets_EveryStepKeepsInv : State.reset.Inv ∧ ∃ t, step State.reset = .next t :=
  ⟨⟨⟨by decide, by decide, by decide⟩, ⟨by decide, by decide, by decide⟩⟩, ⟨_, rfl⟩⟩

theorem test_meets_HallTimeNeverSteps : mayLoadTime (.registerWrite .dist 0 0 0xF 0) = false := by decide

theorem test_meets_StoppedUntilReset : (ph .dist .stopped s0).dist.base.phase = .stopped ∧ distReset .perst = false ∧
    (ph .dist .stopped s0).pending = [] := by decide

/-- A port down, with a signal on lane 0 and its last training failed 100 ms ago. -/
def tDown : State := onPort pd (fun lp => { lp with phy := { lp.phy with
  failAt := some (tk - 100000000), lane0 := { lp.phy.lane0 with signal := true } } }) s0

theorem test_meets_LinksTrain_retry : portRuns pd tDown ∧ (getPort tDown pd).phy.st = .down ∧
    (∀ t, (getPort tDown pd).phy.failAt = some t → t + 100000000 ≤ nowOf tDown pd) ∧ portServes tDown pd = true ∧
    ((getPort tDown pd).phy.lane0.signal || (getPort tDown pd).phy.lane1.signal) = true :=
  ⟨by decide, by decide, of_some (x := tk - 100000000) (by decide) (by decide), by decide, by decide⟩

theorem test_meets_LinksTrain_enable : (getPort tDown pd).phy.st = .down ∧
    portServes (onBaseOf pd (wrB (portReg pd 0x040) 0 true) tDown) pd = true := by decide

theorem test_meets_LinksTrain_dead :
    portRuns pd (lk pd .dead (tk - readmitDead s0 pd) s0) ∧ (getPort (lk pd .dead (tk - readmitDead s0 pd) s0) pd).phy.st = .dead ∧
    (getPort (lk pd .dead (tk - readmitDead s0 pd) s0) pd).phy.stAt + readmitDead s0 pd = nowOf s0 pd := by decide

theorem test_meets_LinksTrain_otherwise : (laneOf (getPort tDown pd).phy false).signal = true ∧ (getPort dAdm pd).phy.st ≠ .down ∧
    portServes (onBaseOf pd (wrB (portReg pd 0x040) 0 false) tDown) pd = false ∧
    (∃ t, (getPort (onPort pd (fun lp => { lp with phy := { lp.phy with failAt := some (tk - 99999999) } }) tDown) pd).phy.failAt =
      some t ∧ nowOf tDown pd < t + 100000000) ∧
    ((getPort s0 pd).phy.lane0.signal || (getPort s0 pd).phy.lane1.signal) = false ∧ (getPort s0 pd).phy.st ≠ .dead ∧
    nowOf s0 pd < (getPort (lk pd .dead (tk + 1 - readmitDead s0 pd) s0) pd).phy.stAt + readmitDead s0 pd :=
  ⟨by decide, by decide, by decide, ⟨_, rfl, by decide⟩, by decide⟩

theorem test_meets_LinksFall_train : live s0.unit.base = true ∧ live s0.dist.base = true ∧
    portRuns pd (lk pd .train (tk - trainLimit s0 pd) s0) ∧ (getPort (lk pd .train (tk - trainLimit s0 pd) s0) pd).phy.st = .train ∧
    (getPort (lk pd .train (tk - trainLimit s0 pd) s0) pd).phy.stAt + trainLimit s0 pd = nowOf s0 pd ∧
    nowOf s0 pd < (getPort (lk pd .train (tk + 1 - trainLimit s0 pd) s0) pd).phy.stAt + trainLimit s0 pd ∧
    (getPort dAdm pd).phy.st ≠ .train := by decide

theorem test_meets_LinksFall_states : (getPort (lk pd .up 0 s0) pd).phy.st = .up ∧ (getPort dAdm pd).phy.st = .admitted ∧
    (getPort s0 pd).phy.st = .down ∧ (getPort (lk pd .dead 0 s0) pd).phy.st = .dead := by decide

theorem test_meets_LinksFall_silence : distRuns (lk pd .train (tk - 1024) s0) ∧
    noSignal (nowOf s0 pd) (getPort (lk pd .train (tk - 1024) s0) pd).phy = true ∧
    noSignal (nowOf s0 pd) (getPort (lk pd .train (tk - 1023) s0) pd).phy = false ∧
    (getPort dAdm pd).phy.st = .admitted ∧ silent (nowOf dAdm pd) (getPort dAdm pd).phy = true ∧
    unitRuns uAdm ∧ (getPort uAdm pu).phy.st = .admitted ∧ silent (nowOf uAdm pu) (getPort uAdm pu).phy = true := by decide

/-- A port in training with a signal and block lock on lane 0, and mutual READY 256 ticks ago. -/
def tTrain : State := onPort pd (fun lp => { lp with phy := { lp.phy with
  st := .train, readyAt := some (tk - 256), lane0 := { lp.phy.lane0 with signal := true, lock := true } } }) s0

theorem test_meets_LanesTrain_train : portRuns pd tTrain ∧ (getPort tTrain pd).phy.st = .train ∧
    laneHeard pd false tTrain = true ∧ (laneOf (getPort tTrain pd).phy false).lock = true ∧
    (getPort tTrain pd).phy.readyAt = some (tk - 256) ∧ tk - 256 + 256 = nowOf tTrain pd := by decide

theorem test_meets_LanesTrain_ready : laneHeard pd true tTrain = false ∧ (laneOf (getPort tTrain pd).phy true).lock = false ∧
    let l : Lane := { signal := true, lock := true, peerReady := true }
    let lp : LinkPort := { phy := { st := .train, lane0 := l, lane1 := l } }
    lp.phy.st = .train ∧ readyHere lp.phy = true ∧ readyThere lp.phy = true ∧ lp.phy.readyAt = none := by decide

theorem test_meets_LanesTrain_limit :
    let s := onPort pd (fun lp => { lp with phy := { lp.phy with stAt := tk - trainLimit s0 pd } }) tTrain
    let r := onPort pd (fun lp => { lp with phy := { lp.phy with spareTrainAt := some (tk - 512), peerSpareOk := true } }) dAdm
    (getPort s pd).phy.st = .train ∧ (getPort s pd).phy.stAt + trainLimit s pd = nowOf s pd ∧
    (laneOf (getPort s pd).phy false).lock = true ∧ (laneOf (getPort s pd).phy (!false)).lock = false ∧
    linkRuns (getPort r pd) = true ∧ (getPort r pd).phy.spareTrainAt = some (tk - 512) ∧
    (getPort r pd).phy.peerSpareOk = true ∧ tk - 512 + 512 = nowOf r pd := by decide

theorem test_meets_LanesTrain_spare :
    let s := onPort pd (fun lp => { lp with phy := { lp.phy with spareTrainAt := some (tk - trainLimit s0 pd) } }) dAdm
    let r := onPort pd (fun lp => { lp with phy := { lp.phy with spareFailAt := some (tk - 100000000) } }) dAdm
    (getPort s pd).phy.spareTrainAt = some (tk - trainLimit s0 pd) ∧ linkRuns (getPort s pd) = true ∧
    tk - trainLimit s0 pd + trainLimit s pd = nowOf s pd ∧ (getPort r pd).phy.spareFailAt = some (tk - 100000000) ∧
    (getPort r pd).phy.st = .admitted ∧ tk - 100000000 + 100000000 = nowOf r pd := by decide

theorem test_meets_LinksCount : live s0.dist.base = true ∧ linkServes pd dAdm ∧ inOrder rxd dAdm ∧
    typReserved 0x34 = true ∧ typSeq 0x34 = true ∧ typReserved 0x08 = false ∧ typSeq 0x08 = true ∧
    typPermitted (.dist 128) 0x08 = true ∧ inOrder ⟨.dist 130, false, 0, none⟩ (lk (.dist 130) .admitted 0 s0) ∧
    typPermitted (.dist 130) 0x08 = false := by decide

/-- Port 3 with the header and the first payload frame of an ARM open. -/
def tOpen : State := onPort pd (fun lp => { lp with arq := { lp.arq with opened := [(0x08, [1, 2])] } }) dAdm

theorem test_meets_LinksCount_place : inOrder rxd tOpen ∧ typReserved 0x28 = false ∧
    typPermitted pd ((0x28 : BitVec 6).toNat % 32) = true ∧ outOfPlace pd 0x28 dAdm = true ∧ outOfPlace pd 0x08 tOpen = true ∧
    outOfPlace pd 0x28 tOpen = false ∧ outOfPlace pd 0x08 dAdm = false := by decide

theorem test_meets_SequenceTest : rxd.port = .dist 3 ∧ linkServes rxd.port dAdm ∧ typReserved 0x34 = true ∧
    rxd.seq = (getPort dAdm rxd.port).arq.rxExp ∧ 128 ≤ ((128 : BitVec 8) - (getPort dAdm pd).arq.rxExp).toNat ∧
    0 < ((127 : BitVec 8) - (getPort dAdm pd).arq.rxExp).toNat ∧ ((127 : BitVec 8) - (getPort dAdm pd).arq.rxExp).toNat < 128 ∧
    (getPort dAdm pd).arq.nak = none := by decide

theorem test_meets_SequenceTest_part : inOrder rxd dAdm ∧ ([(0x28, 1)] : List (BitVec 6 × BitVec 64)) ≠ [] := by decide

theorem test_meets_SequenceTest_nak :
    let s := onPort pd (fun lp => { lp with arq := { lp.arq with nak := some (0, tk - 64) } }) dAdm
    ∀ x, (getPort s pd).arq.nak = some x → x.1 ≠ (getPort s pd).arq.rxExp ∨ x.2 + 64 ≤ nowOf s pd :=
  of_some (x := (0, tk - 64)) (by decide) (by decide)

/-- An admitted port with one unacknowledged frame, last sent a retry period ago and replayed `k` times. -/
def tSent (k : Nat) : State := onPort pd (fun lp => { lp with arq := { lp.arq with
  ackDue := some (tk - 16), replay := [(⟨0x08, 9, 0⟩, tk - retryPeriod s0 pd)], replays := k } }) dAdm

theorem test_meets_DeliveryIsReliable : linkServes (.dist 3) (tSent 15) ∧
    (getPort (tSent 15) pd).arq.ackDue = some (tk - 16) ∧ tk - 16 + 16 = nowOf (tSent 15) pd ∧ isRope 3 = false ∧
    (getPort (tSent 15) pd).arq.replay.any (fun x => x.1.seq == 9) = true ∧
    (getPort (tSent 15) pd).arq.replay.any (fun x => x.1.seq == 8) = false ∧
    (getPort (tSent 15) pd).arq.replay = (⟨0x08, 9, 0⟩, tk - retryPeriod s0 pd) :: [] ∧
    (⟨0x08, 9, 0⟩ : Frame) ∉ (getPort (tSent 15) pd).arq.resend ∧ tk - retryPeriod s0 pd + retryPeriod (tSent 15) pd = nowOf (tSent 15) pd ∧
    (getPort (tSent 15) pd).arq.replays < 16 ∧ 16 ≤ (getPort (tSent 16) pd).arq.replays ∧
    (getPort (tSent 16) pd).phy.st = .admitted := by decide

/-- An admitted port with one unacknowledged frame, whose next replay fills the swap window, and whose lanes are due to swap
where `due`; its spare is warm where `ok`. -/
def tSwap (ok due : Bool) : State := onPort pd (fun lp => { lp with
  phy := { lp.phy with peerSpareOk := ok, lane1 := { lp.phy.lane1 with
    signal := true, lock := true, frames := true, goodAt := some (tk - 256) } }
  arq := { lp.arq with bursts := List.replicate (swapBursts s0 pd - 1) (tk - swapWindow s0 pd + 1), swapDue := due }
  time := { lp.time with spare := { lp.time.spare with doneAt := some (tk - 4 * echoInterval s0 pd) } } }) (tSent 15)

set_option maxRecDepth 4000 in
theorem test_meets_LaneSwap_window : (getPort (tSwap true false) pd).arq.replay ≠ [] ∧ (getPort dAdm pd).arq.replay = [] ∧
    (getPort (replayAll pd (tSwap true false)) pd).arq.replay ≠ [] ∧
    swapBursts (replayAll pd (tSwap true false)) pd = (getPort (replayAll pd (tSwap true false)) pd).arq.bursts.length ∧
    spareWarm (nowOf (tSwap true false) pd) (echoInterval (tSwap true false) pd) (getPort (replayAll pd (tSwap true false)) pd) = true ∧
    spareWarm (nowOf (tSwap false false) pd) (echoInterval (tSwap false false) pd) (getPort (replayAll pd (tSwap false false)) pd) =
      false := by decide

theorem test_meets_LaneSwap : portRuns pd (tSwap true true) ∧ linkRuns (getPort (tSwap true true) pd) = true ∧
    (getPort (tSwap true true) pd).arq.swapDue = true ∧
    spareWarm (nowOf (tSwap true true) pd) (echoInterval (tSwap true true) pd) (getPort (tSwap true true) pd) = true ∧
    linkRuns (getPort s0 pd) = false ∧ (getPort (tSwap true false) pd).arq.swapDue = false := by decide

theorem test_meets_AdmitWait : (getPort (lk pd .up (tk - 1000000000) s0) pd).phy.st = .up ∧
    (getPort (lk pd .up (tk - 1000000000) s0) pd).phy.waitLogged = false ∧
    (getPort (lk pd .up (tk - 1000000000) s0) pd).phy.stAt + 1000000000 = nowOf s0 pd ∧ (getPort dAdm pd).phy.st ≠ .up := by decide

/-- An admitted port with an exchange in flight on its spare pair, sent one interval ago. -/
def tEcho : State := onPort pd (fun lp => { lp with time := { lp.time with
  act := { lp.time.act with initAt := some (tk - echoInterval s0 pd) }
  spare := { lp.time.spare with outs := [⟨3, 4096 * 64, tk - echoInterval s0 pd⟩] } } }) dAdm

theorem test_meets_EchoExchanges : linkServes pd tEcho ∧ (getPort tEcho pd).phy.st = .admitted ∧ echoMuted tEcho pd = false ∧
    echoDue tEcho pd false = true ∧ echoDue s0 pd true = false ∧ isUp 3 = false ∧
    (pairOf (getPort tEcho pd) true).outs.any (echoOver (nowOf tEcho pd) (echoInterval tEcho pd)) = true ∧
    (pairOf (getPort tEcho pd) false).outs.any (echoOver (nowOf tEcho pd) (echoInterval tEcho pd)) = false := by decide

theorem test_meets_EchoExchanges_answer :
    let e : EchoOut := ⟨3, 4096 * 64, tk + 1 - echoInterval s0 pd⟩
    let s := onPort pd (onPair true fun x => { x with outs := [e] }) tEcho
    (pairOf (getPort s pd) true).outs.find? (fun x => x.id == 3) = some e ∧ echoOver (nowOf s pd) (echoInterval s pd) e = false := by
  decide

theorem test_meets_TimeFrames : linkServes (.unit .a) uAdm ∧ linkServes (.dist 128) (lk (.dist 128) .admitted 0 n0) ∧
    isUp 128 = true ∧ linkServes pd dAdm ∧ isUp 3 = false ∧ rootRuns s0 ∧ s0.dist.base.valid = true ∧
    s0.dist.adm.timeAt + rdF s0.dist.base 0x1064 0 16 * 4 ≤ s0.dist.base.tick ∧ inOrder rxu uAdm ∧ permDown rxu.port = true := by
  decide

theorem test_meets_TimeFrames_otherwise : (onPartBase .dist (fun b => { b with valid := false }) s0).dist.base.valid = false ∧
    s0.dist.base.tick < (onDist (onAdm fun a => { a with timeAt := tk }) s0).dist.adm.timeAt + rdF s0.dist.base 0x1064 0 16 * 4 ∧
    inOrder rxd dAdm ∧ permDown rxd.port = false := by decide

/-- A unit in ACQUIRE whose counter is not valid and whose port A is admitted. -/
def tAcq : State := ur 0x1044 8 (onPartBase .unit (fun b => { b with valid := false }) uAdm)

theorem test_meets_FirstLoad : linkServes (.unit .a) tAcq ∧ (getPort tAcq pu).phy.st = .admitted ∧ tAcq.unit.base.valid = false ∧
    tckState tAcq.unit = 4 ∧ stsBit tAcq .unit 4 = decide (Dom.a = .b) := by decide

/-! ## Admission, start-up and health -/

theorem test_meets_AdmissionRuns_hello : portRuns pu (lk pu .up 0 s0) ∧ (getPort (lk pu .up 0 s0) pu).phy.st = .up ∧
    sendsHello pu = true ∧ (getPort (lk pu .up 0 s0) pu).adm.sentAt = none ∧ sendsHello (.dist 130) = true ∧ isRope 130 = true ∧
    (∃ t, (getPort (onPort pu (fun lp => { lp with adm := { lp.adm with sentAt := some (tk - 1000000) } }) (lk pu .up 0 s0)) pu).adm.sentAt =
      some t ∧ t + 1000000 ≤ nowOf s0 pu) ∧ linkServes pd dAdm ∧ (permUp pd || permRope pd) = true ∧ permRope (.dist 131) = true :=
  ⟨by decide, by decide, by decide, by decide, by decide, by decide, ⟨_, rfl, by decide⟩, by decide⟩

theorem test_meets_AdmissionRuns_slot :
    let s := onDist (onAdm fun a => { a with slotAt := some (tk - 200000) }) (dr 0x1050 2 s0)
    rotationRuns s.dist = true ∧ (∀ t, s.dist.adm.slotAt = some t → t + 200000 ≤ s.dist.base.tick) :=
  ⟨by decide, of_some (x := tk - 200000) (by decide) (by decide)⟩

theorem test_meets_AdmissionRuns_admit : inOrder rxu uAdm ∧ isUp 128 = true ∧
    inOrder ⟨.dist 128, false, 0, none⟩ (lk (.dist 128) .up 0 n0) := by decide

theorem test_meets_DistributorStartsUp :
    (ph .dist .unpowered s0).dist.base.phase = .unpowered ∧ s0.dist.base.phase ≠ .unpowered ∧
    (ph .dist .reset s0).dist.base.phase = .reset ∧ live s0.dist.base = true ∧
    (onPartBase .dist (fun b => { b with phase := .init, phaseAt := tk - 262144 }) s0).dist.base.phaseAt + 262144 =
      s0.dist.base.tick := by decide

theorem test_meets_UnitStartsUp : (ph .unit .reset s0).unit.base.phase = .reset ∧
    (onPartBase .unit (fun b => { b with phase := .init, phaseAt := tk - 16384 }) s0).unit.base.phaseAt + unitInitTicks s0.unit =
      s0.unit.base.tick ∧ live s0.unit.base = true ∧ tckState (ur 0x1044 14 s0).unit = 7 ∧ tckState s0.unit ≠ 7 := by decide

theorem test_meets_DebugTrace : live s0.unit.base = true ∧ s0.unit.dbg.inject = none ∧
    ({ s0.unit.dbg with inject := some (3, 127) } : Dbg).inject.isSome = true := by decide

/-- A root whose port 3 is admitted with a score, its vote, decay and evaluation due at this tick. -/
def tHealth : State := onPort pd (fun lp => { lp with hlth := { lp.hlth with score := 255, lived := true } }) dAdm

theorem test_meets_HealthOfPorts : distRuns tHealth ∧ (permUp pd || permRope pd) = true ∧ inOrderAdmitted rxd 3 tHealth ∧
    (tHealth.dist.adm.decayAt + rdF tHealth.dist.base 0x0C048 0 8 * 100000000 ≤ tHealth.dist.base.tick) ∧
    (∃ lp, tHealth.dist.ports = [(3, lp)] ∧ lp ≠ {}) ∧
    tHealth.dist.adm.evalAt + rdF tHealth.dist.base 0x0C044 0 8 * 1000000 ≤ tHealth.dist.base.tick ∧
    candidates tHealth.dist = [3] :=
  ⟨by decide, by decide, by decide, by decide, ⟨_, rfl, fun h => absurd (congrArg (fun lp => lp.hlth.score) h) (by decide)⟩, by decide, by decide⟩

set_option maxRecDepth 4000 in
theorem test_meets_HealthOfPorts_cause :
    expelCause (onAdm (fun a => { a with evalAt := tk }) tHealth.dist) 3 = 2 + 1 ∧
    expelCause (onAdm (fun a => { a with evalAt := tk }) (dr 0x0C05C 0 (dr 0x0C040 1 tHealth)).dist) 3 = 0 := by decide

theorem test_meets_HealthOfPorts_vote :
    let s := lk (.dist 128) .admitted 0 n0
    isDown 128 = false ∧ (getPort s (.dist 128)).phy.st = .admitted ∧
    (getPort s (.dist 128)).hlth.voteAt + votePeriod s (.dist 128) ≤ s.dist.base.tick := by decide

theorem test_meets_DistributorStops : distRuns s0 ∧ 1000 ≤ (1000 : BitVec 12).toInt ∧ (999 : BitVec 12).toInt < 1000 ∧
    (0xFFF : BitVec 12).toInt < 1000 := by decide

theorem test_meets_HealthOfPorts_otherwise : (getPort s0 pd).phy.st ≠ .admitted ∧ votes pd = false ∧
    (let s := onPort (.dist 128) (fun lp => { lp with hlth := { lp.hlth with voteAt := tk } }) n0
     s.dist.base.tick < (getPort s (.dist 128)).hlth.voteAt + votePeriod s (.dist 128)) ∧
    (let s := onDist (onAdm fun a => { a with decayAt := tk, evalAt := tk }) s0
     s.dist.base.tick < s.dist.adm.decayAt + rdF s.dist.base 0x0C048 0 8 * 100000000 ∧
     s.dist.base.tick < s.dist.adm.evalAt + rdF s.dist.base 0x0C044 0 8 * 1000000) ∧ candidates s0.dist = [] := by decide

theorem test_meets_SensorsReport : live s0.dist.base = true ∧ thmValid s0.dist.base 3 = none ∧
    s0.dist.adm.thmFailed.getLsbD 3 = false ∧ s0.dist.base.phaseAt + 10000000 ≤ s0.dist.base.tick ∧
    (onAdm (fun a => { a with thmFailed := 8 }) s0.dist).adm.thmFailed.getLsbD 3 = true ∧
    thmValid (dr (thmTemp 3) 0x80000000 s0).dist.base 3 ≠ none ∧
    s0.dist.base.tick < (onPartBase .dist (fun b => { b with phaseAt := tk - 9999999 }) s0).dist.base.phaseAt + 10000000 := by decide

theorem test_meets_MuteAndLead_mute :
    let s := onServo .dist (fun v => { v with holdAt := tk - rdF n0.dist.base 0x9060 0 17 * 1000 }) (setSts .dist 3 true n0)
    distRuns s ∧ isRoot s.dist = false ∧ stsBit s .dist 3 = true ∧ muted s.dist = false ∧
    (servoOf s .dist).holdAt + rdF s.dist.base 0x9060 0 17 * 1000 = s.dist.base.tick := by decide

/-- A root whose only child, a distributor on port 3, reports that it cannot reach the partner root; Rope is down. -/
def tSole (k : Nat) : State := onPort pd (fun lp => { lp with
  adm := { lp.adm with childDist := true }, hlth := { lp.hlth with rootReport := decide (k = 1) } })
  { dAdm with dist := { dAdm.dist with rope := { dAdm.dist.rope with downAt := tk - 51024 } } }

theorem test_meets_MuteAndLead_sole : distRuns (tSole 1) ∧ isRoot (tSole 1).dist = true ∧ (tSole 1).dist.cmb.sole = false ∧
    ropeDownFor (tSole 1).dist 1024 = true ∧ childPorts (tSole 1).dist < 2 * rootReports (tSole 1).dist ∧
    (tSole 0).dist.rope.lostLogged = false ∧ ropeDownFor (tSole 0).dist 51024 = true ∧
    2 * rootReports (tSole 0).dist ≤ childPorts (tSole 0).dist := by decide

theorem test_meets_MuteAndLead_handback :
    let b := { s0 with dist := { s0.dist with base := { s0.dist.base with
      kind := .dist { root := true, domB := true, tier := 0, smba := 0 }, regs := leadRegs } } }
    let s := onDist (onCmb fun c => { c with sole := true }) (lk (.dist 130) .admitted 0 b)
    distRuns s ∧ isRoot s.dist = true ∧ distDomB s.dist = true ∧ s.dist.cmb.sole = true ∧ isLead s.dist = true ∧
    ropeUp s.dist = true := by decide

theorem test_meets_MuteAndLead_otherwise : stsBit n0 .dist 3 = false ∧ muted (dr 0x9064 0x20 n0).dist = true ∧
    (onDist (onCmb fun c => { c with sole := true }) s0).dist.cmb.sole = true ∧
    ropeDownFor { s0.dist with rope := { s0.dist.rope with downAt := tk - 1023 } } 1024 = false ∧
    2 * rootReports (tSole 0).dist ≤ childPorts (tSole 0).dist ∧ childPorts (tSole 1).dist < 2 * rootReports (tSole 1).dist ∧
    distDomB s0.dist = false ∧ ropeUp s0.dist = false := by decide

/-! ## States that meet the hypotheses: the log, events and presence -/

/-- A log entry of the unit, and bases whose log holds `k` copies of another one. -/
def ent (kind : BitVec 2) : LogEntry := mkEntry s0.unit.base 0x080 ⟨2, 0, kind.toNat⟩ 0xFF 0 0 0
def logged (k : Nat) : Base := { s0.unit.base with log := List.replicate k (mkEntry s0.unit.base 0x081 uServoUnlock 0xFF 0 0 0) }

set_option maxRecDepth 8000 in
theorem test_meets_LogKeepsItsEntries :
    logMerges { s0.unit.base with log := [ent 2] } (ent 2) = true ∧ logMerges (logged 1) (ent 2) = false ∧
    (logged 126).log.length + (if (ent 2).kind = 3 then 1 else 2) = 128 ∧ logMerges (logged 126) (ent 2) = false ∧
    (logged 127).log.length + (if (ent 3).kind = 3 then 1 else 2) = 128 ∧
    (logged 127).log.length + (if (ent 2).kind = 3 then 1 else 2) = 129 := by decide

set_option maxRecDepth 8000 in
theorem test_meets_FirstFaultStays :
    ({ logged 1 with first := some (ent 3) } : Base).first.isSome = true ∧ (logged 1).first = none ∧ (ent 1).kind.toNat < 2 ∧
    2 ≤ (ent 2).kind.toNat ∧ logMerges (logged 1) (ent 2) = false ∧ logAccepts (logged 1) (ent 2) = true ∧
    logAccepts (logged 127) (ent 2) = false ∧ logAccepts (logged 127) (ent 3) = true := by decide

theorem test_meets_LogCommands : live (partBase s0 .unit) = true ∧ live (partBase s0 .dist) = true ∧
    live (partBase (ph .dist .stopped s0) .dist) = true := by decide

theorem test_meets_PendSetOccurs : live (partBase s0 .unit) = true ∧
    (srcExists (partBase s0 .unit) (32 * 1 + 0) && !srcLevel (partBase s0 .unit) (32 * 1 + 0)) = true ∧
    srcLevel (partBase s0 .unit) (32 * 0 + 22) = true ∧
    (srcExists (partBase s0 .dist) (32 * 5 + 4) && !srcLevel (partBase s0 .dist) (32 * 5 + 4)) = true ∧
    srcLevel (partBase s0 .dist) (32 * 5 + 3) = true ∧ srcExists (partBase s0 .dist) (32 * 15 + 31) = false := by decide

/-- SRC_CFG of source 140 puts it in moderation group 5, whose hold-off is 500 cycles. -/
def tMod (timing : Bool) : State :=
  onPartBase .unit (grpSet 5 (if timing then { timing := true, startedAt := tk - 500000, len := 500 } else {}))
    (ur 0x10254 500 (ur 0x10630 0x00050000 s0))

theorem test_meets_SourcesOccur_edges : live s0.unit.base = true ∧ (srcGet s0.unit.base 128).level = false ∧
    bitOf (srcCfg s0.unit.base 128) 21 = false ∧ isUnit s0.unit.base = true ∧
    evinMode (ur 0x102C0 0x100 s0).unit.base 256 = 1 ∧ 16 ≤ fld (srcCfg s0.unit.base 64) 16 5 := by decide

theorem test_meets_SourcesOccur_groups : fld (srcCfg (tMod false).unit.base 140) 16 5 = 5 ∧
    0 < rdF (tMod false).unit.base (pageAddr (evcPage (tMod false).unit.base) (0x240 + 4 * 5)) 0 16 ∧
    (grpGet (tMod false).unit.base 5).timing = false ∧ (grpGet (tMod true).unit.base 5).timing = true ∧
    rdF (ur 0x10254 0 (tMod false)).unit.base (pageAddr (evcPage (tMod false).unit.base) (0x240 + 4 * 5)) 0 16 = 0 := by decide

theorem test_meets_SourcesOccur_expiry : live (partBase (tMod true) .unit) = true ∧
    (grpGet (partBase (tMod true) .unit) 5).timing = true ∧
    (grpGet (partBase (tMod true) .unit) 5).startedAt + (grpGet (partBase (tMod true) .unit) 5).len * 1000 =
      (partBase (tMod true) .unit).tick ∧
    (∀ n, n < srcCount (partBase (tMod true) .unit) → fld (srcCfg (partBase (tMod true) .unit) n) 16 5 = 5 →
      (srcGet (partBase (tMod true) .unit) n).held = 0) :=
  ⟨by decide, by decide, by decide, fun _ _ _ => rfl⟩

theorem test_meets_SourcesOccur_held :
    let s := onPartBase .unit (srcSet 140 { held := 2 }) (tMod true)
    let r := onPartBase .unit (grpSet 5 { timing := true, startedAt := tk - 499999, len := 500 }) (tMod true)
    (List.range (srcCount (partBase s .unit))).filter (fun m => fld (srcCfg (partBase s .unit) m) 16 5 == 5 &&
      decide (0 < (srcGet (partBase s .unit) m).held)) = [140] ∧
    (partBase r .unit).tick < (grpGet (partBase r .unit) 5).startedAt + (grpGet (partBase r .unit) 5).len * 1000 ∧
    (srcGet (onPartBase .unit (srcSet 128 { level := true }) s0).unit.base 128).level = true ∧
    srcLevel (ur 0x10600 0x00200000 s0).unit.base 128 = true := by decide

theorem test_meets_SourcesOccur_words : live (partBase s0 .dist) = true ∧ (8 : BitVec 4).toNat < evcWords (partBase s0 .unit) ∧
    (5 : BitVec 4).toNat < evcWords (partBase s0 .dist) ∧ 0 < (1 : BitVec 4).toNat ∧
    (7 : BitVec 4).toNat < (if isUnit (partBase s0 .unit) then 8 else 6) := by decide

/-- Processor 1 enabled, and source 261 (EVIN 5, a pulse input) pending three times, routed to it and not masked. -/
def tClaim : State :=
  onPartBase .unit (srcSet 261 { pend := true, count := 3 })
    (ur 0x10814 0x00100240 (ur 0x10120 0 (ur 0x10310 1 s0)))

theorem test_meets_ClaimsAreTaken : cpuEn tClaim.unit.base 1 = true ∧ claimable tClaim.unit.base 1 = some 261 ∧
    (cpuStack tClaim.unit.base 1).length < 8 ∧ srcLevel tClaim.unit.base 261 = false := by decide

theorem test_meets_ClaimsAreTaken_level :
    let s := onPartBase .unit (srcSet 261 { level := true }) (ur 0x102D4 0x400 tClaim)
    let f := onPartBase .unit (setStack 1 (List.replicate 8 { src := 9, grp := 255 })) tClaim
    cpuEn s.unit.base 1 = true ∧ claimable s.unit.base 1 = some 261 ∧ srcLevel s.unit.base 261 = true ∧
    cpuEn f.unit.base 1 = true ∧ claimable f.unit.base 1 = some 261 ∧ 8 ≤ (cpuStack f.unit.base 1).length := by decide

theorem test_meets_ClaimsAreTaken_empty : live s0.unit.base = true ∧
    cpuEn (ur 0x10310 0 s0).unit.base 1 = false ∧ claimable s0.unit.base 1 = none := by decide

theorem test_meets_EndOfInterrupt : live s0.unit.base = true ∧
    cpuStack (onPartBase .unit (setStack 1 [{ src := 261, grp := 4 }]) s0).unit.base 1 = { src := (261 : BitVec 9).toNat, grp := 4 } :: [] ∧
    (∀ e l, cpuStack s0.unit.base 1 = e :: l → e.src ≠ 261) :=
  ⟨by decide, by decide, fun _ _ h => nomatch h⟩

theorem test_meets_LanternAndMsix : rdB (ur 0x10310 1 (ur 0x11040 1 s0)).unit.base 0x11040 0 = true ∧
    allAsleep (ur 0x10310 1 (ur 0x11040 1 s0)).unit.base 0xFF = true ∧
    (ur 0x10310 1 (ur 0x11040 1 s0)).unit.base.evc.lantern = false ∧
    (List.range 8).any (fun k => cpuEn (ur 0x10310 1 s0).unit.base k && !(0xFD : BitVec 8).getLsbD k) = true ∧
    ({ s0.unit.base.evc with lantern := true } : Evc).lantern = true ∧ live s0.dist.base = true ∧
    s0.dist.base.evc.msixEn = false ∧ s0.dist.base.evc.fmask = false ∧
    ({ s0.dist.base.evc with msixEn := true, fmask := true } : Evc).fmask = true := by decide

theorem test_meets_LanternAndMsix_otherwise : rdB s0.unit.base 0x11040 0 = false ∧
    allAsleep { (ur 0x10310 1 (ur 0x11040 1 s0)).unit.base with evc :=
      { (ur 0x10310 1 (ur 0x11040 1 s0)).unit.base.evc with psleep := 0xFD } } 0xFD = false ∧
    (List.range 8).any (fun k => cpuEn (ur 0x10310 1 (ur 0x11040 1 s0)).unit.base k && !(0xFF : BitVec 8).getLsbD k) = false := by
  decide

theorem test_meets_PresenceWindows : distRuns s0 ∧ s0.dist.base.locked = false ∧ (s0.dist.base.valid = true ∨ isRoot s0.dist = true) ∧
    windowOpen { s0.dist.base with window := some 4097 } = true ∧ windowOpen { s0.dist.base with window := some 4096 } = false ∧
    rdB s0.dist.base 0x0D048 3 = false ∧ rdB (dr 0x0D048 8 s0).dist.base 0x0D048 3 = true ∧
    inOrder ⟨.unit .b, true, 0, none⟩ (lk (.unit .b) .admitted 0 s0) ∧ isUp 129 = true ∧
    inOrder ⟨.dist 129, false, 0, none⟩ (lk (.dist 129) .admitted 0 n0) ∧ live (partBase n0 .dist) = true ∧
    isRoot n0.dist = false ∧ (onPartBase .dist (fun b => { b with valid := false }) n0).dist.base.valid = false ∧
    (partBase n0 .dist).window = none := by decide

/-! ## States that meet the hypotheses: the message port and its objects -/

theorem test_meets_SemaphoresSaturate : semRetired s0.unit 3 = false ∧ accepts rq 0x01 s0 ∧ accepts rq 0x02 s0 ∧
    (∀ w ∈ s0.unit.sems.waits, w.sem ≠ 3) ∧ accepts { rq with lane := 15 } 0x01 s0 ∧
    semRetired ({ s0.unit with sems := { s0.unit.sems with retired := [(3, true)] } } : UnitState) 3 = true := by decide

/-- Semaphore 3 holds 5; core 12 waits there for 6 with a timeout that ends at this tick. -/
def tWait : State := onUnit (fun u => { u with sems := { u.sems with
  vals := [(3, { v := 5 })]
  waits := [{ sem := 3, take := true, n := 6, core := 12, tag := 7, tout := some 100, since := tk - 100 }] } }) s0

theorem test_meets_WaitsAreQueued : semRetired tWait.unit 3 = false ∧ tWait.unit.dbg.flips.contains (0, 3) = false ∧ accepts rq 0x04 tWait ∧
    (5 : BitVec 32).toNat ≤ (semGet tWait.unit 3).v.toNat ∧ (semGet tWait.unit 3).v.toNat < (6 : BitVec 32).toNat ∧
    watchFull tWait.unit = false ∧ takesOf (onUnit (fun u => { u with sems := { u.sems with vals := [(3, { v := 5 })] } }) s0).unit 3 = [] ∧
    watchFull ({ s0.unit with sems := { s0.unit.sems with lostEntries := 8192 } } : UnitState) = true := by decide

theorem test_meets_WaitsAreQueued_cancel : accepts rq 0x05 tWait ∧ unitRuns tWait ∧
    takeFirst (waitIs 3 12 7) tWait.unit.sems.waits =
      some ({ sem := 3, take := true, n := 6, core := 12, tag := 7, tout := some 100, since := tk - 100 }, []) ∧
    takeFirst (waitIs 3 12 8) tWait.unit.sems.waits = none ∧
    takeFirst (fun w => waitIs 3 12 7 w && toutDue tWait.unit w.tout w.since) tWait.unit.sems.waits =
      some ({ sem := 3, take := true, n := 6, core := 12, tag := 7, tout := some 100, since := tk - 100 }, []) := by decide

theorem test_meets_WaitsAreQueued_classes :
    let c := onUnit (fun u => { u with sems := { u.sems with
      cmps := [(3, some { core := 12, tag := 7, addr := 0, n := 1, tout := some 100, since := tk - 100 })] } }) w0
    accepts rq 0x05 c ∧ (∃ x, cmpGet c.unit 3 = some x ∧ x.core = 12 ∧ x.tag = 7 ∧ toutDue c.unit x.tout x.since = true) ∧
    (∀ x, cmpGet s0.unit 3 = some x → x.core ≠ 12 ∨ x.tag ≠ 7) ∧ 2 ≤ (2 : BitVec 4).toNat ∧
    takeFirst (fun w => waitIs 3 12 8 w && toutDue tWait.unit w.tout w.since) tWait.unit.sems.waits = none :=
  ⟨by decide, ⟨_, rfl, by decide⟩, of_none rfl, by decide⟩

/-- A W64L unit with comparator 0 armed at address 0x1000 for 7, and one with all 32 armed. -/
def cmpX : Cmp := { core := 5, tag := 7, addr := 0x1000, n := 7, tout := none, since := 0 }
def tCmp : State := onUnit (fun u => { u with sems := { u.sems with cmps := [(0, some cmpX)] } }) w0
def tCmpFull : State := onUnit (fun u => { u with sems := { u.sems with
  cmps := (List.range 32).map fun c => (c, some cmpX) } }) w0

theorem test_meets_ComparatorsWatch : accepts rq 0x06 w0 ∧ unitRuns tCmp ∧ w0.unit.sems.cmps = [] ∧
    (List.range 32).find? (fun c => (cmpGet tCmp.unit c).isNone) = some 1 ∧
    (List.range 32).find? (fun c => (cmpGet tCmpFull.unit c).isNone) = none ∧ cmpGet tCmp.unit 0 = some cmpX ∧
    cmpX.addr = (0x1000 : BitVec 45).toNat ∧ cmpX.n ≤ (7 : BitVec 64).toNat ∧ (6 : BitVec 64).toNat < cmpX.n ∧
    (0x7F : BitVec 8) ≠ 0xFF ∧ (0x7F : BitVec 8) ≠ 0 := by decide

theorem test_meets_ComparatorsWatch_other : ∀ d y, d ≠ 0 → cmpGet tCmp.unit d = some y → y.addr ≠ (0x1000 : BitVec 45).toNat := by
  intro d y h hy
  have h0 : cmpGet tCmp.unit d = none := by
    show tabGet none d [(0, some cmpX)] = none
    simp [tabGet, Ne.symm h]
  exact absurd (h0.symm.trans hy) (by simp)

theorem test_meets_ComparatorsWatch_page : unitRuns s0 ∧ (cfgOf s0.unit.base).w64 = false ∧ semRetired s0.unit (semSel s0.unit) = false ∧
    (∀ w ∈ s0.unit.sems.waits, w.sem ≠ semSel s0.unit) ∧ Instr.semCmdSub ∈ [Instr.semCmdAdd, .semCmdSub, .semCmdSet, .semCmdClrFlags] ∧
    semRetired ({ s0.unit with sems := { s0.unit.sems with retired := [(0, true)] } } : UnitState) 0 = true ∧ semSel s0.unit = 0 ∧
    (cfgOf w0.unit.base).w64 = true ∧ ¬ unitRuns (ph .unit .init s0) ∧
    ({ s0.unit.sems with sump := [1, 2] } : Sems).sump = 1 :: [2] ∧ s0.unit.sems.sump = [] := by decide

/-- A unit whose output queue holds a response, one having left on lane 15 on this tick. -/
def tOut : State := onUnit (fun u => { u with sems := { u.sems with outQ := [⟨5, false⟩] } })
  (onPartBase .unit (emit (.msg 15 0 0)) s0)

theorem test_meets_MessagePort : msgReady s0.unit = true ∧ reqStale s0.unit rq = false ∧ rq.lane.toNat < portLanes s0.unit ∧
    opPermitted false 0x3F = false ∧ reqStale s0.unit { rq with ctxLo := 15 } = true ∧ msgReady (ph .unit .init s0).unit = false ∧
    portLanes w0.unit ≤ (2 : BitVec 4).toNat ∧ (1 : BitVec 4).toNat < portLanes w0.unit ∧ (15 : BitVec 4).toNat < portLanes s0.unit ∧
    encodeRequest (.semRead rq 9) = some (0, requestWord 0x03 rq false ((9 : BitVec 16) ++ (0 : BitVec 80))) ∧
    accepts rq 0x03 s0 ∧ s0.unit.sems.paused = [] ∧ s0.unit.sems.outQ = [] ∧
    (List.range (portLanes s0.unit)).find? (fun i => (0x8000 : BitVec 16).getLsbD i && !laneBusy s0.unit i) = some 15 ∧
    (List.range (portLanes tOut.unit)).find? (fun i => (0x8000 : BitVec 16).getLsbD i && !laneBusy tOut.unit i) = none ∧
    s0.unit.dbg.flips.contains (0, 3) = false ∧ eccCorr w0.unit .watchFree = none ∧
    s0.dist.base.phase = .run ∧ (ph .dist .init s0).dist.base.phase ≠ .run := by decide

/-- Barrier 9 is open with core 5 a member in state `m`. -/
def tBar (m : BarMem) (st : BarSt) : State :=
  onUnit (barPut 9 { st := st, expect := 1, mems := [(5, m)] }) (ur (objAddr 9 0x0C100) 0x20 s0)
def e1 : BarEnt := { tag := 7, at_ := tk - 8 }

theorem test_meets_BarriersCount_enter : accepts rq 0x08 s0 ∧
    barRefusal (tBar { cur := some e1 } .opened).unit 9 5 = (0, 0) ∧
    (memGet (barGet (tBar { cur := some e1 } .opened).unit 9) 5).cur.isSome = true ∧
    (memGet (barGet (tBar { cur := some e1 } .opened).unit 9) 5).next = none ∧
    barRefusal (tBar {} .opened).unit 9 5 = (0, 0) ∧ (memGet (barGet (tBar {} .opened).unit 9) 5).cur = none ∧
    barRefusal (tBar { cur := some e1, next := some e1, held := some e1 } .opened).unit 9 5 = (stRefused, 4) := by decide

theorem test_meets_BarriersCount_lap :
    let s := tBar { cur := some e1, next := some e1 } .opened
    barRefusal s.unit 9 5 = (0, 0) ∧ (memGet (barGet s.unit 9) 5).cur.isSome = true ∧
    (memGet (barGet s.unit 9) 5).next.isSome = true ∧ barCap w0.unit ≤ (255 : BitVec 8).toNat ∧ accepts rq 0x08 w0 ∧
    (255 : BitVec 8).toNat < barCap s0.unit ∧ (barGet (onUnit (barPut 9 { failed := true }) s0).unit 9).failed = true ∧
    barMember s0.unit 9 5 = false ∧ barMember s.unit 9 5 = true ∧ (barGet (tBar {} .disabled).unit 9).st = .disabled ∧
    (barGet (tBar {} .stalled).unit 9).st = .stalled := by decide

theorem test_meets_BarriersCount_deadline :
    barDue (ur (objAddr 9 0x0C048) 8 (tBar { cur := some e1 } .opened)).unit 9 = true ∧
    barDue (ur (objAddr 9 0x0C048) 9 (tBar { cur := some e1 } .opened)).unit 9 = false := by decide

theorem test_meets_BarriersCount_cmds : barSel (ur 0x0C040 9 (tBar {} .opened)).unit = 9 ∧
    (barGet (tBar {} .opened).unit 9).failed = false ∧ (barGet (tBar {} .opened).unit 9).st = .opened ∧
    (barGet (tBar {} .hallWait).unit 9).st = .hallWait ∧ unitRuns s0 ∧ barSel s0.unit < barCap s0.unit ∧
    (barGet s0.unit (barSel s0.unit)).st = .disabled ∧ rd s0.unit.base (barCtlAddr (barSel s0.unit)) = 0 := by decide

set_option maxRecDepth 4000 in
theorem test_meets_BarriersCount_ctl :
    let c := writeFlds [rw 0 3, rw 4 12] true
    bitOf (c 0xF 0 0x2002) 1 = true ∧ galPermitted (ur 0x14048 0x81FF0000 s0).unit.base (fld (c 0xF 0 0x2002) 4 12) = false ∧
    galPermitted (ur 0x14048 0x81FF0000 s0).unit.base (fld (c 0xF 0 0x1FF2) 4 12) = true ∧
    bitOf (c 0xF 0 1) 1 = false ∧ bitOf (c 0xF 1 0) 0 = false ∧ bitOf (c 0xF 1 1) 0 = bitOf 1 0 ∧
    rd (ur (barCtlAddr 0) 1 s0).unit.base (barCtlAddr (barSel s0.unit)) = 1 ∧ (barGet s0.unit 0).st ≠ .hallWait ∧
    barCap w0.unit ≤ barSel (ur 0x0C040 255 w0).unit := by decide

theorem test_meets_FlowsAdvance : (1023 : BitVec 16).toNat < flowCap s0.unit ∧ (flowGet s0.unit 1023).failed = false ∧
    accepts rq 0x0A s0 ∧ accepts rq 0x0B s0 ∧ unitRuns s0 ∧ rdB s0.unit.base (flowFlagAddr 1023) 0 = false ∧
    rd s0.unit.base (flowCtlAddr 1023) = 0 ∧ rdB (ur (flowFlagAddr 1023) 1 s0).unit.base (flowFlagAddr 1023) 0 = true ∧
    flowCap s0.unit ≤ (1024 : BitVec 16).toNat ∧ (flowGet ({ s0.unit with flows := [(5, { failed := true })] } : UnitState) 5).failed = true ∧
    (let f := fun v => rd (ur (flowCtlAddr 1023) v s0).unit.base (flowCtlAddr 1023)
     bitOf (f 1) 0 = true ∧ bitOf (f 1) 3 = false ∧ bitOf (f 1) 1 = false ∧ bitOf (f 9) 3 = true ∧ bitOf (f 9) 1 = false ∧
     bitOf (f 3) 3 = false ∧ bitOf (f 3) 1 = true ∧ bitOf (f 11) 3 = true ∧ bitOf (f 11) 1 = true) := by decide

/-- Stream SRC 0x0A07, TAG 0x0015 in pair 0 with DRAINED 0xFFFF_FFFE. -/
def fncX : FncPair := { src := 0x0A07, tag := 0x0015, drained := 0xFFFFFFFE }
def tFnc : State := onUnit (fncPut 0 (some fncX)) s0

theorem test_meets_FencesHold : unitRuns tFnc ∧ fncFind tFnc.unit 0x0A07 0x0015 = some (0, fncX) ∧ fncGet tFnc.unit 0 = some fncX ∧
    fncBad tFnc.unit 0 = false ∧ fncReady tFnc.unit = true ∧ 2 ^ 31 ≤ (fncX.drained - 0x7FFFFFFE).toNat ∧
    2 ^ 31 ≤ (fncX.drained - 3).toNat ∧ (fncX.drained - 0xFFFFFFFE).toNat < 2 ^ 31 ∧ tFnc.unit.sems.clearing = none ∧
    tFnc.unit.fnc.held = [] ∧ (∀ g ∈ fncHeld tFnc.unit, fncLate tFnc.unit g = false) ∧ (cfgOf w0.unit.base).w64 = true := by decide

theorem test_meets_FencesHold_w64 : unitRuns (onUnit (fncPut 0 (some fncX)) w0) ∧
    fncFind (onUnit (fncPut 0 (some fncX)) w0).unit 0x0A07 0x0015 = some (0, fncX) ∧
    (cfgOf (onUnit (fncPut 0 (some fncX)) w0).unit.base).w64 = true := by decide

set_option maxRecDepth 8000 in
theorem test_meets_FencesHold_new : fncFind w0.unit 1 2 = none ∧ fncFree w0.unit = some 0 ∧ s0.unit.fnc.held = [] ∧
    2 ^ 31 ≤ (0 - 1 : BitVec 32).toNat ∧ (0 - 0 : BitVec 32).toNat < 2 ^ 31 ∧
    fncBad ({ tFnc.unit with fnc := { tFnc.unit.fnc with bad := [(0, true)] } } : UnitState) 0 = true ∧
    fncReady (ph .unit .init s0).unit = false ∧
    (onUnit (fun u => { u with sems := { u.sems with clearing := some tk } }) s0).unit.sems.clearing.isSome = true ∧
    (let g : FncSig := { pair := 0, src := 0x0A07, tag := 0x0015, wcount := 3, sem := 0, amount := 1, at_ := 0, logged := false }
     let s := onUnit (onFnc fun f => { f with held := [g] }) (ur 0x0E040 1 s0)
     s.unit.fnc.covered = [] ∧ fncLate s.unit g = true) := by decide

set_option maxRecDepth 8000 in
theorem test_meets_FencesHold_full :
    let u : UnitState := { w0.unit with fnc := { w0.unit.fnc with bad := (List.range 256).map fun i => (i, true) } }
    fncFind u 1 2 = none ∧ fncFree u = none := by decide

theorem test_meets_DeadlockDetector :
    let s := onUnit (fun u => { u with dlk := { u.dlk with before := 100 } }) (ur 0x12040 100 s0)
    unitRuns s ∧ s.unit.dlk.armed = true ∧ rd s.unit.base 0x12040 ≠ 0 ∧ (rd s.unit.base 0x12040).toNat = s.unit.dlk.before ∧
    ({ s.unit.dlk with before := 99 } : Dlk).before < (rd s.unit.base 0x12040).toNat ∧ rd (ur 0x12040 0 s0).unit.base 0x12040 = 0 ∧
    ({ s.unit.dlk with armed := false } : Dlk).armed = false := by decide

theorem test_meets_ContextClears :
    let c := fun k => onUnit (fun u => { u with sems := { u.sems with clearing := some k } }) s0
    unitRuns s0 ∧ s0.unit.sems.clearing = none ∧ (c (tk - 4096)).unit.sems.clearing = some (tk - 4096) ∧
    tk - 4096 + 4096 = s0.unit.base.tick ∧ (c tk).unit.sems.paused = [] ∧ (c tk).unit.cmb.ops = [] ∧
    s0.unit.base.tick < (tk - 4095) + 4096 ∧
    (c tk).unit.sems.clearing.isSome = true ∧ semRetired s0.unit 0xFFFF = false ∧ 1023 < flowCap s0.unit ∧
    (flowGet s0.unit 1023).failed = false := by decide

theorem test_meets_ObjectsRetire : unitRuns s0 ∧ (cfgOf s0.unit.base).w64 = false ∧ semRetired s0.unit 0xFFFF = false ∧
    semRetired ({ s0.unit with sems := { s0.unit.sems with retired := [(5, true)] } } : UnitState) 5 = true ∧
    (255 : BitVec 8).toNat < barCap s0.unit ∧ (barGet s0.unit 255).failed = false ∧ (1023 : BitVec 10).toNat < flowCap s0.unit ∧
    (4095 : BitVec 12).toNat < fncPairs s0.unit ∧ fncBad s0.unit 4095 = false := by decide

theorem test_meets_ObjectsRetire_otherwise : (cfgOf w0.unit.base).w64 = true ∧ barCap w0.unit ≤ (255 : BitVec 8).toNat ∧
    (barGet (onUnit (barPut 9 { failed := true }) s0).unit 9).failed = true ∧ flowCap w0.unit ≤ (1023 : BitVec 10).toNat ∧
    (flowGet ({ s0.unit with flows := [(5, { failed := true })] } : UnitState) 5).failed = true ∧
    fncPairs w0.unit ≤ (4095 : BitVec 12).toNat ∧ tWait.unit.sems.waits.any (waitIs 3 12 7) = true ∧
    tWait.unit.sems.waits.any (waitIs 3 12 8) = false ∧ watchFull s0.unit = false ∧
    watchFull ({ s0.unit with sems := { s0.unit.sems with lostEntries := 8192 } } : UnitState) = true := by decide

/-! ## States that meet the hypotheses: the servos and time inside the die -/

/-- A unit in service in domain A whose other domain is usable, has a stable Δ and exchanged within two intervals; and a
distributor of tier 1 that may move to its alternate parent. -/
def tMove : State := setSts .unit 2 true (onPort (.unit .b) (fun lp => { lp with time := { lp.time with
  act := { lp.time.act with doneAt := some (tk - 2 * echoInterval s0 (.unit .b)) } } }) (lk (.unit .b) .admitted 0 s0))
def tMoveD : State := setSts .dist 2 true (onPort (.dist 129) (fun lp => { lp with time := { lp.time with
  act := { lp.time.act with doneAt := some (tk - 2 * echoInterval n0 (.dist 129)) } } }) (lk (.dist 129) .admitted 0 n0))

theorem test_meets_ServoCommands_switch : unitRuns tMove ∧ (servoOf tMove .unit).pend = none ∧ servoRuns tMove .unit = true ∧
    stsBit tMove .unit 3 = false ∧ canMove tMove .unit (!stsBit tMove .unit 4) false = true ∧
    canMove s0 .unit (!stsBit s0 .unit 4) false = false ∧ distRuns s0 ∧ isRoot s0.dist = true ∧ distRuns tMoveD ∧
    isRoot tMoveD.dist = false ∧ (servoOf tMoveD .dist).pend = none ∧ tMoveD.dist.base.valid = true ∧
    stsBit tMoveD .dist 3 = false ∧ canMove tMoveD .dist (!stsBit tMoveD .dist 4) false = true ∧
    canMove n0 .dist (!stsBit n0 .dist 4) false = false := by decide

/-- A handover that waits, due or failed since one tick more than the bound. -/
def hand (p : Part) (due failed : Bool) (s : State) : Handover :=
  { dest := true, failed := failed, snap := none, due := due
    since := tk - (echoLossLimit s (srcPort p true) * echoInterval s (srcPort p true)) - 1 }

theorem test_meets_ServoCommands_handover :
    let u := fun due failed => onServo .unit (fun v => { v with pend := some (hand .unit due failed s0) }) s0
    let d := fun due failed => onServo .dist (fun v => { v with pend := some (hand .dist due failed n0) }) n0
    (servoOf (u true false) .unit).pend = some (hand .unit true false s0) ∧
    (servoOf (u true false) .unit).pend.isSome = true ∧ (servoOf (d true false) .dist).pend = some (hand .dist true false n0) ∧
    (hand .dist true false n0).failed = false ∧ (hand .dist false true n0).failed = true ∧ (hand .dist false true n0).due = false ∧
    (hand .dist false true n0).since + echoLossLimit n0 (srcPort .dist true) * echoInterval n0 (srcPort .dist true) < n0.dist.base.tick ∧
    (hand .unit false true s0).since + echoLossLimit s0 (srcPort .unit true) * echoInterval s0 (srcPort .unit true) <
      s0.unit.base.tick := by decide

theorem test_meets_ServoCommands_rebase :
    let s := onServo .unit (fun v => { v with rebaseAt := tk - 1000000 }) (setSts .unit 6 true s0)
    (servoOf s0 .unit).pend = none ∧ stsBit s0 .unit 3 = false ∧ stsBit s .unit 6 = true ∧
    (servoOf s .unit).rebaseAt + 1000000 = s.unit.base.tick ∧
    (sext 32 (rd s.unit.base (activeHofs s)).toNat).natAbs ≤ rdF s.unit.base 0x205C 0 7 ∧ stsBit s0 .unit 6 = false ∧
    live s0.unit.base = true ∧ rdB s0.unit.base 0x2040 0 = !true := by decide

theorem test_meets_ServoCommands_once :
    let s := ur 0x2064 1 (setSts .unit 3 true s0)
    let a := { ur 0x1044 8 s0 with unit := { (ur 0x1044 8 s0).unit with tckAt := tk - 1000000000 } }
    armAged s = true ∧ (servoOf s .unit).ageLogged = false ∧ tckState a.unit = 4 ∧ stsBit a .unit 0 = false ∧
    a.unit.unlockLogged = false ∧ a.unit.tckAt + 1000000000 = a.unit.base.tick := by decide

/-- A handover that is not late: one tick fewer. -/
theorem test_meets_ServoCommands_late :
    let h := { hand .unit false true s0 with since := (hand .unit false true s0).since + 1 }
    let s := onServo .unit (fun v => { v with pend := some h }) s0
    (∀ x, (servoOf s .unit).pend = some x → x.due = false) ∧
    (∀ x, (servoOf s .unit).pend = some x → x.failed = false ∨ x.due = true ∨ s.unit.base.tick ≤
      x.since + echoLossLimit s (srcPort .unit x.dest) * echoInterval s (srcPort .unit x.dest)) :=
  ⟨of_some (x := { hand .unit false true s0 with since := (hand .unit false true s0).since + 1 }) (by decide) (by decide),
   of_some (x := { hand .unit false true s0 with since := (hand .unit false true s0).since + 1 }) (by decide) (by decide)⟩

theorem test_meets_ServoCommands_otherwise :
    let s := onServo .unit (fun v => { v with rebaseAt := tk - 999999 }) (setSts .unit 6 true s0)
    servoRuns (ur 0x1044 14 s0) .unit = false ∧ (servoOf s0 .dist).pend = none ∧
    (onPartBase .dist (fun b => { b with valid := false }) n0).dist.base.valid = false ∧
    s.unit.base.tick < (servoOf s .unit).rebaseAt + 1000000 ∧
    rdF (ur (activeHofs s0) 0x1000 s0).unit.base 0x205C 0 7 <
      (sext 32 (rd (ur (activeHofs s0) 0x1000 s0).unit.base (activeHofs (ur (activeHofs s0) 0x1000 s0))).toNat).natAbs ∧
    rdB s0.unit.base 0x2040 0 = false ∧ live (ph .unit .reset s0).unit.base = false ∧ armAged s0 = false ∧
    tckState s0.unit ≠ 4 ∧ ¬ unitRuns (ph .unit .init s0) ∧ ¬ distRuns (ph .dist .stopped s0) ∧
    live (partBase (ph .unit .reset s0) .unit) = false := by decide

/-- Tap 17 enabled, and in the state given. -/
def tTap (t : Tap) : State := onUnit (tapPut 17 t) (ur (tapCtlAddr 17) 1 s0)

set_option maxRecDepth 4000 in
theorem test_meets_TapsKeepTime : live s0.unit.base = true ∧ (63 : BitVec 6).toNat < regions s0.unit ∧
    s0.unit.base.valid = true ∧ (s0.unit.base.ns + BitVec.ofNat 64 (tapGet (tTap { applied := 0 }).unit 17).lead).toNat % 128 = 0 ∧
    tapMayLock (tTap { seen := some (3968, tk - 128) }).unit 17 = true ∧
    (tapGet (tTap { seen := some (3968, tk - 128) }).unit 17).seen = some (3968, tk - 128) ∧ tk - 128 + 128 = s0.unit.base.tick ∧
    tapEn (tTap { locked := true, everLocked := true, badCrc := 1 }).unit 17 = true ∧
    1 ≤ (tapGet (tTap { locked := true, everLocked := true, badCrc := 1 }).unit 17).badCrc ∧
    tapEn (ur (tapCtlAddr 17) 0 s0).unit 17 = false ∧ (0 : BitVec 8) ≠ crc8 4096 ∧
    ((1024 : BitVec 16).toNat : Int) + 2 * tapTrim (tTap {}).unit 17 = 1024 ∧
    1024 < ((1025 : BitVec 16).toNat : Int) + 2 * tapTrim (tTap {}).unit 17 ∧
    (tapGet (tTap { cause := 1 }).unit 17).locked = false ∧ (tapGet (tTap { cause := 1 }).unit 17).cause = 1 ∧
    (15 : BitVec 4).toNat < (cfgOf s0.unit.base).tapPorts ∧ (tapGet (tTap { stopped := true }).unit 17).stopped = true := by decide

set_option maxRecDepth 4000 in
theorem test_meets_TapsKeepTime_unlocked : tapMayLock (tTap { cause := 1, everLocked := true }).unit 17 = false ∧
    (tapGet (tTap { cause := 1, everLocked := true }).unit 17).locked = false ∧
    (∀ ns0 k, (tapGet (tTap {}).unit 17).seen = some (ns0, k) → k + 128 ≠ s0.unit.base.tick ∨ ns0 + 128 ≠ 4096) ∧
    tapCount (tTap { locked := true, cnt := 4176, cntAt := tk }).unit 17 = 4096 + 80 ∧
    tapCount (tTap { locked := true, cnt := 4177, cntAt := tk }).unit 17 ≠ 4096 + 80 ∧
    (0 : BitVec 8) ≠ crc8 4096 ∧ regions w0.unit ≤ (63 : BitVec 6).toNat ∧ (cfgOf w0.unit.base).tapPorts ≤ (15 : BitVec 4).toNat :=
  ⟨by decide, by decide, (fun _ _ h => nomatch h), by decide⟩

theorem test_meets_TapsKeepTime_brief :
    let c : RegionChg := { at_ := tk - 1, stopAt := 0, resumeAt := 0, fires := 0 }
    reversed (tTap { chg := some c }).unit 17 = some c ∧ reversed (tTap { stopped := true, chg := some c }).unit 17 = some c ∧
    (tapGet (tTap { stopped := true, chg := some c }).unit 17).stopped = true ∧
    reversed (tTap { chg := some { c with at_ := tk - 2 } }).unit 17 = none ∧
    (tapGet (tTap { chg := some c }).unit 17).stopped = false ∧ 17 < regions s0.unit := by decide

/-- A record in flight that enters its queue on this tick. -/
def capR : CapRec := { ns := 4096, frac := 0, chan := 2, fall := false, domb := false, hold := false, lost := false, at_ := tk }

theorem test_meets_CaptureAndDrip_capture :
    (onPartBase .unit (fun b => { b with valid := false }) s0).unit.base.valid = false ∧
    (∀ r ∈ ({ s0.unit.cap with flight := [{ capR with at_ := tk + 1 }] } : Cap).flight, s0.unit.base.tick < r.at_) ∧
    ({ s0.unit.cap with queue := [1] } : Cap).queue = 1 :: [] ∧ s0.unit.cap.queue = [] ∧
    live (ph .unit .reset s0).unit.base = false := by decide

/-- Channel 2 takes the rising edges of CAPIN3, and its last edge came 128 units before NS. -/
def tCap : State := onUnit (capChanPut 2 { last := some (4096 * 64 - 128) }) (ur (capCtlAddr 2) 0x80000003 s0)

set_option maxRecDepth 4000 in
theorem test_meets_CaptureAndDrip_edge : 2 < capChans tCap.unit ∧ capTakes tCap.unit 2 0 3 false = true ∧
    (List.range 16).all (fun j => j == 2 || !capTakes tCap.unit j 0 3 false) = true ∧ (0 : BitVec 2) ≠ 1 ∧
    tapValid (tTap { locked := true }).unit 17 = true ∧ capOutside tCap.unit 2 = false ∧
    (capChan tCap.unit 2).last = some (4096 * 64 - 128) ∧ 4096 * 64 - 128 + 128 = tCap.unit.base.ns.toNat * 64 + (0 : BitVec 6).toNat ∧
    (∀ k, k < capChans s0.unit → capTakes s0.unit k 0 3 false = false) := by decide

/-- Drip channel 7 set to one pulse of 100,000 ns at NS 4,112, and in the state given. -/
def tDrip (d : Drip) : State :=
  onUnit (dripPut 7 d) (ur (dripAddr 7 0x14) 100 (ur (dripAddr 7 0x10) 0 (ur (dripAddr 7 0x08) 4112 (ur (dripAddr 7 0x00) 0
    (ur 0x1405C 1000 s0)))))

theorem test_meets_CaptureAndDrip_arm : live (tDrip {}).unit.base = true ∧ (7 : BitVec 3).toNat < dripChans (tDrip {}).unit ∧
    dripRefusal (tDrip {}).unit 7 = 0 ∧ dripBit (tDrip {}).unit 7 1 = false ∧
    dripRefusal (ur (dripAddr 7 0x08) 4111 (tDrip {})).unit 7 ≠ 0 ∧ dripBusy (tDrip {}).unit 7 = false := by decide

theorem test_meets_CaptureAndDrip_window :
    let w := ur 0x14064 1 (ur (dripAddr 7 0x00) 2 (ur (dripAddr 7 0x08) 1000000000 (tDrip {})))
    dripBit w.unit 7 1 = true ∧ (∃ e, outWinEnd w.unit = some e ∧ e ≤ dripStart w.unit 7) ∧
    (∃ e, outWinEnd w.unit = some e ∧ ¬ inOutWindow w.unit 1000000000 100 = true) ∧ inOutWindow (tDrip {}).unit 4096 100 = true := by
  refine ⟨by decide, ⟨_, rfl, by decide⟩, ⟨_, rfl, by decide⟩, by decide⟩

theorem test_meets_CaptureAndDrip_same_tick :
    (∀ i, (dripGet (tDrip {}).unit 7).ttbArm ≠ some (s0.unit.base.tick, i)) ∧
    (dripGet (tDrip { st := .armed, ttbArm := some (tk, 5) }).unit 7).ttbArm = some (s0.unit.base.tick, 5) ∧
    dripBusy (tDrip { st := .armed, ttbArm := some (tk, 5) }).unit 7 = true := by
  refine ⟨?_, by decide, by decide⟩
  intro i h
  cases h

theorem test_meets_CaptureAndDrip_stop :
    dripBusy (tDrip { st := .armed, next := 4098 }).unit 7 = true ∧ (dripGet (tDrip { st := .armed }).unit 7).stop = none ∧
    (dripGet (tDrip { st := .armed, stop := some 4096, next := 4097 }).unit 7).stop = some 4096 ∧
    4096 = (tDrip {}).unit.base.ns.toNat ∧ 4096 < (dripGet (tDrip { st := .armed, stop := some 4096, next := 4097 }).unit 7).next := by
  decide

theorem test_meets_CaptureAndDrip_pulse :
    (dripGet (tDrip { st := .armed, next := 4096 }).unit 7).next ≤ s0.unit.base.ns.toNat ∧
    (∀ x, (dripGet (tDrip { st := .armed, next := 4096, stop := some 4096 }).unit 7).stop = some x → 4096 ≤ x) ∧
    dripBit (tDrip {}).unit 7 1 = false ∧ s0.unit.base.ns.toNat < (dripGet (tDrip { st := .armed, next := 4097 }).unit 7).next ∧
    (dripGet (tDrip { st := .running, active := true, endAt := 4096 }).unit 7).active = true ∧
    (dripGet (tDrip { st := .running, active := true, endAt := 4096 }).unit 7).endAt ≤ s0.unit.base.ns.toNat ∧
    s0.unit.base.ns.toNat < (dripGet (tDrip { st := .running, active := true, endAt := 4097 }).unit 7).endAt ∧
    dripPeriod (tDrip {}).unit 7 = 0 ∧ (dripGet (tDrip { stop := some 4000 }).unit 7).stop.isSome = true ∧
    dripPeriod (ur (dripAddr 7 0x10) 1000 (tDrip {})).unit 7 ≠ 0 ∧ dripCount (ur (dripAddr 7 0x18) 0 (tDrip {})).unit 7 = 0 :=
  ⟨by decide, of_some (x := 4096) (by decide) (by decide), by decide⟩

/-! ## States that meet the hypotheses: launch and combining -/

/-- A unit permitted galleries 0 to 511 with tokens, whose origin registers ask for launch 7 of gallery 300. -/
def tOrig : State :=
  ur 0x08080 0x10000000 (ur 0x08090 0x012C0007 (ur 0x14048 0x81FF0000 s0))

/-- The same launch in slot 0 of a unit. -/
def slotX (st : SlotSt) : Slot :=
  { gallery := 300, lid := 7, target := 0x10000000, mask := 1, tol := 0, epochLo := 0, origin := true, broadcast := false,
    st := st, domb := false, reqAt := 0 }
def tSlot (st : SlotSt) : State := onUnit (slotPut 0 (some (slotX st))) (ur 0x08048 tk tOrig)

theorem test_meets_LaunchOrigin : live tOrig.unit.base = true ∧ origRefusal tOrig (origRegs tOrig.unit.base) = 0 ∧
    origRefusal s0 (origRegs s0.unit.base) ≠ 0 ∧ accepts rq 0x10 s0 ∧ accepts rq 0x11 s0 ∧
    slotFind tOrig.unit (rdF tOrig.unit.base 0x08090 16 12) (rdF tOrig.unit.base 0x08090 0 16) = none ∧
    slotFind (tSlot .requested).unit (rdF tOrig.unit.base 0x08090 16 12) (rdF tOrig.unit.base 0x08090 0 16) =
      some (0, slotX .requested) ∧ (slotX .requested).st = .requested ∧ (slotX .requested).broadcast = false ∧
    domUsable (tSlot .requested).unit .a = false ∧ domUsable (tSlot .requested).unit .b = false ∧
    slotOf true (tSlot .requested).unit (300 : BitVec 12).toNat (7 : BitVec 16).toNat = some (0, slotX .requested) ∧
    (slotX .requested).reqAt + (rd (tSlot .requested).unit.base 0x08048).toNat = (tSlot .requested).unit.base.tick ∧
    s0.unit.launch.refillAt + rdF s0.unit.base 0x14050 8 24 ≤ s0.unit.base.tick := by decide

theorem test_meets_LaunchOrigin_otherwise :
    slotFind (tSlot .go).unit (rdF tOrig.unit.base 0x08090 16 12) (rdF tOrig.unit.base 0x08090 0 16) = some (0, slotX .go) ∧
    (slotX .armed).st = .armed ∧ (slotX .await).st = .await ∧ ({ slotX .requested with broadcast := true } : Slot).broadcast = true ∧
    (ur 0x08048 (tk + 1) tOrig).unit.base.tick < (slotX .requested).reqAt + (rd (ur 0x08048 (tk + 1) tOrig).unit.base 0x08048).toNat ∧
    slotOf true s0.unit (300 : BitVec 12).toNat (7 : BitVec 16).toNat = none ∧
    (let s := onUnit (onLaunch fun l => { l with refillAt := tk }) s0
     s.unit.base.tick < s.unit.launch.refillAt + rdF s.unit.base 0x14050 8 24) ∧ live (ph .unit .reset s0).unit.base = false ∧
    domUsable (lk pu .admitted 0 (tSlot .armed)).unit .a = true := by decide

theorem test_meets_LaunchAtMembers :
    let s := lk pu .admitted 0 (tSlot .armed)
    inOrder rxu s ∧ domUsable s.unit .a = true ∧ slotOf false s.unit (300 : BitVec 12).toNat (7 : BitVec 16).toNat = some (0, slotX .armed) ∧
    slotOf true s.unit (300 : BitVec 12).toNat (7 : BitVec 16).toNat = none ∧
    (slotX .armed).st = .armed ∧ (0x10000000 : BitVec 32).toNat = (slotX .armed).target % 2 ^ 32 ∧
    s.unit.base.ns.toNat + guard s.unit ≤ (slotX .armed).target ∧ live s.unit.base = true ∧ dueSlots s.unit = [] ∧
    s.unit.launch.recs = [] ∧ ({ s.unit.launch with recs := [1, 2] } : Launch).recs = 1 :: [2] := by decide

theorem test_meets_LaunchAtMembers_refused : (rxArm rxu (permDown rxu.port) 1 false ⟨0, 0, 0, 0, 0, 0, 0⟩ s0).1 = false ∧
    (rxSeq rxu (permDown rxu.port) [(0x09, goBody ⟨0, 0, 0, 0⟩)] s0).1 = false ∧
    (rxSeq rxu (permDown rxu.port) [(0x0A, abortBody ⟨0, 0, 0, 0⟩)] s0).1 = false ∧ domUsable s0.unit .a = false := by decide

theorem test_meets_LaunchAtMembers_guard :
    let s := onPartBase .unit (fun b => { b with ns := BitVec.ofNat 64 (0x10000000 + 1 - guard s0.unit) }) (tSlot .armed)
    (slotX .armed).target < s.unit.base.ns.toNat + guard s.unit ∧ (slotX .armed).st = .armed ∧ (slotX .go).st ≠ .armed ∧
    s0.unit.base.ns.toNat + guard s0.unit ≤ (slotX .armed).target ∧
    slotOf true (tSlot .requested).unit (300 : BitVec 12).toNat (7 : BitVec 16).toNat = some (0, slotX .requested) ∧
    slotOf false (tSlot .requested).unit (300 : BitVec 12).toNat (7 : BitVec 16).toNat = none ∧
    ({ slotX .requested with broadcast := true } : Slot).broadcast = true ∧ (slotX .requested).broadcast = false := by decide

/-- The same launch with its GO, on its target tick; and one that has fired. -/
def firedX (judged dead : Bool) : Fired :=
  { isLocal := false, gallery := 300, lid := 7, target := 4096, firedNs := 4095, tol := 0, regions := 1, tapInv := false,
    hold := false, domb := false, judged := judged, waiting := 0, late := 0, deadLogged := dead }

theorem test_meets_LaunchAtMembers_fire :
    let k := { slotX .go with target := 4096 }
    dueSlots (onUnit (slotPut 0 (some k)) s0).unit = [(0, k)] ∧
    (∀ f ∈ [firedX false false, firedX true false], f.judged = true ∨ s0.unit.base.ns.toNat < f.firedNs + 2) ∧
    (∀ f ∈ [firedX false false, firedX true true, firedX true false, { firedX true false with tol := 0xFFFF }],
      f.judged = false ∨ f.deadLogged = true ∨ f.tol = 0xFFFF ∨ s0.unit.base.ns.toNat < f.target + f.tol + 1) := by decide

/-- TTB.SEL names entry 1023, and the ENT registers a WAKE due at NS 4,160. -/
def tTtb : State := ur 0x09044 4160 (ur 0x0904C 3 (ur 0x09040 1023 s0))
def ttbE : TtbEnt := { due := 4160, kind := 3, st := .pending }

theorem test_meets_TimetableRuns : live tTtb.unit.base = true ∧ insertRefusal tTtb.unit (ttbSel tTtb.unit) (entRegs tTtb.unit.base) = 0 ∧
    insertRefusal (ur 0x09044 4159 tTtb).unit 1023 (entRegs (ur 0x09044 4159 tTtb).unit.base) ≠ 0 ∧ accepts rq 0x12 s0 ∧
    (ttbGet (onUnit (ttbPut 1023 { ttbE with due := 4161 }) tTtb).unit (ttbSel tTtb.unit)).st = .pending ∧
    stageNext (onUnit (ttbPut 1023 { ttbE with due := 4161 }) tTtb).unit = none ∧ (ttbGet tTtb.unit (ttbSel tTtb.unit)).st ≠ .pending ∧
    stageNext (onUnit (ttbPut 1023 ttbE) tTtb).unit = some (1023, ttbE) ∧ unitRuns tTtb ∧
    (∀ x ∈ (onUnit (ttbPut 1023 ttbE) tTtb).unit.launch.ttb, x.2.st ≠ .staged ∨ s0.unit.base.ns.toNat < x.2.actAt) := by decide

theorem test_meets_TimetableRuns_otherwise :
    (∃ e, stageNext (onUnit (ttbPut 1023 ttbE) tTtb).unit = some (ttbSel tTtb.unit, e)) ∧
    (onUnit (ttbPut 1023 { ttbE with st := .staged, actAt := 4096 }) tTtb).unit.launch.ttb =
      [(1023, { ttbE with st := .staged, actAt := 4096 })] ∧ 4096 = tTtb.unit.base.ns.toNat ∧
    live (ph .unit .reset s0).unit.base = false ∧ ttbSel tTtb.unit < ttbCap tTtb.unit :=
  ⟨⟨ttbE, by decide⟩, by decide⟩

/-- A launch context of gallery 300, launch 7, which this root decides. -/
def lctxX (target : Nat) : LCtx :=
  { gallery := 300, epochLo := 0, lid := 7, target := target, mask := 1, tol := 0, uid := 9, reports := [], sent := false, own := true }
def tLctx (target : Nat) : State := onDist (onCmb fun c => { c with lctxs := [lctxX target] }) dAdm
def rxUp : Rx := { port := .dist 128, lane := false, seq := 0 }

theorem test_meets_LaunchAtDistributors_up : inOrderAdmitted rxd 3 dAdm ∧ permUp rxd.port = true ∧ muted dAdm.dist = false ∧
    tabGet false 3 dAdm.dist.cmb.served = false ∧ isDown 3 = true ∧
    tabGet false 3 (onCmb (fun c => { c with served := [(3, true)] }) dAdm.dist).cmb.served = true ∧
    muted (dr 0x9064 0x20 dAdm).dist = true ∧ inOrderAdmitted rxd 3 (dr 0x9064 0x20 dAdm) := by decide

theorem test_meets_LaunchAtDistributors_down : inOrderAdmitted rxUp 128 (lk (.dist 128) .admitted 0 n0) ∧ permDown rxUp.port = true ∧
    128 = activeUp n0.dist ∧ muted n0.dist = false ∧ isDown 128 = false ∧ muted (dr 0x9064 0x20 n0).dist = true ∧
    inOrderAdmitted rxUp 128 (lk (.dist 128) .admitted 0 (dr 0x9064 0x20 n0)) ∧
    inOrderAdmitted ⟨.dist 129, false, 0, none⟩ 129 (lk (.dist 129) .admitted 0 n0) ∧ 129 ≠ activeUp n0.dist := by decide

theorem test_meets_LaunchAtDistributors_refused : (rxArm rxd (permUp rxd.port) 0 false ⟨0, 0, 0, 0, 0, 0, 0⟩ s0).1 = false ∧
    (rxArm rxd (permDown rxd.port) 1 false ⟨0, 0, 0, 0, 0, 0, 0⟩ dAdm).1 = false ∧
    (rxSeq rxd (permDown rxd.port) [(0x09, goBody ⟨0, 0, 0, 0⟩)] dAdm).1 = false ∧
    (rxSeq rxd (permDown rxd.port || permUp rxd.port) [(0x0A, abortBody ⟨0, 0, 0, 0⟩)] s0).1 = false := by decide

theorem test_meets_LaunchAtDistributors_cutoff : inOrderAdmitted rxd 3 (tLctx 4096) ∧
    lctxFind (tLctx (4096 + cutoff s0.dist)).dist (300 : BitVec 12).toNat (7 : BitVec 16).toNat = some (lctxX (4096 + cutoff s0.dist)) ∧
    isRoot (tLctx 0).dist = true ∧ (lctxX 0).own = true ∧
    s0.dist.base.ns.toNat + cutoff s0.dist = (lctxX (4096 + cutoff s0.dist)).target ∧
    (lctxX (4095 + cutoff s0.dist)).target < s0.dist.base.ns.toNat + cutoff s0.dist ∧ isRoot n0.dist = false ∧
    ({ lctxX 0 with own := false } : LCtx).own = false ∧ lctxFind s0.dist (300 : BitVec 12).toNat (7 : BitVec 16).toNat = none ∧
    (let d := onCmb (fun c => { c with reqTok := [(3, { tabGet {} 3 s0.dist.cmb.reqTok with at_ := tk })] }) s0.dist
     d.base.tick < (tabGet {} 3 d.cmb.reqTok).at_ + fld (rd d.base 0x0E048) 8 24 * 4) := by decide

/-- A unit that has joined gallery 300, its buffer 255 in the state given, its port A admitted. -/
def tPost (b : BufSt) : State :=
  onUnit (bufPut 255 { st := b, mask := 0xFF }) (ur (galCtlAddr 300) 1 (lk pu .admitted 0 (ur 0x14048 0x81FF0000 s0)))

theorem test_meets_CombiningAtUnits : accepts rq 0x0C (tPost .staging) ∧ (255 : BitVec 8).toNat < bufCap (tPost .staging).unit ∧
    (bufGet (tPost .staging).unit 255).st = .staging ∧ (bufGet (tPost .posted).unit 255).st = .posted ∧ accepts rq 0x0D (tPost .staging) ∧
    postRefusal (tPost .staging).unit ⟨300, 0, 0x01, 8, 255, 0, false, true, 5, 7, none⟩ = 0 ∧
    postRefusal (tPost .staging).unit ⟨301, 0, 0x01, 8, 255, 0, false, true, 5, 7, none⟩ ≠ 0 ∧ accepts rq 0x0E (tPost .staging) ∧
    inOrder rxu (tPost .staging) ∧ domUsable (tPost .staging).unit .a = true ∧ unitRuns (tPost .staging) ∧
    overdue s0.unit 300 = none ∧ galOps s0.unit (galSel s0.unit) = [] := by decide

theorem test_meets_CombiningAtUnits_otherwise : bufCap w0.unit ≤ (255 : BitVec 8).toNat ∧ accepts rq 0x0C w0 ∧
    (0x40 : BitVec 8).toNat % 64 = opBarrier ∧ (0x01 : BitVec 8).toNat % 64 ≠ opBarrier ∧
    (rxCmbDown rxu ⟨0, 0, 0⟩ 1 false 0 [] s0).1 = false ∧ (rxCommit rxu ⟨0, 0, 0⟩ s0).1 = false ∧
    domUsable s0.unit .a = false ∧ ¬ unitRuns (ph .unit .init s0) := by decide

theorem test_meets_CombiningAtUnits_settle : ∀ g, settleStep g s0 = none := fun _ => rfl

theorem test_meets_CombiningAtUnits_open :
    let o : CmbOp := { gallery := 0, gseq := 0, op := 1, buf := 0, sigSem := 0, sigEn := false, notify := false, core := 0, tag := 0,
                       bar := none, postedAt := 0, ctx := 0, copyA := none, copyB := none, commitA := false, commitB := false,
                       ready := none, abort := false, bufOwned := true }
    galOps (onUnit (onClient fun c => { c with ops := [o] }) s0).unit (galSel s0.unit) ≠ [] := by decide

theorem test_meets_CombiningAtDistributors : inOrderAdmitted rxd 3 dAdm ∧ permUp rxd.port = true ∧
    muted (dr 0x9064 0x20 dAdm).dist = true ∧ inOrderAdmitted rxd 3 (dr 0x9064 0x20 dAdm) ∧ isRoot n0.dist = false ∧
    inOrderAdmitted rxUp 128 (lk (.dist 128) .admitted 0 n0) ∧ muted n0.dist = false ∧ muted dAdm.dist = false ∧
    ctxFind dAdm.dist 300 0 = none ∧ permDown rxUp.port = true ∧
    inOrderAdmitted rxUp 128 (lk (.dist 128) .admitted 0 (dr 0x9064 0x20 n0)) ∧
    inOrderAdmitted ⟨.dist 129, false, 0, none⟩ 129 (lk (.dist 129) .admitted 0 n0) ∧ (129 : Fin 132) ≠ 128 := by decide

/-- The first frame of a result's group on port 128. -/
def rxPart : Rx := { rxUp with part := some (0, 1) }

theorem test_meets_CombiningAtDistributors_refused :
    (rxCmbUp rxd ⟨0, 0, 0⟩ 1 false [0] s0).1 = false ∧ (rxCommit rxUp ⟨0, 0, 0⟩ n0).1 = false ∧
    (rxSeq rxd (permUp rxd.port) [(0x0F, ackcmbBody 0 0 0 true)] s0).1 = false ∧
    (let r := rxCmbDown rxPart ⟨0, 0, 0⟩ 1 false 0 [7] (lk (.dist 128) .admitted 0 n0)
     r.1 = false ∧ rxPart.part.isSome = true ∧ admitted (distPort r.2.dist 128) = true ∧ muted r.2.dist = false) := by decide

/-- A distributor with 2,048 contexts that hold an accumulator set each. -/
def ctxX : CmbCtx :=
  { gallery := 300, gseq := 0, epochLo := 0, op := 1, known := true, members := [], cons := [], mixed := false, lostBelow := false,
    lostHere := false, openedAt := 0, dlFrom := 0, expired := false, acc := true, accWait := none, done := false, result := none,
    relayed := [], good := [], commit := false, rope := none }

theorem test_meets_CombiningAtDistributors_full :
    accUsed (onCmb (fun c => { c with ctxs := List.replicate 2048 ctxX }) dAdm.dist) = accPool := by
  show ((List.replicate 2048 ctxX).filter fun c => c.acc).length = 2048
  rw [List.filter_replicate]
  exact List.length_replicate

/-- The same context, its deadline not yet reached; and one whose result was relayed to port 3 on this tick. -/
def tCtx (c : CmbCtx) : DistState := onCmb (fun x => { x with ctxs := [c] }) dAdm.dist

theorem test_meets_CombiningAtDistributors_waits :
    (∀ c ∈ (tCtx ctxX).cmb.ctxs, c.accWait = none) ∧ substOverdue s0.dist 3 = [] ∧
    ctxFind (tCtx { ctxX with dlFrom := tk }) 300 0 = some { ctxX with dlFrom := tk } ∧
    s0.dist.base.tick < ({ ctxX with dlFrom := tk } : CmbCtx).dlFrom + toutTicks s0.dist 0x058 28 ∧
    ({ ctxX with done := true } : CmbCtx).done = true ∧ ({ ctxX with expired := true } : CmbCtx).expired = true ∧
    ctxHeld s0.dist 300 0 = none ∧ ctxHeld (tCtx { ctxX with relayed := [(3, tk)] }) 300 0 = some { ctxX with relayed := [(3, tk)] } ∧
    (∀ x ∈ ({ ctxX with relayed := [(3, tk)] } : CmbCtx).relayed, x.1 = 3 → s0.dist.base.tick < x.2 + toutTicks s0.dist 0x05C 18) ∧
    ({ ctxX with good := [3] } : CmbCtx).good.contains 3 = true := by decide

/-- The first frame of a RESULT record's group on a root's port 130. -/
def rxRopePart : Rx := { port := .dist 130, lane := false, seq := 0, part := some (0, 1) }

theorem test_meets_RopeRecordsAct_refused :
    let r := rxRope rxRopePart 0 (ropeHdrOf 0x83 2 ⟨300, 0, 0, 0⟩) (resultRecBody 1 ⟨0, 0, false, [7]⟩) (lk (.dist 130) .admitted 0 s0)
    r.1 = false ∧ isRope 130 = true ∧ isRoot r.2.dist = true ∧ admitted (distPort r.2.dist 130) = true ∧
    (rxRope rxd 0 (ropeHdrOf 0x84 1 ⟨300, 0, 0, 0⟩) [syncBody 0 true] dAdm).1 = false ∧ isRoot n0.dist = false ∧
    calFollows (onCal (fun c => { c with rxSeq := some 5 }) s0).dist 5 = false ∧ calFollows s0.dist 5 = true := by decide

theorem test_meets_RopeRecordsAct :
    let s := lk (.dist 130) .admitted 0 s0
    ropeNext ⟨.dist 130, false, 0, none⟩ ⟨300, 0, 0, 0⟩ s ∧ isRoot s.dist = true ∧ isLead s.dist = true ∧ s.dist.cal.rxSeq = none := by
  decide

/-! ## States that meet the hypotheses: references, PTP and registers -/

/-- REF2 in CLK_PPS, every monitor passing, in the state given; the root LOCKED, switching to it where `sw`. -/
def refX : RefSrc := { clk := true, pps := true, served := 4000, everDisq := true, last := some (tk - 1000010001) }
def tRef (sw : Bool) : State :=
  onSrc 2 (fun _ => refX) (onRoot (fun r => { r with meas := [0, 0] })
    (dr 0x2048 (if sw then 0xA2 else 0x02) (dr 0x7054 2 (dr (refReg 2 0x040) 1 s0))))

theorem test_meets_ReferencesRun_monitors : isRoot n0.dist = false ∧ rootRuns (tRef false) ∧ rdB (tRef false).dist.base 0x7054 1 = true ∧
    refMode (tRef false).dist (2 : BitVec 2).toNat = 1 ∧ (srcOf (tRef false) 2).last = some (tk - 1000010001) ∧
    tk - 1000010001 + 1000010000 < (tRef false).dist.base.tick ∧ (srcOf (tRef false) 3).last = none ∧
    (tRef false).dist.base.valid = true ∧ epochOnMark (tRef false).dist = false ∧
    rdB (tRef false).dist.base (refReg 2 0x040) 2 = false ∧ rdB (dr (refReg 2 0x040) 5 s0).dist.base (refReg 2 0x040) 2 ≠ false ∧
    refMode s0.dist 3 = 0 ∧ rdB (dr 0x7054 0 s0).dist.base 0x7054 1 = false ∧
    s0.dist.base.tick ≤ tk - 1000010000 + 1000010000 ∧ ¬ distRuns (ph .dist .init s0) := by decide

theorem test_meets_ReferencesRun_epoch_mark : epochOnMark (dr 0x2048 0x0A (dr 0x1050 0x00050004 (tRef false))).dist = true ∧
    selected (dr 0x2048 0x0A (dr 0x1050 0x00050004 (tRef false))).dist = 2 ∧ selected (dr 0x2048 0x0A (dr 0x1050 0x00050004 (tRef false))).dist ≠ 1 := by decide

theorem test_meets_ReferencesRun_qualified : (4 : BitVec 3).toNat ≤ 4 ∧ monitorsPass (tRef false).dist 2 = true ∧
    (srcOf (tRef false) 2).qual = false ∧ qualTime (tRef false).dist 2 ≤ (srcOf (tRef false) 2).served ∧
    (srcOf s0 2).served < qualTime s0.dist 2 ∧ (srcOf (tRef false) 2).everDisq = true ∧
    qualWtr (tRef false).dist 2 ≤ (srcOf (tRef false) 2).served ∧ 4 < (5 : BitVec 3).toNat ∧ monitorsPass s0.dist 2 = false ∧
    (srcOf (onSrc 2 (fun x => { x with qual := true }) s0) 2).qual = true ∧ (srcOf s0 2).everDisq = false ∧
    (srcOf s0 2).served < qualWtr s0.dist 2 := by decide

theorem test_meets_ReferencesRun_switch : switching (tRef false).dist = false ∧ switching (tRef true).dist = true ∧
    switchMarks (refMode (tRef true).dist (target (tRef true).dist)) = (tRef true).dist.root.meas.length ∧
    selState (tRef false).dist = 2 ∧ selState s0.dist ≠ 2 ∧
    (onRoot (fun r => { r with meas := [] }) (tRef true)).dist.root.meas.length <
      switchMarks (refMode (tRef true).dist (target (tRef true).dist)) := by decide

theorem test_meets_ReferencesRun_pulses :
    let f := onPartBase .dist (fun b => { b with ns := 0 }) (dr 0x0E040 4 s0)
    secondMark s0.dist = false ∧ distRuns f ∧ f.dist.base.valid = true ∧ rdB f.dist.base 0x0E040 2 = true ∧
    f.dist.base.ns.toNat % (4 * rdF f.dist.base 0x106C 0 16) = 0 ∧ rdB (dr 0x0E040 0 s0).dist.base 0x0E040 2 = false ∧
    ({ s0.dist.root with ppsEnd := some tk } : Root).ppsEnd = some tk ∧ tk ≤ s0.dist.base.tick ∧ s0.dist.root.ppsEnd = none ∧
    ({ s0.dist.root with frmEnd := some tk } : Root).frmEnd = some tk ∧
    (ns .dist 4 (dr 0x0E040 4 s0)).dist.base.ns.toNat % (4 * rdF (dr 0x0E040 4 s0).dist.base 0x106C 0 16) ≠ 0 ∧
    ({ s0.dist.root with secAt := some tk } : Root).secAt = some s0.dist.base.tick ∧ live s0.dist.base = true ∧
    s0.dist.base.phase ≠ .stopped ∧ live (ph .dist .init s0).dist.base = true := by
  decide

theorem test_meets_ReferencesRun_epoch :
    let s := onRoot (fun r => { r with armAt := some (tk - 1000) }) (dr 0x1050 0x00050004 s0)
    rootRuns s ∧ rdB s.dist.base 0x1050 2 = true ∧ s.dist.root.armAt = some (tk - 1000) ∧ tk - 1000 + 1000 = s.dist.base.tick ∧
    rdB s0.dist.base 0x1050 2 = false ∧
    s0.dist.base.tick < tk - 999 + 1000 ∧ (tRef false).dist.root.armAt = none ∧ selected (tRef false).dist ≠ 7 ∧
    s0.dist.root.armAt = none ∧ selected s0.dist = 7 := by decide

theorem test_meets_ReferencesRun_cal :
    let c := fun (s : State) => onRoot (fun r => { r with secs := rdF s0.dist.base 0x12040 0 12 }) s
    (c s0).dist.cal.lastAt + rdF (c s0).dist.base 0x12040 0 12 = (c s0).dist.root.secs ∧ isRoot (c s0).dist = true ∧
    (c n0).dist.cal.lastAt + rdF (c n0).dist.base 0x12040 0 12 = (c n0).dist.root.secs ∧ isRoot (c n0).dist = false ∧
    distRuns n0 ∧ s0.dist.root.secs < s0.dist.cal.lastAt + rdF s0.dist.base 0x12040 0 12 := by decide

/-- A root whose PTP slave is enabled and follows master 9 port 1, with a two-step Sync and a Delay_Req in flight. -/
def tPtp : State :=
  onPtp (fun p => { p with sel := some (9, 1), sync := some (4, 100, 0), t21 := some 65536, dreq := some (4, 200) })
    (dr 0x8054 0x12345678 (dr 0x8040 1 s0))
def hdr (log : BitVec 8) (domain : BitVec 8) : PtpHdr :=
  { l2 := rdB s0.dist.base 0x8048 12, domain := domain, src := 9, port := 1, seq := 4, log := log, corr := 0 }

theorem test_meets_PtpSlave : ptpEn s0.dist = false ∧ rootRuns tPtp ∧ ptpEn tPtp.dist = true ∧
    (hdr 0 0x7F).domain.toNat ≠ ptpDomain tPtp.dist ∧ (hdr 0 (BitVec.ofNat 8 (ptpDomain tPtp.dist))).domain.toNat = ptpDomain tPtp.dist ∧
    fromMaster tPtp.dist (hdr 0 0) = true ∧ -7 = (hdr 0xF9 0).log.toInt ∧ (hdr 1 0).log.toInt = 1 ∧
    tPtp.dist.ptp.sync = some ((hdr 0 0).seq, 100, 0) ∧ tPtp.dist.ptp.dreq = some ((hdr 0 0).seq, 200) ∧
    tPtp.dist.ptp.t21 = some 65536 ∧ fromMaster s0.dist (hdr 0 0) = false ∧ tPtp.dist.ptp.sel.isSome = true ∧
    ptpMac tPtp.dist ≠ 0 ∧ tPtp.dist.ptp.dreqAt = none ∧ s0.dist.ptp.sel = none ∧ rd tPtp.dist.base 0x8044 = rd s0.dist.base 0x8044 ∧
    (1 : BitVec 32) ≠ rd s0.dist.base 0x8044 ∧ ptpMac s0.dist = 0 := by decide

theorem test_meets_PtpSlave_frames :
    (hdr 0 0).l2 = rdB tPtp.dist.base 0x8048 12 ∧ ({ hdr 0 0 with l2 := !(hdr 0 0).l2 } : PtpHdr).l2 ≠ rdB tPtp.dist.base 0x8048 12 ∧
    (hdr 0 0).vlan = (if rdB tPtp.dist.base 0x8048 15 then some (BitVec.ofNat 12 (rdF tPtp.dist.base 0x8048 16 12)) else none) ∧
    ({ hdr 0 0 with vlan := some 5 } : PtpHdr).vlan ≠
      (if rdB tPtp.dist.base 0x8048 15 then some (BitVec.ofNat 12 (rdF tPtp.dist.base 0x8048 16 12)) else none) ∧
    (let s := dr 0x8048 0x00058000 tPtp
     some 5 = (if rdB s.dist.base 0x8048 15 then some (BitVec.ofNat 12 (rdF s.dist.base 0x8048 16 12)) else none)) ∧
    (hdr 0xF8 0).log.toInt < -7 ∧ 1 < (hdr 2 0).log.toInt ∧
    (∀ q t2 c, s0.dist.ptp.sync = some (q, t2, c) → q ≠ (hdr 0 0).seq) ∧ (∀ q t3, s0.dist.ptp.dreq = some (q, t3) → q ≠ (hdr 0 0).seq) ∧
    s0.dist.base.tick < tk - logTicks 0 + 1 + logTicks s0.dist.ptp.dreqLog :=
  ⟨by decide, by decide, by decide, by decide, by decide, by decide, by decide, (fun _ _ _ h => nomatch h), (fun _ _ h => nomatch h),
   by decide⟩

theorem test_meets_RegistersAnswer : chExists s0 .dist 2 = false ∧ chExists w0 .unit 4 = false ∧ chExists s0 .unit 7 = true ∧
    live (partBase s0 .unit) = true ∧ (0x02042 : BitVec 22).toNat % 4 ≠ 0 ∧ accessCode s0 .unit 7 0x02040 false = 0 ∧
    accessCode s0 .unit 7 0x02040 true = 0 ∧ accessCode s0 .dist 1 0x01050 true = 0 ∧
    accessCode s0 .unit 7 (pageAddr 0x0A 0x020) false = 0 ∧ pageWindow (partBase s0 .unit).kind 0x0A = false ∧
    rd (partBase s0 .unit) (pageAddr 0x0A 0x020) = 0 ∧ accessCode s0 .dist 0 (pageAddr 0x0B 0x020) false = 0 ∧
    rootOnly 0x0B = false ∧ live (partBase (ph .dist .unpowered s0) .dist) = false ∧ accessCode s0 .unit 7 0x17000 false ≠ 0 ∧
    accessCode s0 .unit 7 0x17000 true ≠ 0 ∧ bitOf (rd (ur (pageAddr 0x0B 0x020) 0x80000000 s0).unit.base (pageAddr 0x0B 0x020)) 31 = true ∧
    (0x0A ≠ 0x0A ∨ (cfgOf s0.unit.base).w64 = false) ∧ s0.dist.adm.smb = none ∧ ({ s0.dist.adm with smb := some (5, 0) } : DistAdm).smb = some (5, 0) := by decide

theorem s0_inv : s0.Inv := ⟨⟨by decide, by decide, by decide⟩, ⟨by decide, by decide, by decide⟩⟩

theorem test_meets_ClosedWindowDenies : s0.Inv ∧ chExists s0 .unit 0 = true ∧ unitRuns s0 ∧ windowOpen s0.unit.base = false ∧
    chExists s0 .dist 1 = true ∧ distRuns s0 ∧ windowOpen s0.dist.base = false ∧
    carriesPrw [prwR 0 10 1 500] (rd s0.unit.base 0x14044) (mergeBytes 0xF (rd s0.unit.base 0x14044) 7) = true ∧
    carriesPrw [prwR 0 10 1 500] (rd s0.dist.base 0x0E044) (mergeBytes 0xF (rd s0.dist.base 0x0E044) 7) = true :=
  ⟨s0_inv, by decide⟩

/-! ## The spec's worked examples -/

/-- The state after a command. -/
def nx (c : Instr) (s : State) : State := match exec c s with
  | .next t => t
  | _ => s

/-- CODE, OBJ and AUX of a part's newest log entry. -/
def newest (b : Base) : Option (BitVec 12 × BitVec 16 × BitVec 8) := b.log.getLast?.map fun e => (e.code, e.obj, e.aux)

/-- R20: extension of HT48 0xFFFF_FFFF_FFC0 at NS 0x0002_0000_0000_0040. -/
theorem test_extend48 : extend48 { s0.unit.base with ns := 0x0002000000000040 } 0xFFFFFFFFFFC0 = 0x0001FFFFFFFFFFC0 := by decide

/-- R78: with D 60 ns and slack 8 the retry timer is 44 frame cycles, 176 ns. -/
theorem test_retry_period : retryPeriod (onPort pd (fun lp => { lp with time := { lp.time with
    act := { lp.time.act with doneAt := some 0, dly := 60 * 64 } } }) dAdm) pd = 176 := by decide

/-- R94, R95: the exchange of the Echo example, for which d is 9.375 ns and θ −0.3125 ns. -/
def echoEx : State := ns .unit 7340108 (onPort pu (fun lp => { lp with time := { lp.time with
  spare := { lp.time.spare with outs := [⟨3, 7340032 * 64, tk⟩] } } }) (ur 0x03064 128 uAdm))

theorem test_echo_example :
    (getPort (nx (.echoRspRx ⟨pu, false⟩ true 3 0x1C00024C 3712 48 0 0) echoEx) pu).time.spare.dly = 600 ∧
    (getPort (nx (.echoRspRx ⟨pu, false⟩ true 3 0x1C00024C 3712 48 0 0) echoEx) pu).time.spare.ofs = -20 := by decide

/-- R268, R269, R291: words of requests on input lane 2, CTX_LO 3, REPLY 5, TAG 7, bit by bit from the tables. -/
def rqw : Req := { lane := 2, ctxLo := 3, reply := 5, tag := 7, ack := false }

theorem test_request_words :
    decodeRequest 2 0x04C05078123400000000000000000001 = .semAdd { rqw with ack := true } 0x1234 1 ∧
    decodeRequest 2 0x10C05074FFFF00000000006400000002 = .semWait rqw true 0xFFFF 100 2 ∧
    decodeRequest 2 0x20C05070090000000000000000000000 = .barEnter rqw 9 ∧
    decodeRequest 2 0x28C0507003FF00000000000000000005 = .flwProd rqw 1023 5 ∧
    decodeRequest 2 0x34C05070FF12C0180102030480000000 = .cmbPost rqw 0xFF 0x12C 0x01 8 0x0102 0x0304 true false ∧
    decodeRequest 2 0xFCC05070000000000000000000000000 = .msgBadOp rqw 0x3F := by decide

theorem test_request_words_launch :
    decodeRequest 2 0x40C05070000712C0FFFF000010000000 = .launchOrigStart (some ⟨rqw, 7, 0x12C, 0xFFFF, 0x10000000⟩) ∧
    decodeRequest 2 0x48C05070FFDA00000005000000001040 = .ttbInsertCmd (some ⟨rqw, 1023, 3, 4, 5, 4160⟩) ∧
    decodeRequest 2 0x14C05070123430600000000000000000 = .wchCancel rqw 0x1234 3 0x018 0 := by decide

/-- R170: handover to domain B with θB −15 and a snapshot of +16 (units of 2^-6 ns): HOFS_B is +0.25 ns. -/
def handEx : State := onServo .unit (fun v => 
  { v with th1 := -15, pend := some ⟨true, true, 0, some 256, true⟩ }) (setSts .unit 5 true (ur 0x2040 1 tMove))

theorem test_handover_example : rd (nx (.handover .unit) handEx).unit.base 0x02084 = 0x00000100 ∧
    stsBit (nx (.handover .unit) handEx) .unit 4 = true ∧ rd (nx (.handover .unit) handEx).unit.base 0x02080 = 0 := by decide

/-- R201: region 17's W rises by one unit of 2^-6 ns at one update. -/
theorem test_tap_delay_step :
    (tapGet (nx (.tapDelayUpdate 17 224) (tTap { locked := true, applied := 110 })).unit 17).applied = 111 ∧
    (tapGet (nx (.tapDelayUpdate 17 220) (tTap { locked := true, applied := 110 })).unit 17).applied = 110 := by decide

/-- R198, R201: region 17's k and delay line, at W 1.71875 ns and 1.75 ns. -/
theorem test_tap_lead : ({ applied := 110 } : Tap).lead = 2 ∧ ({ applied := 110 } : Tap).line = 18 ∧
    ({ applied := 112 } : Tap).lead = 2 ∧ ({ applied := 112 } : Tap).line = 16 := by decide

/-- R249: the fire count of a region leaves in reflected Gray code. -/
theorem test_lfire_gray : ((List.range 9).map fun n => ({ fires := BitVec.ofNat 8 n } : Tap).lfire.toNat) =
    [0, 1, 3, 2, 6, 7, 5, 4, 12] := by decide

/-- R68, R70: an ARM whose first payload frame comes with it, the second after a reserved frame; and one cut off by a header. -/
def armPart (part : Nat × Nat) (seq : BitVec 8) : Instr := .armRequestRx ⟨pd, false, seq, some part⟩ ⟨300, 0, 0, 1, 7, 0, 9⟩

set_option maxRecDepth 4000 in
theorem test_group_in_parts :
    let s := nx (armPart (2, 1) 3) (nx (.reservedTypeFrameRx ⟨pd, false, 2, none⟩ 0x34 0) (nx (armPart (0, 2) 0) dAdm))
    (getPort s pd).arq.rxExp = 4 ∧ (getPort s pd).arq.opened = [] ∧ (getPort s pd).cnt.unexpected = 0 ∧
    (getPort s pd).cnt.unknown = 1 := by decide

set_option maxRecDepth 4000 in
theorem test_group_cut_off :
    let s := nx (.armRequestRx ⟨pd, false, 2, none⟩ ⟨300, 0, 0, 1, 7, 0, 9⟩) (nx (armPart (0, 2) 0) dAdm)
    (getPort s pd).arq.rxExp = 5 ∧ (getPort s pd).cnt.unexpected = 1 ∧ (getPort s pd).arq.opened = [] := by decide

/-- R224: a write to the PERIOD of a channel that is ARMED has no effect and logs DRIP_BUSY. -/
theorem test_drip_busy :
    let s := nx (.registerWrite .unit 0 (BitVec.ofNat 22 (dripAddr 7 0x10)) 0xF 5000) (tDrip { st := .armed, next := 1000000 })
    rd s.unit.base (dripAddr 7 0x10) = 0 ∧ newest s.unit.base = some (0x1C1, 7, 0) := by decide

/-- R216, R217: the unit of the capture example: channel 2 takes rising edges of CAPIN3. -/
def capEx : State := ns .unit 25000000000 (ur (capCtlAddr 2) 0x80000003 s0)

set_option maxRecDepth 8000 in
theorem test_capture_record :
    (nx (.captureEdge 0 3 false 23) capEx).unit.cap.flight.map (fun r => (capBits r false, r.at_)) =
      [(0x0005D21DBA005C82, tk + 96)] := by decide

/-- R224: a Drip pulse of 100,000 ns that starts on a second mark ends WIDTH later. -/
theorem test_drip_pulse :
    let s := ns .unit 1000000000 (ur (dripAddr 7 0x14) 100000 (ur (dripAddr 7 0x10) 1000000000
      (tDrip { st := .armed, next := 1000000000 })))
    (dripGet (nx (.dripPulseStart 7) s).unit 7).endAt = 1000100000 := by decide

/-- R247, R248: at NS 100,001,560 a GO for target 100,010,000 is accepted with GUARD 2,000, and the guard stands until
100,008,000. -/
def lchEx (now : Nat) : State := ns .unit now (ur 0x08040 2000 (onUnit (slotPut 0 (some
  { slotX .armed with gallery := 37, lid := 0x0412, target := 100010000 })) uAdm))

theorem test_launch_go :
    (slotGet (nx (.goRx rxu ⟨37, 2, 0x0412, 100010000⟩) (lchEx 100001560)).unit 0).map (·.st) = some .go ∧
    (slotGet (nx (.goRx rxu ⟨37, 2, 0x0412, 100010000⟩) (lchEx 100008000)).unit 0).map (·.st) = some .go ∧
    (slotGet (nx (.goRx rxu ⟨37, 2, 0x0412, 100010000⟩) (lchEx 100008001)).unit 0).map (·.st) ≠ some .go := by decide

/-- R271, R281, R282: the signal of the semaphore example releases core 12, the take, and core 7, the peek. -/
def semEx : State := onUnit (fun u => { u with sems := { u.sems with waits :=
    [{ sem := 0x1234, take := true, n := 1, core := 12, tag := 0x21, tout := none, since := 0 },
     { sem := 0x1234, take := true, n := 2, core := 40, tag := 0x22, tout := none, since := 0 },
     { sem := 0x1234, take := false, n := 1, core := 7, tag := 0x23, tout := none, since := 0 }] } })
  (ns .unit 0x100001002 (ur 0x15044 3 s0))

theorem test_release_bits : (nx (.semAdd { rq with ctxLo := 3 } 0x1234 1) semEx).unit.sems.outQ.map (·.bits) =
    [0x88C0C210123408000000100200000000, 0x88C07230123400000000100200000001] := by decide

theorem test_release_queue : (semGet (nx (.semAdd { rq with ctxLo := 3 } 0x1234 1) semEx).unit 0x1234).v = 0 ∧
    (nx (.semAdd { rq with ctxLo := 3 } 0x1234 1) semEx).unit.sems.waits.map (·.core) = [40] := by decide

/-- R320 to R323: barrier 9 of the example, in a W64L unit, when core 3 enters. -/
def ba (n : Nat) : BarEnt := { tag := n, at_ := tk }
def barEx (held : Option BarEnt) : State :=
  onUnit (barPut 9 { st := .opened, expect := 4, round := 41, mems :=
    [(0, { cur := some (ba 0) }), (1, { cur := some (ba 1), next := some (ba 2), held := held }), (2, { cur := some (ba 4) })] })
    (ur (objAddr 9 0x0C100) 0xF (ur (barCtlAddr 9) 1 w0))

set_option maxRecDepth 8000 in
theorem test_barrier_round :
    let x := barGet (nx (.barEnter { rq with reply := 3 } 9) (barEx (some (ba 3)))).unit 9
    x.round = 42 ∧ x.sense = true ∧ (List.range 4).map (fun c => memCode (memGet x c)) = [0, 2, 0, 0] := by decide

theorem test_barrier_lap :
    memCode (memGet (barGet (nx (.barEnter { rq with reply := 1 } 9) (barEx none)).unit 9) 1) = 3 ∧
    newest (nx (.barEnter { rq with reply := 1 } 9) (barEx none)).unit.base = some (0x300, 9, 0) := by decide

/-- R340 to R342: signals A and B of the fence example, and its reports. -/
def fncEx (drained : BitVec 32) (held : List FncSig) : State :=
  onUnit (onFnc fun f => { f with held := held }) (onUnit (fncPut 0 (some { fncX with drained := drained })) s0)
def fncA : FncSig := { pair := 0, src := 0x0A07, tag := 0x0015, wcount := 3, sem := 0x0200, amount := 1, at_ := tk, logged := false }

theorem test_fence_held : (nx (.fenceSignal 0x0A07 0x0015 3 0x0200 1) (fncEx 0xFFFFFFFE [])).unit.fnc.held = [fncA] ∧
    (nx (.drainReport 0x0A07 0x0015 3) (fncEx 0xFFFFFFFE [fncA])).unit.fnc.held = [fncA] := by decide

theorem test_fence_covered :
    (semGet (nx (.fenceSignal 0x0A07 0x0015 1 0x0200 1) (fncEx 1 [fncA])).unit 0x0200).v = 1 ∧
    (semGet (nx (.drainReport 0x0A07 0x0015 2) (fncEx 1 [fncA])).unit 0x0200).v = 1 ∧
    (nx (.drainReport 0x0A07 0x0015 2) (fncEx 1 [fncA])).unit.fnc.held = [] := by decide

/- R391 to R393: the XSUM_F32 lane of gallery 12, and R389: the two arrival orders under FSUM_F32. -/
set_option maxRecDepth 8000 in
theorem test_xsum_lane :
    accWindow 0x28 (accAdd (accAdd (accOf 0x28 0x4B800000) (accOf 0x28 0x3F800000)) (accOf 0x28 0x3F800000)) = 0x0096000000800001 ∧
    accRound 0x28 (accAdd (accAdd (accOf 0x28 0x4B800000) (accOf 0x28 0x3F800000)) (accOf 0x28 0x3F800000)) = 0x4B800001 := by decide

set_option maxRecDepth 8000 in
theorem test_fsum_orders : fastSum fF32 [0x4B800000, 0x3F800000, 0x3F800000] = 0x4B800000 ∧
    fastSum fF32 [0x3F800000, 0x3F800000, 0x4B800000] = 0x4B800001 := by decide

/-- R403 to R407: the key forms from DET_CTL at release. -/
theorem test_dkey :
    rd (nx .unitResetRelease (ph .unit .reset (ur 0x00064 0x5A s0))).unit.base 0x00060 = 0x0110005A ∧
    rd (nx (.distResetRelease true false 0 0) (ph .dist .reset (dr 0x00064 0x15A s0))).dist.base 0x00060 = 0x0110805A := by decide

/-- R424 to R429: the assignments of the event controller's example, at T + 1 and at T + 31, and the claim at T + 45. -/
def evcEx (l : List Nat) : Base :=
  l.foldl (fun b n => srcSet n { pend := true, count := 1 } b)
    (setStack 0 [{ src := 140, grp := 5 }] (ur 0x10040 4 (ur 0x10814 0x00100212 (ur 0x104C8 0x00100331 (ur 0x10500 0x00100330
      (ur 0x10104 0 (ur 0x10108 0 (ur 0x10120 0 (ur 0x10320 0 (ur 0x10330 0 (ur 0x10340 0 (ur 0x10350 0 (ur 0x10360 0
        (ur 0x10370 0 s0))))))))))))).unit.base)

theorem test_evc_assignment : assignSrcs (evcEx [64, 50]) (pendingOrder (evcEx [64, 50])) [0, 1] = [1, 0] ∧
    pendingOrder (evcEx [64, 50, 261]) = [261, 64, 50] ∧
    assignSrcs (evcEx [64, 50, 261]) (pendingOrder (evcEx [64, 50, 261])) [0, 1] = [1, 0] := by decide

theorem test_evc_claims : claimable (evcEx [64, 50, 261]) 1 = some 261 ∧ claimable (evcEx [64, 50]) 0 = some 64 := by decide

/-- R438: group 5's timer ends with two occurrences held: COUNT becomes 3 and the timer starts again. -/
def holdEx : State := onPartBase .unit (srcSet 128 { pend := true, count := 1, held := 2 })
  (ur 0x10600 0x00050000 (ur 0x10630 0x00100000 (tMod true)))

theorem test_moderation : (srcGet (nx (.holdoffExpiry .unit 5) holdEx).unit.base 128).count = 3 ∧
    (grpGet (nx (.holdoffExpiry .unit 5) holdEx).unit.base 5).startedAt = tk := by decide

/-- R505 to R513: window 7 of the presence example, at the distributor and at the unit. -/
theorem test_presence_press :
    let s := ns .dist 5000000000000 (dr 0x0D064 6 (dr 0x0D040 120 n0))
    (nx .presencePress s).dist.base.window = some 5120000000000 ∧ rdF (nx .presencePress s).dist.base 0x0D064 0 16 = 7 := by decide

theorem test_presence_unit :
    let t := nx (.presenceRx rxu 0x04A817C80000 7) (ns .unit 5000000000012 uAdm)
    t.unit.base.window = some 5120000000000 ∧ rd t.unit.base 0x1406C = 0x17C80000 ∧ rd t.unit.base 0x14070 = 0x000004A8 := by decide

/-- The protected writes of the same example: LIM.STEER inside the window, LIM.OUT_WIN_END after it. -/
def openU (now : Nat) : State :=
  onPartBase .unit (fun b => { b with window := some 5120000000000 }) (ns .unit now s0)

theorem test_prw_write :
    rd (nx (.registerWrite .unit 0 0x14044 0xF 50) (openU 5030000000000)).unit.base 0x14044 = 50 ∧
    newest (nx (.registerWrite .unit 0 0x14044 0xF 50) (openU 5030000000000)).unit.base = some (0x502, 0x14, 0x11) := by decide

theorem test_presence_denied :
    (newest (nx (.registerWrite .unit 0 0x14064 0xF 50) (openU 5121000000000)).unit.base).map (·.1) = some 0x4C0 ∧
    rd (nx (.registerWrite .unit 0 0x14064 0xF 50) (openU 5121000000000)).unit.base 0x14064 = rd s0.unit.base 0x14064 := by decide

/-- R562 to R564: two channels read SEM.PAGE_LOCK, and the holder names its owner. -/
def lock1 : State := nx (.pageLockRead .unit 0 0x0A) s0

theorem test_page_lock : (nx (.pageLockRead .unit 2 0x0A) lock1).unit.base.outs =
    [.regData .unit 0 0x00000000 0, .regData .unit 2 0x80000000 0] := by decide

theorem test_page_lock_sts : regValue (nx (.registerWrite .unit 0 0x0A020 0xF 0x80000003) lock1) .unit 0x0A 0x00C = 0x20000000 ∧
    rd (nx (.registerWrite .unit 0 0x0A020 0xF 0x80000003) lock1).unit.base 0x0A020 = 0x80000003 := by decide

/-- R592, R593: the GO of the trace example becomes entry 3 and triggers. -/
def traceEx : State := ur 0x16048 0x49 (ur 0x16044 0x700 (ur 0x16040 0x404B { uAdm with unit := { uAdm.unit with dbg :=
  { uAdm.unit.dbg with running := true, held := [0, 0, 0] } } }))

theorem test_trace_trigger :
    let t := nx (.goRx rxu ⟨37, 2, 0x0412, 100010000⟩) traceEx
    t.unit.dbg.held.length = 4 ∧ t.unit.dbg.trig = true ∧ t.unit.dbg.trigIdx = 3 := by decide

/-- R24, R599, R603: the epoch of the example, armed inside a window, taken on the second mark, and refused after it. -/
def epEx (w : BitVec 64) (ctl : Word) : State :=
  onPartBase .dist (fun b => { b with window := some w, ns := 4999999000 })
    (dr 0x0104C 2 (dr 0x01054 0x2A05F200 (dr 0x01058 1 (dr 0x01050 ctl s0))))

theorem test_epoch_armed : rd (nx (.epochArm 0 3) (epEx 5000000000 0x00020000)).dist.base 0x01050 = 0x00030004 ∧
    rdF (nx (.epochArm 0 3) (epEx 5000000000 0x00020000)).dist.base 0x0104C 0 16 = 2 := by decide

theorem test_epoch_refused :
    let t := nx (.epochArm 0 3) (epEx 4999999000 0x00020000)
    t.dist.base.log.map (fun e => (e.code, e.aux)) = [(0x040, 1), (0x400, 0x14)] ∧
    rdF t.dist.base 0x01050 16 16 = 2 := by decide

theorem test_epoch_taken :
    let t := nx (.epochApply 0) (onRoot (fun r => { r with armAt := some (tk - 1000) }) (epEx 0 0x00030004))
    t.dist.base.ns = 5000000000 ∧ rd t.dist.base 0x01050 = 0x00030002 ∧ rdF t.dist.base 0x0104C 0 16 = 3 ∧
    rd64 t.dist.base 0x0105C = 0x000000012A05F200 := by decide

/-- R466, R472, R478: port 17 of the health example. -/
def hltEx : State := onPort (.dist 17) (fun lp => { lp with hlth := { lp.hlth with score := 160, warn := true } })
  (lk (.dist 17) .admitted 0 s0)

theorem test_health_registers : regValue hltEx .dist 0x111 0x00C = 0x0000001B ∧ regValue hltEx .dist 0x111 0x06C = 0x000001A0 := by
  decide

theorem test_health_vote :
    regValue (nx (.healthRx ⟨.dist 17, false, 0, none⟩ 5 false 0x20 0 (44 * 256)) hltEx) .dist 0x111 0x080 = 0x80002C00 := by decide

/-- R535: the slot of port 127 opens 25,400 µs after the slot of port 0, each 200 µs after the one before. -/
theorem test_admission_slots :
    let s := onDist (onAdm fun a => { a with slot := 126, slotAt := some (tk - 200000), lockedOnce := true }) n0
    (nx .admissionSlot s).dist.adm.slot = 127 ∧ (nx .admissionSlot s).dist.adm.slotAt = some tk ∧ 127 * 200 = 25400 := by decide

end Sys2Proof.Tests
end

section
/-! PROOFS. The event controller: PEND_SET_w (R447) and end of interrupt (R435). -/

namespace Sys2Proof.Proofs

open Sys2Proof Sys2Proof.Machine

/-! ## The base of one part -/

/-- Two changes that agree on the base of the part give the same machine. -/
theorem onPartBase_congr {p : Part} {f g : Base → Base} {s : State} (h : f (partBase s p) = g (partBase s p)) :
    onPartBase p f s = onPartBase p g s := by
  cases p with
  | unit => exact congrArg (fun b => { s with unit := { s.unit with base := b } }) h
  | dist => exact congrArg (fun b => { s with dist := { s.dist with base := b } }) h

/-- A change that leaves the base of its part as it is leaves the machine as it is. -/
theorem onPartBase_eq_self {p : Part} {f : Base → Base} {s : State} (h : f (partBase s p) = partBase s p) :
    onPartBase p f s = s := by
  have hid : onPartBase p id s = s := by cases p <;> rfl
  exact (onPartBase_congr (g := id) h).trans hid

/-! ## PEND_SET_w (R447) -/

/-- A pass over the bits `0` to `n - 1` whose step does nothing but at bit `i` is the step at `i`. -/
theorem foldl_range_eq_step {α : Type} {f : α → Nat → α} {n i : Nat} (hi : i < n) (h : ∀ a j, j ≠ i → f a j = a)
    (a : α) : (List.range n).foldl f a = f a i := by
  induction n with
  | zero => omega
  | succ n ih =>
    rw [List.range_succ, List.foldl_append, List.foldl_cons, List.foldl_nil]
    by_cases hin : i = n
    · have hstep : ∀ a, ∀ j ∈ List.range n, f a j = a := fun a j hj => h a j (hin ▸ (List.mem_range.mp hj).ne)
      have hlow : (List.range n).foldl f a = a := (List.foldl_ext f (fun a _ => a) a hstep).trans (List.foldl_fixed _)
      rw [hlow, hin]
    · have hlt : i < n := by omega
      rw [ih hlt, h _ n (Ne.symm hin)]

/-- The word with bit `i` alone, all its bytes enabled, has bit `i` alone. -/
theorem testBit_single_all_bytes {i : Nat} (hi : i < 32) (j : Nat) :
    ((BitVec.ofNat 32 (2 ^ i)).toNat &&& beMask 0xF).testBit j = decide (i = j) := by
  have hall : beMask 0xF = 2 ^ 32 - 1 := by decide
  have hlt : 2 ^ i < 2 ^ 32 := Nat.pow_lt_pow_right (by omega) hi
  rw [hall, Nat.and_two_pow_sub_one_eq_mod, BitVec.toNat_ofNat, Nat.mod_mod, Nat.mod_eq_of_lt hlt, Nat.testBit_two_pow]

/-- A write of 1 to bit `i` alone: an occurrence where source `32w + i` is a pulse source of the part, else nothing. -/
theorem pendSetOp_single {w i : Nat} (hi : i < 32) (b : Base) :
    pendSetOp w 0xF (BitVec.ofNat 32 (2 ^ i)) b =
      if (srcExists b (32 * w + i) && !srcLevel b (32 * w + i)) = true then occur (32 * w + i) b else b := by
  unfold pendSetOp
  rw [foldl_range_eq_step hi]
  · simp only [testBit_single_all_bytes hi, decide_true, Bool.true_and]
  · intro b j hj
    simp only [testBit_single_all_bytes hi, decide_eq_false (Ne.symm hj), Bool.false_and, Bool.false_eq_true, if_false]

/-- A write with no enabled bit that is 1 changes nothing. -/
theorem pendSetOp_none {w : Nat} {be : BitVec 4} {data : Word} (h : data.toNat &&& beMask be = 0) (b : Base) :
    pendSetOp w be data b = b := by
  unfold pendSetOp
  refine List.foldl_fixed' (fun j => ?_) _
  simp only [h, Nat.zero_testBit, Bool.false_and, Bool.false_eq_true, if_false]

theorem exec_pendSet {part : Part} {s : State} (hl : live (partBase s part) = true) (w be : BitVec 4) (data : Word) :
    exec (.pendSet part w be data) s = .next (onPartBase part (pendSetOp w.toNat be data) s) := by
  show Host.Outcome.next (ifPart part (onPartBase part (pendSetOp w.toNat be data)) s) = _
  rw [ifPart, if_pos hl]

/-- Settles O30: of the pass over the word's bits only the bit written as 1 can act, and it acts on a pulse source alone. -/
theorem pendSetOccurs : Obligations.PendSetOccurs := by
  unfold Obligations.PendSetOccurs
  intro s part w i hl
  refine ⟨fun hpulse => ?_, fun hnot => ?_, fun be => ?_, fun data => ?_⟩
  · rw [exec_pendSet hl, onPartBase_congr]
    rw [pendSetOp_single i.isLt, if_pos hpulse]
  · have hno : ¬ (srcExists (partBase s part) (32 * w.toNat + i) && !srcLevel (partBase s part) (32 * w.toNat + i)) = true := by
      rcases hnot with hlevel | habsent
      · simp [hlevel]
      · simp [habsent]
    rw [exec_pendSet hl, onPartBase_eq_self]
    rw [pendSetOp_single i.isLt, if_neg hno]
  · rw [exec_pendSet hl, onPartBase_eq_self (pendSetOp_none (Nat.zero_and _) _)]
  · have hnone : beMask 0 = 0 := by decide
    rw [exec_pendSet hl, onPartBase_eq_self (pendSetOp_none (by rw [hnone, Nat.and_zero]) _)]

/-! ## Nesting stacks and end of interrupt (R435) -/

@[simp] theorem cpuStack_setStack_same {k : Nat} {l : List Nest} {b : Base} : cpuStack (setStack k l b) k = l :=
  tabGet_tabSet_same _ _ _ _
theorem cpuStack_setStack_other {j k : Nat} {l : List Nest} {b : Base} (h : j ≠ k) :
    cpuStack (setStack k l b) j = cpuStack b j := tabGet_tabSet_other _ _ _ _ _ _ h
@[simp] theorem cpuStack_srcSet {j n : Nat} {e : EvSrc} {b : Base} : cpuStack (srcSet n e b) j = cpuStack b j := rfl
@[simp] theorem srcGet_setStack {k n : Nat} {l : List Nest} {b : Base} : srcGet (setStack k l b) n = srcGet b n := rfl
@[simp] theorem setStack_regs {k : Nat} {l : List Nest} {b : Base} : (setStack k l b).regs = b.regs := rfl

/-- EOI of the top of the stack. -/
theorem eoi_top {k n : Nat} {s : State} {t : Nest} {l : List Nest} (hs : cpuStack s.unit.base k = t :: l) (ht : t.src = n) :
    eoi k n s = onUnit (uB fun b => setStack k l (srcSet n { srcGet b n with active := none } b)) s := by
  simp only [eoi, hs, if_pos ht]

/-- EOI of a number that is not the top of the stack, or with an empty stack. -/
theorem eoi_not_top {k n : Nat} {s : State} (h : ∀ e l, cpuStack s.unit.base k = e :: l → e.src ≠ n) :
    eoi k n s = logU uEoiErr noPort n 0 k s := by
  cases hs : cpuStack s.unit.base k with
  | nil => simp only [eoi, hs]
  | cons e l => simp only [eoi, hs, if_neg (h e l hs)]

theorem exec_eoiWrite {s : State} (hl : live s.unit.base = true) (k : BitVec 3) (n : BitVec 9) :
    exec (.eoiWrite k n) s = .next (eoi k.toNat n.toNat s) := by
  show Host.Outcome.next (ifUnit (eoi k.toNat n.toNat) s) = _
  rw [ifUnit, if_pos hl]

theorem runPrio_of_empty {k : Nat} {b : Base} (h : cpuStack b k = []) : runPrio b k = 256 := by
  simp only [runPrio, h]
theorem runPrio_of_top {k : Nat} {e : Nest} {l : List Nest} {b : Base} (h : cpuStack b k = e :: l) : runPrio b k = e.grp := by
  simp only [runPrio, h]

/-- Settles O33: by the two cases of EOI, the number on top of the stack and any other. -/
theorem endOfInterrupt : Obligations.EndOfInterrupt := by
  unfold Obligations.EndOfInterrupt
  intro s k n hl
  refine ⟨fun g l hs => ?_, fun hnot => ?_⟩
  · refine ⟨_, by rw [exec_eoiWrite hl, eoi_top hs rfl], ?_⟩
    simp only [onUnit_dist, onUnit_unit, uB_base]
    refine ⟨trivial, cpuStack_setStack_same, ?_, ?_, ?_, fun j hj => ?_, fun m hm => ?_⟩
    · cases l with
      | nil => exact runPrio_of_empty cpuStack_setStack_same
      | cons e l => exact runPrio_of_top cpuStack_setStack_same
    · rw [srcGet_setStack, srcGet_srcSet_same]
    · rw [setStack_regs, srcSet_regs]
    · rw [cpuStack_setStack_other hj, cpuStack_srcSet]
    · rw [srcGet_setStack, srcGet_srcSet_other hm]
  · rw [exec_eoiWrite hl, eoi_not_top hnot]

end Sys2Proof.Proofs
end

section
/-! PROOFS. The fault log: the place of an entry and what it merges with (R456), what the log keeps, drops and counts (R458),
and FIRST (R460). -/

namespace Sys2Proof.Proofs

open Sys2Proof Sys2Proof.Machine

/-! ## Counters and addresses -/

/-- Two registers whose offsets in their pages differ are different, whatever their pages. -/
theorem pageAddr_ne_of_offset {p q o o' : Nat} (ho : o < 0x1000) (ho' : o' < 0x1000) (h : o ≠ o') :
    pageAddr p o ≠ pageAddr q o' := by
  simp only [pageAddr]
  omega

theorem fld_whole (x : Word) : fld x 0 32 = x.toNat := Nat.mod_eq_of_lt x.isLt

theorem setFld_whole (x : Word) (v : Nat) : setFld x 0 32 v = BitVec.ofNat 32 v := by
  apply BitVec.eq_of_getLsbD_eq
  intro i hi
  rw [setFld_bit x 0 32 v i hi, if_pos ⟨Nat.zero_le i, by omega⟩, BitVec.getLsbD_ofNat, decide_eq_true hi, Bool.true_and,
    Nat.sub_zero]

/-- A 32-bit counter saturates. -/
theorem rd_inc_same {a : Nat} {b : Base} :
    rd (inc a b) a = if rd b a = 0xFFFFFFFF then 0xFFFFFFFF else rd b a + 1 := by
  have hinc : rd (inc a b) a = BitVec.ofNat 32 (satInc (2 ^ 32 - 1) (rd b a).toNat) := by
    simp only [inc, incF, rdF, rd_wrF_same, fld_whole, setFld_whole]
  rw [hinc, satInc]
  generalize rd b a = x
  by_cases hx : x = 0xFFFFFFFF
  · subst hx
    rfl
  · rw [if_neg hx, if_pos (by bv_omega)]
    bv_omega

/-! ## The place of an entry in the log (R456; the place within a tick and the merging there are log entry 94) -/

/-- The entries that a new entry comes before are of its tick and of a greater CODE. -/
theorem isLater_of_mem_logTail {e x : LogEntry} {l : List LogEntry} (h : x ∈ logTail e l) : isLater e x = true :=
  List.mem_takeWhile_imp (List.mem_reverse.mp h)

/-- The newest entry that a new entry follows is not one that it comes before. -/
theorem not_isLater_of_getLast?_logHead {e x : LogEntry} {l : List LogEntry} (h : (logHead e l).getLast? = some x) :
    isLater e x = false := by
  rw [logHead, List.getLast?_reverse] at h
  have hx := List.head?_dropWhile_not (isLater e) l.reverse
  rw [h] at hx
  simpa using hx

theorem isLater_iff {e x : LogEntry} : isLater e x = true ↔ x.tick = e.tick ∧ e.code.toNat < x.code.toNat := by
  simp only [isLater, Bool.and_eq_true, beq_iff_eq, decide_eq_true_eq]

theorem not_isLater_iff {e x : LogEntry} : isLater e x = false ↔ x.tick ≠ e.tick ∨ x.code.toNat ≤ e.code.toNat := by
  rw [← Bool.not_eq_true, isLater_iff]
  omega

/-! ## What entering an entry does (R456 to R461) -/

section
variable {pg : Option (Nat × Nat)} {e : LogEntry} {b : Base}

@[simp] theorem fltBit_log : (fltBit pg b).log = b.log := by cases pg <;> rfl
@[simp] theorem fltBit_logGap : (fltBit pg b).logGap = b.logGap := by cases pg <;> rfl
@[simp] theorem fltBit_first : (fltBit pg b).first = b.first := by cases pg <;> rfl

@[simp] theorem loadFirst_log : (loadFirst e b).log = b.log := by
  unfold loadFirst
  split <;> rfl
@[simp] theorem loadFirst_logGap : (loadFirst e b).logGap = b.logGap := by
  unfold loadFirst
  split <;> rfl
theorem loadFirst_first :
    (loadFirst e b).first = if beforeFirst e b = true ∧ 2 ≤ e.kind.toNat then some e else b.first := by
  simp only [loadFirst, Bool.and_eq_true, decide_eq_true_eq]
  split <;> rfl

/-- Neither the fault bit of a page nor PAGE_EVT is a register at another offset. -/
theorem rd_fltBit_offset {p o : Nat} (ho : o < 0x1000) (h : o ≠ 0x018) :
    rd (fltBit pg b) (pageAddr p o) = rd b (pageAddr p o) :=
  rd_fltBit fun _ _ => pageAddr_ne_of_offset ho (by omega) h
theorem rd_pgEvt_offset {p o q i : Nat} (ho : o < 0x1000) (h : o ≠ 0x010) :
    rd (pgEvt q i b) (pageAddr p o) = rd b (pageAddr p o) :=
  rd_pgEvt_other (pageAddr_ne_of_offset ho (by omega) h)
theorem rd_loadFirst_offset {p o : Nat} (ho : o < 0x1000) (h : o ≠ 0x010) :
    rd (loadFirst e b) (pageAddr p o) = rd b (pageAddr p o) := by
  unfold loadFirst
  split
  · exact rd_pgEvt_offset ho h
  · rfl

/-- `c` is `b` with `e` counted and in its place in the log: how an accepted entry stands before FIRST is loaded (R456, R458). -/
structure Placed (e : LogEntry) (b c : Base) : Prop where
  log : c.log = logHead e b.log ++ { e with gap := b.logGap } :: logTail e b.log
  gap : c.logGap = false
  first : c.first = b.first
  counts : ∀ k, rd c (cntAddr b k) = rd (inc (cntAddr b e.kind.toNat) b) (cntAddr b k)

theorem addEntry_of_merges (hm : logMerges b e = true) :
    addEntry pg e b =
      fltBit pg { inc (cntAddr b e.kind.toNat) b with log := bumpLast (logHead e b.log) ++ logTail e b.log } := by
  have hm' : logMerges (inc (cntAddr b e.kind.toNat) b) e = true := hm
  simp only [addEntry, hm', if_true, inc_log]

theorem addEntry_of_accepts (hm : logMerges b e = false) (ha : logAccepts b e = true) :
    ∃ c, Placed e b c ∧ addEntry pg e b = fltBit pg (loadFirst { e with gap := false } c) := by
  have hm' : logMerges (inc (cntAddr b e.kind.toNat) b) e = false := hm
  have ha' : logAccepts (inc (cntAddr b e.kind.toNat) b) e = true := ha
  simp only [addEntry, hm', ha', Bool.false_eq_true, if_false, if_true]
  refine ⟨_, ⟨?_, ?_, ?_, fun k => ?_⟩, rfl⟩
  · split <;> rfl
  · split <;> rfl
  · split <;> rfl
  · have hacc : ∀ g, cntAddr b k ≠ pageAddr g 0x050 := fun g => pageAddr_ne_of_offset (by omega) (by omega) (by omega)
    have hevt : ∀ g, cntAddr b k ≠ pageAddr g 0x010 := fun g => pageAddr_ne_of_offset (by omega) (by omega) (by omega)
    split
    · rw [rd_pgEvt_other (hevt _), rd_wrF_other (hacc _)]
      rfl
    · rw [rd_wrF_other (hacc _)]
      rfl

theorem addEntry_of_drops (hm : logMerges b e = false) (ha : logAccepts b e = false) :
    addEntry pg e b = inc (pageAddr (fltPage b) 0x054) { inc (cntAddr b e.kind.toNat) b with logGap := true } := by
  have hm' : logMerges (inc (cntAddr b e.kind.toNat) b) e = false := hm
  have ha' : logAccepts (inc (cntAddr b e.kind.toNat) b) e = false := ha
  simp only [addEntry, hm', ha', Bool.false_eq_true, if_false]
  rfl

/-- The log accepts an entry while its kind finds the free entries it needs (R458). -/
theorem logAccepts_iff :
    logAccepts b e = true ↔ b.log.length + (if e.kind = 3 then 1 else 2) ≤ if isUnit b then 128 else 1024 := by
  change _ ↔ _ ≤ logCap b
  unfold logAccepts logFree
  split
  · rw [decide_eq_true_eq]
    omega
  · rw [decide_eq_true_eq]
    omega

/-! ## What the log keeps, drops and counts (R458) -/

theorem addEntry_log_of_merges (hm : logMerges b e = true) :
    (addEntry pg e b).log = bumpLast (logHead e b.log) ++ logTail e b.log := by
  rw [addEntry_of_merges hm, fltBit_log]

/-- Every happening counts by its kind, whether it merges, is entered or is dropped (R458). -/
theorem rd_addEntry_cnt :
    rd (addEntry pg e b) (cntAddr b e.kind.toNat) = rd (inc (cntAddr b e.kind.toNat) b) (cntAddr b e.kind.toNat) := by
  cases hm : logMerges b e with
  | true =>
    rw [addEntry_of_merges hm, cntAddr, rd_fltBit_offset (by omega) (by omega)]
    rfl
  | false =>
    cases ha : logAccepts b e with
    | true =>
      obtain ⟨c, hc, heq⟩ := addEntry_of_accepts (pg := pg) hm ha
      rw [heq, ← hc.counts, cntAddr, rd_fltBit_offset (by omega) (by omega), rd_loadFirst_offset (by omega) (by omega)]
    | false =>
      rw [addEntry_of_drops hm ha, rd_inc_other]
      · rfl
      · exact pageAddr_ne_of_offset (by omega) (by omega) (by omega)

/-- An accepted entry stands in its place, with GAP where one was dropped before it. -/
theorem addEntry_log_of_accepts (hm : logMerges b e = false) (ha : logAccepts b e = true) :
    (addEntry pg e b).log = logHead e b.log ++ { e with gap := b.logGap } :: logTail e b.log ∧
      (addEntry pg e b).logGap = false := by
  obtain ⟨c, hc, heq⟩ := addEntry_of_accepts (pg := pg) hm ha
  rw [heq, fltBit_log, fltBit_logGap, loadFirst_log, loadFirst_logGap]
  exact ⟨hc.log, hc.gap⟩

/-- A dropped entry leaves the log, is counted in FLT.LOST, and the next accepted entry carries GAP. -/
theorem addEntry_log_of_drops (hm : logMerges b e = false) (ha : logAccepts b e = false) :
    (addEntry pg e b).log = b.log ∧ (addEntry pg e b).logGap = true ∧
      rd (addEntry pg e b) (pageAddr (fltPage b) 0x054) =
        rd (inc (pageAddr (fltPage b) 0x054) b) (pageAddr (fltPage b) 0x054) := by
  have hcnt : pageAddr (fltPage b) 0x054 ≠ cntAddr b e.kind.toNat :=
    pageAddr_ne_of_offset (by omega) (by omega) (by omega)
  have hlost : rd { inc (cntAddr b e.kind.toNat) b with logGap := true } (pageAddr (fltPage b) 0x054) =
      rd b (pageAddr (fltPage b) 0x054) := (rd_congr (b := inc (cntAddr b e.kind.toNat) b) rfl rfl).trans (rd_inc_other hcnt)
  rw [addEntry_of_drops hm ha, inc_log, inc_logGap]
  refine ⟨rfl, rfl, ?_⟩
  rw [rd_inc_same, rd_inc_same, hlost]

/-! ## FIRST (R460; taken from the order of log entry 94) -/

/-- FIRST takes an entry of kind Fault or Fatal that the log takes, where it is empty or holds one that the entry comes before. -/
theorem addEntry_first :
    (addEntry pg e b).first =
      if logMerges b e = false ∧ logAccepts b e = true ∧ beforeFirst e b = true ∧ 2 ≤ e.kind.toNat
      then some { e with gap := false } else b.first := by
  cases hm : logMerges b e with
  | true => simp [addEntry_of_merges hm]
  | false =>
    cases ha : logAccepts b e with
    | true =>
      obtain ⟨c, hc, heq⟩ := addEntry_of_accepts (pg := pg) hm ha
      have hbefore : beforeFirst { e with gap := false } c = beforeFirst e b := by
        rw [beforeFirst, beforeFirst, hc.first]
        rfl
      rw [heq, fltBit_first, loadFirst_first, hbefore, hc.first]
      simp
    | false => simp [addEntry_of_drops hm ha]

theorem beforeFirst_of_none (h : b.first = none) : beforeFirst e b = true := by rw [beforeFirst, h]
theorem beforeFirst_of_some {f : LogEntry} (h : b.first = some f) : beforeFirst e b = isLater e f := by rw [beforeFirst, h]

theorem addEntry_first_of_taken (hm : logMerges b e = false) (ha : logAccepts b e = true) (hf : beforeFirst e b = true)
    (hk : 2 ≤ e.kind.toNat) : (addEntry pg e b).first = some { e with gap := false } := by
  rw [addEntry_first, if_pos ⟨hm, ha, hf, hk⟩]

theorem addEntry_first_of_not_taken
    (h : beforeFirst e b = false ∨ e.kind.toNat < 2 ∨ logMerges b e = true ∨ logAccepts b e = false) :
    (addEntry pg e b).first = b.first := by
  rw [addEntry_first, if_neg]
  rintro ⟨hm, ha, hf, hk⟩
  rcases h with h | h | h | h
  · exact absurd (h.symm.trans hf) Bool.false_ne_true
  · omega
  · exact absurd (hm.symm.trans h) Bool.false_ne_true
  · exact absurd (h.symm.trans ha) Bool.false_ne_true

end

/-- Removing the oldest entry from the log leaves FIRST. -/
theorem recRead_first {ch : Nat} {b : Base} : (recRead ch b).2.first = b.first := rfl

theorem exec_fltClrFirst {part : Part} {s : State} (hl : live (partBase s part) = true) :
    exec (.fltClrFirst part) s = .next (onPartBase part (fun b => { b with first := none }) s) := by
  show Host.Outcome.next (ifPart part (onPartBase part fun b => { b with first := none }) s) = _
  rw [ifPart, if_pos hl]

theorem partBase_onPartBase_same {part : Part} {f : Base → Base} {s : State} :
    partBase (onPartBase part f s) part = f (partBase s part) := by cases part <;> rfl

/-- FIRST_0 to FIRST_3 of a unit and of a distributor show the words of the entry that FIRST holds. -/
theorem regValue_unit_first {s : State} {i : Nat} (hi : i < 4) :
    regValue s .unit 0x13 (0x070 + 4 * i) = entryWord s.unit.base.first i := by
  have hwin : pageWindow s.unit.base.kind 0x13 = false := by cases s.unit.base.kind <;> rfl
  interval_cases i <;> simp only [regValue, partBase_unit, hwin] <;> rfl
theorem regValue_dist_first {s : State} {i : Nat} (hi : i < 4) :
    regValue s .dist 0x10 (0x070 + 4 * i) = entryWord s.dist.base.first i := by
  have hwin : pageWindow s.dist.base.kind 0x10 = false := by cases s.dist.base.kind <;> rfl
  interval_cases i <;> simp only [regValue, partBase_dist, hwin] <;> rfl

/-! ## The obligations -/

/-- Settles O27: by the place of an entry, and the three things that can become of it: it merges, is entered or is dropped. -/
theorem logKeepsItsEntries : Obligations.LogKeepsItsEntries := by
  unfold Obligations.LogKeepsItsEntries
  intro pg e b
  refine ⟨logHead_logTail e b.log, fun x hx => isLater_iff.mp (isLater_of_mem_logTail hx),
    fun x hx => not_isLater_iff.mp (not_isLater_of_getLast?_logHead hx), addEntry_log_of_merges, fun hm => ⟨?_, ?_, ?_⟩⟩
  · rw [rd_addEntry_cnt, rd_inc_same]
  · intro hfree
    exact addEntry_log_of_accepts hm (logAccepts_iff.mpr hfree)
  · intro hfull
    have ha : logAccepts b e = false := Bool.eq_false_iff.mpr fun ha => Nat.not_le.mpr hfull (logAccepts_iff.mp ha)
    rw [← rd_inc_same]
    exact addEntry_log_of_drops hm ha

/-- Settles O28: an entry is either taken by FIRST or leaves it, and nothing else but CLR_FIRST touches it. -/
theorem firstFaultStays : Obligations.FirstFaultStays := by
  unfold Obligations.FirstFaultStays
  refine ⟨fun pg e b => ⟨fun f hf h => ?_, fun f hf htick hcode hk hm ha => ?_, fun hf h => ?_, fun hf hk hm ha => ?_⟩,
    fun s part hl => ⟨_, exec_fltClrFirst hl, ?_⟩, fun ch b => recRead_first,
    fun s i hi => ⟨regValue_unit_first hi, regValue_dist_first hi⟩, fun i => rfl⟩
  · have hbefore : f.tick ≠ e.tick ∨ f.code.toNat ≤ e.code.toNat ↔ beforeFirst e b = false := by
      rw [beforeFirst_of_some hf, not_isLater_iff]
    rw [← or_assoc, hbefore] at h
    exact (addEntry_first_of_not_taken h).trans hf
  · exact addEntry_first_of_taken hm ha ((beforeFirst_of_some hf).trans (isLater_iff.mpr ⟨htick, hcode⟩)) hk
  · exact (addEntry_first_of_not_taken (.inr h)).trans hf
  · exact addEntry_first_of_taken hm ha (beforeFirst_of_none hf) hk
  · rw [partBase_onPartBase_same]

end Sys2Proof.Proofs
end

section
/-! PROOFS. The machine: what every command and every tick keeps (R17, R18, R458, R471). -/

namespace Sys2Proof.Proofs

open Sys2Proof Sys2Proof.Machine

/-! ## Every command answers a next state -/

theorem exec_presenceRx_next (rx : Rx) (x : BitVec 48) (w : BitVec 16) (s : State) :
    ∃ t, exec (.presenceRx rx x w) s = .next t := by
  show ∃ t, execPresenceRx rx x w s = .next t
  obtain ⟨port, lane, seq, part⟩ := rx
  cases port <;> simp only [execPresenceRx] <;> split <;> exact ⟨_, rfl⟩

theorem exec_next (c : Instr) (s : State) : ∃ t, exec c s = .next t := by
  cases c
  case presenceRx rx x w => exact exec_presenceRx_next rx x w s
  case scrub target _ => cases target <;> exact ⟨_, rfl⟩
  case launchOrigStart msg => cases msg <;> exact ⟨_, rfl⟩
  case launchOrigCancel msg => cases msg <;> exact ⟨_, rfl⟩
  case ttbInsertCmd msg => cases msg <;> exact ⟨_, rfl⟩
  case armBroadcastUnit rx _ =>
    obtain ⟨port, _, _, _⟩ := rx
    cases port <;> exact ⟨_, rfl⟩
  case goRx rx _ =>
    obtain ⟨port, _, _, _⟩ := rx
    cases port <;> exact ⟨_, rfl⟩
  case abortRxUnit rx _ =>
    obtain ⟨port, _, _, _⟩ := rx
    cases port <;> exact ⟨_, rfl⟩
  case cmbDownRxUnit rx _ _ _ _ _ =>
    obtain ⟨port, _, _, _⟩ := rx
    cases port <;> exact ⟨_, rfl⟩
  case commitRxUnit rx _ =>
    obtain ⟨port, _, _, _⟩ := rx
    cases port <;> exact ⟨_, rfl⟩
  all_goals exact ⟨_, rfl⟩

/-! ## What every command keeps -/

/-- The commands after which a part may run on another clock: those that may load or stop a counter, and those that change
the phase alone (the end of SRAM initialisation, R471's stops). -/
def mayChangeClock : Instr → Bool
  | .distSramInitDone | .unitSramInitDone | .wdogFail .. | .distMemFatal .. | .thmSample .. => true
  | c => mayLoadTime c

/-- The release samples the straps, which only a distributor has (R527). -/
def samplesStraps : Instr → Bool
  | .distResetRelease .. => true
  | _ => false

theorem exec_keeps {κ : Bool} {c : Instr} {s t : State} (hκ : mayChangeClock c = true → κ = false)
    (hd : samplesStraps c = true → isUnit s.dist.base = false) (h : exec c s = .next t) : StateKeeps κ s t := by
  have h0 : StateKeeps κ s s := StateKeeps.refl s
  cases c with
  | linkEnableWrite => exact execLinkEnableWrite_keeps h0 h
  | linkCntClr => exact execLinkCntClr_keeps h0 h
  | signalDetect => exact execSignalDetect_keeps h0 h
  | blockLockAcquired => exact execBlockLockAcquired_keeps h0 h
  | blockLockLost => exact execBlockLockLost_keeps h0 h
  | trainingBlockRx => exact execTrainingBlockRx_keeps h0 h
  | framesStart => exact execFramesStart_keeps h0 h
  | trainLimitExpiry => exact execTrainLimitExpiry_keeps h0 h
  | trainRetryTimer => exact execTrainRetryTimer_keeps h0 h
  | spareTrainTimeout => exact execSpareTrainTimeout_keeps h0 h
  | spareRetrainTimer => exact execSpareRetrainTimer_keeps h0 h
  | linkSilence => exact execLinkSilence_keeps h0 h
  | readmitTimer => exact execReadmitTimer_keeps h0 h
  | admitWaitTimer => exact execAdmitWaitTimer_keeps h0 h
  | idleRx => exact execIdleRx_keeps h0 h
  | crcBadFrameRx => exact execCrcBadFrameRx_keeps h0 h
  | reservedTypeFrameRx => exact execReservedTypeFrameRx_keeps h0 h
  | unexpectedFrameRx => exact execUnexpectedFrameRx_keeps h0 h
  | ackTimer => exact execAckTimer_keeps h0 h
  | ackRx => exact execAckRx_keeps h0 h
  | nakRx => exact execNakRx_keeps h0 h
  | retryTimerExpiry => exact execRetryTimerExpiry_keeps h0 h
  | laneSwap => exact execLaneSwap_keeps h0 h
  | echoIntervalTimer => exact execEchoIntervalTimer_keeps h0 h
  | echoReqRx => exact execEchoReqRx_keeps h0 h
  | echoRspRx => exact execEchoRspRx_keeps h0 h
  | echoExchangeTimeout => exact execEchoExchangeTimeout_keeps h0 h
  | timeRx => cases hκ rfl; exact execTimeRx_keeps h0 h
  | rootTimeTimer => exact execRootTimeTimer_keeps h0 h
  | epochArm => exact execEpochArm_keeps h0 h
  | epochApply => cases hκ rfl; exact execEpochApply_keeps h0 h
  | epochFrameRx => exact execEpochFrameRx_keeps h0 h
  | tckReload => cases hκ rfl; exact execTckReload_keeps h0 h
  | helloTimer => exact execHelloTimer_keeps h0 h
  | helloRx => exact execHelloRx_keeps h0 h
  | admissionSlot => exact execAdmissionSlot_keeps h0 h
  | admitRx => exact execAdmitRx_keeps h0 h
  | powerOnReset => cases hκ rfl; exact execPowerOnReset_keeps h0 h
  | supplyFault => cases hκ rfl; exact execSupplyFault_keeps h0 h
  | warmReset => cases hκ rfl; exact execWarmReset_keeps h0 h
  | perst => exact execPerst_keeps h0 h
  | distResetRelease => cases hκ rfl; exact execDistResetRelease_keeps h0 (hd rfl) h
  | distSramInitDone => cases hκ rfl; exact execDistSramInitDone_keeps h0 h
  | unitReset => cases hκ rfl; exact execUnitReset_keeps h0 h
  | unitResetRelease => cases hκ rfl; exact execUnitResetRelease_keeps h0 h
  | unitSramInitDone => cases hκ rfl; exact execUnitSramInitDone_keeps h0 h
  | healthRx => exact execHealthRx_keeps h0 h
  | healthVoteSend => exact execHealthVoteSend_keeps h0 h
  | healthDecay => exact execHealthDecay_keeps h0 h
  | expulsionEvaluate => exact execExpulsionEvaluate_keeps h0 h
  | healthReadmit => exact execHealthReadmit_keeps h0 h
  | wdogFail => cases hκ rfl; exact execWdogFail_keeps h0 h
  | distMemFatal => cases hκ rfl; exact execDistMemFatal_keeps h0 h
  | soleRoot => exact execSoleRoot_keeps h0 h
  | rootRopeLost => exact execRootRopeLost_keeps h0 h
  | leadHandback => exact execLeadHandback_keeps h0 h
  | fltRecRead => exact execFltRecRead_keeps h0 h
  | fltFlush => exact execFltFlush_keeps h0 h
  | fltClrFirst => exact execFltClrFirst_keeps h0 h
  | hevtEdge => exact execHevtEdge_keeps h0 h
  | evinEdge => exact execEvinEdge_keeps h0 h
  | evcAssign => exact execEvcAssign_keeps h0 h
  | claimRead => exact execClaimRead_keeps h0 h
  | eoiWrite => exact execEoiWrite_keeps h0 h
  | cpuFlush => exact execCpuFlush_keeps h0 h
  | pendRead => exact execPendRead_keeps h0 h
  | pendWrite => exact execPendWrite_keeps h0 h
  | pendSet => exact execPendSet_keeps h0 h
  | maskSet => exact execMaskSet_keeps h0 h
  | maskClr => exact execMaskClr_keeps h0 h
  | holdoffExpiry => exact execHoldoffExpiry_keeps h0 h
  | lanternEnter => exact execLanternEnter_keeps h0 h
  | lanternExit => exact execLanternExit_keeps h0 h
  | configurationRequest => exact execConfigurationRequest_keeps h0 h
  | presencePress => exact execPresencePress_keeps h0 h
  | presenceRx => exact execPresenceRx_keeps h0 h
  | presenceClose => exact execPresenceClose_keeps h0 h
  | presenceExpiry => exact execPresenceExpiry_keeps h0 h
  | cfgLockChange => exact execCfgLockChange_keeps h0 h
  | sealBreak => exact execSealBreak_keeps h0 h
  | semAdd => exact execSemAdd_keeps h0 h
  | semSub => exact execSemSub_keeps h0 h
  | semRead => exact execSemRead_keeps h0 h
  | semWait => exact execSemWait_keeps h0 h
  | wchCancel => exact execWchCancel_keeps h0 h
  | memWait => exact execMemWait_keeps h0 h
  | snoopWrite => exact execSnoopWrite_keeps h0 h
  | watchTimeout => exact execWatchTimeout_keeps h0 h
  | msgBadOp => exact execMsgBadOp_keeps h0 h
  | responseEmit => exact execResponseEmit_keeps h0 h
  | ctxClear => exact execCtxClear_keeps h0 h
  | ctxClearDone => exact execCtxClearDone_keeps h0 h
  | eccUncorrectable => exact execEccUncorrectable_keeps h0 h
  | scrub => exact execScrub_keeps h0 h
  | sumpRead => exact execSumpRead_keeps h0 h
  | semCmdAdd => exact execSemCmdAdd_keeps h0 h
  | semCmdSub => exact execSemCmdSub_keeps h0 h
  | semCmdSet => exact execSemCmdSet_keeps h0 h
  | semCmdClrFlags => exact execSemCmdClrFlags_keeps h0 h
  | semCmdLoadView => exact execSemCmdLoadView_keeps h0 h
  | domSwitch => exact execDomSwitch_keeps h0 h
  | rebase => exact execRebase_keeps h0 h
  | rebaseStep => exact execRebaseStep_keeps h0 h
  | parentSwitch => exact execParentSwitch_keeps h0 h
  | srvModeWrite => exact execSrvModeWrite_keeps h0 h
  | handover => exact execHandover_keeps h0 h
  | handoverTimeout => exact execHandoverTimeout_keeps h0 h
  | holdoverAgeExpiry => exact execHoldoverAgeExpiry_keeps h0 h
  | distMute => exact execDistMute_keeps h0 h
  | acquireTimeout => exact execAcquireTimeout_keeps h0 h
  | calPeriod => exact execCalPeriod_keeps h0 h
  | dbgArm => exact execDbgArm_keeps h0 h
  | dbgTrigger => exact execDbgTrigger_keeps h0 h
  | dbgStop => exact execDbgStop_keeps h0 h
  | dbgInject => exact execDbgInject_keeps h0 h
  | syncFrameSend => exact execSyncFrameSend_keeps h0 h
  | tapSyncFrameRx => exact execTapSyncFrameRx_keeps h0 h
  | tapDelayUpdate => exact execTapDelayUpdate_keeps h0 h
  | tapReturnLost => exact execTapReturnLost_keeps h0 h
  | tapResync => exact execTapResync_keeps h0 h
  | tapEnWrite => exact execTapEnWrite_keeps h0 h
  | regionStopEdge => exact execRegionStopEdge_keeps h0 h
  | tapReadReq => exact execTapReadReq_keeps h0 h
  | captureEdge => exact execCaptureEdge_keeps h0 h
  | captureRecordEnter => exact execCaptureRecordEnter_keeps h0 h
  | capRecRead => exact execCapRecRead_keeps h0 h
  | dripArm => exact execDripArm_keeps h0 h
  | dripStop => exact execDripStop_keeps h0 h
  | dripPulseStart => exact execDripPulseStart_keeps h0 h
  | dripPulseEnd => exact execDripPulseEnd_keeps h0 h
  | launchOrigStart => exact execLaunchOrigStart_keeps h0 h
  | launchOrigCancel => exact execLaunchOrigCancel_keeps h0 h
  | launchReqTimeout => exact execLaunchReqTimeout_keeps h0 h
  | armRequestRx => exact execArmRequestRx_keeps h0 h
  | armBroadcastDist => exact execArmBroadcastDist_keeps h0 h
  | armBroadcastUnit => exact execArmBroadcastUnit_keeps h0 h
  | censusRx => exact execCensusRx_keeps h0 h
  | launchCutoffExpiry => exact execLaunchCutoffExpiry_keeps h0 h
  | goRelay => exact execGoRelay_keeps h0 h
  | goRx => exact execGoRx_keeps h0 h
  | abortRxUnit => exact execAbortRxUnit_keeps h0 h
  | abortRelay => exact execAbortRelay_keeps h0 h
  | launchGuardExpiry => exact execLaunchGuardExpiry_keeps h0 h
  | launchFire => exact execLaunchFire_keeps h0 h
  | launchLatenessJudge => exact execLaunchLatenessJudge_keeps h0 h
  | launchDeadline => exact execLaunchDeadline_keeps h0 h
  | lchRecRead => exact execLchRecRead_keeps h0 h
  | launchTokenRefill => exact execLaunchTokenRefill_keeps h0 h
  | reqTokenRefill => exact execReqTokenRefill_keeps h0 h
  | ttbInsertCmd => exact execTtbInsertCmd_keeps h0 h
  | ttbCancelCmd => exact execTtbCancelCmd_keeps h0 h
  | ttbLoadCmd => exact execTtbLoadCmd_keeps h0 h
  | ttbStage => exact execTtbStage_keeps h0 h
  | ttbAct => exact execTtbAct_keeps h0 h
  | barEnter => exact execBarEnter_keeps h0 h
  | barDeadline => exact execBarDeadline_keeps h0 h
  | barReset => exact execBarReset_keeps h0 h
  | barEnWrite => exact execBarEnWrite_keeps h0 h
  | flwProd => exact execFlwProd_keeps h0 h
  | flwCons => exact execFlwCons_keeps h0 h
  | flwLoadView => exact execFlwLoadView_keeps h0 h
  | flwReset => exact execFlwReset_keeps h0 h
  | fenceSignal => exact execFenceSignal_keeps h0 h
  | drainReport => exact execDrainReport_keeps h0 h
  | fncTimeout => exact execFncTimeout_keeps h0 h
  | fncDiscard => exact execFncDiscard_keeps h0 h
  | fncLoadView => exact execFncLoadView_keeps h0 h
  | applyChannelReady => exact execApplyChannelReady_keeps h0 h
  | deadlock => exact execDeadlock_keeps h0 h
  | dlkRearm => exact execDlkRearm_keeps h0 h
  | cmbData => exact execCmbData_keeps h0 h
  | cmbPost => exact execCmbPost_keeps h0 h
  | cmbRead => exact execCmbRead_keeps h0 h
  | cmbUpRx => exact execCmbUpRx_keeps h0 h
  | accSetGrant => exact execAccSetGrant_keeps h0 h
  | substTimeout => exact execSubstTimeout_keeps h0 h
  | cmbDeadlineExpiry => exact execCmbDeadlineExpiry_keeps h0 h
  | cmbDownRxDist => exact execCmbDownRxDist_keeps h0 h
  | cmbDownRxUnit => exact execCmbDownRxUnit_keeps h0 h
  | ackcmbRx => exact execAckcmbRx_keeps h0 h
  | cmbAckTimeout => exact execCmbAckTimeout_keeps h0 h
  | commitRxDist => exact execCommitRxDist_keeps h0 h
  | commitRxUnit => exact execCommitRxUnit_keeps h0 h
  | heldCommitRelease => exact execHeldCommitRelease_keeps h0 h
  | cmbUnitDeadline => exact execCmbUnitDeadline_keeps h0 h
  | cmbGalStateWrite => exact execCmbGalStateWrite_keeps h0 h
  | substHdr => exact execSubstHdr_keeps h0 h
  | substData => exact execSubstData_keeps h0 h
  | substReq => exact execSubstReq_keeps h0 h
  | resultRecord => exact execResultRecord_keeps h0 h
  | syncRecord => exact execSyncRecord_keeps h0 h
  | launchOpen => exact execLaunchOpen_keeps h0 h
  | launchDecision => exact execLaunchDecision_keeps h0 h
  | launchCensus => exact execLaunchCensus_keeps h0 h
  | launchReq => exact execLaunchReq_keeps h0 h
  | calibrationRecord => exact execCalibrationRecord_keeps h0 h
  | xoFail => exact execXoFail_keeps h0 h
  | refClockLoss => exact execRefClockLoss_keeps h0 h
  | refPulseTimeout => exact execRefPulseTimeout_keeps h0 h
  | refSecondMark => cases hκ rfl; exact execRefSecondMark_keeps h0 h
  | sourceQualified => exact execSourceQualified_keeps h0 h
  | wtrExpiry => exact execWtrExpiry_keeps h0 h
  | switchCommit => exact execSwitchCommit_keeps h0 h
  | realign => exact execRealign_keeps h0 h
  | htSecondMark => exact execHtSecondMark_keeps h0 h
  | ptpAnnounceRx => exact execPtpAnnounceRx_keeps h0 h
  | ptpSyncRx => exact execPtpSyncRx_keeps h0 h
  | ptpFollowUpRx => exact execPtpFollowUpRx_keeps h0 h
  | ptpDelayReqTimer => exact execPtpDelayReqTimer_keeps h0 h
  | ptpDelayRespRx => exact execPtpDelayRespRx_keeps h0 h
  | ptpActivityTimeout => exact execPtpActivityTimeout_keeps h0 h
  | ptpCfgCommit => exact execPtpCfgCommit_keeps h0 h
  | frmoutPulse => exact execFrmoutPulse_keeps h0 h
  | ppsoutPulseEnd => exact execPpsoutPulseEnd_keeps h0 h
  | arpRequestRx => exact execArpRequestRx_keeps h0 h
  | ptpDiscardedFrame => exact execPtpDiscardedFrame_keeps h0 h
  | thmSample => cases hκ rfl; exact execThmSample_keeps h0 h
  | thmSensorFail => exact execThmSensorFail_keeps h0 h
  | thmClrMax => exact execThmClrMax_keeps h0 h
  | registerWrite part => exact execRegisterWrite_keeps h0 (fun e => hκ (by rw [e]; rfl)) h
  | registerRead => exact execRegisterRead_keeps h0 h
  | regAccessTimeout => exact execRegAccessTimeout_keeps h0 h
  | pageLockRead => exact execPageLockRead_keeps h0 h
  | smbusBlockWrite => exact execSmbusBlockWrite_keeps h0 h
  | smbusReadRequest => exact execSmbusReadRequest_keeps h0 h
  | smbusBlockRead => exact execSmbusBlockRead_keeps h0 h

theorem distReleaseOp_pending (st : Straps) (s : State) : (distReleaseOp st s).pending = s.pending := by
  unfold distReleaseOp
  split <;> rfl

/-- No command touches the queue. -/
theorem exec_pending {c : Instr} {s t : State} (h : exec c s = .next t) : t.pending = s.pending := by
  cases hc : samplesStraps c with
  | false => exact (exec_keeps (κ := false) (fun _ => rfl) (fun e => absurd (hc.symm.trans e) Bool.false_ne_true) h).queue
  | true =>
    cases c with
    | distResetRelease root domB tier smba =>
      cases h
      exact distReleaseOp_pending _ s
    | _ => cases hc

theorem exec_otherSame {c : Instr} {s t : State} (h : exec c s = .next t) : OtherSame (commandPart c) s t := by
  cases c with
  | linkEnableWrite => exact execLinkEnableWrite_apart rfl h
  | linkCntClr => exact execLinkCntClr_apart rfl h
  | signalDetect => exact execSignalDetect_apart rfl h
  | blockLockAcquired => exact execBlockLockAcquired_apart rfl h
  | blockLockLost => exact execBlockLockLost_apart rfl h
  | trainingBlockRx => exact execTrainingBlockRx_apart rfl h
  | framesStart => exact execFramesStart_apart rfl h
  | trainLimitExpiry => exact execTrainLimitExpiry_apart rfl h
  | trainRetryTimer => exact execTrainRetryTimer_apart rfl h
  | spareTrainTimeout => exact execSpareTrainTimeout_apart rfl h
  | spareRetrainTimer => exact execSpareRetrainTimer_apart rfl h
  | linkSilence => exact execLinkSilence_apart rfl h
  | readmitTimer => exact execReadmitTimer_apart rfl h
  | admitWaitTimer => exact execAdmitWaitTimer_apart rfl h
  | idleRx => exact execIdleRx_apart rfl h
  | crcBadFrameRx => exact execCrcBadFrameRx_apart rfl h
  | reservedTypeFrameRx => exact execReservedTypeFrameRx_apart rfl h
  | unexpectedFrameRx => exact execUnexpectedFrameRx_apart rfl h
  | ackTimer => exact execAckTimer_apart rfl h
  | ackRx => exact execAckRx_apart rfl h
  | nakRx => exact execNakRx_apart rfl h
  | retryTimerExpiry => exact execRetryTimerExpiry_apart rfl h
  | laneSwap => exact execLaneSwap_apart rfl h
  | echoIntervalTimer => exact execEchoIntervalTimer_apart rfl h
  | echoReqRx => exact execEchoReqRx_apart rfl h
  | echoRspRx => exact execEchoRspRx_apart rfl h
  | echoExchangeTimeout => exact execEchoExchangeTimeout_apart rfl h
  | timeRx => exact execTimeRx_apart rfl h
  | rootTimeTimer => exact execRootTimeTimer_apart rfl h
  | epochArm => exact execEpochArm_apart rfl h
  | epochApply => exact execEpochApply_apart rfl h
  | epochFrameRx => exact execEpochFrameRx_apart rfl h
  | tckReload => exact execTckReload_apart rfl h
  | helloTimer => exact execHelloTimer_apart rfl h
  | helloRx => exact execHelloRx_apart rfl h
  | admissionSlot => exact execAdmissionSlot_apart rfl h
  | admitRx => exact execAdmitRx_apart rfl h
  | powerOnReset => exact execPowerOnReset_apart rfl h
  | supplyFault => exact execSupplyFault_apart rfl h
  | warmReset => exact execWarmReset_apart rfl h
  | perst => exact execPerst_apart rfl h
  | distResetRelease => exact execDistResetRelease_apart rfl h
  | distSramInitDone => exact execDistSramInitDone_apart rfl h
  | unitReset => exact execUnitReset_apart rfl h
  | unitResetRelease => exact execUnitResetRelease_apart rfl h
  | unitSramInitDone => exact execUnitSramInitDone_apart rfl h
  | healthRx => exact execHealthRx_apart rfl h
  | healthVoteSend => exact execHealthVoteSend_apart rfl h
  | healthDecay => exact execHealthDecay_apart rfl h
  | expulsionEvaluate => exact execExpulsionEvaluate_apart rfl h
  | healthReadmit => exact execHealthReadmit_apart rfl h
  | wdogFail => exact execWdogFail_apart rfl h
  | distMemFatal => exact execDistMemFatal_apart rfl h
  | soleRoot => exact execSoleRoot_apart rfl h
  | rootRopeLost => exact execRootRopeLost_apart rfl h
  | leadHandback => exact execLeadHandback_apart rfl h
  | fltRecRead => exact execFltRecRead_apart rfl h
  | fltFlush => exact execFltFlush_apart rfl h
  | fltClrFirst => exact execFltClrFirst_apart rfl h
  | hevtEdge => exact execHevtEdge_apart rfl h
  | evinEdge => exact execEvinEdge_apart rfl h
  | evcAssign => exact execEvcAssign_apart rfl h
  | claimRead => exact execClaimRead_apart rfl h
  | eoiWrite => exact execEoiWrite_apart rfl h
  | cpuFlush => exact execCpuFlush_apart rfl h
  | pendRead => exact execPendRead_apart rfl h
  | pendWrite => exact execPendWrite_apart rfl h
  | pendSet => exact execPendSet_apart rfl h
  | maskSet => exact execMaskSet_apart rfl h
  | maskClr => exact execMaskClr_apart rfl h
  | holdoffExpiry => exact execHoldoffExpiry_apart rfl h
  | lanternEnter => exact execLanternEnter_apart rfl h
  | lanternExit => exact execLanternExit_apart rfl h
  | configurationRequest => exact execConfigurationRequest_apart rfl h
  | presencePress => exact execPresencePress_apart rfl h
  | presenceRx => exact execPresenceRx_apart rfl h
  | presenceClose => exact execPresenceClose_apart rfl h
  | presenceExpiry => exact execPresenceExpiry_apart rfl h
  | cfgLockChange => exact execCfgLockChange_apart rfl h
  | sealBreak => exact execSealBreak_apart rfl h
  | semAdd => exact execSemAdd_apart rfl h
  | semSub => exact execSemSub_apart rfl h
  | semRead => exact execSemRead_apart rfl h
  | semWait => exact execSemWait_apart rfl h
  | wchCancel => exact execWchCancel_apart rfl h
  | memWait => exact execMemWait_apart rfl h
  | snoopWrite => exact execSnoopWrite_apart rfl h
  | watchTimeout => exact execWatchTimeout_apart rfl h
  | msgBadOp => exact execMsgBadOp_apart rfl h
  | responseEmit => exact execResponseEmit_apart rfl h
  | ctxClear => exact execCtxClear_apart rfl h
  | ctxClearDone => exact execCtxClearDone_apart rfl h
  | eccUncorrectable => exact execEccUncorrectable_apart rfl h
  | scrub => exact execScrub_apart rfl h
  | sumpRead => exact execSumpRead_apart rfl h
  | semCmdAdd => exact execSemCmdAdd_apart rfl h
  | semCmdSub => exact execSemCmdSub_apart rfl h
  | semCmdSet => exact execSemCmdSet_apart rfl h
  | semCmdClrFlags => exact execSemCmdClrFlags_apart rfl h
  | semCmdLoadView => exact execSemCmdLoadView_apart rfl h
  | domSwitch => exact execDomSwitch_apart rfl h
  | rebase => exact execRebase_apart rfl h
  | rebaseStep => exact execRebaseStep_apart rfl h
  | parentSwitch => exact execParentSwitch_apart rfl h
  | srvModeWrite => exact execSrvModeWrite_apart rfl h
  | handover => exact execHandover_apart rfl h
  | handoverTimeout => exact execHandoverTimeout_apart rfl h
  | holdoverAgeExpiry => exact execHoldoverAgeExpiry_apart rfl h
  | distMute => exact execDistMute_apart rfl h
  | acquireTimeout => exact execAcquireTimeout_apart rfl h
  | calPeriod => exact execCalPeriod_apart rfl h
  | dbgArm => exact execDbgArm_apart rfl h
  | dbgTrigger => exact execDbgTrigger_apart rfl h
  | dbgStop => exact execDbgStop_apart rfl h
  | dbgInject => exact execDbgInject_apart rfl h
  | syncFrameSend => exact execSyncFrameSend_apart rfl h
  | tapSyncFrameRx => exact execTapSyncFrameRx_apart rfl h
  | tapDelayUpdate => exact execTapDelayUpdate_apart rfl h
  | tapReturnLost => exact execTapReturnLost_apart rfl h
  | tapResync => exact execTapResync_apart rfl h
  | tapEnWrite => exact execTapEnWrite_apart rfl h
  | regionStopEdge => exact execRegionStopEdge_apart rfl h
  | tapReadReq => exact execTapReadReq_apart rfl h
  | captureEdge => exact execCaptureEdge_apart rfl h
  | captureRecordEnter => exact execCaptureRecordEnter_apart rfl h
  | capRecRead => exact execCapRecRead_apart rfl h
  | dripArm => exact execDripArm_apart rfl h
  | dripStop => exact execDripStop_apart rfl h
  | dripPulseStart => exact execDripPulseStart_apart rfl h
  | dripPulseEnd => exact execDripPulseEnd_apart rfl h
  | launchOrigStart => exact execLaunchOrigStart_apart rfl h
  | launchOrigCancel => exact execLaunchOrigCancel_apart rfl h
  | launchReqTimeout => exact execLaunchReqTimeout_apart rfl h
  | armRequestRx => exact execArmRequestRx_apart rfl h
  | armBroadcastDist => exact execArmBroadcastDist_apart rfl h
  | armBroadcastUnit => exact execArmBroadcastUnit_apart rfl h
  | censusRx => exact execCensusRx_apart rfl h
  | launchCutoffExpiry => exact execLaunchCutoffExpiry_apart rfl h
  | goRelay => exact execGoRelay_apart rfl h
  | goRx => exact execGoRx_apart rfl h
  | abortRxUnit => exact execAbortRxUnit_apart rfl h
  | abortRelay => exact execAbortRelay_apart rfl h
  | launchGuardExpiry => exact execLaunchGuardExpiry_apart rfl h
  | launchFire => exact execLaunchFire_apart rfl h
  | launchLatenessJudge => exact execLaunchLatenessJudge_apart rfl h
  | launchDeadline => exact execLaunchDeadline_apart rfl h
  | lchRecRead => exact execLchRecRead_apart rfl h
  | launchTokenRefill => exact execLaunchTokenRefill_apart rfl h
  | reqTokenRefill => exact execReqTokenRefill_apart rfl h
  | ttbInsertCmd => exact execTtbInsertCmd_apart rfl h
  | ttbCancelCmd => exact execTtbCancelCmd_apart rfl h
  | ttbLoadCmd => exact execTtbLoadCmd_apart rfl h
  | ttbStage => exact execTtbStage_apart rfl h
  | ttbAct => exact execTtbAct_apart rfl h
  | barEnter => exact execBarEnter_apart rfl h
  | barDeadline => exact execBarDeadline_apart rfl h
  | barReset => exact execBarReset_apart rfl h
  | barEnWrite => exact execBarEnWrite_apart rfl h
  | flwProd => exact execFlwProd_apart rfl h
  | flwCons => exact execFlwCons_apart rfl h
  | flwLoadView => exact execFlwLoadView_apart rfl h
  | flwReset => exact execFlwReset_apart rfl h
  | fenceSignal => exact execFenceSignal_apart rfl h
  | drainReport => exact execDrainReport_apart rfl h
  | fncTimeout => exact execFncTimeout_apart rfl h
  | fncDiscard => exact execFncDiscard_apart rfl h
  | fncLoadView => exact execFncLoadView_apart rfl h
  | applyChannelReady => exact execApplyChannelReady_apart rfl h
  | deadlock => exact execDeadlock_apart rfl h
  | dlkRearm => exact execDlkRearm_apart rfl h
  | cmbData => exact execCmbData_apart rfl h
  | cmbPost => exact execCmbPost_apart rfl h
  | cmbRead => exact execCmbRead_apart rfl h
  | cmbUpRx => exact execCmbUpRx_apart rfl h
  | accSetGrant => exact execAccSetGrant_apart rfl h
  | substTimeout => exact execSubstTimeout_apart rfl h
  | cmbDeadlineExpiry => exact execCmbDeadlineExpiry_apart rfl h
  | cmbDownRxDist => exact execCmbDownRxDist_apart rfl h
  | cmbDownRxUnit => exact execCmbDownRxUnit_apart rfl h
  | ackcmbRx => exact execAckcmbRx_apart rfl h
  | cmbAckTimeout => exact execCmbAckTimeout_apart rfl h
  | commitRxDist => exact execCommitRxDist_apart rfl h
  | commitRxUnit => exact execCommitRxUnit_apart rfl h
  | heldCommitRelease => exact execHeldCommitRelease_apart rfl h
  | cmbUnitDeadline => exact execCmbUnitDeadline_apart rfl h
  | cmbGalStateWrite => exact execCmbGalStateWrite_apart rfl h
  | substHdr => exact execSubstHdr_apart rfl h
  | substData => exact execSubstData_apart rfl h
  | substReq => exact execSubstReq_apart rfl h
  | resultRecord => exact execResultRecord_apart rfl h
  | syncRecord => exact execSyncRecord_apart rfl h
  | launchOpen => exact execLaunchOpen_apart rfl h
  | launchDecision => exact execLaunchDecision_apart rfl h
  | launchCensus => exact execLaunchCensus_apart rfl h
  | launchReq => exact execLaunchReq_apart rfl h
  | calibrationRecord => exact execCalibrationRecord_apart rfl h
  | xoFail => exact execXoFail_apart rfl h
  | refClockLoss => exact execRefClockLoss_apart rfl h
  | refPulseTimeout => exact execRefPulseTimeout_apart rfl h
  | refSecondMark => exact execRefSecondMark_apart rfl h
  | sourceQualified => exact execSourceQualified_apart rfl h
  | wtrExpiry => exact execWtrExpiry_apart rfl h
  | switchCommit => exact execSwitchCommit_apart rfl h
  | realign => exact execRealign_apart rfl h
  | htSecondMark => exact execHtSecondMark_apart rfl h
  | ptpAnnounceRx => exact execPtpAnnounceRx_apart rfl h
  | ptpSyncRx => exact execPtpSyncRx_apart rfl h
  | ptpFollowUpRx => exact execPtpFollowUpRx_apart rfl h
  | ptpDelayReqTimer => exact execPtpDelayReqTimer_apart rfl h
  | ptpDelayRespRx => exact execPtpDelayRespRx_apart rfl h
  | ptpActivityTimeout => exact execPtpActivityTimeout_apart rfl h
  | ptpCfgCommit => exact execPtpCfgCommit_apart rfl h
  | frmoutPulse => exact execFrmoutPulse_apart rfl h
  | ppsoutPulseEnd => exact execPpsoutPulseEnd_apart rfl h
  | arpRequestRx => exact execArpRequestRx_apart rfl h
  | ptpDiscardedFrame => exact execPtpDiscardedFrame_apart rfl h
  | thmSample => exact execThmSample_apart rfl h
  | thmSensorFail => exact execThmSensorFail_apart rfl h
  | thmClrMax => exact execThmClrMax_apart rfl h
  | registerWrite => exact execRegisterWrite_apart rfl h
  | registerRead => exact execRegisterRead_apart rfl h
  | regAccessTimeout => exact execRegAccessTimeout_apart rfl h
  | pageLockRead => exact execPageLockRead_apart rfl h
  | smbusBlockWrite => exact execSmbusBlockWrite_apart rfl h
  | smbusReadRequest => exact execSmbusReadRequest_apart rfl h
  | smbusBlockRead => exact execSmbusBlockRead_apart rfl h

/-! ## One tick -/

/-- The machine with its clocks moved on, before anything acts on the new tick. -/
def clocked (s : State) : State := onDist (dB clockBase) (onUnit (uB clockBase) s)

theorem tickOp_clocked (s : State) : tickOp s = ifDist distTick (ifUnit unitTick (clocked s)) := rfl

/-- What acts on a tick leaves the clocks where the tick put them. -/
theorem tickOp_keeps_clocked (s : State) : StateKeeps true (clocked s) (tickOp s) :=
  ifDist_keeps (fun _ h => distTick_keeps h) (ifUnit_keeps (fun _ h => unitTick_keeps h) (StateKeeps.refl _))

theorem step_of_pending_nil {s : State} (h : s.pending = []) : step s = .next (tickOp s) := by
  simp only [step, h]
theorem step_of_pending_cons {s : State} {c : Instr} {q : List Instr} (h : s.pending = c :: q) :
    step s = exec c { s with pending := q } := by
  simp only [step, h]

/-! ## Hall time (R18) -/

/-- From `s` to `t` neither counter is loaded, stepped or stopped. -/
structure SameTime (s t : State) : Prop where
  unit_ns : t.unit.base.ns = s.unit.base.ns
  unit_valid : t.unit.base.valid = s.unit.base.valid
  dist_ns : t.dist.base.ns = s.dist.base.ns
  dist_valid : t.dist.base.valid = s.dist.base.valid

theorem SameTime.refl (s : State) : SameTime s s := ⟨rfl, rfl, rfl, rfl⟩
theorem SameTime.trans {s t w : State} (h : SameTime s t) (k : SameTime t w) : SameTime s w :=
  ⟨k.unit_ns.trans h.unit_ns, k.unit_valid.trans h.unit_valid, k.dist_ns.trans h.dist_ns, k.dist_valid.trans h.dist_valid⟩
theorem SameTime.of_keeps {s t : State} (h : StateKeeps true s t) : SameTime s t :=
  ⟨(h.unit.clock rfl).ns, (h.unit.clock rfl).valid, (h.dist.clock rfl).ns, (h.dist.clock rfl).valid⟩

/-- Stopping (R471) leaves the counters. -/
theorem distStop_sameTime (s : State) : SameTime s (distStop s) := by
  have hdown : StateKeeps true s ((s.dist.ports.map (·.1)).foldl (fun s n => linkDown (distRef n) s) s) :=
    foldState_keeps (fun _ _ h => linkDown_keeps h) (StateKeeps.refl s)
  exact (SameTime.of_keeps hdown).trans ⟨rfl, rfl, rfl, rfl⟩

theorem logD_distStop_sameTime (h : Hap) (port obj uid aux : Nat) (s : State) :
    SameTime s (distStop (logD h port obj uid aux s)) :=
  (SameTime.of_keeps (logD_keeps (StateKeeps.refl s))).trans (distStop_sameTime _)

/-- A sample before the trip point is judged: the sample recorded, MAX and WARN updated (R617, R638). -/
def thmRecord (k temp : Nat) (s : State) : State :=
  thmJudge (onDist (dB fun b =>
    let c := wr (thmTemp k) (BitVec.ofNat 32 (2 ^ 31 + temp)) b
    if ((List.range 4).all fun j => (thmValid s.dist.base j).isNone) ∨ sext 12 (rdF c 0x13050 0 12) < sext 12 temp
    then wrF 0x13050 0 12 temp c else c) s)

theorem thmSampleOp_eq (k temp : Nat) (s : State) : thmSampleOp k temp s =
    if 1000 ≤ sext 12 temp ∧ (thmRecord k temp s).dist.base.phase ≠ .stopped
    then distStop (logD dThmTrip noPort k 0 0 (thmRecord k temp s)) else thmRecord k temp s := rfl

theorem thmRecord_keeps (k temp : Nat) (s : State) : StateKeeps true s (thmRecord k temp s) :=
  thmJudge_keeps (onDist_keeps (fun _ h => dB_keeps (fun _ h => iteBase_keeps (wrF_keeps (wr_keeps h)) (wr_keeps h)) h)
    (StateKeeps.refl s))

theorem thmSampleOp_sameTime (k temp : Nat) (s : State) : SameTime s (thmSampleOp k temp s) := by
  have hrec := SameTime.of_keeps (thmRecord_keeps k temp s)
  rw [thmSampleOp_eq]
  split
  · exact hrec.trans (logD_distStop_sameTime _ _ _ _ _ _)
  · exact hrec

theorem distInitOp_sameTime (s : State) : SameTime s (distInitOp s) := by
  simp only [distInitOp]
  split
  · exact SameTime.trans (t := onDist (dB fun b => { b with phase := .run }) s) ⟨rfl, rfl, rfl, rfl⟩
      (SameTime.of_keeps (foldState_keeps (fun _ _ h => testDown_keeps h) (StateKeeps.refl _)))
  · exact SameTime.refl s

theorem unitInitOp_sameTime (s : State) : SameTime s (unitInitOp s) := by
  simp only [unitInitOp]
  split
  · exact SameTime.trans (t := onUnit (uB fun b => { b with phase := .run }) s) ⟨rfl, rfl, rfl, rfl⟩
      (SameTime.of_keeps (unitFsm_keeps (testDown_keeps (testDown_keeps (setTck_keeps (StateKeeps.refl _))))))
  · exact SameTime.refl s

section
variable {f : State → State} {s : State}
theorem ifDist_sameTime (h : SameTime s (f s)) : SameTime s (ifDist f s) := by
  unfold ifDist
  split
  · exact h
  · exact SameTime.refl s
theorem ifDistRuns_sameTime (h : SameTime s (f s)) : SameTime s (ifDistRuns f s) := by
  unfold ifDistRuns
  split
  · exact h
  · exact SameTime.refl s
end

theorem exec_sameTime {c : Instr} {s t : State} (hc : mayLoadTime c = false) (h : exec c s = .next t) : SameTime s t := by
  cases hk : mayChangeClock c with
  | false =>
    have hno : samplesStraps c = true → isUnit s.dist.base = false := by cases c <;> intro e <;> cases e; cases hc
    exact SameTime.of_keeps (exec_keeps (fun e => absurd (hk.symm.trans e) Bool.false_ne_true) hno h)
  | true =>
    cases c with
    | distSramInitDone => cases h; exact distInitOp_sameTime s
    | unitSramInitDone => cases h; exact unitInitOp_sameTime s
    | wdogFail engine => cases h; exact ifDistRuns_sameTime (logD_distStop_sameTime _ _ _ _ _ _)
    | distMemFatal mem => cases h; exact ifDistRuns_sameTime (logD_distStop_sameTime _ _ _ _ _ _)
    | thmSample k temp => cases h; exact ifDist_sameTime (thmSampleOp_sameTime _ _ _)
    | _ => exact absurd (hc.symm.trans hk) Bool.false_ne_true

/-! ## A stopped distributor (R471) -/

section
variable {f : State → State} {s : State}
theorem ifDistRuns_of_stopped (h : s.dist.base.phase = .stopped) : ifDistRuns f s = s :=
  if_neg (by rw [h]; decide)
theorem ifRoot_of_stopped (h : s.dist.base.phase = .stopped) : ifRoot f s = s := by
  rw [ifRoot, ifDistRuns_of_stopped h, ite_self]
theorem ifPort_dist_of_stopped {n : Fin 132} (h : s.dist.base.phase = .stopped) : ifPort (.dist n) f s = s :=
  ifDistRuns_of_stopped h
theorem ifDist_phase {p : Phase} (hf : (f s).dist.base.phase = p) (h : s.dist.base.phase = p) :
    (ifDist f s).dist.base.phase = p := by
  unfold ifDist
  split
  · exact hf
  · exact h
end

theorem thmSampleOp_of_stopped {k temp : Nat} {s : State} (h : s.dist.base.phase = .stopped) :
    (thmSampleOp k temp s).dist.base.phase = .stopped := by
  have hrec : (thmRecord k temp s).dist.base.phase = .stopped := ((thmRecord_keeps k temp s).dist.clock rfl).phase.trans h
  rw [thmSampleOp_eq, if_neg (fun e => e.2 hrec)]
  exact hrec

theorem exec_stopped {c : Instr} {s t : State} (hc : distReset c = false) (hs : s.dist.base.phase = .stopped)
    (h : exec c s = .next t) : t.dist.base.phase = .stopped := by
  cases hp : commandPart c with
  | unit =>
    have hsame := exec_otherSame h
    rw [hp] at hsame
    exact (congrArg (fun d => d.base.phase) hsame).trans hs
  | dist =>
    cases hk : mayChangeClock c with
    | false =>
      have hno : samplesStraps c = true → isUnit s.dist.base = false := by cases c <;> intro e <;> cases e; cases hk
      exact ((exec_keeps (fun e => absurd (hk.symm.trans e) Bool.false_ne_true) hno h).dist.clock rfl).phase.trans hs
    | true =>
      cases c with
      | timeRx rx ns gen frac =>
        obtain ⟨port, lane⟩ := rx
        cases port with
        | unit d => cases hp
        | dist n =>
          cases h
          exact (congrArg (fun s : State => s.dist.base.phase) (ifPort_dist_of_stopped hs)).trans hs
      | epochApply frac =>
        cases h
        exact (congrArg (fun s : State => s.dist.base.phase) (ifRoot_of_stopped hs)).trans hs
      | refSecondMark n edge =>
        cases h
        exact (congrArg (fun s : State => s.dist.base.phase) (ifRoot_of_stopped hs)).trans hs
      | powerOnReset =>
        cases h
        rw [powerOnOp, if_neg (by rw [hs]; decide), hs]
      | distResetRelease root domB tier smba =>
        cases h
        rw [distReleaseOp, if_neg (by rw [hs]; decide), hs]
      | distSramInitDone =>
        cases h
        simp only [distInitOp, hs, reduceCtorEq, false_and, if_false]
      | wdogFail engine =>
        cases h
        rw [ifDistRuns_of_stopped hs, hs]
      | distMemFatal mem =>
        cases h
        rw [ifDistRuns_of_stopped hs, hs]
      | thmSample k temp =>
        cases h
        exact ifDist_phase (thmSampleOp_of_stopped hs) hs
      | supplyFault => cases hc
      | warmReset => cases hc
      | tckReload => cases hp
      | unitReset => cases hp
      | unitResetRelease => cases hp
      | unitSramInitDone => cases hp
      | registerWrite part =>
        cases hp
        cases hk
      | _ => cases hk

/-! ## The obligations -/

/-- Settles O6: a command keeps the invariant by `exec_keeps`, a tick by `tickOp_keeps`. -/
theorem everyStepKeepsInv : Obligations.EveryStepKeepsInv := by
  unfold Obligations.EveryStepKeepsInv
  intro s t hi h
  cases hq : s.pending with
  | nil =>
    rw [step_of_pending_nil hq] at h
    cases h
    exact (tickOp_keeps (StateKeeps.refl s)).inv hi
  | cons c q =>
    rw [step_of_pending_cons hq] at h
    have hi' : State.Inv { s with pending := q } := hi
    exact (exec_keeps (κ := false) (fun _ => rfl) (fun _ => hi'.2.part) h).inv hi'

/-- Settles O2: the clocks move on first, and nothing that acts on the tick moves them again. -/
theorem emptyQueueIsOneTick : Obligations.EmptyQueueIsOneTick := by
  unfold Obligations.EmptyQueueIsOneTick
  intro s hq
  have h := tickOp_keeps_clocked s
  have hu := h.unit.clock rfl
  have hd := h.dist.clock rfl
  exact ⟨_, step_of_pending_nil hq, h.queue.trans hq, hu.tick, hd.tick, hu.valid, hd.valid, hu.ns, hd.ns⟩

/-- Settles O3: every command answers, and its answer has the queue it found. -/
theorem commandsLeaveTheQueue : Obligations.CommandsLeaveTheQueue := by
  unfold Obligations.CommandsLeaveTheQueue
  intro c s
  obtain ⟨t, ht⟩ := exec_next c s
  exact ⟨t, ht, exec_pending ht⟩

/-- Settles O4, command by command. -/
theorem commandsStayAtTheirPart : Obligations.CommandsStayAtTheirPart := by
  unfold Obligations.CommandsStayAtTheirPart
  intro c s
  obtain ⟨t, ht⟩ := exec_next c s
  exact ⟨t, ht, exec_otherSame ht⟩

/-- Settles O7: most commands keep the whole clock; those that change the phase alone keep both counters. -/
theorem hallTimeNeverSteps : Obligations.HallTimeNeverSteps := by
  unfold Obligations.HallTimeNeverSteps
  intro c s hc
  obtain ⟨t, ht⟩ := exec_next c s
  have h := exec_sameTime hc ht
  exact ⟨t, ht, h.unit_ns, h.unit_valid, h.dist_ns, h.dist_valid⟩

/-- Settles O8: the commands that change a distributor's phase do nothing to one that is stopped, and a tick changes no phase. -/
theorem stoppedUntilReset : Obligations.StoppedUntilReset := by
  unfold Obligations.StoppedUntilReset
  intro s hs
  refine ⟨fun c hc => ?_, fun hq => ⟨_, step_of_pending_nil hq, ?_⟩⟩
  · obtain ⟨t, ht⟩ := exec_next c s
    exact ⟨t, ht, exec_stopped hc hs ht⟩
  · exact ((tickOp_keeps_clocked s).dist.clock rfl).phase.trans hs

/-- Settles O1: it is how a step takes the command at the front. -/
theorem stepRunsFrontCommand : Obligations.StepRunsFrontCommand := by
  unfold Obligations.StepRunsFrontCommand
  intro c q s h
  exact step_of_pending_cons h

/-- Settles O5, each part by its kind, its empty register file or the few registers a root's release writes, and its empty log. -/
theorem resetIsInOrder : Obligations.ResetIsInOrder := by
  unfold Obligations.ResetIsInOrder
  exact ⟨⟨rfl, rfl, by decide⟩, ⟨rfl, by decide, by decide⟩⟩

end Sys2Proof.Proofs
end

section
/-! PROOFS. The gates that every command passes, and what a change of a link's state does to its port and to the others. -/

namespace Sys2Proof.Proofs

open Sys2Proof Sys2Proof.Machine

/-! ## Gates: a command reaches its part only where the part is in service -/

theorem live_of_run {b : Base} (h : b.phase = .run) : live b = true := by simp [live, h]

section
variable {f : State → State} {s : State}
theorem ifUnit_of_live (h : live s.unit.base = true) : ifUnit f s = f s := if_pos h
theorem ifDist_of_live (h : live s.dist.base = true) : ifDist f s = f s := if_pos h
theorem ifPart_of_live {p : Part} (h : live (partBase s p) = true) : ifPart p f s = f s := if_pos h
theorem ifUnitRuns_of_run (h : unitRuns s) : ifUnitRuns f s = f s := if_pos h
theorem ifDistRuns_of_run (h : distRuns s) : ifDistRuns f s = f s := if_pos h
theorem ifUnit_of_not_live (h : live s.unit.base = false) : ifUnit f s = s := if_neg (by rw [h]; decide)
theorem ifDist_of_not_live (h : live s.dist.base = false) : ifDist f s = s := if_neg (by rw [h]; decide)
theorem ifPart_of_not_live {p : Part} (h : live (partBase s p) = false) : ifPart p f s = s := if_neg (by rw [h]; decide)
theorem ifUnitRuns_of_not_run (h : ¬ unitRuns s) : ifUnitRuns f s = s := if_neg h
theorem ifDistRuns_of_not_run (h : ¬ distRuns s) : ifDistRuns f s = s := if_neg h
theorem ifPort_of_run {p : PortRef} (h : portRuns p s) : ifPort p f s = f s := by
  cases p with
  | unit d => exact if_pos h
  | dist n => exact if_pos h
theorem ifRoot_of_run (h : rootRuns s) : ifRoot f s = f s := (if_pos h.1).trans (if_pos h.2)

/-! What changes nothing changes nothing behind a gate either. -/
theorem ifUnit_of_self (h : f s = s) : ifUnit f s = s := by rw [ifUnit, h, ite_self]
theorem ifDist_of_self (h : f s = s) : ifDist f s = s := by rw [ifDist, h, ite_self]
theorem ifPart_of_self {p : Part} (h : f s = s) : ifPart p f s = s := by rw [ifPart, h, ite_self]
theorem ifUnitRuns_of_self (h : f s = s) : ifUnitRuns f s = s := by rw [ifUnitRuns, h, ite_self]
theorem ifDistRuns_of_self (h : f s = s) : ifDistRuns f s = s := by rw [ifDistRuns, h, ite_self]
theorem ifPort_of_self {p : PortRef} (h : f s = s) : ifPort p f s = s := by
  cases p with
  | unit d => exact ifUnitRuns_of_self h
  | dist n => exact ifDistRuns_of_self h
theorem ifRoot_of_self (h : f s = s) : ifRoot f s = s := by rw [ifRoot, ifDistRuns_of_self h, ite_self]
end

/-! ## Ports and the bases of their parts -/

section
variable {p q : PortRef} {s : State}
theorem nowOf_eq_of_base {t : State} (h : baseOf t p = baseOf s p) : nowOf t p = nowOf s p := congrArg Base.tick h
@[simp] theorem nowOf_setPort {lp : LinkPort} : nowOf (setPort q lp s) p = nowOf s p := nowOf_eq_of_base baseOf_setPort
@[simp] theorem nowOf_onPort {f : LinkPort → LinkPort} : nowOf (onPort q f s) p = nowOf s p := nowOf_setPort
@[simp] theorem getPort_portEvt {i : Nat} : getPort (portEvt q i s) p = getPort s p := getPort_onBaseOf
theorem onPort_congr {f g : LinkPort → LinkPort} (h : f (getPort s p) = g (getPort s p)) : onPort p f s = onPort p g s :=
  congrArg (setPort p · s) h
/-- Only a port's health and its part's base say whether it may leave LINK_DOWN. -/
theorem portServes_congr {t : State} (hb : baseOf t p = baseOf s p) (hh : (getPort t p).hlth = (getPort s p).hlth) :
    portServes t p = portServes s p := by
  cases p with
  | unit d => simp only [portServes, portEn, hb]
  | dist n =>
    have hd : t.dist.base = s.dist.base := hb
    simp only [portServes, portEn, hb, hh, hd, isRoot]

/-! ## Entering a link state (R104) -/

theorem getPort_setLinkState_same {st : LinkState} (h : (getPort s p).phy.st ≠ st) :
    getPort (setLinkState p st s) p =
      { getPort s p with phy := { (getPort s p).phy with st := st, stAt := nowOf s p } } := by
  simp only [setLinkState, if_neg h, getPort_portEvt, getPort_setPort_same]
theorem getPort_setLinkState_other {st : LinkState} (h : q ≠ p) : getPort (setLinkState p st s) q = getPort s q := by
  simp only [setLinkState]
  split
  · rfl
  · rw [getPort_portEvt, getPort_setPort_other h]
theorem setLinkState_st {st : LinkState} : (getPort (setLinkState p st s) p).phy.st = st := by
  by_cases h : (getPort s p).phy.st = st
  · simp only [setLinkState, if_pos h]
    exact h
  · rw [getPort_setLinkState_same h]
theorem setLinkState_arq {st : LinkState} : (getPort (setLinkState p st s) p).arq = (getPort s p).arq := by
  by_cases h : (getPort s p).phy.st = st
  · simp only [setLinkState, if_pos h]
  · rw [getPort_setLinkState_same h]

/-- Going to LINK_TRAIN from another state: lanes and traffic start over, the other ports are as they were. -/
theorem getPort_linkTrain_same (h : (getPort s p).phy.st ≠ .train) :
    getPort (linkTrain p s) p =
      { dropTraffic (resetLanes (nowOf s p) (getPort s p)) with
        phy := { (resetLanes (nowOf s p) (getPort s p)).phy with st := .train, stAt := nowOf s p } } := by
  have hst : (getPort (onPort p (fun lp => dropTraffic (resetLanes (nowOf s p) lp)) s) p).phy.st ≠ .train := by
    rw [getPort_onPort_same]
    exact h
  rw [linkTrain, getPort_setLinkState_same hst, getPort_onPort_same, nowOf_onPort]
  rfl
theorem getPort_linkTrain_other (h : q ≠ p) : getPort (linkTrain p s) q = getPort s q := by
  rw [linkTrain, getPort_setLinkState_other h, getPort_onPort_other h]
theorem getPort_linkDown_other (h : q ≠ p) : getPort (linkDown p s) q = getPort s q := by
  rw [linkDown, getPort_setLinkState_other h, getPort_onPort_other h]
theorem linkDown_st : (getPort (linkDown p s) p).phy.st = .down := setLinkState_st
theorem linkDown_arq : (getPort (linkDown p s) p).arq = {} := by
  rw [linkDown, setLinkState_arq, getPort_onPort_same]
  rfl

/-! ## The test of the LINK_DOWN condition (R104) -/

/-- A lane of the port hears a signal. -/
def hearsSignal (phy : LinkPhy) : Bool := phy.lane0.signal || phy.lane1.signal

/-- The 100 ms after a TRAIN_FAIL have not run (R104). -/
def trainBlocked (s : State) (p : PortRef) : Bool := match (getPort s p).phy.failAt with
  | some t => decide (nowOf s p < t + 100000000)
  | none => false

theorem testDown_eq : testDown p s =
    if decide ((getPort s p).phy.st = .down) && portServes s p && !trainBlocked s p && hearsSignal (getPort s p).phy then
      linkTrain p (setPort p { getPort s p with phy := { (getPort s p).phy with failAt := none } } s)
    else s := rfl

theorem trainBlocked_iff : trainBlocked s p = true ↔ ∃ t, (getPort s p).phy.failAt = some t ∧ nowOf s p < t + 100000000 := by
  unfold trainBlocked
  cases (getPort s p).phy.failAt <;> simp

theorem testDown_other (h : q ≠ p) : getPort (testDown p s) q = getPort s q := by
  rw [testDown_eq]
  split
  · rw [getPort_linkTrain_other h, getPort_setPort_other h]
  · rfl

theorem testDown_of_blocked (h : (getPort s p).phy.st ≠ .down ∨ portServes s p = false ∨
    trainBlocked s p = true ∨ hearsSignal (getPort s p).phy = false) : testDown p s = s := by
  rw [testDown_eq, if_neg]
  rcases h with h | h | h | h <;> simp [h]

/-- The port is in LINK_TRAIN from now on, and holds no traffic and no sequence counts. -/
def TrainsNow (p : PortRef) (s t : State) : Prop :=
  (getPort t p).phy.st = .train ∧ (getPort t p).phy.stAt = nowOf s p ∧ (getPort t p).arq = {} ∧
    ∀ q, q ≠ p → getPort t q = getPort s q

theorem linkTrain_trainsNow (h : (getPort s p).phy.st ≠ .train) : TrainsNow p s (linkTrain p s) :=
  have hp := getPort_linkTrain_same h
  ⟨congrArg (fun lp : LinkPort => lp.phy.st) hp, congrArg (fun lp : LinkPort => lp.phy.stAt) hp, congrArg LinkPort.arq hp,
    fun _ hq => getPort_linkTrain_other hq⟩

theorem testDown_trainsNow (hst : (getPort s p).phy.st = .down) (hserves : portServes s p = true)
    (hfree : trainBlocked s p = false) (hsig : hearsSignal (getPort s p).phy = true) : TrainsNow p s (testDown p s) := by
  rw [testDown_eq, if_pos (by simp [hst, hserves, hfree, hsig])]
  obtain ⟨h1, h2, h3, h4⟩ := linkTrain_trainsNow (p := p)
    (s := setPort p { getPort s p with phy := { (getPort s p).phy with failAt := none } } s)
    (by rw [getPort_setPort_same]; simp [hst])
  exact ⟨h1, by rw [h2, nowOf_setPort], h3, fun q hq => by rw [h4 q hq, getPort_setPort_other hq]⟩

/-- A port that trains anew keeps the signal of its lanes, and no lock. -/
theorem linkTrain_lane {lane : Bool} (h : (getPort s p).phy.st ≠ .train) :
    (laneOf (getPort (linkTrain p s) p).phy lane).signal = (laneOf (getPort s p).phy lane).signal ∧
      (laneOf (getPort (linkTrain p s) p).phy lane).lock = false := by
  rw [getPort_linkTrain_same h]
  cases lane <;> exact ⟨rfl, rfl⟩

theorem testDown_lane {lane : Bool} :
    (laneOf (getPort (testDown p s) p).phy lane).signal = (laneOf (getPort s p).phy lane).signal ∧
      ((laneOf (getPort s p).phy lane).lock = false → (laneOf (getPort (testDown p s) p).phy lane).lock = false) := by
  rw [testDown_eq]
  split
  · rename_i hc
    simp only [Bool.and_eq_true, decide_eq_true_eq] at hc
    obtain ⟨⟨⟨hst, _⟩, _⟩, _⟩ := hc
    have hl := linkTrain_lane (p := p) (lane := lane)
      (s := setPort p { getPort s p with phy := { (getPort s p).phy with failAt := none } } s)
      (by rw [getPort_setPort_same]; simp [hst])
    rw [getPort_setPort_same] at hl
    exact ⟨hl.1.trans (by cases lane <;> rfl), fun _ => hl.2⟩
  · exact ⟨rfl, id⟩

/-! ## A signal appears or goes -/

section
variable {lane : Bool} {f : Lane → Lane} {lp : LinkPort} {now : Nat}
@[simp] theorem laneOf_onLane_same : laneOf (onLane lane f lp).phy lane = f (laneOf lp.phy lane) := by cases lane <;> rfl
theorem onLane_hlth : (onLane lane f lp).hlth = lp.hlth := by cases lane <;> rfl
theorem onLane_failAt : (onLane lane f lp).phy.failAt = lp.phy.failAt := by cases lane <;> rfl
theorem hearsSignal_of_lane (h : (laneOf lp.phy lane).signal = true) : hearsSignal lp.phy = true := by
  cases lane <;> simp_all [hearsSignal, laneOf]

/-- What READY changes of a port is `readyAt` alone. -/
theorem noteTrain_cases : noteTrain now lp = lp ∨ ∃ r, noteTrain now lp = { lp with phy := { lp.phy with readyAt := r } } := by
  unfold noteTrain noteReady
  split
  · exact .inr ⟨_, rfl⟩
  · exact .inl rfl
theorem noteTrain_lane : laneOf (noteTrain now lp).phy lane = laneOf lp.phy lane := by
  obtain h | ⟨r, h⟩ := noteTrain_cases (now := now) (lp := lp) <;> rw [h]
  cases lane <;> rfl
theorem noteTrain_hlth : (noteTrain now lp).hlth = lp.hlth := by
  obtain h | ⟨r, h⟩ := noteTrain_cases (now := now) (lp := lp) <;> rw [h]
theorem noteTrain_st : (noteTrain now lp).phy.st = lp.phy.st := by
  obtain h | ⟨r, h⟩ := noteTrain_cases (now := now) (lp := lp) <;> rw [h]
theorem noteTrain_failAt : (noteTrain now lp).phy.failAt = lp.phy.failAt := by
  obtain h | ⟨r, h⟩ := noteTrain_cases (now := now) (lp := lp) <;> rw [h]
end

/-- A lane as its receiver sees a signal come or go. -/
def laneSignal (now : Nat) (present : Bool) (l : Lane) : Lane :=
  if l.signal = present then l else { l with signal := present, signalAt := now, lock := l.lock && present }

theorem laneSignal_signal {now : Nat} {present : Bool} {l : Lane} : (laneSignal now present l).signal = present := by
  unfold laneSignal
  split
  · assumption
  · rfl
theorem laneSignal_lock {now : Nat} {l : Lane} (h : l.signal = true) : (laneSignal now false l).lock = false := by
  simp [laneSignal, h]

/-- The machine after the signal is noted, before LINK_DOWN is tested. -/
def signalNoted (p : PortRef) (lane present : Bool) (s : State) : State :=
  onPort p (fun lp => noteTrain (nowOf s p) (onLane lane (laneSignal (nowOf s p) present) lp)) s

theorem signalOp_eq {lane present : Bool} : signalOp p lane present s =
    if present then testDown p (signalNoted p lane present s) else signalNoted p lane present s := rfl

theorem signalNoted_port {lane present : Bool} : getPort (signalNoted p lane present s) p =
    noteTrain (nowOf s p) (onLane lane (laneSignal (nowOf s p) present) (getPort s p)) := getPort_onPort_same
theorem signalNoted_other {lane present : Bool} (h : q ≠ p) : getPort (signalNoted p lane present s) q = getPort s q :=
  getPort_onPort_other h
theorem signalNoted_lane {lane present : Bool} : laneOf (getPort (signalNoted p lane present s) p).phy lane =
    laneSignal (nowOf s p) present (laneOf (getPort s p).phy lane) := by
  rw [signalNoted_port, noteTrain_lane, laneOf_onLane_same]
theorem signalNoted_serves {lane present : Bool} : portServes (signalNoted p lane present s) p = portServes s p :=
  portServes_congr baseOf_onPort (by rw [signalNoted_port, noteTrain_hlth, onLane_hlth])
theorem signalNoted_blocked {lane present : Bool} : trainBlocked (signalNoted p lane present s) p = trainBlocked s p := by
  have hf : (getPort (signalNoted p lane present s) p).phy.failAt = (getPort s p).phy.failAt := by
    rw [signalNoted_port, noteTrain_failAt, onLane_failAt]
  have hn : nowOf (signalNoted p lane present s) p = nowOf s p := nowOf_onPort
  simp only [trainBlocked, hf, hn]

theorem signalOp_trainsNow {lane : Bool} (hst : (getPort s p).phy.st = .down) (hserves : portServes s p = true)
    (hfree : trainBlocked s p = false) : TrainsNow p s (signalOp p lane true s) := by
  obtain ⟨h1, h2, h3, h4⟩ := testDown_trainsNow (p := p) (s := signalNoted p lane true s)
    (by rw [signalNoted_port, noteTrain_st, onLane_st, hst]) (signalNoted_serves.trans hserves)
    (signalNoted_blocked.trans hfree)
    (hearsSignal_of_lane (lane := lane) (by rw [signalNoted_lane, laneSignal_signal]))
  exact ⟨h1, h2.trans nowOf_onPort, h3, fun q hq => (h4 q hq).trans (signalNoted_other hq)⟩

theorem signalOp_lane {lane present : Bool} :
    (laneOf (getPort (signalOp p lane present s) p).phy lane).signal = present ∧
      ((laneOf (getPort s p).phy lane).signal = true → present = false →
        (laneOf (getPort (signalOp p lane present s) p).phy lane).lock = false) := by
  rw [signalOp_eq]
  cases present with
  | true => exact ⟨by rw [if_pos rfl, testDown_lane.1, signalNoted_lane, laneSignal_signal], fun _ h => by cases h⟩
  | false => exact ⟨by rw [if_neg (by decide), signalNoted_lane, laneSignal_signal], fun h _ => by
      rw [if_neg (by decide), signalNoted_lane, laneSignal_lock h]⟩
theorem signalOp_other {lane present : Bool} (h : q ≠ p) : getPort (signalOp p lane present s) q = getPort s q := by
  rw [signalOp_eq]
  split
  · rw [testDown_other h, signalNoted_other h]
  · exact signalNoted_other h

/-! ## Links train (R104, R107) -/

theorem enableOp_true_trainsNow (hst : (getPort s p).phy.st = .down)
    (hserves : portServes (onBaseOf p (wrB (portReg p 0x040) 0 true) s) p = true) (hfree : trainBlocked s p = false)
    (hsig : hearsSignal (getPort s p).phy = true) : TrainsNow p s (enableOp p true s) := by
  have hnow : nowOf (onBaseOf p (wrB (portReg p 0x040) 0 true) s) p = nowOf s p := by
    simp only [nowOf, baseOf_onBaseOf_same, wrB_tick]
  obtain ⟨h1, h2, h3, h4⟩ := testDown_trainsNow (p := p) (s := onBaseOf p (wrB (portReg p 0x040) 0 true) s)
    (by rw [getPort_onBaseOf, hst]) hserves (by simp only [trainBlocked, getPort_onBaseOf, hnow]; exact hfree)
    (by rw [getPort_onBaseOf, hsig])
  exact ⟨h1, h2.trans hnow, h3, fun q hq => (h4 q hq).trans getPort_onBaseOf⟩

theorem exec_linkEnableWrite {en : Bool} (h : live (baseOf s p) = true) :
    exec (.linkEnableWrite p en) s = .next (enableOp p en s) := by
  cases p with
  | unit d => exact congrArg Host.Outcome.next (ifUnit_of_live h)
  | dist n => exact congrArg Host.Outcome.next (ifDist_of_live h)

theorem readmitOp_trainsNow (hst : (getPort s p).phy.st = .dead)
    (hdue : (getPort s p).phy.stAt + readmitDead s p ≤ nowOf s p) : TrainsNow p s (readmitOp p s) := by
  rw [show readmitOp p s = linkTrain p s from if_pos ⟨hst, hdue⟩]
  exact linkTrain_trainsNow (by simp [hst])

/-- Settles O9: a port trains by the test of LINK_DOWN or by the end of the dead time, and both leave it `TrainsNow`. -/
theorem linksTrain : Obligations.LinksTrain := by
  unfold Obligations.LinksTrain
  intro p s hrun
  refine ⟨fun c hc => ?_, fun lane present => ⟨_, rfl, signalOp_lane.1, signalOp_lane.2, fun q hq => signalOp_other hq⟩,
    fun h => ?_, fun h => ?_⟩
  · obtain ⟨hst, hfail, hc⟩ | ⟨rfl, hst, hdue⟩ := hc
    · have hfree : trainBlocked s p = false := Bool.eq_false_iff.mpr fun e => by
        obtain ⟨t, ht, hlt⟩ := trainBlocked_iff.mp e
        exact absurd (hfail t ht) (by omega)
      obtain ⟨rfl, hserves, hsig⟩ | ⟨⟨lane, rfl⟩, hserves⟩ | ⟨rfl, hserves, hsig⟩ := hc
      · exact ⟨_, congrArg Host.Outcome.next (ifPort_of_run hrun), testDown_trainsNow hst hserves hfree hsig⟩
      · exact ⟨_, rfl, signalOp_trainsNow hst hserves hfree⟩
      · exact ⟨_, exec_linkEnableWrite (live_of_run hrun), enableOp_true_trainsNow hst hserves hfree hsig⟩
    · exact ⟨_, congrArg Host.Outcome.next (ifPort_of_run hrun), readmitOp_trainsNow hst hdue⟩
  · refine congrArg Host.Outcome.next (ifPort_of_self (testDown_of_blocked ?_))
    rwa [trainBlocked_iff]
  · refine congrArg Host.Outcome.next (ifPort_of_self (if_neg ?_))
    rintro ⟨hst, hdue⟩
    rcases h with h | h
    · exact h hst
    · omega

/-! ## Links fall (R104, R105) -/

theorem silenceOp_of_train (h : (getPort s p).phy.st = .train) :
    silenceOp p s = if noSignal (nowOf s p) (getPort s p).phy then linkDown p s else s := by
  simp only [silenceOp, h, if_true]
theorem silenceOp_of_up (h : (getPort s p).phy.st = .up) :
    silenceOp p s = if silent (nowOf s p) (getPort s p).phy then testDown p (linkDown p s) else s := by
  simp only [silenceOp, h, reduceCtorEq, if_true, if_false]
theorem silenceOp_of_admitted (h : (getPort s p).phy.st = .admitted) :
    silenceOp p s = if silent (nowOf s p) (getPort s p).phy then linkDead p s else s := by
  simp only [silenceOp, h, reduceCtorEq, if_true, if_false]
theorem silenceOp_of_idle (h : (getPort s p).phy.st = .down ∨ (getPort s p).phy.st = .dead) : silenceOp p s = s := by
  rcases h with h | h <;> simp only [silenceOp, h, reduceCtorEq, if_false]

/-- A unit's state machine follows its links. -/
def thenFsm (p : PortRef) (s : State) : State := match p with
  | .unit _ => unitFsm s
  | .dist _ => s
@[simp] theorem thenFsm_unit {d : Dom} : thenFsm (.unit d) s = unitFsm s := rfl
@[simp] theorem thenFsm_dist {n : Fin 132} : thenFsm (.dist n) s = s := rfl

theorem exec_linkSilence (h : portRuns p s) : exec (.linkSilence p) s = .next (thenFsm p (silenceOp p s)) := by
  cases p with
  | unit d => exact congrArg Host.Outcome.next (ifPort_of_run h)
  | dist n => exact congrArg Host.Outcome.next (ifPort_of_run h)

/-- Where the clock is kept, so is the tick of every port. -/
theorem nowOf_of_keeps {t : State} (h : StateKeeps true s t) : nowOf t p = nowOf s p := by
  cases p with
  | unit d => exact (h.unit.clock rfl).tick
  | dist n => exact (h.dist.clock rfl).tick

theorem trainFailOp_of_due (hst : (getPort s p).phy.st = .train) (hdue : (getPort s p).phy.stAt + trainLimit s p ≤ nowOf s p) :
    trainFailOp p s = linkDown p (onPort p (fun lp => { lp with phy := { lp.phy with failAt := some (nowOf s p) } })
      (scorePort p 0x054 8 (logPort p lkTrainFail 0 0 s))) := by
  have hnow : nowOf (scorePort p 0x054 8 (logPort p lkTrainFail 0 0 s)) p = nowOf s p :=
    nowOf_of_keeps (scorePort_keeps (logPort_keeps (StateKeeps.refl s)))
  rw [trainFailOp, if_pos ⟨hst, hdue⟩]
  simp only [hnow]

/-- Settles O10, by the state in which each timer finds its port. -/
theorem linksFall : Obligations.LinksFall := by
  unfold Obligations.LinksFall
  intro d n s
  refine ⟨fun h => exec_linkEnableWrite (p := .unit d) h, fun h => exec_linkEnableWrite (p := .dist n) h,
    fun p hrun hst hdue => ?_, fun p hrun h => ?_, fun p hrun => ?_, fun hrun hst hno => ?_, fun hrun hst hsil => ?_,
    fun hrun hst hsil => ?_⟩
  · exact congrArg Host.Outcome.next ((ifPort_of_run hrun).trans (trainFailOp_of_due hst hdue))
  · refine congrArg Host.Outcome.next (ifPort_of_self (if_neg ?_))
    rintro ⟨hst, hdue⟩
    rcases h with h | h
    · exact h hst
    · omega
  · exact ⟨silenceOp p s, (exec_linkSilence hrun).trans (by cases p <;> rfl), silenceOp_of_train, silenceOp_of_up, silenceOp_of_admitted, silenceOp_of_idle⟩
  · refine ⟨_, (exec_linkSilence (p := .dist n) hrun).trans ?_, linkDown_st, linkDown_arq, fun q hq => getPort_linkDown_other hq⟩
    rw [silenceOp_of_train hst, if_pos hno, thenFsm_dist]
  · rw [exec_linkSilence (p := .dist n) hrun, silenceOp_of_admitted hst, if_pos hsil, thenFsm_dist]
  · rw [exec_linkSilence (p := .unit d) hrun, silenceOp_of_admitted hst, if_pos hsil, thenFsm_unit]
end

end Sys2Proof.Proofs
end

section
/-! PROOFS. Reception and reliable delivery on a port: the counters, the sequence test, acknowledgement, replay, lane swap. -/

namespace Sys2Proof.Proofs

open Sys2Proof Sys2Proof.Machine

section
variable {p q : PortRef} {s : State}

/-! ## What a score and a log entry change of a port -/

/-- A port with another score and WARN. -/
def Scored (a b : LinkPort) : Prop := ∃ sc w, b = { a with hlth := { a.hlth with score := sc, warn := w } }
/-- A port on which reports may have been queued. -/
def Reported (a b : LinkPort) : Prop := ∃ l g, b = { a with arq := { a.arq with txq := l, groups := g } }

theorem Reported.refl (a : LinkPort) : Reported a a := ⟨a.arq.txq, a.arq.groups, rfl⟩
theorem Reported.trans {a b c : LinkPort} (h : Reported a b) (k : Reported b c) : Reported a c := by
  obtain ⟨l, g, rfl⟩ := h
  obtain ⟨l', g', rfl⟩ := k
  exact ⟨l', g', rfl⟩

theorem getPort_logD {h : Hap} {port obj uid aux : Nat} : getPort (logD h port obj uid aux s) q = getPort s q := by
  cases q <;> rfl

theorem getPort_onDist_of_ports {f : DistState → DistState} (h : (f s.dist).ports = s.dist.ports) :
    getPort (onDist f s) q = getPort s q := by
  cases q with
  | unit d => rfl
  | dist n => exact congrArg (tabGet {} n.val) h

theorem addScore_same {n : Fin 132} {pts : Nat} :
    Scored (getPort s (.dist n)) (getPort (addScore n.val pts s) (.dist n)) := by
  simp only [addScore]
  split
  · exact ⟨_, _, rfl⟩
  · have hs : ∀ lp, getPort (onDist (setDistPort n.val lp) s) (.dist n) = lp := fun lp =>
      getPort_setPort_same (p := .dist n)
    split
    · exact ⟨_, _, ((getPort_onDist_of_ports rfl).trans getPort_logD).trans (hs _)⟩
    · exact ⟨_, _, hs _⟩
theorem addScore_other {n : Fin 132} {pts : Nat} (h : q ≠ .dist n) : getPort (addScore n.val pts s) q = getPort s q := by
  simp only [addScore]
  split
  · rfl
  · have hs : ∀ lp, getPort (onDist (setDistPort n.val lp) s) q = getPort s q := fun lp =>
      getPort_setPort_other (p := .dist n) h
    split
    · exact ((getPort_onDist_of_ports rfl).trans getPort_logD).trans (hs _)
    · exact hs _

theorem scorePort_same {o lo : Nat} : Scored (getPort s p) (getPort (scorePort p o lo s) p) := by
  cases p with
  | unit d => exact ⟨_, _, rfl⟩
  | dist n => exact addScore_same
theorem scorePort_other {o lo : Nat} (h : q ≠ p) : getPort (scorePort p o lo s) q = getPort s q := by
  cases p with
  | unit d => rfl
  | dist n => exact addScore_other h

theorem queueOn_reported {l : List TxItem} {a : LinkPort} : Reported a (queueOn false l a) := by
  unfold queueOn
  split
  · exact ⟨_, _, rfl⟩
  · exact .refl a

theorem sendSeq_reported {delay cls : Nat} {typ : BitVec 6} {hdr : BitVec 64} {pl : List (BitVec 64)} :
    Reported (getPort s q) (getPort (sendSeq p delay cls typ hdr pl s) q) := by
  by_cases h : q = p
  · subst h
    rw [sendSeq, getPort_onPort_same]
    exact Reported.trans ⟨_, _, rfl⟩ queueOn_reported
  · rw [sendSeq, getPort_onPort_other h]
    exact .refl _

theorem sendReport_reported {code detail : Nat} : Reported (getPort s q) (getPort (sendReport p code detail s) q) := by
  simp only [sendReport]
  split
  · exact sendSeq_reported
  · rw [getPort_onBaseOf]
    exact .refl _

theorem sendReports_reported {ds : List Dom} {code obj aux : Nat} :
    Reported (getPort s q) (getPort (sendReports ds code obj aux s) q) := by
  have here : ∀ (c : Bool) (p : PortRef) (t : State) {detail : Nat}, Reported (getPort s q) (getPort t q) →
      Reported (getPort s q) (getPort (if c then sendReport p code detail t else t) q) := by
    intro c p t detail ht
    cases c with
    | true => exact ht.trans sendReport_reported
    | false => exact ht
  simp only [sendReports]
  split
  · exact sendReport_reported
  · exact here _ _ _ (here _ _ _ (.refl _))

theorem getPort_onUnit_traceOnFault {h : Hap} : getPort (onUnit (traceOnFault h) s) q = getPort s q := by
  unfold traceOnFault
  cases q with
  | dist n => rfl
  | unit d =>
    cases d with
    | a => simp only [getPort, onUnit_unit, unitPort, apply_ite UnitState.portA, traceTrigger_portA, ite_self]
    | b => simp only [getPort, onUnit_unit, unitPort, apply_ite UnitState.portB, traceTrigger_portB, ite_self]

theorem logPort_reported {h : Hap} {obj aux : Nat} : Reported (getPort s q) (getPort (logPort p h obj aux s) q) := by
  cases p with
  | dist n =>
    rw [logPort, getPort_onBaseOf]
    exact .refl _
  | unit d =>
    have hlog : Reported (getPort s q)
        (getPort (onUnit (traceOnFault h) (onBaseOf (.unit d) (logLink (.unit d) h obj aux) s)) q) := by
      rw [getPort_onUnit_traceOnFault, getPort_onBaseOf]
      exact .refl _
    simp only [logPort]
    split
    · split
      · exact hlog
      · exact hlog.trans sendReports_reported
    · exact hlog

/-! ## Sending a frame; a frame in, behind and ahead of sequence (R74 to R76) -/

theorem getPort_sendUns_same {sp : Bool} {cls : Nat} {typ : BitVec 6} {body : BitVec 64} {fill : Fill} :
    getPort (sendUns p sp cls typ body fill s) p = queueOn sp [txOne (nowOf s p) 0 cls false typ body fill] (getPort s p) :=
  getPort_onPort_same
theorem getPort_sendUns_other {sp : Bool} {cls : Nat} {typ : BitVec 6} {body : BitVec 64} {fill : Fill} (h : q ≠ p) :
    getPort (sendUns p sp cls typ body fill s) q = getPort s q := getPort_onPort_other h

/-- What queueing changes of a port is its queues. -/
theorem queueOn_eq {sp : Bool} {l : List TxItem} {lp : LinkPort} :
    ∃ a b, queueOn sp l lp = { lp with arq := { lp.arq with txq := a, spq := b } } := by
  unfold queueOn
  split
  · cases sp <;> exact ⟨_, _, rfl⟩
  · exact ⟨_, _, rfl⟩
theorem queueOn_of_runs {l : List TxItem} {lp : LinkPort} (h : linkRuns lp = true) :
    queueOn false l lp = { lp with arq := { lp.arq with txq := lp.arq.txq ++ l } } := by
  simp [queueOn, h]

theorem getPort_sendAck_same (h : linkRuns (getPort s p) = true) : getPort (sendAck p s) p =
    { getPort s p with arq := { (getPort s p).arq with ackDue := none, txq := (getPort s p).arq.txq ++
      [txOne (nowOf s p) 0 1 false 0x06 (bodyOf [(8, ((getPort s p).arq.rxExp - 1).toNat)]) .none] } } := by
  rw [sendAck, getPort_onPort_same, getPort_sendUns_same, queueOn_of_runs h]

/-- A NAK for the SEQ that the port expects left less than 16 frame cycles ago (R76). -/
def nakRecent (now : Nat) (lp : LinkPort) : Bool := match lp.arq.nak with
  | some (e, t) => e == lp.arq.rxExp && decide (now < t + 64)
  | none => false

theorem sendNak_eq {reason : Nat} : sendNak p reason s = if nakRecent (nowOf s p) (getPort s p) then s else
    onPort p (fun lp => { lp with arq := { lp.arq with nak := some (lp.arq.rxExp, nowOf s p) } })
      (sendUns p false 1 0x07 (bodyOf [(8, (getPort s p).arq.rxExp.toNat), (2, reason)]) .none s) := by
  have hnow : nowOf (sendUns p false 1 0x07 (bodyOf [(8, (getPort s p).arq.rxExp.toNat), (2, reason)]) .none s) p = nowOf s p :=
    nowOf_onPort
  simp only [sendNak, hnow]
  rfl
theorem nakRecent_eq_false {now : Nat} {lp : LinkPort}
    (h : ∀ e k, lp.arq.nak = some (e, k) → e ≠ lp.arq.rxExp ∨ k + 64 ≤ now) : nakRecent now lp = false := by
  unfold nakRecent
  split
  · rename_i e k hn
    rcases h e k hn with h | h
    · simp [h]
    · simp [show ¬ now < k + 64 by omega]
  · rfl
theorem getPort_sendNak_same {reason : Nat} (h : linkRuns (getPort s p) = true)
    (hn : nakRecent (nowOf s p) (getPort s p) = false) : getPort (sendNak p reason s) p =
    { getPort s p with arq := { (getPort s p).arq with nak := some ((getPort s p).arq.rxExp, nowOf s p), txq := (getPort s p).arq.txq ++
      [txOne (nowOf s p) 0 1 false 0x07 (bodyOf [(8, (getPort s p).arq.rxExp.toNat), (2, reason)]) .none] } } := by
  rw [sendNak_eq, hn, if_neg (by decide), getPort_onPort_same, getPort_sendUns_same, queueOn_of_runs h]
theorem getPort_sendNak_other {reason : Nat} (h : q ≠ p) : getPort (sendNak p reason s) q = getPort s q := by
  rw [sendNak_eq]
  split
  · rfl
  · rw [getPort_onPort_other h, getPort_sendUns_other h]
/-- Whether it leaves a NAK or not, the port remembers one; its lanes, counters and the SEQ it expects stand. -/
theorem sendNak_port {reason : Nat} : (getPort (sendNak p reason s) p).arq.nak.isSome = true ∧
    (getPort (sendNak p reason s) p).arq.rxExp = (getPort s p).arq.rxExp ∧
    (getPort (sendNak p reason s) p).cnt = (getPort s p).cnt := by
  rw [sendNak_eq]
  split
  · rename_i h
    refine ⟨?_, rfl, rfl⟩
    unfold nakRecent at h
    split at h
    · rename_i hn
      rw [hn]; rfl
    · cases h
  · rw [getPort_onPort_same, getPort_sendUns_same]
    obtain ⟨a, b, hq⟩ := queueOn_eq (sp := false) (lp := getPort s p)
      (l := [txOne (nowOf s p) 0 1 false 0x07 (bodyOf [(8, (getPort s p).arq.rxExp.toNat), (2, reason)]) .none])
    rw [hq]
    exact ⟨rfl, rfl, rfl⟩

/-- A port after a frame in sequence is accepted, before the frame joins its group. -/
def acceptedPort (p : PortRef) (lane : Bool) (s : State) : LinkPort :=
  acceptNext (nowOf s p) (rxOnLane (nowOf s p) lane (getPort s p))

theorem seqTest_accepts {lane : Bool} {seq : BitVec 8} (h : seq = (getPort s p).arq.rxExp) :
    (seqTest p lane seq s).1 = true ∧ getPort (seqTest p lane seq s).2 p = acceptedPort p lane s ∧
      ∀ q, q ≠ p → getPort (seqTest p lane seq s).2 q = getPort s q := by
  have h0 : seq - (getPort s p).arq.rxExp = 0 := by rw [h]; exact BitVec.sub_self _
  simp only [seqTest, h0, if_true, true_and]
  refine ⟨?_, fun q hq => ?_⟩
  · rw [(noteTrig_links p _).2.2, getPort_onPort_same, getPort_onPort_same, nowOf_onPort]
    rfl
  · rw [(noteTrig_links p _).2.2, getPort_onPort_other hq, getPort_onPort_other hq]

theorem nowOf_traceRx {lane : Bool} {fs : List Frame} : nowOf (traceRx q lane fs s) p = nowOf s p := by
  cases p with
  | unit d => exact (congrArg Base.tick (unitRest_core (traceRx_took q lane fs s).unit) :)
  | dist n => exact congrArg (fun d : DistState => d.base.tick) (traceRx_dist q lane fs s)

theorem rxFrame_accepts {rx : Rx} {ok hdr : Bool} {c : Nat} {f : Frame} (h : f.seq = (getPort s rx.port).arq.rxExp) :
    getPort (rxFrame rx ok c hdr f s) rx.port =
        (if ok then attach c hdr f.body else cntUnexpected) (acceptedPort rx.port rx.lane s) ∧
      ∀ q, q ≠ rx.port → getPort (rxFrame rx ok c hdr f s) q = getPort s q := by
  obtain ⟨h1, h2, h3⟩ := seqTest_accepts (p := rx.port) (lane := rx.lane) (s := traceRx rx.port rx.lane [f] s)
    (h.trans (by rw [getPort_traceRx]))
  simp only [rxFrame, h1, if_true]
  refine ⟨?_, fun q hq => ?_⟩
  · rw [getPort_onPort_same, h2, acceptedPort, nowOf_traceRx, getPort_traceRx]
    rfl
  · rw [getPort_onPort_other hq, h3 q hq, getPort_traceRx]

theorem rxOnLane_cnt {now : Nat} {lane : Bool} {lp : LinkPort} : (rxOnLane now lane lp).cnt = lp.cnt := by
  unfold rxOnLane
  split <;> cases lane <;> rfl
theorem acceptedPort_cnt {lane : Bool} : (acceptedPort p lane s).cnt = (getPort s p).cnt :=
  (rfl : _ = (rxOnLane (nowOf s p) lane (getPort s p)).cnt).trans rxOnLane_cnt
theorem acceptedPort_arq {lane : Bool} : (acceptedPort p lane s).arq.rxExp = (getPort s p).arq.rxExp + 1 ∧
    (acceptedPort p lane s).arq.opened = (getPort s p).arq.opened ∧ (acceptedPort p lane s).arq.ackDue.isSome = true := by
  simp only [acceptedPort, acceptNext, (rxOnLane_rest _ _ _).2.2.2, true_and]
  cases (getPort s p).arq.ackDue <;> rfl

/-! ## Receiving on a port leaves every other port -/

theorem sendAck_other (h : q ≠ p) : getPort (sendAck p s) q = getPort s q := by
  rw [sendAck, getPort_onPort_other h, getPort_sendUns_other h]
theorem seqTest_other {lane : Bool} {seq : BitVec 8} (h : q ≠ p) : getPort (seqTest p lane seq s).2 q = getPort s q := by
  simp only [seqTest]
  split
  · rw [(noteTrig_links p _).2.2, getPort_onPort_other h, getPort_onPort_other h]
  · split
    · rw [sendAck_other h, getPort_onPort_other h]
    · rw [getPort_sendNak_other h, getPort_onPort_other h]
theorem rxFrame_other {rx : Rx} {ok hdr : Bool} {c : Nat} {f : Frame} (h : q ≠ rx.port) :
    getPort (rxFrame rx ok c hdr f s) q = getPort s q := by
  simp only [rxFrame]
  split
  · rw [getPort_onPort_other h, seqTest_other h, getPort_traceRx]
  · rw [seqTest_other h, getPort_traceRx]
theorem rxFrames_other {rx : Rx} {ok hdr : Bool} {c : Nat} {seq : BitVec 8} {l : List (BitVec 6 × BitVec 64)} (h : q ≠ rx.port) :
    getPort (rxFrames rx ok c hdr seq l s) q = getPort s q := by
  induction l generalizing hdr seq s with
  | nil => rfl
  | cons x l ih => exact ih.trans (rxFrame_other h)
theorem rxSeq_other {rx : Rx} {ok : Bool} {fs : List (BitVec 6 × BitVec 64)} (h : q ≠ rx.port) :
    getPort (rxSeq rx ok fs s).2 q = getPort s q := by
  unfold rxSeq
  split
  · extract_lets c t
    have ht : getPort t q = getPort s q := by
      simp only [t]
      split <;> exact rxFrames_other h
    split
    · rw [getPort_onPort_other h, ht]
    · exact ht
  · rfl

/-! ## One sequenced frame -/

/-- The queues, counts and buffers of a port, without the groups that are arriving. -/
def arqCore (lp : LinkPort) : LinkArq := { lp.arq with opened := [] }

theorem attach_unknown {c : Nat} {hdr : Bool} {b : BitVec 64} {lp : LinkPort} :
    (attach c hdr b lp).cnt.unknown = lp.cnt.unknown := by
  have hput : ∀ l (x : LinkPort), (openedPut c l x).cnt = x.cnt := fun _ _ => rfl
  simp only [attach, apply_ite LinkPort.cnt, hput, ite_self]
  split <;> rfl
theorem attach_arqCore {c : Nat} {hdr : Bool} {b : BitVec 64} {lp : LinkPort} : arqCore (attach c hdr b lp) = arqCore lp := by
  have hput : ∀ l (x : LinkPort), arqCore (openedPut c l x) = arqCore x := fun _ _ => rfl
  simp only [attach, apply_ite arqCore, hput, ite_self]
  split <;> rfl

/-- The frames of a group that is one frame long are that frame; the group leaves the port when it is whole. -/
theorem rxSeq_one {rx : Rx} {t : BitVec 6} {b : BitVec 64} (h : linkRuns (getPort s rx.port) = true) (hp : rx.part = none) :
    (rxSeq rx true [(t, b)] s).2 = rxFrame rx true (t.toNat % 32) true { typ := t, seq := rx.seq, body := b } s ∨
      (rxSeq rx true [(t, b)] s).2 = onPort rx.port (openedPut (t.toNat % 32) [])
        (rxFrame rx true (t.toNat % 32) true { typ := t, seq := rx.seq, body := b } s) := by
  simp only [rxSeq, h, hp, if_true]
  split
  · exact .inr rfl
  · exact .inl rfl
theorem rxSeq_one_port {rx : Rx} {t : BitVec 6} {b : BitVec 64} (h : linkRuns (getPort s rx.port) = true) (hp : rx.part = none) :
    arqCore (getPort (rxSeq rx true [(t, b)] s).2 rx.port) =
      arqCore (getPort (rxFrame rx true (t.toNat % 32) true { typ := t, seq := rx.seq, body := b } s) rx.port) ∧
    (getPort (rxSeq rx true [(t, b)] s).2 rx.port).cnt =
      (getPort (rxFrame rx true (t.toNat % 32) true { typ := t, seq := rx.seq, body := b } s) rx.port).cnt := by
  obtain h | h := rxSeq_one (b := b) h hp
  · rw [h]; exact ⟨rfl, rfl⟩
  · rw [h, getPort_onPort_same]; exact ⟨rfl, rfl⟩

/-- What a frame of a reserved type leaves: the count apart, what receiving it leaves. -/
theorem reservedOp_arqCore {rx : Rx} {t : BitVec 6} {b : BitVec 64} (hr : typReserved t = true) (hs : typSeq t = true)
    (h : linkRuns (getPort s rx.port) = true) (hp : rx.part = none) : arqCore (getPort (reservedOp rx t b s) rx.port) =
      arqCore (getPort (rxFrame rx true (t.toNat % 32) true { typ := t, seq := rx.seq, body := b } s) rx.port) := by
  rw [reservedOp, if_pos hr]
  simp only [hs, if_true]
  rw [← (rxSeq_one_port h hp).1]
  split
  · rw [getPort_onPort_same]; rfl
  · rfl
theorem reservedOp_inOrder {rx : Rx} {t : BitVec 6} {b : BitVec 64} (hr : typReserved t = true) (hs : typSeq t = true)
    (h : inOrder rx s) : reservedOp rx t b s = onPort rx.port cntUnknown (rxSeq rx true [(t, b)] s).2 := by
  rw [reservedOp, if_pos hr]
  simp only [hs, if_true, rxSeq_ok h]

/-! ## What a distributor's port counts -/

/-- A port that has counted a CRC-bad frame. -/
def crcCounted (lp : LinkPort) : LinkPort := { lp with
  cnt := { lp.cnt with crcErr := satInc 255 lp.cnt.crcErr, crcTotal := satInc 0xFFFFFFFF lp.cnt.crcTotal },
  hlth := { lp.hlth with vCrc := satInc 255 lp.hlth.vCrc } }

theorem crcBadOp_dist {n : Fin 132} {lane : Bool} {f : BitVec 78} (h : linkRuns (getPort s (.dist n)) = true) :
    crcBadOp (.dist n) lane f s = sendNak (.dist n) 0 (scoreCrc (.dist n) (onPort (.dist n) crcCounted s)) := by
  rw [crcBadOp, if_pos h]
  rfl

theorem scoreCrc_port {n : Fin 132} : (getPort (scoreCrc (.dist n) s) (.dist n)).cnt = (getPort s (.dist n)).cnt ∧
    (getPort (scoreCrc (.dist n) s) (.dist n)).arq = (getPort s (.dist n)).arq := by
  simp only [scoreCrc]
  split
  · obtain ⟨sc, w, h⟩ := scorePort_same (p := .dist n) (o := 0x050) (lo := 0) (s := onPort (.dist n) (fun lp =>
      { lp with hlth := { lp.hlth with crcSeen := ((distPort s.dist n.val).hlth.crcSeen + 1) % 16 } }) s)
    rw [h, getPort_onPort_same]
    exact ⟨rfl, rfl⟩
  · rw [getPort_onPort_same]
    exact ⟨rfl, rfl⟩
theorem scoreCrc_other {n : Fin 132} (h : q ≠ .dist n) : getPort (scoreCrc (.dist n) s) q = getPort s q := by
  simp only [scoreCrc]
  split
  · rw [scorePort_other h, getPort_onPort_other h]
  · exact getPort_onPort_other h

theorem crcBadOp_counts {n : Fin 132} {lane : Bool} {f : BitVec 78} (h : linkRuns (getPort s (.dist n)) = true) :
    (getPort (crcBadOp (.dist n) lane f s) (.dist n)).cnt.crcErr = satInc 255 (getPort s (.dist n)).cnt.crcErr ∧
    (getPort (crcBadOp (.dist n) lane f s) (.dist n)).cnt.crcTotal = satInc 0xFFFFFFFF (getPort s (.dist n)).cnt.crcTotal ∧
    (getPort (crcBadOp (.dist n) lane f s) (.dist n)).arq.rxExp = (getPort s (.dist n)).arq.rxExp ∧
    (getPort (crcBadOp (.dist n) lane f s) (.dist n)).arq.nak.isSome = true ∧
    ∀ q, q ≠ .dist n → getPort (crcBadOp (.dist n) lane f s) q = getPort s q := by
  rw [crcBadOp_dist h]
  obtain ⟨hn, he, hcnt⟩ := sendNak_port (p := .dist n) (s := scoreCrc (.dist n) (onPort (.dist n) crcCounted s)) (reason := 0)
  refine ⟨?_, ?_, ?_, hn, fun q hq => ?_⟩
  · rw [hcnt, scoreCrc_port.1, getPort_onPort_same]; rfl
  · rw [hcnt, scoreCrc_port.1, getPort_onPort_same]; rfl
  · rw [he, scoreCrc_port.2, getPort_onPort_same]; rfl
  · rw [getPort_sendNak_other hq, scoreCrc_other hq, getPort_onPort_other hq]

theorem reservedOp_counts {rx : Rx} {t : BitVec 6} {b : BitVec 64} (h : inOrder rx s) (hr : typReserved t = true)
    (hs : typSeq t = true) :
    (getPort (reservedOp rx t b s) rx.port).cnt.unknown = satInc 15 (getPort s rx.port).cnt.unknown ∧
    (getPort (reservedOp rx t b s) rx.port).arq.rxExp = (getPort s rx.port).arq.rxExp + 1 ∧
    ∀ q, q ≠ rx.port → getPort (reservedOp rx t b s) q = getPort s q := by
  have hport := (rxFrame_accepts (rx := rx) (ok := true) (hdr := true) (c := t.toNat % 32)
    (f := { typ := t, seq := rx.seq, body := b }) h.2.1).1
  refine ⟨?_, ?_, fun q hq => ?_⟩
  · rw [reservedOp_inOrder hr hs h, getPort_onPort_same]
    show satInc 15 (getPort (rxSeq rx true [(t, b)] s).2 rx.port).cnt.unknown = _
    rw [(rxSeq_one_port h.1.2 h.2.2).2, hport, if_pos rfl, attach_unknown, acceptedPort_cnt]
  · have hc := congrArg LinkArq.rxExp (reservedOp_arqCore (b := b) hr hs h.1.2 h.2.2)
    rw [hport, if_pos rfl, attach_arqCore] at hc
    exact Eq.trans hc acceptedPort_arq.1
  · rw [reservedOp_inOrder hr hs h, getPort_onPort_other hq, rxSeq_other hq]

theorem unexpectedOp_not_permitted {rx : Rx} {t : BitVec 6} {b : BitVec 64} (h : inOrder rx s) (hr : typReserved t = false)
    (hs : typSeq t = true) (hp : typPermitted rx.port (t.toNat % 32) = false) : unexpectedOp rx t b s =
      rxFrame rx false (t.toNat % 32) false { typ := t, seq := rx.seq, body := b } s := by
  simp [unexpectedOp, hr, hs, hp, h.1.2]
theorem unexpectedOp_outOfPlace {rx : Rx} {t : BitVec 6} {b : BitVec 64} (h : inOrder rx s) (hr : typReserved t = false)
    (hp : typPermitted rx.port (t.toNat % 32) = true) (ho : outOfPlace rx.port t s = true) : unexpectedOp rx t b s =
      rxFrame rx true (t.toNat % 32) (decide (t.toNat < 32)) { typ := t, seq := rx.seq, body := b } s := by
  simp [unexpectedOp, hr, hp, ho, h.1.2]

/-- A frame that finds its group out of place is counted; a header opens its own group, a payload frame none (R70). -/
theorem attach_outOfPlace {p : PortRef} {t : BitVec 6} {b : BitVec 64} {lp : LinkPort} (ho : outOfPlace p t s = true)
    (hl : lp.arq.opened = (getPort s p).arq.opened) :
    (attach (t.toNat % 32) (decide (t.toNat < 32)) b lp).cnt.unexpected = satInc 15 lp.cnt.unexpected ∧
    (attach (t.toNat % 32) (decide (t.toNat < 32)) b lp).arq.rxExp = lp.arq.rxExp ∧
    openedOf (t.toNat % 32) (attach (t.toNat % 32) (decide (t.toNat < 32)) b lp).arq.opened = if t.toNat < 32 then [b] else [] := by
  by_cases ht : t.toNat < 32
  · have hne : (openedOf (t.toNat % 32) lp.arq.opened).isEmpty = false := by
      simp only [outOfPlace, show ¬ 32 ≤ t.toNat by omega, if_false, Bool.and_eq_true, Bool.not_eq_true', ← hl] at ho
      exact ho.2
    simp only [attach, ht, decide_true, hne, beq_false, Bool.not_true, Bool.false_eq_true, if_false, if_true, openedOf_put]
    exact ⟨rfl, rfl, trivial⟩
  · have hem : (openedOf (t.toNat % 32) lp.arq.opened).isEmpty = true := by
      simpa only [outOfPlace, show 32 ≤ t.toNat by omega, if_true, ← hl] using ho
    simp only [attach, ht, decide_false, hem, Bool.false_eq_true, if_false, if_true, beq_true]
    exact ⟨rfl, rfl, List.isEmpty_iff.mp hem⟩

/-- Settles O12: each counter is what the one operation that the frame meets makes of it. -/
theorem linksCount : Obligations.LinksCount := by
  unfold Obligations.LinksCount
  intro n s lane
  refine ⟨fun h => ⟨_, congrArg Host.Outcome.next (ifDist_of_live h), ?_⟩, fun f h => ⟨_, congrArg Host.Outcome.next (ifPort_of_run h.1), crcBadOp_counts h.2⟩,
    fun seq t b h hr hs => ⟨_, congrArg Host.Outcome.next (ifPort_of_run h.1.1), reservedOp_counts h hr hs⟩,
    fun seq t b h hr hs hp => ?_, fun seq t b h hr hp ho => ?_⟩
  · refine ⟨?_, ?_, ?_, ?_, ?_, ?_, ?_, ?_, rfl, rfl, fun q hq => getPort_onPort_other hq⟩ <;> rw [getPort_onPort_same] <;> rfl
  · refine ⟨_, congrArg Host.Outcome.next ((ifPort_of_run h.1.1).trans (unexpectedOp_not_permitted h hr hs hp)), ?_⟩
    obtain ⟨hport, hother⟩ := rxFrame_accepts (rx := ⟨.dist n, lane, seq, none⟩) (ok := false) (hdr := false) (c := t.toNat % 32)
      (f := { typ := t, seq := seq, body := b }) h.2.1
    rw [hport]
    exact ⟨congrArg (fun c : LinkCnt => satInc 15 c.unexpected) acceptedPort_cnt, acceptedPort_arq.1, hother⟩
  · refine ⟨_, congrArg Host.Outcome.next ((ifPort_of_run h.1.1).trans (unexpectedOp_outOfPlace h hr hp ho)), ?_⟩
    obtain ⟨hport, hother⟩ := rxFrame_accepts (rx := ⟨.dist n, lane, seq, none⟩) (ok := true) (hdr := decide (t.toNat < 32))
      (c := t.toNat % 32) (f := { typ := t, seq := seq, body := b }) h.2.1
    obtain ⟨hc, he, hop⟩ := attach_outOfPlace (b := b) ho (acceptedPort_arq (lane := lane)).2.1
    rw [hport, if_pos rfl, hc, he, acceptedPort_cnt]
    exact ⟨rfl, acceptedPort_arq.1, hop, hother⟩

/-! ## The sequence test (R74) -/

theorem arqCore_fields {a b : LinkPort} (h : arqCore a = arqCore b) : a.arq.rxExp = b.arq.rxExp ∧
    a.arq.ackDue = b.arq.ackDue ∧ a.arq.nak = b.arq.nak ∧ a.arq.txq = b.arq.txq :=
  ⟨(congrArg LinkArq.rxExp h :), (congrArg LinkArq.ackDue h :), (congrArg LinkArq.nak h :), (congrArg LinkArq.txq h :)⟩

/-- A port on which a frame that is not accepted has been seen. -/
def seenOn (rx : Rx) (s : State) : State := onPort rx.port (rxOnLane (nowOf s rx.port) rx.lane) s

theorem seenOn_port {rx : Rx} : (getPort (seenOn rx s) rx.port).arq = (getPort s rx.port).arq ∧
    linkRuns (getPort (seenOn rx s) rx.port) = linkRuns (getPort s rx.port) ∧ nowOf (seenOn rx s) rx.port = nowOf s rx.port := by
  have hst := (rxOnLane_rest (nowOf s rx.port) rx.lane (getPort s rx.port)).1
  rw [seenOn, getPort_onPort_same, nowOf_onPort]
  exact ⟨(rxOnLane_rest _ _ _).2.2.2, by simp only [linkRuns, admitted, hst], rfl⟩

theorem rxFrame_behind {rx : Rx} {ok hdr : Bool} {c : Nat} {f : Frame} {n : Fin 132} (hn : rx.port = .dist n)
    (h : 128 ≤ (f.seq - (getPort s rx.port).arq.rxExp).toNat) :
    rxFrame rx ok c hdr f s = sendAck rx.port (seenOn rx s) := by
  have hne : f.seq - (getPort s rx.port).arq.rxExp ≠ 0 := fun e => by rw [e] at h; exact absurd h (by decide)
  have htr : traceRx rx.port rx.lane [f] s = s := by rw [hn]; rfl
  simp only [rxFrame, htr, seqTest, if_neg hne, if_pos h]
  rfl
theorem rxFrame_ahead {rx : Rx} {ok hdr : Bool} {c : Nat} {f : Frame} {n : Fin 132} (hn : rx.port = .dist n)
    (h0 : 0 < (f.seq - (getPort s rx.port).arq.rxExp).toNat) (h : (f.seq - (getPort s rx.port).arq.rxExp).toNat < 128) :
    rxFrame rx ok c hdr f s = sendNak rx.port 1 (seenOn rx s) := by
  have hne : f.seq - (getPort s rx.port).arq.rxExp ≠ 0 := fun e => by rw [e] at h0; exact absurd h0 (by decide)
  have htr : traceRx rx.port rx.lane [f] s = s := by rw [hn]; rfl
  simp only [rxFrame, htr, seqTest, if_neg hne, if_neg (show ¬ 128 ≤ (f.seq - (getPort s rx.port).arq.rxExp).toNat by omega)]
  rfl

/-- Each frame in sequence of a group moves the expected SEQ on by one. -/
theorem rxFrames_rxExp {rx : Rx} {c : Nat} (l : List (BitVec 6 × BitVec 64)) {seq : BitVec 8} {s : State}
    (h : seq = (getPort s rx.port).arq.rxExp) (ho : openedOf c (getPort s rx.port).arq.opened ≠ []) :
    (getPort (rxFrames rx true c false seq l s) rx.port).arq.rxExp = seq + BitVec.ofNat 8 l.length := by
  induction l generalizing seq s with
  | nil => rw [List.length_nil, BitVec.add_zero]; exact h.symm
  | cons x l ih =>
    obtain ⟨t, b⟩ := x
    obtain ⟨_, hexp, hop⟩ := rxFrame_next (rx := rx) (c := c) (hdr := false) (f := { typ := t, seq := seq, body := b }) h (.inr ho)
    refine (ih hexp.symm (by rw [hop]; simp)).trans ?_
    rw [List.length_cons, BitVec.add_assoc]
    rw [Nat.add_comm, BitVec.ofNat_add]
    rfl

/-- The header of a group and its first payload frames, in sequence. -/
theorem rxFrames_header {rx : Rx} {c : Nat} (f : BitVec 6 × BitVec 64) (l : List (BitVec 6 × BitVec 64)) {seq : BitVec 8}
    (h : seq = (getPort s rx.port).arq.rxExp) :
    Accepted s (rxFrames rx true c true seq (f :: l) s) ∧
    openedOf c (getPort (rxFrames rx true c true seq (f :: l) s) rx.port).arq.opened = f.2 :: l.map (·.2) ∧
    (getPort (rxFrames rx true c true seq (f :: l) s) rx.port).arq.rxExp = seq + BitVec.ofNat 8 (l.length + 1) := by
  obtain ⟨t, b⟩ := f
  obtain ⟨hacc, hexp, hop⟩ := rxFrame_next (rx := rx) (c := c) (hdr := true) (f := { typ := t, seq := seq, body := b }) h (.inl rfl)
  have hne : openedOf c (getPort (rxFrame rx true c true { typ := t, seq := seq, body := b } s) rx.port).arq.opened ≠ [] := by
    rw [hop]; simp
  obtain ⟨hacc', hop'⟩ := rxFrames_next l hexp.symm hne
  refine ⟨hacc.trans hacc', hop'.trans (by rw [hop]; rfl), (rxFrames_rxExp l hexp.symm hne).trans ?_⟩
  rw [BitVec.add_assoc]
  rw [Nat.add_comm, BitVec.ofNat_add]
  rfl

/-- The frames of a group that arrive in two parts: the first part stands open, the second completes it (R68). -/
theorem rxSeq_in_parts {rx : Rx} {f : BitVec 6 × BitVec 64} {a b : List (BitVec 6 × BitVec 64)} (h : inOrder rx s) (hb : b ≠ []) :
    ∃ u, rxSeq { rx with part := some (0, a.length + 1) } true (f :: (a ++ b)) s = (false, u) ∧
      openedOf (f.1.toNat % 32) (getPort u rx.port).arq.opened = f.2 :: a.map (·.2) ∧
      (getPort u rx.port).arq.rxExp = rx.seq + BitVec.ofNat 8 (a.length + 1) ∧
      ∃ v, rxSeq { rx with seq := rx.seq + BitVec.ofNat 8 (a.length + 1), part := some (a.length + 1, b.length) } true
          (f :: (a ++ b)) u = (true, v) ∧
        openedOf (f.1.toNat % 32) (getPort v rx.port).arq.opened = [] ∧
        (getPort v rx.port).arq.rxExp = rx.seq + BitVec.ofNat 8 (a.length + b.length + 1) := by
  obtain ⟨⟨_, hrun⟩, hseq, _⟩ := h
  obtain ⟨hacc, hop, hexp⟩ := rxFrames_header (rx := { rx with part := some (0, a.length + 1) }) (c := f.1.toNat % 32) f a hseq
  have htake : List.take (a.length + 1) (List.drop 0 (f :: (a ++ b))) = f :: a := by simp
  have hshort : (f.2 :: a.map (·.2) == (f :: (a ++ b)).map (·.2)) = false := by
    rw [beq_eq_false_iff_ne]
    intro e
    have hl := congrArg List.length e
    simp only [List.length_cons, List.length_map, List.length_append] at hl
    exact hb (List.length_eq_zero_iff.mp (by omega))
  have hdrop : List.take b.length (List.drop (a.length + 1) (f :: (a ++ b))) = b := by simp
  refine ⟨_, ?_, hop, hexp, ?_⟩
  · simp only [rxSeq, hrun, if_true, htake, beq_self_eq_true, hop, hshort, Bool.and_false, Bool.false_eq_true, if_false]
  · generalize rxFrames { rx with part := some (0, a.length + 1) } true (f.1.toNat % 32) true rx.seq (f :: a) s = u at *
    have hrun' : linkRuns (getPort u rx.port) = true := by
      simpa only [linkRuns, admitted, hacc.links.st rx.port] using hrun
    have hopen : openedOf (f.1.toNat % 32) (getPort u rx.port).arq.opened ≠ [] := by
      rw [hop]
      exact List.cons_ne_nil _ _
    let rx' : Rx := { rx with seq := rx.seq + BitVec.ofNat 8 (a.length + 1), part := some (a.length + 1, b.length) }
    have hop' := (rxFrames_next (rx := rx') b (seq := rx'.seq) hexp.symm hopen).2
    have hexp' := rxFrames_rxExp (rx := rx') b (seq := rx'.seq) hexp.symm hopen
    refine ⟨onPort rx.port (openedPut (f.1.toNat % 32) []) (rxFrames rx' true (f.1.toNat % 32) false rx'.seq b u), ?_, ?_, ?_⟩
    · have hwhole : openedOf (f.1.toNat % 32) (getPort (rxFrames rx' true (f.1.toNat % 32) false rx'.seq b u) rx.port).arq.opened =
          (f :: (a ++ b)).map (·.2) := by
        rw [hop', hop, List.map_cons, List.map_append]
        rfl
      simp only [rxSeq, hrun', if_true, hdrop, show (a.length + 1 == 0) = false from rfl]
      rw [if_pos (by simpa using hwhole)]
    · rw [getPort_onPort_same]
      exact openedOf_put _ _ _
    · rw [getPort_onPort_same]
      refine hexp'.trans ?_
      rw [BitVec.add_assoc, ← BitVec.ofNat_add, Nat.add_right_comm]

/-- Settles O13: part one by the place of the SEQ, part two by following the open group from its header to its last frame. -/
theorem sequenceTest : Obligations.SequenceTest := by
  unfold Obligations.SequenceTest
  refine ⟨fun rx n s t b hn h hr hs hp => ?_, fun rx s f a b h hb => ?_⟩
  · have hstep : exec (.reservedTypeFrameRx rx t b) s = .next (reservedOp rx t b s) :=
      congrArg Host.Outcome.next (ifPort_of_run h.1)
    obtain ⟨hexp, hack, hnak, htxq⟩ := arqCore_fields (reservedOp_arqCore (b := b) hr hs h.2 hp)
    obtain ⟨harq, hruns, hnow⟩ := seenOn_port (rx := rx) (s := s)
    have hlive : linkRuns (getPort (seenOn rx s) rx.port) = true := hruns.trans h.2
    refine ⟨fun hseq => ⟨_, hstep, (reservedOp_counts ⟨h, hseq, hp⟩ hr hs).2.1, ?_⟩, fun hbeh => ⟨_, hstep, ?_⟩,
      fun h0 hahead hold => ⟨_, hstep, ?_⟩⟩
    · rw [hack, (rxFrame_accepts hseq).1, if_pos rfl,
        (arqCore_fields (attach_arqCore (lp := acceptedPort rx.port rx.lane s))).2.1]
      exact acceptedPort_arq.2.2
    · rw [hexp, hack, htxq, rxFrame_behind hn hbeh, getPort_sendAck_same hlive, harq, hnow]
      exact ⟨rfl, rfl, rfl⟩
    · have hfree : nakRecent (nowOf (seenOn rx s) rx.port) (getPort (seenOn rx s) rx.port) = false :=
        nakRecent_eq_false (by rw [harq, hnow]; exact hold)
      rw [hexp, hnak, htxq, rxFrame_ahead hn h0 hahead, getPort_sendNak_same hlive hfree, harq, hnow]
      exact ⟨rfl, rfl, rfl⟩
  · exact rxSeq_in_parts h hb

/-! ## Acknowledgement and replay (R73 to R79, R105) -/

/-- An unsequenced frame at a distributor port is good on its lane and changes nothing else. -/
theorem rxUns_dist {n : Fin 132} {lane : Bool} {typ : BitVec 6} {body : BitVec 64} (h : linkRuns (getPort s (.dist n)) = true) :
    rxUns ⟨.dist n, lane⟩ true typ body s = (true, onPort (.dist n) (markGood (nowOf s (.dist n)) lane) s) := by
  simp only [rxUns, h, if_true]
  rfl
theorem markGood_rest {now : Nat} {lane : Bool} {lp : LinkPort} :
    (markGood now lane lp).arq = lp.arq ∧ (markGood now lane lp).phy.st = lp.phy.st := by
  cases lane <;> exact ⟨rfl, rfl⟩

theorem ackFrames_suffix {c : BitVec 8} {l : List (Frame × Nat)} : ackFrames c l <:+ l := by
  unfold ackFrames
  split
  · exact List.drop_suffix _ _
  · exact List.suffix_refl _
theorem ackTake_arq {c : BitVec 8} {lp : LinkPort} :
    (ackTake c lp).arq.replay = ackFrames c lp.arq.replay ∧ (ackTake c lp).arq.txq = lp.arq.txq := by
  simp only [ackTake]
  split
  · rename_i h
    exact ⟨(ackFrames_suffix.eq_of_length h).symm, rfl⟩
  · exact ⟨rfl, rfl⟩

theorem replayOrDead_of_few (h : (getPort s p).arq.replays < 16 ∨ (getPort s p).phy.st = .up) :
    replayOrDead p s = startReplay p s := by
  rw [replayOrDead, if_neg]
  rcases h with h | h
  · simp [show ¬ 16 ≤ (getPort s p).arq.replays by omega]
  · simp [admitted, h]
theorem replayOrDead_of_many (h : 16 ≤ (getPort s p).arq.replays) (ha : (getPort s p).phy.st = .admitted) :
    replayOrDead p s = linkDead p s := by
  rw [replayOrDead, if_pos]
  simp [admitted, h, ha]

theorem retryOp_of_due {x : Frame} {k : Nat} {l : List (Frame × Nat)} (hrun : linkRuns (getPort s p) = true)
    (hl : (getPort s p).arq.replay = (x, k) :: l) (hx : x ∉ (getPort s p).arq.resend) (hdue : k + retryPeriod s p ≤ nowOf s p) :
    retryOp p s = replayOrDead p s := by
  have hx' : (getPort s p).arq.resend.contains x = false := by simpa using hx
  simp only [retryOp, hl, hrun, hx', hdue, Bool.not_false, Bool.and_self, decide_true, if_true]

/-- Settles O14: each timer and each received frame, by what it finds in the replay buffer. -/
theorem deliveryIsReliable : Obligations.DeliveryIsReliable := by
  unfold Obligations.DeliveryIsReliable
  intro n s lane h
  obtain ⟨hrun, hlink⟩ := h
  have hnak : ∀ c r, exec (.nakRx ⟨.dist n, lane⟩ c r) s = .next (nakOp (.dist n) c
      (rxUns ⟨.dist n, lane⟩ true 0x07 (bodyOf [(8, c.toNat), (2, r.toNat)]) s).2) := fun c r => by
    refine congrArg Host.Outcome.next ((ifPort_of_run hrun).trans ?_)
    rw [rxUns_dist hlink]
    rfl
  have hgood : ∀ typ body, (getPort (rxUns ⟨.dist n, lane⟩ true typ body s).2 (.dist n)).arq = (getPort s (.dist n)).arq ∧
      (getPort (rxUns ⟨.dist n, lane⟩ true typ body s).2 (.dist n)).phy.st = (getPort s (.dist n)).phy.st := fun typ body => by
    rw [rxUns_dist hlink, getPort_onPort_same]
    exact markGood_rest
  refine ⟨fun k hk hdue => ?_, fun c hrope => ?_, fun c r hany hfew => ?_, fun c r hany hmany hadm => ?_, fun c r hany => ?_,
    fun x k l hl hx hdue => ⟨fun hfew => ?_, fun hmany hadm => ?_⟩, fun spareOk rxLane slipEn slip => ?_⟩
  · refine congrArg Host.Outcome.next ((ifPort_of_run hrun).trans ?_)
    simp only [ackDueOp, hk, hlink, hdue, decide_true, Bool.and_self, if_true]
  · have hstep : exec (.ackRx ⟨.dist n, lane⟩ c) s = .next (onPort (.dist n) (ackTake c)
        (rxUns ⟨.dist n, lane⟩ true 0x06 (bodyOf [(8, c.toNat)]) s).2) := by
      refine congrArg Host.Outcome.next ((ifPort_of_run hrun).trans ?_)
      simp only [rxUns_dist hlink, if_true, ackOp, hrope, Bool.false_and, Bool.false_eq_true, if_false]
    refine ⟨_, hstep, ?_, ?_, ?_, fun x hx => ?_⟩
    · rw [getPort_onPort_same, ackTake_arq.1, (hgood _ _).1]
    · rw [getPort_onPort_same, ackTake_arq.2, (hgood _ _).1]
    · rw [rxUns_dist hlink]; rfl
    · rw [getPort_onPort_other hx, rxUns_dist hlink, getPort_onPort_other hx]
  · rw [hnak, nakOp, if_pos (by rw [(hgood _ _).1]; exact hany), replayOrDead_of_few (by rw [(hgood _ _).1, (hgood _ _).2]; exact hfew)]
  · rw [hnak, nakOp, if_pos (by rw [(hgood _ _).1]; exact hany),
      replayOrDead_of_many (by rw [(hgood _ _).1]; exact hmany) (by rw [(hgood _ _).2]; exact hadm)]
  · refine ⟨_, hnak c r, ?_⟩
    rw [nakOp, if_neg (by rw [(hgood _ _).1, hany]; decide), (hgood _ _).1]
  · exact congrArg Host.Outcome.next ((ifPort_of_run hrun).trans ((retryOp_of_due hlink hl hx hdue).trans (replayOrDead_of_few hfew)))
  · exact congrArg Host.Outcome.next ((ifPort_of_run hrun).trans ((retryOp_of_due hlink hl hx hdue).trans (replayOrDead_of_many hmany hadm)))
  · have hstep : exec (.idleRx ⟨.dist n, lane⟩ spareOk rxLane slipEn slip) s = .next (onPort (.dist n) (fun lp =>
        { lp with phy := { lp.phy with peerSpareOk := spareOk, peerRxLane := rxLane } })
        (rxUns ⟨.dist n, lane⟩ true 0x00 (idleBody spareOk rxLane slipEn slip.toNat) s).2) := by
      refine congrArg Host.Outcome.next ((ifPort_of_run hrun).trans ?_)
      simp only [rxUns_dist hlink, if_true]
    refine ⟨_, hstep, ?_, ?_, ?_, fun x hx => ?_⟩
    · rw [getPort_onPort_same]
    · rw [getPort_onPort_same]
    · rw [getPort_onPort_same]
      exact (hgood _ _).1
    · rw [getPort_onPort_other hx, rxUns_dist hlink, getPort_onPort_other hx]

/-! ## The replay and the lane swap (R77, R86, R87, R89, R92) -/

/-- A port on which a replay starts. -/
def replayed (now win : Nat) (lp : LinkPort) : LinkPort := { lp with
  arq := { lp.arq with resend := lp.arq.replay.map (·.1), replays := lp.arq.replays + 1,
                       bursts := now :: burstsIn now win lp.arq.bursts },
  cnt := { lp.cnt with retries := satInc 255 lp.cnt.retries, retryTotal := satInc 0xFFFFFFFF lp.cnt.retryTotal },
  hlth := { lp.hlth with vRetry := satInc 255 lp.hlth.vRetry } }

theorem replayAll_of_nil (h : (getPort s p).arq.replay = []) : replayAll p s = s := by simp [replayAll, h]
theorem replayAll_port (h : (getPort s p).arq.replay ≠ []) :
    Scored (replayed (nowOf s p) (swapWindow s p) (getPort s p)) (getPort (replayAll p s) p) := by
  have hr : replayAll p s = scorePort p 0x050 8 (onPort p (replayed (nowOf s p) (swapWindow s p)) s) := by
    rw [replayAll, if_neg (by simpa using h)]
    rfl
  have hs := scorePort_same (p := p) (o := 0x050) (lo := 8) (s := onPort p (replayed (nowOf s p) (swapWindow s p)) s)
  rwa [getPort_onPort_same, ← hr] at hs

theorem startReplay_of_warm {u : State} (hu : u = replayAll p s) (hne : (getPort u p).arq.replay ≠ [])
    (hfull : swapBursts u p ≤ (getPort u p).arq.bursts.length)
    (hw : spareWarm (nowOf u p) (echoInterval u p) (getPort u p) = true) :
    (getPort (startReplay p s) p).arq.swapDue = true := by
  simp only [startReplay, ← hu, List.isEmpty_eq_false_iff.mpr hne, Nat.not_lt.mpr hfull, decide_false, Bool.or_self,
    Bool.false_eq_true, if_false, hw, if_true, getPort_onPort_same]
theorem startReplay_of_cold {u : State} (hu : u = replayAll p s) (hne : (getPort u p).arq.replay ≠ [])
    (hfull : swapBursts u p ≤ (getPort u p).arq.bursts.length)
    (hw : spareWarm (nowOf u p) (echoInterval u p) (getPort u p) = false) :
    (getPort (startReplay p s) p).arq.swapDue = false ∧ (getPort (startReplay p s) p).hlth.vSpare = true := by
  simp only [startReplay, ← hu, List.isEmpty_eq_false_iff.mpr hne, Nat.not_lt.mpr hfull, decide_false, Bool.or_self,
    Bool.false_eq_true, if_false, hw]
  generalize hv : onPort p (fun lp => { lp with arq := { lp.arq with swapDue := false }, hlth := { lp.hlth with vSpare := true } }) u = v
  obtain ⟨sc, w, hs⟩ := scorePort_same (p := p) (o := 0x050) (lo := 24) (s := portEvt p 2 (logPort p lkSwapBlocked 0 0 v))
  obtain ⟨l, g, hl⟩ := logPort_reported (p := p) (q := p) (s := v) (h := lkSwapBlocked) (obj := 0) (aux := 0)
  rw [hs, getPort_portEvt, hl, ← hv, getPort_onPort_same]
  exact ⟨rfl, rfl⟩

theorem swapOp_of_due (hrun : linkRuns (getPort s p) = true) (hdue : (getPort s p).arq.swapDue = true)
    (hwarm : spareWarm (nowOf s p) (echoInterval s p) (getPort s p) = true) : swapOp p s =
      scorePort p 0x050 16 (portEvt p 2 (logPort p lkLaneSwap 0 0 (replayAll p (onPort p (swapLanes (nowOf s p)) s)))) := by
  simp only [swapOp, hrun, hdue, hwarm, Bool.and_self, if_true]
theorem swapOp_of_not (h : linkRuns (getPort s p) = false ∨ (getPort s p).arq.swapDue = false ∨
    spareWarm (nowOf s p) (echoInterval s p) (getPort s p) = false) : swapOp p s = s := by
  simp only [swapOp]
  rw [if_neg]
  rcases h with h | h | h <;> simp [h]

/-- What a lane swap leaves of its port, once the replay has started too. -/
theorem replayAll_swapLanes {u : State} (hu : u = replayAll p (onPort p (swapLanes (nowOf s p)) s)) :
    ∃ sc w a c v, getPort u p = { swapLanes (nowOf s p) (getPort s p) with
        arq := a, cnt := c, hlth := { (swapLanes (nowOf s p) (getPort s p)).hlth with score := sc, warn := w, vRetry := v } } ∧
      a.resend = (if (getPort s p).arq.replay = [] then (getPort s p).arq.resend else (getPort s p).arq.replay.map (·.1)) ∧
      c.swaps = satInc 0xFFFFFFFF (getPort s p).cnt.swaps := by
  have hsame : ∀ lane f (lp : LinkPort), (dropEchoes (onLane lane f lp)).arq = lp.arq ∧ (dropEchoes (onLane lane f lp)).cnt = lp.cnt :=
    fun lane f lp => by cases lane <;> exact ⟨rfl, rfl⟩
  have harq : (swapLanes (nowOf s p) (getPort s p)).arq = { (getPort s p).arq with swapDue := false } := by
    simp only [swapLanes, hsame]
  have hcnt : (swapLanes (nowOf s p) (getPort s p)).cnt.swaps = satInc 0xFFFFFFFF (getPort s p).cnt.swaps := by
    simp only [swapLanes, hsame]
  subst hu
  by_cases h : (getPort s p).arq.replay = []
  · rw [replayAll_of_nil (by rw [getPort_onPort_same, harq]; exact h), getPort_onPort_same]
    refine ⟨_, _, _, _, _, rfl, ?_, hcnt⟩
    rw [if_pos h]
    exact (congrArg LinkArq.resend harq :)
  · obtain ⟨sc, w, hp⟩ := replayAll_port (p := p) (s := onPort p (swapLanes (nowOf s p)) s)
      (by rw [getPort_onPort_same, harq]; exact h)
    rw [hp, getPort_onPort_same]
    refine ⟨_, _, _, _, _, rfl, ?_, hcnt⟩
    rw [if_neg h]
    simp only [replayed, harq]

/-- Settles O15: the replay, where it fills the swap window, the swap, and the wait for admission. -/
theorem laneSwapAndAdmitWait : Obligations.LaneSwapAndAdmitWait := by
  unfold Obligations.LaneSwapAndAdmitWait
  intro p s hrun
  refine ⟨fun hne => ?_, replayAll_of_nil, fun u hu hne hfull => ⟨startReplay_of_warm hu hne hfull, startReplay_of_cold hu hne hfull⟩,
    fun hlink hdue hwarm => ⟨_, rfl, congrArg Host.Outcome.next ((ifPort_of_run hrun).trans (swapOp_of_due hlink hdue hwarm)), ?_⟩,
    fun h => congrArg Host.Outcome.next (ifPort_of_self (swapOp_of_not h)), fun hst hw hdue => ?_, fun h => ?_⟩
  · obtain ⟨sc, w, hp⟩ := replayAll_port hne
    rw [hp]
    exact ⟨rfl, rfl, rfl, rfl, rfl⟩
  · obtain ⟨sc, w, a, c, v, hp, ha, hc⟩ := replayAll_swapLanes (p := p) (s := s) rfl
    rw [hp]
    refine ⟨rfl, rfl, ?_, ha, rfl, rfl, rfl, hc, rfl⟩
    show (laneOf (swapLanes (nowOf s p) (getPort s p)).phy (getPort s p).phy.txLane).frames = false
    rw [swapLanes]
    cases (getPort s p).phy.txLane <;> rfl
  · refine congrArg Host.Outcome.next ((ifPort_of_run hrun).trans ?_)
    rw [admitWaitOp]
    exact if_pos ⟨hst, by rw [hw]; decide, hdue⟩
  · refine congrArg Host.Outcome.next (ifPort_of_self (if_neg ?_))
    rintro ⟨hst, hw, _⟩
    rcases h with h | h
    · exact h hst
    · exact hw h

/-! ## Training a lane (R60 to R62, R90, R108) -/

theorem lockOpLane_true (h : (getPort s p).phy.st = .train ∨ linkRuns (getPort s p) = true) {lane : Bool}
    (hl : laneHeard p lane s = true) : lockOpLane p lane true s =
      onPort p (fun lp => noteTrain (nowOf s p) (onLane lane (fun l => { l with lock := true }) lp)) s := by
  simp only [lockOpLane, hl]
  rw [if_neg]
  rcases h with h | h <;> simp [h]
theorem lockOpLane_unheard {lane : Bool} (hl : laneHeard p lane s = false) : lockOpLane p lane true s = s := by
  simp [lockOpLane, hl]

theorem noteReady_reached {now : Nat} {lp : LinkPort} (hh : readyHere lp.phy = true) (ht : readyThere lp.phy = true)
    (hn : lp.phy.readyAt = none) : (noteReady now lp).phy.readyAt = some now := by
  simp only [noteReady, hh, ht, hn, Bool.and_self, if_true]

theorem framesOp_train {t : Nat} (hst : (getPort s p).phy.st = .train) (hr : (getPort s p).phy.readyAt = some t)
    (hdue : t + 256 ≤ nowOf s p) : framesOp p s = trainDone p s := by
  simp only [framesOp, hst, hr, hdue, if_true]

/-! The unit's state machine leaves its links as they are. -/

theorem sameLinks_refl : SameLinks s s := ⟨fun _ => rfl, fun _ => rfl, fun _ => rfl⟩
theorem sameLinks_of_ports {t : State} (h : ∀ q, getPort t q = getPort s q) : SameLinks s t :=
  ⟨fun q => by rw [h], fun q => by rw [h], fun q => by rw [h]⟩
theorem sameLinks_ite {c : Prop} [Decidable c] {t u : State} (ht : SameLinks s t) (hu : SameLinks s u) :
    SameLinks s (if c then t else u) := by
  split
  · exact ht
  · exact hu

section
variable {P : Part} {t : State} (h : SameLinks s t)
include h
theorem sameLinks_onPartBase {f : Base → Base} : SameLinks s (onPartBase P f t) :=
  h.trans (sameLinks_of_ports fun q => by cases P <;> cases q <;> rfl)
theorem sameLinks_onServo {f : Servo → Servo} : SameLinks s (onServo P f t) :=
  h.trans (sameLinks_of_ports fun q => by cases P <;> cases q <;> rfl)
theorem sameLinks_logS {hu hd : Hap} {port obj aux : Nat} : SameLinks s (logS P hu hd port obj aux t) := by
  cases P with
  | unit => exact h.trans (logU_logs _ _ _ _ _ _).links
  | dist => exact h.trans (sameLinks_of_ports fun q => getPort_logD)
theorem sameLinks_setTck {st : Nat} : SameLinks s (setTck st t) := by
  refine h.trans (sameLinks_of_ports fun q => ?_)
  unfold setTck
  split
  · rfl
  · cases q with
    | unit d => cases d <;> rfl
    | dist n => rfl
theorem sameLinks_setLock {v : Bool} : SameLinks s (setLock P v t) := sameLinks_ite h (sameLinks_onPartBase (sameLinks_onPartBase h))
theorem sameLinks_stopRebase : SameLinks s (stopRebase P t) := by
  cases P with
  | unit => exact sameLinks_ite (sameLinks_onPartBase (sameLinks_onPartBase h)) h
  | dist => exact h
theorem sameLinks_applyWord {w : Int} : SameLinks s (applyWord P w t) :=
  sameLinks_ite (sameLinks_logS (sameLinks_onServo (sameLinks_onPartBase h))) (sameLinks_onServo (sameLinks_onPartBase h))
theorem sameLinks_holdWord : SameLinks s (holdWord P t) := by
  have hl : SameLinks s (if (holdMean t P).isNone then logS P uHoldShort dHoldShort noPort 0 0 t else t) := sameLinks_ite (sameLinks_logS h) h
  unfold holdWord
  extract_lets m w u
  exact sameLinks_onServo (sameLinks_onPartBase (sameLinks_ite hl (sameLinks_applyWord hl)))
theorem sameLinks_unitFsm : SameLinks s (unitFsm t) := by
  have hset : ∀ st, SameLinks s (setTck st t) := fun st => sameLinks_setTck h
  have hchoose : ∀ {u}, SameLinks s u → SameLinks s (chooseActive u) := fun hu => sameLinks_onPartBase (P := .unit) hu
  have hiso : SameLinks s (setTck 7 (setSts .unit 7 false (setSts .unit 3 false
      (setLock .unit false (stopRebase .unit (holdWord .unit t)))))) :=
    sameLinks_setTck (sameLinks_onPartBase (sameLinks_onPartBase (sameLinks_setLock (sameLinks_stopRebase (sameLinks_holdWord h)))))
  unfold unitFsm
  extract_lets u st anyUp anyAdm act
  exact sameLinks_ite h (sameLinks_ite (sameLinks_ite (hset 2) h) (sameLinks_ite (hset 3) (sameLinks_ite (hset _)
    (sameLinks_ite (sameLinks_ite (hchoose (hset 4)) h)
    (sameLinks_ite (sameLinks_ite (sameLinks_ite (hchoose h) (hset 3)) h) (sameLinks_ite hiso
    (sameLinks_ite (hset 6) (sameLinks_ite (hset 5) (sameLinks_ite (hset 4) (sameLinks_ite (hset 5) h))))))))))
end

theorem spareLost_phy : (getPort (spareLost p s) p).phy = (getPort s p).phy := by
  rw [spareLost]
  generalize hv : onPort p (fun lp => { lp with hlth := { lp.hlth with vSpare := true } }) s = v
  obtain ⟨sc, w, hs⟩ := scorePort_same (p := p) (o := 0x050) (lo := 24) (s := portEvt p 2 (logPort p lkSpareLost 0 0 v))
  obtain ⟨l, g, hl⟩ := logPort_reported (p := p) (q := p) (s := v) (h := lkSpareLost) (obj := 0) (aux := 0)
  rw [hs, getPort_portEvt, hl, ← hv, getPort_onPort_same]

theorem trainDone_st : (getPort (trainDone p s) p).phy.st = .up := by
  unfold trainDone
  extract_lets now u v one w
  have hw : (getPort w p).phy.st = .up := by
    simp only [w]
    split
    · rw [spareLost_phy, getPort_onPort_same]
      exact setLinkState_st
    · exact setLinkState_st
  cases p with
  | unit d => exact ((sameLinks_unitFsm sameLinks_refl).st _).trans hw
  | dist n => exact hw

theorem framesOp_spare {t : Nat} (hlink : linkRuns (getPort s p) = true) (hs : (getPort s p).phy.spareTrainAt = some t)
    (hok : (getPort s p).phy.peerSpareOk = true) (hdue : t + 512 ≤ nowOf s p) : framesOp p s = spareDone p s := by
  have hst : (getPort s p).phy.st ≠ .train := fun e => by simp [linkRuns, admitted, e] at hlink
  simp only [framesOp, if_neg hst, hs, hlink, hok, hdue, decide_true, Bool.and_self, if_true]

theorem declareFailed_of_one {now : Nat} {lane : Bool} {lp : LinkPort} (h : (laneOf lp.phy lane).lock = true)
    (ho : (laneOf lp.phy (!lane)).lock = false) :
    declareFailed now lp = noteReady now (onLane (!lane) (fun l => { l with failed := true }) lp) := by
  cases lane with
  | false =>
    have h0 : lp.phy.lane0.lock = true := h
    have h1 : lp.phy.lane1.lock = false := ho
    simp [declareFailed, h0, h1]
  | true =>
    have h0 : lp.phy.lane0.lock = false := ho
    have h1 : lp.phy.lane1.lock = true := h
    simp [declareFailed, h0, h1]

/-- Settles O11: each command of training, by what it finds on the lane. -/
theorem lanesTrain : Obligations.LanesTrain := by
  unfold Obligations.LanesTrain
  intro p s lane hrun
  have hgate : ∀ {f : State → State} {t : State}, f s = t → Host.Outcome.next (ifPort p f s) = (.next t : Host.Outcome State Fault Refusal) :=
    fun h => congrArg Host.Outcome.next ((ifPort_of_run hrun).trans h)
  refine ⟨fun h hl => hgate (lockOpLane_true h hl), fun hl => hgate (lockOpLane_unheard hl), hgate rfl,
    fun hl rxLock ready => hgate ?_, fun hl rxLock ready => hgate ?_, fun lp hst => if_pos hst,
    fun lp hh ht hn => noteReady_reached hh ht hn, fun t hst hr hdue => ⟨hgate (framesOp_train hst hr hdue), trainDone_st⟩,
    fun t hlink hs hok hdue => ⟨_, hgate (framesOp_spare hlink hs hok hdue), ?_, ?_, fun q hq => getPort_onPort_other hq⟩,
    fun hst hdue hl ho => hgate ?_, fun t hs hlink hdue => hgate ?_, fun t hs hadm hdue => hgate ?_⟩
  · simp only [trainBlockOp, hl, if_true]
  · simp only [trainBlockOp, hl, Bool.false_eq_true, if_false]
  · rw [spareDone, getPort_onPort_same]
  · rw [spareDone, getPort_onPort_same]
    cases (getPort s p).phy.txLane <;> rfl
  · simp only [spareFailOp, hst, hdue, if_true]
    exact onPort_congr (declareFailed_of_one hl ho)
  · have hst : (getPort s p).phy.st ≠ .train := fun e => by simp [linkRuns, admitted, e] at hlink
    simp only [spareFailOp, if_neg hst, hs, hlink, hdue, decide_true, Bool.and_self, if_true]
  · simp only [spareRetryOp, hs, admitted, hadm, hdue, decide_true, Bool.and_self, if_true]

end
end Sys2Proof.Proofs
end

section
/-! PROOFS. Echo, TIME and EPOCH, the first load, and admission. -/

namespace Sys2Proof.Proofs

open Sys2Proof Sys2Proof.Machine

section
variable {p q : PortRef} {s : State}

/-! ## An unsequenced frame -/

/-- An unsequenced frame that the port permits: acted on, after it has marked its lane. -/
theorem rxUns_ok {rx : RxU} {typ : BitVec 6} {body : BitVec 64} (h : linkRuns (getPort s rx.port) = true) :
    (rxUns rx true typ body s).1 = true := by
  simp only [rxUns, h, if_true]
theorem rxUns_took {rx : RxU} {typ : BitVec 6} {body : BitVec 64} (h : linkRuns (getPort s rx.port) = true) :
    Took s (rxUns rx true typ body s).2 := by
  simp only [rxUns, h, if_true]
  refine (traceRx_took _ _ _ s).trans (onPort_took (onPort_sameLinks (fun lp => markGood_rest.2) (fun lp => ?_) (fun lp => ?_)))
  · cases rx.lane <;> rfl
  · cases rx.lane <;> rfl

/-- One that the port does not permit: counted. -/
theorem rxUns_not_permitted {rx : RxU} {typ : BitVec 6} {body : BitVec 64} (h : linkRuns (getPort s rx.port) = true) :
    (rxUns rx false typ body s).1 = false ∧
    (getPort (rxUns rx false typ body s).2 rx.port).cnt.unexpected = satInc 15 (getPort s rx.port).cnt.unexpected := by
  simp only [rxUns, h, if_true, Bool.false_eq_true, if_false, true_and, getPort_onPort_same, getPort_traceRx]
  cases rx.lane <;> rfl

/-- A command at a port whose part runs. -/
theorem next_of_portRuns (h : portRuns p s) {f : State → State} {t : State} (ht : f s = t) :
    (.next (ifPort p f s) : Host.Outcome State Fault Refusal) = .next t :=
  congrArg Host.Outcome.next ((ifPort_of_run h).trans ht)

/-! ## Echo at a distributor port (R93 to R98) -/

section
variable {n : Fin 132} {spare : Bool}

theorem pairOf_onPair_same {f : EchoPair → EchoPair} {lp : LinkPort} : pairOf (onPair spare f lp) spare = f (pairOf lp spare) := by
  cases spare <;> rfl
theorem pairOf_onPair_other {f : EchoPair → EchoPair} {lp : LinkPort} : pairOf (onPair spare f lp) (!spare) = pairOf lp (!spare) := by
  cases spare <;> rfl
theorem pairOf_markGood {now : Nat} {lane sp : Bool} {lp : LinkPort} : pairOf (markGood now lane lp) sp = pairOf lp sp := by
  cases lane <;> rfl

theorem echoStart_of_due (hst : (getPort s p).phy.st = .admitted) (hm : echoMuted s p = false) (hdue : echoDue s p spare = true) :
    echoStart p spare s = sendUns p spare 4 0x04 (echoReqBody (pairOf (getPort s p) spare).nextId.toNat spare) .echoReq
      (onPort p (onPair spare fun x => { x with nextId := x.nextId + 1, initAt := some (nowOf s p) }) s) := by
  simp only [echoStart, admitted, hst, hm, hdue, decide_true, Bool.not_false, Bool.and_self, if_true]
theorem echoStart_of_not (h : (getPort s p).phy.st = .up ∨ echoDue s p spare = false) : echoStart p spare s = s := by
  rw [echoStart, if_neg]
  rcases h with h | h <;> simp [admitted, h]

theorem echoAnswer_arq {id frac : Nat} (hl : linkRuns (getPort s p) = true) (hm : echoMuted s p = false) :
    (getPort (echoAnswer p spare id frac s) p).arq = { (getPort s p).arq with
      txq := (getPort s p).arq.txq ++ (if spare then [] else [txOne (nowOf s p) 0 4 false 0x05
        (bodyOf [(32, stampOf s p frac), (24, 0), (6, id), (1, 0)]) (.echoRsp (stampOf s p frac))]),
      spq := (getPort s p).arq.spq ++ (if spare then [txOne (nowOf s p) 0 4 false 0x05
        (bodyOf [(32, stampOf s p frac), (24, 0), (6, id), (1, 1)]) (.echoRsp (stampOf s p frac))] else []) } := by
  simp only [echoAnswer, hl, hm, Bool.not_false, Bool.and_self, if_true, getPort_sendUns_same, queueOn]
  cases spare <;> simp
theorem echoAnswer_other {id frac : Nat} (h : q ≠ p) : getPort (echoAnswer p spare id frac s) q = getPort s q := by
  rw [echoAnswer]
  split
  · exact getPort_sendUns_other h
  · rfl
theorem echoAnswer_base {id frac : Nat} : (echoAnswer p spare id frac s).dist.base = s.dist.base := by
  rw [echoAnswer]
  split
  · exact (setPort_base p _ s).2
  · rfl

/-- A pair whose exchange `id` has completed at `now` with offset `theta` and delay `dly`. -/
def completed (id : BitVec 6) (now : Nat) (theta dly : Int) (x : EchoPair) : EchoPair :=
  { x with outs := x.outs.filter fun e => e.id != id, lost := 0, good := x.good + 1, done := x.done + 1, doneAt := some now,
           ofs := theta, dly := dly }

/-- What an active-pair exchange leaves on its port beside the pair. -/
def heard (now : Nat) (raw : Int) (lp : LinkPort) : LinkPort := { lp with time := { lp.time with
  heardAt := some now, raws := (raw :: lp.time.raws).take 65536, echoLost := lp.time.echoLost && decide (lp.time.act.good < 2) } }

theorem pairOf_heard {now : Nat} {raw : Int} {sp : Bool} {lp : LinkPort} : pairOf (heard now raw lp) sp = pairOf lp sp := by
  cases sp <;> rfl

/-- An ECHO_RSP in time, at a pair that feeds no servo. -/
theorem echoDone_in_time {lane : Bool} {id : BitVec 6} {t2 resid frac : Nat} {f r : Int} {e : EchoOut}
    (hfeed : spare = true ∨ isUp n.val = false) (hst : (getPort s (.dist n)).phy.st = .admitted)
    (hf : (pairOf (getPort s (.dist n)) spare).outs.find? (fun x => x.id == id) = some e)
    (hin : echoOver (nowOf s (.dist n)) (echoInterval s (.dist n)) e = false) :
    ∃ theta dly t, echoDone (.dist n) spare lane id t2 resid frac f r s = t ∧
      dly = echoDelay e.t1 (extendHt 32 e.t1 t2) (extendHt 32 e.t1 t2 + resid) (stampOf s (.dist n) frac) ∧
      theta = echoRaw e.t1 (extendHt 32 e.t1 t2) (extendHt 32 e.t1 t2 + resid) (stampOf s (.dist n) frac) -
        asymUsed s (.dist n) ((getPort s (.dist n)).phy.txLane != spare) lane f r ∧
      (∀ sp, pairOf (getPort t (.dist n)) sp =
        pairOf (onPair spare (completed id (nowOf s (.dist n)) theta dly) (getPort s (.dist n))) sp) ∧
      t.dist.base = s.dist.base ∧ ∀ q, q ≠ .dist n → getPort t q = getPort s q := by
  simp only [echoDone, hf, admitted, hst, hin, decide_true, Bool.not_false, Bool.and_self, if_true]
  cases spare with
  | true => exact ⟨_, _, _, rfl, rfl, rfl, fun sp => by rw [if_pos rfl, getPort_onPort_same]; rfl, rfl, fun q hq => getPort_onPort_other hq⟩
  | false =>
    have hup : isUp n.val = false := hfeed.resolve_left (by decide)
    simp only [echoFeed, hup, Bool.false_eq_true, if_false]
    refine ⟨_, _, _, rfl, rfl, rfl, fun sp => ?_, rfl, fun q hq => ?_⟩
    · rw [getPort_onPort_same, getPort_onPort_same]
      exact pairOf_heard
    · rw [getPort_onPort_other hq, getPort_onPort_other hq]

theorem exec_echoRspRx {lane : Bool} {id : BitVec 6} {t2 : BitVec 32} {resid : BitVec 24} {frac : BitVec 6} {f r : Int}
    (h : linkServes (.dist n) s) : exec (.echoRspRx ⟨.dist n, lane⟩ spare id t2 resid frac f r) s =
      .next (echoDone (.dist n) spare lane id t2.toNat resid.toNat frac.toNat f r
        (onPort (.dist n) (markGood (nowOf s (.dist n)) lane) s)) :=
  next_of_portRuns h.1 (by simp only [rxUns_dist h.2, if_true])

theorem exec_echoReqRx {lane : Bool} {id : BitVec 6} {t1 : BitVec 54} {frac : BitVec 6} (h : linkServes (.dist n) s) :
    exec (.echoReqRx ⟨.dist n, lane⟩ spare id t1 frac) s =
      .next (echoAnswer (.dist n) spare id.toNat frac.toNat (onPort (.dist n) (markGood (nowOf s (.dist n)) lane) s)) :=
  next_of_portRuns h.1 (by simp only [rxUns_dist h.2, if_true])

theorem exec_echoExchangeTimeout (h : linkServes (.dist n) s) :
    exec (.echoExchangeTimeout (.dist n) spare) s = .next (exchangeLost (.dist n) spare s) :=
  next_of_portRuns h.1 rfl

theorem portSource_none (h : isUp n.val = false) : portSource (.dist n) = none := by
  simp only [isUp, Bool.or_eq_false_iff, beq_eq_false_iff_ne] at h
  simp only [portSource, if_neg h.1, if_neg h.2]

theorem exchangeLost_spare (ho : (pairOf (getPort s p) true).outs.any (echoOver (nowOf s p) (echoInterval s p)) = true) :
    exchangeLost p true s = onPort p (onPair true (loseOver (nowOf s p) (echoInterval s p))) s := by
  simp only [exchangeLost, ho, if_true, Bool.not_true, Bool.false_and, Bool.false_eq_true, if_false]
theorem exchangeLost_active {u : State} (hup : portSource p = none)
    (ho : (pairOf (getPort s p) false).outs.any (echoOver (nowOf s p) (echoInterval s p)) = true)
    (hu : u = onPort p (onPair false (loseOver (nowOf s p) (echoInterval s p))) s) (hp : p = .dist n) :
    exchangeLost p false s = if !(getPort s p).time.echoLost && decide (echoLossLimit s p ≤ (getPort u p).time.act.lost) then
      echoLostOp p u else u := by
  have hport : getPort u p = onPair false (loseOver (nowOf s p) (echoInterval s p)) (getPort s p) := by
    rw [hu, getPort_onPort_same]
  have hlimit : echoLossLimit u p = echoLossLimit s p := by rw [hu, hp]; rfl
  simp only [exchangeLost, ho, if_true, Bool.false_eq_true, if_false, hup, ← hu, Bool.not_false, Bool.true_and, hlimit]
  rw [show (getPort u p).time.echoLost = (getPort s p).time.echoLost by rw [hport]; rfl]
theorem echoLostOp_lost (h : portSource p = none) : (getPort (echoLostOp p s) p).time.echoLost = true := by
  simp only [echoLostOp, h]
  generalize hv : onPort p (fun lp => { lp with
    time := { lp.time with echoLost := true, act := { lp.time.act with lost := 0 } },
    cnt := { lp.cnt with echoLosts := satInc 0xFFFFFFFF lp.cnt.echoLosts },
    hlth := { lp.hlth with vEcho := true } }) s = v
  obtain ⟨sc, w, hs⟩ := scorePort_same (p := p) (o := 0x054) (lo := 0) (s := portEvt p 3 (logPort p lkEchoLost 0 0 v))
  obtain ⟨l, g, hl⟩ := logPort_reported (p := p) (q := p) (s := v) (h := lkEchoLost) (obj := 0) (aux := 0)
  rw [hs, getPort_portEvt, hl, ← hv, getPort_onPort_same]

end

/-- Settles O16: initiating, answering, completing and losing an exchange, each by the operation that does it. -/
theorem echoExchanges : Obligations.EchoExchanges := by
  unfold Obligations.EchoExchanges
  intro n s lane spare p hp h hm
  subst hp
  have hgood : linkRuns (getPort (onPort (.dist n) (markGood (nowOf s (.dist n)) lane) s) (.dist n)) = true := by
    rw [getPort_onPort_same]
    simpa only [linkRuns, admitted, markGood_rest.2] using h.2
  refine ⟨fun hst hdue => next_of_portRuns h.1 (echoStart_of_due hst hm hdue),
    fun hno => next_of_portRuns h.1 (echoStart_of_not hno), fun id t1 frac => ⟨_, exec_echoReqRx h, ?_, ?_, fun q hq => ?_⟩,
    fun e id t2 resid frac f r hfeed hst hf hin => ?_, fun hfeed ho => ⟨_, rfl, ?_, ?_, fun hup => echoLostOp_lost (portSource_none hup)⟩,
    fun ho => ?_⟩
  · rw [echoAnswer_arq hgood hm, getPort_onPort_same, markGood_rest.1]
    rfl
  · exact echoAnswer_base
  · rw [echoAnswer_other hq, getPort_onPort_other hq]
  · obtain ⟨theta, dly, t, ht, hdly, htheta, hpair, hbase, hother⟩ := echoDone_in_time (n := n) (spare := spare) (id := id)
      (s := onPort (.dist n) (markGood (nowOf s (.dist n)) lane) s) (lane := lane) (t2 := t2.toNat) (resid := resid.toNat)
      (frac := frac.toNat) (f := f) (r := r) hfeed (by rw [getPort_onPort_same, markGood_rest.2, hst])
      (by rw [getPort_onPort_same, pairOf_markGood]; exact hf) hin
    have htx : (getPort (onPort (.dist n) (markGood (nowOf s (.dist n)) lane) s) (.dist n)).phy.txLane =
        (getPort s (.dist n)).phy.txLane := by rw [getPort_onPort_same]; cases lane <;> rfl
    rw [getPort_onPort_same] at hpair
    have hsame : pairOf (getPort t (.dist n)) spare = completed id (nowOf s (.dist n)) theta dly (pairOf (getPort s (.dist n)) spare) := by
      rw [hpair, pairOf_onPair_same, pairOf_markGood]
      rfl
    refine ⟨t, (exec_echoRspRx h).trans (congrArg Host.Outcome.next ht), ?_, ?_, ?_, ?_, ?_, ?_, hbase, fun q hq => ?_⟩
    · rw [hsame]; rfl
    · rw [hsame]; rfl
    · rw [hsame]; rfl
    · rw [hsame]; exact hdly
    · rw [hsame]
      rw [htx] at htheta
      exact htheta
    · rw [hpair, pairOf_onPair_other, pairOf_markGood]
    · rw [hother q hq, getPort_onPort_other hq]
  · rintro rfl
    rw [exec_echoExchangeTimeout h, exchangeLost_spare ho]
  · rintro rfl
    rw [exec_echoExchangeTimeout h, exchangeLost_active (portSource_none (hfeed.resolve_left (by decide))) ho rfl rfl]
  · rw [exec_echoExchangeTimeout h, exchangeLost, if_neg (by rw [ho]; decide)]

/-! ## TIME and EPOCH (R22, R27, R28, R83, R99, R164) -/

theorem rxUns_base {n : Fin 132} {lane ok : Bool} {typ : BitVec 6} {body : BitVec 64} :
    (rxUns ⟨.dist n, lane⟩ ok typ body s).2.dist.base = s.dist.base := by
  unfold rxUns
  split
  · cases ok <;> rfl
  · rfl

theorem rootTime_of_due (hr : isRoot s.dist = true) (hv : s.dist.base.valid = true)
    (hdue : s.dist.adm.timeAt + rdF s.dist.base 0x1064 0 16 * 4 ≤ s.dist.base.tick) :
    rootTime s = timeDown 0 (onDist (onAdm fun a => { a with timeAt := s.dist.base.tick }) s) := by
  simp only [rootTime, hr, hv, hdue, decide_true, Bool.and_self, if_true]
theorem rootTime_of_not (h : s.dist.base.valid = false ∨ s.dist.base.tick < s.dist.adm.timeAt + rdF s.dist.base 0x1064 0 16 * 4) :
    rootTime s = s := by
  simp only [rootTime]
  rw [if_neg]
  rcases h with h | h
  · simp [h]
  · simp [show ¬ s.dist.adm.timeAt + rdF s.dist.base 0x1064 0 16 * 4 ≤ s.dist.base.tick by omega]

/-- A sequenced frame in sequence that the port does not permit: counted, and no part acts on it. -/
theorem rxSeq_not_permitted {rx : Rx} {f : BitVec 6 × BitVec 64} (h : inOrder rx s) : (rxSeq rx false [f] s).1 = false ∧
    (rxSeq rx false [f] s).2.dist.base = s.dist.base ∧
    (getPort (rxSeq rx false [f] s).2 rx.port).cnt.unexpected = satInc 15 (getPort s rx.port).cnt.unexpected := by
  obtain ⟨⟨_, hlink⟩, hseq, hpart⟩ := h
  have hport := (rxFrame_accepts (rx := rx) (ok := false) (hdr := true) (c := f.1.toNat % 32)
    (f := { typ := f.1, seq := rx.seq, body := f.2 }) hseq).1
  have hbase : (rxFrame rx false (f.1.toNat % 32) true { typ := f.1, seq := rx.seq, body := f.2 } s).dist.base = s.dist.base := by
    have hs : rx.seq = (getPort (traceRx rx.port rx.lane [{ typ := f.1, seq := rx.seq, body := f.2 }] s) rx.port).arq.rxExp := by
      rw [getPort_traceRx]
      exact hseq
    have hk := (congrArg DistState.base (seqTest_took (lane := rx.lane) hs).dist :)
    simp only [rxFrame, (seqTest_accepts (lane := rx.lane) hs).1, if_true]
    refine (setPort_base _ _ _).2.trans (Eq.trans hk ?_)
    rw [traceRx_dist]
    rfl
  simp only [rxSeq, hlink, hpart, if_true, Bool.false_and, Bool.false_eq_true, if_false, true_and]
  refine ⟨hbase, ?_⟩
  show (getPort (rxFrame rx false _ true { typ := f.1, seq := rx.seq, body := f.2 } s) rx.port).cnt.unexpected = _
  rw [hport]
  exact congrArg (fun c : LinkCnt => satInc 15 c.unexpected) acceptedPort_cnt

/-- Settles O17: each frame by the port it reaches, the root's TIME by its interval. -/
theorem timeFrames : Obligations.TimeFrames := by
  unfold Obligations.TimeFrames
  intro s lane
  refine ⟨fun d ns gen frac h => next_of_portRuns h.1 ?_, fun n ns gen frac h => ⟨fun hup => next_of_portRuns h.1 ?_, fun hup =>
    ⟨_, next_of_portRuns h.1 rfl, ?_⟩⟩, fun hroot hv hdue => congrArg Host.Outcome.next ((ifDistRuns_of_run hroot.2).trans
    (rootTime_of_due hroot.1 hv hdue)), fun rx gen applied h hp => next_of_portRuns h.1.1 ?_,
    fun hroot hno => congrArg Host.Outcome.next (ifDistRuns_of_self (rootTime_of_not hno)),
    fun rx gen applied h hp => ⟨_, next_of_portRuns h.1.1 rfl, ?_⟩⟩
  · have hok := rxUns_ok (rx := ⟨.unit d, lane⟩) (typ := 0x03) (body := ns ++ gen) h.2
    simp only [permDown, hok, if_true]
  · have hok := rxUns_ok (rx := ⟨.dist n, lane⟩) (typ := 0x03) (body := ns ++ gen) h.2
    simp only [permDown, hup, hok, if_true]
  · obtain ⟨hno, hcnt⟩ := rxUns_not_permitted (rx := ⟨.dist n, lane⟩) (typ := 0x03) (body := ns ++ gen) h.2
    simp only [permDown, hup, hno, Bool.false_eq_true, if_false]
    exact ⟨rxUns_base, hcnt⟩
  · simp only [hp, rxSeq_ok h, if_true]
  · obtain ⟨hno, hbase, hcnt⟩ := rxSeq_not_permitted (f := (0x12, epochBody gen.toNat applied)) h
    simp only [hp, hno, Bool.false_eq_true, if_false]
    exact ⟨hbase, hcnt⟩

/-! ## The first load (R22, R164) -/

/-- A unit that does not step keeps the validity of its counter. -/
theorem valid_of_keeps {t : State} (h : StateKeeps true s t) : t.unit.base.valid = s.unit.base.valid := (h.unit.clock rfl).valid

theorem loadCounter_valid {src : Bool} {ns : BitVec 48} {gen : BitVec 16} {frac : Nat} :
    (loadCounter .unit src ns gen frac s).unit.base.valid = true := by
  unfold loadCounter
  extract_lets port dly sum v loaded shown steered
  have hloaded : loaded.unit.base.valid = true := rfl
  have hshown : StateKeeps true loaded shown := by
    dsimp only [shown]
    exact onUnit_keeps (fun _ h => uB_keeps (fun _ k => pgEvt_keeps (wr64_keeps (wr64_keeps (wr_keeps k)))) h) (StateKeeps.refl _)
  rw [valid_of_keeps (takeKept_keeps (takeKept_keeps (setSts_keeps (onServo_keeps hshown)))), hloaded]

theorem rd_of_took {t : State} {a lo w : Nat} (h : Took s t) (ha : a / 0x1000 ≠ 0x16) :
    rdF t.unit.base a lo w = rdF s.unit.base a lo w := by rw [rdF, h.regs a ha]; rfl

theorem unitTime_acquires {d : Dom} {ns : BitVec 48} {gen : BitVec 16} {frac : Nat} (hv : s.unit.base.valid = false)
    (ht : tckState s.unit = 4) (hsrc : stsBit s .unit 4 = decide (d = .b)) :
    (unitTime d ns gen frac s).unit.base.valid = echoTwice s.unit d := by
  simp only [unitTime, ht, hv, hsrc, decide_true, Bool.not_false, Bool.and_self, if_true, beq_self_eq_true, Bool.true_and]
  split
  · rename_i he
    rw [valid_of_keeps (unitFsm_keeps (StateKeeps.refl _)), loadCounter_valid, he]
  · rename_i he
    rw [hv, Bool.eq_false_iff.mpr he]

/-- Settles O18: reception changes neither the state machine's registers nor the exchanges, and ACQUIRE asks for those alone. -/
theorem firstLoad : Obligations.FirstLoad := by
  unfold Obligations.FirstLoad
  intro s d lane ns gen frac h hst hv ht hsrc
  have hstep : exec (.timeRx ⟨.unit d, lane⟩ ns gen frac) s =
      .next (timeOp (.unit d) ns gen frac.toNat (rxUns ⟨.unit d, lane⟩ true 0x03 (ns ++ gen) s).2) :=
    (timeFrames s lane).1 d ns gen frac h
  refine ⟨_, hstep, ?_, exec_otherSame hstep⟩
  have htook := rxUns_took (rx := ⟨.unit d, lane⟩) (typ := 0x03) (body := ns ++ gen) h.2
  generalize (rxUns ⟨.unit d, lane⟩ true 0x03 (ns ++ gen) s).2 = u at htook
  have hst' : (getPort u (.unit d)).phy.st = .admitted := (htook.links.st _).trans hst
  have hdone : (getPort u (.unit d)).time.act.done = (getPort s (.unit d)).time.act.done :=
    (congrArg (fun x : LinkTime => x.act.done) (htook.links.time (.unit d)) :)
  have hvalid : u.unit.base.valid = false := (congrArg Base.valid (unitRest_core htook.unit) :).trans hv
  simp only [timeOp, admitted, hst', decide_true, if_true]
  generalize hw : onPort (.unit d) (fun lp => { lp with time := { lp.time with peerGen := gen, heardAt := some (nowOf u (.unit d)) } }) u = w
  have hadm : (getPort w (.unit d)).phy.st = .admitted := by rw [← hw, getPort_onPort_same]; exact hst'
  have hcount : (getPort w (.unit d)).time.act.done = (getPort s (.unit d)).time.act.done := by
    rw [← hw, getPort_onPort_same]
    exact hdone
  have hbase : w.unit.base = u.unit.base := by rw [← hw]; exact (setPort_base _ _ _).1
  have htwice : echoTwice w.unit d = decide (2 ≤ (getPort s (.unit d)).time.act.done) := by
    show (admitted (getPort w (.unit d)) && decide (2 ≤ (getPort w (.unit d)).time.act.done)) = _
    simp only [admitted, hadm, hcount, decide_true, Bool.true_and]
  rw [unitTime_acquires, htwice]
  · rw [hbase, hvalid]
  · rw [tckState, hbase, rd_of_took htook (by decide)]
    exact ht
  · rw [← hsrc]
    show (rdF w.unit.base 0x2070 4 1 == 1) = (rdF s.unit.base 0x2070 4 1 == 1)
    rw [hbase, rd_of_took htook (by decide)]

/-! ## Admission (R34, R72, R534 to R538) -/

/-- A Rope port that has sent HELLO is tested for admission (R100). -/
def thenRopeTest (p : PortRef) (u : State) : State := match p with
  | .unit _ => u
  | .dist n => if isRope n.val then ropeTest n u else u

theorem helloOp_of_due (hst : (getPort s p).phy.st = .up) (hs : sendsHello p = true)
    (hdue : (getPort s p).adm.sentAt = none ∨ (∃ t, (getPort s p).adm.sentAt = some t ∧ t + 1000000 ≤ nowOf s p)) {u : State}
    (hu : u = onPort p (fun lp => { lp with adm := { lp.adm with sent := true, sentAt := some (nowOf s p) },
                                            arq := { lp.arq with rxExp := 0, ackDue := none, nak := none } })
      (sendUns p false 7 0x01 (ownHello s p) .none s)) :
    (∀ n, p = .dist n → isRope n.val = true → helloOp p s = ropeTest n u) ∧
      ((∀ n, p = .dist n → isRope n.val = false) → helloOp p s = u) := by
  have hop : helloOp p s = thenRopeTest p u := by
    rw [hu]
    obtain h | ⟨t, h, ht⟩ := hdue
    · simp only [helloOp, h, hst, hs, decide_true, Bool.and_self, if_true]
      rfl
    · simp only [helloOp, h, hst, hs, ht, decide_true, Bool.true_or, Bool.and_self, if_true]
      rfl
  refine ⟨fun n hn hr => ?_, fun hno => ?_⟩
  · subst hn
    rw [hop]
    exact if_pos hr
  · cases p with
    | unit d => exact hop
    | dist n =>
      rw [hop]
      exact if_neg (by rw [hno n rfl]; decide)

theorem slotOp_of_due (hr : rotationRuns s.dist = true) (hdue : ∀ t, s.dist.adm.slotAt = some t → t + 200000 ≤ s.dist.base.tick) :
    slotOp s = examine (if h : s.dist.adm.slot % 128 < 132 then ⟨s.dist.adm.slot % 128, h⟩ else 0)
      (onDist (onAdm fun a => { a with slot := (s.dist.adm.slot % 128 + 1) % 128, slotAt := some s.dist.base.tick }) s) := by
  unfold slotOp
  cases hs : s.dist.adm.slotAt with
  | none => simp only [hs, hr, Bool.and_self, if_true]
  | some t => simp only [hs, hr, hdue t hs, decide_true, Bool.and_self, if_true]

/-- Settles O19: each command by the operation that it runs once its frame or its time is there. -/
theorem admissionRuns : Obligations.AdmissionRuns := by
  unfold Obligations.AdmissionRuns
  intro s
  refine ⟨fun p u hrun hst hs hdue hu => ?_, fun n lane kind domB tier dkey stepping gen valid h hp => next_of_portRuns h.1 ?_,
    fun hr hdue => ⟨_, ?_, slotOp_of_due hr hdue⟩, fun d lane seq uid port domB tier dkey child h => next_of_portRuns h.1.1 ?_,
    fun n lane seq uid port domB tier dkey child hup h => next_of_portRuns h.1.1 ?_⟩
  · obtain ⟨hrope, hother⟩ := helloOp_of_due hst hs hdue hu
    exact ⟨fun n hn hr => next_of_portRuns hrun (hrope n hn hr), fun hno => next_of_portRuns hrun (hother hno)⟩
  · have hok := rxUns_ok (rx := ⟨.dist n, lane⟩) (typ := 0x01)
      (body := helloBody kind.toNat domB tier.toNat dkey stepping.toNat gen.toNat valid) h.2
    simp only [hp, hok, if_true, rxUns_base]
  · have hrun : distRuns s := by
      simp only [rotationRuns, Bool.and_eq_true, decide_eq_true_eq] at hr
      exact hr.1.1
    exact congrArg Host.Outcome.next (ifDistRuns_of_run hrun)
  · simp only [permDown, rxSeq_ok h, if_true]
  · simp only [permDown, hup, rxSeq_ok h, if_true]

end
end Sys2Proof.Proofs
end

section
/-! PROOFS. Resets and start-up of both parts, the debug trace, the log's commands, stopping, sensors, muting and the lead. -/

namespace Sys2Proof.Proofs

open Sys2Proof Sys2Proof.Machine

section
variable {s : State} {b : Base} {a : Nat}

/-! ## Registers at reset, kept, recast and dropped -/

@[simp] theorem rd_emit {o : Out} : rd (emit o b) a = rd b a := rfl
@[simp] theorem rdB_emit {o : Out} {i : Nat} : rdB (emit o b) a i = rdB b a i := rfl
theorem rd_atReset {k : Kind} {ph : Phase} {now free : Nat} : rd (Base.atReset k ph now free) a = resetOf k a := rfl

theorem keepRegs_core {l : List Nat} {old new : Base} : Machine.core (keepRegs l old new) = Machine.core new := by
  induction l generalizing new with
  | nil => rfl
  | cons x l ih => exact ih.trans (core_wr _ _ _)
/-- What keeping writes is read back from the registers before the reset; the others are those of the reset. -/
theorem rd_keepRegs_of_mem {l : List Nat} {old new : Base} (h : a ∈ l) : rd (keepRegs l old new) a = rd old a := by
  have hkept : ∀ {l new}, rd new a = rd old a → rd (keepRegs l old new) a = rd old a := by
    intro l
    induction l with
    | nil => exact id
    | cons x l ih =>
      refine fun {new} hn => ih ?_
      by_cases hx : a = x
      · subst hx; exact rd_wr_same
      · rw [rd_wr_other hx, hn]
  induction l generalizing new with
  | nil => cases h
  | cons x l ih =>
    rcases List.mem_cons.mp h with rfl | h
    · exact hkept (l := l) rd_wr_same
    · exact ih h
theorem rd_keepRegs_of_not_mem {l : List Nat} {old new : Base} (h : a ∉ l) : rd (keepRegs l old new) a = rd new a := by
  induction l generalizing new with
  | nil => rfl
  | cons x l ih =>
    rw [List.mem_cons, not_or] at h
    exact (ih h.2).trans (rd_wr_other h.1)

/-- Strapping anew writes the registers back one by one, and keeps everything else. -/
theorem recast_core {k : Kind} : Machine.core (recast k b) = { Machine.core b with kind := k } := by
  have hfold : ∀ (l : Tab Word) (n : Base), Machine.core (l.foldl (fun n x => wr x.1 x.2 n) n) = Machine.core n := by
    intro l
    induction l with
    | nil => exact fun _ => rfl
    | cons x l ih => exact fun n => (ih _).trans (core_wr _ _ _)
  exact hfold _ _

/-- A table from which the keys outside `keep` are dropped. -/
theorem tabGet_filter_keys {α : Type} (d : α) (keep : Nat → Bool) (t : Tab α) :
    tabGet d a (t.filter fun x => keep x.1) = if keep a then tabGet d a t else d := by
  induction t with
  | nil => simp [tabGet]
  | cons x t ih =>
    obtain ⟨k, v⟩ := x
    by_cases hk : k = a
    · subst hk
      by_cases hx : keep k
      · simp [hx, tabGet]
      · rw [List.filter_cons_of_neg (by simpa using hx), ih]
        simp [hx]
    · by_cases hx : keep k
      · rw [List.filter_cons_of_pos (by simpa using hx)]
        simp only [tabGet, if_neg hk, ih]
      · rw [List.filter_cons_of_neg (by simpa using hx), ih]
        simp only [tabGet, if_neg hk]

/-! ## The distributor's resets (R523 to R529) -/

/-- The base of a distributor held in reset, before the fuse and the pins. -/
def heldBase (ph : Phase) (keep : List Nat) (old : Base) : Base :=
  keepRegs keep old (Base.atReset old.kind ph old.tick old.free)

theorem distHeld_base {ph : Phase} {keep : List Nat} {d : DistState} : (distHeld ph keep d).base =
    emit (.pin .refOk 0) (emit (.pin .frmout 0) (emit (.pin .ppsout 0)
      (wrB 0x0D048 2 (rdB d.base 0x0D048 2) { heldBase ph keep d.base with outs := d.base.outs }))) := rfl

theorem heldBase_fields {ph : Phase} {keep : List Nat} {old : Base} : (heldBase ph keep old).phase = ph ∧
    (heldBase ph keep old).valid = false ∧ (heldBase ph keep old).ns = 0 ∧ (heldBase ph keep old).kind = old.kind ∧
    (heldBase ph keep old).log = [] := by
  have h := keepRegs_core (l := keep) (old := old) (new := Base.atReset old.kind ph old.tick old.free)
  have hlog : ∀ l (new : Base), (keepRegs l old new).log = new.log := by
    intro l
    induction l with
    | nil => exact fun _ => rfl
    | cons x l ih => exact fun new => ih _
  exact ⟨(congrArg Base.phase h :), (congrArg Base.valid h :), (congrArg Base.ns h :), (congrArg Base.kind h :), hlog _ _⟩

/-- The parts of a held distributor that no register shows. -/
theorem distHeld_fields {ph : Phase} {keep : List Nat} {d : DistState} : (distHeld ph keep d).base.phase = ph ∧
    (distHeld ph keep d).base.valid = false ∧ (distHeld ph keep d).base.ns = 0 ∧
    (distHeld ph keep d).base.kind = d.base.kind ∧ (distHeld ph keep d).base.log = [] ∧ (distHeld ph keep d).ports = [] := by
  obtain ⟨h1, h2, h3, h4, h5⟩ := heldBase_fields (ph := ph) (keep := keep) (old := d.base)
  simp only [distHeld_base, emit_phase, emit_valid, emit_ns, emit_kind, emit_log, wrB_phase, wrB_valid, wrB_ns, wrB_kind, wrB_log]
  exact ⟨h1, h2, h3, h4, h5, rfl⟩

theorem rd_distHeld {ph : Phase} {keep : List Nat} {d : DistState} (h : a ≠ 0x0D048) :
    rd (distHeld ph keep d).base a = rd (heldBase ph keep d.base) a := by
  rw [distHeld_base, rd_emit, rd_emit, rd_emit, rd_wrB_other h]
  rfl
theorem rdB_distHeld_fuse {ph : Phase} {keep : List Nat} {d : DistState} :
    rdB (distHeld ph keep d).base 0x0D048 2 = rdB d.base 0x0D048 2 := by
  rw [distHeld_base, rdB_emit, rdB_emit, rdB_emit, rdB_wrB_same (by omega)]

theorem fuse_not_kept (h : a ∈ distKept b) : a ≠ 0x0D048 := by
  rintro rfl
  simp [distKept, lockAddrs] at h

theorem drivePins_base {d : DistState} : (drivePins d).base.kind = d.base.kind ∧ (drivePins d).base.phase = d.base.phase ∧
    (drivePins d).base.phaseAt = d.base.phaseAt ∧ (drivePins d).base.valid = d.base.valid ∧ (drivePins d).base.ns = d.base.ns := by
  unfold drivePins
  extract_lets w
  split <;> exact ⟨rfl, rfl, rfl, rfl, rfl⟩

/-- The base of a distributor leaving reset. -/
theorem distReleaseOp_base {st : Straps} (h : s.dist.base.phase = .reset) :
    (distReleaseOp st s).dist.base.phase = .init ∧ (distReleaseOp st s).dist.base.phaseAt = s.dist.base.tick ∧
    (distReleaseOp st s).dist.base.kind = .dist st ∧
    (st.root = true → (distReleaseOp st s).dist.base.valid = true ∧ (distReleaseOp st s).dist.base.ns = 0) := by
  have hcast := recast_core (k := .dist st) (b := s.dist.base)
  have hkind : (recast (.dist st) s.dist.base).kind = .dist st := (congrArg Base.kind hcast :)
  rw [distReleaseOp, if_pos h]
  extract_lets old src formed rooted lead
  obtain ⟨d1, d2, d3, d4, d5⟩ := drivePins_base (d := DistState.atReset lead s.dist.adm.pins)
  have hlead : lead.kind = rooted.kind ∧ lead.phase = rooted.phase ∧ lead.phaseAt = rooted.phaseAt ∧ lead.valid = rooted.valid ∧
      lead.ns = rooted.ns := by
    simp only [lead]
    split <;> exact ⟨rfl, rfl, rfl, rfl, rfl⟩
  have hrooted : rooted.kind = .dist st ∧ rooted.phase = .init ∧ rooted.phaseAt = s.dist.base.tick ∧
      (st.root = true → rooted.valid = true ∧ rooted.ns = 0) := by
    simp only [rooted]
    split
    · exact ⟨hkind, rfl, rfl, fun _ => ⟨rfl, rfl⟩⟩
    · rename_i hr
      exact ⟨hkind, rfl, rfl, fun e => absurd e hr⟩
  obtain ⟨l1, l2, l3, l4, l5⟩ := hlead
  obtain ⟨r1, r2, r3, r4⟩ := hrooted
  exact ⟨d2.trans (l2.trans r2), d3.trans (l3.trans r3), d1.trans (l1.trans r1),
    fun hr => ⟨d4.trans (l4.trans (r4 hr).1), d5.trans (l5.trans (r4 hr).2)⟩⟩

theorem distInitOp_runs (h : s.dist.base.phase = .init) (hdue : s.dist.base.phaseAt + 262144 ≤ s.dist.base.tick) :
    (distInitOp s).dist.base.phase = .run := by
  have hk : StateKeeps true (onDist (dB fun b => { b with phase := .run }) s)
      ((List.range 132).foldl (fun s n => testDown (distRef n) s) (onDist (dB fun b => { b with phase := .run }) s)) :=
    foldState_keeps (fun _ _ h => testDown_keeps h) (StateKeeps.refl _)
  rw [distInitOp]
  simp only [h, hdue, and_self, if_true]
  exact (hk.dist.clock rfl).phase

/-- PERST drops what the MSI-X structures hold. -/
theorem rd_perstOp : rd (perstOp s).dist.base a =
    if 0x0FE00 ≤ a ∧ a < 0x0FF08 then resetOf s.dist.base.kind a else rd s.dist.base a := by
  show tabGet (resetOf s.dist.base.kind a) a (s.dist.base.regs.filter fun x =>
    !(decide (0x0FE00 ≤ x.1) && decide (x.1 < 0x0FF08))) = _
  rw [tabGet_filter_keys (keep := fun k => !(decide (0x0FE00 ≤ k) && decide (k < 0x0FF08)))]
  by_cases h : 0x0FE00 ≤ a ∧ a < 0x0FF08
  · rw [if_neg (by simp [h.1, h.2]), if_pos h]
  · rw [if_pos (by simp only [Bool.not_eq_true', Bool.and_eq_false_iff, decide_eq_false_iff_not]; omega), if_neg h]
    rfl

/-- Settles O20: what each reset leaves of the base, register by register. -/
theorem distributorStartsUp : Obligations.DistributorStartsUp := by
  unfold Obligations.DistributorStartsUp
  intro s
  refine ⟨⟨_, rfl, rfl, ?_⟩, fun h => ⟨_, rfl, ?_, ?_⟩, fun h => ⟨?_, _, rfl, ?_, ?_⟩, fun h => ?_,
    fun root domB tier smba h => ⟨_, rfl, ?_, distReleaseOp_base h⟩, fun h hdue => ⟨_, rfl, ?_, distInitOp_runs h hdue⟩,
    fun h => ⟨perstOp s, congrArg Host.Outcome.next (ifDist_of_live h), rfl, rfl, rfl, rfl, rfl, fun a ha => ?_, fun a h1 h2 => ?_⟩⟩
  · obtain ⟨h1, h2, h3, h4, h5, h6⟩ := distHeld_fields (ph := .unpowered) (keep := []) (d := s.dist)
    exact ⟨h1, h2, h3, h4, h5, h6, fun a ha => rd_distHeld ha, rdB_distHeld_fuse⟩
  · exact exec_otherSame (c := .powerOnReset) rfl
  · rw [powerOnOp, if_pos h]
    exact distHeld_fields.1
  · exact congrArg Host.Outcome.next (if_neg h)
  · exact exec_otherSame (c := .warmReset) rfl
  · rw [warmResetOp, if_neg h]
    obtain ⟨h1, h2, _, _, h5, h6⟩ := distHeld_fields (ph := .reset) (keep := distKept s.dist.base) (d := s.dist)
    exact ⟨h1, h2, h5, h6, fun a ha => (rd_distHeld (fuse_not_kept ha)).trans (rd_keepRegs_of_mem ha),
      fun a hn ha => (rd_distHeld ha).trans (rd_keepRegs_of_not_mem hn)⟩
  · exact congrArg Host.Outcome.next (if_pos h)
  · exact exec_otherSame (c := .distResetRelease root domB tier smba) rfl
  · exact exec_otherSame (c := .distSramInitDone) rfl
  · rw [rd_perstOp, if_neg ha]
  · rw [rd_perstOp, if_pos ⟨h1, h2⟩]

/-! ## The unit's reset, release and RELOAD (R22, R29, R530, R531) -/

/-- The registers that a unit's reset keeps. -/
def unitKept (porst : Bool) (b : Base) : List Nat := (if porst then [] else [0x00064]) ++ traceRegs ++ lockAddrs b

theorem foldl_emit_drip {l : List Nat} : Machine.core (l.foldl (fun b k => emit (.drip k 0 0) b) b) =
      { Machine.core b with outs := (l.foldl (fun b k => emit (.drip k 0 0) b) b).outs } ∧
    (l.foldl (fun b k => emit (.drip k 0 0) b) b).log = b.log ∧ rd (l.foldl (fun b k => emit (.drip k 0 0) b) b) a = rd b a := by
  induction l generalizing b with
  | nil => exact ⟨rfl, rfl, rfl⟩
  | cons x l ih =>
    obtain ⟨h1, h2, h3⟩ := ih (b := emit (.drip x 0 0) b)
    exact ⟨h1, h2, h3⟩

theorem unitHeld_base {porst : Bool} {u : UnitState} : (unitHeld porst u).base =
    emit (.pin .lwake 0) (emit (.pin .evreq 0) (((List.range (dripChans u)).filter fun k => (dripGet u k).level).foldl
      (fun b k => emit (.drip k 0 0) b) { heldBase .reset (unitKept porst u.base) u.base with outs := u.base.outs })) := rfl

theorem unitHeld_fields {porst : Bool} {u : UnitState} : (unitHeld porst u).base.phase = .reset ∧
    (unitHeld porst u).base.valid = false ∧ (unitHeld porst u).base.ns = 0 ∧ (unitHeld porst u).base.log = [] ∧
    (unitHeld porst u).base.kind = u.base.kind := by
  obtain ⟨h1, h2, h3, h4, h5⟩ := heldBase_fields (ph := .reset) (keep := unitKept porst u.base) (old := u.base)
  rw [unitHeld_base]
  obtain ⟨hc, hl, _⟩ := foldl_emit_drip (a := 0) (l := (List.range (dripChans u)).filter fun k => (dripGet u k).level)
    (b := { heldBase .reset (unitKept porst u.base) u.base with outs := u.base.outs })
  exact ⟨(congrArg Base.phase hc :).trans h1, (congrArg Base.valid hc :).trans h2, (congrArg Base.ns hc :).trans h3,
    hl.trans h5, (congrArg Base.kind hc :).trans h4⟩
theorem rd_unitHeld {porst : Bool} {u : UnitState} (h : a ∉ unitKept porst u.base) :
    rd (unitHeld porst u).base a = resetOf u.base.kind a := by
  rw [unitHeld_base, rd_emit, rd_emit, foldl_emit_drip.2.2]
  exact rd_keepRegs_of_not_mem h

theorem unitInitOp_runs (h : s.unit.base.phase = .init) (hdue : s.unit.base.phaseAt + unitInitTicks s.unit ≤ s.unit.base.tick) :
    (unitInitOp s).unit.base.phase = .run := by
  have hk : StateKeeps true (onUnit (uB fun b => { b with phase := .run }) s)
      (unitFsm (testDown (.unit .b) (testDown (.unit .a) (setTck 1 (onUnit (uB fun b => { b with phase := .run }) s))))) :=
    unitFsm_keeps (testDown_keeps (testDown_keeps (setTck_keeps (StateKeeps.refl _))))
  rw [unitInitOp]
  simp only [h, hdue, and_self, if_true]
  exact (hk.unit.clock rfl).phase

/-- RELOAD in ISOLATED: the counter is not valid, whatever the state machine does then. -/
theorem reloadOp_invalid (h : tckState s.unit = 7) : (reloadOp s).unit.base.valid = false := by
  rw [reloadOp, if_neg (not_not_intro h)]
  extract_lets aged cleared servo closed forgot
  rw [valid_of_keeps (unitFsm_keeps (chooseActive_keeps (StateKeeps.refl _)))]
  generalize setTck 4 forgot = w
  rfl

/-- Settles O21: what the unit's reset leaves, how it comes to run, and RELOAD by the state in which it finds the unit. -/
theorem unitStartsUp : Obligations.UnitStartsUp := by
  unfold Obligations.UnitStartsUp
  intro s
  refine ⟨fun porst => ⟨_, rfl, rfl, ?_⟩, fun h => ⟨_, rfl, ?_, ?_⟩, fun h hdue => ⟨_, rfl, ?_, unitInitOp_runs h hdue⟩,
    fun h hst => ?_, fun h hst => ?_⟩
  · obtain ⟨h1, h2, h3, h4, h5⟩ := unitHeld_fields (porst := porst) (u := s.unit)
    exact ⟨h1, h2, h3, h4, rfl, rfl, h5, fun a ha => rd_unitHeld ha⟩
  · exact exec_otherSame (c := .unitResetRelease) rfl
  · rw [unitReleaseOp, if_pos h]
    exact ⟨rfl, rfl, rfl⟩
  · exact exec_otherSame (c := .unitSramInitDone) rfl
  · have hstep : exec .tckReload s = .next (reloadOp s) := congrArg Host.Outcome.next (ifUnit_of_live h)
    exact ⟨_, hstep, exec_otherSame hstep, reloadOp_invalid hst⟩
  · exact congrArg Host.Outcome.next ((ifUnit_of_live h).trans (if_pos hst))

/-! ## The debug trace, and the fault log's commands -/

/-- Settles O22: each command of DBG.CMD is the operation that runs. -/
theorem debugTrace : Obligations.DebugTrace := by
  unfold Obligations.DebugTrace
  intro s h
  refine ⟨congrArg Host.Outcome.next (ifUnit_of_live h), congrArg Host.Outcome.next (ifUnit_of_live h),
    congrArg Host.Outcome.next (ifUnit_of_live h), fun hi => ?_, fun hi => ?_⟩
  · refine congrArg Host.Outcome.next ((ifUnit_of_live h).trans ?_)
    simp only [onUnit, dbgInjectOp, hi, Option.isSome_none, Bool.false_eq_true, if_false]
  · refine congrArg Host.Outcome.next (ifUnit_of_self ?_)
    simp only [onUnit, dbgInjectOp, hi, if_true]

theorem latch_fields {ch : Nat} {v : Word} : (latch ch a v b).log = b.log ∧ (latch ch a v b).first = b.first ∧
    (latch ch a v b).regs = b.regs ∧ (latch ch a v b).outs = b.outs := ⟨rfl, rfl, rfl, rfl⟩
theorem recRead_fields {ch : Nat} : (recRead ch b).1 = entryWord b.log.head? 0 ∧ (recRead ch b).2.log = b.log.drop 1 ∧
    (recRead ch b).2.regs = b.regs ∧ (recRead ch b).2.outs = b.outs := by
  simp only [recRead, latch_fields, and_self]

theorem exec_fltRecRead {part : Part} {ch : BitVec 3} (h : live (partBase s part) = true) : exec (.fltRecRead part ch) s =
    .next (onPartBase part (fun b => emit (.regData part ch (recRead ch.toNat b).1 0) (recRead ch.toNat b).2) s) := by
  refine congrArg Host.Outcome.next ((ifPart_of_live h).trans ?_)
  cases part <;> rfl
theorem exec_fltFlush {part : Part} (h : live (partBase s part) = true) :
    exec (.fltFlush part) s = .next (onPartBase part (fun b => { b with log := [] }) s) :=
  congrArg Host.Outcome.next (ifPart_of_live h)
/-- Settles O29: each command acts on the log or on FIRST of its part, and on no register. -/
theorem logCommands : Obligations.LogCommands := by
  unfold Obligations.LogCommands
  intro s part ch h
  obtain ⟨hword, hlog, hregs, houts⟩ := recRead_fields (b := partBase s part) (ch := ch.toNat)
  refine ⟨⟨_, exec_fltRecRead h, ?_⟩, ⟨_, exec_fltFlush h, ?_⟩, ⟨_, exec_fltClrFirst h, ?_⟩⟩
  · rw [partBase_onPartBase_same]
    simp only [emit_log, emit_first, emit_regs, hlog, hregs, recRead_first, true_and, and_true]
    rw [hword]
    exact congrArg (· ++ _) houts
  · rw [partBase_onPartBase_same]
    exact ⟨rfl, rfl, rfl⟩
  · rw [partBase_onPartBase_same]
    exact ⟨rfl, rfl, rfl⟩

/-! ## A period of evaluation clears the counts of CRC-bad frames -/

/-- The machine after reset with its distributor running for an evaluation period, and one CRC-bad frame counted on port 0. -/
def crcSeenOnce : State := { State.reset with dist := { State.reset.dist with
  base := { State.reset.dist.base with phase := .run, tick := 255000000 },
  ports := [(0, { hlth := { crcSeen := 1 } })] } }

theorem rdF_lt {lo w : Nat} : rdF b a lo w < 2 ^ w := Nat.mod_lt _ (Nat.two_pow_pos w)

theorem evaluateOp_of_none (hdue : s.dist.adm.evalAt + rdF s.dist.base 0x0C044 0 8 * 1000000 ≤ s.dist.base.tick)
    (hc : candidates s.dist = []) : evaluateOp s =
      onDist (fun d => crcPeriod (onAdm (fun a => { a with evalAt := s.dist.base.tick }) d)) s := by
  simp only [evaluateOp, hdue, if_true, hc, List.foldl_nil]
  rfl

/-- Refutes O23: an evaluation with no candidate notes that it took place, and starts the count of CRC-bad frames toward the next
point anew as well (R473); on `crcSeenOnce` that count was 1 and is 0. -/
theorem not_healthOfPorts : ¬ Obligations.HealthOfPorts := by
  unfold Obligations.HealthOfPorts
  intro h
  obtain ⟨_, _, _, _, _, _, _, hnone, _⟩ := h crcSeenOnce 0 rfl
  have hdue : crcSeenOnce.dist.adm.evalAt + rdF crcSeenOnce.dist.base 0x0C044 0 8 * 1000000 ≤ crcSeenOnce.dist.base.tick := by
    have hlt : rdF crcSeenOnce.dist.base 0x0C044 0 8 < 2 ^ 8 := rdF_lt
    show 0 + rdF crcSeenOnce.dist.base 0x0C044 0 8 * 1000000 ≤ 255000000
    omega
  have hcand : candidates crcSeenOnce.dist = [] := rfl
  have hrun : exec .expulsionEvaluate crcSeenOnce = .next (evaluateOp crcSeenOnce) :=
    congrArg Host.Outcome.next (ifDistRuns_of_run rfl)
  have heq := hrun.symm.trans (hnone hdue hcand)
  rw [evaluateOp_of_none hdue hcand] at heq
  injection heq with heq
  have hseen := congrArg (fun t => (getPort t (.dist 0)).hlth.crcSeen) heq
  exact absurd hseen (by decide)

/-! ## The distributor stops itself (R469 to R471, R638) -/

theorem linkDown_arq_of {p q : PortRef} (h : q = p ∨ (getPort s q).arq = {}) : (getPort (linkDown p s) q).arq = {} := by
  by_cases hq : q = p
  · subst hq
    exact linkDown_arq
  · rw [getPort_linkDown_other hq]
    exact h.resolve_left hq
theorem foldl_linkDown_arq {q : PortRef} {l : List Nat} (h : (∃ n ∈ l, q = distRef n) ∨ (getPort s q).arq = {}) :
    (getPort (l.foldl (fun s n => linkDown (distRef n) s) s) q).arq = {} := by
  induction l generalizing s with
  | nil =>
    obtain ⟨n, hn, _⟩ | h := h
    · cases hn
    · exact h
  | cons x l ih =>
    refine ih ?_
    by_cases hq : q = distRef x
    · exact .inr (linkDown_arq_of (.inl hq))
    · obtain ⟨n, hn, he⟩ | h := h
      · rcases List.mem_cons.mp hn with rfl | hn
        · exact absurd he hq
        · exact .inl ⟨n, hn, he⟩
      · exact .inr (linkDown_arq_of (.inr h))

theorem distRef_val {n : Fin 132} : distRef n.val = .dist n := dif_pos n.isLt

theorem tabGet_of_not_mem {α : Type} {d : α} {t : Tab α} (h : ∀ x ∈ t, x.1 ≠ a) : tabGet d a t = d := by
  induction t with
  | nil => rfl
  | cons x t ih =>
    obtain ⟨k, v⟩ := x
    exact (if_neg (h (k, v) List.mem_cons_self)).trans (ih fun y hy => h y (List.mem_cons_of_mem _ hy))

/-- The machine when the links of every port are down. -/
def allDown (s : State) : State := (s.dist.ports.map (·.1)).foldl (fun s n => linkDown (distRef n) s) s

theorem allDown_keeps : StateKeeps true s (allDown s) := foldState_keeps (fun _ _ h => linkDown_keeps h) (StateKeeps.refl s)

/-- What stopping leaves: the phase, no frame on any port, hall time and straps as they were. -/
theorem distStop_stops : (distStop s).dist.base.phase = .stopped ∧ (distStop s).dist.base.ns = s.dist.base.ns ∧
    (distStop s).dist.base.kind = s.dist.base.kind ∧ ∀ n : Fin 132, (getPort (distStop s) (.dist n)).arq = {} := by
  refine ⟨rfl, (distStop_sameTime s).dist_ns, (allDown_keeps.dist.clock rfl).kind, fun n => ?_⟩
  refine foldl_linkDown_arq (q := .dist n) (l := s.dist.ports.map (·.1)) ?_
  by_cases hn : n.val ∈ s.dist.ports.map (·.1)
  · exact .inl ⟨n.val, hn, distRef_val.symm⟩
  · refine .inr ?_
    have hget : getPort s (.dist n) = {} := tabGet_of_not_mem fun x hx e => hn (List.mem_map.mpr ⟨x, hx, e⟩)
    rw [hget]

theorem logD_distStop_stops {h : Hap} {port obj uid aux : Nat} {t : State} (ht : distStop (logD h port obj uid aux s) = t) :
    t.dist.base.phase = .stopped ∧ t.dist.base.ns = s.dist.base.ns ∧ t.dist.base.kind = s.dist.base.kind ∧
    ∀ n : Fin 132, (getPort t (.dist n)).arq = {} := by
  subst ht
  obtain ⟨h1, h2, h3, h4⟩ := distStop_stops (s := logD h port obj uid aux s)
  exact ⟨h1, h2.trans (logD_ns h port obj uid aux s), h3.trans (logD_kind h port obj uid aux s), h4⟩

theorem sext_toNat {temp : BitVec 12} : sext 12 temp.toNat = temp.toInt := by
  have hlt := temp.isLt
  rw [BitVec.toInt_eq_toNat_cond]
  simp only [sext, Nat.mod_eq_of_lt hlt]
  by_cases h : temp.toNat < 2 ^ (12 - 1)
  · rw [if_pos h, if_pos (by omega)]
  · rw [if_neg h, if_neg (by omega)]

/-- An entry leaves the registers of every page below its counts, but for the event and the fault word. -/
theorem rd_addEntry_offset {pg : Option (Nat × Nat)} {e : LogEntry} {p o : Nat} (ho : o < 0x050) (h10 : o ≠ 0x010)
    (h18 : o ≠ 0x018) : rd (addEntry pg e b) (pageAddr p o) = rd b (pageAddr p o) := by
  have hfar : ∀ {c : Base} {q o' : Nat}, 0x050 ≤ o' → o' < 0x1000 → rd (inc (pageAddr q o') c) (pageAddr p o) = rd c (pageAddr p o) :=
    fun h1 h2 => rd_inc_other (pageAddr_ne_of_offset (by omega) h2 (by omega))
  have hcnt : rd (inc (cntAddr b e.kind.toNat) b) (pageAddr p o) = rd b (pageAddr p o) := hfar (by omega) (by omega)
  simp only [addEntry]
  split
  · rw [rd_fltBit_offset (by omega) h18]
    exact hcnt
  · split
    · rw [rd_fltBit_offset (by omega) h18, rd_loadFirst_offset (by omega) h10]
      split
      · rw [rd_pgEvt_offset (by omega) h10, rd_wrF_other (pageAddr_ne_of_offset (by omega) (by omega) (by omega))]
        exact hcnt
      · rw [rd_wrF_other (pageAddr_ne_of_offset (by omega) (by omega) (by omega))]
        exact hcnt
    · rw [hfar (by omega) (by omega)]
      exact hcnt

/-- Judging a sample changes no sensor's word and no port. -/
theorem thmJudge_rest {k : Nat} (hk : k < 4) : rd (thmJudge s).dist.base (thmTemp k) = rd s.dist.base (thmTemp k) ∧
    (thmJudge s).dist.ports = s.dist.ports := by
  have ha : thmTemp k = pageAddr 0x13 (0x040 + 4 * k) := by simp only [thmTemp, pageAddr]; omega
  have hsts : rd (onDist (dB (wr 0x1305C (BitVec.ofNat 32 (thmSts s.dist.base)))) s).dist.base (thmTemp k) = rd s.dist.base (thmTemp k) :=
    rd_wr_other (by simp only [thmTemp]; omega)
  simp only [thmJudge]
  split
  · refine ⟨?_, rfl⟩
    show rd (addEntry _ _ _) (thmTemp k) = _
    rw [ha, rd_addEntry_offset (by omega) (by omega) (by omega), ← ha]
    show rd (pgEvt 0x13 0 _) (thmTemp k) = _
    rw [ha, rd_pgEvt_offset (by omega) (by omega), ← ha]
    exact hsts
  · split
    · refine ⟨?_, rfl⟩
      show rd (pgEvt 0x13 1 _) (thmTemp k) = _
      rw [ha, rd_pgEvt_offset (by omega) (by omega), ← ha]
      exact hsts
    · exact ⟨hsts, rfl⟩

theorem thmRecord_rest {k temp : Nat} (hk : k < 4) :
    rd (thmRecord k temp s).dist.base (thmTemp k) = BitVec.ofNat 32 (2 ^ 31 + temp) ∧
    (thmRecord k temp s).dist.ports = s.dist.ports := by
  obtain ⟨h1, h2⟩ := thmJudge_rest hk (s := onDist (dB fun b =>
    let c := wr (thmTemp k) (BitVec.ofNat 32 (2 ^ 31 + temp)) b
    if ((List.range 4).all fun j => (thmValid s.dist.base j).isNone) ∨ sext 12 (rdF c 0x13050 0 12) < sext 12 temp
    then wrF 0x13050 0 12 temp c else c) s)
  refine ⟨h1.trans ?_, h2⟩
  simp only [onDist, dB]
  split
  · rw [rd_wrF_other (by simp only [thmTemp]; omega), rd_wr_same]
  · exact rd_wr_same

/-- Settles O24: every way to stop ends in `distStop`; below the trip point the sample is recorded and judged. -/
theorem distributorStops : Obligations.DistributorStops := by
  unfold Obligations.DistributorStops
  intro s hrun
  have hphase : ∀ k temp, (thmRecord k temp s).dist.base.phase = .run := fun k temp =>
    ((thmRecord_keeps k temp s).dist.clock rfl).phase.trans hrun
  refine ⟨fun engine => ?_, fun mem => ?_, fun k temp ht => ?_, fun k temp ht => ?_⟩
  · have hstep : exec (.wdogFail engine) s = .next (wdogOp engine.toNat s) := congrArg Host.Outcome.next (ifDistRuns_of_run hrun)
    obtain ⟨h1, h2, h3, h4⟩ := logD_distStop_stops (t := wdogOp engine.toNat s) rfl
    exact ⟨_, hstep, h1, exec_otherSame hstep, h2, h3, h4⟩
  · have hstep : exec (.distMemFatal mem) s = .next (memFatalOp mem.toNat s) := congrArg Host.Outcome.next (ifDistRuns_of_run hrun)
    obtain ⟨h1, h2, h3, h4⟩ := logD_distStop_stops (t := memFatalOp mem.toNat s) rfl
    exact ⟨_, hstep, h1, exec_otherSame hstep, h2, h3, h4⟩
  · have hstep : exec (.thmSample k temp) s = .next (thmSampleOp k.toNat temp.toNat s) :=
      congrArg Host.Outcome.next (ifDist_of_live (live_of_run hrun))
    have hop : distStop (logD dThmTrip noPort k.toNat 0 0 (thmRecord k.toNat temp.toNat s)) = thmSampleOp k.toNat temp.toNat s := by
      rw [thmSampleOp_eq, if_pos ⟨by rw [sext_toNat]; exact ht, by rw [hphase]; decide⟩]
    obtain ⟨h1, h2, _, h4⟩ := logD_distStop_stops hop
    exact ⟨_, hstep, h1, exec_otherSame hstep, h2.trans ((thmRecord_keeps _ _ s).dist.clock rfl).ns, h4⟩
  · have hstep : exec (.thmSample k temp) s = .next (thmSampleOp k.toNat temp.toNat s) :=
      congrArg Host.Outcome.next (ifDist_of_live (live_of_run hrun))
    have hop : thmSampleOp k.toNat temp.toNat s = thmRecord k.toNat temp.toNat s := by
      rw [thmSampleOp_eq, if_neg]
      rw [sext_toNat]
      omega
    obtain ⟨h1, h2⟩ := thmRecord_rest (s := s) (temp := temp.toNat) k.isLt
    exact ⟨_, hstep.trans (congrArg Host.Outcome.next hop), hphase _ _, h2, h1⟩

/-- Settles O25: a sensor's report by its word and its flag; CLR_MAX writes one register. -/
theorem sensorsReport : Obligations.SensorsReport := by
  unfold Obligations.SensorsReport
  intro s h
  refine ⟨fun k hv hf hdue => congrArg Host.Outcome.next ((ifDist_of_live h).trans ?_),
    fun k hno => congrArg Host.Outcome.next (ifDist_of_self ?_),
    ⟨_, congrArg Host.Outcome.next (ifDist_of_live h), rd_wr_same, rfl, rfl, fun a ha => rd_wr_other ha⟩⟩
  · simp only [thmFailOp, hv, hf, hdue, Option.isNone_none, Bool.not_false, decide_true, Bool.and_self, if_true]
  · simp only [thmFailOp]
    rw [if_neg]
    rcases hno with h | h | h
    · simp [h]
    · simp [h]
    · simp [show ¬ s.dist.base.phaseAt + 10000000 ≤ s.dist.base.tick by omega]

/-! ## Muting and the lead (R180, R484 to R489) -/

theorem fltPage_cases : fltPage b = 0x13 ∨ fltPage b = 0x10 := by
  unfold fltPage
  split
  · exact .inl rfl
  · exact .inr rfl

theorem rdB_logD {h : Hap} {port obj uid aux i : Nat} (hp : a / 0x1000 < 0x10) (h18 : a ≠ pageAddr h.page 0x018) :
    rdB (logD h port obj uid aux s).dist.base a i = rdB s.dist.base a i := by
  have hr : rd (logD h port obj uid aux s).dist.base a = rd s.dist.base a :=
    rd_logD h port obj uid aux s (by rcases fltPage_cases (b := s.dist.base) with e | e <;> omega) h18
  simp only [rdB, rdF, hr]

theorem muteOp_of_due (hr : isRoot s.dist = false) (hh : stsBit s .dist 3 = true) (hm : muted s.dist = false)
    (hdue : (servoOf s .dist).holdAt + rdF s.dist.base 0x9060 0 17 * 1000 ≤ s.dist.base.tick) :
    muted (muteOp s).dist = true ∧ (muteOp s).dist.ports = s.dist.ports := by
  simp only [muteOp, hr, hh, hm, hdue, Bool.not_false, decide_true, Bool.and_self, if_true]
  refine ⟨?_, rfl⟩
  rw [muted, rdB_logD (by decide) (by decide)]
  show rdB (pgEvt 0x09 3 _) 0x9064 5 = true
  rw [pgEvt, rdB_wrB_other (by decide), rdB_wrB_same (by decide)]
theorem muteOp_of_not (h : isRoot s.dist = true ∨ stsBit s .dist 3 = false ∨ muted s.dist = true ∨
    s.dist.base.tick < (servoOf s .dist).holdAt + rdF s.dist.base 0x9060 0 17 * 1000) : muteOp s = s := by
  simp only [muteOp]
  rw [if_neg]
  rcases h with h | h | h | h
  · simp [h]
  · simp [h]
  · simp [h]
  · simp [show ¬ (servoOf s .dist).holdAt + rdF s.dist.base 0x9060 0 17 * 1000 ≤ s.dist.base.tick by omega]

theorem soleOp_of_not (h : isRoot s.dist = false ∨ s.dist.cmb.sole = true ∨ ropeDownFor s.dist 1024 = false ∨
    2 * rootReports s.dist ≤ childPorts s.dist) : soleOp s = s := by
  simp only [soleOp]
  rw [if_neg]
  rcases h with h | h | h | h
  · simp [h]
  · simp [h]
  · simp [h]
  · simp [show ¬ childPorts s.dist < 2 * rootReports s.dist by omega]
theorem ropeLostOp_of_not (h : isRoot s.dist = false ∨ s.dist.cmb.sole = true ∨ s.dist.rope.lostLogged = true ∨
    ropeDownFor s.dist 51024 = false ∨ childPorts s.dist < 2 * rootReports s.dist) : ropeLostOp s = s := by
  simp only [ropeLostOp]
  rw [if_neg]
  rcases h with h | h | h | h | h
  · simp [h]
  · simp [h]
  · simp [h]
  · simp [h]
  · simp [show ¬ 2 * rootReports s.dist ≤ childPorts s.dist by omega]

theorem isLead_setLead {v : Bool} {d : DistState} : isLead (setLead v d) = v := by
  unfold setLead
  split
  · assumption
  · show rdB (pgEvt 0x0B 0 (wr64 0x0B064 _ (wrB 0x0A044 28 v d.base))) 0x0A044 28 = v
    rw [pgEvt, rdB_wrB_other (by decide), rdB, rdF, wr64, rd_wr_other (by decide), rd_wr_other (by decide)]
    exact rdB_wrB_same (by decide)

theorem handbackOp_returns (hr : isRoot s.dist = true) (hb : distDomB s.dist = true) (hs : s.dist.cmb.sole = true)
    (hl : isLead s.dist = true) (hu : ropeUp s.dist = true) :
    isLead (handbackOp s).dist = false ∧ (handbackOp s).dist.cmb.sole = false := by
  simp only [handbackOp, hr, hb, hs, hl, hu, Bool.and_self, if_true]
  refine ⟨?_, ?_⟩
  · rw [isLead, rdB_logD (by decide) (by decide)]
    exact isLead_setLead
  · rw [logD_cmb]
    simp only [onDist, setLead]
    split <;> rfl
theorem handbackOp_of_not (h : isRoot s.dist = false ∨ distDomB s.dist = false ∨ s.dist.cmb.sole = false ∨
    isLead s.dist = false ∨ ropeUp s.dist = false) : handbackOp s = s := by
  simp only [handbackOp]
  rw [if_neg]
  rcases h with h | h | h | h | h <;> simp [h]

/-- Settles O26: each of the four operations by its condition, and nothing where the condition fails. -/
theorem muteAndLead : Obligations.MuteAndLead := by
  unfold Obligations.MuteAndLead
  intro s hrun
  have hgate : ∀ {f : State → State}, (.next (ifDistRuns f s) : Host.Outcome State Fault Refusal) = .next (f s) :=
    congrArg Host.Outcome.next (ifDistRuns_of_run hrun)
  refine ⟨fun hr hh hm hdue => ?_, fun hr hs hd hc => ?_, fun hr hs hl hd hc => hgate.trans (congrArg Host.Outcome.next ?_),
    fun hr hb hs hl hu => ?_, fun h => congrArg Host.Outcome.next (ifDistRuns_of_self (muteOp_of_not h)),
    fun h => congrArg Host.Outcome.next (ifDistRuns_of_self (soleOp_of_not h)),
    fun h => congrArg Host.Outcome.next (ifDistRuns_of_self (ropeLostOp_of_not h)),
    fun h => congrArg Host.Outcome.next (ifDistRuns_of_self (handbackOp_of_not h))⟩
  · have hstep : exec .distMute s = .next (muteOp s) := hgate
    obtain ⟨h1, h2⟩ := muteOp_of_due hr hh hm hdue
    exact ⟨_, hstep, h1, h2, exec_otherSame hstep⟩
  · have hstep : exec .soleRoot s = .next (soleOp s) := hgate
    refine ⟨_, hstep, exec_otherSame hstep, ?_⟩
    simp only [soleOp, hr, hs, hd, hc, Bool.not_false, decide_true, Bool.and_self, if_true]
  · simp only [ropeLostOp, hr, hs, hl, hd, hc, Bool.not_false, decide_true, Bool.and_self, if_true]
    rfl
  · have hstep : exec .leadHandback s = .next (handbackOp s) := hgate
    obtain ⟨h1, h2⟩ := handbackOp_returns hr hb hs hl hu
    exact ⟨_, hstep, h1, h2, exec_otherSame hstep⟩

end
end Sys2Proof.Proofs
end

section
/-! PROOFS. Event sources, claims, Lantern and MSI-X, and physical presence. -/

namespace Sys2Proof.Proofs

open Sys2Proof Sys2Proof.Machine

/-! A command at a part out of reset. -/

theorem next_of_unitLive {s t : State} {f : State → State} (h : live s.unit.base = true) (ht : f s = t) :
    (.next (ifUnit f s) : Host.Outcome State Fault Refusal) = .next t := congrArg Host.Outcome.next ((ifUnit_of_live h).trans ht)
theorem next_of_distLive {s t : State} {f : State → State} (h : live s.dist.base = true) (ht : f s = t) :
    (.next (ifDist f s) : Host.Outcome State Fault Refusal) = .next t := congrArg Host.Outcome.next ((ifDist_of_live h).trans ht)
theorem next_of_partLive {p : Part} {s t : State} {f : State → State} (h : live (partBase s p) = true) (ht : f s = t) :
    (.next (ifPart p f s) : Host.Outcome State Fault Refusal) = .next t := congrArg Host.Outcome.next ((ifPart_of_live h).trans ht)

/-- A change of the unit's base that agrees with another on the base it meets. -/
theorem onUnit_uB_congr {s : State} {f g : Base → Base} (h : f s.unit.base = g s.unit.base) :
    onUnit (uB f) s = onUnit (uB g) s := congrArg (fun b => { s with unit := { s.unit with base := b } }) h
theorem onDist_dB_congr {s : State} {f g : Base → Base} (h : f s.dist.base = g s.dist.base) :
    onDist (dB f) s = onDist (dB g) s := congrArg (fun b => { s with dist := { s.dist with base := b } }) h

/-- What a register read answers, before a change of the part's base. -/
theorem onPartBase_answer {part : Part} {ch : BitVec 3} {v : Word} {f : Base → Base} {s : State} :
    onPartBase part f (answer part ch v s) = onPartBase part (fun b => f (emit (.regData part ch v 0) b)) s := by
  cases part <;> rfl

/-! ## Inputs (R421, R422) -/

section
variable {b : Base} {n : Nat}

theorem srcLevel_srcSet {m : Nat} {e : EvSrc} : srcLevel (srcSet m e b) n = srcLevel b n := rfl

/-- Host event `n` is a level source where its configuration says so. -/
theorem srcLevel_hevt (hn : n < 128) (hu : isUnit b = true) (hc : bitOf (srcCfg b (128 + n)) 21 = false) :
    srcLevel b (128 + n) = false := by
  have h1 : ¬ 128 + n ≤ 22 := by omega
  have h2 : ¬ 256 ≤ 128 + n := by omega
  simp [srcLevel, hu, hc, h1, h2]

theorem hevtOp_rises (he : (srcGet b (128 + n)).level = false) (hl : srcLevel b (128 + n) = false) :
    hevtOp n true b = occur (128 + n) (srcSet (128 + n) { srcGet b (128 + n) with level := true } b) := by
  simp only [hevtOp, srcLevel_srcSet, he, hl, Bool.not_false, Bool.and_self, if_true]
theorem hevtOp_falls : hevtOp n false b = srcSet (128 + n) { srcGet b (128 + n) with level := false } b := by
  simp only [hevtOp, Bool.false_and, Bool.false_eq_true, if_false]
theorem hevtOp_quiet (h : (srcGet b (128 + n)).level = true ∨ srcLevel b (128 + n) = true) :
    hevtOp n true b = srcSet (128 + n) { srcGet b (128 + n) with level := true } b := by
  rcases h with h | h
  · simp only [hevtOp, h, Bool.not_true, Bool.and_false, Bool.false_and, Bool.false_eq_true, if_false]
  · simp only [hevtOp, srcLevel_srcSet, h, Bool.not_true, Bool.and_false, Bool.false_eq_true, if_false]

theorem evinOp_eq {level : Bool} : evinOp n level b = (if level ≠ (srcGet b (256 + n)).level ∧
    (evinMode b (256 + n) = 1 ∧ level = true ∨ evinMode b (256 + n) = 2 ∧ level = false ∨ evinMode b (256 + n) = 3)
    then occur (256 + n) else id) (srcSet (256 + n) { srcGet b (256 + n) with level := level } b) := by
  have hm : ∀ e, evinMode (srcSet (256 + n) e b) (256 + n) = evinMode b (256 + n) := fun _ => rfl
  simp only [evinOp, hm, Bool.and_eq_true, Bool.or_eq_true, bne_iff_ne, beq_iff_eq, Bool.not_eq_true', or_assoc, ne_eq]
  split <;> rfl

/-! ## Moderation (R438) -/

/-- The hold-off of a group. -/
def holdOff (b : Base) (g : Nat) : Nat := rdF b (pageAddr (evcPage b) (0x240 + 4 * g)) 0 16

theorem occur_ungrouped (h : 16 ≤ fld (srcCfg b n) 16 5) : occur n b = makePending n 1 b := by
  simp only [occur, show ¬ fld (srcCfg b n) 16 5 < 16 by omega, false_and, if_false, if_true]
theorem occur_timing {g : Nat} (hg : fld (srcCfg b n) 16 5 = g) (h16 : g < 16) (ht : (grpGet b g).timing = true) :
    occur n b = srcSet n { srcGet b n with held := (srcGet b n).held + 1 } b := by
  simp only [occur, hg, h16, ht, and_self, if_true]
theorem occur_idle {g : Nat} (hg : fld (srcCfg b n) 16 5 = g) (h16 : g < 16) (ht : (grpGet b g).timing = false) :
    occur n b = if holdOff b g = 0 then makePending n 1 b
      else makePending n 1 (grpSet g { timing := true, startedAt := b.tick, len := holdOff b g } b) := by
  simp only [occur, hg, h16, ht, Bool.false_eq_true, and_false, if_false, if_true]
  rfl

/-- The sources of a group that hold occurrences. -/
def heldSources (b : Base) (g : Nat) : List Nat :=
  (List.range (srcCount b)).filter fun n => fld (srcCfg b n) 16 5 == g && decide (0 < (srcGet b n).held)

theorem heldSources_eq_nil {g : Nat} (h : ∀ n, n < srcCount b → fld (srcCfg b n) 16 5 = g → (srcGet b n).held = 0) :
    heldSources b g = [] := by
  refine List.filter_eq_nil_iff.mpr fun n hn => ?_
  simp only [Bool.and_eq_true, beq_iff_eq, decide_eq_true_eq, not_and, Nat.not_lt, Nat.le_zero]
  exact h n (List.mem_range.mp hn)

theorem holdoffOp_of_run {g : Nat} (ht : (grpGet b g).timing = true)
    (hdue : (grpGet b g).startedAt + (grpGet b g).len * 1000 ≤ b.tick) : holdoffOp g b =
      if (heldSources b g).isEmpty then grpSet g {} b
      else
        let c := (heldSources b g).foldl (fun b n => makePending n (srcGet b n).held (srcSet n { srcGet b n with held := 0 } b)) b
        grpSet g (if holdOff c g = 0 then {} else { timing := true, startedAt := c.tick, len := holdOff c g }) c := by
  simp only [holdoffOp, ht, hdue, decide_true, Bool.and_self, if_true]
  rfl
theorem holdoffOp_of_not {g : Nat} (h : (grpGet b g).timing = false ∨ b.tick < (grpGet b g).startedAt + (grpGet b g).len * 1000) :
    holdoffOp g b = b := by
  simp only [holdoffOp]
  rw [if_neg]
  rcases h with h | h
  · simp [h]
  · simp [show ¬ (grpGet b g).startedAt + (grpGet b g).len * 1000 ≤ b.tick by omega]

/-! ## Pending and mask words (R445, R446) -/

theorem testBit_zero_all_bytes {i : Nat} (hi : i < 32) (j : Nat) (hj : j < 32) :
    (beMask 0xF &&& (0xFFFFFFFF ^^^ (~~~ (BitVec.ofNat 32 (2 ^ i))).toNat)).testBit j = decide (i = j) := by
  have hall : beMask 0xF = 2 ^ 32 - 1 := by decide
  have hlt : 2 ^ i < 2 ^ 32 := Nat.pow_lt_pow_right (by omega) hi
  have hones : (0xFFFFFFFF : Nat) = 2 ^ 32 - 1 := rfl
  rw [hall, hones, Nat.testBit_and, Nat.testBit_xor, Nat.testBit_two_pow_sub_one, BitVec.testBit_toNat, BitVec.getLsbD_not,
    ← BitVec.testBit_toNat, BitVec.toNat_ofNat, Nat.mod_eq_of_lt hlt, Nat.testBit_two_pow]
  simp [hj]

theorem pendWriteOp_single {part : Part} {w i : Nat} {s : State} (hw : w < evcWords (partBase s part)) (hi : i < 32) :
    pendWriteOp part w 0xF (~~~ (BitVec.ofNat 32 (2 ^ i))) s = onPartBase part msixAgain (pendClear1 part (32 * w + i) s) := by
  simp only [pendWriteOp, hw, if_true]
  have hstep : (List.range 32).foldl (fun s j => if (beMask 0xF &&& (0xFFFFFFFF ^^^ (~~~ (BitVec.ofNat 32 (2 ^ i))).toNat)).testBit j
      then pendClear1 part (32 * w + j) s else s) s = pendClear1 part (32 * w + i) s := by
    rw [← foldl_range_eq_step (f := fun s j => if decide (i = j) then pendClear1 part (32 * w + j) s else s) hi
      (fun a j hj => if_neg (by simpa using Ne.symm hj)) s |>.trans (if_pos (by simp))]
    refine List.foldl_ext _ _ _ fun a j hj => ?_
    rw [testBit_zero_all_bytes hi j (List.mem_range.mp hj)]
  rw [hstep]

/-- MASK_w of a part. -/
def maskAddr (b : Base) (w : Nat) : Nat := pageAddr (evcPage b) (0x100 + 4 * w)

theorem maskWriteOp_all {set : Bool} {w : Nat} {data : Word} (hw : w < evcWords b) (h0 : 0 < w) (h8 : w < 8) :
    maskWriteOp set w 0xF data b =
      let c := wr (maskAddr b w) (if set then rd b (maskAddr b w) ||| data else rd b (maskAddr b w) &&& ~~~ data) b
      if set then c else msixAgain c := by
  have hm : BitVec.ofNat 32 (data.toNat &&& beMask 0xF &&& (if w = 0 then 0xFFFFFFFE else
      if isUnit b && w == 8 then 0x0000FFFF else 0xFFFFFFFF)) = data := by
    have hall : beMask 0xF = 2 ^ 32 - 1 := by decide
    rw [if_neg (by omega), if_neg (by simp; omega), hall, Nat.and_two_pow_sub_one_eq_mod, Nat.mod_eq_of_lt data.isLt]
    show BitVec.ofNat 32 (data.toNat &&& (2 ^ 32 - 1)) = data
    rw [Nat.and_two_pow_sub_one_eq_mod, Nat.mod_eq_of_lt data.isLt, BitVec.ofNat_toNat, BitVec.setWidth_eq]
  simp only [maskWriteOp, hw, if_true, hm]
  rfl
theorem msixAgain_of_unit (h : isUnit b = true) : msixAgain b = b := if_pos h

theorem hevtOp_level_count (h : (srcGet b (128 + n)).level = true ∨ srcLevel b (128 + n) = true) :
    (srcGet (hevtOp n true b) (128 + n)).level = true ∧
    (srcGet (hevtOp n true b) (128 + n)).count = (srcGet b (128 + n)).count ∧ (hevtOp n true b).regs = b.regs := by
  rw [hevtOp_quiet h, srcGet_srcSet_same]
  exact ⟨rfl, rfl, rfl⟩

theorem rd_partBase_wr {part : Part} {s : State} {a : Nat} {v : Word} :
    rd (partBase (onPartBase part (wr a v) s) part) a = v ∧
    ∀ a', a' ≠ a → rd (partBase (onPartBase part (wr a v) s) part) a' = rd (partBase s part) a' := by
  rw [partBase_onPartBase_same]
  exact ⟨rd_wr_same, fun a' ha => rd_wr_other ha⟩

end

/-- Settles O31: each input, timer and word by the one operation on the base of its part. -/
theorem sourcesOccur : Obligations.SourcesOccur := by
  unfold Obligations.SourcesOccur
  refine ⟨⟨fun s n h he hc hu => next_of_unitLive h (onUnit_uB_congr (hevtOp_rises he (srcLevel_hevt n.isLt hu hc))),
    fun s n h => next_of_unitLive h (onUnit_uB_congr hevtOp_falls), fun s i level h => next_of_unitLive h (onUnit_uB_congr evinOp_eq),
    fun n b => occur_ungrouped, fun n g b hg h16 => ⟨occur_timing hg h16, fun ht h0 => ?_, fun ht h0 => ?_⟩,
    fun s part g h ht hdue hnone => next_of_partLive h (onPartBase_congr ?_)⟩,
    fun s part g n h ht hdue hone => next_of_partLive h (onPartBase_congr ?_),
    fun s part g h hno => next_of_partLive h (onPartBase_eq_self (holdoffOp_of_not hno)),
    fun s n h hq => ⟨onUnit (uB (hevtOp n.toNat true)) s, next_of_unitLive h rfl, ?_⟩, fun s part w h => ⟨fun ch => next_of_partLive h ?_, fun hw i =>
      next_of_partLive h (pendWriteOp_single hw i.isLt), fun h0 hw data => ⟨?_, fun hp hu => ?_⟩⟩⟩
  · exact (occur_idle hg h16 ht).trans (if_pos h0)
  · exact (occur_idle hg h16 ht).trans (if_neg (Nat.pos_iff_ne_zero.mp h0))
  · rw [holdoffOp_of_run ht hdue, heldSources_eq_nil hnone]
    rfl
  · have hheld : heldSources (partBase s part) g.toNat = [n] := hone
    rw [holdoffOp_of_run ht hdue, hheld]
    rfl
  · obtain ⟨hlevel, hcount, hregs⟩ := hevtOp_level_count hq
    have hbase : (onUnit (uB (hevtOp n.toNat true)) s).unit.base = hevtOp n.toNat true s.unit.base := rfl
    rw [hbase]
    exact ⟨hlevel, hcount, hregs, onUnit_dist⟩
  · exact onPartBase_answer
  · have hwords : w.toNat < evcWords (partBase s part) := by
      cases hu : isUnit (partBase s part) <;> simp only [evcWords, hu, if_true, Bool.false_eq_true, if_false] at hw ⊢ <;> omega
    refine ⟨_, next_of_partLive h (onPartBase_congr ((maskWriteOp_all hwords h0 ?_).trans (if_pos rfl))), rd_partBase_wr⟩
    split at hw <;> omega
  · subst hp
    have hw8 : w.toNat < 8 := by
      rw [partBase_unit, if_pos hu] at hw
      exact hw
    have hwords : w.toNat < evcWords s.unit.base := by
      rw [evcWords, if_pos hu]
      omega
    refine ⟨_, next_of_partLive h (onPartBase_congr ((maskWriteOp_all hwords h0 hw8).trans
      ((if_neg (by decide)).trans (msixAgain_of_unit hu)))), rd_partBase_wr⟩

/-! ## Claims, FLUSH and the assignment (R425, R429 to R433, R437) -/

section
variable {s : State} {k n : Nat}

/-- A claimed source: active on the processor, and no longer pending where it is a pulse source. -/
def claimedSrc (b : Base) (k n : Nat) : EvSrc :=
  { srcGet b n with
    active := some (BitVec.ofNat 3 k), pend := if srcLevel b n then (srcGet b n).pend else false,
    count := if srcLevel b n then (srcGet b n).count else 0, fresh := if srcLevel b n then (srcGet b n).fresh else false }
/-- The base after processor `k` has claimed source `n`. -/
def claimTaken (k n : Nat) (b : Base) : Base :=
  let b := setStack k ({ src := n, grp := srcGrpPrio b n } :: cpuStack b k) (srcSet n (claimedSrc b k n) b)
  { b with evc := { b.evc with rot := BitVec.ofNat 3 (k + 1) } }

theorem claim_of_source (hen : cpuEn s.unit.base k = true) (hn : claimable s.unit.base k = some n)
    (hfree : (cpuStack s.unit.base k).length < 8) :
    claim k s = (BitVec.ofNat 32 ((if srcLevel s.unit.base n then 1 else min 255 (srcGet s.unit.base n).count) * 65536 + n),
      onUnit (uB fun _ => claimTaken k n s.unit.base) s) := by
  simp only [claim, hen, Bool.not_true, Bool.false_eq_true, if_false, hn, Nat.not_le.mpr hfree]
  rfl
theorem cpuStack_emit {b : Base} {o : Out} : cpuStack (emit o b) k = cpuStack b k := rfl
theorem srcGet_emit {b : Base} {o : Out} : srcGet (emit o b) n = srcGet b n := rfl
theorem srcGet_claimTaken {b : Base} : srcGet (claimTaken k n b) n = claimedSrc b k n := srcGet_srcSet_same
theorem cpuStack_rot {b : Base} {r : BitVec 3} : cpuStack { b with evc := { b.evc with rot := r } } k = cpuStack b k := rfl
theorem cpuStack_claimTaken {b : Base} :
    cpuStack (claimTaken k n b) k = { src := n, grp := srcGrpPrio b n } :: cpuStack b k := cpuStack_rot.trans cpuStack_setStack_same
theorem claimTaken_rest {b : Base} :
    (claimTaken k n b).evc.rot = BitVec.ofNat 3 (k + 1) ∧ (claimTaken k n b).regs = b.regs ∧ (claimTaken k n b).outs = b.outs :=
  ⟨rfl, rfl, rfl⟩

theorem claim_of_full (hen : cpuEn s.unit.base k = true) (hn : claimable s.unit.base k = some n)
    (hfull : 8 ≤ (cpuStack s.unit.base k).length) : claim k s = (claimEmpty true, logU uNestOverflow noPort k 0 0 s) := by
  simp only [claim, hen, Bool.not_true, Bool.false_eq_true, if_false, hn, hfull, if_true]
theorem claim_of_none (h : cpuEn s.unit.base k = false ∨ claimable s.unit.base k = none) : claim k s = (claimEmpty false, s) := by
  rcases h with h | h
  · simp only [claim, h, Bool.not_false, if_true]
  · simp only [claim, h, ite_self]

theorem answer_unit {ch : BitVec 3} {v : Word} : (answer .unit ch v s).dist = s.dist ∧
    (answer .unit ch v s).unit.base = emit (.regData .unit ch v 0) s.unit.base := ⟨rfl, rfl⟩

theorem exec_claimRead {k ch : BitVec 3} (h : live s.unit.base = true) :
    exec (.claimRead k ch) s = .next (answer .unit ch (claim k.toNat s).1 (claim k.toNat s).2) := next_of_unitLive h rfl

/-- Making the sources of some entries inactive leaves a register file, and a source inactive that was so or is among them. -/
theorem inactive_fold {l : List Nest} {b : Base} :
    (l.foldl (fun b t => srcSet t.src { srcGet b t.src with active := none } b) b).regs = b.regs ∧
    ∀ m, (srcGet b m).active = none ∨ (∃ e ∈ l, e.src = m) →
      (srcGet (l.foldl (fun b t => srcSet t.src { srcGet b t.src with active := none } b) b) m).active = none := by
  induction l generalizing b with
  | nil => exact ⟨rfl, fun m hm => hm.elim id fun ⟨e, he, _⟩ => absurd he List.not_mem_nil⟩
  | cons t l ih =>
    obtain ⟨hregs, hact⟩ := @ih (srcSet t.src { srcGet b t.src with active := none } b)
    refine ⟨hregs, fun m hm => hact m ?_⟩
    by_cases hmt : m = t.src
    · subst hmt
      exact .inl (by rw [srcGet_srcSet_same])
    · rw [srcGet_srcSet_other hmt]
      refine hm.imp_right fun ⟨e, he, hem⟩ => ⟨e, (List.mem_cons.mp he).resolve_left fun h => hmt (by rw [← hem, h]), hem⟩

end

/-- Settles O32: the claim and the flush act on the unit's base alone. -/
theorem claimsAreTaken : Obligations.ClaimsAreTaken := by
  unfold Obligations.ClaimsAreTaken
  intro s k ch hl
  have hk : BitVec.ofNat 3 k.toNat = k := by simp
  have hrot : BitVec.ofNat 3 (k.toNat + 1) = k + 1 := by simp [BitVec.ofNat_add]
  refine ⟨fun n hen hn hfree hpulse => ?_, fun n hen hn hfree hlvl => ?_, fun n hen hn hfull => ?_, fun hno => ?_, ?_,
    next_of_unitLive hl rfl⟩
  · obtain ⟨hr, hregs, houts⟩ := @claimTaken_rest k.toNat n s.unit.base
    refine ⟨_, exec_claimRead hl, ?_⟩
    simp only [claim_of_source hen hn hfree, hpulse, Bool.false_eq_true, if_false, answer_unit, onUnit_unit, onUnit_dist, uB_base,
      cpuStack_emit, srcGet_emit, emit_outs, emit_evc, emit_regs, cpuStack_claimTaken, srcGet_claimTaken, hr, hregs, houts, claimedSrc, hk,
      hrot, and_self]
  · obtain ⟨hr, hregs, houts⟩ := @claimTaken_rest k.toNat n s.unit.base
    refine ⟨_, exec_claimRead hl, ?_⟩
    simp only [claim_of_source hen hn hfree, hlvl, if_true, answer_unit, onUnit_unit, onUnit_dist, uB_base,
      cpuStack_emit, srcGet_emit, emit_outs, emit_evc, emit_regs, cpuStack_claimTaken, srcGet_claimTaken, hr, hregs, houts, claimedSrc, hk,
      hrot, and_self]
  · rw [exec_claimRead hl, claim_of_full hen hn hfull]
  · rw [exec_claimRead hl, claim_of_none hno]
  · obtain ⟨hregs, hact⟩ := @inactive_fold (cpuStack s.unit.base k.toNat) s.unit.base
    exact ⟨onUnit (uB (cpuFlushOp k.toNat)) s, next_of_unitLive hl rfl, cpuStack_setStack_same, hregs,
      fun e he => hact e.src (.inr ⟨e, he, rfl⟩)⟩

/-! ## Lantern and MSI-X (R440, R441, R443, R449, R622) -/

/-- The base that holds new PSLEEP levels. -/
def holdSleep (psleep : BitVec 8) (b : Base) : Base := { b with evc := { b.evc with psleep := psleep } }

section
variable {s : State} {b : Base} {psleep : BitVec 8}

theorem onUnit_uB_comp {f g : Base → Base} : onUnit (uB g) (onUnit (uB f) s) = onUnit (uB fun b => g (f b)) s := rfl

theorem rdB_holdSleep {a i : Nat} : rdB (holdSleep psleep b) a i = rdB b a i := rfl
theorem cpuEn_holdSleep {k : Nat} : cpuEn (holdSleep psleep b) k = cpuEn b k := rfl
theorem allAsleep_holdSleep {p : BitVec 8} : allAsleep (holdSleep psleep b) p = allAsleep b p := rfl
theorem lantern_holdSleep : (holdSleep psleep b).evc.lantern = b.evc.lantern := rfl

theorem lanternEnterOp_of_asleep (hen : rdB s.unit.base 0x11040 0 = true) (hall : allAsleep s.unit.base psleep = true)
    (hout : s.unit.base.evc.lantern = false) : lanternEnterOp psleep s = lanternWake (onUnit (uB fun b =>
      driveEvreq (pgEvt 0x11 0 (inc 0x1104C { b with evc := { b.evc with psleep := psleep, lantern := true } }))) s) := by
  have hcond : (rdB (holdSleep psleep s.unit.base) 0x11040 0 && allAsleep (holdSleep psleep s.unit.base) psleep &&
      !(holdSleep psleep s.unit.base).evc.lantern) = true := by
    rw [rdB_holdSleep, allAsleep_holdSleep, lantern_holdSleep, hen, hall, hout]
    rfl
  exact (if_pos hcond).trans (congrArg lanternWake onUnit_uB_comp)
theorem lanternEnterOp_of_not (h : rdB s.unit.base 0x11040 0 = false ∨ allAsleep (holdSleep psleep s.unit.base) psleep = false ∨
    s.unit.base.evc.lantern = true) : lanternEnterOp psleep s = onUnit (uB (holdSleep psleep)) s := by
  have hcond : ¬ (rdB (holdSleep psleep s.unit.base) 0x11040 0 && allAsleep (holdSleep psleep s.unit.base) psleep &&
      !(holdSleep psleep s.unit.base).evc.lantern) = true := by
    rw [rdB_holdSleep, lantern_holdSleep]
    rcases h with h | h | h
    · simp only [h, Bool.false_and, Bool.false_eq_true, not_false_eq_true]
    · simp only [h, Bool.and_false, Bool.false_and, Bool.false_eq_true, not_false_eq_true]
    · simp only [h, Bool.not_true, Bool.and_false, Bool.false_eq_true, not_false_eq_true]
  exact if_neg hcond

theorem lanternExitOp_of_awake (h : (List.range 8).any (fun k => cpuEn b k && !psleep.getLsbD k) = true) :
    lanternExitOp psleep b = lanternLeave (holdSleep psleep b) := by
  have hcond : ((List.range 8).any (fun k => cpuEn (holdSleep psleep b) k && !psleep.getLsbD k) ||
      !rdB (holdSleep psleep b) 0x11040 0) = true := by
    simp only [cpuEn_holdSleep, h, Bool.true_or]
  exact if_pos hcond
theorem lanternExitOp_of_asleep (hen : rdB b 0x11040 0 = true)
    (h : (List.range 8).any (fun k => cpuEn b k && !psleep.getLsbD k) = false) :
    lanternExitOp psleep b = holdSleep psleep b := by
  have hcond : ¬ ((List.range 8).any (fun k => cpuEn (holdSleep psleep b) k && !psleep.getLsbD k) ||
      !rdB (holdSleep psleep b) 0x11040 0) = true := by
    simp only [cpuEn_holdSleep, h, rdB_holdSleep, hen, Bool.not_true, Bool.or_self, Bool.false_eq_true, not_false_eq_true]
  exact if_neg hcond

theorem driveEvreq_lantern : (driveEvreq b).evc.lantern = b.evc.lantern := by
  unfold driveEvreq
  extract_lets
  split <;> rfl
theorem lanternLeave_lantern : (lanternLeave b).evc.lantern = false := by
  unfold lanternLeave
  split
  · exact driveEvreq_lantern
  · exact Bool.eq_false_iff.mpr ‹_›

/-- The base that holds new MSI-X Enable and Function Mask bits. -/
def holdMsix (en mask : Bool) (b : Base) : Base := { b with evc := { b.evc with msixEn := en, fmask := mask } }

/-- What a configuration request does to the distributor's base. -/
theorem exec_configurationRequest {en mask : Bool} (h : live s.dist.base = true) : exec (.configurationRequest en mask) s =
    .next (onDist (dB fun b => if en && !b.evc.msixEn then vecSendAll (vecPending (holdMsix en mask b)) (holdMsix en mask b)
      else if !mask && b.evc.fmask then pbaSettle (holdMsix en mask b) else holdMsix en mask b) s) := next_of_distLive h rfl

end

/-- Settles O34: the tests of Lantern read nothing that PSLEEP changes, and MSI-X has three cases. -/
theorem lanternAndMsix : Obligations.LanternAndMsix := by
  unfold Obligations.LanternAndMsix
  refine fun s psleep => ⟨fun hl hen hall hout => next_of_unitLive hl (lanternEnterOp_of_asleep hen hall hout), fun hl _ hawake =>
      ⟨next_of_unitLive hl (onUnit_uB_congr (lanternExitOp_of_awake hawake)), onUnit (uB (lanternExitOp psleep)) s, next_of_unitLive hl rfl, ?_⟩,
    fun hl => ⟨fun hno => next_of_unitLive hl (lanternEnterOp_of_not hno), fun hen hall =>
      next_of_unitLive hl (onUnit_uB_congr (lanternExitOp_of_asleep hen hall))⟩,
    fun en mask hl => ⟨fun hen hmask => ?_, fun hen hoff => ?_, fun hen hmask hf => ?_⟩⟩
  · show (lanternExitOp psleep s.unit.base).evc.lantern = false
    rw [lanternExitOp_of_awake hawake]
    exact lanternLeave_lantern
  · refine (exec_configurationRequest hl).trans (congrArg Host.Outcome.next (onDist_dB_congr ?_))
    have h1 : (en && !s.dist.base.evc.msixEn) = false := by cases en <;> simp_all
    have h2 : (!mask && s.dist.base.evc.fmask) = false := by cases mask <;> simp_all
    simp only [h1, h2, Bool.false_eq_true, if_false]
    rfl
  · refine (exec_configurationRequest hl).trans (congrArg Host.Outcome.next (onDist_dB_congr ?_))
    simp only [hen, hoff, Bool.not_false, Bool.and_self, if_true]
    rfl
  · refine (exec_configurationRequest hl).trans (congrArg Host.Outcome.next (onDist_dB_congr ?_))
    have h1 : (en && !s.dist.base.evc.msixEn) = false := by cases en <;> simp_all
    simp only [h1, hmask, hf, Bool.not_false, Bool.and_self, Bool.false_eq_true, if_false, if_true]
    rfl

/-! ## Presence windows (R505 to R515) -/

section
variable {s t : State} {b : Base}

/-- An occurrence changes only the event controller's state. -/
theorem occur_evc (n : Nat) (b : Base) : ∃ e : Evc, occur n b = { b with evc := e } := by
  unfold occur
  extract_lets g hold
  split
  · exact ⟨_, rfl⟩
  · split <;> exact ⟨_, rfl⟩

theorem sendSeq_dist_base {n delay cls : Nat} {typ : BitVec 6} {hdr : BitVec 64} {pl : List (BitVec 64)} :
    (sendSeq (distRef n) delay cls typ hdr pl s).dist.base = s.dist.base := by
  unfold distRef
  split <;> rfl
theorem sendDown_base {delay cls : Nat} {typ : BitVec 6} {hdr : BitVec 64} {pl : List (BitVec 64)} :
    (sendDown delay cls typ hdr pl s).dist.base = s.dist.base :=
  List.foldlRecOn (motive := fun x : State => x.dist.base = s.dist.base) _ _ rfl fun _ hx _ _ => sendSeq_dist_base.trans hx
theorem logD_window {h : Hap} {port obj uid aux : Nat} : (logD h port obj uid aux s).dist.base.window = s.dist.base.window :=
  (congrArg Base.window (logD_core h port obj uid aux s) :)

theorem rd64_logD {h : Hap} {port obj uid aux a : Nat} (hp : a / 0x1000 < 0x10 ∧ (a + 4) / 0x1000 < 0x10) (h18 : a ≠ pageAddr h.page 0x018)
    (h18' : a + 4 ≠ pageAddr h.page 0x018) : rd64 (logD h port obj uid aux s).dist.base a = rd64 s.dist.base a := by
  have hpage : ∀ a', a' / 0x1000 < 0x10 → a' / 0x1000 ≠ fltPage s.dist.base := fun a' ha => by
    rcases fltPage_cases (b := s.dist.base) with e | e <;> omega
  rw [rd64, rd_logD _ _ _ _ _ _ (hpage _ hp.1) h18, rd_logD _ _ _ _ _ _ (hpage _ hp.2) h18', rd64]

theorem windowOpen_of_none (h : b.window = none) : windowOpen b = false := by simp only [windowOpen, h]
theorem distOpen_window {e : BitVec 64} {w : Nat} {r : Bool} : (distOpen e w r b).window = some e := rfl
theorem distClose_window : (distClose s).dist.base.window = none := logD_window
theorem unitCloseWindow_window : (unitCloseWindow b).window = none := by
  unfold unitCloseWindow
  split <;> rfl

/-- The machine on which a press has been counted. -/
def pressed (s : State) : State := onDist (dB fun b => occur 164 (inc 0x0D054 b)) s

theorem rd_evc {a : Nat} {e : Evc} : rd { b with evc := e } a = rd b a := rfl
theorem pressed_base : ∃ e : Evc, (pressed s).dist.base = { inc 0x0D054 s.dist.base with evc := e } := occur_evc 164 _
theorem pressed_ports : (pressed s).dist.ports = s.dist.ports := rfl
theorem pressed_core : (pressed s).dist.base.locked = s.dist.base.locked ∧ (pressed s).dist.base.valid = s.dist.base.valid ∧
    (pressed s).dist.base.window = s.dist.base.window ∧ (pressed s).dist.base.ns = s.dist.base.ns ∧
    isRoot (pressed s).dist = isRoot s.dist ∧ rdF (pressed s).dist.base 0x0D040 0 12 = rdF s.dist.base 0x0D040 0 12 := by
  obtain ⟨e, he⟩ := @pressed_base s
  refine ⟨?_, ?_, ?_, ?_, ?_, ?_⟩
  · rw [he]
    rfl
  · rw [he]
    rfl
  · rw [he]
    rfl
  · rw [he]
    rfl
  · simp only [isRoot, he]
    rfl
  · rw [he, rdF, rd_evc, rd_inc_other (by decide), rdF]

/-- The end of the window that a press opens. -/
def pressEnd (d : DistState) : BitVec 64 := d.base.ns + BitVec.ofNat 64 (rdF d.base 0x0D040 0 12 * 1000000000)
/-- A press opens a window and tells the subtree. -/
def openWindow (s : State) : State :=
  let num := (rdF s.dist.base 0x0D064 0 16 + 1) % 65536
  sendDown cutThrough 7 0x11 (presenceBody ((pressEnd s.dist).setWidth 48) num) []
    (logD dPresenceOpen noPort 0 0 0 (onDist (dB fun b => distOpen (pressEnd s.dist) num false (wrF 0x0D064 0 16 num b)) s))

theorem pressOp_eq : pressOp s = if (pressed s).dist.base.locked then logD dPresenceLocked noPort 0 0 0 (pressed s)
    else if !isRoot (pressed s).dist && !(pressed s).dist.base.valid then logD dPresenceNotReady noPort 0 0 0 (pressed s)
    else openWindow (pressed s) := rfl

theorem pressOp_of_locked (h : s.dist.base.locked = true) : pressOp s = logD dPresenceLocked noPort 0 0 0 (pressed s) := by
  rw [pressOp_eq, if_pos (pressed_core.1.trans h)]
theorem pressOp_of_not_ready (h : s.dist.base.locked = false) (hv : s.dist.base.valid = false) (hr : isRoot s.dist = false) :
    pressOp s = logD dPresenceNotReady noPort 0 0 0 (pressed s) := by
  obtain ⟨hl, hvalid, -, -, hroot, -⟩ := @pressed_core s
  simp only [pressOp_eq, hl, hvalid, hroot, h, hv, hr, Bool.not_false, Bool.and_self, Bool.false_eq_true, if_false, if_true]
theorem pressOp_of_ready (h : s.dist.base.locked = false) (hready : s.dist.base.valid = true ∨ isRoot s.dist = true) :
    pressOp s = openWindow (pressed s) := by
  obtain ⟨hl, hvalid, -, -, hroot, -⟩ := @pressed_core s
  have hcond : (!isRoot s.dist && !s.dist.base.valid) = false := by rcases hready with e | e <;> simp [e]
  simp only [pressOp_eq, hl, hvalid, hroot, h, hcond, Bool.false_eq_true, if_false]
theorem openWindow_window : (openWindow s).dist.base.window = some (pressEnd s.dist) :=
  (congrArg Base.window sendDown_base).trans (logD_window.trans distOpen_window)
theorem pressEnd_pressed : pressEnd (pressed s).dist = pressEnd s.dist := by
  obtain ⟨-, -, -, hns, -, hlen⟩ := @pressed_core s
  rw [pressEnd, hns, hlen, pressEnd]

theorem closeOp_of_closed (h : windowOpen s.dist.base = false) : closeOp s = s := if_neg (Bool.eq_false_iff.mp h)
theorem closeOp_window (h : windowOpen s.dist.base = true) : (closeOp s).dist.base.window = none := by
  rw [closeOp, if_pos h]
  exact (congrArg Base.window sendDown_base).trans distClose_window
theorem windowOpen_closeOp : windowOpen (closeOp s).dist.base = false := by
  cases h : windowOpen s.dist.base
  · rw [closeOp_of_closed h, h]
  · exact windowOpen_of_none (closeOp_window h)

theorem expireOp_of_due {part : Part} {e : BitVec 64} (hw : (partBase s part).window = some e)
    (hdue : e.toNat ≤ (partBase s part).ns.toNat) : (partBase (expireOp part s) part).window = none := by
  cases part with
  | unit =>
    have hop : expireOp .unit s = onUnit (uB fun b => pgEvt 0x14 1 { b with window := none }) s := by
      simp only [expireOp, hw, hdue, if_true]
    rw [hop]
    rfl
  | dist =>
    have hop : expireOp .dist s = distClose s := by simp only [expireOp, hw, hdue, if_true]
    rw [hop]
    exact distClose_window
theorem expireOp_of_not_due {part : Part} {e : BitVec 64} (hw : (partBase s part).window = some e)
    (hlater : (partBase s part).ns.toNat < e.toNat) : expireOp part s = s := by
  simp only [expireOp, hw, Nat.not_le.mpr hlater, if_false]
theorem expireOp_of_none {part : Part} (hw : (partBase s part).window = none) : expireOp part s = s := by
  simp only [expireOp, hw]

theorem lockOp_locked {part : Part} : (partBase (lockOp part true s) part).locked = true ∧
    windowOpen (partBase (lockOp part true s) part) = false := by
  cases part with
  | unit => exact ⟨rfl, windowOpen_of_none unitCloseWindow_window⟩
  | dist => exact ⟨rfl, windowOpen_closeOp⟩

theorem rd64_wr64 {a : Nat} {v : BitVec 64} : rd64 (wr64 a v b) a = v := by
  rw [rd64, wr64, rd_wr_same, rd_wr_other (by omega), rd_wr_same]
  ext i hi
  simp only [hi32, lo32, BitVec.getElem_append, BitVec.getElem_extractLsb', Nat.zero_add]
  split
  · exact BitVec.getLsbD_eq_getElem hi
  · rw [Nat.add_sub_cancel' (by omega)]
    exact BitVec.getLsbD_eq_getElem hi

/-- The base that records a broken seal. -/
def sealBase (b : Base) : Base := pgEvt 0x0D 2 (wr64 0x0D05C (nsNow b) (wrB 0x0D048 2 true (wrB 0x0D048 3 true b)))

theorem sealOp_of_whole (h : rdB s.dist.base 0x0D048 3 = false) :
    sealOp s = logD dSealBroken noPort 0 0 0 (onDist (dB sealBase) s) := if_neg (Bool.eq_false_iff.mp h)
theorem sealOp_of_broken (h : rdB s.dist.base 0x0D048 3 = true) : sealOp s = s := if_pos h
theorem rdB_wr64_other {a a' i : Nat} {v : BitVec 64} (h : a' ≠ a) (h4 : a' ≠ a + 4) : rdB (wr64 a v b) a' i = rdB b a' i := by
  rw [rdB, rdF, wr64, rd_wr_other h4, rd_wr_other h, rdB, rdF]
theorem rdB_sealBase : rdB (sealBase b) 0x0D048 2 = true ∧ rdB (sealBase b) 0x0D048 3 = true := by
  simp only [sealBase, pgEvt]
  rw [rdB_wrB_other (by decide), rdB_wrB_other (by decide), rdB_wr64_other (by decide) (by decide),
    rdB_wr64_other (by decide) (by decide), rdB_wrB_same (by decide), rdB_wrB_bit (by decide) (by decide),
    rdB_wrB_same (by decide)]
  exact ⟨rfl, rfl⟩
theorem rd64_sealBase : rd64 (sealBase b) 0x0D05C = nsNow b := by
  rw [rd64, sealBase, rd_pgEvt_other (by decide), rd_pgEvt_other (by decide)]
  exact rd64_wr64

end

/-- Settles O35: a press, a close and the seal at the distributor; frames, expiry and the jumper at either part. -/
theorem presenceWindows : Obligations.PresenceWindows := by
  unfold Obligations.PresenceWindows
  refine ⟨fun s => ⟨fun h hl hready => ?_, fun h hl => ?_, fun h hl hv hr => ?_, fun h ho => ?_, fun h hc =>
    next_of_distLive h (closeOp_of_closed hc), fun h hw => ?_, fun h hb => next_of_distLive h (sealOp_of_broken hb)⟩,
    fun s expiry window => ⟨fun d lane seq h => ?_, fun n lane seq hup h => ?_, fun part e h hw => ⟨fun hdue => ?_, fun hlater =>
      next_of_partLive h (expireOp_of_not_due hw hlater)⟩, fun part h hw => next_of_partLive h (expireOp_of_none hw), fun part h =>
      ⟨⟨lockOp part true s, next_of_partLive h rfl, lockOp_locked⟩, next_of_partLive h ?_⟩⟩⟩
  · have hstep : exec .presencePress s = .next (pressOp s) := congrArg Host.Outcome.next (ifDistRuns_of_run h)
    refine ⟨_, hstep, exec_otherSame hstep, ?_, ((pressOp_keeps (κ := true) (StateKeeps.refl s)).dist.clock rfl).ns⟩
    rw [pressOp_of_ready hl hready, openWindow_window, pressEnd_pressed, pressEnd]
  · refine ⟨pressOp s, congrArg Host.Outcome.next (ifDistRuns_of_run h), ?_⟩
    rw [pressOp_of_locked hl, logD_window, logD_ports]
    exact ⟨pressed_core.2.2.1, rfl⟩
  · refine ⟨pressOp s, congrArg Host.Outcome.next (ifDistRuns_of_run h), ?_⟩
    rw [pressOp_of_not_ready hl hv hr, logD_window, logD_ports]
    exact ⟨pressed_core.2.2.1, rfl⟩
  · have hstep : exec .presenceClose s = .next (closeOp s) := next_of_distLive h rfl
    exact ⟨_, hstep, exec_otherSame hstep, windowOpen_closeOp, ((closeOp_keeps (κ := true) (StateKeeps.refl s)).dist.clock rfl).ns⟩
  · refine ⟨_, next_of_distLive h (sealOp_of_whole hw), ?_, ?_, ?_⟩
    · exact (rdB_logD (by decide) (by decide)).trans rdB_sealBase.1
    · exact (rdB_logD (by decide) (by decide)).trans rdB_sealBase.2
    · rw [rd64_logD (by decide) (by decide) (by decide)]
      exact rd64_sealBase
  · show (if (rxSeq _ _ _ _).1 then _ else _ : Host.Outcome State Fault Refusal) = _
    simp only [permDown, rxSeq_ok h, if_true]
  · show (if (rxSeq _ _ _ _).1 then _ else _ : Host.Outcome State Fault Refusal) = _
    simp only [permDown, hup, rxSeq_ok h, if_true]
  · have hstep : exec (.presenceExpiry part) s = .next (expireOp part s) := next_of_partLive h rfl
    refine ⟨_, hstep, expireOp_of_due hw hdue, ?_⟩
    have hk := expireOp_keeps (κ := true) (part := part) (StateKeeps.refl s)
    cases part with
    | unit => exact (hk.unit.clock rfl).ns
    | dist => exact (hk.dist.clock rfl).ns
  · cases part <;> rfl

end Sys2Proof.Proofs
end

section
/-! PROOFS. The message port, counting semaphores, waits, comparators and the SEM page (R265 to R314). -/

namespace Sys2Proof.Proofs

open Sys2Proof Sys2Proof.Machine

/-! ## Requests (R268 to R270) -/

section
variable {r : Req} {op obj : Nat} {s : State} {f : State → State}

theorem request_of_accepts (h : accepts r op s) : request r op obj f s = f s := by
  obtain ⟨hready, hlane, hstale, hop⟩ := h
  simp only [request, hready, hstale, hop, Nat.not_le.mpr hlane, Bool.not_true, decide_false, Bool.or_self, Bool.false_eq_true,
    if_false, if_true]
theorem request_of_not_ready (h : msgReady s.unit = false ∨ portLanes s.unit ≤ r.lane.toNat) : request r op obj f s = s := by
  rcases h with h | h
  · simp only [request, h, Bool.not_false, Bool.true_or, if_true]
  · simp only [request, h, decide_true, Bool.or_true, if_true]
theorem request_of_stale (hready : msgReady s.unit = true) (hlane : r.lane.toNat < portLanes s.unit)
    (h : reqStale s.unit r = true) : request r op obj f s = dropStale r s := by
  simp only [request, hready, h, Nat.not_le.mpr hlane, Bool.not_true, decide_false, Bool.or_self, Bool.false_eq_true, if_false,
    if_true]
theorem request_of_bad_op (hready : msgReady s.unit = true) (hlane : r.lane.toNat < portLanes s.unit)
    (h : reqStale s.unit r = false) (hop : opPermitted (cfgOf s.unit.base).w64 op = false) :
    request r op obj f s = onUnit (fun u => respError r stBadOp obj op 0 (uB (inc 0x0B050) u)) s := by
  simp only [request, hready, h, hop, Nat.not_le.mpr hlane, Bool.not_true, decide_false, Bool.or_self, Bool.false_eq_true, if_false]

/-- An accepted request does what its operation does. -/
theorem next_of_accepts (h : accepts r op s) :
    (.next (request r op obj f s) : Host.Outcome State Fault Refusal) = .next (f s) :=
  congrArg Host.Outcome.next (request_of_accepts h)

theorem onLiveSem_of_live {n : Nat} (h : semRetired s.unit n = false) : onLiveSem r op n f s = f s := if_neg (Bool.eq_false_iff.mp h)
theorem onLiveSem_of_retired {n : Nat} (h : semRetired s.unit n = true) :
    onLiveSem r op n f s = onUnit (respError r stObjFailed n op 0) s := if_pos h

end

/-! ## What answers, notes and injections leave (R273, R285, R594) -/

/-- A unit whose semaphores' words, waits and comparators are those of another. -/
structure SameWatches (u v : UnitState) : Prop where
  vals : v.sems.vals = u.sems.vals
  waits : v.sems.waits = u.sems.waits
  cmps : v.sems.cmps = u.sems.cmps
  retired : v.sems.retired = u.sems.retired
  clearing : v.sems.clearing = u.sems.clearing
  lost : v.sems.lostEntries = u.sems.lostEntries

section
variable {u v w : UnitState} {n : Nat}

theorem SameWatches.refl (u : UnitState) : SameWatches u u := ⟨rfl, rfl, rfl, rfl, rfl, rfl⟩
theorem SameWatches.trans (h : SameWatches u v) (k : SameWatches v w) : SameWatches u w :=
  ⟨k.vals.trans h.vals, k.waits.trans h.waits, k.cmps.trans h.cmps, k.retired.trans h.retired, k.clearing.trans h.clearing,
    k.lost.trans h.lost⟩
theorem SameWatches.ite {c : Prop} [Decidable c] (h : SameWatches u v) (k : SameWatches u w) : SameWatches u (if c then v else w) := by
  split
  · exact h
  · exact k
theorem SameWatches.semGet (h : SameWatches u v) (n : Nat) : semGet v n = semGet u n := by
  simp only [Machine.semGet, h.vals]
theorem SameWatches.cmpGet (h : SameWatches u v) (n : Nat) : cmpGet v n = cmpGet u n := by
  simp only [Machine.cmpGet, h.cmps]
theorem SameWatches.takesOf (h : SameWatches u v) (n : Nat) : takesOf v n = takesOf u n := by simp only [Machine.takesOf, h.waits]
theorem SameWatches.peeksOf (h : SameWatches u v) (n : Nat) : peeksOf v n = peeksOf u n := by simp only [Machine.peeksOf, h.waits]

theorem pushResp_watches {kind dest tag status ops : Nat} : SameWatches u (pushResp kind dest tag status ops u) :=
  .ite ⟨rfl, rfl, rfl, rfl, rfl, rfl⟩ (.ite ⟨rfl, rfl, rfl, rfl, rfl, rfl⟩ ⟨rfl, rfl, rfl, rfl, rfl, rfl⟩)
theorem respAck_watches {r : Req} {obj op value : Nat} : SameWatches u (respAck r obj op value u) := .ite pushResp_watches (.refl u)
theorem injTouch_watches {mem key : Nat} : SameWatches u (injTouch mem key u) := .ite (.ite ⟨rfl, rfl, rfl, rfl, rfl, rfl⟩ ⟨rfl, rfl, rfl, rfl, rfl, rfl⟩) (.refl u)
theorem injWrite_watches {mem key : Nat} : SameWatches u (injWrite mem key u) := by
  refine (injTouch_watches (mem := mem) (key := key)).trans ?_
  unfold injWrite
  extract_lets u'
  split
  · exact .ite ⟨rfl, rfl, rfl, rfl, rfl, rfl⟩ (.refl _)
  · exact .refl _
theorem watchNote_watches {full : Bool} : SameWatches u (watchNote full u) := by
  unfold watchNote
  extract_lets u'
  have h : SameWatches u u' := .ite ⟨rfl, rfl, rfl, rfl, rfl, rfl⟩ (.refl u)
  exact h.trans (.ite (.ite (.refl _) ⟨rfl, rfl, rfl, rfl, rfl, rfl⟩) ⟨rfl, rfl, rfl, rfl, rfl, rfl⟩)
theorem touchWaits_watches : SameWatches u (touchWaits n u) := .ite injTouch_watches (.refl u)

theorem injTouch_of_clean {mem key : Nat} (h : u.dbg.flips.contains (mem, key) = false) : injTouch mem key u = u :=
  if_neg (Bool.eq_false_iff.mp h)

/-! ## A semaphore's word (R277) -/

variable {x : SemWord}

@[simp] theorem semGet_semPut_same : semGet (semPut n x u) n = x :=
  (injWrite_watches.semGet n).trans (tabGet_tabSet_same _ _ _ _)
theorem semGet_semPut_other {m : Nat} (h : m ≠ n) : semGet (semPut n x u) m = semGet u m :=
  (injWrite_watches.semGet m).trans (tabGet_tabSet_other _ _ _ _ _ _ h)
@[simp] theorem waits_semPut : (semPut n x u).sems.waits = u.sems.waits := injWrite_watches.waits

variable {s : State}

theorem sumpAdd_watches {src : Nat} {remote lo : Bool} {excess : Nat} : SameWatches s.unit (sumpAdd n src remote lo excess s).unit := by
  unfold sumpAdd
  extract_lets u r empty s' 
  split
  · exact ⟨rfl, rfl, rfl, rfl, rfl, rfl⟩
  · split
    · have h : ((logU uSemSat noPort n 0 0 (onUnit (uB fun b => occur 72 (pgEvt 0x0A 0 b)) s')).unit.sems = s'.unit.sems) := logU_sems ..
      exact SameWatches.trans (v := s'.unit) ⟨rfl, rfl, rfl, rfl, rfl, rfl⟩ ⟨congrArg Sems.vals h, congrArg Sems.waits h,
        congrArg Sems.cmps h, congrArg Sems.retired h, congrArg Sems.clearing h, congrArg Sems.lostEntries h⟩
    · exact ⟨rfl, rfl, rfl, rfl, rfl, rfl⟩

/-- A change of one semaphore's word: its new word, and every other word and the waits as they were. -/
structure SemChanged (n : Nat) (x : SemWord) (u v : UnitState) : Prop where
  same : semGet v n = x
  other : ∀ m, m ≠ n → semGet v m = semGet u m
  waits : v.sems.waits = u.sems.waits
  retired : v.sems.retired = u.sems.retired
  clearing : v.sems.clearing = u.sems.clearing

theorem SemChanged.trans {v w : UnitState} (h : SemChanged n x u v) (k : SameWatches v w) : SemChanged n x u w :=
  ⟨(k.semGet n).trans h.same, fun m hm => (k.semGet m).trans (h.other m hm), k.waits.trans h.waits,
    k.retired.trans h.retired, k.clearing.trans h.clearing⟩
theorem semPut_changed (h : SameWatches u v) : SemChanged n x u (semPut n x v) :=
  ⟨semGet_semPut_same, fun m hm => (semGet_semPut_other hm).trans (h.semGet m), waits_semPut.trans h.waits,
    injWrite_watches.retired.trans h.retired, injWrite_watches.clearing.trans h.clearing⟩

/-- The word after an ADD and after a SUB, but for its last signaller. -/
def addedWord (w : SemWord) (a : Nat) (last : Option LastSig) : SemWord :=
  { w with v := BitVec.ofNat 32 (min (w.v.toNat + a) 0xFFFFFFFF), satHi := w.satHi || decide (0xFFFFFFFF < w.v.toNat + a), last := last }
def subbedWord (w : SemWord) (a : Nat) (last : Option LastSig) : SemWord :=
  { w with v := BitVec.ofNat 32 (w.v.toNat - a), satLo := w.satLo || decide (w.v.toNat < a), last := last }

theorem addedWord_value {w : SemWord} {a : Nat} {last : Option LastSig} :
    (addedWord w a last).v.toNat = min (w.v.toNat + a) 0xFFFFFFFF := by
  show (BitVec.ofNat 32 _).toNat = _
  rw [BitVec.toNat_ofNat, Nat.mod_eq_of_lt (by omega)]
theorem subbedWord_value {w : SemWord} {a : Nat} {last : Option LastSig} :
    (subbedWord w a last).v.toNat = w.v.toNat - a := by
  show (BitVec.ofNat 32 _).toNat = _
  rw [BitVec.toNat_ofNat, Nat.mod_eq_of_lt (by omega)]

theorem semAddVal_changed {a src : Nat} {remote mgmt : Bool} : ∃ last,
    SemChanged n (addedWord (semGet s.unit n) a last) s.unit (semAddVal n a src remote mgmt s).unit := by
  have hw : semGet (injTouch 0 n s.unit) n = semGet s.unit n := injTouch_watches.semGet n
  refine ⟨signed (injTouch 0 n s.unit) (semGet s.unit n) (min ((semGet s.unit n).v.toNat + a) 0xFFFFFFFF) src remote mgmt, ?_⟩
  simp only [semAddVal, hw]
  have h := semPut_changed (n := n) (injTouch_watches (u := s.unit) (mem := 0) (key := n)) (x := addedWord (semGet s.unit n) a
    (signed (injTouch 0 n s.unit) (semGet s.unit n) (min ((semGet s.unit n).v.toNat + a) 0xFFFFFFFF) src remote mgmt))
  split
  · exact h.trans (sumpAdd_watches (s := { s with unit := semPut n _ _ }))
  · exact h
theorem semSubVal_changed {a src : Nat} {remote mgmt : Bool} : ∃ last,
    SemChanged n (subbedWord (semGet s.unit n) a last) s.unit (semSubVal n a src remote mgmt s).unit := by
  have hw : semGet (injTouch 0 n s.unit) n = semGet s.unit n := injTouch_watches.semGet n
  refine ⟨signed (injTouch 0 n s.unit) (semGet s.unit n) ((semGet s.unit n).v.toNat - a) src remote mgmt, ?_⟩
  simp only [semSubVal, hw]
  have h := semPut_changed (n := n) (injTouch_watches (u := s.unit) (mem := 0) (key := n)) (x := subbedWord (semGet s.unit n) a
    (signed (injTouch 0 n s.unit) (semGet s.unit n) ((semGet s.unit n).v.toNat - a) src remote mgmt))
  split
  · exact h.trans (sumpAdd_watches (s := { s with unit := semPut n _ _ }))
  · exact h

/-! ## The walk where no one waits (R282) -/

theorem takesOf_of_none (h : ∀ w ∈ u.sems.waits, w.sem ≠ n) : takesOf u n = [] :=
  List.filter_eq_nil_iff.mpr fun w hw => by simp [h w hw]
theorem peeksOf_of_none (h : ∀ w ∈ u.sems.waits, w.sem ≠ n) : peeksOf u n = [] :=
  List.filter_eq_nil_iff.mpr fun w hw => by simp [h w hw]
theorem touchWaits_of_none (h : ∀ w ∈ u.sems.waits, w.sem ≠ n) : touchWaits n u = u :=
  if_neg (by simpa using h)
theorem walkTake_of_none (h : ∀ w ∈ u.sems.waits, w.sem ≠ n) : walkTake n u = u := by
  simp only [walkTake, touchWaits_of_none h, takesOf_of_none h, walkTakes, List.isEmpty_nil, if_true]
theorem dropWaits_all {keep : Wait → Bool} (h : ∀ w ∈ u.sems.waits, keep w = true) : SameWatches u (dropWaits keep u) :=
  SameWatches.trans (v := onSems (fun q => { q with waits := q.waits.filter keep }) u)
    ⟨rfl, List.filter_eq_self.mpr h, rfl, rfl, rfl, rfl⟩ watchNote_watches
theorem walk_of_none (h : ∀ w ∈ u.sems.waits, w.sem ≠ n) : SameWatches u (walk n u) := by
  have hdrop : SameWatches u (dropWaits (fun w => !([] : List Wait).contains w) u) := dropWaits_all fun w _ => rfl
  simp only [walk, touchWaits_of_none h, peeksOf_of_none h, List.filter_nil, List.foldl_nil]
  rw [walkTake_of_none (by rw [hdrop.waits]; exact h)]
  exact hdrop

end

theorem exec_semAdd {r : Req} {sem : BitVec 16} {a : BitVec 32} {s : State} (hlive : semRetired s.unit sem.toNat = false)
    (h : accepts r 0x01 s) : exec (.semAdd r sem a) s = .next (onUnit (walk sem.toNat) (onUnit (fun u =>
      respAck r sem.toNat 0x01 (semGet u sem.toNat).v.toNat u) (semAddVal sem.toNat a.toNat r.reply.toNat false false s))) :=
  (next_of_accepts h).trans (congrArg Host.Outcome.next (onLiveSem_of_live hlive))
theorem exec_semSub {r : Req} {sem : BitVec 16} {a : BitVec 32} {s : State} (hlive : semRetired s.unit sem.toNat = false)
    (h : accepts r 0x02 s) : exec (.semSub r sem a) s = .next (onUnit (fun u =>
      respAck r sem.toNat 0x02 (semGet u sem.toNat).v.toNat u) (semSubVal sem.toNat a.toNat r.reply.toNat false false s)) :=
  (next_of_accepts h).trans (congrArg Host.Outcome.next (onLiveSem_of_live hlive))

/-- Settles O36: the word of an ADD and of a SUB, and a walk that finds no one. -/
theorem semaphoresSaturate : Obligations.SemaphoresSaturate := by
  unfold Obligations.SemaphoresSaturate
  intro r sem a s
  obtain ⟨lastA, hadd⟩ := semAddVal_changed (s := s) (n := sem.toNat) (a := a.toNat) (src := r.reply.toNat) (remote := false) (mgmt := false)
  obtain ⟨lastS, hsub⟩ := semSubVal_changed (s := s) (n := sem.toNat) (a := a.toNat) (src := r.reply.toNat) (remote := false) (mgmt := false)
  refine ⟨fun hlive h => ⟨exec_semAdd hlive h, ?_⟩, fun hlive h hnone => ?_, fun hlive h => ?_,
    fun hret h => (next_of_accepts h).trans (congrArg Host.Outcome.next (onLiveSem_of_retired hret)),
    fun hret h => (next_of_accepts h).trans (congrArg Host.Outcome.next (onLiveSem_of_retired hret))⟩
  · rw [hadd.same, addedWord_value]
  · have hack := hadd.trans (respAck_watches (r := r) (obj := sem.toNat) (op := 0x01)
      (value := (semGet (semAddVal sem.toNat a.toNat r.reply.toNat false false s).unit sem.toNat).v.toNat))
    have hend := hack.trans (walk_of_none (n := sem.toNat) (by rw [hack.waits]; exact hnone))
    exact ⟨_, exec_semAdd hlive h, (congrArg (fun w : SemWord => w.v.toNat) hend.same).trans addedWord_value,
      congrArg SemWord.satHi hend.same, (congrArg SemWord.satLo hend.same :), hend.other, hend.waits, exec_otherSame (exec_semAdd hlive h)⟩
  · have hend := hsub.trans (respAck_watches (r := r) (obj := sem.toNat) (op := 0x02)
      (value := (semGet (semSubVal sem.toNat a.toNat r.reply.toNat false false s).unit sem.toNat).v.toNat))
    exact ⟨_, exec_semSub hlive h, (congrArg (fun w : SemWord => w.v.toNat) hend.same).trans subbedWord_value,
      congrArg SemWord.satLo hend.same, (congrArg SemWord.satHi hend.same :), hend.other, hend.waits, exec_otherSame (exec_semSub hlive h)⟩

/-! ## The walk of a take queue (R281, R282) -/

section
variable {v : Nat} {w : Wait} {l : List Wait}

theorem walkTakes_cons_le (h : w.n ≤ v) :
    walkTakes v (w :: l) = ((w, v - w.n) :: (walkTakes (v - w.n) l).1, (walkTakes (v - w.n) l).2) := if_pos h
theorem walkTakes_cons_lt (h : v < w.n) : walkTakes v (w :: l) = ([], v) := if_neg (Nat.not_le.mpr h)

theorem walkTakes_front : (walkTakes v l).1.map (·.1) = l.take (walkTakes v l).1.length := by
  induction l generalizing v with
  | nil => rfl
  | cons w l ih =>
    rcases Nat.lt_or_ge v w.n with h | h
    · rw [walkTakes_cons_lt h]
      rfl
    · rw [walkTakes_cons_le h, List.map_cons, List.length_cons, List.take_succ_cons, ih]
theorem walkTakes_sum : ((walkTakes v l).1.map fun x => x.1.n).sum + (walkTakes v l).2 = v := by
  induction l generalizing v with
  | nil => exact Nat.zero_add v
  | cons w l ih =>
    rcases Nat.lt_or_ge v w.n with h | h
    · rw [walkTakes_cons_lt h]
      exact Nat.zero_add v
    · have hl := @ih (v - w.n)
      rw [walkTakes_cons_le h, List.map_cons, List.sum_cons]
      simp only
      omega
theorem walkTakes_next (h : l[(walkTakes v l).1.length]? = some w) : (walkTakes v l).2 < w.n := by
  induction l generalizing v with
  | nil => simp [walkTakes] at h
  | cons x l ih =>
    rcases Nat.lt_or_ge v x.n with hx | hx
    · rw [walkTakes_cons_lt hx] at h ⊢
      obtain rfl : x = w := by simpa using h
      exact hx
    · rw [walkTakes_cons_le hx] at h ⊢
      exact ih (by simpa using h)
theorem walkTakes_values : (walkTakes v l).1.map (·.2) =
    (List.range (walkTakes v l).1.length).map fun i => v - ((l.take (i + 1)).map (·.n)).sum := by
  induction l generalizing v with
  | nil => rfl
  | cons w l ih =>
    rcases Nat.lt_or_ge v w.n with h | h
    · rw [walkTakes_cons_lt h]
      rfl
    · rw [walkTakes_cons_le h, List.map_cons, List.length_cons, List.range_succ_eq_map, List.map_cons, List.map_map, ih]
      simp only [List.take_succ_cons, List.map_cons, List.sum_cons, List.take_zero, List.map_nil, List.sum_nil, Nat.add_zero,
        Function.comp_def, Nat.succ_eq_add_one, Nat.sub_sub]

end

/-- Settles O37: by induction on the queue. -/
theorem takesComeInOrder : Obligations.TakesComeInOrder := fun _ _ =>
  ⟨walkTakes_front, walkTakes_sum, fun _ => walkTakes_next, walkTakes_values⟩

/-! ## Waits, cancels and timeouts (R280, R285 to R287, R301) -/

section
variable {s : State} {r : Req} {take : Bool} {n tout cond : Nat}

/-- The wait that a SEM_WAIT registers. -/
def newWait (r : Req) (take : Bool) (n tout cond : Nat) (u : UnitState) : Wait :=
  { sem := n, take := take, n := cond, core := r.reply.toNat, tag := r.tag.toNat, tout := waitTout u tout, since := u.base.tick }

/-- A take that is released at once, and a wait that joins the queue. -/
def serveTake (n cond : Nat) (x : Wait) (u : UnitState) : UnitState :=
  releaseWait x stOk ((semGet u n).v.toNat - cond) (semPut n { semGet u n with v := (semGet u n).v - BitVec.ofNat 32 cond } u)
def queueWait (n : Nat) (x : Wait) (u : UnitState) : UnitState :=
  injWrite 1 n (watchNote false (onSems (fun q => { q with waits := q.waits ++ [x] }) u))

section
variable (hclean : s.unit.dbg.flips.contains (0, n) = false)
include hclean

theorem semWaitOp_eq : semWaitOp r take n tout cond s =
    if !take && decide (cond ≤ (semGet s.unit n).v.toNat) then
      { s with unit := releaseWait (newWait r take n tout cond s.unit) stOk (semGet s.unit n).v.toNat s.unit }
    else if take && decide (cond ≤ (semGet s.unit n).v.toNat) && (takesOf s.unit n).isEmpty then
      { s with unit := serveTake n cond (newWait r take n tout cond s.unit) s.unit }
    else if watchFull s.unit then watchRefused n { s with unit := respError r stNoWatch n 0x04 0 s.unit }
    else { s with unit := queueWait n (newWait r take n tout cond s.unit) s.unit } := by
  simp only [semWaitOp, injTouch_of_clean hclean]
  rfl
theorem semWaitOp_of_peek (h : cond ≤ (semGet s.unit n).v.toNat) : semWaitOp r false n tout cond s =
    { s with unit := releaseWait (newWait r false n tout cond s.unit) stOk (semGet s.unit n).v.toNat s.unit } := by
  simp only [semWaitOp_eq hclean, h, decide_true, Bool.not_false, Bool.and_self, if_true]
theorem semWaitOp_of_take (h : cond ≤ (semGet s.unit n).v.toNat) (hno : takesOf s.unit n = []) :
    semWaitOp r true n tout cond s =
      { s with unit := serveTake n cond (newWait r true n tout cond s.unit) s.unit } := by
  simp only [semWaitOp_eq hclean, h, hno, decide_true, Bool.not_true, Bool.false_and, Bool.and_self, List.isEmpty_nil, Bool.false_eq_true,
    if_false, if_true]
theorem semWaitOp_of_unserved
    (h : (semGet s.unit n).v.toNat < cond ∨ (take = true ∧ takesOf s.unit n ≠ [])) : semWaitOp r take n tout cond s =
      if watchFull s.unit then watchRefused n { s with unit := respError r stNoWatch n 0x04 0 s.unit }
      else { s with unit := queueWait n (newWait r take n tout cond s.unit) s.unit } := by
  rw [semWaitOp_eq hclean]
  rcases h with h | ⟨rfl, h⟩
  · simp only [Nat.not_le.mpr h, decide_false, Bool.and_false, Bool.false_and, Bool.false_eq_true, if_false]
  · simp only [Bool.not_true, Bool.false_and, List.isEmpty_eq_false_iff.mpr h, Bool.and_false, Bool.false_eq_true, if_false]

end

theorem exec_semWait {sem : BitVec 16} {tout cond : BitVec 32} (hlive : semRetired s.unit sem.toNat = false)
    (h : accepts r 0x04 s) :
    exec (.semWait r take sem tout cond) s = .next (semWaitOp r take sem.toNat tout.toNat cond.toNat s) :=
  (next_of_accepts h).trans (congrArg Host.Outcome.next (onLiveSem_of_live hlive))

theorem releaseWait_peek {status v : Nat} {u : UnitState} : releaseWait (newWait r false n tout cond u) status v u =
    pushResp 0x22 r.reply.toNat r.tag.toNat status (releaseOps n 0 0 0 (nsLo u * 2 ^ 32 + v)) u := by
  simp only [releaseWait, newWait, Bool.false_eq_true, if_false]
theorem releaseWait_watches {w : Wait} {status value : Nat} {u : UnitState} : SameWatches u (releaseWait w status value u) :=
  pushResp_watches

theorem queueWait_watches {x : Wait} {u : UnitState} :
    (queueWait n x u).sems.waits = u.sems.waits ++ [x] ∧ ∀ m, semGet (queueWait n x u) m = semGet u m := by
  have h : SameWatches (onSems (fun q => { q with waits := q.waits ++ [x] }) u) (queueWait n x u) :=
    watchNote_watches.trans injWrite_watches
  exact ⟨h.waits, h.semGet⟩
theorem serveTake_watches {x : Wait} {u : UnitState} :
    (semGet (serveTake n cond x u) n).v = (semGet u n).v - BitVec.ofNat 32 cond ∧ (serveTake n cond x u).sems.waits = u.sems.waits := by
  rw [serveTake, releaseWait_watches.semGet, semGet_semPut_same, releaseWait_watches.waits, waits_semPut]
  exact ⟨rfl, rfl⟩

variable {obj core tag : Nat}

theorem cancelOp_of_retired (h : semRetired s.unit obj = true) :
    cancelOp r obj 0 core tag s = onUnit (respError r stObjFailed obj 0x05 0) s := by
  simp only [cancelOp, h, and_self, if_true]
theorem cancelOp_of_wait {w : Wait} {rest : List Wait} (h : semRetired s.unit obj = false)
    (hw : takeFirst (waitIs obj core tag) s.unit.sems.waits = some (w, rest)) :
    cancelOp r obj 0 core tag s = onUnit (fun u => respAck r obj 0x05 0 (endWait w rest stCancelled u)) s := by
  simp only [cancelOp, h, hw, Bool.false_eq_true, and_false, if_false, if_true]
theorem cancelOp_of_no_wait (h : semRetired s.unit obj = false)
    (hw : takeFirst (waitIs obj core tag) s.unit.sems.waits = none) :
    cancelOp r obj 0 core tag s = onUnit (respError r stNotFound obj 0x05 0) s := by
  simp only [cancelOp, h, hw, Bool.false_eq_true, and_false, if_false, if_true]
theorem cancelOp_of_cmp {x : Cmp} (h : cmpGet s.unit obj = some x) (hc : x.core = core) (ht : x.tag = tag) :
    cancelOp r obj 1 core tag s = onUnit (fun u => respAck r obj 0x05 0 (releaseCmp obj x stCancelled 0 u)) s := by
  simp only [cancelOp, h, hc, ht, Nat.one_ne_zero, false_and, and_self, if_false, if_true]
theorem cancelOp_of_no_cmp (h : ∀ x, cmpGet s.unit obj = some x → x.core ≠ core ∨ x.tag ≠ tag) :
    cancelOp r obj 1 core tag s = onUnit (respError r stNotFound obj 0x05 0) s := by
  simp only [cancelOp, Nat.one_ne_zero, false_and, if_false, if_true]
  split
  · rename_i x hx
    exact if_neg fun ⟨hc, ht⟩ => (h x hx).elim (fun e => e hc) fun e => e ht
  · rfl
theorem cancelOp_of_class {cls : Nat} (h : 2 ≤ cls) : cancelOp r obj cls core tag s = onUnit (respError r stNotFound obj 0x05 0) s := by
  simp only [cancelOp, show cls ≠ 0 by omega, show cls ≠ 1 by omega, false_and, if_false]

theorem watchTimeoutOp_of_wait {w : Wait} {rest : List Wait}
    (h : takeFirst (fun w => waitIs obj core tag w && toutDue s.unit w.tout w.since) s.unit.sems.waits = some (w, rest)) :
    watchTimeoutOp 0 obj core tag s = logTimeout obj 0 core (onUnit (endWait w rest stTimeout) s) := by
  simp only [watchTimeoutOp, h, if_true]
theorem watchTimeoutOp_of_no_wait
    (h : takeFirst (fun w => waitIs obj core tag w && toutDue s.unit w.tout w.since) s.unit.sems.waits = none) :
    watchTimeoutOp 0 obj core tag s = s := by
  simp only [watchTimeoutOp, h, if_true]
theorem watchTimeoutOp_of_cmp {x : Cmp} (h : cmpGet s.unit obj = some x) (hd : toutDue s.unit x.tout x.since = true) :
    watchTimeoutOp 1 obj core tag s = logTimeout obj 1 x.core (onUnit (releaseCmp obj x stTimeout 0) s) := by
  simp only [watchTimeoutOp, h, hd, Nat.one_ne_zero, if_false, if_true]
theorem watchTimeoutOp_of_no_cmp (h : ∀ x, cmpGet s.unit obj = some x → toutDue s.unit x.tout x.since = false) :
    watchTimeoutOp 1 obj core tag s = s := by
  simp only [watchTimeoutOp, Nat.one_ne_zero, if_false, if_true]
  split
  · rename_i x hx
    exact if_neg (Bool.eq_false_iff.mp (h x hx))
  · rfl
theorem watchTimeoutOp_of_class {cls : Nat} (h : 2 ≤ cls) : watchTimeoutOp cls obj core tag s = s := by
  simp only [watchTimeoutOp, show cls ≠ 0 by omega, show cls ≠ 1 by omega, if_false]

theorem next_of_unitRuns {f : State → State} {t : State} (h : unitRuns s) (ht : f s = t) :
    (.next (ifUnitRuns f s) : Host.Outcome State Fault Refusal) = .next t :=
  congrArg Host.Outcome.next ((ifUnitRuns_of_run h).trans ht)

end

/-- Settles O38: each wait, cancel and timeout by the branch of its operation. -/
theorem waitsAreQueued : Obligations.WaitsAreQueued := by
  unfold Obligations.WaitsAreQueued
  refine fun r sem tout n s => ⟨fun hlive hclean h => ⟨fun hle => ?_, fun hle hno => ?_, fun take hwait hroom => ?_, fun take hwait hfull => ?_⟩,
    fun take hret h => (next_of_accepts h).trans (congrArg Host.Outcome.next (onLiveSem_of_retired hret)),
    fun core tag h => ⟨fun hret => (next_of_accepts h).trans (congrArg Host.Outcome.next (cancelOp_of_retired hret)),
      fun w rest hlive hw => (next_of_accepts h).trans (congrArg Host.Outcome.next (cancelOp_of_wait hlive hw)),
      fun hlive hw => (next_of_accepts h).trans (congrArg Host.Outcome.next (cancelOp_of_no_wait hlive hw)),
      fun x hx hc ht => (next_of_accepts h).trans (congrArg Host.Outcome.next (cancelOp_of_cmp hx hc ht)),
      fun hno => (next_of_accepts h).trans (congrArg Host.Outcome.next (cancelOp_of_no_cmp hno)),
      fun cls hcls => (next_of_accepts h).trans (congrArg Host.Outcome.next (cancelOp_of_class hcls))⟩,
    fun core tag h => ⟨fun w rest hw => next_of_unitRuns h (watchTimeoutOp_of_wait hw), fun hno => next_of_unitRuns h (watchTimeoutOp_of_no_wait hno),
      fun x hx hd => next_of_unitRuns h (watchTimeoutOp_of_cmp hx hd), fun hno => next_of_unitRuns h (watchTimeoutOp_of_no_cmp hno),
      fun cls hcls => next_of_unitRuns h (watchTimeoutOp_of_class hcls)⟩⟩
  · rw [exec_semWait hlive h, semWaitOp_of_peek hclean hle, releaseWait_peek]
    exact rfl
  · refine ⟨_, (exec_semWait hlive h).trans (congrArg Host.Outcome.next (semWaitOp_of_take hclean hle hno)), ?_, serveTake_watches.2⟩
    rw [serveTake_watches.1, BitVec.ofNat_toNat, BitVec.setWidth_eq]
  · have hstep := (exec_semWait (tout := tout) hlive h).trans (congrArg Host.Outcome.next ((semWaitOp_of_unserved hclean hwait).trans
      (if_neg (Bool.eq_false_iff.mp hroom))))
    exact ⟨_, _, hstep, queueWait_watches.1, rfl, rfl, rfl, rfl, rfl, rfl, queueWait_watches.2 _⟩
  · exact (exec_semWait hlive h).trans (congrArg Host.Outcome.next ((semWaitOp_of_unserved hclean hwait).trans (if_pos hfull)))

theorem onUnit_congr {s : State} {f g : UnitState → UnitState} (h : f s.unit = g s.unit) : onUnit f s = onUnit g s :=
  congrArg (fun u => { s with unit := u }) h
theorem onUnit_of_self {s : State} {f : UnitState → UnitState} (h : f s.unit = s.unit) : onUnit f s = s :=
  congrArg (fun u => { s with unit := u }) h

/-! ## Comparators (R298 to R302) -/

section
variable {u : UnitState} {c d : Nat} {x y : Cmp}

theorem cmpGet_cmpPut_other {z : Option Cmp} (h : d ≠ c) : cmpGet (cmpPut c z u) d = cmpGet u d :=
  (watchNote_watches.cmpGet d).trans (tabGet_tabSet_other _ _ _ _ _ _ h)
theorem cmpGet_releaseCmp_other {status data : Nat} (h : d ≠ c) : cmpGet (releaseCmp c x status data u) d = cmpGet u d :=
  (pushResp_watches.cmpGet d).trans (cmpGet_cmpPut_other h)

/-- What a snooped write does at comparator `c`. -/
def snoopAt (addr : Nat) (be : BitVec 8) (data : BitVec 64) (u : UnitState) (c : Nat) : UnitState :=
  match cmpGet u c with
  | some x =>
    if x.addr = addr then
      if be = 0xFF then (if x.n ≤ data.toNat then releaseCmp c x stOk data.toNat u else u)
      else if be = 0 then u
      else releaseCmp c x stRecheck 0 u
    else u
  | none => u

theorem snoopOp_eq {addr : Nat} {be : BitVec 8} {data : BitVec 64} :
    snoopOp addr be data u = (List.range 32).foldl (snoopAt addr be data) u := by
  unfold snoopOp
  refine congrArg (fun f => List.foldl f u (List.range 32)) ?_
  funext v c
  rfl

section
variable {addr : Nat} {be : BitVec 8} {data : BitVec 64}

theorem snoopAt_of_other (h : ∀ y, cmpGet u d = some y → y.addr ≠ addr) : snoopAt addr be data u d = u := by
  unfold snoopAt
  split
  · rename_i y hy
    exact if_neg (h y hy)
  · rfl
theorem snoopAt_of_watching (h : cmpGet u c = some x) (ha : x.addr = addr) : snoopAt addr be data u c =
    if be = 0xFF then (if x.n ≤ data.toNat then releaseCmp c x stOk data.toNat u else u)
    else if be = 0 then u
    else releaseCmp c x stRecheck 0 u := by
  simp only [snoopAt, h, ha, if_true]
theorem cmpGet_snoopAt_other (h : d ≠ c) : cmpGet (snoopAt addr be data u c) d = cmpGet u d := by
  unfold snoopAt
  split
  · split
    · split
      · split
        · exact cmpGet_releaseCmp_other h
        · rfl
      · split
        · rfl
        · exact cmpGet_releaseCmp_other h
    · rfl
  · rfl

theorem snoopAt_zero : snoopAt addr 0 data u d = u := by
  unfold snoopAt
  split
  · simp only [show (0 : BitVec 8) ≠ 0xFF by decide, if_false, if_true, ite_self]
  · rfl

theorem snoop_list_skip {l : List Nat} (h : ∀ d ∈ l, ∀ y, cmpGet u d = some y → y.addr ≠ addr) :
    l.foldl (snoopAt addr be data) u = u := by
  induction l with
  | nil => rfl
  | cons d l ih =>
    rw [List.foldl_cons, snoopAt_of_other (h d List.mem_cons_self)]
    exact ih fun e he => h e (List.mem_cons_of_mem _ he)

theorem snoop_list_one {l : List Nat} (hc : c ∈ l) (hl : l.Nodup)
    (h : ∀ d y, d ≠ c → cmpGet u d = some y → y.addr ≠ addr) :
    l.foldl (snoopAt addr be data) u = snoopAt addr be data u c := by
  induction l with
  | nil => exact absurd hc List.not_mem_nil
  | cons d l ih =>
    obtain ⟨hd, hl⟩ := List.nodup_cons.mp hl
    rw [List.foldl_cons]
    by_cases hdc : d = c
    · subst hdc
      refine snoop_list_skip fun e he y hy => ?_
      have hed : e ≠ d := fun e' => hd (e' ▸ he)
      rw [cmpGet_snoopAt_other hed] at hy
      exact h e y hed hy
    · rw [snoopAt_of_other (fun y => h d y hdc)]
      exact ih ((List.mem_cons.mp hc).resolve_left (Ne.symm hdc)) hl

theorem snoopOp_one (hc : c < 32) (hx : cmpGet u c = some x) (ha : x.addr = addr)
    (h : ∀ d y, d ≠ c → cmpGet u d = some y → y.addr ≠ addr) : snoopOp addr be data u =
      if be = 0xFF then (if x.n ≤ data.toNat then releaseCmp c x stOk data.toNat u else u)
      else if be = 0 then u
      else releaseCmp c x stRecheck 0 u := by
  rw [snoopOp_eq, snoop_list_one (List.mem_range.mpr hc) List.nodup_range h, snoopAt_of_watching hx ha]
theorem snoopOp_none (h : ∀ d y, cmpGet u d = some y → y.addr ≠ addr) : snoopOp addr be data u = u :=
  snoop_list_skip fun d _ => h d
theorem snoopOp_zero : snoopOp addr 0 data u = u :=
  List.foldlRecOn (motive := fun v : UnitState => v = u) _ _ rfl fun _ hv _ _ => snoopAt_zero.trans hv

end

variable {s : State} {r : Req} {addr n : Nat}

theorem memWaitOp_of_free (h : (List.range 32).find? (fun c => (cmpGet s.unit c).isNone) = some c) : memWaitOp r addr n s =
    onUnit (fun u => respDone r c 0x06 0 (cmpPut c (some
      { core := r.reply.toNat, tag := r.tag.toNat, addr := addr, n := n, tout := waitTout u 0, since := u.base.tick }) u)) s := by
  simp only [memWaitOp, h]
  exact onUnit_congr rfl
theorem memWaitOp_of_full (h : (List.range 32).find? (fun c => (cmpGet s.unit c).isNone) = none) :
    memWaitOp r addr n s = watchRefused 0 (onUnit (respError r stNoWatch 0 0x06 0) s) := by
  simp only [memWaitOp, h]

end

/-! ## The SEM page and the Sump (R289, R305, R308, R311) -/

section
variable {s : State} {f : Nat → State → State}

/-- The machine after a SEM page command has refreshed the value in the view. -/
def showValue (n : Nat) (s : State) : State := onUnit (fun u => uB (wr 0x0A04C (semGet u n).v) u) s

theorem semCmd_of_live (h : unitRuns s) (hw : (cfgOf s.unit.base).w64 = false) (hl : semRetired s.unit (semSel s.unit) = false) :
    semCmd f s = showValue (semSel s.unit) (f (semSel s.unit) s) := by
  have hrun : s.unit.base.phase = .run := h
  simp only [semCmd, hw, hl, hrun, ne_eq, not_true_eq_false, decide_false, Bool.or_self, Bool.false_eq_true, if_false]
  rfl
theorem semCmd_of_retired (h : unitRuns s) (hw : (cfgOf s.unit.base).w64 = false) (hl : semRetired s.unit (semSel s.unit) = true) :
    semCmd f s = onUnit (uB (wrB 0x0A050 2 true)) s := by
  have hrun : s.unit.base.phase = .run := h
  simp only [semCmd, hw, hl, hrun, ne_eq, not_true_eq_false, decide_false, Bool.or_self, Bool.false_eq_true, if_false, if_true]
theorem semCmd_of_off (h : (cfgOf s.unit.base).w64 = true ∨ ¬ unitRuns s) : semCmd f s = s := by
  refine if_pos ?_
  rcases h with h | h
  · rw [h, Bool.true_or]
  · rw [decide_eq_true h, Bool.or_true]

theorem showValue_watches {n : Nat} : SameWatches s.unit (showValue n s).unit := ⟨rfl, rfl, rfl, rfl, rfl, rfl⟩

theorem showValue_changed {m n : Nat} {x : SemWord} {u : UnitState} (h : SemChanged n x u s.unit) :
    SemChanged n x u (showValue m s).unit := h.trans showValue_watches

theorem sumpReadOp_of_record {ch : Nat} {u : UnitState} {x : BitVec 128} {l : List (BitVec 128)} (h : u.sems.sump = x :: l) :
    sumpReadOp ch u = (x.extractLsb' 0 32, uB (latchRec ch 0x0A080 x) (onSems (fun q => { q with sump := l }) u)) := by
  simp only [sumpReadOp, h]
theorem sumpReadOp_of_empty {ch : Nat} {u : UnitState} (h : u.sems.sump = []) :
    sumpReadOp ch u = (0, uB (latchRec ch 0x0A080 0) u) := by
  simp only [sumpReadOp, h]

theorem semSetCmd_changed (h : unitRuns s) (hw : (cfgOf s.unit.base).w64 = false) (hl : semRetired s.unit (semSel s.unit) = false)
    (hnone : ∀ w ∈ s.unit.sems.waits, w.sem ≠ semSel s.unit) : SemChanged (semSel s.unit)
      { semGet s.unit (semSel s.unit) with v := rd s.unit.base 0x0A044 } s.unit (semSetCmd s).unit := by
  rw [semSetCmd, semCmd_of_live h hw hl]
  have hput := semPut_changed (n := semSel s.unit) (injTouch_watches (u := s.unit) (mem := 0) (key := semSel s.unit))
    (x := { semGet s.unit (semSel s.unit) with v := rd s.unit.base 0x0A044 })
  refine showValue_changed ?_
  exact hput.trans (walk_of_none (n := semSel s.unit) (by rw [hput.waits]; exact hnone))
theorem semAddCmd_eq (h : unitRuns s) (hw : (cfgOf s.unit.base).w64 = false) (hl : semRetired s.unit (semSel s.unit) = false) :
    semAddCmd s = showValue (semSel s.unit) (semSignal (semSel s.unit) (rd s.unit.base 0x0A044).toNat 0xFFFF false true s) :=
  semCmd_of_live h hw hl
theorem semAddCmd_changed (h : unitRuns s) (hw : (cfgOf s.unit.base).w64 = false) (hl : semRetired s.unit (semSel s.unit) = false)
    (hnone : ∀ w ∈ s.unit.sems.waits, w.sem ≠ semSel s.unit) : ∃ last, SemChanged (semSel s.unit)
      (addedWord (semGet s.unit (semSel s.unit)) (rd s.unit.base 0x0A044).toNat last) s.unit (semAddCmd s).unit := by
  obtain ⟨last, hadd⟩ := semAddVal_changed (s := s) (n := semSel s.unit) (a := (rd s.unit.base 0x0A044).toNat) (src := 0xFFFF)
    (remote := false) (mgmt := true)
  refine ⟨last, ?_⟩
  rw [semAddCmd_eq h hw hl]
  exact showValue_changed (hadd.trans (walk_of_none (n := semSel s.unit) (by rw [hadd.waits]; exact hnone)))
theorem semSubCmd_changed (h : unitRuns s) (hw : (cfgOf s.unit.base).w64 = false) (hl : semRetired s.unit (semSel s.unit) = false) :
    ∃ last, SemChanged (semSel s.unit)
      (subbedWord (semGet s.unit (semSel s.unit)) (rd s.unit.base 0x0A044).toNat last) s.unit (semSubCmd s).unit := by
  obtain ⟨last, hsub⟩ := semSubVal_changed (s := s) (n := semSel s.unit) (a := (rd s.unit.base 0x0A044).toNat) (src := 0xFFFF)
    (remote := false) (mgmt := true)
  refine ⟨last, ?_⟩
  rw [semSubCmd, semCmd_of_live h hw hl]
  exact showValue_changed hsub
theorem semClrCmd_changed (h : unitRuns s) (hw : (cfgOf s.unit.base).w64 = false) (hl : semRetired s.unit (semSel s.unit) = false) :
    SemChanged (semSel s.unit) { semGet s.unit (semSel s.unit) with satHi := false, satLo := false } s.unit (semClrCmd s).unit := by
  rw [semClrCmd, semCmd_of_live h hw hl]
  have hput := semPut_changed (n := semSel s.unit) (injTouch_watches (u := s.unit) (mem := 0) (key := semSel s.unit))
    (x := { semGet s.unit (semSel s.unit) with satHi := false, satLo := false })
  refine showValue_changed ?_
  exact hput

theorem latchRec_rest {k a : Nat} {x : BitVec 128} {b : Base} :
    (latchRec k a x b).outs = b.outs ∧ (latchRec k a x b).regs = b.regs := by
  simp only [latchRec, latch_fields, and_self]
/-- What a record read answers, latches and leaves. -/
theorem answer_record {ch : BitVec 3} {k a : Nat} {v : Word} {x : BitVec 128} {u : UnitState} :
    (answer .unit ch v { s with unit := uB (latchRec k a x) u }).unit.sems.sump = u.sems.sump ∧
    (answer .unit ch v { s with unit := uB (latchRec k a x) u }).unit.base.outs = u.base.outs ++ [.regData .unit ch v 0] ∧
    (answer .unit ch v { s with unit := uB (latchRec k a x) u }).unit.base.regs = u.base.regs := by
  refine ⟨rfl, ?_, ?_⟩
  · rw [answer_unit.2, emit_outs, uB_base, latchRec_rest.1]
  · rw [answer_unit.2, emit_regs, uB_base, latchRec_rest.2]

theorem exec_sumpRead {ch : BitVec 3} (h : unitRuns s) : exec (.sumpRead ch) s =
    .next (answer .unit ch (sumpReadOp ch.toNat s.unit).1 { s with unit := (sumpReadOp ch.toNat s.unit).2 }) := next_of_unitRuns h rfl

end

/-- Settles O39: the one comparator that watches, and the SEM page's commands through the gate they share. -/
theorem comparatorsWatch : Obligations.ComparatorsWatch := by
  unfold Obligations.ComparatorsWatch
  refine ⟨fun s addr => ⟨fun r n c h hc => (next_of_accepts h).trans (congrArg Host.Outcome.next (memWaitOp_of_free hc)),
      fun r n h hc => (next_of_accepts h).trans (congrArg Host.Outcome.next (memWaitOp_of_full hc)),
      fun x c data h hc hx ha hother => ⟨fun hle => ?_, fun hlt => ?_, fun be hff h0 => ?_⟩,
      fun data => congrArg Host.Outcome.next (ifUnitRuns_of_self (onUnit_of_self snoopOp_zero)),
      fun be data hno => congrArg Host.Outcome.next (ifUnitRuns_of_self (onUnit_of_self (snoopOp_none hno)))⟩,
    fun s h hw hl => ⟨fun hnone => ⟨?_, ?_⟩, congrArg Host.Outcome.next (semCmd_of_live h hw hl), ?_, ?_⟩,
    fun s h hw => ⟨fun hret c hc => ?_, next_of_unitRuns h (if_neg (Bool.eq_false_iff.mp hw))⟩, fun s hoff c hc => ?_,
    fun s ch h => ⟨fun x l hx => ?_, fun hx => ?_⟩⟩
  · refine next_of_unitRuns h (onUnit_congr ?_)
    rw [snoopOp_one hc hx ha hother, if_pos rfl, if_pos hle]
  · refine next_of_unitRuns h (onUnit_of_self ?_)
    rw [snoopOp_one hc hx ha hother, if_pos rfl, if_neg (Nat.not_le.mpr hlt)]
  · refine next_of_unitRuns h (onUnit_congr ?_)
    rw [snoopOp_one hc hx ha hother, if_neg hff, if_neg h0]
  · have hstep : exec .semCmdSet s = .next (semSetCmd s) := rfl
    exact ⟨_, hstep, (semSetCmd_changed h hw hl hnone).same, exec_otherSame hstep⟩
  · have hstep : exec .semCmdAdd s = .next (semAddCmd s) := rfl
    obtain ⟨last, hc⟩ := semAddCmd_changed h hw hl hnone
    exact ⟨_, hstep, (congrArg (fun w : SemWord => w.v.toNat) hc.same).trans addedWord_value, exec_otherSame hstep⟩
  · have hstep : exec .semCmdSub s = .next (semSubCmd s) := rfl
    obtain ⟨last, hc⟩ := semSubCmd_changed h hw hl
    exact ⟨_, hstep, (congrArg (fun w : SemWord => w.v.toNat) hc.same).trans subbedWord_value, exec_otherSame hstep⟩
  · have hstep : exec .semCmdClrFlags s = .next (semClrCmd s) := rfl
    exact ⟨_, hstep, (semClrCmd_changed h hw hl).same, (semClrCmd_changed h hw hl).other, exec_otherSame hstep⟩
  · fin_cases hc <;> exact congrArg Host.Outcome.next (semCmd_of_retired h hw hret)
  · fin_cases hc
    · exact congrArg Host.Outcome.next (semCmd_of_off hoff)
    · exact congrArg Host.Outcome.next (semCmd_of_off hoff)
    · exact congrArg Host.Outcome.next (semCmd_of_off hoff)
    · exact congrArg Host.Outcome.next (semCmd_of_off hoff)
    · rcases hoff with hw | hn
      · exact congrArg Host.Outcome.next (ifUnitRuns_of_self (if_pos hw))
      · exact congrArg Host.Outcome.next (ifUnitRuns_of_not_run hn)
  · refine ⟨_, exec_sumpRead h, ?_⟩
    rw [sumpReadOp_of_record hx]
    exact answer_record
  · rw [exec_sumpRead h, sumpReadOp_of_empty hx]
    rfl

end Sys2Proof.Proofs
end

section
/-! PROOFS. The words of requests, the message port's answers and its output (R265 to R278). -/

namespace Sys2Proof.Proofs

open Sys2Proof Sys2Proof.Machine Sys2Proof.Laws

/-! ## Requests as words (R268, R291) -/

section
variable {r : Req} {take : Bool}

theorem decodeRequest_word {op : BitVec 6} {f : BitVec 96} :
    decodeRequest r.lane (requestWord op r take f) = decodeOperands op r take f := by
  rw [decodeRequest, requestWord_op, requestWord_header, requestWord_take, requestWord_operands]

theorem decode_semAdd {sem : BitVec 16} {a : BitVec 32} :
    decodeOperands 0x01 r take (sem ++ (0 : BitVec 48) ++ a) = .semAdd r sem a := by
  show Instr.semAdd _ _ _ = _
  simp (disch := omega) only [BitVec.extractLsb'_append_eq_of_le, BitVec.extractLsb'_append_eq_of_add_le, Nat.reduceSub,
    BitVec.extractLsb'_eq_self]
theorem decode_semSub {sem : BitVec 16} {a : BitVec 32} :
    decodeOperands 0x02 r take (sem ++ (0 : BitVec 48) ++ a) = .semSub r sem a := by
  show Instr.semSub _ _ _ = _
  simp (disch := omega) only [BitVec.extractLsb'_append_eq_of_le, BitVec.extractLsb'_append_eq_of_add_le, Nat.reduceSub,
    BitVec.extractLsb'_eq_self]
theorem decode_semRead {sem : BitVec 16} : decodeOperands 0x03 r take (sem ++ (0 : BitVec 80)) = .semRead r sem := by
  show Instr.semRead _ _ = _
  rw [BitVec.extractLsb'_append_eq_left]
theorem decode_semWait {sem : BitVec 16} {tout n : BitVec 32} :
    decodeOperands 0x04 r take (sem ++ (0 : BitVec 16) ++ tout ++ n) = .semWait r take sem tout n := by
  show Instr.semWait _ _ _ _ _ = _
  simp (disch := omega) only [BitVec.extractLsb'_append_eq_of_le, BitVec.extractLsb'_append_eq_of_add_le, Nat.reduceSub,
    BitVec.extractLsb'_eq_self]
theorem decode_wchCancel {obj : BitVec 16} {cls : BitVec 4} {core : BitVec 10} {tag : BitVec 8} :
    decodeOperands 0x05 r take (obj ++ cls ++ core ++ tag ++ (0 : BitVec 58)) = .wchCancel r obj cls core tag := by
  show Instr.wchCancel _ _ _ _ _ = _
  simp (disch := omega) only [BitVec.extractLsb'_append_eq_of_le, BitVec.extractLsb'_append_eq_of_add_le, Nat.reduceSub,
    BitVec.extractLsb'_eq_self]
theorem decode_memWait {addr : BitVec 45} {n : BitVec 48} :
    decodeOperands 0x06 r take (addr ++ (0 : BitVec 3) ++ n) = .memWait r addr n := by
  show Instr.memWait _ _ _ = _
  simp (disch := omega) only [BitVec.extractLsb'_append_eq_of_le, BitVec.extractLsb'_append_eq_of_add_le, Nat.reduceSub,
    BitVec.extractLsb'_eq_self]
theorem decode_barEnter {b : BitVec 8} : decodeOperands 0x08 r take (b ++ (0 : BitVec 88)) = .barEnter r b := by
  show Instr.barEnter _ _ = _
  rw [BitVec.extractLsb'_append_eq_left]
theorem decode_flwProd {pair : BitVec 16} {a : BitVec 32} :
    decodeOperands 0x0A r take (pair ++ (0 : BitVec 48) ++ a) = .flwProd r pair a := by
  show Instr.flwProd _ _ _ = _
  simp (disch := omega) only [BitVec.extractLsb'_append_eq_of_le, BitVec.extractLsb'_append_eq_of_add_le, Nat.reduceSub,
    BitVec.extractLsb'_eq_self]
theorem decode_flwCons {pair : BitVec 16} {a : BitVec 32} :
    decodeOperands 0x0B r take (pair ++ (0 : BitVec 48) ++ a) = .flwCons r pair a := by
  show Instr.flwCons _ _ _ = _
  simp (disch := omega) only [BitVec.extractLsb'_append_eq_of_le, BitVec.extractLsb'_append_eq_of_add_le, Nat.reduceSub,
    BitVec.extractLsb'_eq_self]
theorem decode_cmbData {buf : BitVec 8} {chunk : BitVec 3} {data : BitVec 64} :
    decodeOperands 0x0C r take (buf ++ chunk ++ (0 : BitVec 21) ++ data) = .cmbData r buf chunk data := by
  show Instr.cmbData _ _ _ _ = _
  simp (disch := omega) only [BitVec.extractLsb'_append_eq_of_le, BitVec.extractLsb'_append_eq_of_add_le, Nat.reduceSub,
    BitVec.extractLsb'_eq_self]
theorem decode_cmbPost {buf : BitVec 8} {g : BitVec 12} {o : BitVec 8} {chunks : BitVec 4} {gseq sigSem : BitVec 16}
    {sigEn notify : Bool} : decodeOperands 0x0D r take (buf ++ g ++ o ++ chunks ++ gseq ++ sigSem ++ BitVec.ofBool sigEn ++
      BitVec.ofBool notify ++ (0 : BitVec 30)) = .cmbPost r buf g o chunks gseq sigSem sigEn notify := by
  show Instr.cmbPost _ _ _ _ _ _ _ _ _ = _
  simp (disch := omega) only [BitVec.extractLsb'_append_eq_of_le, BitVec.extractLsb'_append_eq_of_add_le, Nat.reduceSub,
    BitVec.extractLsb'_eq_self, BitVec.getLsbD_append, Nat.reduceLT, if_false, BitVec.getLsbD_ofBool]
  simp only [if_true, decide_true, Bool.true_and]
theorem decode_cmbRead {buf : BitVec 8} {chunk : BitVec 3} :
    decodeOperands 0x0E r take (buf ++ chunk ++ (0 : BitVec 85)) = .cmbRead r buf chunk := by
  show Instr.cmbRead _ _ _ = _
  simp (disch := omega) only [BitVec.extractLsb'_append_eq_of_le, Nat.reduceSub, BitVec.extractLsb'_append_eq_of_add_le,
    BitVec.extractLsb'_eq_self]
theorem decode_launchStart {lid : BitVec 16} {g : BitVec 12} {tol : BitVec 16} {target : BitVec 48} :
    decodeOperands 0x10 r take (lid ++ g ++ (0 : BitVec 4) ++ tol ++ target) = .launchOrigStart (some ⟨r, lid, g, tol, target⟩) := by
  show Instr.launchOrigStart (some ⟨r, _, _, _, _⟩) = _
  simp (disch := omega) only [BitVec.extractLsb'_append_eq_of_le, Nat.reduceSub, BitVec.extractLsb'_append_eq_of_add_le,
    BitVec.extractLsb'_eq_self]
theorem decode_launchCancel {lid : BitVec 16} {g : BitVec 12} :
    decodeOperands 0x11 r take (lid ++ g ++ (0 : BitVec 68)) = .launchOrigCancel (some ⟨r, lid, g⟩) := by
  show Instr.launchOrigCancel (some ⟨r, _, _⟩) = _
  simp (disch := omega) only [BitVec.extractLsb'_append_eq_of_le, Nat.reduceSub, BitVec.extractLsb'_append_eq_of_add_le,
    BitVec.extractLsb'_eq_self]
theorem decode_ttbInsert {index : BitVec 10} {kind : BitVec 3} {target : BitVec 4} {param : BitVec 28} {due : BitVec 48} :
    decodeOperands 0x12 r take (index ++ kind ++ target ++ (0 : BitVec 3) ++ param ++ due) =
      .ttbInsertCmd (some ⟨r, index, kind, target, param, due⟩) := by
  show Instr.ttbInsertCmd (some ⟨r, _, _, _, _, _⟩) = _
  simp (disch := omega) only [BitVec.extractLsb'_append_eq_of_le, Nat.reduceSub, BitVec.extractLsb'_append_eq_of_add_le,
    BitVec.extractLsb'_eq_self]
theorem reserved_op_unused : ∀ op : BitVec 6, requestOpReserved op = true →
    op.toNat ∉ [0x01, 0x02, 0x03, 0x04, 0x05, 0x06, 0x08, 0x0A, 0x0B, 0x0C, 0x0D, 0x0E, 0x10, 0x11, 0x12] := by decide
theorem decode_badOp {op : BitVec 6} {f : BitVec 96} (h : requestOpReserved op = true) :
    decodeOperands op r take f = .msgBadOp r op := by
  unfold decodeOperands
  split
  case h_16 => rfl
  all_goals exact absurd (by rw [‹op.toNat = _›]; decide) (reserved_op_unused op h)

end

/-- A request's word spells that request. -/
theorem decodeRequest_encodeRequest {i : Instr} {lane : BitVec 4} {m : BitVec 128} (h : encodeRequest i = some (lane, m)) :
    decodeRequest lane m = i := by
  cases i with
  | semAdd r sem a =>
    obtain ⟨rfl, rfl⟩ := Prod.mk.inj (Option.some.inj h)
    exact decodeRequest_word.trans decode_semAdd
  | semSub r sem a =>
    obtain ⟨rfl, rfl⟩ := Prod.mk.inj (Option.some.inj h)
    exact decodeRequest_word.trans decode_semSub
  | semRead r sem =>
    obtain ⟨rfl, rfl⟩ := Prod.mk.inj (Option.some.inj h)
    exact decodeRequest_word.trans decode_semRead
  | semWait r take sem tout n =>
    obtain ⟨rfl, rfl⟩ := Prod.mk.inj (Option.some.inj h)
    exact decodeRequest_word.trans decode_semWait
  | wchCancel r obj cls core tag =>
    obtain ⟨rfl, rfl⟩ := Prod.mk.inj (Option.some.inj h)
    exact decodeRequest_word.trans decode_wchCancel
  | memWait r addr n =>
    obtain ⟨rfl, rfl⟩ := Prod.mk.inj (Option.some.inj h)
    exact decodeRequest_word.trans decode_memWait
  | barEnter r b =>
    obtain ⟨rfl, rfl⟩ := Prod.mk.inj (Option.some.inj h)
    exact decodeRequest_word.trans decode_barEnter
  | flwProd r pair a =>
    obtain ⟨rfl, rfl⟩ := Prod.mk.inj (Option.some.inj h)
    exact decodeRequest_word.trans decode_flwProd
  | flwCons r pair a =>
    obtain ⟨rfl, rfl⟩ := Prod.mk.inj (Option.some.inj h)
    exact decodeRequest_word.trans decode_flwCons
  | cmbData r buf chunk data =>
    obtain ⟨rfl, rfl⟩ := Prod.mk.inj (Option.some.inj h)
    exact decodeRequest_word.trans decode_cmbData
  | cmbPost r buf g o chunks gseq sigSem sigEn notify =>
    obtain ⟨rfl, rfl⟩ := Prod.mk.inj (Option.some.inj h)
    exact decodeRequest_word.trans decode_cmbPost
  | cmbRead r buf chunk =>
    obtain ⟨rfl, rfl⟩ := Prod.mk.inj (Option.some.inj h)
    exact decodeRequest_word.trans decode_cmbRead
  | launchOrigStart x =>
    cases x with
    | none => nomatch h
    | some x =>
      obtain ⟨rfl, rfl⟩ := Prod.mk.inj (Option.some.inj h)
      exact decodeRequest_word.trans decode_launchStart
  | launchOrigCancel x =>
    cases x with
    | none => nomatch h
    | some x =>
      obtain ⟨rfl, rfl⟩ := Prod.mk.inj (Option.some.inj h)
      exact decodeRequest_word.trans decode_launchCancel
  | ttbInsertCmd x =>
    cases x with
    | none => nomatch h
    | some x =>
      obtain ⟨rfl, rfl⟩ := Prod.mk.inj (Option.some.inj h)
      exact decodeRequest_word.trans decode_ttbInsert
  | msgBadOp r op =>
    simp only [encodeRequest, Option.ite_none_right_eq_some] at h
    obtain ⟨rfl, rfl⟩ := Prod.mk.inj (Option.some.inj h.2)
    exact decodeRequest_word.trans (decode_badOp h.1)
  | _ => nomatch h

/-- A command that is a request reaches the unit through the message port. -/
theorem exec_of_encodeRequest {i : Instr} {lane : BitVec 4} {m : BitVec 128} {s : State} (h : encodeRequest i = some (lane, m)) :
    (requestHeader lane m).lane = lane ∧ ∃ op obj f, exec i s = .next (request (requestHeader lane m) op obj f s) := by
  refine ⟨rfl, ?_⟩
  cases i with
  | launchOrigStart x =>
    cases x with
    | none => nomatch h
    | some x =>
      obtain ⟨rfl, rfl⟩ := Prod.mk.inj (Option.some.inj h)
      rw [requestWord_header]
      exact ⟨_, _, _, rfl⟩
  | launchOrigCancel x =>
    cases x with
    | none => nomatch h
    | some x =>
      obtain ⟨rfl, rfl⟩ := Prod.mk.inj (Option.some.inj h)
      rw [requestWord_header]
      exact ⟨_, _, _, rfl⟩
  | ttbInsertCmd x =>
    cases x with
    | none => nomatch h
    | some x =>
      obtain ⟨rfl, rfl⟩ := Prod.mk.inj (Option.some.inj h)
      rw [requestWord_header]
      exact ⟨_, _, _, rfl⟩
  | msgBadOp r op =>
    simp only [encodeRequest, Option.ite_none_right_eq_some] at h
    obtain ⟨rfl, rfl⟩ := Prod.mk.inj (Option.some.inj h.2)
    rw [requestWord_header]
    exact ⟨_, _, _, rfl⟩
  | semAdd | semSub | semRead | semWait | wchCancel | memWait | barEnter | flwProd | flwCons | cmbData | cmbPost | cmbRead =>
    obtain ⟨rfl, rfl⟩ := Prod.mk.inj (Option.some.inj h)
    rw [requestWord_header]
    exact ⟨_, _, _, rfl⟩
  | _ => nomatch h

/-! ## Output (R265, R273) -/

section
variable {u : UnitState} {ready : BitVec 16}

theorem resume_base {k : Nat} : (resume k u).base = u.base := by
  induction k generalizing u with
  | zero => rfl
  | succ k ih =>
    unfold resume
    split
    · split
      · exact ih
      · rfl
    · rfl

theorem emitOp_of_response {m : OutMsg} {l : List OutMsg} {k : Nat} (hq : u.sems.outQ = m :: l)
    (hk : (List.range (portLanes u)).find? (fun i => ready.getLsbD i && !laneBusy u i) = some k) : emitOp ready u =
      resume u.sems.paused.length (uB (emit (.msg k (m.bits.extractLsb' 108 10) m.bits)) (onSems (fun q => { q with outQ := l }) u)) := by
  simp only [emitOp, hq, hk]
  rfl
theorem emitOp_of_none (h : u.sems.outQ = [] ∨
    (List.range (portLanes u)).find? (fun i => ready.getLsbD i && !laneBusy u i) = none) : emitOp ready u = u := by
  unfold emitOp
  split
  · rename_i hq hk
    rcases h with h | h
    · exact absurd (hq.symm.trans h) (List.cons_ne_nil _ _)
    · exact absurd (hk.symm.trans h) (Option.some_ne_none _)
  · rfl

end

/-! ## SEM_READ and scrubbing (R278, R305, R336, R470) -/

section
variable {s : State}

theorem exec_semRead {r : Req} {sem : BitVec 16} (h : accepts r 0x03 s) (hlive : semRetired s.unit sem.toNat = false)
    (hclean : s.unit.dbg.flips.contains (0, sem.toNat) = false) :
    exec (.semRead r sem) s = .next (onUnit (pushResp 0x21 r.reply.toNat r.tag.toNat stOk
        (valueOps sem.toNat (if (semGet s.unit sem.toNat).satHi then 1 else 0) (if (semGet s.unit sem.toNat).satLo then 1 else 0)
          (nsLo s.unit * 2 ^ 32 + (semGet s.unit sem.toNat).v.toNat))) s) := by
  refine (next_of_accepts h).trans (congrArg Host.Outcome.next ((onLiveSem_of_live hlive).trans (onUnit_congr ?_)))
  simp only [injTouch_of_clean hclean]

theorem scrubObject_of_none {e : EccTarget} {k : Bool} {u : UnitState} (h : eccCorr u e = none) : scrubObject e k u = u := by
  simp only [scrubObject, h]
theorem scrubObject_of_some {e : EccTarget} {k : Bool} {u : UnitState} {a : Nat} (h : eccCorr u e = some a) :
    scrubObject e k u = if k then uB (inc a) (eccTouch e u) else eccTouch e u := by
  simp only [scrubObject, h]

end

/-- Settles O40: the words by their fields, the port by its one gate, output and scrubbing by their branches. -/
theorem messagePort : Obligations.MessagePort := by
  unfold Obligations.MessagePort
  refine ⟨fun i lane m => decodeRequest_encodeRequest, fun s r => ⟨fun c lane m hc => ?_,
    fun op hready hlane hstale hop => congrArg Host.Outcome.next (request_of_bad_op hready hlane hstale hop),
    fun op hready hstale hlane => congrArg Host.Outcome.next (request_of_stale hready hlane hstale),
    fun op hready => congrArg Host.Outcome.next (request_of_not_ready (.inl hready)),
    fun hready hlane hstale hw sem a take tout n => ?_, fun hready hlane hstale hw addr n => ?_,
    fun ready m l k h hq hk => ?_, fun ready hno => congrArg Host.Outcome.next (ifUnitRuns_of_self (onUnit_of_self (emitOp_of_none hno))),
    fun sem h hlive hclean => exec_semRead h hlive hclean,
    fun sem h hret => (next_of_accepts h).trans (congrArg Host.Outcome.next (onLiveSem_of_retired hret)),
    fun sem h hw => ?_, fun b n p h => ⟨next_of_unitRuns h rfl, next_of_unitRuns h rfl, next_of_unitRuns h rfl⟩,
    fun e k he => congrArg Host.Outcome.next (ifUnitRuns_of_self (onUnit_of_self (scrubObject_of_none he))),
    fun h => congrArg Host.Outcome.next ((ifDistRuns_of_run h).trans rfl), fun k hk => ?_⟩⟩
  · obtain ⟨hlane, op, obj, f, hexec⟩ := exec_of_encodeRequest (s := s) hc
    refine ⟨fun hno => hexec.trans (congrArg Host.Outcome.next (request_of_not_ready (by rwa [hlane]))), fun hready hl hstale =>
      hexec.trans (congrArg Host.Outcome.next (request_of_stale hready (by rwa [hlane]) hstale))⟩
  · have hbad : ∀ op ∈ [0x01, 0x02, 0x03, 0x04], opPermitted (cfgOf s.unit.base).w64 op = false := by
      rw [hw]
      decide
    exact ⟨congrArg Host.Outcome.next (request_of_bad_op hready hlane hstale (hbad _ (by decide))),
      congrArg Host.Outcome.next (request_of_bad_op hready hlane hstale (hbad _ (by decide))),
      congrArg Host.Outcome.next (request_of_bad_op hready hlane hstale (hbad _ (by decide))),
      congrArg Host.Outcome.next (request_of_bad_op hready hlane hstale (hbad _ (by decide)))⟩
  · refine congrArg Host.Outcome.next (request_of_bad_op hready hlane hstale ?_)
    rw [hw]
    decide
  · refine ⟨onUnit (emitOp ready) s, next_of_unitRuns h rfl, ?_⟩
    rw [onUnit_unit, emitOp_of_response hq hk, resume_base]
    refine ⟨fun hp => ?_, rfl, rfl⟩
    rw [hp]
    rfl
  · have he : eccCorr s.unit (.sem sem) = some 0x0A078 := if_neg (Bool.eq_false_iff.mp hw)
    exact ⟨next_of_unitRuns h (onUnit_congr (scrubObject_of_some he)), next_of_unitRuns h (onUnit_congr (scrubObject_of_some he))⟩
  · rcases hk with hn | rfl
    · exact congrArg Host.Outcome.next (ifDistRuns_of_not_run hn)
    · exact congrArg Host.Outcome.next (ifDistRuns_of_self rfl)

end Sys2Proof.Proofs
end

section
/-! PROOFS. Barriers, flow counters, the fence tracker and the deadlock detector (R315 to R356). -/

namespace Sys2Proof.Proofs

open Sys2Proof Sys2Proof.Machine

/-! ## What answers and log entries leave of the objects -/

/-- A unit whose barriers, flow counters, fence tracker and deadlock detector are those of another. -/
structure SameObjects (u v : UnitState) : Prop where
  bars : v.bars = u.bars
  flows : v.flows = u.flows
  fnc : v.fnc = u.fnc
  dlk : v.dlk = u.dlk

section
variable {u v w : UnitState} {s : State} {n b : Nat}

theorem SameObjects.refl (u : UnitState) : SameObjects u u := ⟨rfl, rfl, rfl, rfl⟩
theorem SameObjects.trans (h : SameObjects u v) (k : SameObjects v w) : SameObjects u w :=
  ⟨k.bars.trans h.bars, k.flows.trans h.flows, k.fnc.trans h.fnc, k.dlk.trans h.dlk⟩
theorem SameObjects.ite {c : Prop} [Decidable c] (h : SameObjects u v) (k : SameObjects u w) :
    SameObjects u (if c then v else w) := by
  split
  · exact h
  · exact k
theorem SameObjects.barGet (h : SameObjects u v) (b : Nat) : barGet v b = barGet u b := by simp only [Machine.barGet, h.bars]
theorem SameObjects.flowGet (h : SameObjects u v) (n : Nat) : flowGet v n = flowGet u n := by simp only [Machine.flowGet, h.flows]

theorem pushResp_objects {kind dest tag status ops : Nat} : SameObjects u (pushResp kind dest tag status ops u) :=
  .ite ⟨rfl, rfl, rfl, rfl⟩ (.ite ⟨rfl, rfl, rfl, rfl⟩ ⟨rfl, rfl, rfl, rfl⟩)
theorem respAck_objects {r : Req} {obj op value : Nat} : SameObjects u (respAck r obj op value u) := .ite pushResp_objects (.refl u)
theorem logU_objects {h : Hap} {port obj uid aux : Nat} : SameObjects s.unit (logU h port obj uid aux s).unit :=
  ⟨logU_bars .., logU_flows .., logU_fnc .., logU_dlk ..⟩
theorem uB_objects {f : Base → Base} : SameObjects u (uB f u) := ⟨rfl, rfl, rfl, rfl⟩

theorem releaseMems_objects {status : Nat} {lost : Bool} {sel : BarMem → Option BarEnt} {x : Barrier} :
    SameObjects u (releaseMems b status lost sel x u) := by
  refine List.foldlRecOn (motive := fun v : UnitState => SameObjects u v) _ _ (.refl u) fun v hv m _ => ?_
  split
  · exact hv.trans pushResp_objects
  · exact hv

/-- The unit after every entry of barrier `b` has completed, but before its members are IDLE. -/
def endedEntries (b status : Nat) (u : UnitState) : UnitState :=
  let x := barGet u b
  releaseMems b status false (·.held) x (releaseMems b status false (·.next) x (releaseMems b status false (·.cur) x u))
theorem endedEntries_objects {status : Nat} : SameObjects u (endedEntries b status u) :=
  (releaseMems_objects.trans releaseMems_objects).trans releaseMems_objects

@[simp] theorem barGet_endEntries_same {status : Nat} :
    barGet (endEntries b status u) b = { barGet u b with mems := [], again := false } := by
  show barGet (barPut b { barGet (endedEntries b status u) b with mems := [], again := false } _) b = _
  rw [barGet_barPut_same, endedEntries_objects.barGet]

/-! ## Entries (R318 to R320) -/

variable {r : Req}

theorem barRefusal_zero_held {core : Nat} (h : barRefusal u b core = (0, 0)) : (memGet (barGet u b) core).held = none := by
  simp only [barRefusal] at h
  by_contra hheld
  have hsome := Option.isSome_iff_ne_none.mpr hheld
  rw [hsome, if_pos rfl] at h
  split at h
  · exact absurd (congrArg Prod.fst h) (by decide)
  · split at h
    · exact absurd (congrArg Prod.fst h) (by decide)
    · split at h
      · exact absurd (congrArg Prod.fst h) (by decide)
      · split at h
        · exact absurd (congrArg Prod.fst h) (by decide)
        · split at h
          · exact absurd (congrArg Prod.fst h) (by decide)
          · exact absurd (congrArg Prod.fst h) (by decide)

/-- The machine on which an accepted entry stands. -/
def entered (r : Req) (b : Nat) (s : State) : State :=
  let x := barGet s.unit b
  let m := memGet x r.reply.toNat
  onUnit (barPut b { x with mems := tabSet {} r.reply.toNat (memEnter m { tag := r.tag.toNat, at_ := s.unit.base.tick }) x.mems }) s

theorem barEnterOp_of_accepted (h : barRefusal s.unit b r.reply.toNat = (0, 0)) : barEnterOp r b s =
    if (memGet (barGet s.unit b) r.reply.toNat).cur.isNone then barReach b (entered r b s)
    else if (memGet (barGet s.unit b) r.reply.toNat).next.isNone then entered r b s
    else barLap b (entered r b s) := by
  simp only [barEnterOp, h, ne_eq, not_true_eq_false, if_false]
  rfl
theorem barEnterOp_of_refused {status cause : Nat} (h : barRefusal s.unit b r.reply.toNat = (status, cause)) (hs : status ≠ 0) :
    barEnterOp r b s = onUnit (respError r status b 0x08 cause) (if cause = 4 then barLap b s else s) := by
  simp only [barEnterOp, h, ne_eq, hs, not_false_eq_true, if_true]

theorem entered_rest : (barGet (entered r b s).unit b).round = (barGet s.unit b).round ∧
    memGet (barGet (entered r b s).unit b) r.reply.toNat =
      memEnter (memGet (barGet s.unit b) r.reply.toNat) { tag := r.tag.toNat, at_ := s.unit.base.tick } ∧
    ∀ c, c ≠ b → barGet (entered r b s).unit c = barGet s.unit c := by
  refine ⟨?_, ?_, fun c hc => barGet_barPut_other hc⟩
  · exact (congrArg Barrier.round barGet_barPut_same :)
  · exact (congrArg (memGet · r.reply.toNat) barGet_barPut_same).trans (tabGet_tabSet_same _ _ _ _)

theorem memEnter_next {m : BarMem} {e : BarEnt} (h : m.cur.isSome = true) (hn : m.next = none) :
    memEnter m e = { m with next := some e } := by
  simp only [memEnter, Option.isNone_eq_false_iff.mpr h, hn, Option.isNone_none, Bool.false_eq_true, if_false, if_true]
theorem memEnter_held {m : BarMem} {e : BarEnt} (h : m.cur.isSome = true) (hn : m.next.isSome = true) :
    memEnter m e = { m with held := some e } := by
  simp only [memEnter, Option.isNone_eq_false_iff.mpr h, Option.isNone_eq_false_iff.mpr hn, Bool.false_eq_true, if_false]
theorem memEnter_cur {m : BarMem} {e : BarEnt} (h : m.cur = none) : memEnter m e = { m with cur := some e } := by
  simp only [memEnter, h, Option.isNone_none, if_true]


theorem barRefusal_of_lacking {core : Nat} (h : barCap u ≤ b) : barRefusal u b core = (stBadObj, 0) := if_pos h
section
variable {core : Nat} (h : b < barCap u)
include h
theorem barRefusal_of_failed (hf : (barGet u b).failed = true) : barRefusal u b core = (stObjFailed, 0) := by
  simp only [barRefusal, Nat.not_le.mpr h, hf, if_false, if_true]
theorem barRefusal_of_stranger (hf : (barGet u b).failed = false) (hm : barMember u b core = false) :
    barRefusal u b core = (stRefused, 1) := by
  simp only [barRefusal, Nat.not_le.mpr h, hf, hm, Bool.not_false, Bool.false_eq_true, if_false, if_true]
theorem barRefusal_of_disabled (hf : (barGet u b).failed = false) (hm : barMember u b core = true)
    (hs : (barGet u b).st = .disabled) : barRefusal u b core = (stRefused, 2) := by
  simp only [barRefusal, Nat.not_le.mpr h, hf, hm, hs, Bool.not_true, Bool.false_eq_true, if_false, if_true]
theorem barRefusal_of_stalled (hf : (barGet u b).failed = false) (hm : barMember u b core = true)
    (hs : (barGet u b).st = .stalled) : barRefusal u b core = (stRefused, 3) := by
  simp only [barRefusal, Nat.not_le.mpr h, hf, hm, hs, Bool.not_true, Bool.false_eq_true, if_false, if_true, reduceCtorEq]
end

/-- An entry that R320 refuses for a cause other than a lap. -/
theorem exec_barEnter_refused {c : BitVec 8} {status cause : Nat} (h : accepts r 0x08 s)
    (hr : barRefusal s.unit c.toNat r.reply.toNat = (status, cause)) (hs : status ≠ 0) (hc : cause ≠ 4) :
    exec (.barEnter r c) s = .next (onUnit (respError r status c.toNat 0x08 cause) s) := by
  refine (next_of_accepts h).trans (congrArg Host.Outcome.next ?_)
  rw [barEnterOp_of_refused hr hs, if_neg hc]

/-! ## Deadline, RESET and BAR.CTL (R318, R326, R328 to R330) -/

theorem barDeadlineOp_of_not_due (h : barDue s.unit b = false) : barDeadlineOp b s = s := if_neg (Bool.eq_false_iff.mp h)
theorem barDeadlineOp_of_due (h : barDue s.unit b = true) :
    (barGet (barDeadlineOp b s).unit b).st = .stalled ∧ (barGet (barDeadlineOp b s).unit b).mems = [] := by
  simp only [barDeadlineOp, h, if_true, onUnit_unit, barGet_barPut_same, barGet_endEntries_same, and_self]

theorem barFresh_same : barGet (barFresh u b) b =
    { barGet u b with st := .opened, sense := false, mems := [], again := false, frozen := [], expect := barSize u b,
                      roundAt := u.base.tick } := barGet_barPut_same

theorem barResetOp_of_enabled (hf : (barGet s.unit b).failed = false)
    (hst : (barGet s.unit b).st = .opened ∨ (barGet s.unit b).st = .stalled) :
    barResetOp b s = onUnit (fun u => barFresh (endEntries b stAborted u) b) s := by
  rcases hst with e | e
  · simp only [barResetOp, hf, e, reduceCtorEq, decide_false, Bool.or_self, Bool.false_eq_true, if_false]
  · simp only [barResetOp, hf, e, reduceCtorEq, decide_false, Bool.or_self, Bool.false_eq_true, if_false]
theorem barResetOp_of_hall_wait (hf : (barGet s.unit b).failed = false) (hst : (barGet s.unit b).st = .hallWait) :
    barResetOp b s = logU uBarCfgErr noPort b 0 0 s := by
  simp only [barResetOp, hf, hst, reduceCtorEq, decide_false, Bool.or_self, Bool.false_eq_true, if_false, if_true]
theorem barResetOp_of_off (h : (barGet s.unit b).failed = true ∨ (barGet s.unit b).st = .disabled) : barResetOp b s = s := by
  rcases h with h | h
  · simp only [barResetOp, h, Bool.true_or, if_true]
  · simp only [barResetOp, h, decide_true, Bool.or_true, if_true]

variable {be : BitVec 4} {data new : Word}

theorem barCtlOp_of_lacking (h : barCap s.unit ≤ b) : barCtlOp b be data s = s := if_pos h

section
variable (h : b < barCap s.unit) (hnew : new = writeFlds [rw 0 3, rw 4 12] true be (rd s.unit.base (barCtlAddr b)) data)
include h hnew

theorem barCtlOp_of_forbidden (hbad : (bitOf new 1 = true ∧ galPermitted s.unit.base (fld new 4 12) = false) ∨
    ((barGet s.unit b).st = .hallWait ∧ bitOf new 0 = false)) : barCtlOp b be data s = logU uBarCfgErr noPort b 0 0 s := by
  simp only [barCtlOp, Nat.not_le.mpr h, ← hnew, if_false]
  rcases hbad with ⟨h1, h2⟩ | ⟨h1, h2⟩
  · simp only [h1, h2, Bool.not_false, Bool.and_self, if_true]
  · simp only [h1, h2, decide_true, Bool.not_false, Bool.and_self, if_true, ite_self]

/-- A write of BAR.CTL that neither R326 nor R330 forbids. -/
theorem barCtlOp_of_allowed (hgal : bitOf new 1 = false ∨ galPermitted s.unit.base (fld new 4 12) = true)
    (hst : (barGet s.unit b).st ≠ .hallWait) : barCtlOp b be data s =
      let t := onUnit (uB (wr (barCtlAddr b) new)) s
      if (barGet s.unit b).failed then t
      else if !bitOf (rd s.unit.base (barCtlAddr b)) 0 && bitOf new 0 then onUnit (fun u => barFresh u b) t
      else if bitOf (rd s.unit.base (barCtlAddr b)) 0 && !bitOf new 0 then
        onUnit (fun u => barPut b { barGet (endEntries b stAborted u) b with st := .disabled } (endEntries b stAborted u)) t
      else t := by
  have h1 : (bitOf new 1 && !galPermitted s.unit.base (fld new 4 12)) = false := by
    rcases hgal with e | e
    · rw [e, Bool.false_and]
    · rw [e, Bool.not_true, Bool.and_false]
  simp only [barCtlOp, Nat.not_le.mpr h, ← hnew, h1, hst, decide_false, Bool.false_and, Bool.false_eq_true, if_false]

variable (hgal : bitOf new 1 = false ∨ galPermitted s.unit.base (fld new 4 12) = true) (hst : (barGet s.unit b).st ≠ .hallWait)
include hgal hst

theorem barCtlOp_of_same (hsame : (barGet s.unit b).failed = true ∨ bitOf new 0 = bitOf (rd s.unit.base (barCtlAddr b)) 0) :
    barCtlOp b be data s = onUnit (uB (wr (barCtlAddr b) new)) s := by
  rw [barCtlOp_of_allowed h hnew hgal hst]
  rcases hsame with e | e
  · rw [if_pos e]
  · simp only [← e, Bool.and_not_self, Bool.not_and_self, Bool.false_eq_true, if_false, ite_self]
theorem barCtlOp_of_opening (hf : (barGet s.unit b).failed = false) (hold : bitOf (rd s.unit.base (barCtlAddr b)) 0 = false)
    (hn : bitOf new 0 = true) :
    barCtlOp b be data s = onUnit (fun u => barFresh u b) (onUnit (uB (wr (barCtlAddr b) new)) s) := by
  rw [barCtlOp_of_allowed h hnew hgal hst]
  simp only [hf, hold, hn, Bool.not_false, Bool.and_self, Bool.false_eq_true, if_false, if_true]
theorem barCtlOp_of_closing (hf : (barGet s.unit b).failed = false) (hold : bitOf (rd s.unit.base (barCtlAddr b)) 0 = true)
    (hn : bitOf new 0 = false) : barCtlOp b be data s =
      onUnit (fun u => barPut b { barGet (endEntries b stAborted u) b with st := .disabled } (endEntries b stAborted u))
        (onUnit (uB (wr (barCtlAddr b) new)) s) := by
  rw [barCtlOp_of_allowed h hnew hgal hst]
  simp only [hf, hold, hn, Bool.not_true, Bool.not_false, Bool.and_self, Bool.false_eq_true, if_false, if_true]

end

end

/-- Settles O41: an entry by the member's state, and the deadline, RESET and BAR.CTL by the barrier's. -/
theorem barriersCount : Obligations.BarriersCount := by
  unfold Obligations.BarriersCount
  refine fun r b s => ⟨fun h hr => ⟨fun hcur hnext => ?_, fun hcur hnext => ?_, fun hcur => ?_⟩, fun h hr => ?_,
    fun h hc => exec_barEnter_refused h (barRefusal_of_lacking hc) (by decide) (by decide),
    fun h hc hf => exec_barEnter_refused h (barRefusal_of_failed hc hf) (by decide) (by decide),
    fun h hc hf => ⟨fun hm => exec_barEnter_refused h (barRefusal_of_stranger hc hf hm) (by decide) (by decide),
      fun hm hst => exec_barEnter_refused h (barRefusal_of_disabled hc hf hm hst) (by decide) (by decide),
      fun hm hst => exec_barEnter_refused h (barRefusal_of_stalled hc hf hm hst) (by decide) (by decide)⟩,
    fun h hd => next_of_unitRuns h (barDeadlineOp_of_not_due hd), fun h hd => ⟨_, next_of_unitRuns h rfl, barDeadlineOp_of_due hd⟩,
    fun h hf hst => ?_, fun h hf hst => next_of_unitRuns h (barResetOp_of_hall_wait hf hst),
    fun hoff => congrArg Host.Outcome.next (ifUnitRuns_of_self (barResetOp_of_off hoff)), fun h hc hf hst hzero => ?_,
    fun be data new h hc hnew => ⟨fun hbad => next_of_unitRuns h (barCtlOp_of_forbidden hc hnew hbad),
      fun hgal hst => ⟨fun hsame => next_of_unitRuns h (barCtlOp_of_same hc hnew hgal hst hsame), fun hf hn hold => ?_⟩⟩,
    fun be data hc => congrArg Host.Outcome.next (ifUnitRuns_of_self (barCtlOp_of_lacking hc))⟩
  · obtain ⟨hround, hmem, hother⟩ := entered_rest (r := r) (b := b.toNat) (s := s)
    have hstep : exec (.barEnter r b) s = .next (entered r b.toNat s) := by
      refine (next_of_accepts h).trans (congrArg Host.Outcome.next ?_)
      rw [barEnterOp_of_accepted hr, if_neg (Option.isNone_eq_false_iff.mpr hcur ▸ Bool.false_ne_true), if_pos (Option.isNone_iff_eq_none.mpr hnext)]
    refine ⟨_, hstep, exec_otherSame hstep, ?_, hround, hother⟩
    rw [hmem, memEnter_next hcur hnext]
    simp only [memCode, barRefusal_zero_held hr, Option.isSome_none, Option.isSome_some, Bool.false_eq_true, if_false, if_true]
  · obtain ⟨hround, hmem, hother⟩ := entered_rest (r := r) (b := b.toNat) (s := s)
    have hstep : exec (.barEnter r b) s = .next (barLap b.toNat (entered r b.toNat s)) := by
      refine (next_of_accepts h).trans (congrArg Host.Outcome.next ?_)
      rw [barEnterOp_of_accepted hr, if_neg (Option.isNone_eq_false_iff.mpr hcur ▸ Bool.false_ne_true),
        if_neg (Option.isNone_eq_false_iff.mpr hnext ▸ Bool.false_ne_true)]
    refine ⟨_, hstep, rfl, ?_, hround, hother⟩
    rw [hmem, memEnter_held hcur hnext]
    simp only [memCode, Option.isSome_some, if_true]
  · refine (next_of_accepts h).trans (congrArg Host.Outcome.next ?_)
    rw [barEnterOp_of_accepted hr, if_pos (Option.isNone_iff_eq_none.mpr hcur), entered, memEnter_cur hcur]
  · refine (next_of_accepts h).trans (congrArg Host.Outcome.next ?_)
    rw [barEnterOp_of_refused hr (by decide), if_pos rfl]
  · have hstep := next_of_unitRuns (f := fun s => barResetOp (barSel s.unit) s) h (barResetOp_of_enabled hf hst)
    have hst' : exec .barReset s = _ := hstep
    refine ⟨_, hst', ?_⟩
    simp only [onUnit_unit, barFresh_same, barGet_endEntries_same, onUnit_dist, and_self]
  · have hnew : (1 : Word) = writeFlds [rw 0 3, rw 4 12] true 0xF (rd s.unit.base (barCtlAddr (barSel s.unit))) 1 := by
      rw [hzero]
      decide
    have hopen := barCtlOp_of_opening hc hnew (.inl (by decide)) (by rw [hst]; decide) hf (by rw [hzero]; decide) (by decide)
    refine ⟨_, next_of_unitRuns h hopen, ?_⟩
    simp only [onUnit_unit, barFresh_same, onUnit_dist, and_self]
  · refine ⟨_, next_of_unitRuns h (barCtlOp_of_closing hc hnew hgal hst hf hold hn), ?_⟩
    simp only [onUnit_unit, barGet_barPut_same, barGet_endEntries_same, onUnit_dist, and_self]

/-! ## Flow counters (R332 to R336, R354) -/

section
variable {s : State} {n bit : Nat} {h : Hap} {d : Int}

theorem flowFlag_of_set (hf : rdB s.unit.base (flowFlagAddr n) bit = true) : flowFlag n bit h d s = s := if_pos hf

/-- The machine on which a flag of a pair has been set, counted and logged. -/
def flagged (n bit : Nat) (h : Hap) (s : State) : State :=
  logU h noPort n 0 0 (onUnit (uB fun b => pgEvt 0x0D 0 (inc 0x0D070 (wrB (flowFlagAddr n) bit true b))) s)

theorem flowFlag_of_clear (hf : rdB s.unit.base (flowFlagAddr n) bit = false) : flowFlag n bit h d s =
    let c := rd s.unit.base (flowCtlAddr n)
    let t := if bitOf c 0 && bitOf c 3 then onUnit (uB (occur 74)) (flagged n bit h s) else flagged n bit h s
    if bitOf c 0 && bitOf c 1 then
      onUnit (pushResp 0x22 (fld c 16 10) 0 stOk (releaseOps n 3 0 0 (2 ^ (63 - bit) + wrapBits 48 d))) t
    else t := by
  simp only [flowFlag, hf, Bool.false_eq_true, if_false]
  rfl

theorem flagged_objects : SameObjects s.unit (flagged n bit h s).unit :=
  uB_objects.trans (logU_objects (s := onUnit (uB _) s))
theorem flowFlag_objects : SameObjects s.unit (flowFlag n bit h d s).unit := by
  by_cases hf : rdB s.unit.base (flowFlagAddr n) bit = true
  · rw [flowFlag_of_set hf]
    exact .refl _
  · rw [flowFlag_of_clear (Bool.eq_false_iff.mpr hf)]
    have ht : SameObjects s.unit (if bitOf (rd s.unit.base (flowCtlAddr n)) 0 && bitOf (rd s.unit.base (flowCtlAddr n)) 3 then
        onUnit (uB (occur 74)) (flagged n bit h s) else flagged n bit h s).unit := by
      split
      · exact flagged_objects.trans uB_objects
      · exact flagged_objects
    extract_lets c t
    split
    · exact ht.trans pushResp_objects
    · exact ht
theorem flowCheck_objects : SameObjects s.unit (flowCheck n s).unit := by
  unfold flowCheck
  extract_lets d t
  have ht : SameObjects s.unit t.unit := by
    simp only [t]
    split
    · exact flowFlag_objects
    · exact .refl _
  split
  · exact ht.trans flowFlag_objects
  · exact ht

/-- A pair after an advance. -/
def advanced (prod : Bool) (x : FlowPair) (amount : Nat) : FlowPair :=
  if prod then { x with p := x.p + BitVec.ofNat 48 amount } else { x with c := x.c + BitVec.ofNat 48 amount }

variable {r : Req} {op amount : Nat} {prod : Bool}

theorem advanced_prod {x : FlowPair} {a : BitVec 32} : advanced true x a.toNat = { x with p := x.p + a.setWidth 48 } := by
  simp only [advanced, if_true, BitVec.ofNat_toNat]
theorem advanced_cons {x : FlowPair} {a : BitVec 32} : advanced false x a.toNat = { x with c := x.c + a.setWidth 48 } := by
  simp only [advanced, Bool.false_eq_true, if_false, BitVec.ofNat_toNat]

theorem flowAdvance_of_lacking (hn : flowCap s.unit ≤ n) :
    flowAdvance r op prod n amount s = onUnit (respError r stBadObj n op 0) s := if_pos hn
theorem flowAdvance_of_failed (hn : n < flowCap s.unit) (hf : (flowGet s.unit n).failed = true) :
    flowAdvance r op prod n amount s = onUnit (respError r stObjFailed n op 0) s := by
  simp only [flowAdvance, Nat.not_le.mpr hn, hf, if_false, if_true]
theorem flowAdvance_of_live (hn : n < flowCap s.unit) (hf : (flowGet s.unit n).failed = false) :
    flowAdvance r op prod n amount s = onUnit (respAck r n op 0)
      (flowCheck n (onUnit (flowPut n (advanced prod (flowGet s.unit n) amount)) s)) :=
  (if_neg (Nat.not_le.mpr hn)).trans (if_neg (Bool.eq_false_iff.mp hf))
theorem flowAdvance_pairs (hn : n < flowCap s.unit) (hf : (flowGet s.unit n).failed = false) :
    flowGet (flowAdvance r op prod n amount s).unit n = advanced prod (flowGet s.unit n) amount ∧
    ∀ m, m ≠ n → flowGet (flowAdvance r op prod n amount s).unit m = flowGet s.unit m := by
  rw [flowAdvance_of_live hn hf]
  have ho : SameObjects (flowPut n (advanced prod (flowGet s.unit n) amount) s.unit) _ :=
    (flowCheck_objects (n := n) (s := onUnit (flowPut n (advanced prod (flowGet s.unit n) amount)) s)).trans
      (respAck_objects (r := r) (obj := n) (op := op) (value := 0))
  exact ⟨(ho.flowGet n).trans flowGet_flowPut_same, fun m hm => (ho.flowGet m).trans (flowGet_flowPut_other hm)⟩

theorem objAddr_ne {obj a a' : Nat} (hne : a ≠ a') : objAddr obj a ≠ objAddr obj a' := fun e => hne (Nat.add_right_cancel e)

theorem flowClear_rest {u : UnitState} : flowGet (flowClear n u) n = { flowGet u n with p := 0, c := 0 } ∧
    rd (flowClear n u).base (flowFlagAddr n) = 0 ∧ ∀ m, m ≠ n → flowGet (flowClear n u) m = flowGet u m := by
  refine ⟨flowGet_flowPut_same, ?_, fun m hm => flowGet_flowPut_other hm⟩
  show rd (wr (objAddr n 0x0D06C) 0 (wr (flowFlagAddr n) 0 u.base)) (flowFlagAddr n) = 0
  have hne : flowFlagAddr n ≠ objAddr n 0x0D06C := objAddr_ne (by decide)
  rw [rd_wr_other hne, rd_wr_same]

theorem rd64_wr64_other {b : Base} {a a' : Nat} {v : BitVec 64} (h0 : a' ≠ a) (h1 : a' ≠ a + 4) (h2 : a' + 4 ≠ a) :
    rd64 (wr64 a v b) a' = rd64 b a' := by
  simp only [rd64, wr64]
  rw [rd_wr_other (by omega), rd_wr_other h2, rd_wr_other h1, rd_wr_other h0]
theorem rd64_wrB_other {b : Base} {a a' i : Nat} {v : Bool} (h0 : a' ≠ a) (h1 : a' + 4 ≠ a) :
    rd64 (wrB a i v b) a' = rd64 b a' := by
  rw [rd64, rd_wrB_other h0, rd_wrB_other h1, rd64]

theorem flowView_rest {u : UnitState} : (flowView u).flows = u.flows ∧
    rd64 (flowView u).base 0x0D054 = (flowGet u (flowSel u)).p.setWidth 64 ∧
    rd64 (flowView u).base 0x0D05C = (flowGet u (flowSel u)).c.setWidth 64 := by
  have hview : flowView u = uB (fun b => wrB 0x0D068 0 (flowGet u (flowSel u)).failed
      (wr64 0x0D05C ((flowGet u (flowSel u)).c.setWidth 64) (wr64 0x0D054 ((flowGet u (flowSel u)).p.setWidth 64) b))) u := by
    unfold flowView
    rfl
  rw [hview, uB_base, rd64_wrB_other (by decide) (by decide), rd64_wrB_other (by decide) (by decide),
    rd64_wr64_other (by decide) (by decide) (by decide), rd64_wr64, rd64_wr64]
  exact ⟨uB_flows, rfl, rfl⟩

end

/-- Settles O42: an advance changes its pair before the bounds are checked, and a check changes no pair. -/
theorem flowsAdvance : Obligations.FlowsAdvance := by
  unfold Obligations.FlowsAdvance
  refine ⟨fun r n a s => ⟨fun hn hf => ⟨fun h => ?_, fun h => ?_⟩, fun hn =>
      ⟨fun h => (next_of_accepts h).trans (congrArg Host.Outcome.next (flowAdvance_of_lacking hn)),
       fun h => (next_of_accepts h).trans (congrArg Host.Outcome.next (flowAdvance_of_lacking hn))⟩, fun hn hf =>
      ⟨fun h => (next_of_accepts h).trans (congrArg Host.Outcome.next (flowAdvance_of_failed hn hf)),
       fun h => (next_of_accepts h).trans (congrArg Host.Outcome.next (flowAdvance_of_failed hn hf))⟩⟩,
    fun s h => ⟨?_, ⟨onUnit flowView s, next_of_unitRuns h rfl, flowView_rest⟩⟩,
    fun n bit h d s => ⟨flowFlag_of_set, fun L hL c hc hf => ?_⟩⟩
  · have hstep : exec (.flwProd r n a) s = .next (flowAdvance r 0x0A true n.toNat a.toNat s) := next_of_accepts h
    obtain ⟨hpair, hother⟩ := flowAdvance_pairs (r := r) (op := 0x0A) (prod := true) (amount := a.toNat) hn hf
    exact ⟨_, hstep, exec_otherSame hstep, hpair.trans advanced_prod, hother⟩
  · have hstep : exec (.flwCons r n a) s = .next (flowAdvance r 0x0B false n.toNat a.toNat s) := next_of_accepts h
    obtain ⟨hpair, hother⟩ := flowAdvance_pairs (r := r) (op := 0x0B) (prod := false) (amount := a.toNat) hn hf
    exact ⟨_, hstep, exec_otherSame hstep, hpair.trans advanced_cons, hother⟩
  · obtain ⟨hpair, hflag, hother⟩ := flowClear_rest (n := flowSel s.unit) (u := s.unit)
    exact ⟨onUnit (fun u => flowClear (flowSel u) u) s, next_of_unitRuns h rfl, rfl, hpair, hflag, hother⟩
  · have hflag : flagged n bit h s = L := hL.symm
    rw [flowFlag_of_clear hf, hflag, ← hc]
    refine ⟨fun hoff => ?_, fun h0 h3 h1 => ?_, fun h0 h3 h1 => ?_, fun h0 h3 h1 => ?_⟩
    · rcases hoff with h0 | ⟨h3, h1⟩
      · simp only [h0, Bool.false_and, Bool.false_eq_true, if_false]
      · simp only [h3, h1, Bool.and_false, Bool.false_eq_true, if_false]
    · simp only [h0, h3, h1, Bool.and_false, Bool.and_self, Bool.false_eq_true, if_false, if_true]
    · simp only [h0, h3, h1, Bool.and_false, Bool.and_self, Bool.false_eq_true, if_false, if_true]
    · simp only [h0, h3, h1, Bool.and_self, if_true]

end Sys2Proof.Proofs
end

section
/-! PROOFS. The fence tracker, the deadlock detector, the context clear and retired objects (R303 to R306, R336 to R352). -/

namespace Sys2Proof.Proofs

open Sys2Proof Sys2Proof.Machine

/-! ## What the semaphores' operations leave of the objects -/

section
variable {u v w : UnitState} {s : State} {n : Nat}

theorem injTouch_objects {mem key : Nat} : SameObjects u (injTouch mem key u) :=
  .ite (.ite ⟨rfl, rfl, rfl, rfl⟩ ⟨rfl, rfl, rfl, rfl⟩) (.refl u)
theorem injWrite_objects {mem key : Nat} : SameObjects u (injWrite mem key u) := by
  refine (injTouch_objects (mem := mem) (key := key)).trans ?_
  unfold injWrite
  extract_lets u'
  split
  · exact .ite ⟨rfl, rfl, rfl, rfl⟩ (.refl _)
  · exact .refl _
theorem onSems_objects {f : Sems → Sems} : SameObjects u (onSems f u) := ⟨rfl, rfl, rfl, rfl⟩
theorem watchNote_objects {full : Bool} : SameObjects u (watchNote full u) := by
  unfold watchNote
  extract_lets u'
  have h : SameObjects u u' := .ite ⟨rfl, rfl, rfl, rfl⟩ (.refl u)
  exact h.trans (.ite (.ite (.refl _) ⟨rfl, rfl, rfl, rfl⟩) ⟨rfl, rfl, rfl, rfl⟩)
theorem touchWaits_objects : SameObjects u (touchWaits n u) := .ite injTouch_objects (.refl u)
theorem dropWaits_objects {keep : Wait → Bool} : SameObjects u (dropWaits keep u) := onSems_objects.trans watchNote_objects
theorem semPut_objects {x : SemWord} : SameObjects u (semPut n x u) := onSems_objects.trans injWrite_objects
theorem foldl_objects {α : Type} {f : UnitState → α → UnitState} (hf : ∀ v a, SameObjects v (f v a)) (l : List α) :
    SameObjects u (l.foldl f u) :=
  List.foldlRecOn (motive := fun v : UnitState => SameObjects u v) _ _ (.refl u) fun _ hv a _ => hv.trans (hf _ a)
theorem walkTake_objects : SameObjects u (walkTake n u) := by
  unfold walkTake
  extract_lets v x r
  have hv : SameObjects u v := touchWaits_objects
  split
  · exact hv
  · exact hv.trans (semPut_objects.trans ((onSems_objects.trans watchNote_objects).trans
      (foldl_objects (fun _ _ => pushResp_objects) _)))
theorem walk_objects : SameObjects u (walk n u) :=
  touchWaits_objects.trans (dropWaits_objects.trans (walkTake_objects.trans (foldl_objects (fun _ _ => pushResp_objects) _)))
theorem sumpAdd_objects {src : Nat} {remote lo : Bool} {excess : Nat} : SameObjects s.unit (sumpAdd n src remote lo excess s).unit := by
  unfold sumpAdd
  extract_lets u r empty s'
  split
  · exact uB_objects
  · split
    · exact SameObjects.trans (v := (onUnit (uB fun b => occur 72 (pgEvt 0x0A 0 b)) s').unit) ⟨rfl, rfl, rfl, rfl⟩ logU_objects
    · exact onSems_objects (u := s.unit) (f := fun q => { q with sump := q.sump ++ [r] })
theorem semAddVal_objects {a src : Nat} {remote mgmt : Bool} : SameObjects s.unit (semAddVal n a src remote mgmt s).unit := by
  unfold semAddVal
  extract_lets u x sum y x' s'
  have h : SameObjects s.unit s'.unit := injTouch_objects.trans semPut_objects
  split
  · exact h.trans sumpAdd_objects
  · exact h
theorem semSignal_objects {a src : Nat} {remote mgmt : Bool} : SameObjects s.unit (semSignal n a src remote mgmt s).unit :=
  semAddVal_objects.trans walk_objects

end

/-! ## The fence tracker (R337 to R345) -/

section
variable {s t : State} {src tag : BitVec 16} {p : Nat} {x : FncPair}

theorem fncPair_of_found (h : fncFind s.unit src tag = some (p, x)) : fncPair src tag s = (some p, s) := by
  simp only [fncPair, h]
theorem fncPair_of_new (h : fncFind s.unit src tag = none) (hf : fncFree s.unit = some p) :
    fncPair src tag s = (some p, onUnit (fncPut p (some { src := src, tag := tag, drained := 0 })) s) := by
  simp only [fncPair, h, hf]
theorem fncPair_of_full (h : fncFind s.unit src tag = none) (hf : fncFree s.unit = none) :
    fncPair src tag s = (none, fncOver src tag s) := by
  simp only [fncPair, h, hf]

@[simp] theorem fncGet_fncPut_same {u : UnitState} {y : Option FncPair} : fncGet (fncPut p y u) p = y := tabGet_tabSet_same _ _ _ _
theorem fncGet_onHeld {u : UnitState} {k : Fence → List FncSig} {q : Nat} :
    fncGet (onFnc (fun f => { f with held := k f }) u) q = fncGet u q := rfl
theorem fncBad_fncPut {u : UnitState} {y : Option FncPair} {q : Nat} : fncBad (fncPut p y u) q = fncBad u q := rfl
theorem fncDrained_of_get {u : UnitState} (h : fncGet u p = some x) : fncDrained u p = x.drained := by simp only [fncDrained, h]
theorem fncFree_not_bad {u : UnitState} (h : fncFree u = some p) : fncBad u p = false := by
  have hp := List.find?_some h
  rw [Bool.and_eq_true] at hp
  simpa using hp.2

variable {wcount amount : BitVec 32} {sem : BitVec 16}

theorem fenceSignalOp_of_not_ready (h : fncReady s.unit = false) : fenceSignalOp src tag wcount sem amount s = s := by
  simp only [fenceSignalOp, h, Bool.not_false, if_true]
theorem fenceSignalOp_of_full (h : fncReady s.unit = true) (hp : fncPair src tag s = (none, t)) :
    fenceSignalOp src tag wcount sem amount s = onUnit (fncCount 1) t := by
  simp only [fenceSignalOp, h, hp, Bool.not_true, Bool.false_eq_true, if_false]
theorem fenceSignalOp_of_bad (h : fncReady s.unit = true) (hp : fncPair src tag s = (some p, t)) (hb : fncBad t.unit p = true) :
    fenceSignalOp src tag wcount sem amount s = onUnit (fncCount 1) t := by
  simp only [fenceSignalOp, h, hp, hb, Bool.not_true, Bool.false_eq_true, if_false, if_true]

/-- A signal of a stream as the tracker takes it. -/
def newSig (p : Nat) (src tag : BitVec 16) (wcount : BitVec 32) (sem : BitVec 16) (amount : BitVec 32) (t : State) : FncSig :=
  { pair := p, src := src, tag := tag, wcount := wcount, sem := sem, amount := amount, at_ := t.unit.base.tick, logged := false }

section
variable (h : fncReady s.unit = true) (hp : fncPair src tag s = (some p, t)) (hb : fncBad t.unit p = false) (hx : fncGet t.unit p = some x)
include h hp hb hx

theorem fenceSignalOp_of_covered (hc : (x.drained - wcount).toNat < 2 ^ 31) :
    fenceSignalOp src tag wcount sem amount s = fncApply (newSig p src tag wcount sem amount t) t := by
  have hcov : fncCovered t.unit (newSig p src tag wcount sem amount t) = true := by
    simp only [fncCovered, newSig, fncDrained_of_get hx, hc, decide_true]
  simp only [fenceSignalOp, h, hp, hb, Bool.not_true, Bool.false_eq_true, if_false]
  exact if_pos hcov
theorem fenceSignalOp_of_held (hc : 2 ^ 31 ≤ (x.drained - wcount).toNat) : fenceSignalOp src tag wcount sem amount s =
    onUnit (onFnc fun f => { f with held := f.held ++ [newSig p src tag wcount sem amount t] }) t := by
  have hcov : ¬ fncCovered t.unit (newSig p src tag wcount sem amount t) = true := by
    simp only [fncCovered, newSig, fncDrained_of_get hx, Nat.not_lt.mpr hc, decide_false, Bool.false_eq_true, not_false_eq_true]
  simp only [fenceSignalOp, h, hp, hb, Bool.not_true, Bool.false_eq_true, if_false]
  exact if_neg hcov

end

variable {delta : BitVec 16}

theorem drainOp_of_clearing (h : s.unit.sems.clearing.isSome = true) : drainOp src tag delta s = s := if_pos h
theorem drainOp_of_full (h : s.unit.sems.clearing = none) (hp : fncPair src tag s = (none, t)) : drainOp src tag delta s = t := by
  simp only [drainOp, h, hp, Option.isSome_none, Bool.false_eq_true, if_false]
theorem drainOp_of_bad (hp : fncPair src tag s = (some p, s)) (hb : fncBad s.unit p = true) : drainOp src tag delta s = s := by
  simp only [drainOp, hp, hb, if_true, ite_self]

/-- The machine on which the pair `p` holds DRAINED `d` and the signals that it covers are held no more. -/
def drainedTo (p : Nat) (src tag : BitVec 16) (d : BitVec 32) (t : State) : State :=
  onUnit (onFnc fun f => { f with held := f.held.filter fun g => !(g.pair == p && decide ((d - g.wcount).toNat < 2 ^ 31)) })
    (onUnit (fncPut p (some { src := src, tag := tag, drained := d })) t)

theorem fncApply_fnc {g : FncSig} : (fncApply g s).unit.fnc.pairs = s.unit.fnc.pairs ∧ (fncApply g s).unit.fnc.held = s.unit.fnc.held := by
  unfold fncApply
  extract_lets n
  split
  · exact ⟨rfl, rfl⟩
  · have h : ∀ f : Base → Base, (onUnit (uB f) s).unit.fnc = s.unit.fnc := fun _ => rfl
    split
    · have hl : (logU uObjRetired noPort n 0 0 (onUnit (fncCount 1) s)).unit.fnc = s.unit.fnc := logU_fnc ..
      exact ⟨congrArg Fence.pairs hl, congrArg Fence.held hl⟩
    · have hs := (semSignal_objects (s := onUnit (uB (inc 0x0E060)) s) (n := n) (a := g.amount.toNat) (src := g.src.toNat)
        (remote := true) (mgmt := false)).fnc
      exact ⟨congrArg Fence.pairs hs, congrArg Fence.held hs⟩

/-- The signals that a drain report applies, in the order of R342. -/
def drainCovers (p : Nat) (d : BitVec 32) (l : List FncSig) : List FncSig :=
  (l.filter fun g => g.pair == p && decide ((d - g.wcount).toNat < 2 ^ 31)).foldl (fun l g => fncInsert d g l) []

theorem filter_not_mem_filter (q : FncSig → Bool) (l : List FncSig) :
    (l.filter fun g => !(l.filter q).contains g) = l.filter fun g => !q g := by
  refine List.filter_congr fun g hg => ?_
  cases hq : q g
  · simp [hq]
  · simp [hq, hg]

theorem fncCovered_fncPut {u : UnitState} {d : BitVec 32} :
    (fun g : FncSig => g.pair == p && fncCovered (fncPut p (some { src := src, tag := tag, drained := d }) u) g) =
      fun g => g.pair == p && decide ((d - g.wcount).toNat < 2 ^ 31) := by
  funext g
  by_cases hg : g.pair = p
  · simp only [fncCovered, hg, fncDrained_of_get fncGet_fncPut_same]
  · simp only [beq_eq_false_iff_ne.mpr hg, Bool.false_and]

theorem drainOp_of_pair (h : s.unit.sems.clearing = none) (hp : fncPair src tag s = (some p, t)) (hb : fncBad t.unit p = false) :
    drainOp src tag delta s = (drainCovers p (fncDrained t.unit p + delta.setWidth 32) t.unit.fnc.held).foldl (fun s g => fncApply g s)
      (drainedTo p src tag (fncDrained t.unit p + delta.setWidth 32) t) := by
  simp only [drainOp, h, hp, hb, Option.isSome_none, Bool.false_eq_true, if_false, onUnit_unit, fncCovered_fncPut]
  exact congrArg (fun w => List.foldl (fun s g => fncApply g s) w _) (onUnit_congr (congrArg
    (fun l => onFnc (fun f => { f with held := l }) (fncPut p (some ⟨src, tag, fncDrained t.unit p + delta.setWidth 32⟩) t.unit))
    (filter_not_mem_filter _ t.unit.fnc.held)))

theorem fncApply_fold {l : List FncSig} : (l.foldl (fun s g => fncApply g s) t).unit.fnc.pairs = t.unit.fnc.pairs ∧
    (l.foldl (fun s g => fncApply g s) t).unit.fnc.held = t.unit.fnc.held :=
  List.foldlRecOn (motive := fun w : State => w.unit.fnc.pairs = t.unit.fnc.pairs ∧ w.unit.fnc.held = t.unit.fnc.held) _ _ ⟨rfl, rfl⟩
    fun _ hw _ _ => ⟨fncApply_fnc.1.trans hw.1, fncApply_fnc.2.trans hw.2⟩

/-- What a drain report leaves of the tracker, and of the rest where nothing is held. -/
theorem drainOp_rest (h : s.unit.sems.clearing = none) (hp : fncPair src tag s = (some p, t)) (hb : fncBad t.unit p = false) :
    fncGet (drainOp src tag delta s).unit p =
      some { src := src, tag := tag, drained := fncDrained t.unit p + delta.setWidth 32 } ∧
    (drainOp src tag delta s).unit.fnc.held = (t.unit.fnc.held.filter fun g =>
      !(g.pair == p && decide ((fncDrained t.unit p + delta.setWidth 32 - g.wcount).toNat < 2 ^ 31))) ∧
    (t.unit.fnc.held = [] → (drainOp src tag delta s).unit.base = t.unit.base ∧ (drainOp src tag delta s).unit.sems = t.unit.sems) := by
  rw [drainOp_of_pair h hp hb]
  refine ⟨?_, fncApply_fold.2, fun hheld => ?_⟩
  · simp only [fncGet, fncApply_fold.1]
    exact fncGet_onHeld.trans (fncGet_fncPut_same (u := t.unit))
  · rw [hheld]
    exact ⟨rfl, rfl⟩

/-- A held signal after FNC_TIMEOUT has looked at it. -/
def marked (u : UnitState) (g : FncSig) : FncSig := if fncLate u g then { g with logged := true } else g

theorem map_marked_of_none {u : UnitState} {l : List FncSig} (h : ∀ g ∈ l, fncLate u g = false) : l.map (marked u) = l :=
  List.map_congr_left (fun g hg => if_neg (Bool.eq_false_iff.mp (h g hg))) |>.trans (List.map_id l)

theorem fncTimeoutOp_eq : fncTimeoutOp s = ((fncHeld s.unit).filter (fncLate s.unit)).foldl
    (fun s g => logU uFncTimeout noPort g.pair 0 0 (onUnit (uB fun b => pgEvt 0x0E 1 (inc 0x0E068 b)) s))
    (onUnit (onFnc fun f => { f with held := f.held.map (marked s.unit), covered := f.covered.map (marked s.unit) }) s) := rfl
theorem fncTimeoutOp_of_none (h : ∀ g ∈ fncHeld s.unit, fncLate s.unit g = false) : fncTimeoutOp s = s := by
  have hlate : (fncHeld s.unit).filter (fncLate s.unit) = [] :=
    List.filter_eq_nil_iff.mpr fun g hg => Bool.eq_false_iff.mp (h g hg)
  rw [fncTimeoutOp_eq, hlate, List.foldl_nil]
  refine onUnit_of_self ?_
  simp only [onFnc, map_marked_of_none fun g hg => h g (List.mem_append_left _ hg),
    map_marked_of_none fun g hg => h g (List.mem_append_right _ hg)]
theorem fncTimeoutOp_of_one {g : FncSig} (hh : s.unit.fnc.held = [g]) (hc : s.unit.fnc.covered = []) (h : fncLate s.unit g = true) :
    fncTimeoutOp s = logU uFncTimeout noPort g.pair 0 0 (onUnit (uB fun b => pgEvt 0x0E 1 (inc 0x0E068 b))
      (onUnit (onFnc fun f => { f with held := [{ g with logged := true }] }) s)) := by
  have hlate : (fncHeld s.unit).filter (fncLate s.unit) = [g] := by
    rw [fncHeld, hh, hc, List.append_nil, List.filter_cons_of_pos h, List.filter_nil]
  have hmark : marked s.unit g = { g with logged := true } := if_pos h
  rw [fncTimeoutOp_eq, hlate, List.foldl_cons, List.foldl_nil]
  refine congrArg (fun t => logU uFncTimeout noPort g.pair 0 0 (onUnit (uB fun b => pgEvt 0x0E 1 (inc 0x0E068 b)) t)) (onUnit_congr ?_)
  simp only [onFnc, hh, hc, List.map_cons, List.map_nil, hmark]

end

/-- Settles O43: a signal and a drain report by the pair of their stream, the other commands by their branch. -/
theorem fencesHold : Obligations.FencesHold := by
  unfold Obligations.FencesHold
  refine fun s src tag h => ⟨fun p x hfind hx => ⟨fun hb => ⟨fun wcount sem amount hr hc => ?_, fun wcount sem amount hr hc => ?_,
      fun delta hc => ?_⟩, fun hb => ⟨fun wcount sem amount hr => ?_, fun delta => ?_⟩⟩,
    fun p hnone hfree => ⟨fun delta hc hheld => ?_, fun wcount sem amount hr hc => ?_⟩, fun hnone hfull =>
      ⟨fun wcount sem amount hr => next_of_unitRuns h (fenceSignalOp_of_full hr (fncPair_of_full hnone hfull)), fun delta hc =>
        next_of_unitRuns h (drainOp_of_full hc (fncPair_of_full hnone hfull))⟩,
    fun wcount sem amount hr => next_of_unitRuns h (fenceSignalOp_of_not_ready hr), fun delta hc => next_of_unitRuns h (drainOp_of_clearing hc),
    fun hno => next_of_unitRuns h (fncTimeoutOp_of_none hno), fun g hh hc hl => next_of_unitRuns h (fncTimeoutOp_of_one hh hc hl),
    next_of_unitRuns h rfl, next_of_unitRuns h rfl, fun ready hw => next_of_unitRuns h (if_pos hw),
    fun ready hw => next_of_unitRuns h (if_neg (Bool.eq_false_iff.mp hw))⟩
  · exact next_of_unitRuns h (fenceSignalOp_of_held hr (fncPair_of_found hfind) hb hx hc)
  · exact next_of_unitRuns h (fenceSignalOp_of_covered hr (fncPair_of_found hfind) hb hx hc)
  · have hstep : exec (.drainReport src tag delta) s = .next (drainOp src tag delta s) := next_of_unitRuns h rfl
    have hrest := drainOp_rest (delta := delta) hc (fncPair_of_found hfind) hb
    rw [fncDrained_of_get hx] at hrest
    exact ⟨_, hstep, exec_otherSame hstep, hrest⟩
  · exact next_of_unitRuns h (fenceSignalOp_of_bad hr (fncPair_of_found hfind) hb)
  · exact next_of_unitRuns h (drainOp_of_bad (fncPair_of_found hfind) hb)
  · have hstep : exec (.drainReport src tag delta) s = .next (drainOp src tag delta s) := next_of_unitRuns h rfl
    obtain ⟨hget, -, hrest⟩ := drainOp_rest (delta := delta) hc (fncPair_of_new hnone hfree)
      (fncBad_fncPut.trans (fncFree_not_bad hfree))
    have hd : fncDrained (fncPut p (some { src := src, tag := tag, drained := 0 }) s.unit) p = 0 := fncDrained_of_get fncGet_fncPut_same
    rw [onUnit_unit, hd] at hget
    exact ⟨_, hstep, exec_otherSame hstep, hget.trans (congrArg (fun d => some (FncPair.mk src tag d)) (BitVec.zero_add _)), hrest hheld⟩
  · have hstep := next_of_unitRuns h (fenceSignalOp_of_held (sem := sem) (amount := amount) hr (fncPair_of_new hnone hfree)
      (fncBad_fncPut.trans (fncFree_not_bad hfree)) fncGet_fncPut_same hc)
    exact ⟨_, newSig p src tag wcount sem amount s, hstep, rfl, fncGet_onHeld.trans fncGet_fncPut_same, rfl, rfl, rfl, rfl, rfl⟩

/-! ## The deadlock detector (R346 to R350) -/

section
variable {s : State}

/-- The entries of a snapshot, one for each core that has something to show. -/
theorem tabGet_snapshot {f : Nat → BitVec 64} {l : List Nat} {c : Nat} (hl : l.Nodup) :
    tabGet 0 c (l.foldr (fun c (t : Tab (BitVec 64)) => if f c = 0 then t else (c, f c) :: t) []) = if c ∈ l then f c else 0 := by
  induction l with
  | nil => rfl
  | cons d l ih =>
    obtain ⟨hd, hl⟩ := List.nodup_cons.mp hl
    have hl' := ih hl
    rw [List.foldr_cons]
    by_cases hcd : c = d
    · subst hcd
      rw [if_neg hd] at hl'
      rw [if_pos List.mem_cons_self]
      split
      · rename_i hz
        rw [hl', hz]
      · simp [tabGet]
    · have hmem : c ∈ d :: l ↔ c ∈ l := by simp [hcd]
      simp only [hmem]
      rw [← hl']
      split
      · rfl
      · simp [tabGet, Ne.symm hcd]

/-- The snapshot of every core. -/
def snapshot (u : UnitState) : Tab (BitVec 64) :=
  (List.range (cfgOf u.base).cores).foldr (fun c (t : Tab (BitVec 64)) => if dlkEntry u c = 0 then t else (c, dlkEntry u c) :: t) []

theorem deadlockOp_of_due (ha : s.unit.dlk.armed = true) (hw : rd s.unit.base 0x12040 ≠ 0)
    (hq : (rd s.unit.base 0x12040).toNat ≤ s.unit.dlk.before) : deadlockOp s =
      logU uDeadlock noPort 0 0 0 (onUnit (fun u => uB (fun b => occur 75 (pgEvt 0x12 0 (inc 0x12064 (wr64 0x12050 (nsNow b) b))))
        { u with dlk := { u.dlk with snap := snapshot s.unit, fired := true, armed := false } }) s) := by
  have hw' : (rd s.unit.base 0x12040).toNat ≠ 0 := fun e => hw (BitVec.eq_of_toNat_eq e)
  have hcond : (s.unit.dlk.armed && decide ((rd s.unit.base 0x12040).toNat ≠ 0) &&
      decide ((rd s.unit.base 0x12040).toNat ≤ s.unit.dlk.before)) = true := by
    rw [ha, decide_eq_true hw', decide_eq_true hq]
    rfl
  exact if_pos hcond
theorem deadlockOp_of_not (h : s.unit.dlk.armed = false ∨ rd s.unit.base 0x12040 = 0 ∨
    s.unit.dlk.before < (rd s.unit.base 0x12040).toNat) : deadlockOp s = s := by
  refine if_neg ?_
  rcases h with h | h | h
  · simp [h]
  · simp [h]
  · simp [Nat.not_le.mpr h]

end

/-- Settles O44: the detector's one condition, and the snapshot by the list of cores. -/
theorem deadlockDetector : Obligations.DeadlockDetector := by
  unfold Obligations.DeadlockDetector
  refine fun s h => ⟨⟨_, next_of_unitRuns h rfl, rfl, rfl, rfl, rfl⟩, fun ha hw hq => ?_, fun hno => next_of_unitRuns h (deadlockOp_of_not hno)⟩
  have hstep := next_of_unitRuns h (deadlockOp_of_due ha hw hq)
  have hstep' : exec .deadlock s = _ := hstep
  refine ⟨_, hstep', ?_⟩
  simp only [logU_dlk, logU_sems, onUnit_unit, uB_dlk, uB_sems, true_and]
  refine ⟨fun c hc => ?_, exec_otherSame hstep'⟩
  rw [snapshot, tabGet_snapshot List.nodup_range, if_pos (List.mem_range.mpr hc)]

end Sys2Proof.Proofs
end

section
/-! PROOFS. The context clear and retired objects (R303 to R306, R336, R351). -/

namespace Sys2Proof.Proofs

open Sys2Proof Sys2Proof.Machine

/-! ## The queue of waits, the retired semaphores and CLEARING -/

/-- A unit whose queue of waits, retired semaphores and CLEARING are those of another. -/
structure SamePool (u v : UnitState) : Prop where
  waits : v.sems.waits = u.sems.waits
  retired : v.sems.retired = u.sems.retired
  clearing : v.sems.clearing = u.sems.clearing

section
variable {u v w : UnitState} {s t : State} {n b : Nat}

theorem SamePool.refl (u : UnitState) : SamePool u u := ⟨rfl, rfl, rfl⟩
theorem SamePool.trans (h : SamePool u v) (k : SamePool v w) : SamePool u w :=
  ⟨k.waits.trans h.waits, k.retired.trans h.retired, k.clearing.trans h.clearing⟩
theorem SameWatches.pool (h : SameWatches u v) : SamePool u v := ⟨h.waits, h.retired, h.clearing⟩
theorem SemChanged.pool {x : SemWord} (h : SemChanged n x u v) : SamePool u v := ⟨h.waits, h.retired, h.clearing⟩
theorem samePool_of_sems (h : v.sems = u.sems) : SamePool u v := ⟨by rw [h], by rw [h], by rw [h]⟩

/-- A fold whose steps keep the pool while no one waits. -/
theorem foldl_pool {α : Type} {f : State → α → State} (hf : ∀ x a, x.unit.sems.waits = [] → SamePool x.unit (f x a).unit)
    (h : s.unit.sems.waits = []) (l : List α) : SamePool s.unit (l.foldl f s).unit :=
  List.foldlRecOn (motive := fun x : State => SamePool s.unit x.unit) _ _ (.refl _) fun x hx a _ =>
    hx.trans (hf x a (hx.waits.trans h))
theorem foldl_unit_pool {α : Type} {f : UnitState → α → UnitState} (hf : ∀ v a, SamePool v (f v a)) (l : List α) :
    SamePool u (l.foldl f u) :=
  List.foldlRecOn (motive := fun v : UnitState => SamePool u v) _ _ (.refl _) fun v hv a _ => hv.trans (hf v a)

theorem logU_pool {h : Hap} {port obj uid aux : Nat} : SamePool s.unit (logU h port obj uid aux s).unit :=
  samePool_of_sems (logU_sems ..)
theorem semSignal_pool {a src : Nat} {remote mgmt : Bool} (h : s.unit.sems.waits = []) :
    SamePool s.unit (semSignal n a src remote mgmt s).unit := by
  obtain ⟨last, hadd⟩ := semAddVal_changed (s := s) (n := n) (a := a) (src := src) (remote := remote) (mgmt := mgmt)
  exact hadd.pool.trans (walk_of_none (n := n) (by rw [hadd.waits, h]; exact fun w hw => absurd hw List.not_mem_nil)).pool

/-! ## Rounds and operations that complete (R326, R381) -/

theorem releaseMems_pool {status : Nat} {lost : Bool} {sel : BarMem → Option BarEnt} {x : Barrier} :
    SamePool u (releaseMems b status lost sel x u) := by
  refine foldl_unit_pool (fun v m => ?_) _
  split
  · exact pushResp_watches.pool
  · exact .refl _
theorem endEntries_pool {status : Nat} : SamePool u (endEntries b status u) := by
  have h : SamePool u (endedEntries b status u) := (releaseMems_pool.trans releaseMems_pool).trans releaseMems_pool
  exact h.trans (samePool_of_sems (v := endEntries b status u) rfl)
theorem barFresh_pool : SamePool u (barFresh u b) := samePool_of_sems rfl
theorem flowFlag_pool {bit : Nat} {h : Hap} {d : Int} : SamePool s.unit (flowFlag n bit h d s).unit := by
  by_cases hf : rdB s.unit.base (flowFlagAddr n) bit = true
  · rw [flowFlag_of_set hf]
    exact .refl _
  · have hflag : SamePool s.unit (flagged n bit h s).unit :=
      samePool_of_sems ((logU_sems h noPort n 0 0 _).trans rfl)
    rw [flowFlag_of_clear (Bool.eq_false_iff.mpr hf)]
    extract_lets c t
    have ht : SamePool s.unit t.unit := by
      simp only [t]
      split
      · exact hflag.trans (samePool_of_sems rfl)
      · exact hflag
    split
    · exact ht.trans pushResp_watches.pool
    · exact ht
theorem flowAlign1_pool : SamePool s.unit (flowAlign1 b n s).unit := by
  unfold flowAlign1
  extract_lets u c x chk d s1 s2
  split
  · exact (samePool_of_sems (u := s.unit) (v := s2.unit) rfl).trans flowFlag_pool
  · exact .refl _
theorem completeRound_pool {status : Nat} {lost : Bool} (h : s.unit.sems.waits = []) :
    SamePool s.unit (completeRound b status lost s).unit := by
  unfold completeRound
  extract_lets z x s1 mems y s2
  have hs : SamePool s.unit s2.unit := (releaseMems_pool (x := x)).trans (samePool_of_sems (u := s1.unit) rfl)
  split
  · exact hs.trans (foldl_pool (fun _ _ _ => flowAlign1_pool) (hs.waits.trans h) _)
  · exact hs
theorem hallSettle_pool {st : Nat} (h : s.unit.sems.waits = []) : SamePool s.unit (hallSettle b st s).unit := by
  unfold hallSettle
  split
  · split
    · exact completeRound_pool h
    · split
      · exact (completeRound_pool h).trans logU_pool
      · exact (completeRound_pool h).trans logU_pool
  · exact .refl _

theorem bufDone_pool {o : CmbOp} {cst : Nat} {repro domb : Bool} {pl : List (BitVec 64)} :
    SamePool u (bufDone o cst repro domb pl u) := by
  unfold bufDone
  split
  · exact (samePool_of_sems (u := u) (v := bufPut o.buf _ u) rfl).trans injWrite_watches.pool
  · exact .refl _
theorem releaseCmb_pool {o : CmbOp} {cst : Nat} {repro domb : Bool} : SamePool u (releaseCmb o cst repro domb u) := by
  unfold releaseCmb
  extract_lets data m
  split
  · exact samePool_of_sems rfl
  · exact ⟨rfl, rfl, rfl⟩
theorem completeOp_pool {o : CmbOp} {cst : Nat} {repro domb : Bool} {pl : List (BitVec 64)} (h : s.unit.sems.waits = []) :
    SamePool s.unit (completeOp o cst repro domb pl s).unit := by
  unfold completeOp
  extract_lets s1 s2 s3
  have h1 : SamePool s.unit s1.unit := ((samePool_of_sems (u := s.unit) (v := opDrop o.gallery o.gseq s.unit) rfl).trans
    bufDone_pool).trans (samePool_of_sems rfl)
  have h2 : SamePool s.unit s2.unit := by
    simp only [s2]
    split
    · exact h1.trans (semSignal_pool (h1.waits.trans h))
    · exact h1
  have h3 : SamePool s.unit s3.unit := by
    simp only [s3]
    split
    · exact h2.trans releaseCmb_pool
    · exact h2
  split
  · exact h3.trans (hallSettle_pool (h3.waits.trans h))
  · exact h3

theorem settleStep_pool {g : Nat} (h : s.unit.sems.waits = []) (ht : settleStep g s = some t) : SamePool s.unit t.unit := by
  unfold settleStep at ht
  split at ht
  · split at ht
    · rw [← Option.some.inj ht]
      exact (samePool_of_sems (u := s.unit) (v := (onUnit (uB _) s).unit) rfl).trans (completeOp_pool (s := onUnit (uB _) s) h)
    · cases ht
  · split at ht
    · split at ht
      · rw [← Option.some.inj ht]
        exact completeOp_pool h
      · cases ht
    · cases ht
theorem settleGal_pool {k g : Nat} (h : s.unit.sems.waits = []) : SamePool s.unit (settleGal k g s).unit := by
  induction k generalizing s with
  | zero => exact .refl _
  | succ k ih =>
    unfold settleGal
    split
    · rename_i s' hs'
      have hstep := settleStep_pool h hs'
      exact hstep.trans (ih (hstep.waits.trans h))
    · exact .refl _
theorem setStale_pool {g : Nat} {x : Bool} : SamePool u (setStale g x u) := by
  unfold setStale
  extract_lets u'
  split
  · exact samePool_of_sems rfl
  · exact samePool_of_sems rfl
theorem clientClear_pool (h : s.unit.sems.waits = []) : SamePool s.unit (clientClear s).unit := by
  unfold clientClear
  extract_lets gals s1 s2
  have h2 : SamePool s.unit s2.unit :=
    (foldl_unit_pool (u := s.unit) (fun _ _ => setStale_pool) gals).trans (samePool_of_sems (u := s1.unit) rfl)
  exact h2.trans (foldl_pool (fun _ _ hx => settleGal_pool hx) (h2.waits.trans h) _)

/-! ## The context clear (R303, R351) -/

/-- A unit with no wait queued, whose retired semaphores and CLEARING are those of another. -/
structure Emptied (u v : UnitState) : Prop where
  waits : v.sems.waits = []
  retired : v.sems.retired = u.sems.retired
  clearing : v.sems.clearing = u.sems.clearing

theorem SamePool.emptied (h : SamePool u v) (k : Emptied v w) : Emptied u w :=
  ⟨k.waits, k.retired.trans h.retired, k.clearing.trans h.clearing⟩
theorem Emptied.trans (h : Emptied u v) (k : SamePool v w) : Emptied u w :=
  ⟨k.waits.trans h.waits, k.retired.trans h.retired, k.clearing.trans h.clearing⟩

theorem dropWaits_none : Emptied u (dropWaits (fun _ => false) u) := by
  have h : SameWatches (onSems (fun q => { q with waits := q.waits.filter fun _ => false }) u) (dropWaits (fun _ => false) u) :=
    watchNote_watches
  exact ⟨h.waits.trans (List.filter_false _), h.retired, h.clearing⟩
theorem cmpPut_pool {c : Nat} {x : Option Cmp} : SamePool u (cmpPut c x u) :=
  SamePool.trans (v := onSems (fun q => { q with cmps := tabSet none c x q.cmps }) u) ⟨rfl, rfl, rfl⟩ watchNote_watches.pool
theorem clearWaits_emptied : Emptied u (clearWaits u) := by
  unfold clearWaits
  extract_lets sems u1 u2
  have h1 : SamePool u u1 := foldl_unit_pool (fun v n => foldl_unit_pool (fun _ _ => releaseWait_watches.pool) _) sems
  refine (h1.emptied dropWaits_none).trans (foldl_unit_pool (fun v c => ?_) _)
  split
  · exact cmpPut_pool.trans pushResp_watches.pool
  · exact .refl _
theorem clearBars_pool : SamePool u (clearBars u) := by
  refine foldl_unit_pool (fun v b => ?_) _
  extract_lets x
  split
  · exact .refl _
  · split
    · split
      · exact .refl _
      · exact samePool_of_sems rfl
    · exact endEntries_pool.trans barFresh_pool

/-- The machine on which a clear has begun, and on which the next context epoch has. -/
def clearBegun (s : State) : State := onUnit (fun u => onSems (fun q => { q with clearing := some u.base.tick }) u) s
def nextContext (s : State) : State :=
  onUnit (onSems fun q => { q with staleLogged := false }) (onUnit (uB fun b => wrF 0x15044 0 16 (rdF b 0x15044 0 16 + 1) b) s)
/-- The machine after the waits, barriers and operations of a clear have completed, before its objects return to zero. -/
def aborted (s : State) : State := clientClear (nextContext (onUnit (fun u => clearBars (clearWaits u)) (clearBegun s)))

theorem ctxClearOp_of_none (h : s.unit.sems.clearing = none) : ctxClearOp s = onUnit clearObjects (aborted s) := by
  have hc : s.unit.sems.clearing.isSome = false := by
    rw [h]
    rfl
  unfold ctxClearOp aborted nextContext clearBegun
  rw [hc]
  exact if_neg Bool.false_ne_true

theorem onSems_uB_pool {f : Base → Base} : SamePool u (onSems (fun q => { q with staleLogged := false }) (uB f u)) := ⟨rfl, rfl, rfl⟩
theorem nextContext_pool : SamePool s.unit (nextContext s).unit := by
  unfold nextContext
  exact onSems_uB_pool
theorem aborted_emptied : Emptied (clearBegun s).unit (aborted s).unit := by
  have h : Emptied (clearBegun s).unit (onUnit (fun u => clearBars (clearWaits u)) (clearBegun s)).unit := by
    rw [onUnit_unit]
    exact clearWaits_emptied.trans clearBars_pool
  have hnext := h.trans nextContext_pool
  exact hnext.trans (clientClear_pool hnext.waits)

/-! ### The objects return to zero -/

theorem flowClear_sems : (flowClear n u).sems = u.sems ∧ (flowClear n u).fnc = u.fnc ∧ (flowClear n u).base.kind = u.base.kind :=
  ⟨rfl, rfl, rfl⟩
theorem flowClear_fold {l : List Nat} : (l.foldl (fun u n => flowClear n u) u).sems = u.sems ∧
    (l.foldl (fun u n => flowClear n u) u).base.kind = u.base.kind ∧
    ∀ n, (n ∈ l → (flowGet (l.foldl (fun u n => flowClear n u) u) n).p = 0 ∧ (flowGet (l.foldl (fun u n => flowClear n u) u) n).c = 0) ∧
      (n ∉ l → flowGet (l.foldl (fun u n => flowClear n u) u) n = flowGet u n) := by
  induction l generalizing u with
  | nil => exact ⟨rfl, rfl, fun n => ⟨fun h => absurd h List.not_mem_nil, fun _ => rfl⟩⟩
  | cons m l ih =>
    obtain ⟨hsems, hkind, hget⟩ := @ih (flowClear m u)
    obtain ⟨hsame, -, hother⟩ := flowClear_rest (n := m) (u := u)
    refine ⟨hsems, hkind, fun n => ⟨fun hn => ?_, fun hn => ?_⟩⟩
    · by_cases hl : n ∈ l
      · exact (hget n).1 hl
      · obtain rfl : n = m := (List.mem_cons.mp hn).resolve_right hl
        rw [List.foldl_cons, (hget n).2 hl, hsame]
        exact ⟨rfl, rfl⟩
    · rw [List.mem_cons, not_or] at hn
      rw [List.foldl_cons, (hget n).2 hn.2, hother n hn.1]

theorem fncCount_rest {k : Nat} : (fncCount k u).sems = u.sems ∧ (fncCount k u).flows = u.flows ∧ (fncCount k u).base.kind = u.base.kind :=
  ⟨rfl, rfl, rfl⟩

/-- The pairs that a clear zeroes. -/
def livePairs (u : UnitState) : List Nat := (List.range (flowCap u)).filter fun n => !(flowGet u n).failed
/-- The unit once the semaphores, the Sump and their counters are zero, and once the flow counters are too. -/
def zeroedSems (u : UnitState) : UnitState :=
  uB (fun b => wrF 0x0B048 0 14 0 (wr 0x0A074 0 b))
    (onSems (fun q => { q with vals := q.vals.filter fun x => tabGet false x.1 q.retired, sump := [] }) u)
def zeroedFlows (u : UnitState) : UnitState := (livePairs u).foldl (fun u n => flowClear n u) u
/-- The unit whose fence tracker and deadlock detector start again. -/
def zeroedRest (u : UnitState) : UnitState :=
  let u := uB (wrB 0x0E044 25 false) (onFnc (fun f => { f with pairs := [], held := [], covered := [] }) (fncCount (fncHeld u).length u))
  { u with dlk := { u.dlk with snap := [], fired := false, armed := true, quiet := 0, before := 0 } }

theorem clearObjects_eq : clearObjects u = zeroedRest (zeroedFlows (zeroedSems u)) := by
  unfold clearObjects zeroedRest zeroedFlows zeroedSems livePairs
  rfl

theorem zeroedRest_rest : (zeroedRest u).sems = u.sems ∧ (zeroedRest u).flows = u.flows ∧ (zeroedRest u).base.kind = u.base.kind ∧
    ((zeroedRest u).fnc.pairs = [] ∧ (zeroedRest u).fnc.held = [] ∧ (zeroedRest u).fnc.covered = []) ∧
    (zeroedRest u).dlk = { fired := false, armed := true, quiet := 0, before := 0, snap := [] } := by
  obtain ⟨h1, h2, h3⟩ := @fncCount_rest u (fncHeld u).length
  exact ⟨h1, h2, h3, ⟨rfl, rfl, rfl⟩, rfl⟩

theorem flowCap_kind (h : v.base.kind = u.base.kind) : flowCap v = flowCap u := by
  have hcfg : cfgOf v.base = cfgOf u.base := by simp only [cfgOf, h]
  rw [flowCap, hcfg, flowCap]

theorem zeroedFlows_rest : (zeroedFlows u).sems = u.sems ∧ (zeroedFlows u).base.kind = u.base.kind ∧
    ∀ n, n < flowCap (zeroedFlows u) → (flowGet (zeroedFlows u) n).failed = false →
      (flowGet (zeroedFlows u) n).p = 0 ∧ (flowGet (zeroedFlows u) n).c = 0 := by
  obtain ⟨hsems, hkind, hget⟩ := @flowClear_fold u (livePairs u)
  refine ⟨hsems, hkind, fun n hn hf => ?_⟩
  rw [flowCap_kind (u := u) (v := zeroedFlows u) hkind] at hn
  by_cases hl : n ∈ livePairs u
  · exact (hget n).1 hl
  · rw [zeroedFlows, (hget n).2 hl] at hf
    exact absurd (List.mem_filter.mpr ⟨List.mem_range.mpr hn, by rw [hf]; rfl⟩) hl

theorem clearObjects_rest :
    (clearObjects u).sems = { u.sems with vals := u.sems.vals.filter fun x => tabGet false x.1 u.sems.retired, sump := [] } ∧
    ((clearObjects u).fnc.pairs = [] ∧ (clearObjects u).fnc.held = [] ∧ (clearObjects u).fnc.covered = []) ∧
    (clearObjects u).dlk = { fired := false, armed := true, quiet := 0, before := 0, snap := [] } ∧
    ∀ n, n < flowCap (clearObjects u) → (flowGet (clearObjects u) n).failed = false →
      (flowGet (clearObjects u) n).p = 0 ∧ (flowGet (clearObjects u) n).c = 0 := by
  obtain ⟨hsems, hflows, hkind, hfnc, hdlk⟩ := @zeroedRest_rest (zeroedFlows (zeroedSems u))
  obtain ⟨hsems', -, hzero⟩ := @zeroedFlows_rest (zeroedSems u)
  rw [clearObjects_eq]
  refine ⟨hsems.trans (hsems'.trans rfl), hfnc, hdlk, fun n hn hf => ?_⟩
  have hget : ∀ n, flowGet (zeroedRest (zeroedFlows (zeroedSems u))) n = flowGet (zeroedFlows (zeroedSems u)) n := fun n => by
    rw [flowGet, hflows, flowGet]
  rw [flowCap_kind hkind] at hn
  rw [hget] at hf ⊢
  exact hzero n hn hf

theorem ctxClearDoneOp_of_due {k : Nat} (h : u.sems.clearing = some k) (hd : k + 4096 ≤ u.base.tick) (hp : u.sems.paused = [])
    (ho : u.cmb.ops = []) : ctxClearDoneOp u = uB (pgEvt 0x15 0) (onSems (fun q => { q with clearing := none }) u) := by
  simp only [ctxClearDoneOp, h, hd, hp, ho, List.isEmpty_nil, and_self, if_true]
theorem ctxClearDoneOp_of_not_due {k : Nat} (h : u.sems.clearing = some k)
    (hd : u.base.tick < k + 4096 ∨ u.sems.paused ≠ [] ∨ u.cmb.ops ≠ []) : ctxClearDoneOp u = u := by
  simp only [ctxClearDoneOp, h, List.isEmpty_iff]
  refine if_neg fun ⟨h1, h2, h3⟩ => ?_
  rcases hd with e | e | e
  · exact absurd h1 (Nat.not_le.mpr e)
  · exact e h2
  · exact e h3
theorem ctxClearDoneOp_of_none (h : u.sems.clearing = none) : ctxClearDoneOp u = u := by
  simp only [ctxClearDoneOp, h]

end

/-- Settles O45: what completes leaves the empty queue of waits empty, and the objects then return to zero. -/
theorem contextClears : Obligations.ContextClears := by
  unfold Obligations.ContextClears
  refine fun s h => ⟨fun hc => ?_, fun hc => next_of_unitRuns h (if_pos hc), fun k hc hd hp ho => ?_, fun k hc hd =>
    next_of_unitRuns h (onUnit_of_self (ctxClearDoneOp_of_not_due hc hd)), fun hc => next_of_unitRuns h (onUnit_of_self (ctxClearDoneOp_of_none hc))⟩
  · have hstep : exec .ctxClear s = .next (onUnit clearObjects (aborted s)) := next_of_unitRuns h (ctxClearOp_of_none hc)
    have ha := @aborted_emptied s
    obtain ⟨hsems, ⟨hpairs, hheld, hcov⟩, hdlk, hflow⟩ := @clearObjects_rest (aborted s).unit
    have hret : ∀ n, semRetired (onUnit clearObjects (aborted s)).unit n = semRetired s.unit n := fun n => by
      simp only [semRetired, onUnit_unit, hsems]
      exact congrArg (tabGet false n) ha.retired
    refine ⟨_, hstep, exec_otherSame hstep, ?_, ?_, ?_, fun n hn => ?_, hret, hflow, hpairs, hheld, hcov, hdlk⟩
    · simp only [onUnit_unit, hsems]
      exact ha.waits
    · simp only [onUnit_unit, hsems]
    · simp only [onUnit_unit, hsems]
      exact ha.clearing
    · simp only [semGet, onUnit_unit, hsems]
      refine tabGet_of_not_mem fun x hx e => ?_
      have hkey := (List.mem_filter.mp hx).2
      rw [e, ha.retired] at hkey
      exact absurd (hkey.symm.trans hn) (by decide)
  · have hstep : exec .ctxClearDone s = .next (onUnit ctxClearDoneOp s) := next_of_unitRuns h rfl
    refine ⟨_, hstep, ?_, rfl⟩
    rw [onUnit_unit, ctxClearDoneOp_of_due hc hd hp ho]
    exact uB_sems

/-! ## Retired objects (R305, R306, R336) -/

section
variable {u : UnitState} {s : State} {n m : Nat}

/-- The unit without the waits of a semaphore that is then retired. -/
def withoutSem (n : Nat) (u : UnitState) : UnitState :=
  onSems (fun q => { q with retired := tabSet false n true q.retired, waits := q.waits.filter fun w => w.sem != n }) u

theorem retireSem_of_retired (h : semRetired s.unit n = true) : retireSem n s = s := if_pos h
theorem retireSem_of_live (h : semRetired s.unit n = false) : SameWatches (withoutSem n s.unit) (retireSem n s).unit := by
  unfold retireSem
  rw [if_neg (Bool.eq_false_iff.mp h)]
  extract_lets u v ws t
  have hdrop : SameWatches (withoutSem n s.unit) (dropWaits (fun w => w.sem != n)
      (onSems (fun q => { q with retired := tabSet false n true q.retired }) s.unit)) := watchNote_watches
  have ht : SameWatches (withoutSem n s.unit) t.unit := hdrop.trans
    (List.foldlRecOn (motive := fun x : UnitState => SameWatches _ x) ws _ (.refl _) fun x hx w _ => hx.trans releaseWait_watches)
  have hsems : (logU uObjRetired noPort n 0 0 (onUnit (uB (pgEvt 0x0A 1)) t)).unit.sems = t.unit.sems := logU_sems ..
  exact ht.trans ⟨congrArg Sems.vals hsems, congrArg Sems.waits hsems, congrArg Sems.cmps hsems, congrArg Sems.retired hsems,
    congrArg Sems.clearing hsems, congrArg Sems.lostEntries hsems⟩

theorem retireSem_same : semRetired (retireSem n s).unit n = true := by
  cases h : semRetired s.unit n
  · rw [semRetired, (retireSem_of_live h).retired]
    exact tabGet_tabSet_same false n true s.unit.sems.retired
  · rw [retireSem_of_retired h, h]
theorem retireSem_other (hm : m ≠ n) : semRetired (retireSem n s).unit m = semRetired s.unit m := by
  cases h : semRetired s.unit n
  · rw [semRetired, (retireSem_of_live h).retired]
    exact tabGet_tabSet_other false false n m true s.unit.sems.retired hm
  · rw [retireSem_of_retired h]
theorem retireSem_lost : (retireSem n s).unit.sems.lostEntries = s.unit.sems.lostEntries := by
  cases h : semRetired s.unit n
  · exact (retireSem_of_live h).lost
  · rw [retireSem_of_retired h]
theorem retireSem_waits (h : semRetired s.unit n = false) : ∀ w ∈ (retireSem n s).unit.sems.waits, w.sem ≠ n := by
  rw [(retireSem_of_live h).waits]
  intro w hw
  have hne := (List.mem_filter.mp hw).2
  simpa using hne

theorem loseEntry_lost : (loseEntry u).sems.lostEntries = u.sems.lostEntries + 1 :=
  (watchNote_watches (u := onSems (fun q => { q with lostEntries := q.lostEntries + 1 }) u)).lost

theorem eccOp_of_sem {k : BitVec 16} (hw : (cfgOf s.unit.base).w64 = false) : eccOp (.sem k) s = retireSem k.toNat s :=
  if_neg (Bool.eq_false_iff.mp hw)
theorem eccOp_of_watch {k : BitVec 16} {c : BitVec 10} {t : BitVec 8} (hw : (cfgOf s.unit.base).w64 = false)
    (h : s.unit.sems.waits.any (waitIs k.toNat c.toNat t.toNat) = true) :
    eccOp (.watch k c t) s = retireSem k.toNat (onUnit loseEntry s) := by
  simp only [eccOp, hw, h, Bool.not_true, Bool.or_self, Bool.false_eq_true, if_false]
theorem eccOp_of_no_watch {k : BitVec 16} {c : BitVec 10} {t : BitVec 8}
    (h : s.unit.sems.waits.any (waitIs k.toNat c.toNat t.toNat) = false) : eccOp (.watch k c t) s = s := by
  simp only [eccOp, h, Bool.not_false, Bool.or_true, if_true]
theorem eccOp_of_w64 (hw : (cfgOf s.unit.base).w64 = true) {k : BitVec 16} {c : BitVec 10} {t : BitVec 8} :
    eccOp (.sem k) s = s ∧ eccOp (.watch k c t) s = s ∧ eccOp .watchFree s = s := by
  simp only [eccOp, hw, Bool.true_or, if_true, and_self]

section
variable {b : BitVec 8}

theorem eccOp_of_barrier (hb : b.toNat < barCap s.unit) (hf : (barGet s.unit b.toNat).failed = false) :
    (barGet (eccOp (.barrier b) s).unit b.toNat).failed = true := by
  have hno : ¬ (barCap s.unit ≤ b.toNat ∨ (barGet s.unit b.toNat).failed = true) := by
    rw [hf]
    exact not_or.mpr ⟨Nat.not_le.mpr hb, Bool.false_ne_true⟩
  rw [eccOp, if_neg hno]
  refine (congrArg Barrier.failed ((logU_objects).barGet b.toNat)).trans ?_
  rw [onUnit_unit, barGet_barPut_same]
theorem eccOp_of_no_barrier (h : barCap s.unit ≤ b.toNat ∨ (barGet s.unit b.toNat).failed = true) : eccOp (.barrier b) s = s := if_pos h

end

section
variable {k : BitVec 10}

theorem eccOp_of_flow (hk : k.toNat < flowCap s.unit) (hf : (flowGet s.unit k.toNat).failed = false) :
    flowGet (eccOp (.flow k) s).unit k.toNat = { flowGet s.unit k.toNat with failed := true } := by
  have hno : ¬ (flowCap s.unit ≤ k.toNat ∨ (flowGet s.unit k.toNat).failed = true) := by
    rw [hf]
    exact not_or.mpr ⟨Nat.not_le.mpr hk, Bool.false_ne_true⟩
  rw [eccOp, if_neg hno]
  refine ((logU_objects).flowGet k.toNat).trans ?_
  rw [onUnit_unit, flowGet_flowPut_same]
theorem eccOp_of_no_flow (h : flowCap s.unit ≤ k.toNat ∨ (flowGet s.unit k.toNat).failed = true) : eccOp (.flow k) s = s := if_pos h

end

section
variable {p : BitVec 12}

theorem eccOp_of_fence (hp : p.toNat < fncPairs s.unit) (hf : fncBad s.unit p.toNat = false) :
    fncBad (eccOp (.fence p) s).unit p.toNat = true := by
  have hno : ¬ (fncPairs s.unit ≤ p.toNat ∨ fncBad s.unit p.toNat = true) := by
    rw [hf]
    exact not_or.mpr ⟨Nat.not_le.mpr hp, Bool.false_ne_true⟩
  rw [eccOp, if_neg hno, fncBad, logU_fnc]
  exact tabGet_tabSet_same false p.toNat true s.unit.fnc.bad
theorem eccOp_of_no_fence (h : fncPairs s.unit ≤ p.toNat ∨ fncBad s.unit p.toNat = true) : eccOp (.fence p) s = s := if_pos h

end

theorem exec_ecc {e : EccTarget} (h : unitRuns s) : exec (.eccUncorrectable e) s = .next (eccOp e s) := next_of_unitRuns h rfl

end

/-- Settles O46: by the kind of object, and whether it is in service. -/
theorem objectsRetire : Obligations.ObjectsRetire := by
  unfold Obligations.ObjectsRetire
  refine fun s h => ⟨fun n hw hl => ?_, fun n hr => next_of_unitRuns h ?_, fun n c k hw => ?_, fun n c k hw => ⟨fun ha => ?_, fun hno =>
      next_of_unitRuns h (eccOp_of_no_watch hno)⟩, fun hw hf => next_of_unitRuns h (if_neg (by rw [hw, hf]; decide)),
    fun hf => next_of_unitRuns h (if_pos (by rw [hf, Bool.or_true])),
    fun b hb hf => ⟨_, exec_ecc h, eccOp_of_barrier hb hf, exec_otherSame (exec_ecc h)⟩,
    fun b hno => next_of_unitRuns h (eccOp_of_no_barrier hno),
    fun n hn hf => ⟨_, exec_ecc h, exec_otherSame (exec_ecc h), eccOp_of_flow hn hf⟩, fun n hno => next_of_unitRuns h (eccOp_of_no_flow hno),
    fun p hp hf => ⟨_, exec_ecc h, eccOp_of_fence hp hf, exec_otherSame (exec_ecc h)⟩,
    fun p hno => next_of_unitRuns h (eccOp_of_no_fence hno)⟩
  · have hstep := (exec_ecc (e := .sem n) h).trans (congrArg Host.Outcome.next (eccOp_of_sem hw))
    exact ⟨_, hstep, retireSem_same, exec_otherSame hstep, retireSem_waits hl, fun m hm => retireSem_other hm⟩
  · cases hw : (cfgOf s.unit.base).w64
    · rw [eccOp_of_sem hw, retireSem_of_retired hr]
    · exact (eccOp_of_w64 hw (c := 0) (t := 0)).1
  · obtain ⟨h1, h2, h3⟩ := eccOp_of_w64 hw (k := n) (c := c) (t := k)
    exact ⟨next_of_unitRuns h h1, next_of_unitRuns h h2, next_of_unitRuns h h3⟩
  · have hstep := (exec_ecc (e := .watch n c k) h).trans (congrArg Host.Outcome.next (eccOp_of_watch hw ha))
    exact ⟨_, hstep, retireSem_same, exec_otherSame hstep, retireSem_lost.trans loseEntry_lost⟩

end Sys2Proof.Proofs
end


section
/-! PROOFS. The servos: bits of the status register, a commanded switch, a rebase, MODE (O47). -/

namespace Sys2Proof.Proofs
open Sys2Proof Sys2Proof.Machine

section
variable {p : Part} {s : State} {i j : Nat} {v : Bool}

/-! ## The status register -/

theorem stsBit_setSts_same (h : i < 32) : stsBit (setSts p i v s) p i = v := by
  rw [stsBit, setSts, partBase_onPartBase_same]
  exact rdB_wrB_same h
theorem stsBit_setSts_other (h : i ≠ j) (hj : j < 32) : stsBit (setSts p i v s) p j = stsBit s p j := by
  rw [stsBit, setSts, partBase_onPartBase_same]
  exact rdB_wrB_bit h hj
@[simp] theorem stsBit_onServo {f : Servo → Servo} : stsBit (onServo p f s) p i = stsBit s p i := by cases p <;> rfl
@[simp] theorem servoOf_onServo {f : Servo → Servo} : servoOf (onServo p f s) p = f (servoOf s p) := by cases p <;> rfl
@[simp] theorem servoOf_onPartBase {f : Base → Base} : servoOf (onPartBase p f s) p = servoOf s p := by cases p <;> rfl
@[simp] theorem servoOf_setSts : servoOf (setSts p i v s) p = servoOf s p := servoOf_onPartBase
@[simp] theorem servoOf_srvEvt : servoOf (srvEvt p i s) p = servoOf s p := servoOf_onPartBase
theorem stsBit_unit : stsBit s .unit i = rdB s.unit.base 0x2070 i := rfl

/-- A rebase that stops leaves the unit's other registers of the page, and its servo. -/
theorem servoOf_stopRebase : servoOf (stopRebase p s) p = servoOf s p := by
  cases p with
  | unit =>
    rw [stopRebase]
    split
    · rw [servoOf_srvEvt, servoOf_setSts]
    · rfl
  | dist => rfl
theorem stopRebase_dist : (stopRebase .unit s).dist = s.dist := by
  rw [stopRebase]
  split <;> rfl
theorem stsBit_srvEvt_unit : stsBit (srvEvt .unit i s) .unit j = stsBit s .unit j := by
  simp only [stsBit_unit, rdB, rdF]
  rw [show (srvEvt .unit i s).unit.base = pgEvt 0x02 i s.unit.base from rfl,
    rd_pgEvt_other (by decide)]
theorem stsBit_stopRebase_six : stsBit (stopRebase .unit s) .unit 6 = false := by
  rw [stopRebase]
  split
  next => rw [stsBit_srvEvt_unit, stsBit_setSts_same (by decide)]
  next h => exact Bool.eq_false_iff.mpr h
theorem stsBit_stopRebase_other (h : 6 ≠ j) (hj : j < 32) : stsBit (stopRebase p s) p j = stsBit s p j := by
  cases p with
  | unit =>
    rw [stopRebase]
    split
    · rw [stsBit_srvEvt_unit, stsBit_setSts_other h hj]
    · rfl
  | dist => rfl
theorem rd_stopRebase {a : Nat} (h : a ≠ 0x2070) (h' : a ≠ pageAddr 0x02 0x010) :
    rd (stopRebase .unit s).unit.base a = rd s.unit.base a := by
  rw [stopRebase]
  split
  · rw [show (srvEvt .unit 4 (setSts .unit 6 false s)).unit.base = pgEvt 0x02 4 (wrB 0x2070 6 false s.unit.base) from rfl,
      rd_pgEvt_other h', rd_wrB_other h]
  · rfl

/-- A happening of the servo's own page leaves its other registers. -/
theorem rd_logU_servo {h : Hap} {port obj uid aux a : Nat} (ha : a / 0x1000 = 2) (h18 : a ≠ pageAddr h.page 0x018) :
    rd (logU h port obj uid aux s).unit.base a = rd s.unit.base a := by
  refine rd_logU _ _ _ _ _ _ ?_ (by omega) h18
  rcases fltPage_cases (b := s.unit.base) with e | e <;> omega
theorem rdB_logU_servo {h : Hap} {port obj uid aux a : Nat} (ha : a / 0x1000 = 2) (h18 : a ≠ pageAddr h.page 0x018) :
    rdB (logU h port obj uid aux s).unit.base a i = rdB s.unit.base a i := by
  simp only [rdB, rdF, rd_logU_servo ha h18]

/-! ## A commanded switch (R172, R178) -/

theorem commandSwitch_of_pend (h : (servoOf s p).pend.isSome = true) : commandSwitch p s = s := if_pos h

theorem commandSwitch_of_refused (hp : (servoOf s p).pend = none)
    (h : servoRuns s p = false ∨ stsBit s p 3 = true ∨ canMove s p (!stsBit s p 4) false = false) :
    commandSwitch p s = logS p uSwitchRefused dSwitchRefused noPort 0 0 s := by
  have hno : (servoRuns s p && !stsBit s p 3 && canMove s p (!stsBit s p 4) false) = false := by
    rcases h with h | h | h <;> simp [h]
  simp only [commandSwitch, hp, hno, Option.isSome_none, Bool.false_eq_true, if_false]

/-- The commanded handover that now stands pending. -/
def commanded (p : Part) (s : State) : Handover :=
  { dest := !stsBit s p 4, failed := false, since := (partBase s p).tick, snap := snapDelta s p, due := false }

theorem commandSwitch_of_accepted (hp : (servoOf s p).pend = none) (hr : servoRuns s p = true) (hh : stsBit s p 3 = false)
    (hc : canMove s p (!stsBit s p 4) false = true) : commandSwitch p s =
      setSts p 7 true (onServo p (fun v => { v with pend := some (commanded p s) }) (stopRebase p s)) := by
  simp only [commandSwitch, hp, hr, hh, hc, Option.isSome_none, Bool.false_eq_true, if_false, Bool.not_false, Bool.and_self,
    if_true, commanded]

theorem servoRuns_dist (hr : isRoot s.dist = false) (hv : s.dist.base.valid = true) : servoRuns s .dist = true := by
  show (s.dist.base.valid && !isRoot s.dist) = true
  rw [hr, hv]
  rfl

/-- Once a switch is accepted it stands pending, and the bits other than PENDING and REBASING are as they were. -/
theorem commandSwitch_pends (hp : (servoOf s p).pend = none) (hr : servoRuns s p = true) (hh : stsBit s p 3 = false)
    (hc : canMove s p (!stsBit s p 4) false = true) :
    stsBit (commandSwitch p s) p 7 = true ∧ stsBit (commandSwitch p s) p 4 = stsBit s p 4 ∧
      (servoOf (commandSwitch p s) p).pend = some (commanded p s) := by
  rw [commandSwitch_of_accepted hp hr hh hc]
  refine ⟨stsBit_setSts_same (by decide), ?_, ?_⟩
  · rw [stsBit_setSts_other (by decide) (by decide), stsBit_onServo, stsBit_stopRebase_other (by decide) (by decide)]
  · rw [servoOf_setSts, servoOf_onServo]

theorem commandSwitch_stops_rebase (hp : (servoOf s .unit).pend = none) (hr : servoRuns s .unit = true)
    (hh : stsBit s .unit 3 = false) (hc : canMove s .unit (!stsBit s .unit 4) false = true) :
    stsBit (commandSwitch .unit s) .unit 6 = false ∧ (commandSwitch .unit s).dist = s.dist := by
  rw [commandSwitch_of_accepted hp hr hh hc]
  refine ⟨?_, stopRebase_dist⟩
  rw [stsBit_setSts_other (by decide) (by decide), stsBit_onServo, stsBit_stopRebase_six]

/-! ## Completing a switch, and giving it up (R170) -/

theorem doHandover_of_not_due (h : ∀ k, (servoOf s p).pend = some k → k.due = false) : doHandover p s = s := by
  unfold doHandover
  cases hk : (servoOf s p).pend with
  | none => rfl
  | some k => exact if_neg (Bool.eq_false_iff.mp (h k hk))

theorem handoverLate_of_late {k : Handover} (hk : (servoOf s p).pend = some k) (hf : k.failed = true) (hd : k.due = false)
    (hl : k.since + echoLossLimit s (srcPort p k.dest) * echoInterval s (srcPort p k.dest) < (partBase s p).tick) :
    handoverLate p s = enterHoldover p s := by
  simp only [handoverLate, hk, hf, hd, hl, decide_true, Bool.not_false, Bool.and_self, if_true]

theorem handoverLate_of_not_late (h : ∀ k, (servoOf s p).pend = some k → k.failed = false ∨ k.due = true ∨
    (partBase s p).tick ≤ k.since + echoLossLimit s (srcPort p k.dest) * echoInterval s (srcPort p k.dest)) :
    handoverLate p s = s := by
  unfold handoverLate
  cases hk : (servoOf s p).pend with
  | none => rfl
  | some k =>
    refine if_neg ?_
    rcases h k hk with h | h | h
    · simp [h]
    · simp [h]
    · simp [Nat.not_lt.mpr h]

/-! ## A rebase (R173) -/

theorem rebaseOp_of_barred (h : (servoOf s .unit).pend.isSome = true ∨ stsBit s .unit 3 = true) : rebaseOp s = s :=
  if_pos (by simpa using h)
theorem rebaseOp_of_free (hp : (servoOf s .unit).pend = none) (hh : stsBit s .unit 3 = false) :
    rebaseOp s = setSts .unit 6 true (onServo .unit (fun v => { v with rebaseAt := s.unit.base.tick }) s) := by
  simp only [rebaseOp, hp, hh, Option.isSome_none, Bool.or_self, Bool.false_eq_true, if_false]

theorem rebaseStepOp_of_idle (h : stsBit s .unit 6 = false ∨ s.unit.base.tick < (servoOf s .unit).rebaseAt + 1000000) :
    rebaseStepOp s = s := by
  refine if_neg ?_
  rcases h with h | h
  · simp [h]
  · simp [Nat.not_le.mpr h]

theorem sub_clampInt_eq_zero {n : Nat} {h : Int} : h - clampInt n h = 0 ↔ h.natAbs ≤ n := by
  unfold clampInt
  split
  · omega
  · split <;> omega

/-- The held offset of the active domain, as a number. -/
def heldOffset (s : State) : Int := sext 32 (rd s.unit.base (activeHofs s)).toNat

/-- The held offset after one millisecond of a rebase. -/
def steppedOffset (s : State) : Int := heldOffset s - clampInt (rdF s.unit.base 0x205C 0 7 : Nat) (heldOffset s)

/-- What one millisecond of a rebase writes: the held offset, and the time of the next. -/
def rebaseWrite (s : State) : State :=
  onServo .unit (fun v => { v with rebaseAt := v.rebaseAt + 1000000 })
    (onUnit (uB (wr (activeHofs s) (wordOfInt (steppedOffset s)))) s)

theorem activeHofs_cases : activeHofs s = 0x2084 ∨ activeHofs s = 0x2080 := by
  unfold activeHofs
  split
  · exact .inl rfl
  · exact .inr rfl

theorem rebaseStepOp_of_due (h6 : stsBit s .unit 6 = true) (hd : (servoOf s .unit).rebaseAt + 1000000 ≤ s.unit.base.tick) :
    rebaseStepOp s = if steppedOffset s = 0 then logU uRebaseDone noPort 0 0 0 (stopRebase .unit (rebaseWrite s))
      else rebaseWrite s := by
  refine if_pos ?_
  rw [h6, decide_eq_true hd]
  rfl

theorem rebaseWrite_hofs : rd (rebaseWrite s).unit.base (activeHofs s) = wordOfInt (steppedOffset s) := rd_wr_same
theorem rebaseWrite_sts : stsBit (rebaseWrite s) .unit i = stsBit s .unit i := by
  rw [rebaseWrite, stsBit_onServo, stsBit_unit, stsBit_unit, rdB, rdF, onUnit_unit]
  rw [show (uB (wr (activeHofs s) (wordOfInt (steppedOffset s))) s.unit).base =
    wr (activeHofs s) (wordOfInt (steppedOffset s)) s.unit.base from rfl,
    rd_wr_other (by rcases activeHofs_cases (s := s) with e | e <;> rw [e] <;> decide)]
  rfl

theorem rebaseStepOp_last (h6 : stsBit s .unit 6 = true) (hd : (servoOf s .unit).rebaseAt + 1000000 ≤ s.unit.base.tick)
    (hr : (heldOffset s).natAbs ≤ rdF s.unit.base 0x205C 0 7) :
    rd (rebaseStepOp s).unit.base (activeHofs s) = 0 ∧ stsBit (rebaseStepOp s) .unit 6 = false ∧
      (rebaseStepOp s).dist = s.dist := by
  have hz : steppedOffset s = 0 := sub_clampInt_eq_zero.mpr hr
  rw [rebaseStepOp_of_due h6 hd, if_pos hz]
  refine ⟨?_, ?_, ?_⟩
  · have hp : activeHofs s / 0x1000 = 2 := by rcases activeHofs_cases (s := s) with e | e <;> omega
    have ho : activeHofs s ≠ 0x2070 ∧ activeHofs s ≠ pageAddr 0x02 0x010 ∧ activeHofs s ≠ pageAddr 0x02 0x018 := by
      rcases activeHofs_cases (s := s) with e | e <;> rw [e] <;> decide
    obtain ⟨hsts, hevt, hlog⟩ := ho
    rw [rd_logU_servo (h := uRebaseDone) hp hlog, rd_stopRebase hsts hevt, rebaseWrite_hofs, hz]
    rfl
  · rw [stsBit_unit, rdB_logU_servo (h := uRebaseDone) (by omega) (by decide)]
    exact stsBit_stopRebase_six
  · rw [logU_dist, stopRebase_dist]
    rfl

theorem rebaseStepOp_step (h6 : stsBit s .unit 6 = true) (hd : (servoOf s .unit).rebaseAt + 1000000 ≤ s.unit.base.tick)
    (hr : rdF s.unit.base 0x205C 0 7 < (heldOffset s).natAbs) : rebaseStepOp s = rebaseWrite s := by
  rw [rebaseStepOp_of_due h6 hd, if_neg]
  exact fun hz => absurd (sub_clampInt_eq_zero.mp hz) (Nat.not_le.mpr hr)

/-! ## MODE (R165, R166) -/

theorem applyWord_unit_regs {w : Int} {a : Nat} (ha : a / 0x1000 = 2) (hcw : a ≠ 0x2074) (h18 : a ≠ pageAddr 0x02 0x018) :
    rd (applyWord .unit w s).unit.base a = rd s.unit.base a := by
  have hwr : ∀ x : Word, rd (onPartBase .unit (wr 0x2074 x) s).unit.base a = rd s.unit.base a := fun x => rd_wr_other hcw
  unfold applyWord
  extract_lets r fresh s1 s2
  split
  · exact (rd_logU_servo (s := s2) (h := uLimClamp) ha h18).trans (hwr _)
  · exact hwr _
theorem applyWord_unit_dist {w : Int} : (applyWord .unit w s).dist = s.dist := by
  unfold applyWord
  extract_lets r fresh s1 s2
  split
  · exact logU_dist _ _ _ _ _ _
  · rfl

/-- MODE and MANUAL as written, before the word of the new mode is applied. -/
def modeWritten (man : Bool) (s : State) : State := setSts .unit 5 man (onUnit (uB (wrB 0x2040 0 man)) s)

theorem modeWritten_mode {man : Bool} :
    rdB (modeWritten man s).unit.base 0x2040 0 = man ∧ stsBit (modeWritten man s) .unit 5 = man := by
  refine ⟨?_, stsBit_setSts_same (by decide)⟩
  show rdB (wrB 0x2070 5 man (wrB 0x2040 0 man s.unit.base)) 0x2040 0 = man
  rw [rdB_wrB_other (by decide), rdB_wrB_same (by decide)]

theorem modeWriteOp_of_same {man : Bool} (h : rdB s.unit.base 0x2040 0 = man) :
    modeWriteOp man s = onUnit (uB (wrB 0x2040 0 man)) s := if_pos h
theorem modeWriteOp_of_new {man : Bool} (h : rdB s.unit.base 0x2040 0 = !man) : modeWriteOp man s =
    if man then applyWord .unit (sext 32 (rd (modeWritten man s).unit.base 0x206C).toNat) (modeWritten man s)
    else onServo .unit (fun v => { v with integ := curWord (modeWritten man s) .unit,
                                          acqWord := curWord (modeWritten man s) .unit }) (modeWritten man s) :=
  if_neg (by rw [h]; cases man <;> decide)

theorem modeWriteOp_mode {man : Bool} (h : rdB s.unit.base 0x2040 0 = !man) :
    rdB (modeWriteOp man s).unit.base 0x2040 0 = man ∧ stsBit (modeWriteOp man s) .unit 5 = man ∧
      (modeWriteOp man s).dist = s.dist := by
  obtain ⟨hmode, hsts⟩ := modeWritten_mode (s := s) (man := man)
  rw [modeWriteOp_of_new h]
  cases man with
  | false => exact ⟨hmode, hsts, rfl⟩
  | true =>
    rw [if_pos rfl, stsBit_unit]
    refine ⟨?_, ?_, applyWord_unit_dist⟩
    · rw [rdB, rdF, applyWord_unit_regs (by decide) (by decide) (by decide)]
      exact hmode
    · rw [rdB, rdF, applyWord_unit_regs (by decide) (by decide) (by decide)]
      exact hsts

/-! ## What is logged once (R176, R541) -/

theorem holdAgeOp_of_aged (ha : armAged s = true) (hl : (servoOf s .unit).ageLogged = false) :
    holdAgeOp s = logU uHoldoverAge noPort 0 0 0 (onServo .unit (fun v => { v with ageLogged := true }) s) :=
  if_pos (by rw [ha, hl]; rfl)
theorem holdAgeOp_of_not_aged (h : armAged s = false ∨ (servoOf s .unit).ageLogged = true) : holdAgeOp s = s :=
  if_neg (by rcases h with h | h <;> simp [h])
theorem acquireTimeoutOp_of_late (h4 : tckState s.unit = 4) (h0 : stsBit s .unit 0 = false)
    (hl : s.unit.unlockLogged = false) (ht : s.unit.tckAt + 1000000000 ≤ s.unit.base.tick) : acquireTimeoutOp s =
      logU uServoUnlock noPort 0 0 1 (onUnit (fun u => { u with unlockLogged := true }) s) :=
  if_pos ⟨h4, Bool.eq_false_iff.mp h0, Bool.eq_false_iff.mp hl, ht⟩
theorem acquireTimeoutOp_of_idle (h : tckState s.unit ≠ 4 ∨ stsBit s .unit 0 = true ∨ s.unit.unlockLogged = true ∨
    s.unit.base.tick < s.unit.tckAt + 1000000000) : acquireTimeoutOp s = s := by
  refine if_neg ?_
  rintro ⟨h4, h0, hl, ht⟩
  rcases h with h | h | h | h
  · exact h h4
  · exact h0 h
  · exact hl h
  · exact absurd ht (Nat.not_le.mpr h)

end

/-! ## The obligation -/

theorem next_of_distRuns {s t : State} {f : State → State} (h : distRuns s) (ht : f s = t) :
    (.next (ifDistRuns f s) : Host.Outcome State Fault Refusal) = .next t :=
  congrArg Host.Outcome.next ((ifDistRuns_of_run h).trans ht)
theorem next_of_unitRuns_self {s : State} {f : State → State} (ht : f s = s) :
    (.next (ifUnitRuns f s) : Host.Outcome State Fault Refusal) = .next s :=
  congrArg Host.Outcome.next (ifUnitRuns_of_self ht)

/-- Settles O47: a commanded switch stands pending or is refused, a rebase moves the held offset by no more than RATE, MODE
keeps MANUAL with it, and what is not due leaves the machine. -/
theorem servoCommands : Obligations.ServoCommands := by
  unfold Obligations.ServoCommands
  intro s
  refine ⟨?_, ?_, ?_, ?_, ?_, ?_, ?_, ?_, ?_, ?_, ?_, ?_, ?_, ?_, ?_, ?_, ?_, ?_, ?_, ?_, ?_, ?_, ?_, ?_, ?_, ?_, ?_, ?_, ?_⟩
  · intro hu hp hr hh hc
    obtain ⟨h7, h4, hpend⟩ := commandSwitch_pends hp hr hh hc
    obtain ⟨h6, hdist⟩ := commandSwitch_stops_rebase hp hr hh hc
    exact ⟨commandSwitch .unit s, next_of_unitRuns hu rfl, h7, h4, h6, hdist, hpend⟩
  · exact fun hu hp h => next_of_unitRuns hu (commandSwitch_of_refused hp h)
  · exact fun hu h => next_of_unitRuns hu (commandSwitch_of_pend h)
  · exact fun hd hr => next_of_distRuns hd (if_pos hr)
  · intro hd hr hp h
    refine next_of_distRuns hd ((if_neg (Bool.eq_false_iff.mp hr)).trans (commandSwitch_of_refused hp ?_))
    refine h.imp_left fun hv => ?_
    show (s.dist.base.valid && !isRoot s.dist) = false
    rw [hv, Bool.false_and]
  · intro hd h
    refine next_of_distRuns hd ?_
    split
    · rfl
    · exact commandSwitch_of_pend h
  · intro hd hr hp hv hh hc
    obtain ⟨h7, -, hpend⟩ := commandSwitch_pends hp (servoRuns_dist hr hv) hh hc
    have hstep : exec .parentSwitch s = .next (commandSwitch .dist s) :=
      next_of_distRuns hd (if_neg (Bool.eq_false_iff.mp hr))
    refine ⟨commandSwitch .dist s, hstep, h7, ?_, hpend⟩
    rw [commandSwitch_of_accepted hp (servoRuns_dist hr hv) hh hc]
    rfl
  · exact fun h hu _ _ => next_of_partLive (p := .unit) (live_of_run hu) rfl
  · exact fun h hd _ _ => next_of_partLive (p := .dist) (live_of_run hd) rfl
  · exact fun hu h => next_of_partLive (p := .unit) (live_of_run hu) (congrArg unitFsm (doHandover_of_not_due h))
  · exact fun hd h => next_of_partLive (p := .dist) (live_of_run hd) (doHandover_of_not_due h)
  · exact fun h hd hk hf hdue hl => next_of_partLive (p := .dist) (live_of_run hd) (handoverLate_of_late hk hf hdue hl)
  · exact fun hd h => next_of_partLive (p := .dist) (live_of_run hd) (handoverLate_of_not_late h)
  · exact fun h hu hk hf hdue hl =>
      next_of_partLive (p := .unit) (live_of_run hu) (congrArg unitFsm (handoverLate_of_late hk hf hdue hl))
  · exact fun hu h => next_of_partLive (p := .unit) (live_of_run hu) (congrArg unitFsm (handoverLate_of_not_late h))
  · intro hu hp hh
    refine ⟨rebaseOp s, next_of_unitRuns hu rfl, ?_⟩
    rw [rebaseOp_of_free hp hh]
    exact ⟨stsBit_setSts_same (by decide), rfl, by rw [servoOf_setSts, servoOf_onServo]⟩
  · exact fun h => next_of_unitRuns_self (rebaseOp_of_barred h)
  · intro hu h6 hd
    refine ⟨fun hr => ⟨rebaseStepOp s, next_of_unitRuns hu rfl, rebaseStepOp_last h6 hd hr⟩, fun hr => ?_⟩
    exact ⟨rebaseWrite s, next_of_unitRuns hu (rebaseStepOp_step h6 hd hr), rebaseWrite_sts.trans h6, rfl, rebaseWrite_hofs,
      rfl⟩
  · exact fun h => next_of_unitRuns_self (rebaseStepOp_of_idle h)
  · exact fun man hl h => ⟨modeWriteOp man s, next_of_unitLive hl rfl, modeWriteOp_mode h⟩
  · exact fun man hl h => next_of_unitLive hl (modeWriteOp_of_same h)
  · exact fun man hl => congrArg Host.Outcome.next (ifUnit_of_not_live hl)
  · exact fun hu ha hl => next_of_unitRuns hu (holdAgeOp_of_aged ha hl)
  · exact fun h => next_of_unitRuns_self (holdAgeOp_of_not_aged h)
  · exact fun hu h4 h0 hl ht => next_of_unitRuns hu (acquireTimeoutOp_of_late h4 h0 hl ht)
  · exact fun h => next_of_unitRuns_self (acquireTimeoutOp_of_idle h)
  · intro hu c hc
    simp only [List.mem_cons, List.not_mem_nil, or_false] at hc
    rcases hc with rfl | rfl | rfl | rfl | rfl <;> exact congrArg Host.Outcome.next (ifUnitRuns_of_not_run hu)
  · exact fun hd => congrArg Host.Outcome.next (ifDistRuns_of_not_run hd)
  · exact fun p hl => ⟨congrArg Host.Outcome.next (ifPart_of_not_live hl), congrArg Host.Outcome.next (ifPart_of_not_live hl)⟩

end Sys2Proof.Proofs
end


section
/-! PROOFS. Region taps: sync frames, locking and failing, delays, reads and stops (O48). -/

namespace Sys2Proof.Proofs
open Sys2Proof Sys2Proof.Machine

/-! ## Sync frames sent (R195) -/

/-- Emitting, in order, the output of every listed element that is due, where emitting changes neither what is due nor what
is emitted. -/
theorem foldl_emit_outs {c : UnitState → Nat → Bool} {o : UnitState → Nat → Out}
    (hc : ∀ x u, c (uB (emit x) u) = c u) (ho : ∀ x u, o (uB (emit x) u) = o u) (l : List Nat) (u : UnitState) :
    (l.foldl (fun u n => if c u n then uB (emit (o u n)) u else u) u).base.outs = u.base.outs ++ (l.filter (c u)).map (o u) ∧
      (l.foldl (fun u n => if c u n then uB (emit (o u n)) u else u) u).taps = u.taps := by
  induction l generalizing u with
  | nil => exact ⟨(List.append_nil _).symm, rfl⟩
  | cons n l ih =>
    rw [List.foldl_cons]
    by_cases hn : c u n = true
    · obtain ⟨hb, ht⟩ := ih (uB (emit (o u n)) u)
      rw [if_pos hn, List.filter_cons_of_pos hn, List.map_cons]
      refine ⟨?_, ht⟩
      rw [hb, hc, ho]
      exact List.append_assoc _ _ _
    · rw [if_neg hn, List.filter_cons_of_neg hn]
      exact ih u

theorem syncSendOp_outs {u : UnitState} : (syncSendOp u).base.outs = u.base.outs ++ (if u.base.valid then
      ((List.range (regions u)).filter fun m => tapEn u m &&
        (u.base.ns + BitVec.ofNat 64 (tapGet u m).lead).toNat % 128 == 0).map fun m =>
          .pin (.rtsync m) (syncFrame (u.base.ns + BitVec.ofNat 64 (tapGet u m).lead)).toNat else []) ∧
    (syncSendOp u).taps = u.taps := by
  unfold syncSendOp
  split
  · exact foldl_emit_outs
      (c := fun u m => tapEn u m && (u.base.ns + BitVec.ofNat 64 (tapGet u m).lead).toNat % 128 == 0)
      (o := fun u m => .pin (.rtsync m) (syncFrame (u.base.ns + BitVec.ofNat 64 (tapGet u m).lead)).toNat)
      (fun _ _ => rfl) (fun _ _ => rfl) _ u
  · exact ⟨(List.append_nil _).symm, rfl⟩

section
variable {u : UnitState} {n : Nat} {s : State}

/-! ## A tap that fails (R202) -/

/-- A tap that has become invalid with a cause. -/
def failedTap (cause : BitVec 3) (t : Tap) : Tap :=
  { t with locked := false, seen := none, badNs := 0, badCrc := 0, resync := false,
           cause := if t.everLocked then cause else t.cause }

theorem tapFail_taps {c : BitVec 3} : (tapFail n c u).taps = (tapPut n (failedTap c (tapGet u n)) u).taps := by
  unfold tapFail
  extract_lets t t' u' v
  split
  · split <;> rfl
  · rfl
theorem tapGet_of_taps {v : UnitState} (h : u.taps = v.taps) {m : Nat} : tapGet u m = tapGet v m := by
  rw [tapGet, tapGet, h]
theorem tapGet_tapFail_same {c : BitVec 3} : tapGet (tapFail n c u) n = failedTap c (tapGet u n) :=
  (tapGet_of_taps tapFail_taps).trans tapGet_tapPut_same
theorem tapGet_tapFail_other {c : BitVec 3} {m : Nat} (h : m ≠ n) : tapGet (tapFail n c u) m = tapGet u m :=
  (tapGet_of_taps tapFail_taps).trans (tapGet_tapPut_other h)
theorem rd_tapFail {c : BitVec 3} {a : Nat} (h0 : a ≠ pageAddr 0x05 0x010) (h1 : a ≠ 0x05050) :
    rd (tapFail n c u).base a = rd u.base a := by
  unfold tapFail
  extract_lets t t' u' v
  split
  · split
    · exact (rd_inc_other h1).trans (rd_pgEvt_other h0)
    · exact rd_pgEvt_other h0
  · rfl
theorem tapFail_kind {c : BitVec 3} : (tapFail n c u).base.kind = u.base.kind := by
  unfold tapFail
  extract_lets t t' u' v
  split
  · split <;> rfl
  · rfl
theorem tapEn_congr {v : UnitState} (hk : u.base.kind = v.base.kind) (hr : rd u.base (tapCtlAddr n) = rd v.base (tapCtlAddr n)) :
    tapEn u n = tapEn v n := by
  simp only [tapEn, regions, cfgOf, hk, rdB, rdF, hr]
  rfl

/-! ## Sync frames received (R196, R197) -/

section
variable {ns : BitVec 64} {crc : BitVec 8}

theorem tapSyncOp_of_off (h : tapEn s.unit n = false) : tapSyncOp n ns crc s = s := if_pos (by rw [h]; rfl)

theorem tapSyncOp_of_locked (he : tapEn s.unit n = true) (hl : (tapGet s.unit n).locked = true) : tapSyncOp n ns crc s =
    if (crc == crc8 ns && tapCount s.unit n == ns + 80) = true then
      onUnit (tapPut n { tapGet s.unit n with badNs := 0, badCrc := 0 }) s
    else if 2 ≤ (if (crc == crc8 ns) = true then 0 else (tapGet s.unit n).badCrc + 1) ∨
        2 ≤ (if (crc == crc8 ns) = true then (tapGet s.unit n).badNs + 1 else 0) then
      logU uTapFault noPort n 0 0 (onUnit (tapFail n 1) s)
    else onUnit (tapPut n { tapGet s.unit n with
      badNs := (if (crc == crc8 ns) = true then (tapGet s.unit n).badNs + 1 else 0),
      badCrc := (if (crc == crc8 ns) = true then 0 else (tapGet s.unit n).badCrc + 1),
      errs := satInc 127 (tapGet s.unit n).errs }) s := by
  refine (if_neg ?_).trans (if_pos hl)
  rw [he]
  decide

theorem tapMayLock_en (h : tapMayLock s.unit n = true) : tapEn s.unit n = true := by
  simp only [tapMayLock, Bool.and_eq_true] at h
  exact h.1.1

theorem tapSyncOp_of_barred (hm : tapMayLock s.unit n = false) (hl : (tapGet s.unit n).locked = false) :
    tapSyncOp n ns crc s = s := by
  simp only [tapSyncOp, hm, hl, Bool.false_eq_true, if_false, Bool.not_false, if_true, ite_self]

theorem tapSyncOp_of_waiting (hm : tapMayLock s.unit n = true) (hl : (tapGet s.unit n).locked = false) :
    tapSyncOp n ns crc s = if (!(crc == crc8 ns)) = true then onUnit (tapPut n { tapGet s.unit n with seen := none }) s
      else match (tapGet s.unit n).seen with
        | some (ns0, at0) =>
          if at0 + 128 = s.unit.base.tick ∧ ns0 + 128 = ns then tapLock n ns s
          else onUnit (tapPut n { tapGet s.unit n with seen := some (ns, s.unit.base.tick) }) s
        | none => onUnit (tapPut n { tapGet s.unit n with seen := some (ns, s.unit.base.tick) }) s := by
  simp only [tapSyncOp, tapMayLock_en hm, hm, hl, Bool.not_true, Bool.false_eq_true, if_false] <;> rfl

theorem tapSyncOp_locks {k : Nat} (hm : tapMayLock s.unit n = true) (hl : (tapGet s.unit n).locked = false)
    (hs : (tapGet s.unit n).seen = some (ns, k)) (hk : k + 128 = s.unit.base.tick) :
    tapSyncOp n (ns + 128) (crc8 (ns + 128)) s = tapLock n (ns + 128) s := by
  rw [tapSyncOp_of_waiting hm hl, if_neg (by simp)]
  simp only [hs, hk, and_self, if_true]

theorem tapSyncOp_notes (hm : tapMayLock s.unit n = true) (hl : (tapGet s.unit n).locked = false)
    (h : ∀ ns0 k, (tapGet s.unit n).seen = some (ns0, k) → k + 128 ≠ s.unit.base.tick ∨ ns0 + 128 ≠ ns) :
    tapSyncOp n ns (crc8 ns) s = onUnit (tapPut n { tapGet s.unit n with seen := some (ns, s.unit.base.tick) }) s := by
  rw [tapSyncOp_of_waiting hm hl, if_neg (by simp)]
  split
  next ns0 at0 hs =>
    refine if_neg ?_
    rintro ⟨hk, hn⟩
    exact (h ns0 at0 hs).elim (· hk) (· hn)
  next => rfl

/-- A tap locked on a tick to the second of two frames. -/
def lockedTap (ns : BitVec 64) (tick : Nat) (t : Tap) : Tap :=
  { t with locked := true, cnt := ns + 80, cntAt := tick, seen := none, errs := 0, badNs := 0, badCrc := 0,
           everLocked := true, resync := false }

/-- A tap that locks: what it holds, and what stays. -/
theorem tapLock_tap : (tapGet (tapLock n ns s).unit n).locked = true ∧ (tapGet (tapLock n ns s).unit n).cnt = ns + 80 ∧
    (tapGet (tapLock n ns s).unit n).errs = 0 ∧ (tapLock n ns s).dist = s.dist ∧
    ∀ m, m ≠ n → tapGet (tapLock n ns s).unit m = tapGet s.unit m := by
  have hput : ∀ (t : Tap) (v : UnitState), v.taps = s.unit.taps → t.locked = true ∧ t.cnt = ns + 80 ∧ t.errs = 0 →
      ((tapGet (tapPut n t v) n).locked = true ∧ (tapGet (tapPut n t v) n).cnt = ns + 80 ∧ (tapGet (tapPut n t v) n).errs = 0) ∧
      ∀ m, m ≠ n → tapGet (tapPut n t v) m = tapGet s.unit m := fun t v hv ht =>
    ⟨by rw [tapGet_tapPut_same]; exact ht, fun m hm => (tapGet_tapPut_other hm).trans (tapGet_of_taps hv)⟩
  have hv : (if s.unit.base.valid then uB (pgEvt 0x05 1) s.unit else s.unit).taps = s.unit.taps := by split <;> rfl
  unfold tapLock
  extract_lets t s'
  obtain ⟨⟨hlk, hcnt, herr⟩, hoth⟩ := hput (lockedTap ns s.unit.base.tick t) _ hv ⟨rfl, rfl, rfl⟩
  split
  · have htaps : ∀ m, tapGet (logU uTapResync noPort n 0 0 s').unit m = tapGet s'.unit m :=
      fun m => tapGet_of_taps (logU_taps _ _ _ _ _ _)
    refine ⟨?_, ?_, ?_, logU_dist _ _ _ _ _ _, fun m hm => (htaps m).trans (hoth m hm)⟩
    · rw [htaps]; exact hlk
    · rw [htaps]; exact hcnt
    · rw [htaps]; exact herr
  · exact ⟨hlk, hcnt, herr, rfl, hoth⟩

/-- The second bad frame in a row of a locked tap makes it invalid with MISMATCH. -/
theorem tapSyncOp_faults (he : tapEn s.unit n = true) (hl : (tapGet s.unit n).locked = true)
    (h : (crc ≠ crc8 ns ∧ 1 ≤ (tapGet s.unit n).badCrc) ∨
      (crc = crc8 ns ∧ tapCount s.unit n ≠ ns + 80 ∧ 1 ≤ (tapGet s.unit n).badNs)) :
    tapSyncOp n ns crc s = logU uTapFault noPort n 0 0 (onUnit (tapFail n 1) s) := by
  rw [tapSyncOp_of_locked he hl]
  rcases h with ⟨hc, hb⟩ | ⟨hc, ht, hb⟩
  · have hf : (crc == crc8 ns) = false := beq_eq_false_iff_ne.mpr hc
    rw [hf, Bool.false_and, if_neg Bool.false_ne_true, if_pos]
    exact .inl (by rw [if_neg Bool.false_ne_true]; omega)
  · have hf : (crc == crc8 ns) = true := beq_iff_eq.mpr hc
    rw [hf, Bool.true_and, if_neg (fun hh => ht (beq_iff_eq.mp hh)), if_pos]
    exact .inr (by rw [if_pos rfl]; omega)

theorem tapSyncOp_good (he : tapEn s.unit n = true) (hl : (tapGet s.unit n).locked = true)
    (ht : tapCount s.unit n = ns + 80) :
    tapSyncOp n ns (crc8 ns) s = onUnit (tapPut n { tapGet s.unit n with badNs := 0, badCrc := 0 }) s := by
  rw [tapSyncOp_of_locked he hl, if_pos (by rw [ht]; simp)]
theorem tapSyncOp_first_off (he : tapEn s.unit n = true) (hl : (tapGet s.unit n).locked = true)
    (ht : tapCount s.unit n ≠ ns + 80) (hb : (tapGet s.unit n).badNs = 0) : tapSyncOp n ns (crc8 ns) s =
      onUnit (tapPut n { tapGet s.unit n with badNs := 1, badCrc := 0, errs := satInc 127 (tapGet s.unit n).errs }) s := by
  rw [tapSyncOp_of_locked he hl, if_neg (by simpa using ht)]
  simp only [BEq.rfl, if_true, hb, Nat.zero_add, Nat.not_ofNat_le_one, Nat.le_zero_eq, OfNat.ofNat_ne_zero, or_self, if_false]
theorem tapSyncOp_first_bad (he : tapEn s.unit n = true) (hl : (tapGet s.unit n).locked = true)
    (hc : crc ≠ crc8 ns) (hb : (tapGet s.unit n).badCrc = 0) : tapSyncOp n ns crc s =
      onUnit (tapPut n { tapGet s.unit n with badNs := 0, badCrc := 1, errs := satInc 127 (tapGet s.unit n).errs }) s := by
  have hf : (crc == crc8 ns) = false := beq_eq_false_iff_ne.mpr hc
  rw [tapSyncOp_of_locked he hl, hf, Bool.false_and, if_neg Bool.false_ne_true]
  simp only [Bool.false_eq_true, if_false, hb, Nat.zero_add, Nat.not_ofNat_le_one, Nat.le_zero_eq, OfNat.ofNat_ne_zero, or_self]

end

/-! ## The applied delay (R198, R199, R201) -/

section
variable {loop : Nat}

/-- The applied delay one step closer to the mean of the loop. -/
def steppedDelay (u : UnitState) (n loop : Nat) : Nat :=
  let a := (tapGet u n).applied
  let w2 : Int := (loop : Int) + 2 * tapTrim u n
  if 2 * (a : Int) + 2 ≤ w2 then a + 1 else if w2 ≤ 2 * (a : Int) - 2 then a - 1 else a

theorem tapDelayOp_of_off (h : tapEn s.unit n = false) : tapDelayOp n loop s = s := if_pos (by rw [h]; rfl)
theorem tapDelayOp_of_range (he : tapEn s.unit n = true) (hw : (loop : Int) + 2 * tapTrim s.unit n ≤ 1024) :
    tapDelayOp n loop s = onUnit (fun u =>
      tapPut n { tapGet s.unit n with applied := steppedDelay s.unit n loop, outRange := false }
        (if steppedDelay s.unit n loop = (tapGet s.unit n).applied then u else
          uB (emit (.tapLine n (Tap.lead { tapGet s.unit n with applied := steppedDelay s.unit n loop, outRange := false })
            (Tap.line { tapGet s.unit n with applied := steppedDelay s.unit n loop, outRange := false }))) u)) s := by
  refine (if_neg ?_).trans (if_neg (Int.not_lt.mpr hw))
  rw [he]
  decide

theorem steppedDelay_near : steppedDelay u n loop ≤ (tapGet u n).applied + 1 ∧ (tapGet u n).applied ≤ steppedDelay u n loop + 1 := by
  simp only [steppedDelay]
  split
  · omega
  · split <;> omega

theorem tapDelayOp_keeps_range (he : tapEn s.unit n = true) (hw : (loop : Int) + 2 * tapTrim s.unit n ≤ 1024) :
    (tapDelayOp n loop s).unit.base.regs = s.unit.base.regs ∧ (tapDelayOp n loop s).dist = s.dist ∧
      tapGet (tapDelayOp n loop s).unit n =
        { tapGet s.unit n with applied := steppedDelay s.unit n loop, outRange := false } ∧
      (steppedDelay s.unit n loop = (tapGet s.unit n).applied → (tapDelayOp n loop s).unit.base = s.unit.base) := by
  rw [tapDelayOp_of_range he hw, onUnit_unit]
  refine ⟨?_, rfl, tapGet_tapPut_same, fun h => ?_⟩
  · rw [tapPut_base]
    split <;> rfl
  · rw [if_pos h, tapPut_base]

theorem tapDelayOp_out_of_range (he : tapEn s.unit n = true) (hw : 1024 < (loop : Int) + 2 * tapTrim s.unit n) :
    (tapGet (tapDelayOp n loop s).unit n).outRange = true ∧ (tapGet (tapDelayOp n loop s).unit n).locked = false ∧
      (tapDelayOp n loop s).dist = s.dist := by
  have hunlocked : (tapGet (if (tapGet s.unit n).locked then tapFail n 3 s.unit else s.unit) n).locked = false := by
    split
    · rw [tapGet_tapFail_same]
      rfl
    · exact Bool.eq_false_iff.mpr ‹_›
  rw [tapDelayOp, if_neg (by rw [he]; decide), if_pos hw]
  extract_lets s1 s2
  have hs2 : tapGet s2.unit n = { tapGet s1.unit n with outRange := true } := tapGet_tapPut_same
  split
  · exact ⟨by rw [hs2], by rw [hs2]; exact hunlocked, rfl⟩
  · have hlog : tapGet (logU uTapRange noPort n 0 0 s2).unit n = tapGet s2.unit n := tapGet_of_taps (logU_taps _ _ _ _ _ _)
    exact ⟨by rw [hlog, hs2], by rw [hlog, hs2]; exact hunlocked, logU_dist _ _ _ _ _ _⟩

end

/-! ## A lost return, RESYNC and EN (R202, R203) -/

theorem tapResyncOp_of_mismatch (hl : (tapGet u n).locked = false) (hc : (tapGet u n).cause = 1) :
    tapResyncOp n u = tapPut n { tapGet u n with resync := true, seen := none } u := if_pos (by rw [hl, hc]; rfl)
theorem tapResyncOp_of_other (h : (tapGet u n).locked = true ∨ (tapGet u n).cause ≠ 1) : tapResyncOp n u = u := by
  refine if_neg ?_
  rw [Bool.and_eq_true, Bool.not_eq_true', beq_iff_eq]
  rintro ⟨hl, hc⟩
  exact h.elim (fun hl' => absurd (hl'.symm.trans hl) (by decide)) (fun hc' => hc' hc)

theorem tapCtl_ne_event : tapCtlAddr n ≠ pageAddr 0x05 0x010 ∧ tapCtlAddr n ≠ 0x05050 := by
  constructor <;> simp only [tapCtlAddr, pageAddr] <;> omega

theorem tapEnOp_en {en : Bool} (h : n < regions u) : tapEn (tapEnOp n en u) n = en ∧
    (en = true ∨ tapEn u n = false → (tapEnOp n en u).taps = u.taps) ∧
    (en = false → tapEn u n = true → (tapGet (tapEnOp n en u) n).locked = false) := by
  have hw : tapEn (uB (wrB (tapCtlAddr n) 0 en) u) n = en := by
    have hr : regions (uB (wrB (tapCtlAddr n) 0 en) u) = regions u := rfl
    rw [tapEn, hr, decide_eq_true h, Bool.true_and]
    exact rdB_wrB_same (by decide)
  rw [tapEnOp, if_pos h]
  extract_lets was v
  split
  next hd =>
    rw [Bool.and_eq_true, Bool.not_eq_true'] at hd
    refine ⟨?_, fun ho => ?_, fun _ _ => ?_⟩
    · exact (tapEn_congr tapFail_kind (rd_tapFail tapCtl_ne_event.1 tapCtl_ne_event.2)).trans hw
    · rcases ho with ho | ho
      · rw [ho] at hd
        exact absurd hd.2 (by decide)
      · exact absurd (ho.symm.trans hd.1) (by decide)
    · rw [tapGet_tapFail_same]
      rfl
  next hd =>
    refine ⟨hw, fun _ => rfl, fun he hwas => absurd ?_ hd⟩
    show (tapEn u n && !en) = true
    rw [hwas, he]
    rfl
theorem tapEnOp_of_absent {en : Bool} (h : regions u ≤ n) : tapEnOp n en u = u := if_neg (Nat.not_lt.mpr h)

/-! ## Reads of the time (R209) -/

section
variable {port : Nat}
theorem tapReadOp_answers (hn : n < regions u) (hp : port < (cfgOf u.base).tapPorts) :
    tabGet {} (n * 16 + port) (tapReadOp n port u).tapPorts =
      { ack := !(tabGet {} (n * 16 + port) u.tapPorts).ack, ns := tapCount u n, valid := tapValid u n,
        hold := rdB u.base 0x02070 3 } ∧ (tapReadOp n port u).taps = u.taps := by
  rw [tapReadOp, if_pos ⟨hn, hp⟩]
  extract_lets k old ns v h u'
  exact ⟨tabGet_tabSet_same _ _ _ _, rfl⟩
theorem tapReadOp_of_absent (h : regions u ≤ n ∨ (cfgOf u.base).tapPorts ≤ port) : tapReadOp n port u = u :=
  if_neg (by rintro ⟨hn, hp⟩; rcases h with h | h <;> omega)
end

/-! ## Stops of a region (R207, R208) -/

theorem regionStopOp_of_same {v : Bool} (h : (tapGet u n).stopped = v) : regionStopOp n v u = u :=
  if_neg fun hh => hh.2 h
theorem regionStopOp_of_back {v : Bool} {c : RegionChg} (hn : n < regions u) (h : (tapGet u n).stopped ≠ v)
    (hr : reversed u n = some c) : regionStopOp n v u = regionBack n v c u := by
  rw [regionStopOp, if_pos ⟨hn, h⟩, hr]
theorem regionStopOp_stops (hn : n < regions u) (hr : reversed u n = none) (hs : (tapGet u n).stopped = false) :
    (tapGet (regionStopOp n true u) n).stopped = true ∧ stopAt (regionStopOp n true u) n = (nsNow u.base).toNat - 2 := by
  rw [regionStopOp, if_pos ⟨hn, by rw [hs]; decide⟩, hr]
  simp only [if_true]
  refine ⟨?_, ?_⟩
  · refine (congrArg Tap.stopped (tapGet_of_taps (uB_taps ..))).trans ?_
    rw [tapGet_tapPut_same]
  · rw [stopAt, uB_base, tapPut_base, pgEvt, rd64_wrB_other (by simp only [stopAtAddr, pageAddr]; omega)
      (by simp only [stopAtAddr, pageAddr]; omega), rd64_wr64, BitVec.toNat_ofNat]
    exact Nat.mod_eq_of_lt (Nat.lt_of_le_of_lt (Nat.sub_le _ _) (nsNow u.base).isLt)

theorem regionEdgeOp_stop : regionEdgeOp n true s = onUnit (regionStopOp n true) s :=
  if_neg (by rw [Bool.not_true, Bool.and_false]; decide)
theorem regionEdgeOp_of_same {v : Bool} (h : (tapGet s.unit n).stopped = v) : regionEdgeOp n v s = s := by
  have hself : onUnit (regionStopOp n v) s = s := onUnit_of_self (regionStopOp_of_same h)
  cases v with
  | true => rw [regionEdgeOp_stop, hself]
  | false =>
    simp only [regionEdgeOp, h, Bool.false_and, Bool.false_eq_true, if_false]
    exact hself
theorem regionEdgeOp_resume (h : (tapGet s.unit n).stopped = true) (hr : reversed s.unit n = none) :
    regionEdgeOp n false s = resumeLaunches n (onUnit (regionStopOp n false) s) := by
  simp only [regionEdgeOp, h, hr, Bool.not_false, Bool.and_self, if_true, Option.isSome_none, Bool.false_eq_true, if_false]
theorem regionEdgeOp_back {c : RegionChg} (h : (tapGet s.unit n).stopped = true) (hr : reversed s.unit n = some c) :
    regionEdgeOp n false s = unstopLaunches n (onUnit (regionStopOp n false) s) := by
  simp only [regionEdgeOp, h, hr, Bool.not_false, Bool.and_self, if_true, Option.isSome_some]

end

/-- Settles O48: each command of a tap is read off the case that its state selects. -/
theorem tapsKeepTime : Obligations.TapsKeepTime := by
  unfold Obligations.TapsKeepTime
  intro n s hlive
  have hnext : ∀ {f : State → State} {t : State}, f s = t → (.next (ifUnit f s) : Host.Outcome State Fault Refusal) = .next t :=
    fun ht => next_of_unitLive hlive ht
  have htaps : ∀ {h : Hap} {port obj uid aux m : Nat} {t : State},
      tapGet (logU h port obj uid aux t).unit m = tapGet t.unit m := tapGet_of_taps (logU_taps _ _ _ _ _ _)
  refine ⟨?_, ?_, ?_, ?_, ?_, ?_, ?_, ?_, ?_, ?_, ?_, ?_, ?_, ?_, ?_, ?_, ?_, ?_, ?_, ?_, ?_, ?_, ?_, ?_, ?_⟩
  · exact ⟨onUnit syncSendOp s, hnext rfl, rfl, syncSendOp_outs.2, syncSendOp_outs.1⟩
  · exact fun ns crc h => hnext (tapSyncOp_of_off h)
  · intro ns k hm hl hs hk
    obtain ⟨hlk, hcnt, herr, hdist, hoth⟩ := tapLock_tap (s := s) (n := n.toNat) (ns := ns + 128)
    refine ⟨tapLock n.toNat (ns + 128) s, hnext (tapSyncOp_locks hm hl hs hk), hlk, hcnt.trans ?_, herr, hdist, hoth⟩
    rw [BitVec.add_assoc]
    rfl
  · exact fun ns hm hl h => hnext (tapSyncOp_notes hm hl h)
  · exact fun ns crc hm hl hc => hnext ((tapSyncOp_of_waiting hm hl).trans (if_pos (by simpa using hc)))
  · exact fun ns crc hm hl => hnext (tapSyncOp_of_barred hm hl)
  · exact fun ns he hl => ⟨fun ht => hnext (tapSyncOp_good he hl ht), fun ht hb => hnext (tapSyncOp_first_off he hl ht hb),
      fun crc hc hb => hnext (tapSyncOp_first_bad he hl hc hb)⟩
  · intro ns crc he hl hever h
    refine ⟨logU uTapFault noPort n.toNat 0 0 (onUnit (tapFail n.toNat 1) s), hnext (tapSyncOp_faults he hl h), ?_, ?_,
      logU_dist _ _ _ _ _ _, fun m hm => ?_⟩
    · rw [htaps, onUnit_unit, tapGet_tapFail_same]
      rfl
    · rw [htaps, onUnit_unit, tapGet_tapFail_same]
      exact if_pos hever
    · rw [htaps, onUnit_unit, tapGet_tapFail_other hm]
  · intro loop he hw
    obtain ⟨hregs, hdist, htap, hbase⟩ := tapDelayOp_keeps_range he hw
    refine ⟨tapDelayOp n.toNat loop.toNat s, hnext rfl, hregs, hdist, ?_⟩
    rw [htap]
    exact ⟨rfl, rfl, rfl, steppedDelay_near.1, steppedDelay_near.2, hbase⟩
  · exact fun loop he hw => ⟨tapDelayOp n.toNat loop.toNat s, hnext rfl, tapDelayOp_out_of_range he hw⟩
  · exact fun loop h => hnext (tapDelayOp_of_off h)
  · exact fun h => hnext (if_pos h)
  · exact fun h => hnext (if_neg (Bool.eq_false_iff.mp h))
  · intro hl hc
    refine ⟨onUnit (tapResyncOp n.toNat) s, hnext rfl, ?_⟩
    rw [onUnit_unit, tapResyncOp_of_mismatch hl hc, tapGet_tapPut_same, tapPut_base]
    exact ⟨rfl, rfl⟩
  · exact fun h => hnext (onUnit_of_self (tapResyncOp_of_other h))
  · intro en hn
    obtain ⟨hen, hkeep, hunlock⟩ := tapEnOp_en (u := s.unit) (en := en) hn
    exact ⟨onUnit (tapEnOp n.toNat en) s, hnext rfl, hen, rfl, hkeep, hunlock⟩
  · exact fun port hn hp => ⟨onUnit (tapReadOp n.toNat port.toNat) s, hnext rfl, tapReadOp_answers hn hp⟩
  · exact fun port h => hnext (onUnit_of_self (tapReadOp_of_absent h))
  · intro hn hr hs
    obtain ⟨hstop, hat⟩ := regionStopOp_stops hn hr hs
    exact ⟨onUnit (regionStopOp n.toNat true) s, hnext regionEdgeOp_stop, hstop, hat, rfl⟩
  · exact fun h hr => hnext (regionEdgeOp_resume h hr)
  · refine fun c hn hr => ⟨fun h => ?_, fun h => ?_⟩
    · exact hnext (regionEdgeOp_stop.trans (onUnit_congr (regionStopOp_of_back hn (by rw [h]; decide) hr)))
    · refine hnext ((regionEdgeOp_back h hr).trans ?_)
      rw [onUnit_congr (regionStopOp_of_back hn (by rw [h]; decide) hr)]
  · exact hnext regionEdgeOp_stop
  · exact fun h => hnext (regionEdgeOp_of_same h)
  · exact fun h => hnext (regionEdgeOp_of_same h)
  · exact fun en h => hnext (onUnit_of_self (tapEnOp_of_absent h))

end Sys2Proof.Proofs
end


section
/-! PROOFS. Capture records and Drip outputs (O49). -/

namespace Sys2Proof.Proofs
open Sys2Proof Sys2Proof.Machine

section
variable {u v w : UnitState} {s : State} {k j : Nat}

/-! ## An edge at the capture channels (R212 to R220) -/

/-- What an edge at a capture channel leaves: the objects that are not the capture block, and every register outside its
page. -/
structure SameButCapture (u v : UnitState) : Prop where
  drips : v.drips = u.drips
  taps : v.taps = u.taps
  sems : v.sems = u.sems
  regs : ∀ a, a / 0x1000 ≠ 6 → rd v.base a = rd u.base a
  kind : v.base.kind = u.base.kind
  ns : v.base.ns = u.base.ns

theorem SameButCapture.refl (u : UnitState) : SameButCapture u u := ⟨rfl, rfl, rfl, fun _ _ => rfl, rfl, rfl⟩
theorem SameButCapture.trans (h : SameButCapture u v) (h' : SameButCapture v w) : SameButCapture u w :=
  ⟨h'.drips.trans h.drips, h'.taps.trans h.taps, h'.sems.trans h.sems, fun a ha => (h'.regs a ha).trans (h.regs a ha),
    h'.kind.trans h.kind, h'.ns.trans h.ns⟩

theorem capChans_le : capChans u ≤ 16 := by
  unfold capChans
  split <;> omega

section
variable {kind idx : Nat} {fall : Bool} {frac : BitVec 6}

theorem capEdge1_of_invalid (h : u.base.valid = false) : capEdge1 k kind idx fall frac u = uB (incF 0x06040 16 16) u :=
  if_pos (by rw [h]; rfl)

theorem capEdge1_sameButCapture (hk : k < 16) : SameButCapture u (capEdge1 k kind idx fall frac u) := by
  have hpage : ∀ a, a / 0x1000 ≠ 6 → a ≠ 0x06040 ∧ a ≠ capCtlAddr k + 0x18 := fun a ha => by
    simp only [capCtlAddr]
    omega
  unfold capEdge1
  extract_lets c t close r u'
  split
  · exact ⟨rfl, rfl, rfl, fun a ha => rd_wrF_other (hpage a ha).1, rfl, rfl⟩
  · split
    · exact .refl u
    · split
      · exact ⟨rfl, rfl, rfl, fun a ha => rd_inc_other (hpage a ha).2, rfl, rfl⟩
      · exact ⟨rfl, rfl, rfl, fun _ _ => rfl, rfl, rfl⟩

/-- The record that a channel makes of an edge. -/
def edgeRecord (u : UnitState) (k : Nat) (fall : Bool) (frac : BitVec 6) : CapRec :=
  { ns := u.base.ns, frac := frac, chan := BitVec.ofNat 4 k, fall := fall, domb := rdB u.base 0x02070 4,
    hold := rdB u.base 0x02070 3, lost := (capChan u k).lostEdge, at_ := u.base.tick + 96 }

/-- An edge that a channel records. -/
theorem capEdge1_records (hv : u.base.valid = true) (ht : kind ≠ 1 ∨ tapValid u idx = true) (ho : capOutside u k = false)
    (hc : ∀ p, (capChan u k).last = some p → p + 128 ≤ u.base.ns.toNat * 64 + frac.toNat) :
    (capEdge1 k kind idx fall frac u).cap.queue = u.cap.queue ∧ (capEdge1 k kind idx fall frac u).base = u.base ∧
      (capEdge1 k kind idx fall frac u).cap.flight = capInsert (edgeRecord u k fall frac) u.cap.flight := by
  have hno : ¬ (!u.base.valid || (kind == 1 && !tapValid u idx)) = true := by
    rw [hv]
    rcases ht with ht | ht
    · rw [beq_eq_false_iff_ne.mpr ht]
      exact Bool.false_ne_true
    · rw [ht, Bool.not_true, Bool.and_false]
      exact Bool.false_ne_true
  have hfar : ¬ (match (capChan u k).last with
      | some p => decide (u.base.ns.toNat * 64 + frac.toNat < p + 128)
      | none => false) = true := by
    cases hp : (capChan u k).last with
    | none => exact Bool.false_ne_true
    | some p => exact fun hd => absurd (hc p hp) (Nat.not_le.mpr (of_decide_eq_true hd))
  rw [capEdge1, if_neg hno, if_neg (Bool.eq_false_iff.mp ho)]
  extract_lets c t close r u'
  have hclose : ¬ close = true := hfar
  rw [if_neg hclose]
  exact ⟨rfl, rfl, rfl⟩

theorem capTakes_congr (h : u.base = v.base) : capTakes u k kind idx fall = capTakes v k kind idx fall := by
  simp only [capTakes, capEnabled, capSrcExists, capChans, capPads, regions, dripChans, h]
  rfl

/-- One step of the fold over the channels. -/
def edgeStep (kind idx : Nat) (fall : Bool) (frac : BitVec 6) (u : UnitState) (k : Nat) : UnitState :=
  if capTakes u k kind idx fall then capEdge1 k kind idx fall frac u else u

theorem captureEdgeOp_eq : captureEdgeOp kind idx fall frac u =
    (List.range (capChans u)).foldl (edgeStep kind idx fall frac) u := rfl

theorem foldl_edgeStep_of_none {l : List Nat} (h : ∀ k ∈ l, capTakes u k kind idx fall = false) :
    l.foldl (edgeStep kind idx fall frac) u = u := by
  induction l with
  | nil => rfl
  | cons k l ih =>
    have hk : edgeStep kind idx fall frac u k = u := if_neg (Bool.eq_false_iff.mp (h k (List.mem_cons_self ..)))
    rw [List.foldl_cons, hk]
    exact ih fun j hj => h j (List.mem_cons_of_mem k hj)

theorem captureEdgeOp_of_none (h : ∀ k, k < capChans u → capTakes u k kind idx fall = false) :
    captureEdgeOp kind idx fall frac u = u :=
  captureEdgeOp_eq.trans (foldl_edgeStep_of_none fun k hk => h k (List.mem_range.mp hk))

theorem captureEdgeOp_of_one (hk : k < capChans u) (ht : capTakes u k kind idx fall = true)
    (ho : ∀ j, j ≠ k → capTakes u j kind idx fall = false)
    (hb : (capEdge1 k kind idx fall frac u).base = u.base) :
    captureEdgeOp kind idx fall frac u = capEdge1 k kind idx fall frac u := by
  obtain ⟨l, m, hl⟩ := List.append_of_mem (List.mem_range.mpr hk)
  have hnodup : (l ++ k :: m).Nodup := hl ▸ List.nodup_range
  rw [List.nodup_append] at hnodup
  obtain ⟨-, hm, hlm⟩ := hnodup
  rw [captureEdgeOp_eq, hl, List.foldl_append, List.foldl_cons, foldl_edgeStep_of_none fun j hj => ho j ?_]
  · rw [edgeStep, if_pos ht]
    refine foldl_edgeStep_of_none fun j hj => (capTakes_congr hb).trans (ho j ?_)
    rintro rfl
    exact (List.nodup_cons.mp hm).1 hj
  · exact hlm j hj k (List.mem_cons_self ..)

/-- An edge that is kept by nothing but the channels: what a fold of its steps leaves. -/
theorem captureEdgeOp_sameButCapture : SameButCapture u (captureEdgeOp kind idx fall frac u) := by
  rw [captureEdgeOp_eq]
  refine List.foldlRecOn (motive := SameButCapture u) _ _ (.refl u) fun x hx k hk => ?_
  rw [edgeStep]
  split
  · exact hx.trans (capEdge1_sameButCapture (Nat.lt_of_lt_of_le (List.mem_range.mp hk) capChans_le))
  · exact hx

/-- While the counter is not valid an edge makes no record. -/
theorem captureEdgeOp_of_invalid (h : u.base.valid = false) : (captureEdgeOp kind idx fall frac u).cap = u.cap := by
  rw [captureEdgeOp_eq]
  have hfold : (List.foldl (edgeStep kind idx fall frac) u (List.range (capChans u))).cap = u.cap ∧
      (List.foldl (edgeStep kind idx fall frac) u (List.range (capChans u))).base.valid = false := by
    refine List.foldlRecOn (motive := fun x : UnitState => x.cap = u.cap ∧ x.base.valid = false) _ _ ⟨rfl, h⟩ fun x hx k _ => ?_
    rw [edgeStep]
    split
    · rw [capEdge1_of_invalid hx.2]
      exact hx
    · exact hx
  exact hfold.1

end

/-! ## Records that enter the queue, and reads of it (R217 to R219) -/

theorem capMessage_cap {bits : BitVec 64} : (capMessage bits u).cap = u.cap := by
  unfold capMessage
  split
  · rw [pushReserve]
    split <;> rfl
  · rfl
theorem ite_unit_cap {c : Prop} [Decidable c] (h : v.cap = u.cap) : (if c then v else u).cap = u.cap := by
  split
  · exact h
  · rfl

theorem capEnter1_flight {r : CapRec} : (capEnter1 r s).unit.cap.flight = s.unit.cap.flight := by
  unfold capEnter1
  extract_lets u k c ctl bits full s1 s2
  have h1 : s1.unit.cap = s.unit.cap := ite_unit_cap capMessage_cap
  have hflight : s1.unit.cap.flight = s.unit.cap.flight := congrArg Cap.flight h1
  have h2 : s2.unit.cap.flight = s.unit.cap.flight := hflight
  split
  · split
    · exact h2
    · rw [logU_cap]
      exact h2
  · exact hflight

theorem capEnterOp_flight :
    (capEnterOp s).unit.cap.flight = s.unit.cap.flight.filter fun r => decide (s.unit.base.tick < r.at_) :=
  List.foldlRecOn (motive := fun x : State => x.unit.cap.flight = s.unit.cap.flight.filter fun r => decide (s.unit.base.tick < r.at_))
    _ _ rfl fun _ hx _ _ => capEnter1_flight.trans hx

theorem capEnterOp_of_none (h : ∀ r ∈ s.unit.cap.flight, s.unit.base.tick < r.at_) : capEnterOp s = s := by
  have hdue : (s.unit.cap.flight.filter fun r => decide (r.at_ ≤ s.unit.base.tick)) = [] :=
    List.filter_eq_nil_iff.mpr fun r hr => by simpa using h r hr
  have hstay : (s.unit.cap.flight.filter fun r => decide (s.unit.base.tick < r.at_)) = s.unit.cap.flight :=
    List.filter_eq_self.mpr fun r hr => decide_eq_true (h r hr)
  simp only [capEnterOp, hdue, List.foldl_nil]
  refine onUnit_of_self ?_
  rw [hstay]

theorem capReadOp_of_cons {ch : Nat} {r : BitVec 64} {q : List (BitVec 64)} (h : u.cap.queue = r :: q) :
    (capReadOp ch u).1 = lo32 r ∧ (capReadOp ch u).2.cap.queue = q ∧ (capReadOp ch u).2.base.outs = u.base.outs := by
  simp only [capReadOp, h, uB_base, uB_cap, latch_fields, and_self]
theorem capReadOp_of_nil {ch : Nat} (h : u.cap.queue = []) :
    (capReadOp ch u).1 = 0 ∧ (capReadOp ch u).2.cap = u.cap ∧ (capReadOp ch u).2.base.outs = u.base.outs := by
  simp only [capReadOp, h, uB_base, uB_cap, latch_fields, and_self]

/-! ## Registers of a Drip channel -/

theorem rd_occur {n a : Nat} {b : Base} : rd (occur n b) a = rd b a := by
  obtain ⟨e, he⟩ := occur_evc n b
  rw [he, rd_evc]

/-- A pulse at NS `n` of a channel would start at or after the end of the output window. -/
def pastWindow (u : UnitState) (k n : Nat) : Bool := dripBit u k 1 && (outWinEnd u).any fun e => decide (e ≤ n)

theorem dripBeyond_eq : dripBeyond u k = pastWindow u k (dripGet u k).next := by
  unfold dripBeyond pastWindow
  cases outWinEnd u <;> rfl
theorem pastWindow_congr {n : Nat} (h0 : rd v.base (dripAddr k 0x00) = rd u.base (dripAddr k 0x00))
    (h1 : rd v.base 0x14064 = rd u.base 0x14064) : pastWindow v k n = pastWindow u k n := by
  simp only [pastWindow, dripBit, rdB, rdF, h0, outWinEnd, h1]

/-! ## Arming (R223, R224) -/

/-- A channel as an accepted ARM leaves it. -/
def armedDrip (u : UnitState) (k : Nat) : Drip :=
  { dripGet u k with st := .armed, next := dripStart u k, num := 0, active := false, stop := none, suppLogged := false,
                     ttbArm := none, regArm := none }

/-- The registers that an accepted ARM writes. -/
def armRegs (k : Nat) (b : Base) : Base := inc 0x07044 (wrF (dripAddr k 0x20) 4 3 0 (wr (dripAddr k 0x24) 0 b))

/-- The unit after an accepted ARM, before the output window is looked at. -/
def armedUnit (u : UnitState) (k : Nat) : UnitState := uB (armRegs k) (dripPut k (armedDrip u k) u)

theorem dripArmOp_of_accepted (hk : k < dripChans s.unit) (hr : dripRefusal s.unit k = 0) : dripArmOp k s =
    (true, { s with unit := (if dripBeyond (armedUnit s.unit k) k then dripDone k (armedUnit s.unit k)
      else armedUnit s.unit k) }) := by
  rw [dripArmOp, if_neg (by simpa using hk), if_pos hr]
  rfl
theorem rd_armRegs {a : Nat} {b : Base} (h0 : a ≠ 0x07044) (h1 : a ≠ dripAddr k 0x20) (h2 : a ≠ dripAddr k 0x24) :
    rd (armRegs k b) a = rd b a := by
  rw [armRegs, rd_inc_other h0, rd_wrF_other h1, rd_wr_other h2]
theorem dripGet_uB {f : Base → Base} : dripGet (uB f u) j = dripGet u j := rfl
theorem dripGet_armedUnit : dripGet (armedUnit u k) k = armedDrip u k := by
  rw [armedUnit, dripGet_uB, dripGet_dripPut_same]
theorem dripBeyond_armed (hk : k < 8) : dripBeyond (armedUnit u k) k = pastWindow u k (dripStart u k) := by
  rw [dripBeyond_eq, dripGet_armedUnit]
  refine pastWindow_congr ?_ ?_
  · exact rd_armRegs (by simp only [dripAddr]; omega) (by simp only [dripAddr]; omega) (by simp only [dripAddr]; omega)
  · exact rd_armRegs (by decide) (by simp only [dripAddr]; omega) (by simp only [dripAddr]; omega)

theorem dripGet_of_drips (h : u.drips = v.drips) : dripGet u j = dripGet v j := by rw [dripGet, dripGet, h]
theorem dripDone_drips : (dripDone k u).drips = (dripPut k { dripGet u k with st := .done, active := false, stop := none } u).drips :=
  rfl
theorem dripGet_dripDone_same : dripGet (dripDone k u) k = { dripGet u k with st := .done, active := false, stop := none } :=
  (dripGet_of_drips dripDone_drips).trans dripGet_dripPut_same
theorem dripGet_dripDone_other (h : j ≠ k) : dripGet (dripDone k u) j = dripGet u j :=
  (dripGet_of_drips dripDone_drips).trans (dripGet_dripPut_other h)

theorem dripChans_le : dripChans u ≤ 8 := by
  unfold dripChans
  split <;> omega

theorem dripRefusal_busy (h : dripRefusal u k = 0) : dripBusy u k = false := by
  cases hb : dripBusy u k with
  | false => rfl
  | true =>
    exfalso
    unfold dripRefusal at h
    rw [hb] at h
    split at h
    · cases h
    · rw [if_pos rfl] at h
      cases h

theorem dripRegArm_of_now (h : dripBusy s.unit k = false ∨ ∀ i, (dripGet s.unit k).ttbArm ≠ some (s.unit.base.tick, i)) :
    dripRegArm k s = dripArmNow k s := by
  cases ht : (dripGet s.unit k).ttbArm with
  | none => simp only [dripRegArm, ht]
  | some a =>
    obtain ⟨t, i⟩ := a
    simp only [dripRegArm, ht]
    refine if_neg ?_
    rintro ⟨rfl, hb⟩
    rcases h with h | h
    · exact absurd (h.symm.trans hb) (by decide)
    · exact h i ht

theorem dripArmNow_of_accepted {v : UnitState} (h : dripArmOp k s = (true, { s with unit := v })) :
    dripArmNow k s = { s with unit := dripPut k { dripGet v k with regArm := some v.base.tick } v } := by
  simp only [dripArmNow, h, if_true]
  rfl

theorem dripArmOp_of_refused (hr : dripRefusal s.unit k ≠ 0) :
    (dripArmOp k s).1 = false ∧ (dripArmOp k s).2.unit.drips = s.unit.drips := by
  by_cases hk : dripChans s.unit ≤ k
  · rw [dripArmOp, if_pos (by simpa using hk)]
    exact ⟨rfl, rfl⟩
  · rw [dripArmOp, if_neg (by simpa using hk), if_neg hr]
    exact ⟨rfl, logU_drips _ _ _ _ _ _⟩
theorem dripArmNow_of_refused (hr : dripRefusal s.unit k ≠ 0) : (dripArmNow k s).unit.drips = s.unit.drips := by
  obtain ⟨hno, hd⟩ := dripArmOp_of_refused hr
  rw [dripArmNow, if_neg (Bool.eq_false_iff.mp hno)]
  exact hd

/-- The channel after an accepted ARM whose START lies before the end of the output window. -/
theorem dripRegArm_arms (hk : k < dripChans s.unit) (hr : dripRefusal s.unit k = 0)
    (hw : dripBit s.unit k 1 = false ∨ ∀ e, outWinEnd s.unit = some e → dripStart s.unit k < e) :
    dripGet (dripRegArm k s).unit k = { armedDrip s.unit k with regArm := some s.unit.base.tick } ∧
      ∀ j, j ≠ k → dripGet (dripRegArm k s).unit j = dripGet s.unit j := by
  have hno : ¬ dripBeyond (armedUnit s.unit k) k = true := by
    rw [dripBeyond_armed (Nat.lt_of_lt_of_le hk dripChans_le), pastWindow, Bool.and_eq_true, Option.any_eq_true]
    rintro ⟨hb, e, he, hle⟩
    rcases hw with hw | hw
    · exact absurd (hw.symm.trans hb) (by decide)
    · exact absurd (hw e he) (Nat.not_lt.mpr (of_decide_eq_true hle))
  have hop := dripArmOp_of_accepted hk hr
  rw [if_neg hno] at hop
  rw [dripRegArm_of_now (.inl (dripRefusal_busy hr)), dripArmNow_of_accepted hop]
  refine ⟨?_, fun j hj => ?_⟩
  · rw [dripGet_dripPut_same, dripGet_armedUnit]
    rfl
  · rw [dripGet_dripPut_other hj, armedUnit, dripGet_uB, dripGet_dripPut_other hj]

/-- The channel after an accepted ARM whose START lies beyond the output window. -/
theorem dripRegArm_beyond {e : Nat} (hk : k < dripChans s.unit) (hr : dripRefusal s.unit k = 0) (hb : dripBit s.unit k 1 = true)
    (he : outWinEnd s.unit = some e) (hle : e ≤ dripStart s.unit k) :
    (dripGet (dripRegArm k s).unit k).st = .done ∧ ∀ j, j ≠ k → dripGet (dripRegArm k s).unit j = dripGet s.unit j := by
  have hyes : dripBeyond (armedUnit s.unit k) k = true := by
    rw [dripBeyond_armed (Nat.lt_of_lt_of_le hk dripChans_le), pastWindow, hb, he]
    exact decide_eq_true hle
  have hop := dripArmOp_of_accepted hk hr
  rw [if_pos hyes] at hop
  rw [dripRegArm_of_now (.inl (dripRefusal_busy hr)), dripArmNow_of_accepted hop]
  refine ⟨?_, fun j hj => ?_⟩
  · rw [dripGet_dripPut_same, dripGet_dripDone_same]
  · rw [dripGet_dripPut_other hj, dripGet_dripDone_other hj, armedUnit, dripGet_uB, dripGet_dripPut_other hj]

/-- A register arming on the tick of a timetable entry's. -/
theorem dripRegArm_of_ttb {i : Nat} (hb : dripBusy s.unit k = true) (ht : (dripGet s.unit k).ttbArm = some (s.unit.base.tick, i)) :
    (dripGet (dripRegArm k s).unit k).st = (dripGet s.unit k).st ∧
      ttbGet (dripRegArm k s).unit i = { ttbGet s.unit i with result := rBusy } ∧
      (dripRegArm k s).unit.base = s.unit.base ∧ (dripRegArm k s).dist = s.dist := by
  simp only [dripRegArm, ht, hb, and_self, if_true]
  refine ⟨?_, ?_, rfl, rfl⟩
  · rw [onUnit_unit, dripGet_dripPut_same]
  · exact tabGet_tabSet_same _ _ _ _

/-! ## Stopping (R225) -/

theorem dripStopOp_of_none (h : dripBusy u k = false ∨ (dripGet u k).stop.isSome = true) : dripStopOp k u = u := by
  refine if_neg ?_
  rcases h with h | h
  · rw [h]
    exact Bool.false_ne_true
  · rw [Option.isNone_eq_false_iff.mpr h, Bool.and_false]
    exact Bool.false_ne_true
theorem dripStopOp_notes (hb : dripBusy u k = true) (hs : (dripGet u k).stop = none) :
    dripStopOp k u = dripPut k { dripGet u k with stop := some (u.base.ns.toNat + 1) } u := if_pos (by rw [hb, hs]; rfl)
theorem dripSettle1_idle {x : Nat} (hb : dripBusy u k = true) (ha : (dripGet u k).active = false)
    (hs : (dripGet u k).stop = some x) (hx : x ≤ u.base.ns.toNat) (hn : x < (dripGet u k).next) :
    (dripGet (dripSettle1 k u) k).st = .idle := by
  simp only [dripSettle1, hs, hb, ha, hx, hn, decide_true, Bool.not_false, Bool.and_self, if_true, dripGet_dripPut_same]

/-! ## Pulses (R222, R225, R227, R501) -/

/-- A pad that takes a level: the channel holds the level, and what no capture channel holds is as it was. -/
theorem dripGet_dripPad {high : Bool} {fine : BitVec 6} :
    dripGet (dripPad k high fine u) k = { dripGet u k with level := high } := by
  unfold dripPad
  extract_lets d
  split
  next h =>
    rw [← h]
  next =>
    refine (dripGet_of_drips captureEdgeOp_sameButCapture.drips).trans ?_
    rw [dripGet_uB, dripGet_dripPut_same]
theorem rd_dripPad {high : Bool} {fine : BitVec 6} {a : Nat} (h : a / 0x1000 ≠ 6) :
    rd (dripPad k high fine u).base a = rd u.base a := by
  unfold dripPad
  extract_lets d
  split
  · rfl
  · rw [captureEdgeOp_sameButCapture.regs a h]
    rfl

/-- The level of a channel's pad while it is driven, or idle. -/
def padLevel (u : UnitState) (k : Nat) (on : Bool) : Bool := (on && dripBit u k 1) != dripBit u k 0
theorem dripGet_dripDrive {on : Bool} {fine : BitVec 6} :
    dripGet (dripDrive k on fine u) k = { dripGet u k with level := padLevel u k on } := dripGet_dripPad
theorem rd_dripDrive {on : Bool} {fine : BitVec 6} {a : Nat} (h : a / 0x1000 ≠ 6) :
    rd (dripDrive k on fine u).base a = rd u.base a := rd_dripPad h

theorem dripAfter_of_stop (h : (dripGet u k).stop.isSome = true) :
    dripGet (dripAfter k u) k = { dripGet u k with st := .idle, active := false, stop := none } := by
  rw [dripAfter, if_pos h, dripGet_dripPut_same]
theorem dripAfter_of_last (hs : (dripGet u k).stop = none)
    (h : dripPeriod u k = 0 ∨ (dripCount u k ≠ 0 ∧ dripCount u k ≤ (dripGet u k).num)) : dripAfter k u = dripDone k u := by
  rw [dripAfter, if_neg (by rw [hs]; decide), if_pos h]
theorem dripAfter_of_more (hs : (dripGet u k).stop = none)
    (h : ¬ (dripPeriod u k = 0 ∨ (dripCount u k ≠ 0 ∧ dripCount u k ≤ (dripGet u k).num))) : dripAfter k u =
      if dripBeyond (dripPut k { dripGet u k with active := false, next := dripStart u k + (dripGet u k).num * dripPeriod u k } u) k
      then dripDone k (dripPut k { dripGet u k with active := false, next := dripStart u k + (dripGet u k).num * dripPeriod u k } u)
      else dripPut k { dripGet u k with active := false, next := dripStart u k + (dripGet u k).num * dripPeriod u k } u := by
  rw [dripAfter, if_neg (by rw [hs]; decide), if_neg h]

/-- Whatever follows a pulse, the channel is not active, and its count and its pad's level are as they were. -/
theorem dripAfter_channel : (dripGet (dripAfter k u) k).active = false ∧ (dripGet (dripAfter k u) k).num = (dripGet u k).num ∧
    (dripGet (dripAfter k u) k).level = (dripGet u k).level := by
  cases hs : (dripGet u k).stop with
  | some x =>
    rw [dripAfter_of_stop (by rw [hs]; rfl)]
    exact ⟨rfl, rfl, rfl⟩
  | none =>
    by_cases h : dripPeriod u k = 0 ∨ (dripCount u k ≠ 0 ∧ dripCount u k ≤ (dripGet u k).num)
    · rw [dripAfter_of_last hs h, dripGet_dripDone_same]
      exact ⟨rfl, rfl, rfl⟩
    · rw [dripAfter_of_more hs h]
      split
      · rw [dripGet_dripDone_same, dripGet_dripPut_same]
        exact ⟨rfl, rfl, rfl⟩
      · rw [dripGet_dripPut_same]
        exact ⟨rfl, rfl, rfl⟩

/-- A pulse of a channel starts on this tick. -/
def pulseDue (u : UnitState) (k : Nat) : Bool :=
  !(!dripBusy u k || (dripGet u k).active || (match (dripGet u k).stop with
    | some t => decide (t < (dripGet u k).next)
    | none => false) || decide (u.base.ns.toNat < (dripGet u k).next))

/-- The channel as its pulse begins. -/
def pulsedDrip (u : UnitState) (k : Nat) : Drip := { dripGet u k with st := .running, num := (dripGet u k).num + 1 }

theorem pulseDue_of (hb : dripBusy u k = true) (hs : ∀ x, (dripGet u k).stop = some x → (dripGet u k).next ≤ x)
    (ha : (dripGet u k).active = false) (hn : (dripGet u k).next ≤ u.base.ns.toNat) : pulseDue u k = true := by
  have hstop : (match (dripGet u k).stop with
      | some t => decide (t < (dripGet u k).next)
      | none => false) = false := by
    cases h : (dripGet u k).stop with
    | none => rfl
    | some x => exact decide_eq_false (Nat.not_lt.mpr (hs x h))
  rw [pulseDue, hstop, hb, ha, decide_eq_false (Nat.not_lt.mpr hn)]
  rfl

theorem dripPulseOp_of_not_due (h : pulseDue s.unit k = false) : dripPulseOp k s = s := by
  rw [pulseDue, Bool.not_eq_false'] at h
  exact if_pos h

theorem not_pulseDue_of (h : dripBusy u k = false ∨ (dripGet u k).active = true ∨
    (∃ x, (dripGet u k).stop = some x ∧ x < (dripGet u k).next) ∨ u.base.ns.toNat < (dripGet u k).next) :
    pulseDue u k = false := by
  rw [pulseDue, Bool.not_eq_false']
  rcases h with h | h | ⟨x, hx, hlt⟩ | h
  · rw [h]; rfl
  · rw [h, Bool.or_true]; rfl
  · simp only [hx, decide_eq_true hlt, Bool.or_true, Bool.true_or]
  · rw [decide_eq_true h, Bool.or_true]

/-- The start of a pulse of a channel: the pad is driven, the pulse counted, and its source occurs where it asks for it. -/
def startPulse (k : Nat) (d : Drip) (u : UnitState) : UnitState :=
  let u := dripPut k d u
  let u := dripDrive k true (dripFine u k) (uB (inc (dripAddr k 0x24)) u)
  if dripBit u k 2 then uB (occur (64 + k)) u else u

/-- A pulse of a channel that is suppressed. -/
def suppressPulse (k : Nat) (d : Drip) (u : UnitState) : UnitState :=
  uB (inc 0x14078) (dripAfter k (dripPut k { d with suppLogged := true } u))

theorem dripPulseOp_of_due (h : pulseDue s.unit k = true) : dripPulseOp k s =
    if (dripBit s.unit k 1 && !inOutWindow s.unit (dripGet s.unit k).next (dripWidth s.unit k)) = true then
      if (dripGet s.unit k).suppLogged then onUnit (suppressPulse k (pulsedDrip s.unit k)) s
      else logU uLimSuppress noPort k 0 0 (onUnit (suppressPulse k (pulsedDrip s.unit k)) s)
    else onUnit (fun u => startPulse k { pulsedDrip s.unit k with
      active := true, endAt := (dripGet s.unit k).next + dripWidth u k } u) s := by
  rw [pulseDue, Bool.not_eq_true'] at h
  unfold dripPulseOp
  extract_lets u d stopped d' s1
  have hno : ¬ (!dripBusy u k || d.active || stopped || decide (u.base.ns.toNat < d.next)) = true := Bool.eq_false_iff.mp h
  rw [if_neg hno]
  rfl

theorem dripGet_startPulse {d : Drip} : ∃ l, dripGet (startPulse k d u) k = { d with level := l } := by
  unfold startPulse
  extract_lets v w
  have hw : dripGet w k = { d with level := padLevel (uB (inc (dripAddr k 0x24)) v) k true } := by
    refine dripGet_dripDrive.trans ?_
    rw [dripGet_uB, dripGet_dripPut_same]
  split
  · exact ⟨_, (dripGet_uB).trans hw⟩
  · exact ⟨_, hw⟩

theorem dripPulseOp_starts (h : pulseDue s.unit k = true)
    (hw : dripBit s.unit k 1 = false ∨ inOutWindow s.unit (dripGet s.unit k).next (dripWidth s.unit k) = true) :
    ∃ l, dripGet (dripPulseOp k s).unit k = { pulsedDrip s.unit k with
      active := true, endAt := (dripGet s.unit k).next + dripWidth s.unit k, level := l } := by
  rw [dripPulseOp_of_due h, if_neg]
  · exact dripGet_startPulse
  · rcases hw with hw | hw <;> simp [hw]

theorem dripPulseOp_suppresses (h : pulseDue s.unit k = true) (hb : dripBit s.unit k 1 = true)
    (hw : inOutWindow s.unit (dripGet s.unit k).next (dripWidth s.unit k) = false) :
    (dripGet (dripPulseOp k s).unit k).active = false ∧ (dripGet (dripPulseOp k s).unit k).num = (dripGet s.unit k).num + 1 ∧
      (dripGet (dripPulseOp k s).unit k).level = (dripGet s.unit k).level := by
  have hsup : ∀ {d : Drip} {u : UnitState}, (dripGet (suppressPulse k d u) k).active = false ∧
      (dripGet (suppressPulse k d u) k).num = d.num ∧ (dripGet (suppressPulse k d u) k).level = d.level := by
    intro d u
    obtain ⟨ha, hn, hl⟩ := dripAfter_channel (u := dripPut k { d with suppLogged := true } u) (k := k)
    rw [dripGet_dripPut_same] at hn hl
    exact ⟨ha, hn, hl⟩
  have hdrips : (dripPulseOp k s).unit.drips = (suppressPulse k (pulsedDrip s.unit k) s.unit).drips := by
    rw [dripPulseOp_of_due h, if_pos (by rw [hb, hw]; rfl)]
    split
    · rfl
    · exact logU_drips _ _ _ _ _ _
  rw [dripGet_of_drips hdrips]
  exact hsup

theorem dripEndOp_of_not_due (h : (dripGet u k).active = false ∨ u.base.ns.toNat < (dripGet u k).endAt) : dripEndOp k u = u := by
  refine if_neg ?_
  rcases h with h | h
  · rw [h]
    exact Bool.false_ne_true
  · rw [decide_eq_false (Nat.not_le.mpr h), Bool.and_false]
    exact Bool.false_ne_true

/-- A unit whose pulse of a channel has just ended: the channel is not active and its pad is idle. -/
def endedPulse (k : Nat) (u : UnitState) : UnitState :=
  dripDrive k false (dripFine u k) (dripPut k { dripGet u k with active := false } u)

theorem dripEndOp_of_due (ha : (dripGet u k).active = true) (he : (dripGet u k).endAt ≤ u.base.ns.toNat) :
    dripEndOp k u = dripAfter k (endedPulse k u) := if_pos (by rw [ha, decide_eq_true he]; rfl)

theorem dripGet_endedPulse : ∃ l, dripGet (endedPulse k u) k = { dripGet u k with active := false, level := l } :=
  ⟨_, dripGet_dripDrive.trans (by rw [dripGet_dripPut_same])⟩

/-- The end of a pulse leaves the channel's settings. -/
theorem endedPulse_settings (hk : k < 8) : dripPeriod (endedPulse k u) k = dripPeriod u k ∧
    dripCount (endedPulse k u) k = dripCount u k ∧ dripStart (endedPulse k u) k = dripStart u k ∧
    dripBit (endedPulse k u) k 1 = dripBit u k 1 := by
  have hr : ∀ o, o < 0x40 → rd (endedPulse k u).base (dripAddr k o) = rd u.base (dripAddr k o) := fun o ho => by
    refine rd_dripDrive ?_
    simp only [dripAddr]
    omega
  have hc : dripAddr k 0x08 + 4 = dripAddr k 0x0C := Nat.add_assoc _ _ _
  simp only [dripPeriod, dripCount, dripStart, dripBit, rdB, rdF, rd64, hr 0x10 (by decide), hr 0x18 (by decide),
    hr 0x08 (by decide), hr 0 (by decide), hc, hr 0x0C (by decide), and_self]

theorem dripEndOp_stopped (ha : (dripGet u k).active = true) (he : (dripGet u k).endAt ≤ u.base.ns.toNat)
    (hs : (dripGet u k).stop.isSome = true) :
    (dripGet (dripEndOp k u) k).st = .idle ∧ (dripGet (dripEndOp k u) k).active = false := by
  obtain ⟨l, hl⟩ := dripGet_endedPulse (u := u) (k := k)
  rw [dripEndOp_of_due ha he, dripAfter_of_stop (by rw [hl]; exact hs)]
  exact ⟨rfl, rfl⟩

theorem dripEndOp_last (hk : k < 8) (ha : (dripGet u k).active = true) (he : (dripGet u k).endAt ≤ u.base.ns.toNat)
    (hs : (dripGet u k).stop = none)
    (h : dripPeriod u k = 0 ∨ (dripCount u k ≠ 0 ∧ dripCount u k ≤ (dripGet u k).num)) :
    (dripGet (dripEndOp k u) k).st = .done ∧ (dripGet (dripEndOp k u) k).active = false := by
  obtain ⟨l, hl⟩ := dripGet_endedPulse (u := u) (k := k)
  obtain ⟨hper, hcnt, -, -⟩ := endedPulse_settings (u := u) hk
  rw [dripEndOp_of_due ha he, dripAfter_of_last (by rw [hl]; exact hs) (by rw [hper, hcnt, hl]; exact h), dripGet_dripDone_same]
  exact ⟨rfl, rfl⟩

theorem dripEndOp_next (hk : k < 8) (ha : (dripGet u k).active = true) (he : (dripGet u k).endAt ≤ u.base.ns.toNat)
    (hs : (dripGet u k).stop = none) (hp : dripPeriod u k ≠ 0) (hc : dripCount u k = 0 ∨ (dripGet u k).num < dripCount u k)
    (hb : dripBit u k 1 = false) :
    (dripGet (dripEndOp k u) k).active = false ∧ (dripGet (dripEndOp k u) k).st = (dripGet u k).st ∧
      (dripGet (dripEndOp k u) k).next = dripStart u k + (dripGet u k).num * dripPeriod u k := by
  obtain ⟨l, hl⟩ := dripGet_endedPulse (u := u) (k := k)
  obtain ⟨hper, hcnt, hstart, hbit⟩ := endedPulse_settings (u := u) hk
  have hmore : ¬ (dripPeriod (endedPulse k u) k = 0 ∨
      (dripCount (endedPulse k u) k ≠ 0 ∧ dripCount (endedPulse k u) k ≤ (dripGet (endedPulse k u) k).num)) := by
    rw [hper, hcnt, hl]
    rintro (h | ⟨h0, hle⟩)
    · exact hp h
    · rcases hc with hc | hc
      · exact h0 hc
      · exact absurd hle (Nat.not_le.mpr hc)
  have hin : ∀ d, dripBeyond (dripPut k d (endedPulse k u)) k = false := fun d => by
    have hbit' : dripBit (dripPut k d (endedPulse k u)) k 1 = false := hbit.trans hb
    rw [dripBeyond, hbit', Bool.false_and]
  rw [dripEndOp_of_due ha he, dripAfter_of_more (by rw [hl]; exact hs) hmore, if_neg (Bool.eq_false_iff.mp (hin _)),
    dripGet_dripPut_same, hl, hstart, hper]
  exact ⟨rfl, rfl, rfl⟩

end

/-! ## The obligation -/

section
variable {s : State}

theorem captureClauses (hlive : live s.unit.base = true) :
    (∀ kind idx fall frac, exec (.captureEdge kind idx fall frac) s =
      .next (onUnit (captureEdgeOp kind.toNat idx.toNat fall frac) s)) ∧
    (∀ ch : BitVec 3, exec (.capRecRead ch) s =
      .next (answer .unit ch (capReadOp ch.toNat s.unit).1 { s with unit := (capReadOp ch.toNat s.unit).2 })) :=
  ⟨fun _ _ _ _ => next_of_unitLive hlive rfl, fun _ => next_of_unitLive hlive rfl⟩

end

/-- Settles O49: an edge runs through the channels that take it, and each Drip command is read off the case its channel's state
selects. -/
theorem captureAndDrip : Obligations.CaptureAndDrip := by
  unfold Obligations.CaptureAndDrip
  refine ⟨fun s hlive => ?_, fun k s hlive => ?_, fun s hoff => ?_⟩
  · obtain ⟨hedge, hread⟩ := captureClauses hlive
    refine ⟨hedge, ?_, ?_, ?_, ?_, ?_, ?_, ?_⟩
    · intro kind idx fall frac k hk ht ho hv hkind hout hlast
      have hkind' : kind.toNat ≠ 1 ∨ tapValid s.unit idx.toNat = true :=
        hkind.imp_left fun hne he => hne (BitVec.eq_of_toNat_eq he)
      obtain ⟨hq, hb, hf⟩ := capEdge1_records (fall := fall) hv hkind' hout hlast
      refine ⟨_, hedge kind idx fall frac, rfl, ?_, ?_⟩
      · rw [onUnit_unit, captureEdgeOp_of_one hk ht ho hb, hq]
      · rw [onUnit_unit, captureEdgeOp_of_one hk ht ho hb, hf]
        rfl
    · exact fun kind idx fall frac h => (hedge kind idx fall frac).trans
        (congrArg Host.Outcome.next (onUnit_of_self (captureEdgeOp_of_none h)))
    · exact fun kind idx fall frac hv => ⟨_, hedge kind idx fall frac, captureEdgeOp_of_invalid hv,
        captureEdgeOp_sameButCapture.taps, captureEdgeOp_sameButCapture.sems, rfl⟩
    · have hstep : exec .captureRecordEnter s = .next (capEnterOp s) := next_of_unitLive hlive rfl
      exact ⟨_, hstep, exec_otherSame hstep, capEnterOp_flight⟩
    · exact fun h => next_of_unitLive hlive (capEnterOp_of_none h)
    · intro ch r q h
      obtain ⟨hw, hq, ho⟩ := capReadOp_of_cons (ch := ch.toNat) h
      refine ⟨_, hread ch, hq, ?_, rfl⟩
      rw [answer_unit.2, hw]
      exact congrArg (· ++ [Out.regData .unit ch (lo32 r) 0]) ho
    · intro ch h
      obtain ⟨hw, hc, ho⟩ := capReadOp_of_nil (ch := ch.toNat) h
      refine ⟨_, hread ch, hc, ?_, rfl⟩
      rw [answer_unit.2, hw]
      exact congrArg (· ++ [Out.regData .unit ch 0 0]) ho
  · have hk8 : k.toNat < 8 := k.isLt
    have harm : exec (.dripArm k) s = .next (dripRegArm k.toNat s) := next_of_unitLive hlive rfl
    have hpulse : exec (.dripPulseStart k) s = .next (dripPulseOp k.toNat s) := next_of_unitLive hlive rfl
    have hstop : exec (.dripStop k) s = .next (onUnit (dripStopOp k.toNat) s) := next_of_unitLive hlive rfl
    have hend : exec (.dripPulseEnd k) s = .next (onUnit (dripEndOp k.toNat) s) := next_of_unitLive hlive rfl
    refine ⟨fun hk hr => ⟨fun hw => ?_, fun e hb he hle => ?_⟩, fun hr h => ?_, fun i hb ht => ?_, fun h => ?_, fun hb hs => ?_,
      fun x hb ha hs hx hn => dripSettle1_idle hb ha hs hx hn, fun hb hs ha hn => ⟨fun hw => ?_, fun h1 hw => ?_⟩, fun h => ?_,
      fun ha he => ⟨fun hs h => ?_, fun hs => ?_, fun hs hp hc hb => ?_⟩, fun h => ?_⟩
    · obtain ⟨hd, ho⟩ := dripRegArm_arms hk hr hw
      exact ⟨_, harm, hd, exec_otherSame harm, ho⟩
    · obtain ⟨hd, ho⟩ := dripRegArm_beyond hk hr hb he hle
      exact ⟨_, harm, hd, exec_otherSame harm, ho⟩
    · refine ⟨_, harm, ?_, exec_otherSame harm⟩
      rw [dripRegArm_of_now h]
      exact dripArmNow_of_refused hr
    · exact ⟨_, harm, dripRegArm_of_ttb hb ht⟩
    · exact hstop.trans (congrArg Host.Outcome.next (onUnit_of_self (dripStopOp_of_none h)))
    · refine ⟨_, hstop, ?_⟩
      rw [onUnit_unit, dripStopOp_notes hb hs]
      exact ⟨dripGet_dripPut_same, dripPut_base, rfl, fun j hj => dripGet_dripPut_other hj⟩
    · obtain ⟨l, hl⟩ := dripPulseOp_starts (pulseDue_of hb hs ha hn) hw
      refine ⟨_, hpulse, ?_⟩
      rw [hl]
      exact ⟨rfl, rfl, rfl, rfl, exec_otherSame hpulse⟩
    · obtain ⟨hact, hnum, hlev⟩ := dripPulseOp_suppresses (pulseDue_of hb hs ha hn) h1 hw
      exact ⟨_, hpulse, hact, hnum, hlev, exec_otherSame hpulse⟩
    · exact hpulse.trans (congrArg Host.Outcome.next (dripPulseOp_of_not_due (not_pulseDue_of h)))
    · obtain ⟨hst, hact⟩ := dripEndOp_last hk8 ha he hs h
      exact ⟨_, hend, hst, hact, rfl⟩
    · obtain ⟨hst, hact⟩ := dripEndOp_stopped ha he hs
      exact ⟨_, hend, hst, hact, rfl⟩
    · obtain ⟨hact, hst, hnext⟩ := dripEndOp_next hk8 ha he hs hp hc hb
      exact ⟨_, hend, hact, hst, hnext, rfl⟩
    · exact hend.trans (congrArg Host.Outcome.next (onUnit_of_self (dripEndOp_of_not_due h)))
  · have hself : ∀ f : State → State, (.next (ifUnit f s) : Host.Outcome State Fault Refusal) = .next s :=
      fun f => congrArg Host.Outcome.next (ifUnit_of_not_live hoff)
    exact ⟨fun _ _ _ _ => hself _, hself _, fun k => ⟨hself _, hself _, hself _, hself _⟩⟩

end Sys2Proof.Proofs
end


section
/-! PROOFS. Launch at the unit: its origin, its members, and the timetable (O50, O51, O52). -/

namespace Sys2Proof.Proofs
open Sys2Proof Sys2Proof.Machine

section
variable {u v : UnitState} {s : State} {g lid i j : Nat}

/-! ## Registers of a unit across a log entry -/

/-- A log entry of a unit leaves every register of the pages 0x00 to 0x0F and 0x14 but its own event word. -/
theorem rdF_logU {h : Hap} {port obj uid aux a l w : Nat} (ha : a / 0x1000 < 0x10 ∨ a / 0x1000 = 0x14)
    (h18 : a ≠ pageAddr h.page 0x018) : rdF (logU h port obj uid aux s).unit.base a l w = rdF s.unit.base a l w := by
  have hr : rd (logU h port obj uid aux s).unit.base a = rd s.unit.base a := by
    refine rd_logU _ _ _ _ _ _ ?_ (by omega) h18
    rcases fltPage_cases (b := s.unit.base) with e | e <;> omega
  rw [rdF, rdF, hr]

/-- A frame sent on a unit's port leaves the unit's base and its launches. -/
theorem sendSeq_unit {d : Dom} {delay cls : Nat} {typ : BitVec 6} {hdr : BitVec 64} {pl : List (BitVec 64)} :
    (sendSeq (.unit d) delay cls typ hdr pl s).unit.base = s.unit.base ∧
      (sendSeq (.unit d) delay cls typ hdr pl s).unit.launch = s.unit.launch ∧
      (sendSeq (.unit d) delay cls typ hdr pl s).dist = s.dist := by
  cases d <;> exact ⟨rfl, rfl, rfl⟩

theorem slotGet_of_slots (h : u.launch.slots = v.launch.slots) : slotGet u i = slotGet v i := by rw [slotGet, slotGet, h]
theorem slotGet_of_launch (h : u.launch = v.launch) : slotGet u i = slotGet v i := slotGet_of_slots (congrArg Launch.slots h)

/-! ## A request at the origin (R235, R236, R500) -/

/-- What no refusal of a request says: a slot and a token are free. -/
theorem origRefusal_accepted {r : OrigReq} (h : origRefusal s r = 0) :
    (slotFree s.unit).isSome = true ∧ rdF s.unit.base 0x14074 0 8 ≠ 0 := by
  simp only [origRefusal] at h
  split at h
  · cases h
  split at h
  · cases h
  split at h
  · cases h
  next hfree =>
  split at h
  · cases h
  split at h
  · cases h
  next htok =>
  refine ⟨Option.isSome_iff_ne_none.mpr fun hn => hfree (Option.isNone_iff_eq_none.mpr hn), ?_⟩
  simp only [Bool.or_eq_true, not_or, beq_iff_eq] at htok
  exact htok.2
theorem origRefusal_le (s : State) (r : OrigReq) : origRefusal s r ≤ 9 := by
  unfold origRefusal
  extract_lets u now
  split
  · decide
  · split
    · decide
    · split
      · decide
      · split
        · decide
        · split
          · decide
          · split
            · decide
            · split <;> decide

/-- The slot that an accepted request takes. -/
def requestedSlot (s : State) (r : OrigReq) : Slot :=
  { gallery := r.gallery, lid := r.lid, target := r.target, mask := r.mask, tol := r.tol,
    epochLo := galEpoch s.unit r.gallery % 16, origin := true, broadcast := false, st := .requested, domb := false,
    reqAt := s.unit.base.tick }

/-- The unit after an accepted request, before its frame is sent. -/
def requested (r : OrigReq) (i : Nat) (k : Slot) (u : UnitState) : UnitState :=
  uB (fun b => wrF 0x14074 0 8 (rdF b 0x14074 0 8 - 1) (wr 0x0809C 1 b))
    (onLaunch (fun l => { l with orig := some (r.gallery, r.lid), refillAt := tokenSince u }) (slotPut i (some k) u))

theorem requested_launch {r : OrigReq} {k : Slot} :
    (requested r i k u).launch.slots = (slotPut i (some k) u).launch.slots := rfl
theorem requested_base {r : OrigReq} {k : Slot} : (requested r i k u).base =
    wrF 0x14074 0 8 (rdF u.base 0x14074 0 8 - 1) (wr 0x0809C 1 u.base) := by
  rw [requested, uB_base, onLaunch_base, slotPut_base]
theorem requested_slots {r : OrigReq} {k : Slot} : slotGet (requested r i k u) i = some k ∧
    ∀ j, j ≠ i → slotGet (requested r i k u) j = slotGet u j :=
  ⟨(slotGet_of_slots requested_launch).trans slotGet_slotPut_same,
    fun _ hj => (slotGet_of_slots requested_launch).trans (slotGet_slotPut_other hj)⟩
theorem requested_token {r : OrigReq} {k : Slot} (h : rdF u.base 0x14074 0 8 ≠ 0) :
    rdF (requested r i k u).base 0x14074 0 8 + 1 = rdF u.base 0x14074 0 8 := by
  have hlt : rdF u.base 0x14074 0 8 < 2 ^ 8 := rdF_lt
  rw [requested_base, rdF_wrF_same (by decide), Nat.mod_eq_of_lt (Nat.lt_of_le_of_lt (Nat.sub_le _ _) hlt)]
  exact Nat.sub_add_cancel (Nat.one_le_iff_ne_zero.mpr h)

/-- The ARM of PHASE 0 that asks for the broadcast. -/
def requestArm (s : State) (r : OrigReq) : Arm :=
  { gallery := BitVec.ofNat 12 r.gallery, epochLo := BitVec.ofNat 4 (galEpoch s.unit r.gallery % 16),
    target := BitVec.ofNat 48 r.target, mask := r.mask, lid := BitVec.ofNat 16 r.lid, tol := BitVec.ofNat 16 r.tol,
    uid := BitVec.ofNat 20 (unitId s.unit) }

theorem origStart_of_accepted {r : OrigReq} (h : origRefusal s r = 0) (hi : slotFree s.unit = some i) : (origStart r s).2 =
    sendArm (.unit (activeDom (requested r i (requestedSlot s r) s.unit))) 16 0 false (requestArm s r)
      (onUnit (requested r i (requestedSlot s r)) s) := by
  have hslot : (slotFree s.unit).getD 0 = i := by rw [hi, Option.getD_some]
  rw [origStart, if_neg (not_not.mpr h)]
  simp only [← hslot]
  rfl

theorem origStart_slot {r : OrigReq} (h : origRefusal s r = 0) (hi : slotFree s.unit = some i) :
    (origStart r s).2.dist = s.dist ∧ (∀ j, j ≠ i → slotGet (origStart r s).2.unit j = slotGet s.unit j) ∧
      rdF (origStart r s).2.unit.base 0x14074 0 8 + 1 = rdF s.unit.base 0x14074 0 8 ∧
      slotGet (origStart r s).2.unit i = some (requestedSlot s r) := by
  obtain ⟨hsame, hother⟩ := requested_slots (u := s.unit) (r := r) (i := i) (k := requestedSlot s r)
  have htoken := requested_token (r := r) (i := i) (k := requestedSlot s r) (origRefusal_accepted h).2
  rw [origStart_of_accepted h hi, sendArm]
  obtain ⟨hbase, hlaunch, hdist⟩ := sendSeq_unit (d := activeDom (requested r i (requestedSlot s r) s.unit)) (delay := 16)
    (cls := 4) (typ := 0x08) (hdr := armHdr (requestArm s r)) (pl := [(requestArm s r).mask, armTail (requestArm s r) 0 false])
    (s := onUnit (requested r i (requestedSlot s r)) s)
  refine ⟨hdist, fun j hj => (slotGet_of_launch hlaunch).trans (hother j hj), ?_, (slotGet_of_launch hlaunch).trans hsame⟩
  rw [hbase]
  exact htoken

theorem origStart_of_refused {r : OrigReq} (h : origRefusal s r ≠ 0) : (origStart r s).2 =
    logU uLaunchRefused noPort r.lid 0 (origRefusal s r)
      (onUnit (uB fun b => wrF 0x0809C 4 4 (origRefusal s r) (wrF 0x0809C 0 2 3 b)) s) := by
  rw [origStart, if_pos h]

theorem origStart_notes {r : OrigReq} (h : origRefusal s r ≠ 0) : (origStart r s).2.unit.launch = s.unit.launch ∧
    rdF (origStart r s).2.unit.base 0x0809C 4 4 = origRefusal s r ∧ rdF (origStart r s).2.unit.base 0x0809C 0 2 = 3 ∧
    (origStart r s).2.dist = s.dist := by
  have hle := origRefusal_le s r
  rw [origStart_of_refused h, logU_launch, logU_dist, rdF_logU (.inl (by decide)) (by decide), rdF_logU (.inl (by decide)) (by decide),
    onUnit_unit, uB_base]
  refine ⟨rfl, ?_, ?_, rfl⟩
  · rw [rdF_wrF_same (by decide)]
    exact Nat.mod_eq_of_lt (by omega)
  · exact (rdF_wrF_field (by decide) (by decide)).trans (rdF_wrF_same (by decide))

/-! ## A cancel at the origin (R252) -/

theorem cancelLaunch_of_none (h : slotFind s.unit g lid = none) : (cancelLaunch g lid s).2 = s := by
  rw [cancelLaunch, h]
theorem cancelLaunch_of_pending {k : Slot} (h : slotFind s.unit g lid = some (i, k)) (hk : k.st = .requested ∨ k.st = .armed) :
    (cancelLaunch g lid s).2 = onUnit (freeOrigin g lid false 3) (missOp i k 3
      ([Dom.a, Dom.b].foldl (fun s d => if domUsable s.unit d then sendAbort (.unit d) 0
        { gallery := BitVec.ofNat 12 g, epochLo := BitVec.ofNat 4 k.epochLo, lid := BitVec.ofNat 16 lid, reason := 0x03 } s
        else s) s)) := by
  rw [cancelLaunch, h]
  simp only [hk, if_true]
theorem cancelLaunch_of_fired {k : Slot} (h : slotFind s.unit g lid = some (i, k)) (hk : k.st = .go ∨ k.st = .await) :
    (cancelLaunch g lid s).2 = s := by
  have hno : ¬ (k.st = .requested ∨ k.st = .armed) := by rcases hk with hk | hk <;> rw [hk] <;> decide
  rw [cancelLaunch, h]
  simp only [hno, if_false]
/-- On a unit without a usable domain no ABORT is sent. -/
theorem foldl_usable_of_none {f : Dom → State → State} (ha : domUsable s.unit .a = false) (hb : domUsable s.unit .b = false) :
    [Dom.a, Dom.b].foldl (fun s d => if domUsable s.unit d then f d s else s) s = s := by
  simp only [List.foldl_cons, List.foldl_nil, ha, hb, Bool.false_eq_true, if_false]

/-! ## Request timeouts and tokens (R236, R500) -/

theorem reqTimeoutOp_of_none (h : slotOf true s.unit g lid = none) : reqTimeoutOp g lid s = s := by
  rw [reqTimeoutOp, h]
theorem reqTimeoutOp_of_late {k : Slot} (h : slotOf true s.unit g lid = some (i, k)) (hb : k.broadcast = false)
    (ht : k.reqAt + (rd s.unit.base 0x08048).toNat ≤ s.unit.base.tick) : reqTimeoutOp g lid s =
      logU uLaunchReqLost noPort lid 0 0 (onUnit (fun u => origNote g lid 3 false 0 (slotPut i none u)) s) := by
  rw [reqTimeoutOp, h]
  exact if_pos ⟨Bool.eq_false_iff.mp hb, ht⟩
theorem reqTimeoutOp_of_waiting {k : Slot} (h : slotOf true s.unit g lid = some (i, k))
    (hw : k.broadcast = true ∨ s.unit.base.tick < k.reqAt + (rd s.unit.base 0x08048).toNat) : reqTimeoutOp g lid s = s := by
  rw [reqTimeoutOp, h]
  refine if_neg ?_
  rintro ⟨hb, ht⟩
  exact hw.elim hb fun hlt => absurd ht (Nat.not_le.mpr hlt)

theorem tokenRefill_of_due (h : u.launch.refillAt + rdF u.base 0x14050 8 24 ≤ u.base.tick) :
    (tokenRefill u).launch.refillAt = u.base.tick ∧
      rdF (tokenRefill u).base 0x14074 0 8 = (if rdF u.base 0x14074 0 8 < rdF u.base 0x14050 0 8 then
        rdF u.base 0x14074 0 8 + 1 else rdF u.base 0x14074 0 8) := by
  have hburst : rdF u.base 0x14050 0 8 < 2 ^ 8 := rdF_lt
  rw [tokenRefill, if_pos h]
  extract_lets n v
  by_cases hlt : n < rdF v.base 0x14050 0 8
  · rw [if_pos hlt]
    have hlt' : rdF u.base 0x14074 0 8 < rdF u.base 0x14050 0 8 := hlt
    rw [if_pos hlt', uB_base, rdF_wrF_same (by decide)]
    exact ⟨rfl, Nat.mod_eq_of_lt (by omega)⟩
  · rw [if_neg hlt]
    exact ⟨rfl, (if_neg hlt).symm⟩
theorem tokenRefill_of_early (h : u.base.tick < u.launch.refillAt + rdF u.base 0x14050 8 24) : tokenRefill u = u :=
  if_neg (Nat.not_le.mpr h)

end

/-- Settles O50: a request takes the lowest free slot or is refused, and the other commands are read off the slot they name. -/
theorem launchOrigin : Obligations.LaunchOrigin := by
  unfold Obligations.LaunchOrigin
  intro s
  refine ⟨?_, ?_, ?_, ?_, ?_, ?_, ?_, ?_, ?_, ?_, ?_⟩
  · intro hl h
    obtain ⟨i, hi⟩ := Option.isSome_iff_exists.mp (origRefusal_accepted h).1
    obtain ⟨hdist, hother, htoken, hslot⟩ := origStart_slot h hi
    exact ⟨(origStart (origRegs s.unit.base) s).2, i, next_of_unitLive hl rfl, hi, hdist, hother, htoken, hslot⟩
  · exact fun hl h => ⟨(origStart (origRegs s.unit.base) s).2, next_of_unitLive hl rfl, origStart_notes h⟩
  · exact fun m h => next_of_accepts h
  · exact fun hl h => next_of_unitLive hl (cancelLaunch_of_none h)
  · rintro g lid i k s' hl rfl rfl hk
    refine ⟨fun hst hs' => ?_, fun hst ha hb => ?_, fun hst => next_of_unitLive hl (cancelLaunch_of_fired hk hst)⟩
    · subst hs'
      exact next_of_unitLive hl (cancelLaunch_of_pending hk hst)
    · refine next_of_unitLive hl ((cancelLaunch_of_pending hk hst).trans ?_)
      rw [foldl_usable_of_none ha hb]
  · exact fun m h => next_of_accepts h
  · exact fun g lid i k hl hk => ⟨fun hb ht => next_of_unitLive hl (reqTimeoutOp_of_late hk hb ht),
      fun hw => next_of_unitLive hl (reqTimeoutOp_of_waiting hk hw)⟩
  · exact fun g lid h => congrArg Host.Outcome.next (ifUnit_of_self (reqTimeoutOp_of_none h))
  · intro hl h
    obtain ⟨hat, htok⟩ := tokenRefill_of_due h
    exact ⟨onUnit tokenRefill s, next_of_unitLive hl rfl, hat, rfl, htok⟩
  · exact fun h => congrArg Host.Outcome.next (ifUnit_of_self (onUnit_of_self (tokenRefill_of_early h)))
  · intro hl c hc
    simp only [List.mem_cons, List.not_mem_nil, or_false] at hc
    rcases hc with rfl | rfl | rfl <;> exact congrArg Host.Outcome.next (ifUnit_of_not_live hl)

end Sys2Proof.Proofs
end


section
/-! PROOFS. Launch at a member unit, and the timetable (O51, O52). -/

namespace Sys2Proof.Proofs
open Sys2Proof Sys2Proof.Machine

section
variable {u v : UnitState} {s : State} {g lid i j : Nat} {d : Dom} {k : Slot}

/-! ## The slot of a launch -/

/-- The slot of a launch among a table's entries. -/
def launchSlot (req : Bool) (g lid : Nat) (x : Nat × Option Slot) : Option (Nat × Slot) :=
  x.2.bind fun k => if k.gallery = g ∧ k.lid = lid ∧ decide (k.st = .requested) = req then some (x.1, k) else none

theorem slotOf_eq {req : Bool} : slotOf req u g lid = u.launch.slots.findSome? (launchSlot req g lid) := by
  rw [slotOf]
  congr 1
  funext x
  obtain ⟨i, x⟩ := x
  cases x <;> rfl

theorem launchSlot_key {req : Bool} {x : Nat × Option Slot} (h : launchSlot req g lid x = some (i, k)) : x.1 = i := by
  obtain ⟨j, x⟩ := x
  cases x with
  | none => cases h
  | some k' =>
    have h' : (if k'.gallery = g ∧ k'.lid = lid ∧ decide (k'.st = .requested) = req then some (j, k') else none) = some (i, k) := h
    split at h'
    · exact congrArg Prod.fst (Option.some.inj h')
    · cases h'

theorem findSome_filter_of_some {α β : Type} {f : α → Option β} {p : α → Bool} {b : β} {l : List α}
    (h : l.findSome? f = some b) (hp : ∀ x, f x = some b → p x = true) : (l.filter p).findSome? f = some b := by
  induction l with
  | nil => exact h
  | cons x l ih =>
    rw [List.findSome?_cons] at h
    by_cases hpx : p x = true
    · rw [List.filter_cons_of_pos hpx, List.findSome?_cons]
      cases hf : f x with
      | none =>
        rw [hf] at h
        exact ih h
      | some c =>
        rw [hf] at h
        exact h
    · rw [List.filter_cons_of_neg hpx]
      cases hf : f x with
      | none =>
        rw [hf] at h
        exact ih h
      | some c =>
        rw [hf] at h
        exact absurd (hp x (hf.trans h)) hpx

theorem slotPut_none_slots : (slotPut j none u).launch.slots = u.launch.slots.filter fun x => x.1 != j := by
  rw [slotPut, onLaunch_launch, tabSet, if_pos rfl]

/-- A slot stands when another is freed. -/
theorem slotOf_slotPut_none {req : Bool} (h : slotOf req u g lid = some (i, k)) (hj : j ≠ i) :
    slotOf req (slotPut j none u) g lid = some (i, k) := by
  rw [slotOf_eq] at h ⊢
  rw [slotPut_none_slots]
  refine findSome_filter_of_some h fun x hx => ?_
  rw [launchSlot_key hx]
  exact bne_iff_ne.mpr hj.symm
theorem slotOf_slotPut_none_of_none {req : Bool} (h : slotOf req u g lid = none) : slotOf req (slotPut j none u) g lid = none := by
  rw [slotOf_eq] at h ⊢
  rw [slotPut_none_slots, List.findSome?_eq_none_iff]
  exact fun x hx => List.findSome?_eq_none_iff.mp h x (List.mem_filter.mp hx).1

theorem slotOf_of_launch {req : Bool} (h : u.launch = v.launch) : slotOf req u g lid = slotOf req v g lid := by
  rw [slotOf_eq, slotOf_eq, h]
theorem origNote_launch {st reason : Nat} {go : Bool} : (origNote g lid st go reason u).launch = u.launch := by
  unfold origNote
  split <;> rfl
theorem origNote_guard {st reason : Nat} {go : Bool} :
    guard (origNote g lid st go reason u) = guard u ∧ (origNote g lid st go reason u).base.ns = u.base.ns := by
  unfold origNote
  split
  · refine ⟨?_, rfl⟩
    rw [Machine.guard, uB_base, rdF_wrF_other (by decide)]
    refine (rdF_wrF_other (by decide)).trans ?_
    rw [rdF_wrF_other (by decide)]
    rfl
  · exact ⟨rfl, rfl⟩

/-- Freeing the origin's slot of a launch leaves the member's, and the guard. -/
theorem freeOrigin_keeps_member {go : Bool} {reason : Nat} (h : slotOf false u g lid = some (i, k))
    (ho : ∀ j x, slotOf true u g lid = some (j, x) → j ≠ i) : slotOf false (freeOrigin g lid go reason u) g lid = some (i, k) ∧
      guard (freeOrigin g lid go reason u) = guard u ∧ (freeOrigin g lid go reason u).base.ns = u.base.ns := by
  rw [freeOrigin]
  cases hs : slotOf true u g lid with
  | none => exact ⟨h, rfl, rfl⟩
  | some x =>
    obtain ⟨j, x⟩ := x
    exact ⟨(slotOf_of_launch origNote_launch).trans (slotOf_slotPut_none h (ho j x hs)), origNote_guard⟩
theorem freeOrigin_no_member {go : Bool} {reason : Nat} (h : slotOf false u g lid = none) :
    slotOf false (freeOrigin g lid go reason u) g lid = none := by
  rw [freeOrigin]
  cases hs : slotOf true u g lid with
  | none => exact h
  | some x => exact (slotOf_of_launch origNote_launch).trans (slotOf_slotPut_none_of_none h)

/-! ## GO (R246) -/

/-- A GO for an armed launch before its guard makes it due. -/
theorem goOp_accepts {m : Go} (h : slotOf false s.unit m.gallery.toNat m.lid.toNat = some (i, k))
    (ho : ∀ j x, slotOf true s.unit m.gallery.toNat m.lid.toNat = some (j, x) → j ≠ i) (hst : k.st = .armed)
    (ht : m.targetLo.toNat = k.target % 2 ^ 32) (hg : s.unit.base.ns.toNat + guard s.unit ≤ k.target) :
    slotGet (goOp d m s).unit i = some { k with st := .go, domb := decide (d = .b) } := by
  obtain ⟨hk, hguard, hns⟩ := freeOrigin_keeps_member (go := true) (reason := 0) h ho
  have hpast : pastGuard (freeOrigin m.gallery.toNat m.lid.toNat true 0 s.unit) k.target = false :=
    decide_eq_false (by rw [hguard, hns]; exact Nat.not_lt.mpr hg)
  simp only [goOp, onUnit_unit, hk, hst, ht, hpast, decide_true, Bool.not_true, Bool.false_eq_true, if_false]
  rw [slotGet_of_launch origNote_launch, slotGet_slotPut_same]

/-! ## The guard (R236, R247) -/

theorem pastGuard_of_lt {target : Nat} (h : target < u.base.ns.toNat + guard u) : pastGuard u target = true := decide_eq_true h
theorem not_pastGuard_of_le {target : Nat} (h : u.base.ns.toNat + guard u ≤ target) : ¬ pastGuard u target = true :=
  fun hp => absurd (of_decide_eq_true hp) (Nat.not_lt.mpr h)

theorem guardOp_of_none (ht : slotOf true s.unit g lid = none) (hf : slotOf false s.unit g lid = none) : guardOp g lid s = s := by
  simp only [guardOp, ht, hf]
theorem guardOp_of_member (ht : slotOf true s.unit g lid = none) (hf : slotOf false s.unit g lid = some (i, k)) :
    guardOp g lid s = if pastGuard s.unit k.target ∧ k.st = .armed then missOp i k 0 s else s := by
  simp only [guardOp, ht, hf]
theorem guardOp_of_origin (ht : slotOf true s.unit g lid = some (i, k)) (hf : slotOf false s.unit g lid = none) :
    guardOp g lid s = if pastGuard s.unit k.target ∧ k.broadcast then onUnit (freeOrigin g lid false 0) s else s := by
  have hnone : slotOf false (if pastGuard s.unit k.target ∧ k.broadcast then onUnit (freeOrigin g lid false 0) s else s).unit g lid
      = none := by
    split
    · exact freeOrigin_no_member hf
    · exact hf
  simp only [guardOp, ht, hnone]

/-! ## Firing, judging and the deadline (R249 to R251, R650) -/

/-- A fold that keeps every fired launch as it is rebuilds the list. -/
theorem settleFired_of_keeps {f : UnitState → Fired → Fired × Bool}
    (h : ∀ v : UnitState, v.base = s.unit.base → ∀ x ∈ s.unit.launch.fired, f v x = (x, false)) : settleFired f s = s := by
  have hfold : ∀ (l acc : List Fired), (∀ x ∈ l, x ∈ s.unit.launch.fired) →
      l.foldl (fun s x => if (f s.unit x).2 then finishFired (f s.unit x).1 s
        else onUnit (onLaunch fun l => { l with fired := l.fired ++ [(f s.unit x).1] }) s)
        (onUnit (onLaunch fun l => { l with fired := acc }) s) = onUnit (onLaunch fun q => { q with fired := acc ++ l }) s := by
    intro l
    induction l with
    | nil =>
      intro acc _
      rw [List.foldl_nil, List.append_nil]
    | cons x l ih =>
      intro acc hl
      have hx : f (onUnit (onLaunch fun l => { l with fired := acc }) s).unit x = (x, false) :=
        h (onUnit (onLaunch fun l => { l with fired := acc }) s).unit rfl x (hl x (List.mem_cons_self ..))
      rw [List.foldl_cons, hx, if_neg Bool.false_ne_true]
      refine (ih (acc ++ [x]) fun y hy => hl y (List.mem_cons_of_mem _ hy)).trans ?_
      rw [List.append_assoc]
      rfl
  exact (hfold s.unit.launch.fired [] fun _ hx => hx).trans rfl

theorem judgeOp_of_none (h : ∀ f ∈ s.unit.launch.fired, f.judged = true ∨ s.unit.base.ns.toNat < f.firedNs + 2) :
    judgeOp s = s := by
  refine settleFired_of_keeps fun v hv f hf => if_neg ?_
  rw [hv]
  rcases h f hf with h | h
  · rw [h]
    exact Bool.false_ne_true
  · rw [decide_eq_false (Nat.not_le.mpr h), Bool.and_false]
    exact Bool.false_ne_true

theorem deadlineOp_of_none (h : ∀ f ∈ s.unit.launch.fired, f.judged = false ∨ f.deadLogged = true ∨ f.tol = 0xFFFF ∨
    s.unit.base.ns.toNat < f.target + f.tol + 1) : deadlineOp s = s := by
  have hdue : (s.unit.launch.fired.filter fun f => f.judged && !f.deadLogged && f.tol != 0xFFFF &&
      decide (f.target + f.tol + 1 ≤ s.unit.base.ns.toNat)) = [] := by
    rw [List.filter_eq_nil_iff]
    intro f hf
    simp only [Bool.and_eq_true, not_and, Bool.not_eq_true', bne_iff_ne, ne_eq, decide_eq_true_eq]
    intro hj
    rcases h f hf with h | h | h | h
    · exact absurd (h.symm.trans hj.1.1) (by decide)
    · exact absurd (h.symm.trans hj.1.2) (by decide)
    · exact absurd h hj.2
    · exact Nat.not_le.mpr h
  simp only [deadlineOp, hdue, List.foldl_nil]
  refine onUnit_of_self ?_
  simp only [List.contains_nil, Bool.false_eq_true, if_false, List.map_id']
  rfl

theorem launchFireOp_of_none (h : dueSlots s.unit = []) : launchFireOp s = s := by
  rw [launchFireOp, h]
  rfl
theorem launchFireOp_of_one (h : dueSlots s.unit = [(i, k)]) : launchFireOp s =
    fireOp false k.gallery k.lid k.target k.tol k.mask k.domb (onUnit (slotPut i (some { k with st := .await })) s) := by
  rw [launchFireOp, h]
  rfl

theorem recReadOp_of_cons {ch : Nat} {r : BitVec 64} {q : List (BitVec 64)} (h : u.launch.recs = r :: q) :
    (recReadOp ch u).1 = lo32 r ∧ (recReadOp ch u).2.launch.recs = q ∧ (recReadOp ch u).2.base.outs = u.base.outs := by
  simp only [recReadOp, h, uB_base, uB_launch, onLaunch_launch, onLaunch_base, latch_fields, and_self]
theorem recReadOp_of_nil {ch : Nat} (h : u.launch.recs = []) :
    (recReadOp ch u).1 = 0 ∧ (recReadOp ch u).2.launch = u.launch ∧ (recReadOp ch u).2.base.outs = u.base.outs := by
  simp only [recReadOp, h, uB_base, uB_launch, latch_fields, and_self]

/-! ## The timetable (R256 to R260) -/

theorem injTouch_launch {mem key : Nat} : (injTouch mem key u).launch = u.launch := by
  unfold injTouch
  split
  · extract_lets v
    split <;> rfl
  · rfl
theorem injWrite_launch {mem key : Nat} : (injWrite mem key u).launch = u.launch := by
  refine Eq.trans ?_ (injTouch_launch (mem := mem) (key := key))
  unfold injWrite
  extract_lets v
  split
  · split <;> rfl
  · rfl
/-- An entry put into the timetable: the launches hold it. -/
theorem ttbPut_launch {e : TtbEnt} : (ttbPut i e u).launch = { u.launch with ttb := tabSet {} i e u.launch.ttb } := by
  unfold ttbPut
  extract_lets v
  have hv : v.launch = { u.launch with ttb := tabSet {} i e u.launch.ttb } := injWrite_launch
  split
  · rw [uB_launch, hv]
  · exact hv
theorem ttbGet_of_ttb (h : u.launch.ttb = v.launch.ttb) : ttbGet u j = ttbGet v j := by rw [ttbGet, ttbGet, h]
theorem ttbGet_ttbPut_same {e : TtbEnt} : ttbGet (ttbPut i e u) i = e := by
  rw [ttbGet, ttbPut_launch]
  exact tabGet_tabSet_same _ _ _ _
theorem ttbGet_ttbPut_other {e : TtbEnt} (h : j ≠ i) : ttbGet (ttbPut i e u) j = ttbGet u j := by
  rw [ttbGet, ttbPut_launch]
  exact tabGet_tabSet_other _ _ _ _ _ _ h
theorem ttbGet_logU {h : Hap} {port obj uid aux : Nat} : ttbGet (logU h port obj uid aux s).unit j = ttbGet s.unit j :=
  ttbGet_of_ttb (congrArg Launch.ttb (logU_launch _ _ _ _ _ _))

theorem insertOp_of_accepted {e : TtbEnt} (h : insertRefusal s.unit i e = 0) :
    (insertOp i e s).2 = onUnit (ttbPut i { e with st := .pending, result := 0, actAt := 0 }) s := by
  rw [insertOp, if_pos h]
theorem insertOp_of_refused {e : TtbEnt} (h : insertRefusal s.unit i e ≠ 0) : (insertOp i e s).2 =
    logU uTtbRefused noPort i 0 (insertRefusal s.unit i e) (if i < ttbCap s.unit then
      onUnit (fun u => ttbPut i { ttbGet u i with result := insertRefusal s.unit i e } u) s else s) := by
  rw [insertOp, if_neg h]

/-- A refused insertion leaves its result at the entry, and the others as they are. -/
theorem insertOp_refuses {e : TtbEnt} (h : insertRefusal s.unit i e ≠ 0) :
    (ttbGet (insertOp i e s).2.unit i).st = (ttbGet s.unit i).st ∧
      (i < ttbCap s.unit → (ttbGet (insertOp i e s).2.unit i).result = insertRefusal s.unit i e) ∧
      ∀ j, j ≠ i → ttbGet (insertOp i e s).2.unit j = ttbGet s.unit j := by
  rw [insertOp_of_refused h]
  split
  next hi =>
    refine ⟨?_, fun _ => ?_, fun j hj => ?_⟩
    · rw [ttbGet_logU, onUnit_unit, ttbGet_ttbPut_same]
    · rw [ttbGet_logU, onUnit_unit, ttbGet_ttbPut_same]
    · rw [ttbGet_logU, onUnit_unit, ttbGet_ttbPut_other hj]
  next hi => exact ⟨by rw [ttbGet_logU], fun hi' => absurd hi' hi, fun j _ => ttbGet_logU⟩

/-- An entry is staged on this tick. -/
def stagesNow (u : UnitState) (i : Nat) : Bool := (stageNext u).any fun x => x.1 == i

theorem ttbCancelOp_eq : ttbCancelOp u = if (decide ((ttbGet u (ttbSel u)).st = .pending) && !stagesNow u (ttbSel u)) = true then
    ttbPut (ttbSel u) { ttbGet u (ttbSel u) with st := .free, result := rCancelled } u else u := by
  unfold ttbCancelOp
  extract_lets i e now
  have hnow : now = stagesNow u i := by
    simp only [now, stagesNow]
    cases stageNext u <;> rfl
  rw [hnow]
theorem ttbCancelOp_frees (hp : (ttbGet u (ttbSel u)).st = .pending)
    (h : ∀ j e, stageNext u = some (j, e) → j ≠ ttbSel u) : ttbCancelOp u =
      ttbPut (ttbSel u) { ttbGet u (ttbSel u) with st := .free, result := rCancelled } u := by
  have hno : stagesNow u (ttbSel u) = false := by
    rw [stagesNow, Option.any_eq_false]
    exact fun x hx => beq_eq_false_iff_ne.mpr (h x.1 x.2 hx)
  rw [ttbCancelOp_eq, if_pos (by rw [hp, hno]; rfl)]
theorem ttbCancelOp_of_none (h : (ttbGet u (ttbSel u)).st ≠ .pending ∨ ∃ e, stageNext u = some (ttbSel u, e)) :
    ttbCancelOp u = u := by
  rw [ttbCancelOp_eq]
  refine if_neg ?_
  rcases h with h | ⟨e, he⟩
  · rw [decide_eq_false h]
    exact Bool.false_ne_true
  · have hyes : stagesNow u (ttbSel u) = true := by
      rw [stagesNow, he]
      exact beq_self_eq_true _
    rw [hyes, Bool.not_true, Bool.and_false]
    exact Bool.false_ne_true

/-- The ENT registers of an entry. -/
theorem entShow_regs {e : TtbEnt} {b : Base} : rd (entShow e b) 0x09054 = BitVec.ofNat 32 e.rep ∧
    rd (entShow e b) 0x09050 = BitVec.ofNat 32 e.param ∧ rd (entShow e b) 0x09058 = BitVec.ofNat 32 e.count ∧
    rd64 (entShow e b) 0x09044 = BitVec.ofNat 64 e.due := by
  refine ⟨?_, ?_, rd_wr_same, ?_⟩
  · rw [entShow, rd_wr_other (by decide), rd_wr_same]
  · rw [entShow, rd_wr_other (by decide), rd_wr_other (by decide), rd_wr_same]
  · have hw : ∀ (a : Nat) (x : Word) (b : Base), a ≠ 0x09044 → a ≠ 0x09048 → rd64 (wr a x b) 0x09044 = rd64 b 0x09044 :=
      fun a x b h0 h1 => by rw [rd64, rd_wr_other h0.symm, rd_wr_other h1.symm, rd64]
    rw [entShow, hw _ _ _ (by decide) (by decide), hw _ _ _ (by decide) (by decide), hw _ _ _ (by decide) (by decide),
      hw _ _ _ (by decide) (by decide), rd64_wr64]

theorem stageOp_of_none (h : stageNext u = none) : stageOp u = u := by rw [stageOp, h]
theorem stageOp_of_some {e : TtbEnt} (h : stageNext u = some (i, e)) : stageOp u =
    ttbPut i { e with st := .staged, actAt := if e.due ≤ u.base.ns.toNat then u.base.ns.toNat + 1 else e.due }
      (onLaunch (fun l => { l with stagedAt := some u.base.tick }) u) := by
  rw [stageOp, h]

theorem ttbActOp_of_one {e : TtbEnt} (h : s.unit.launch.ttb = [(i, e)]) (hs : e.st = .staged)
    (ha : e.actAt ≤ s.unit.base.ns.toNat) : ttbActOp s = ttbAct1 i e s := by
  have hdue : (s.unit.launch.ttb.filter fun x => decide (x.2.st = .staged) && decide (x.2.actAt ≤ s.unit.base.ns.toNat)) =
      [(i, e)] := by
    rw [h]
    exact List.filter_cons_of_pos (by rw [hs, decide_eq_true ha]; rfl)
  rw [ttbActOp, hdue]
  rfl
theorem ttbActOp_of_none (h : ∀ x ∈ s.unit.launch.ttb, x.2.st ≠ .staged ∨ s.unit.base.ns.toNat < x.2.actAt) : ttbActOp s = s := by
  have hdue : (s.unit.launch.ttb.filter fun x => decide (x.2.st = .staged) && decide (x.2.actAt ≤ s.unit.base.ns.toNat)) = [] := by
    rw [List.filter_eq_nil_iff]
    intro x hx
    rw [Bool.and_eq_true, decide_eq_true_eq, decide_eq_true_eq]
    rintro ⟨hs, ha⟩
    exact (h x hx).elim (· hs) fun hlt => absurd ha (Nat.not_le.mpr hlt)
  rw [ttbActOp, hdue]
  rfl

end

/-! ## The obligations -/

/-- Settles O51: what a frame asks of the launch's slot is done on the machine after its reception, and firing, judging and the
deadline settle what is due. -/
theorem launchAtMembers : Obligations.LaunchAtMembers := by
  unfold Obligations.LaunchAtMembers
  intro s
  refine ⟨?_, ?_, ?_, ?_, ?_, ?_, ?_, ?_, ?_, ?_, ?_, ?_, ?_, ?_⟩
  · intro d lane seq h hu
    have hgo : ∀ g, exec (.goRx ⟨.unit d, lane, seq, none⟩ g) s =
        .next (goOp d g (rxSeq ⟨.unit d, lane, seq, none⟩ true [(0x09, goBody g)] s).2) := fun g => by
      show (.next (if (rxSeq _ _ _ _).1 && domUsable _ d then _ else _) : Host.Outcome State Fault Refusal) = _
      simp only [permDown, rxSeq_ok h, domUsable_took h hu, Bool.and_self, if_true]
    refine ⟨fun a => ?_, hgo, fun g i k hk ho hst ht hg => ?_, fun a => ?_⟩
    · show (.next (if (rxArm _ _ _ _ _ _).1 && domUsable _ d then _ else _) : Host.Outcome State Fault Refusal) = _
      simp only [permDown, rxArm, rxSeq_ok h, domUsable_took h hu, Bool.and_self, if_true]
    · have took := rxSeq_took h (0x09, goBody g) []
      have hlaunch : (rxSeq ⟨.unit d, lane, seq, none⟩ true [(0x09, goBody g)] s).2.unit.launch = s.unit.launch :=
        (congrArg UnitState.launch took.unit :)
      have hns : (rxSeq ⟨.unit d, lane, seq, none⟩ true [(0x09, goBody g)] s).2.unit.base.ns = s.unit.base.ns :=
        (congrArg Base.ns (unitRest_core took.unit) :)
      refine ⟨_, hgo g, goOp_accepts ((slotOf_of_launch hlaunch).trans hk) (fun j x hx => ho j x ?_) hst ht ?_⟩
      · exact (slotOf_of_launch hlaunch).symm.trans hx
      · rw [hns, Machine.guard, rd_of_took took (by decide)]
        exact hg
    · show (.next (if (rxSeq _ _ _ _).1 && domUsable _ d then _ else _) : Host.Outcome State Fault Refusal) = _
      simp only [permDown, rxSeq_ok h, domUsable_took h hu, Bool.and_self, if_true]
  · rintro ⟨p, lane, seq, part⟩ a r rfl h
    cases p with
    | dist n => rfl
    | unit d =>
      refine congrArg Host.Outcome.next (if_neg ?_)
      rcases h with h | h
      · rw [h]
        exact Bool.false_ne_true
      · rw [h d rfl, Bool.and_false]
        exact Bool.false_ne_true
  · rintro ⟨p, lane, seq, part⟩ g r rfl h
    cases p with
    | dist n => rfl
    | unit d =>
      refine congrArg Host.Outcome.next (if_neg ?_)
      rcases h with h | h
      · rw [h]
        exact Bool.false_ne_true
      · rw [h d rfl, Bool.and_false]
        exact Bool.false_ne_true
  · rintro ⟨p, lane, seq, part⟩ a r rfl h
    cases p with
    | dist n => rfl
    | unit d =>
      refine congrArg Host.Outcome.next (if_neg ?_)
      rcases h with h | h
      · rw [h]
        exact Bool.false_ne_true
      · rw [h d rfl, Bool.and_false]
        exact Bool.false_ne_true
  · intro g lid hl
    refine ⟨fun i k ht hf => ⟨fun hp hst => ?_, fun h => ?_⟩, fun i k ht hf => ⟨fun hp hb => ?_, fun h => ?_⟩, fun ht hf => ?_⟩
    · exact next_of_unitLive hl ((guardOp_of_member ht hf).trans (if_pos ⟨pastGuard_of_lt hp, hst⟩))
    · refine next_of_unitLive hl ((guardOp_of_member ht hf).trans (if_neg ?_))
      rintro ⟨hp, hst⟩
      exact h.elim (fun hle => not_pastGuard_of_le hle hp) (· hst)
    · exact next_of_unitLive hl ((guardOp_of_origin ht hf).trans (if_pos ⟨pastGuard_of_lt hp, hb⟩))
    · refine next_of_unitLive hl ((guardOp_of_origin ht hf).trans (if_neg ?_))
      rintro ⟨hp, hb⟩
      exact h.elim (fun hle => not_pastGuard_of_le hle hp) fun hb' => absurd (hb'.symm.trans hb) (by decide)
    · exact next_of_unitLive hl (guardOp_of_none ht hf)
  · exact fun hl => next_of_unitLive hl rfl
  · exact fun i k hl h => next_of_unitLive hl (launchFireOp_of_one h)
  · exact fun h => congrArg Host.Outcome.next (ifUnit_of_self (launchFireOp_of_none h))
  · exact fun hl => next_of_unitLive hl rfl
  · exact fun h => congrArg Host.Outcome.next (ifUnit_of_self (judgeOp_of_none h))
  · exact fun hl => next_of_unitLive hl rfl
  · exact fun h => congrArg Host.Outcome.next (ifUnit_of_self (deadlineOp_of_none h))
  · intro ch r q hl h
    obtain ⟨hw, hq, ho⟩ := recReadOp_of_cons (ch := ch.toNat) h
    refine ⟨_, next_of_unitLive hl rfl, hq, ?_, rfl⟩
    rw [answer_unit.2, hw]
    exact congrArg (· ++ [Out.regData .unit ch (lo32 r) 0]) ho
  · intro ch hl h
    obtain ⟨hw, hq, ho⟩ := recReadOp_of_nil (ch := ch.toNat) h
    refine ⟨_, next_of_unitLive hl rfl, hq, ?_, rfl⟩
    rw [answer_unit.2, hw]
    exact congrArg (· ++ [Out.regData .unit ch 0 0]) ho

/-- Settles O52: an insertion, a cancel, a load and a staging each put one entry, and the entries that are due act. -/
theorem timetableRuns : Obligations.TimetableRuns := by
  unfold Obligations.TimetableRuns
  intro s
  refine ⟨?_, ?_, ?_, ?_, ?_, ?_, ?_, ?_, ?_, ?_, ?_, ?_⟩
  · intro hl h
    refine ⟨_, next_of_unitLive hl (insertOp_of_accepted h), rfl, ?_, fun j hj => ?_⟩
    · rw [onUnit_unit, ttbGet_ttbPut_same]
    · rw [onUnit_unit, ttbGet_ttbPut_other hj]
  · intro hl h
    have hstep : exec (.ttbInsertCmd none) s = .next (insertOp (ttbSel s.unit) (entRegs s.unit.base) s).2 :=
      next_of_unitLive hl rfl
    exact ⟨_, hstep, exec_otherSame hstep, insertOp_refuses h⟩
  · exact fun m h => next_of_accepts h
  · intro hl hp h
    refine ⟨onUnit ttbCancelOp s, next_of_unitLive hl rfl, rfl, ?_⟩
    rw [onUnit_unit, ttbCancelOp_frees hp h]
    exact ⟨ttbGet_ttbPut_same, fun j hj => ttbGet_ttbPut_other hj⟩
  · exact fun h => congrArg Host.Outcome.next (ifUnit_of_self (onUnit_of_self (ttbCancelOp_of_none h)))
  · intro hl
    refine ⟨onUnit ttbLoadOp s, next_of_unitLive hl rfl, ?_⟩
    rw [onUnit_unit, onUnit_dist, ttbLoadOp, uB_base, uB_launch]
    exact ⟨rfl, rfl, entShow_regs⟩
  · intro i e hu h
    refine ⟨onUnit stageOp s, next_of_unitRuns hu rfl, rfl, ?_⟩
    rw [onUnit_unit, stageOp_of_some h, ttbPut_launch]
    exact ⟨ttbGet_ttbPut_same, rfl, fun j hj => ttbGet_ttbPut_other hj⟩
  · exact fun h => next_of_unitRuns_self (onUnit_of_self (stageOp_of_none h))
  · exact fun hu => next_of_unitRuns hu rfl
  · exact fun i e hu h hs ha => next_of_unitRuns hu (ttbActOp_of_one h hs ha)
  · exact fun h => next_of_unitRuns_self (ttbActOp_of_none h)
  · intro hl c hc
    have hu : ¬ unitRuns s := fun hu => by rw [live_of_run hu] at hl; cases hl
    simp only [List.mem_cons, List.not_mem_nil, or_false] at hc
    rcases hc with rfl | rfl | rfl | rfl | rfl
    · exact congrArg Host.Outcome.next (ifUnit_of_not_live hl)
    · exact congrArg Host.Outcome.next (ifUnit_of_not_live hl)
    · exact congrArg Host.Outcome.next (ifUnit_of_not_live hl)
    · exact congrArg Host.Outcome.next (ifUnitRuns_of_not_run hu)
    · exact congrArg Host.Outcome.next (ifUnitRuns_of_not_run hu)

end Sys2Proof.Proofs
end


section
/-! PROOFS. Launch frames at a distributor (O53). -/

namespace Sys2Proof.Proofs
open Sys2Proof Sys2Proof.Machine

section
variable {s t : State} {rx : Rx} {n : Fin 132} {g lid : Nat}

/-! ## What receiving a frame leaves of the distributor -/

theorem distBase_took (h : Took s t) : t.dist.base = s.dist.base := (congrArg DistState.base h.dist :)
theorem distCmb_took (h : Took s t) : t.dist.cmb = s.dist.cmb := (congrArg DistState.cmb h.dist :)
theorem muted_took (h : Took s t) : muted t.dist = muted s.dist := by rw [muted, muted, distBase_took h]
theorem activeUp_took (h : Took s t) : activeUp t.dist = activeUp s.dist := by rw [activeUp, activeUp, distBase_took h]

/-- A frame that is not accepted leaves only what receiving it leaves. -/
theorem onDistRx_of_refused {r : Bool × State} {f : Nat → State → State} (h : r.1 = false) : onDistRx rx r f = r.2 := by
  unfold onDistRx
  split
  · exact if_neg (by rw [h]; exact Bool.false_ne_true)
  · rfl

/-- A port of a frame in sequence is admitted after it. -/
theorem admitted_took (h : inOrderAdmitted rx n s) (ht : Took s t) : admitted (distPort t.dist n) = true := by
  have hst : (getPort t rx.port).phy.st = .admitted := (ht.links.st rx.port).trans h.2.2
  rw [h.1] at hst
  exact decide_eq_true hst
theorem fromActive_of_active (h : inOrderAdmitted rx n s) (ht : Took s t) (hn : n.val = activeUp s.dist)
    (hm : muted s.dist = false) : fromActive t.dist n = true := by
  rw [fromActive, admitted_took h ht, muted_took ht, activeUp_took ht, hm, hn]
  exact (Bool.and_true _).trans ((Bool.and_true _).trans (beq_self_eq_true _))
theorem fromActive_of_other (ht : Took s t) (h : muted s.dist = true ∨ n.val ≠ activeUp s.dist) :
    fromActive t.dist n = false := by
  rw [fromActive, muted_took ht, activeUp_took ht]
  rcases h with h | h
  · rw [h, Bool.not_true, Bool.and_false]
  · rw [beq_eq_false_iff_ne.mpr h, Bool.false_and, Bool.false_and]

/-- What a distributor does with a frame that is permitted, in sequence and on an admitted port. -/
theorem onDistRx_permitted {ok : Bool} {f0 : BitVec 6 × BitVec 64} {fs : List (BitVec 6 × BitVec 64)} {f : Nat → State → State}
    (h : inOrderAdmitted rx n s) (hok : ok = true) :
    (.next (onDistRx rx (rxSeq rx ok (f0 :: fs) s) f) : Host.Outcome State Fault Refusal) =
      .next (f n (rxSeq rx true (f0 :: fs) s).2) := by
  subst hok
  exact congrArg Host.Outcome.next (onDistRx_took h f0 fs f)

/-! ## The cutoff and the tokens (R243, R504) -/

theorem cutoffOp_of_none (h : lctxFind s.dist g lid = none) : cutoffOp g lid s = s := by rw [cutoffOp, h]
theorem cutoffOp_of_some {c : LCtx} (h : lctxFind s.dist g lid = some c) : cutoffOp g lid s =
    if (isRoot s.dist && c.own && pastCutoff s.dist c.target) = true then rootAbort g c.epochLo lid 0x02 s else s := by
  rw [cutoffOp, h]
theorem reqRefill_of_early {d : DistState} {p : Nat}
    (h : d.base.tick < (tabGet {} p d.cmb.reqTok).at_ + fld (rd d.base 0x0E048) 8 24 * 4) : reqRefill p d = d :=
  if_neg (Nat.not_le.mpr h)

end

/-- Settles O53: what a frame asks is done on the machine after its reception, and only where the port and the distributor's
state let it pass. -/
theorem launchAtDistributors : Obligations.LaunchAtDistributors := by
  unfold Obligations.LaunchAtDistributors
  intro s
  refine ⟨?_, ?_, ?_, ?_, ?_, ?_, ?_, ?_⟩
  · intro n rx h
    have took : ∀ (f : BitVec 6 × BitVec 64) (fs : List (BitVec 6 × BitVec 64)), Took s (rxSeq rx true (f :: fs) s).2 :=
      rxSeq_took h.2.1
    refine ⟨?_, ?_, ?_, ?_, ?_, ?_, ?_, ?_, ?_, ?_, ?_, ?_⟩
    · exact fun a hp => onDistRx_permitted h hp
    · refine fun a hp hm => (onDistRx_permitted h hp).trans (congrArg Host.Outcome.next (if_pos ?_))
      exact (muted_took (took _ _)).trans hm
    · refine fun a hp hn hm => (onDistRx_permitted h hp).trans (congrArg Host.Outcome.next (if_pos ?_))
      exact fromActive_of_active h (took _ _) hn hm
    · refine fun a hp hx => (onDistRx_permitted h hp).trans (congrArg Host.Outcome.next (if_neg (Bool.eq_false_iff.mp ?_)))
      exact fromActive_of_other (took _ _) hx
    · intro a refused hp hm hs
      refine (onDistRx_permitted h hp).trans (congrArg Host.Outcome.next ?_)
      rw [if_neg (Bool.eq_false_iff.mp ((muted_took (took _ _)).trans hm)), distCmb_took (took _ _), hs]
      rfl
    · intro a refused hp hm hs
      refine (onDistRx_permitted h hp).trans (congrArg Host.Outcome.next ?_)
      rw [if_neg (Bool.eq_false_iff.mp ((muted_took (took _ _)).trans hm)), distCmb_took (took _ _), hs]
      rfl
    · refine fun a refused hp hm => (onDistRx_permitted h hp).trans (congrArg Host.Outcome.next (if_pos ?_))
      exact (muted_took (took _ _)).trans hm
    · refine fun g hp hn hm => (onDistRx_permitted h hp).trans (congrArg Host.Outcome.next (if_pos ?_))
      exact fromActive_of_active h (took _ _) hn hm
    · refine fun g hp hx => (onDistRx_permitted h hp).trans (congrArg Host.Outcome.next (if_neg (Bool.eq_false_iff.mp ?_)))
      exact fromActive_of_other (took _ _) hx
    · refine fun a hp hd => (onDistRx_permitted h ?_).trans (congrArg Host.Outcome.next (if_pos hd))
      rw [hp, Bool.or_true]
    · refine fun a hp hd hn hm => (onDistRx_permitted h ?_).trans
        (congrArg Host.Outcome.next ((if_neg (Bool.eq_false_iff.mp hd)).trans (if_pos ?_)))
      · rw [hp, Bool.true_or]
      · exact fromActive_of_active h (took _ _) hn hm
    · refine fun a hp hd hx => (onDistRx_permitted h ?_).trans
        (congrArg Host.Outcome.next ((if_neg (Bool.eq_false_iff.mp hd)).trans (if_neg (Bool.eq_false_iff.mp ?_))))
      · rw [hp, Bool.true_or]
      · exact fromActive_of_other (took _ _) hx
  · exact fun rx a => ⟨fun h => congrArg Host.Outcome.next (onDistRx_of_refused h),
      fun h => congrArg Host.Outcome.next (onDistRx_of_refused h),
      fun refused h => congrArg Host.Outcome.next (onDistRx_of_refused h)⟩
  · exact fun rx g h => congrArg Host.Outcome.next (onDistRx_of_refused h)
  · exact fun rx a h => congrArg Host.Outcome.next (onDistRx_of_refused h)
  · intro g lid c hd hc
    refine ⟨fun hr ho ht => next_of_distRuns hd ((cutoffOp_of_some hc).trans (if_pos ?_)),
      fun h => next_of_distRuns hd ((cutoffOp_of_some hc).trans (if_neg (Bool.eq_false_iff.mp ?_)))⟩
    · rw [hr, ho, pastCutoff, decide_eq_true ht]
      rfl
    · rcases h with h | h | h
      · rw [h, Bool.false_and, Bool.false_and]
      · rw [h, Bool.and_false, Bool.false_and]
      · rw [pastCutoff, decide_eq_false (Nat.not_lt.mpr h), Bool.and_false]
  · exact fun g lid h => congrArg Host.Outcome.next (ifDistRuns_of_self (cutoffOp_of_none h))
  · exact fun n hl => next_of_distLive hl rfl
  · intro n h
    have hself : onDist (reqRefill n.val) s = s := congrArg (fun d => { s with dist := d }) (reqRefill_of_early h)
    exact congrArg Host.Outcome.next (ifDist_of_self hself)

end Sys2Proof.Proofs
end


section
/-! PROOFS. Combining at the unit (O54). -/

namespace Sys2Proof.Proofs
open Sys2Proof Sys2Proof.Machine

section
variable {u : UnitState} {s : State} {r : Req} {b : Nat}

/-! ## What answers and injections leave of the client -/

theorem pushResp_cmb {kind dest tag status ops : Nat} : (pushResp kind dest tag status ops u).cmb = u.cmb := by
  unfold pushResp
  extract_lets m
  split
  · rfl
  · split <;> rfl
theorem respAck_cmb {obj op value : Nat} : (respAck r obj op value u).cmb = u.cmb := by
  unfold respAck
  split
  · exact pushResp_cmb
  · rfl
theorem respError_cmb {status obj op cause : Nat} : (respError r status obj op cause u).cmb = u.cmb := pushResp_cmb
theorem injTouch_cmb {mem key : Nat} : (injTouch mem key u).cmb = u.cmb := by
  unfold injTouch
  split
  · extract_lets v
    split <;> rfl
  · rfl
theorem injWrite_cmb {mem key : Nat} : (injWrite mem key u).cmb = u.cmb := by
  refine Eq.trans ?_ (injTouch_cmb (mem := mem) (key := key))
  unfold injWrite
  extract_lets v
  split
  · split <;> rfl
  · rfl
theorem bufGet_of_cmb {v : UnitState} (h : u.cmb = v.cmb) : bufGet u b = bufGet v b := by rw [bufGet, bufGet, h]

/-! ## Staging and reading (R363, R364) -/

section
variable {chunk : Nat} {data : BitVec 64}

/-- A buffer as a chunk written to it stages it. -/
def stagedBuf (x : CmbBuf) (chunk : Nat) (data : BitVec 64) : CmbBuf :=
  { x with st := .staging, mask := (if x.st = .staging then x.mask else 0) ||| BitVec.ofNat 8 (2 ^ chunk),
           data := x.data.set chunk data }

theorem cmbDataOp_of_absent (h : bufCap u ≤ b) : cmbDataOp r b chunk data u = respError r stBadObj b 0x0C 0 u := if_pos h
theorem cmbDataOp_of_posted (h : b < bufCap u) (hp : (bufGet u b).st = .posted) :
    cmbDataOp r b chunk data u = respError r stRefused b 0x0C 7 u := (if_neg (Nat.not_le.mpr h)).trans (if_pos hp)
theorem cmbDataOp_of_free (h : b < bufCap u) (hp : (bufGet u b).st ≠ .posted) : cmbDataOp r b chunk data u =
    respAck r b 0x0C 0 (injWrite 3 b (bufPut b (stagedBuf (bufGet u b) chunk data) u)) :=
  (if_neg (Nat.not_le.mpr h)).trans (if_neg hp)

theorem cmbDataOp_stages (h : b < bufCap u) (hp : (bufGet u b).st ≠ .posted) :
    bufGet (cmbDataOp r b chunk data u) b = stagedBuf (bufGet u b) chunk data ∧
      ∀ c, c ≠ b → bufGet (cmbDataOp r b chunk data u) c = bufGet u c := by
  rw [cmbDataOp_of_free h hp]
  have hcmb : (respAck r b 0x0C 0 (injWrite 3 b (bufPut b (stagedBuf (bufGet u b) chunk data) u))).cmb =
      (bufPut b (stagedBuf (bufGet u b) chunk data) u).cmb := respAck_cmb.trans injWrite_cmb
  exact ⟨(bufGet_of_cmb hcmb).trans bufGet_bufPut_same, fun c hc => (bufGet_of_cmb hcmb).trans (bufGet_bufPut_other hc)⟩

theorem cmbReadOp_cmb {k : Nat} : (cmbReadOp r b k u).cmb = u.cmb := by
  refine Eq.trans ?_ (injTouch_cmb (mem := 3) (key := b))
  unfold cmbReadOp
  extract_lets v x
  split
  · exact respError_cmb
  · split
    · exact respError_cmb
    · split
      · exact respError_cmb
      · exact pushResp_cmb

end

/-! ## Posting (R364, R365) -/

section
variable {p : PostReq}

/-- The operation that an accepted post opens. -/
def postedOp (u : UnitState) (p : PostReq) : CmbOp :=
  { gallery := p.gallery, gseq := p.gseq, op := p.op, buf := p.buf, sigSem := p.sigSem, sigEn := p.sigEn,
    notify := p.notify, core := p.core, tag := p.tag, bar := p.bar, postedAt := u.base.tick,
    ctx := ctxEpoch u, copyA := none, copyB := none, commitA := false, commitB := false,
    ready := none, abort := false, bufOwned := decide (p.op ≠ opBarrier) }

theorem sendSeq_unit_cmb {d : Dom} {delay cls : Nat} {typ : BitVec 6} {hdr : BitVec 64} {pl : List (BitVec 64)} :
    (sendSeq (.unit d) delay cls typ hdr pl s).unit.cmb = s.unit.cmb := by
  cases d <;> rfl
theorem sendCmbUp_cmb : (sendCmbUp p s).unit.cmb = s.unit.cmb := by
  unfold sendCmbUp
  refine List.foldlRecOn (motive := fun x : State => x.unit.cmb = s.unit.cmb) _ _ rfl fun x hx d _ => ?_
  split
  · exact sendSeq_unit_cmb.trans hx
  · exact hx

theorem postOp_of_refused (h : postRefusal s.unit p ≠ 0) : (postOp p s).1 = postRefusal s.unit p ∧
    (postOp p s).2.unit.cmb = s.unit.cmb := by
  rw [postOp, if_pos h]
  exact ⟨rfl, logU_cmb _ _ _ _ _ _⟩
theorem postOp_of_accepted (h : postRefusal s.unit p = 0) : (postOp p s).1 = 0 ∧
    (postOp p s).2.unit.cmb.ops = s.unit.cmb.ops ++ [postedOp s.unit p] := by
  have hbuf : ∀ (x : CmbBuf) (v : UnitState), (if p.op = opBarrier then v else bufPut p.buf x v).cmb.ops = v.cmb.ops := by
    intro x v
    split <;> rfl
  rw [postOp, if_neg (not_not.mpr h)]
  refine ⟨rfl, ?_⟩
  rw [onUnit_unit, uB_cmb, onClient_cmb]
  simp only [hbuf, sendCmbUp_cmb]
  rfl

theorem cmbPostOp_of_absent (ho : p.op % 64 ≠ opBarrier) (hb : bufCap s.unit ≤ p.buf) :
    cmbPostOp r p s = onUnit (respError r stBadObj p.buf 0x0D 0) s := if_pos ⟨ho, hb⟩
theorem cmbPostOp_cmb (h : p.op % 64 = opBarrier ∨ p.buf < bufCap s.unit) :
    (cmbPostOp r p s).unit.cmb = (postOp p s).2.unit.cmb := by
  have hno : ¬ (p.op % 64 ≠ opBarrier ∧ bufCap s.unit ≤ p.buf) := by
    rintro ⟨ho, hb⟩
    exact h.elim ho fun hlt => absurd hb (Nat.not_le.mpr hlt)
  rw [cmbPostOp, if_neg hno, onUnit_unit]
  split
  · exact respAck_cmb
  · exact respError_cmb

end

/-! ## Settling, the deadline and GAL_STATE (R380, R382, R398) -/

theorem settle_of_none {g : Nat} (h : settleStep g s = none) : settle g s = s := by
  rw [settle, settleGal, h]
theorem settleAll_of_none (h : ∀ g, settleStep g s = none) : settleAll s = s :=
  List.foldlRecOn (motive := fun x : State => x = s) _ _ rfl fun x hx g _ => by
    rw [hx]
    exact settle_of_none (h g)
theorem unitDeadlineOp_of_none {g : Nat} (h : overdue s.unit g = none) : unitDeadlineOp g s = s := by
  rw [unitDeadlineOp, h]

/-- A gallery that is no longer stale. -/
theorem setStale_false {g : Nat} : (setStale g false u).base = u.base ∧ galStale (setStale g false u) g = false := by
  unfold setStale
  extract_lets u'
  rw [Bool.false_and, if_neg Bool.false_ne_true]
  exact ⟨rfl, tabGet_tabSet_same false g false u.cmb.stale⟩
theorem galStateOp_of_closed {be : BitVec 4} {data : Word} (h : galOps s.unit (galSel s.unit) = []) :
    galStateOp be data s = onUnit (fun u => setStale (galSel s.unit) false (uB (fun b => wr (galStateAddr (galSel s.unit))
      (mergeBytes be (rd b (galStateAddr (galSel s.unit))) data) b) u)) s := if_pos (by rw [h]; rfl)
theorem galStateOp_of_open {be : BitVec 4} {data : Word} (h : galOps s.unit (galSel s.unit) ≠ []) :
    galStateOp be data s = logU uCmbCfgErr noPort (galSel s.unit) 0 0 s :=
  if_neg (by rwa [List.isEmpty_iff])

end

/-! ## The obligation -/

/-- What a unit does with an accepted frame of a usable domain, and with any other. -/
theorem unitRx_next {d : Dom} {r : Bool × State} {f : State → State} (hr : r.1 = true) (hu : domUsable r.2.unit d = true) :
    (.next (if r.1 && domUsable r.2.unit d then f r.2 else r.2) : Host.Outcome State Fault Refusal) = .next (f r.2) :=
  congrArg Host.Outcome.next (if_pos (by rw [hr, hu]; rfl))
theorem unitRx_of_refused {d : Dom} {r : Bool × State} {t : State} (h : r.1 = false ∨ domUsable r.2.unit d = false) :
    (.next (if r.1 && domUsable r.2.unit d then t else r.2) : Host.Outcome State Fault Refusal) = .next r.2 := by
  refine congrArg Host.Outcome.next (if_neg (Bool.eq_false_iff.mp ?_))
  rcases h with h | h
  · rw [h, Bool.false_and]
  · rw [h, Bool.and_false]

/-- Settles O54: staging and posting change one buffer and one operation, and what arrives is acted on where it is accepted. -/
theorem combiningAtUnits : Obligations.CombiningAtUnits := by
  unfold Obligations.CombiningAtUnits
  intro s
  refine ⟨?_, ?_, ?_, ?_, ?_, ?_, ?_, ?_, ?_, ?_, ?_, ?_, ?_, ?_⟩
  · intro r buf chunk data h hb
    refine ⟨fun hp => ?_, fun hp => (next_of_accepts h).trans (congrArg Host.Outcome.next (onUnit_congr (cmbDataOp_of_posted hb hp)))⟩
    obtain ⟨hbuf, hother⟩ := cmbDataOp_stages (r := r) (chunk := chunk.toNat) (data := data) hb hp
    exact ⟨onUnit (cmbDataOp r buf.toNat chunk.toNat data) s, next_of_accepts h, rfl, hbuf, hother⟩
  · exact fun r buf chunk data h hb =>
      (next_of_accepts h).trans (congrArg Host.Outcome.next (onUnit_congr (cmbDataOp_of_absent hb)))
  · rintro r buf g op chunks gseq sigSem sigEn notify p h rfl
    refine ⟨fun hb => ⟨fun hr => ?_, fun hr => ?_⟩, fun ho hb => ?_⟩
    · refine ⟨_, postedOp s.unit (PostReq.mk g.toNat gseq op.toNat chunks.toNat buf.toNat sigSem.toNat sigEn notify
        r.reply.toNat r.tag.toNat none), next_of_accepts h, ?_, rfl, rfl, rfl, rfl, rfl, rfl, rfl⟩
      rw [cmbPostOp_cmb hb]
      exact (postOp_of_accepted hr).2
    · refine ⟨_, next_of_accepts h, ?_⟩
      rw [cmbPostOp_cmb hb]
      exact (postOp_of_refused hr).2
    · exact (next_of_accepts h).trans (congrArg Host.Outcome.next (cmbPostOp_of_absent ho hb))
  · exact fun r buf chunk h => ⟨_, next_of_accepts h, cmbReadOp_cmb, rfl⟩
  · intro d lane seq h hu
    exact ⟨fun k op repro status pl => unitRx_next (rxSeq_ok h _ _) (domUsable_took h hu _ _),
      fun k => unitRx_next (rxSeq_ok h _ _) (domUsable_took h hu _ _)⟩
  · rintro ⟨p, lane, seq, part⟩ k op repro status pl r rfl h
    cases p with
    | dist n => rfl
    | unit d => exact unitRx_of_refused (h.imp_right fun hd => hd d rfl)
  · rintro ⟨p, lane, seq, part⟩ k r rfl h
    cases p with
    | dist n => rfl
    | unit d => exact unitRx_of_refused (h.imp_right fun hd => hd d rfl)
  · exact fun hu => next_of_unitRuns hu rfl
  · exact fun h => next_of_unitRuns_self (settleAll_of_none h)
  · exact fun g hu => next_of_unitRuns hu rfl
  · exact fun g h => next_of_unitRuns_self (unitDeadlineOp_of_none h)
  · intro be data hu h
    refine ⟨_, next_of_unitRuns hu (galStateOp_of_closed h), ?_⟩
    rw [onUnit_unit, setStale_false.1, setStale_false.2, uB_base, rd_wr_same]
    exact ⟨rfl, rfl, rfl⟩
  · exact fun be data hu h => next_of_unitRuns hu (galStateOp_of_open h)
  · exact fun hu => ⟨congrArg Host.Outcome.next (ifUnitRuns_of_not_run hu),
      fun g => congrArg Host.Outcome.next (ifUnitRuns_of_not_run hu),
      fun be data => congrArg Host.Outcome.next (ifUnitRuns_of_not_run hu)⟩

end Sys2Proof.Proofs
end


section
/-! PROOFS. Combining at a distributor, and the records of the mirror partner (O55, O56). -/

namespace Sys2Proof.Proofs
open Sys2Proof Sys2Proof.Machine

section
variable {s t : State} {rx : Rx} {n : Fin 132} {g p : Nat} {q : BitVec 16}

/-! ## Frames in sequence, and frames that are not accepted -/

theorem cmbUpOp_of_muted {k : CmbKey} {op : Nat} {repro : Bool} {pl : List (BitVec 64)} (h : muted s.dist = true) :
    cmbUpOp p k op repro pl s = s := if_pos h

/-- A frame from above is taken on port 128 alone, while the distributor is not muted. -/
theorem fromAbove_of_parent {a b : State} (hn : n = 128) (hm : muted s.dist = false) :
    (if (decide (n.val = 128) && !muted s.dist) = true then a else b) = a := by
  subst hn
  exact if_pos (by rw [hm]; rfl)
theorem fromAbove_of_other {a b : State} (h : n ≠ 128 ∨ muted s.dist = true) :
    (if (decide (n.val = 128) && !muted s.dist) = true then a else b) = b := by
  refine if_neg (Bool.eq_false_iff.mp ?_)
  rcases h with h | h
  · have hv : n.val ≠ 128 := fun hv => h (Fin.ext hv)
    rw [decide_eq_false hv, Bool.false_and]
  · rw [h, Bool.not_true, Bool.and_false]
theorem permDown_parent (h : inOrderAdmitted rx n s) (hn : n = 128) : permDown rx.port = true := by
  rw [h.1, hn]
  rfl

theorem onDistRx_of_admitted {f : Nat → State → State} {r : State} (hp : rx.port = .dist n) (ha : admitted (distPort r.dist n) = true) :
    onDistRx rx (true, r) f = f n r := by
  rw [onDistRx, hp]
  exact if_pos (by rw [ha]; rfl)

/-- What a CMB_DOWN does: the group is complete, or it may be one whose frames are still arriving. -/
theorem cmbDownRx_ok {k : CmbKey} {op : BitVec 8} {repro : Bool} {status : BitVec 4} {pl : List (BitVec 64)}
    (h : (rxCmbDown rx k op.toNat repro status.toNat pl s).1 = true) : exec (.cmbDownRxDist rx k op repro status pl) s =
      .next (onDistRx rx (rxCmbDown rx k op.toNat repro status.toNat pl s) fun n s => if n = 128 && !muted s.dist then
        cmbDownOp k (op.toNat % 64) { status := status.toNat, epochLo := k.epochLo.toNat, repro := repro, payload := pl } s
        else s) := congrArg Host.Outcome.next (if_pos h)
theorem cmbDownRx_part {k : CmbKey} {op : BitVec 8} {repro : Bool} {status : BitVec 4} {pl : List (BitVec 64)}
    (h : (rxCmbDown rx k op.toNat repro status.toNat pl s).1 = false) : exec (.cmbDownRxDist rx k op repro status pl) s =
      .next (onDistRx rx (rx.part.isSome, (rxCmbDown rx k op.toNat repro status.toNat pl s).2) fun n s =>
        if n = 128 && !muted s.dist then
          relayPart k.gallery.toNat k.gseq (op.toNat % 64) pl.length (openedOf 0x0D (distPort s.dist n).arq.opened) s
        else s) := congrArg Host.Outcome.next (if_neg (Bool.eq_false_iff.mp h))

/-! ## Timers (R368, R371, R374, R378) -/

theorem foldl_accWait_none {l : List CmbCtx} {f : Option CmbCtx → CmbCtx → Option CmbCtx}
    (hf : ∀ b c, c.accWait = none → f b c = b) (h : ∀ c ∈ l, c.accWait = none) : l.foldl f none = none :=
  List.foldlRecOn (motive := fun b : Option CmbCtx => b = none) _ _ rfl fun b hb c hc => (hf b c (h c hc)).trans hb

theorem accGrant_of_none (h : accPool ≤ accUsed s.dist ∨ ∀ c ∈ s.dist.cmb.ctxs, c.accWait = none) : accGrant s = s := by
  unfold accGrant
  extract_lets d
  split
  next hfree =>
    have hnone : ∀ c ∈ s.dist.cmb.ctxs, c.accWait = none :=
      h.resolve_left fun hfull => absurd hfree (Nat.not_lt.mpr hfull)
    rw [foldl_accWait_none (fun b c hc => by rw [hc]) hnone]
  next => rfl

theorem substTimeoutOp_of_none (h : substOverdue s.dist p = []) : substTimeoutOp p s = cancelTest p s := by
  rw [substTimeoutOp, h]
  rfl

theorem ctxDeadlineOp_of_none (h : ctxFind s.dist g q = none) : ctxDeadlineOp g q s = s := by
  rw [ctxDeadlineOp, h]
/-- A deadline that is not due, of a context that stands. -/
theorem ctxDeadlineOp_of_not_due {c : CmbCtx} (h : ctxFind s.dist g q = some c)
    (hd : (isRoot s.dist && decidesHere s.dist c && !c.done && c.result.isNone && !c.expired &&
      decide (c.dlFrom + toutTicks s.dist 0x058 28 ≤ s.dist.base.tick)) = false) : ctxDeadlineOp g q s = s := by
  simp only [ctxDeadlineOp, h, hd, Bool.false_and, Bool.false_eq_true, if_false]
theorem ctxDeadlineOp_of_not_root (h : isRoot s.dist = false) : ctxDeadlineOp g q s = s := by
  cases hc : ctxFind s.dist g q with
  | none => exact ctxDeadlineOp_of_none hc
  | some c => exact ctxDeadlineOp_of_not_due hc (by simp only [h, Bool.false_and])
theorem ctxDeadlineOp_of_settled {c : CmbCtx} (h : ctxFind s.dist g q = some c) (hc : c.done = true ∨ c.result.isSome = true ∨
    c.expired = true ∨ s.dist.base.tick < c.dlFrom + toutTicks s.dist 0x058 28) : ctxDeadlineOp g q s = s := by
  refine ctxDeadlineOp_of_not_due h ?_
  rcases hc with hc | hc | hc | hc
  · rw [hc, Bool.not_true, Bool.and_false, Bool.false_and, Bool.false_and, Bool.false_and]
  · rw [Option.isNone_eq_false_iff.mpr hc, Bool.and_false, Bool.false_and, Bool.false_and]
  · rw [hc, Bool.not_true, Bool.and_false, Bool.false_and]
  · rw [decide_eq_false (Nat.not_le.mpr hc), Bool.and_false]

theorem ackTimeoutOp_of_none (h : ctxHeld s.dist g q = none) : ackTimeoutOp g q p s = s := by
  rw [ackTimeoutOp, h]
theorem ackTimeoutOp_of_answered {c : CmbCtx} (h : ctxHeld s.dist g q = some c) (hc : c.good.contains p = true ∨
    ∀ x ∈ c.relayed, x.1 = p → s.dist.base.tick < x.2 + toutTicks s.dist 0x05C 18) : ackTimeoutOp g q p s = s := by
  rw [ackTimeoutOp, h]
  refine if_neg (Bool.eq_false_iff.mp ?_)
  rcases hc with hc | hc
  · rw [hc, Bool.not_true, Bool.and_false, Bool.false_and]
  · have hnone : (c.relayed.any fun x => x.1 == p && decide (x.2 + toutTicks s.dist 0x05C 18 ≤ s.dist.base.tick)) = false := by
      rw [List.any_eq_false]
      intro x hx
      rw [Bool.and_eq_true, beq_iff_eq, decide_eq_true_eq]
      rintro ⟨hp, hle⟩
      exact absurd (hc x hx hp) (Nat.not_lt.mpr hle)
    rw [hnone, Bool.false_and, Bool.false_and]

/-! ## Records of the mirror partner (R394 to R396) -/

/-- What taking a record does beyond receiving it: it is counted, and the next one is awaited. -/
def recordTaken (d : DistState) : DistState :=
  dB (inc 0x0B05C) { d with rope := { d.rope with rxSeq := d.rope.rxSeq + 1 } }

theorem rxRope_taken {k : RopeKey} {hdr : BitVec 64} {pl : List (BitVec 64)} (h : ropeNext rx k s) : rxRope rx k.rseq hdr pl s =
    (true, onDist recordTaken (rxSeq rx true ((0x13, hdr) :: pl.map fun b => (0x33, b)) s).2) := by
  obtain ⟨hp, hin, hst, hk⟩ := h
  have took := rxSeq_took hin (0x13, hdr) (pl.map fun b => (0x33, b))
  have hrope : (rxSeq rx true ((0x13, hdr) :: pl.map fun b => (0x33, b)) s).2.dist.rope = s.dist.rope :=
    (congrArg DistState.rope took.dist :)
  have hadm : admitted (getPort (rxSeq rx true ((0x13, hdr) :: pl.map fun b => (0x33, b)) s).2 rx.port) = true :=
    decide_eq_true ((took.links.st rx.port).trans hst)
  have hseq : (k.rseq == (rxSeq rx true ((0x13, hdr) :: pl.map fun b => (0x33, b)) s).2.dist.rope.rxSeq) = true := by
    rw [hrope, hk]
    exact beq_self_eq_true _
  rw [rxRope, hp]
  exact if_pos (by rw [rxSeq_ok hin, hadm, hseq]; rfl)

section
variable {k : RopeKey} {hdr : BitVec 64} {pl : List (BitVec 64)} (h : ropeNext rx k s)
include h

theorem rxRope_rope : (rxRope rx k.rseq hdr pl s).2.dist.rope.rxSeq = s.dist.rope.rxSeq + 1 := by
  have hrope : (rxSeq rx true ((0x13, hdr) :: pl.map fun b => (0x33, b)) s).2.dist.rope = s.dist.rope :=
    (congrArg DistState.rope (rxSeq_took h.2.1 (0x13, hdr) (pl.map fun b => (0x33, b))).dist :)
  rw [rxRope_taken h]
  exact congrArg (fun r : Rope => r.rxSeq + 1) hrope
theorem rxRope_cal : (rxRope rx k.rseq hdr pl s).2.dist.cal = s.dist.cal := by
  rw [rxRope_taken h]
  exact (congrArg DistState.cal (rxSeq_took h.2.1 (0x13, hdr) (pl.map fun b => (0x33, b))).dist :)
theorem rxRope_roles : isRoot (rxRope rx k.rseq hdr pl s).2.dist = isRoot s.dist ∧
    isLead (rxRope rx k.rseq hdr pl s).2.dist = isLead s.dist := by
  have hbase := distBase_took (rxSeq_took h.2.1 (0x13, hdr) (pl.map fun b => (0x33, b)))
  have htaken : (rxRope rx k.rseq hdr pl s).2.dist.base = inc 0x0B05C s.dist.base := by
    rw [rxRope_taken h, ← hbase]
    rfl
  rw [isLead, isLead, isRoot, isRoot, htaken]
  refine ⟨rfl, ?_⟩
  rw [rdB, rdF, rd_inc_other (by decide), rdB, rdF]

end

/-- A record is acted on where it is taken, and otherwise leaves what receiving it leaves. -/
theorem record_next {r : Bool × State} {f : State → State} (h : r.1 = true) :
    (.next (if r.1 then f r.2 else r.2) : Host.Outcome State Fault Refusal) = .next (f r.2) :=
  congrArg Host.Outcome.next (if_pos h)
theorem record_of_refused {r : Bool × State} {x : State} (h : r.1 = false) :
    (.next (if r.1 then x else r.2) : Host.Outcome State Fault Refusal) = .next r.2 :=
  congrArg Host.Outcome.next (if_neg (Bool.eq_false_iff.mp h))
theorem record_of_condition {r : Bool × State} {x : State} {c : Bool} (h : r.1 = false ∨ c = false) :
    (.next (if r.1 && c then x else r.2) : Host.Outcome State Fault Refusal) = .next r.2 := by
  refine congrArg Host.Outcome.next (if_neg (Bool.eq_false_iff.mp ?_))
  rcases h with h | h
  · rw [h, Bool.false_and]
  · rw [h, Bool.and_false]

/-- A RESULT record that is not taken: a group that is still arriving may be relayed. -/
theorem resultRecord_of_refused {k : RopeKey} {op : BitVec 6} {status : BitVec 2} {repro : Bool} {pl : List (BitVec 64)}
    (h : (rxRope rx k.rseq (ropeHdrOf 0x83 (pl.length + 1) k)
      (resultRecBody op.toNat (CmbCopy.mk status.toNat k.epochLo.toNat repro pl)) s).1 = false) :
    exec (.resultRecord rx k op status repro pl) s = .next (onDistRx rx (rx.part.isSome,
      (rxRope rx k.rseq (ropeHdrOf 0x83 (pl.length + 1) k)
        (resultRecBody op.toNat (CmbCopy.mk status.toNat k.epochLo.toNat repro pl)) s).2) fun n s =>
      if isRoot s.dist && isRope n then
        relayPart k.gallery.toNat k.gseq op.toNat pl.length
          ((downBodies k.gallery.toNat k.gseq op.toNat (CmbCopy.mk status.toNat k.epochLo.toNat repro pl)).take
            ((openedOf 0x13 (distPort s.dist n).arq.opened).length - 1)) s
      else s) := congrArg Host.Outcome.next (if_neg (Bool.eq_false_iff.mp h))

end

/-! ## The obligations -/

/-- Settles O55: what a frame asks is done on the machine after its reception where it is permitted and the distributor is not
muted, and a timer does nothing where nothing is due. -/
theorem combiningAtDistributors : Obligations.CombiningAtDistributors := by
  unfold Obligations.CombiningAtDistributors
  intro s
  refine ⟨?_, ?_, ?_, ?_, ?_, ?_, ?_, ?_, ?_, ?_, ?_, ?_, ?_, ?_, ?_, ?_⟩
  · intro n rx h
    have took : ∀ (f : BitVec 6 × BitVec 64) (fs : List (BitVec 6 × BitVec 64)), Took s (rxSeq rx true (f :: fs) s).2 :=
      rxSeq_took h.2.1
    have hup : ∀ k op repro pl, permUp rx.port = true → exec (.cmbUpRx rx k op repro pl) s =
        .next (cmbUpOp n k op.toNat repro pl (rxCmbUp rx k op.toNat repro pl s).2) := fun k op repro pl hp => by
      refine (onDistRx_permitted h hp).trans ?_
      rw [rxCmbUp, hp]
    have hdown : ∀ k (op : BitVec 8) repro (status : BitVec 4) pl, permDown rx.port = true →
        exec (.cmbDownRxDist rx k op repro status pl) s = .next ((fun s : State => if n.val = 128 && !muted s.dist then
          cmbDownOp k (op.toNat % 64) { status := status.toNat, epochLo := k.epochLo.toNat, repro := repro, payload := pl } s
          else s) (rxCmbDown rx k op.toNat repro status.toNat pl s).2) := fun k op repro status pl hp => by
      refine (cmbDownRx_ok ?_).trans ?_
      · rw [rxCmbDown, hp]
        exact rxSeq_ok h.2.1 _ _
      · rw [rxCmbDown, hp]
        exact congrArg Host.Outcome.next (onDistRx_took h _ _ _)
    have hmuted : ∀ {x : State}, Took s x → muted x.dist = muted s.dist := muted_took
    refine ⟨hup, ?_, ?_, ?_, ?_, ?_, ?_, ?_⟩
    · refine fun k op repro pl hp hm => (hup k op repro pl hp).trans (congrArg Host.Outcome.next (cmbUpOp_of_muted ?_))
      rw [rxCmbUp, hp]
      exact (hmuted (took _ _)).trans hm
    · intro k op repro status pl hn hm
      have hp := permDown_parent h hn
      refine (hdown k op repro status pl hp).trans (congrArg Host.Outcome.next (fromAbove_of_parent hn ?_))
      rw [rxCmbDown, hp]
      exact (hmuted (took _ _)).trans hm
    · intro k op repro status pl hp hx
      refine (hdown k op repro status pl hp).trans (congrArg Host.Outcome.next (fromAbove_of_other (hx.imp_right fun hm => ?_)))
      rw [rxCmbDown, hp]
      exact (hmuted (took _ _)).trans hm
    · refine fun k good hp hm => (onDistRx_permitted h hp).trans (congrArg Host.Outcome.next (if_neg (Bool.eq_false_iff.mp ?_)))
      exact (hmuted (took _ _)).trans hm
    · refine fun k good hp hm => (onDistRx_permitted h hp).trans (congrArg Host.Outcome.next (if_pos ?_))
      exact (hmuted (took _ _)).trans hm
    · intro k hn hm
      have hp := permDown_parent h hn
      rw [rxCommit, hp]
      exact (onDistRx_permitted h hp).trans (congrArg Host.Outcome.next
        (fromAbove_of_parent hn ((hmuted (took _ _)).trans hm)))
    · intro k hp hx
      rw [rxCommit, hp]
      exact (onDistRx_permitted h hp).trans (congrArg Host.Outcome.next
        (fromAbove_of_other (hx.imp_right fun hm => (hmuted (took _ _)).trans hm)))
  · exact fun rx k op repro pl h => congrArg Host.Outcome.next (onDistRx_of_refused h)
  · rintro rx k op repro status pl r rfl h
    refine ⟨fun hpart => ?_, fun hpart hport hadm hm => ?_⟩
    · refine (cmbDownRx_part h).trans (congrArg Host.Outcome.next (onDistRx_of_refused ?_))
      rw [hpart]
      rfl
    · refine (cmbDownRx_part h).trans (congrArg Host.Outcome.next ?_)
      rw [hpart, onDistRx_of_admitted hport hadm]
      exact fromAbove_of_parent rfl hm
  · rintro rx k good r rfl h
    exact congrArg Host.Outcome.next (onDistRx_of_refused h)
  · exact fun rx k h => congrArg Host.Outcome.next (onDistRx_of_refused h)
  · exact fun hd => next_of_distRuns hd rfl
  · exact fun h => congrArg Host.Outcome.next (ifDistRuns_of_self (accGrant_of_none h))
  · exact fun p hd => next_of_distRuns hd rfl
  · exact fun p hd h => next_of_distRuns hd (substTimeoutOp_of_none h)
  · exact fun g q hd => next_of_distRuns hd rfl
  · exact fun g q h => congrArg Host.Outcome.next (ifDistRuns_of_self
      (h.elim ctxDeadlineOp_of_not_root ctxDeadlineOp_of_none))
  · exact fun g q c hc h => congrArg Host.Outcome.next (ifDistRuns_of_self (ctxDeadlineOp_of_settled hc h))
  · exact fun g q p hd => next_of_distRuns hd rfl
  · exact fun g q p h => congrArg Host.Outcome.next (ifDistRuns_of_self (ackTimeoutOp_of_none h))
  · exact fun g q p c hc h => congrArg Host.Outcome.next (ifDistRuns_of_self (ackTimeoutOp_of_answered hc h))
  · exact fun hd => ⟨congrArg Host.Outcome.next (ifDistRuns_of_not_run hd),
      fun p => congrArg Host.Outcome.next (ifDistRuns_of_not_run hd),
      fun g q p => ⟨congrArg Host.Outcome.next (ifDistRuns_of_not_run hd), congrArg Host.Outcome.next (ifDistRuns_of_not_run hd)⟩⟩

/-- Settles O56: a record that is next is taken and acted on, and one that is not taken leaves what receiving it leaves. -/
theorem ropeRecordsAct : Obligations.RopeRecordsAct := by
  unfold Obligations.RopeRecordsAct
  intro s rx k
  refine ⟨fun h => ?_, ?_, ?_, ?_, ?_, ?_, ?_, ?_, ?_, ?_, ?_⟩
  · have hok : ∀ hdr pl, (rxRope rx k.rseq hdr pl s).1 = true := rxRope_next h
    refine ⟨fun hdr pl => rxRope_rope h, ?_, ?_, ?_, ?_, ?_, ?_, ?_, ?_, ?_, ?_, ?_, ?_⟩
    · exact fun port op repro absent dlen all => record_next (hok _ _)
    · exact fun pl => record_next (hok _ _)
    · exact fun port on => record_next (hok _ _)
    · rintro op status repro pl c rfl
      exact congrArg Host.Outcome.next (if_pos (hok _ _))
    · exact fun epoch valid => record_next (hok _ _)
    · exact fun target mask tol uid => record_next (hok _ _)
    · exact fun go reason => record_next (hok _ _)
    · exact fun port uid refused => record_next (hok _ _)
    · intro target mask tol uid hr hl
      refine congrArg Host.Outcome.next (if_pos ?_)
      rw [hok, (rxRope_roles h).1, (rxRope_roles h).2, hr, hl]
      rfl
    · intro target mask tol uid hx
      refine congrArg Host.Outcome.next (if_neg (Bool.eq_false_iff.mp ?_))
      rw [(rxRope_roles h).1, (rxRope_roles h).2]
      rcases hx with hx | hx
      · rw [hx, Bool.and_false, Bool.false_and]
      · rw [hx, Bool.and_false]
    · intro rhoUp defUp sigma defValid rhoValid upPort hc
      refine ⟨_, congrArg Host.Outcome.next (if_pos ?_), rfl, rfl⟩
      rw [hok, calFollows, rxRope_cal h]
      exact hc
    · intro rhoUp defUp sigma defValid rhoValid upPort hc
      refine ⟨_, record_of_condition (.inr ?_), rxRope_cal h⟩
      rw [calFollows, rxRope_cal h]
      exact hc
  · rintro port op repro absent dlen all r rfl h
    exact record_of_refused h
  · rintro pl r rfl h
    exact record_of_refused h
  · rintro port on r rfl h
    exact record_of_refused h
  · rintro op status repro pl c r rfl rfl h
    refine ⟨fun hpart => ?_, fun n hpart hport hrope hroot hadm => ?_⟩
    · refine (resultRecord_of_refused h).trans (congrArg Host.Outcome.next (onDistRx_of_refused ?_))
      rw [hpart]
      rfl
    · refine (resultRecord_of_refused h).trans (congrArg Host.Outcome.next ?_)
      rw [hpart, onDistRx_of_admitted hport hadm]
      exact if_pos (by rw [hroot, hrope]; rfl)
  · rintro epoch valid r rfl h
    exact record_of_refused h
  · rintro target mask tol uid r rfl h
    exact record_of_refused h
  · rintro go reason r rfl h
    exact record_of_refused h
  · rintro port uid refused r rfl h
    exact record_of_refused h
  · rintro target mask tol uid r rfl h
    refine congrArg Host.Outcome.next (if_neg (Bool.eq_false_iff.mp ?_))
    rw [h, Bool.false_and, Bool.false_and]
  · rintro rhoUp defUp sigma defValid rhoValid upPort r rfl h
    exact record_of_condition (.inl h)

end Sys2Proof.Proofs
end


section
/-! PROOFS. The root's references, its epoch and the timed outputs (O57). -/

namespace Sys2Proof.Proofs
open Sys2Proof Sys2Proof.Machine

section
variable {s t : State} {f : State → State} {n : Nat}

/-! ## Commands of the root -/

theorem next_of_rootRuns (h : rootRuns s) (ht : f s = t) :
    (.next (ifRoot f s) : Host.Outcome State Fault Refusal) = .next t :=
  congrArg Host.Outcome.next ((ifRoot_of_run h).trans ht)
theorem next_of_root_self (ht : f s = s) : (.next (ifRoot f s) : Host.Outcome State Fault Refusal) = .next s :=
  congrArg Host.Outcome.next (ifRoot_of_self ht)
theorem next_of_not_root (h : isRoot s.dist = false ∨ ¬ distRuns s) :
    (.next (ifRoot f s) : Host.Outcome State Fault Refusal) = .next s := by
  refine congrArg Host.Outcome.next ?_
  rw [ifRoot]
  rcases h with h | h
  · exact if_neg (Bool.eq_false_iff.mp h)
  · rw [ifDistRuns_of_not_run h, ite_self]
theorem next_of_distRuns_self (ht : f s = s) : (.next (ifDistRuns f s) : Host.Outcome State Fault Refusal) = .next s :=
  congrArg Host.Outcome.next (ifDistRuns_of_self ht)

/-! ## The oscillator (R117) -/

theorem ageValid_of_absent {d : DistState} (h : rdB d.base 0x7054 1 = false) : ageValid d = false := by
  simp only [ageValid, h, Bool.false_and]

/-- With the oscillator absent the aged model is not valid, and the oscillator's other bits stand. -/
theorem noteAge_of_absent (h : rdB s.dist.base 0x7054 1 = false) : rdB (noteAge s).dist.base 0x7054 0 = false ∧
    ∀ i, i ≠ 0 → i < 32 → rdB (noteAge s).dist.base 0x7054 i = rdB s.dist.base 0x7054 i := by
  have hv : (noteAge s) = if rdB s.dist.base 0x7054 0 = false then s
      else onDist (dB fun b => pgEvt 0x07 2 (wrB 0x7054 0 false b)) s := by
    simp only [noteAge, ageValid_of_absent h, Bool.false_eq_true, if_false]
  rw [hv]
  split
  next h0 => exact ⟨h0, fun _ _ _ => rfl⟩
  next h0 =>
    have hb : ∀ i, rdB (pgEvt 0x07 2 (wrB 0x7054 0 false s.dist.base)) 0x7054 i = rdB (wrB 0x7054 0 false s.dist.base) 0x7054 i :=
      fun i => rdB_wrB_other (by decide)
    refine ⟨(hb 0).trans (rdB_wrB_same (by decide)), fun i hi h32 => (hb i).trans (rdB_wrB_bit (Ne.symm hi) h32)⟩

/-- The machine after an oscillator failure, before the aged model is looked at. -/
def xoFailed (s : State) : State := logD dXoFail noPort 0 0 0 (onDist (dB fun b => wrB 0x7054 2 true (wrB 0x7054 1 false b)) s)

theorem xoFailed_bits : rdB (xoFailed s).dist.base 0x7054 1 = false ∧ rdB (xoFailed s).dist.base 0x7054 2 = true := by
  have hlog : ∀ i, rdB (xoFailed s).dist.base 0x7054 i = rdB (wrB 0x7054 2 true (wrB 0x7054 1 false s.dist.base)) 0x7054 i :=
    fun i => rdB_logD (h := dXoFail) (by decide) (by decide)
  refine ⟨(hlog 1).trans ?_, (hlog 2).trans (rdB_wrB_same (by decide))⟩
  rw [rdB_wrB_bit (by decide) (by decide), rdB_wrB_same (by decide)]

/-! ## Second marks (R115) -/

section
variable {falling : Bool} {frac : Nat}

theorem refMarkOp_of_none (h : refMode s.dist n = 0 ∨ s.dist.base.valid = false ∨ rdB s.dist.base (refReg n 0x040) 2 ≠ falling) :
    refMarkOp n falling frac s = s := by
  refine if_pos ?_
  rcases h with h | h | h
  · exact .inl h
  · exact .inr (.inl (by rw [h]; rfl))
  · exact .inr (.inr h)
theorem refMarkOp_of_mark (hm : refMode s.dist n ≠ 0) (hv : s.dist.base.valid = true)
    (he : rdB s.dist.base (refReg n 0x040) 2 = falling) : refMarkOp n falling frac s =
      if (epochOnMark s.dist && selected s.dist == n) = true then
        onRoot (fun r => { r with err := 0 }) (setBuildout (-(frac : Int)) (epochTake (refMark n (markPhase s.dist frac) s)))
      else refMark n (markPhase s.dist frac) s := by
  refine if_neg ?_
  rw [hv]
  rintro (h | h | h)
  · exact hm h
  · exact Bool.false_ne_true h
  · exact h he

end

/-! ## The pulses (R149) -/

theorem frmoutEnd_of_due {k : Nat} {d : DistState} (hk : d.root.frmEnd = some k) (hd : k ≤ d.base.tick) :
    frmoutEnd d = dB (emit (.pin .frmout 0)) { d with root := { d.root with frmEnd := none } } := by
  rw [frmoutEnd, hk]
  exact if_pos hd

/-! ## The epoch (R25, R603) -/

/-- Registers of the clock page, and whether the counter is valid, stand. -/
structure ClockStands (b b' : Base) : Prop where
  regs : ∀ a, a / 0x1000 = 1 → rd b' a = rd b a
  valid : b'.valid = b.valid

theorem ClockStands.trans {b b' b'' : Base} (h : ClockStands b b') (h' : ClockStands b' b'') : ClockStands b b'' :=
  ⟨fun a ha => (h'.regs a ha).trans (h.regs a ha), h'.valid.trans h.valid⟩

theorem rebaseSrc_clock {psi : Int} (hn : n ≤ 4) : ClockStands s.dist.base (rebaseSrc psi n s).dist.base := by
  unfold rebaseSrc
  split
  · exact ⟨fun _ _ => rfl, rfl⟩
  · refine ⟨fun a ha => ?_, rfl⟩
    have hne : ∀ o, o < 0xFFF → a ≠ refReg n o ∧ a ≠ refReg n o + 4 := fun o ho => by
      simp only [refReg, pageAddr, refPage]
      split <;> omega
    obtain ⟨h0, h4⟩ := hne (if n < 4 then 0x054 else 0x06C) (by split <;> decide)
    rw [onDist_dist, dB_base, wr64, rd_wr_other h4, rd_wr_other h0]
    rfl

theorem windowMove_clock {load : BitVec 64} {b : Base} : ClockStands b (windowMove load b) := by
  unfold windowMove
  split
  · split
    · refine ⟨fun a ha => ?_, rfl⟩
      rw [rd_pgEvt_other (by simp only [pageAddr]; omega), wr64, rd_wr_other (by omega), rd_wr_other (by omega)]
      rfl
    · exact ⟨fun _ _ => rfl, rfl⟩
  · exact ⟨fun _ _ => rfl, rfl⟩

/-- The sources' phases against the second marks of the new epoch. -/
def rebaseAll (psi : Int) (s : State) : State := [0, 1, 2, 3, 4].foldl (fun s n => rebaseSrc psi n s) s

theorem rebaseFold_clock {psi : Int} : ∀ (l : List Nat) (s : State), (∀ n ∈ l, n ≤ 4) →
    ClockStands s.dist.base (l.foldl (fun s n => rebaseSrc psi n s) s).dist.base
  | [], _, _ => ⟨fun _ _ => rfl, rfl⟩
  | n :: l, s, hl => by
    have hn : ClockStands s.dist.base (rebaseSrc psi n s).dist.base := rebaseSrc_clock (hl n List.mem_cons_self)
    rw [List.foldl_cons]
    exact hn.trans (rebaseFold_clock l (rebaseSrc psi n s) fun m hm => hl m (List.mem_cons_of_mem n hm))
theorem rebaseAll_clock {psi : Int} : ClockStands s.dist.base (rebaseAll psi s).dist.base := by
  have hl : ∀ n ∈ [0, 1, 2, 3, 4], n ≤ 4 := by decide
  rw [rebaseAll]
  exact rebaseFold_clock [0, 1, 2, 3, 4] s hl

/-- The clock page once an epoch of generation `gen` is loaded. -/
def epochRegs (load : BitVec 64) (gen : Nat) (b : Base) : Base :=
  pgEvt 0x01 1 (wrB 0x1050 2 false (wrB 0x1050 1 true (wrF 0x104C 0 16 gen (wr64 0x105C load b))))

section
variable {load : BitVec 64} {gen : Nat} {b : Base}

theorem epochRegs_gen (hg : gen < 2 ^ 16) : rdF (epochRegs load gen b) 0x104C 0 16 = gen := by
  rw [epochRegs, rdF, rd_pgEvt_other (by decide), rd_wrB_other (by decide), rd_wrB_other (by decide), ← rdF,
    rdF_wrF_same (by decide), Nat.mod_eq_of_lt hg]
theorem epochRegs_pending : rdB (epochRegs load gen b) 0x1050 2 = false := by
  rw [epochRegs, pgEvt, rdB_wrB_other (by decide), rdB_wrB_same (by decide)]
theorem epochRegs_ref : rd64 (epochRegs load gen b) 0x105C = load := by
  rw [epochRegs, pgEvt, rd64_wrB_other (by decide) (by decide), rd64_wrB_other (by decide) (by decide),
    rd64_wrB_other (by decide) (by decide), rd64, rd_wrF_other (by decide), rd_wrF_other (by decide), ← rd64, rd64_wr64]

end

/-- An HT second mark touches the clock page's events and its own pulse only. -/
theorem ppsPulse_frame : (∀ a, a ≠ 0x1010 → rd (ppsPulse s).dist.base a = rd s.dist.base a) ∧
    (ppsPulse s).dist.base.ns = s.dist.base.ns ∧ (ppsPulse s).dist.base.valid = s.dist.base.valid ∧
    (ppsPulse s).dist.root.armAt = s.dist.root.armAt := by
  have hrd : ∀ a, a ≠ 0x1010 → rd (pgEvt 0x01 2 s.dist.base) a = rd s.dist.base a := fun a ha => rd_pgEvt_other ha
  unfold ppsPulse
  extract_lets b s'
  split <;> exact ⟨hrd, rfl, rfl, rfl⟩

/-- What an epoch leaves that took effect on the machine `s`: its value in NS and as the reference, its generation, no ARM. -/
structure EpochTaken (s t : State) : Prop where
  ns : t.dist.base.ns = rd64 s.dist.base 0x1054
  gen : rdF t.dist.base 0x104C 0 16 = rdF s.dist.base 0x1050 16 16
  pending : rdB t.dist.base 0x1050 2 = false
  ref : rd64 t.dist.base 0x105C = rd64 s.dist.base 0x1054
  armAt : t.dist.root.armAt = none
  valid : t.dist.base.valid = s.dist.base.valid

/-- The machine on which an epoch's second mark is given, from the one on which the sources' phases have moved. -/
def epochLoaded (psi : Int) (s : State) : State :=
  onRoot (fun r => { r with armAt := none, secAt := some s.dist.base.tick })
    (onDist (dB fun b => epochRegs (rd64 s.dist.base 0x1054) (rdF s.dist.base 0x1050 16 16) b)
      (onDist (dB fun b => { windowMove (rd64 s.dist.base 0x1054) b with ns := rd64 s.dist.base 0x1054, slip := true })
        (onRoot (fun r => { r with meas := r.meas.map (rephase psi), acc := 0, accAt := s.dist.base.tick, steady := false }) s)))

theorem epochTake_eq : epochTake s = ppsPulse (epochLoaded (markPhase s.dist 0) (rebaseAll (markPhase s.dist 0) s)) := by
  unfold epochTake
  generalize markPhase s.dist 0 = psi
  extract_lets psi' s₀ s₁ b load gen s₂ s₃
  have h0 : rebaseAll psi s = s₀ := rfl
  rw [h0]
  clear_value s₀
  rfl

theorem epochLoaded_taken {psi : Int} : EpochTaken s (epochLoaded psi s) := by
  have hbase : (epochLoaded psi s).dist.base = epochRegs (rd64 s.dist.base 0x1054) (rdF s.dist.base 0x1050 16 16)
      { windowMove (rd64 s.dist.base 0x1054) s.dist.base with ns := rd64 s.dist.base 0x1054, slip := true } := by
    simp only [epochLoaded, onRoot, onDist_dist, dB_base]
  refine ⟨?_, ?_, ?_, ?_, rfl, ?_⟩
  · simp only [hbase, epochRegs, pgEvt_ns, wrB_ns, wrF_ns, wr64_ns]
  · rw [hbase, epochRegs_gen rdF_lt]
  · rw [hbase, epochRegs_pending]
  · rw [hbase, epochRegs_ref]
  · simp only [hbase, epochRegs, pgEvt_valid, wrB_valid, wrF_valid, wr64_valid, windowMove_clock.valid]

theorem EpochTaken.of_clock {r t : State} (hc : ClockStands s.dist.base r.dist.base) (h : EpochTaken r t) : EpochTaken s t := by
  obtain ⟨hr, hv⟩ := hc
  refine ⟨h.ns.trans ?_, h.gen.trans ?_, h.pending, h.ref.trans ?_, h.armAt, h.valid.trans hv⟩
  · rw [rd64, hr _ (by decide), hr _ (by decide), rd64]
  · rw [rdF, hr _ (by decide), rdF]
  · rw [rd64, hr _ (by decide), hr _ (by decide), rd64]
theorem EpochTaken.ppsPulse {t : State} (h : EpochTaken s t) : EpochTaken s (ppsPulse t) := by
  obtain ⟨hr, hns, hv, ha⟩ := ppsPulse_frame (s := t)
  refine ⟨hns.trans h.ns, ?_, ?_, ?_, ha.trans h.armAt, hv.trans h.valid⟩
  · rw [rdF, hr _ (by decide), ← rdF, h.gen]
  · rw [rdB, rdF, hr _ (by decide), ← rdF, ← rdB, h.pending]
  · rw [rd64, hr _ (by decide), hr _ (by decide), ← rd64, h.ref]
theorem EpochTaken.setBuildout {t : State} {b : Int} (h : EpochTaken s t) : EpochTaken s (setBuildout b t) := by
  have hr : ∀ a, a / 0x1000 = 1 → rd (Machine.setBuildout b t).dist.base a = rd t.dist.base a := fun a ha => by
    rw [Machine.setBuildout, onDist_dist, dB_base, wr64, rd_wr_other (by omega), rd_wr_other (by omega)]
  refine ⟨h.ns, ?_, ?_, ?_, h.armAt, h.valid⟩
  · rw [rdF, hr _ (by decide), ← rdF, h.gen]
  · rw [rdB, rdF, hr _ (by decide), ← rdF, ← rdB, h.pending]
  · rw [rd64, hr _ (by decide), hr _ (by decide), ← rd64, h.ref]

theorem epochTake_taken : EpochTaken s (epochTake s) := by
  rw [epochTake_eq]
  exact (epochLoaded_taken.of_clock rebaseAll_clock).ppsPulse

/-- What EPOCH_APPLY does at a root that runs (R25). -/
def epochApplyOp (frac : Nat) (s : State) : State :=
  if rdB s.dist.base 0x1050 2 = true then
    if s.dist.root.armAt.isSome = true then
      if s.dist.root.armAt.getD 0 + 1000 ≤ s.dist.base.tick then epochTake s else s
    else if selected s.dist = 7 then s else Machine.setBuildout (-(frac : Int)) (epochTake s)
  else s

theorem execEpochApply_eq {frac : BitVec 6} : exec (.epochApply frac) s = .next (ifRoot (epochApplyOp frac.toNat) s) := by
  change execEpochApply frac s = _
  unfold execEpochApply
  congr 2
  funext x
  unfold epochApplyOp
  dsimp only
  rcases x.dist.root.armAt with _ | k
  · simp only [Option.isSome_none, Bool.false_eq_true, if_false]
  · simp only [Option.isSome_some, if_true, Option.getD_some]

theorem epochApplyOp_taken {frac : Nat} (hp : rdB s.dist.base 0x1050 2 = true)
    (h : (∃ k, s.dist.root.armAt = some k ∧ k + 1000 ≤ s.dist.base.tick) ∨ (s.dist.root.armAt = none ∧ selected s.dist ≠ 7)) :
    EpochTaken s (epochApplyOp frac s) := by
  rw [epochApplyOp, if_pos hp]
  rcases h with ⟨k, hk, hd⟩ | ⟨hn, hs⟩
  · rw [hk, Option.isSome_some, if_pos rfl, Option.getD_some, if_pos hd]
    exact epochTake_taken
  · rw [hn, Option.isSome_none, if_neg Bool.false_ne_true, if_neg hs]
    exact epochTake_taken.setBuildout
theorem epochApplyOp_of_not {frac : Nat} (h : rdB s.dist.base 0x1050 2 = false ∨
    (∃ k, s.dist.root.armAt = some k ∧ s.dist.base.tick < k + 1000) ∨ (s.dist.root.armAt = none ∧ selected s.dist = 7)) :
    epochApplyOp frac s = s := by
  rw [epochApplyOp]
  rcases h with h | ⟨k, hk, hd⟩ | ⟨hn, hs⟩
  · exact if_neg (by rw [h]; exact Bool.false_ne_true)
  · rw [hk, Option.isSome_some, if_pos rfl, Option.getD_some, if_neg (Nat.not_le.mpr hd), ite_self]
  · rw [hn, Option.isSome_none, if_neg Bool.false_ne_true, if_pos hs, ite_self]

/-! ## Qualification, the switch and the second mark -/

theorem not_served {a b c d : Prop} [Decidable (a ∧ b ∧ c ∧ d)] {x : State} (h : ¬ a ∨ ¬ b ∨ ¬ c ∨ ¬ d) :
    (if a ∧ b ∧ c ∧ d then x else s) = s := by
  refine if_neg ?_
  rintro ⟨ha, hb, hc, hd⟩
  rcases h with h | h | h | h
  · exact h ha
  · exact h hb
  · exact h hc
  · exact h hd

theorem commitOp_of_not (h : switching s.dist = false ∨ s.dist.root.meas.length < switchMarks (refMode s.dist (target s.dist))) :
    commitOp s = s := by
  unfold commitOp
  extract_lets d n b w s₁ s₂ s₃
  refine if_neg ?_
  rw [Bool.and_eq_true, decide_eq_true_iff]
  rintro ⟨hs, hm⟩
  rcases h with h | h
  · rw [h] at hs
    exact Bool.false_ne_true hs
  · exact absurd hm (Nat.not_le.mpr h)

theorem secondOp_of_not {c0 c1 c2 c3 : Nat} (h : secondMark s.dist = false ∨ s.dist.root.secAt = some s.dist.base.tick) :
    secondOp c0 c1 c2 c3 s = s := by
  refine if_neg ?_
  rintro ⟨hm, hat⟩
  rcases h with h | h
  · rw [h] at hm
    exact Bool.false_ne_true hm
  · exact hat h

theorem ifDistCounts_of_live (hl : live s.dist.base = true) (hp : s.dist.base.phase ≠ .stopped) :
    ifDistCounts f s = f s := by
  rw [ifDistCounts, if_neg hp, ifDist_of_live hl]
theorem ifDistCounts_of_not (h : f s = s ∨ live s.dist.base = false ∨ s.dist.base.phase = .stopped) :
    ifDistCounts f s = s := by
  rw [ifDistCounts]
  rcases h with h | h | h
  · rw [ifDist_of_self h, ite_self]
  · rw [ifDist_of_not_live h, ite_self]
  · exact if_pos h

theorem realignOp_of_locked (hl : selState s.dist = 2) (hs : switching s.dist = false) :
    realignOp s = onDist (dB (wrB 0x2048 9 true)) s := by
  refine if_neg ?_
  rintro (h | h)
  · exact h hl
  · rw [hs] at h
    exact Bool.false_ne_true h
theorem realigning_wrB : realigning (onDist (dB (wrB 0x2048 9 true)) s).dist = true := by
  rw [realigning, onDist_dist, dB_base]
  exact rdB_wrB_same (by decide)

/-! ## The pulses and the calibration period -/

/-- What PPSOUT_PULSE_END does on the machine `s` once the pulse is over. -/
def ppsoutLow (s : State) : State := onRoot (fun r => { r with ppsEnd := none }) (onDist (dB (emit (.pin .ppsout 0))) s)

theorem ppsoutPulseEnd_of_due {k : Nat} (hr : distRuns s) (hk : s.dist.root.ppsEnd = some k) (hd : k ≤ s.dist.base.tick) :
    exec .ppsoutPulseEnd s = .next (ppsoutLow s) := by
  refine next_of_distRuns hr ?_
  rw [hk]
  exact if_pos hd
theorem ppsoutPulseEnd_of_not (h : ∀ k, s.dist.root.ppsEnd = some k → s.dist.base.tick < k) :
    exec .ppsoutPulseEnd s = .next s := by
  refine next_of_distRuns_self ?_
  split
  next k hk => exact if_neg (Nat.not_le.mpr (h k hk))
  next => rfl

theorem refPulseTimeout_of_not {n : BitVec 2} (h : refMode s.dist n.toNat = 0 ∨ (srcOf s n.toNat).last = none ∨
    (∃ k, (srcOf s n.toNat).last = some k ∧ s.dist.base.tick ≤ k + 1000010000)) : exec (.refPulseTimeout n) s = .next s := by
  refine next_of_root_self ?_
  dsimp only
  split
  next k hk =>
    refine if_neg ?_
    rintro ⟨hm, hd⟩
    rcases h with h | h | ⟨j, hj, hd'⟩
    · exact hm h
    · rw [h] at hk
      exact nomatch hk
    · rw [hj] at hk
      rw [Option.some.inj hk] at hd'
      exact absurd hd (Nat.not_lt.mpr hd')
  next => rfl

theorem calPeriod_of_due (hr : distRuns s) (hd : s.dist.cal.lastAt + rdF s.dist.base 0x12040 0 12 ≤ s.dist.root.secs) :
    exec .calPeriod s = .next (calNote (if isRoot s.dist = true
      then [130, 131].foldl (fun s n => calUnsolved n s) (onCal (fun c => { c with lastAt := s.dist.root.secs }) s)
      else calSolve (calSend (onCal (fun c => { c with lastAt := s.dist.root.secs }) s)))) :=
  next_of_distRuns hr (if_pos hd)

end

/-- Settles O57: each command's gate and its own condition decide whether it acts; an epoch's registers are read back through the
writes that follow it. -/
theorem referencesRun : Obligations.ReferencesRun := by
  intro s
  refine ⟨fun h n frac src falling => ⟨next_of_not_root h, next_of_not_root h, next_of_not_root h, next_of_not_root h,
      next_of_not_root h, next_of_not_root h, next_of_not_root h, next_of_not_root h, next_of_not_root h⟩,
    fun h => ⟨congrArg Host.Outcome.next (ifDistRuns_of_not_run h), congrArg Host.Outcome.next (ifDistRuns_of_not_run h),
      congrArg Host.Outcome.next (ifDistRuns_of_not_run h)⟩,
    fun hr hp => ?_, fun h => next_of_root_self (if_neg (Bool.eq_false_iff.mp h)), fun n hr hm => next_of_rootRuns hr (if_pos hm),
    fun n hm => next_of_root_self (if_neg hm), fun n k hr hm hk hd => ?_, fun n h => refPulseTimeout_of_not h,
    fun n falling frac hr hm hv he => ⟨fun h => ?_, fun ho hs => ?_⟩,
    fun n falling frac h => next_of_root_self (refMarkOp_of_none h),
    fun src hr hn hm hq ht => ?_, fun src h => ?_, fun src hr hn hm hq ht => next_of_rootRuns hr (if_pos ⟨hn, hm, hq, ht⟩),
    fun src h => ?_, fun h => next_of_root_self (commitOp_of_not h), fun hr _ _ => next_of_rootRuns hr rfl, fun hr hl hs => ?_,
    fun hr h => next_of_rootRuns hr (if_pos h),
    fun c0 c1 c2 c3 hl hp => congrArg Host.Outcome.next (ifDistCounts_of_live hl hp),
    fun c0 c1 c2 c3 h => congrArg Host.Outcome.next (ifDistCounts_of_not ?_),
    fun hr hv he hn => next_of_distRuns hr (if_pos ⟨hv, he, hn⟩), fun h => next_of_distRuns_self (if_neg ?_),
    fun k hk hd => ?_, fun k hr hk hd => ⟨_, ppsoutPulseEnd_of_due hr hk hd, rfl, rfl⟩, fun h => ppsoutPulseEnd_of_not h,
    fun frac hr hp h => ?_, fun frac h => execEpochApply_eq.trans (next_of_root_self (epochApplyOp_of_not h)),
    fun hr ht hd => ?_, fun hr ht hd => ?_, fun hd => next_of_distRuns_self (if_neg (Nat.not_le.mpr hd))⟩
  case refine_1 =>
    refine ⟨_, next_of_rootRuns hr (if_pos hp), ?_⟩
    have hb := xoFailed_bits (s := s)
    obtain ⟨h0, hbits⟩ := noteAge_of_absent (s := xoFailed s) hb.1
    exact ⟨(hbits 1 (by decide) (by decide)).trans hb.1, (hbits 2 (by decide) (by decide)).trans hb.2, h0⟩
  case refine_2 =>
    refine next_of_rootRuns hr ?_
    dsimp only
    rw [hk]
    exact if_pos ⟨hm, hd⟩
  case refine_3 =>
    refine next_of_rootRuns hr ((refMarkOp_of_mark hm hv he).trans (if_neg ?_))
    rw [Bool.and_eq_true, beq_iff_eq]
    rintro ⟨ho, hs⟩
    rcases h with h | h
    · rw [h] at ho
      exact Bool.false_ne_true ho
    · exact h hs
  case refine_4 =>
    refine next_of_rootRuns hr ((refMarkOp_of_mark hm hv he).trans (if_pos ?_))
    rw [Bool.and_eq_true, beq_iff_eq]
    exact ⟨ho, hs⟩
  case refine_5 => exact next_of_rootRuns hr (if_pos ⟨hn, hm, by rw [hq]; rfl, ht⟩)
  case refine_6 =>
    refine next_of_root_self (not_served ?_)
    rcases h with h | h | h | h
    · exact .inl (Nat.not_le.mpr h)
    · exact .inr (.inl (Bool.eq_false_iff.mp h))
    · exact .inr (.inr (.inl (by rw [h]; exact Bool.false_ne_true)))
    · exact .inr (.inr (.inr (Nat.not_le.mpr h)))
  case refine_7 =>
    refine next_of_root_self (not_served ?_)
    rcases h with h | h | h | h
    · exact .inl (Nat.not_le.mpr h)
    · exact .inr (.inl (Bool.eq_false_iff.mp h))
    · exact .inr (.inr (.inl (Bool.eq_false_iff.mp h)))
    · exact .inr (.inr (.inr (Nat.not_le.mpr h)))
  case refine_8 => exact ⟨_, next_of_rootRuns hr (realignOp_of_locked hl hs), realigning_wrB, rfl⟩
  case refine_9 =>
    rcases h with h | h | h | h
    · exact .inl (secondOp_of_not (.inl h))
    · exact .inl (secondOp_of_not (.inr h))
    · exact .inr (.inl h)
    · exact .inr (.inr h)
  case refine_10 =>
    rintro ⟨hv, he, hn⟩
    rcases h with h | h | h
    · exact Bool.eq_false_iff.mp h hv
    · exact Bool.eq_false_iff.mp h he
    · exact h hn
  case refine_11 =>
    rw [frmoutEnd_of_due hk hd]
    exact ⟨rfl, rfl⟩
  case refine_12 =>
    obtain ⟨hns, hgen, hpend, href, hat, hv⟩ := epochApplyOp_taken (frac := frac.toNat) hp h
    exact ⟨_, execEpochApply_eq.trans (next_of_rootRuns hr rfl), hns, hgen, hpend, href, hat, hv⟩
  case refine_13 =>
    rw [calPeriod_of_due hr hd, if_pos ht]
  case refine_14 =>
    rw [calPeriod_of_due hr hd, if_neg (Bool.eq_false_iff.mp ht)]

end Sys2Proof.Proofs
end


section
/-! PROOFS. The root's PTP slave (O58). -/

namespace Sys2Proof.Proofs
open Sys2Proof Sys2Proof.Machine

section
variable {s t : State} {f : State → State} {h : PtpHdr}

/-! ## Commands of the enabled slave -/

theorem next_of_ptp (hr : rootRuns s) (he : ptpEn s.dist = true) (ht : f s = t) :
    (.next (ifPtp f s) : Host.Outcome State Fault Refusal) = .next t :=
  next_of_rootRuns hr ((if_pos he).trans ht)
theorem next_of_no_ptp (h : ptpEn s.dist = false ∨ isRoot s.dist = false ∨ ¬ distRuns s) :
    (.next (ifPtp f s) : Host.Outcome State Fault Refusal) = .next s := by
  rcases h with h | h
  · exact next_of_root_self (if_neg (Bool.eq_false_iff.mp h))
  · exact next_of_not_root h

/-! ## Which messages the slave takes (R118, R119) -/

theorem ptpTakes_of (hd : h.domain.toNat = ptpDomain s.dist) (hl : h.l2 = rdB s.dist.base 0x8048 12)
    (hv : h.vlan = (if rdB s.dist.base 0x8048 15 then some (BitVec.ofNat 12 (rdF s.dist.base 0x8048 16 12)) else none)) :
    ptpTakes s.dist h = true := by
  rw [ptpTakes, Bool.and_eq_true, Bool.and_eq_true, beq_iff_eq, beq_iff_eq, beq_iff_eq]
  exact ⟨⟨hd, hl⟩, hv⟩
theorem ptpTakes_of_not (hn : h.domain.toNat ≠ ptpDomain s.dist ∨ h.l2 ≠ rdB s.dist.base 0x8048 12 ∨
    h.vlan ≠ (if rdB s.dist.base 0x8048 15 then some (BitVec.ofNat 12 (rdF s.dist.base 0x8048 16 12)) else none)) :
    ptpTakes s.dist h = false := by
  rw [Bool.eq_false_iff, ptpTakes, Ne, Bool.and_eq_true, Bool.and_eq_true, beq_iff_eq, beq_iff_eq, beq_iff_eq]
  rintro ⟨⟨hd, hl⟩, hv⟩
  rcases hn with hn | hn | hn
  · exact hn hd
  · exact hn hl
  · exact hn hv

section
variable (hn : ptpTakes s.dist h = false)
include hn

theorem announceOp_of_other {a : PtpAnn} : announceOp h a s = ptpDiscard s := if_pos (by rw [hn]; rfl)
theorem ptpSyncOp_of_other {two : Bool} {o : PtpTime} : ptpSyncOp h two o s = ptpDiscard s := if_pos (.inl (by rw [hn]; rfl))
theorem followUpOp_of_other {o : PtpTime} : followUpOp h o s = ptpDiscard s := if_pos (by rw [hn]; rfl)
theorem delayRespOp_of_other {o : PtpTime} {mine : Bool} : delayRespOp h o mine s = ptpDiscard s := if_pos (by rw [hn]; rfl)

end

theorem ptpSyncOp_of_interval {two : Bool} {o : PtpTime} (hl : h.log.toInt < -7 ∨ 1 < h.log.toInt) :
    ptpSyncOp h two o s = ptpDiscard s := if_pos (.inr hl)

/-! ## Messages of the slave's own domain -/

/-- The machine that has noted a Sync of the selected master. -/
def syncNoted (h : PtpHdr) (s : State) : State :=
  onPtp (fun p => { p with syncAt := s.dist.base.tick, syncLog := h.log })
    (onDist (dB fun b => wrF 0x807C 16 8 h.log.toNat (inc 0x8084 b)) s)

/-- The time at which a message that arrives now is received (R120). -/
def rxTime (s : State) : Int := ((nsNow s.dist.base).toNat : Int) - (rdF s.dist.base 0x804C 0 10 : Nat)

section
variable (ht : ptpTakes s.dist h = true)
include ht

theorem not_not_taken : ¬ (!ptpTakes s.dist h) = true := by
  rw [ht]
  exact Bool.false_ne_true

theorem announceOp_of_taken {a : PtpAnn} : announceOp h a s = chooseMaster (onPtp (fun p => { p with
    masters := (p.masters.filter fun x => !(x.id == h.src && x.port == h.port)) ++
      [{ id := h.src, port := h.port, addr := h.addr, ann := a, log := h.log, at_ := s.dist.base.tick }] })
    (onDist (dB (inc 0x8090)) s)) := if_neg (not_not_taken ht)

theorem ptpSyncOp_of_taken {two : Bool} {o : PtpTime} (hlo : -7 ≤ h.log.toInt) (hhi : h.log.toInt ≤ 1) :
    ptpSyncOp h two o s = if fromMaster s.dist h = true then
        if two = true then onPtp (fun p => { p with sync := some (h.seq, rxTime s, h.corr.toInt) }) (syncNoted h s)
        else syncDone (stampNs o) (rxTime s) h.corr.toInt (syncNoted h s)
      else s := by
  refine if_neg ?_
  rintro (h' | h' | h')
  · exact not_not_taken ht h'
  · exact absurd hlo (Int.not_le.mpr h')
  · exact absurd hhi (Int.not_le.mpr h')

theorem followUpOp_of_master {o : PtpTime} {t2 c : Int} (hm : fromMaster s.dist h = true)
    (hs : s.dist.ptp.sync = some (h.seq, t2, c)) :
    followUpOp h o s = syncDone (stampNs o) t2 (c + h.corr.toInt) s := by
  rw [followUpOp, if_neg (not_not_taken ht), if_pos hm, hs]
  exact if_pos rfl
theorem followUpOp_of_unawaited {o : PtpTime}
    (hs : fromMaster s.dist h = true → ∀ q t2 c, s.dist.ptp.sync = some (q, t2, c) → q ≠ h.seq) : followUpOp h o s = s := by
  rw [followUpOp, if_neg (not_not_taken ht)]
  split
  next hm =>
    split
    next q t2 c hq => exact if_neg (hs hm q t2 c hq)
    next => rfl
  next => rfl

theorem delayRespOp_of_master {o : PtpTime} {t3 t21 : Int} (hm : fromMaster s.dist h = true)
    (hd : s.dist.ptp.dreq = some (h.seq, t3)) (h21 : s.dist.ptp.t21 = some t21) :
    (delayRespOp h o true s).dist.ptp = { s.dist.ptp with
      dreq := none, mpd := some (quot (t21 + ((stampNs o - t3) * 65536 - h.corr.toInt)) 2), dreqLog := limitLog h.log } := by
  rw [delayRespOp, if_neg (not_not_taken ht), hm, Bool.and_true, if_pos rfl, hd, h21]
  dsimp only
  rw [if_pos rfl]
  rfl
theorem delayRespOp_of_unawaited {o : PtpTime} {mine : Bool} (hs : fromMaster s.dist h = false ∨ mine = false ∨
    s.dist.ptp.t21 = none ∨ (∀ q t3, s.dist.ptp.dreq = some (q, t3) → q ≠ h.seq)) : delayRespOp h o mine s = s := by
  rw [delayRespOp, if_neg (not_not_taken ht)]
  split
  next hc =>
    obtain ⟨hm, hmine⟩ := Bool.and_eq_true_iff.mp hc
    split
    next q t3 t21 hq h21 =>
      refine if_neg ?_
      rcases hs with hs | hs | hs | hs
      · exact absurd hm (Bool.eq_false_iff.mp hs)
      · exact absurd hmine (Bool.eq_false_iff.mp hs)
      · rw [hs] at h21
        exact nomatch h21
      · exact hs q t3 hq
    next => rfl
  next => rfl

end

/-! ## Delay_Req and ARP (R118, R609) -/

/-- The machine that has sent the Delay_Req. -/
def dreqSent (s : State) : State :=
  onDist (dB fun b => inc 0x8088 (emit (.eth (dreqFrame s.dist)) b))
    (onPtp (fun p => { p with dreq := some (p.dreqSeq, ((nsNow s.dist.base).toNat : Int) + (rdF s.dist.base 0x8050 0 10 : Nat)),
                              dreqSeq := p.dreqSeq + 1, dreqAt := some s.dist.base.tick }) s)

/-- The interval since the last Delay_Req is over. -/
def dreqDue (d : DistState) : Bool := d.ptp.dreqAt.all fun k => decide (k + logTicks d.ptp.dreqLog ≤ d.base.tick)

theorem delayReqOp_eq : delayReqOp s =
    if (ptpEn s.dist && s.dist.ptp.sel.isSome && ptpMac s.dist != 0 && dreqDue s.dist) = true then dreqSent s else s := by
  unfold delayReqOp
  extract_lets p b due t3 req s₁
  have hdue : due = dreqDue s.dist := by
    unfold due dreqDue
    rcases p.dreqAt with _ | k <;> rfl
  rw [hdue]
  rfl

theorem delayReqOp_of_due (he : ptpEn s.dist = true) (hs : s.dist.ptp.sel.isSome = true) (hm : ptpMac s.dist ≠ 0)
    (hd : ∀ k, s.dist.ptp.dreqAt = some k → k + logTicks s.dist.ptp.dreqLog ≤ s.dist.base.tick) :
    delayReqOp s = dreqSent s := by
  rw [delayReqOp_eq, he, hs, bne_iff_ne.mpr hm, if_pos]
  rw [Bool.true_and, Bool.true_and, Bool.true_and, dreqDue, Option.all_eq_true]
  exact fun k hk => decide_eq_true (hd k hk)
theorem delayReqOp_of_not (h : s.dist.ptp.sel = none ∨ ptpMac s.dist = 0 ∨
    (∃ k, s.dist.ptp.dreqAt = some k ∧ s.dist.base.tick < k + logTicks s.dist.ptp.dreqLog)) : delayReqOp s = s := by
  rw [delayReqOp_eq]
  refine if_neg ?_
  rw [Bool.and_eq_true, Bool.and_eq_true, Bool.and_eq_true, bne_iff_ne, dreqDue, Option.all_eq_true]
  rintro ⟨⟨⟨-, hs⟩, hm⟩, hd⟩
  rcases h with h | h | ⟨k, hk, ht⟩
  · rw [h] at hs
    exact nomatch hs
  · exact hm h
  · exact absurd (of_decide_eq_true (hd k hk)) (Nat.not_le.mpr ht)

theorem arpRequestRx_of_not {ip : BitVec 32} (h : ip ≠ rd s.dist.base 0x8044 ∨ ptpMac s.dist = 0 ∨ isRoot s.dist = false ∨
    ¬ distRuns s) : exec (.arpRequestRx ip) s = .next s := by
  rcases h with h | h | h
  · exact next_of_root_self (if_neg fun hc => h hc.1)
  · exact next_of_root_self (if_neg fun hc => hc.2 h)
  · exact next_of_not_root h

theorem activityOp_of_unselected (h : s.dist.ptp.sel = none) : activityOp s = s := by
  unfold activityOp
  extract_lets p now fresh
  have hp : p.sel = none := h
  rw [hp]

end

/-- Settles O58: each message through the slave's gate, then the test of its domain, transport and VLAN, then the master's and the
sequence number's. -/
theorem ptpSlave : Obligations.PtpSlave := by
  intro s h
  refine ⟨fun hn a two t mine => ⟨next_of_no_ptp hn, next_of_no_ptp hn, next_of_no_ptp hn, next_of_no_ptp hn, next_of_no_ptp hn,
      next_of_no_ptp hn, next_of_no_ptp hn⟩,
    fun hr he => ⟨fun hn a two t mine => ?_, fun hl two t => next_of_ptp hr he (ptpSyncOp_of_interval hl),
      fun hd hl hv => ?_, fun hs hm hd => ⟨_, next_of_ptp hr he (delayReqOp_of_due he hs hm hd), rfl, rfl, rfl⟩,
      fun hn => next_of_ptp hr he (delayReqOp_of_not hn),
      fun hn => next_of_ptp hr he (activityOp_of_unselected hn), next_of_ptp hr he rfl, next_of_ptp hr he rfl⟩,
    fun ip hr hip hm => ⟨_, next_of_rootRuns hr (if_pos ⟨hip, hm⟩), rfl, rfl⟩, fun ip hn => arpRequestRx_of_not hn⟩
  · have ho := ptpTakes_of_not hn
    exact ⟨next_of_ptp hr he (announceOp_of_other ho), next_of_ptp hr he (ptpSyncOp_of_other ho),
      next_of_ptp hr he (followUpOp_of_other ho), next_of_ptp hr he (delayRespOp_of_other ho)⟩
  · have ht := ptpTakes_of hd hl hv
    refine ⟨fun a => next_of_ptp hr he (announceOp_of_taken ht), fun hm hlo hhi two t => ?_,
      fun t t2 c hm hs => ⟨_, next_of_ptp hr he (followUpOp_of_master ht hm hs), rfl, rfl, rfl⟩,
      fun t hs => next_of_ptp hr he (followUpOp_of_unawaited ht fun _ => hs), fun t t3 t21 hm hd h21 => ?_,
      fun t mine hs => next_of_ptp hr he (delayRespOp_of_unawaited ht hs), fun two t hm hlo hhi => ⟨?_, ?_⟩⟩
    · have hop := (ptpSyncOp_of_taken (two := two) (o := t) ht hlo hhi).trans (if_pos hm)
      refine ⟨_, next_of_ptp hr he hop, ?_⟩
      cases two
      · exact ⟨rfl, rfl, rfl, nofun, fun _ => rfl⟩
      · exact ⟨rfl, rfl, rfl, fun _ => rfl, nofun⟩
    · have hptp := delayRespOp_of_master (o := t) ht hm hd h21
      exact ⟨_, next_of_ptp hr he rfl, congrArg Ptp.dreq hptp, congrArg Ptp.mpd hptp⟩
    · exact next_of_ptp hr he ((ptpSyncOp_of_taken ht hlo hhi).trans (if_neg (Bool.eq_false_iff.mp hm)))
    · exact next_of_ptp hr he (followUpOp_of_unawaited ht fun hm' => absurd hm' (Bool.eq_false_iff.mp hm))

end Sys2Proof.Proofs
end


section
/-! PROOFS. Register accesses and the SMBus path (O59). -/

namespace Sys2Proof.Proofs
open Sys2Proof Sys2Proof.Machine

section
variable {part : Part} {ch : Nat} {s t : State} {f : State → State}

/-! ## Channels (R562, R563) -/

theorem next_of_channel (hc : chExists s part ch = true) (hl : live (partBase s part) = true) (ht : f s = t) :
    (.next (ifChannel part ch f s) : Host.Outcome State Fault Refusal) = .next t :=
  congrArg Host.Outcome.next ((if_pos hc).trans ((ifPart_of_live hl).trans ht))
theorem next_of_no_channel (h : chExists s part ch = false ∨ live (partBase s part) = false) :
    (.next (ifChannel part ch f s) : Host.Outcome State Fault Refusal) = .next s := by
  refine congrArg Host.Outcome.next ?_
  rw [ifChannel]
  rcases h with h | h
  · exact if_neg (Bool.eq_false_iff.mp h)
  · rw [ifPart_of_not_live h, ite_self]

/-! ## Codes of an access (R569) -/

theorem accessCode_of_misaligned {addr : Nat} {w : Bool} (h : addr % 4 ≠ 0) : accessCode s part ch addr w = 5 := if_pos h

theorem readAccess_of_code {addr c : Nat} (h : accessCode s part ch addr false = c) (hc : c ≠ 0) :
    readAccess part ch addr s = (0xFFFFFFFF, c, noteError part ch addr c false s) := by
  subst h
  exact if_pos hc
theorem readAccess_of_served {addr : Nat} (h : accessCode s part ch addr false = 0) : readAccess part ch addr s =
    ((readReg part ch (addr / 0x1000) (addr % 0x1000) s).1, 0, (readReg part ch (addr / 0x1000) (addr % 0x1000) s).2) :=
  if_neg (not_not_intro h)
theorem writeAccess_of_code {addr c : Nat} {be : BitVec 4} {data : Word} (h : accessCode s part ch addr true = c) (hc : c ≠ 0) :
    writeAccess part ch addr be data s = (c, noteError part ch addr c true s) := by
  subst h
  exact if_pos hc
theorem writeAccess_of_served {addr : Nat} {be : BitVec 4} {data : Word} (h : accessCode s part ch addr true = 0) :
    writeAccess part ch addr be data s = (0, writeReg part ch (addr / 0x1000) (addr % 0x1000) be data s) :=
  if_neg (not_not_intro h)

section
variable {ch : BitVec 3}

theorem readRow_of {addr c : Nat} {w : Word} {t : State} (h : readAccess part ch.toNat addr s = (w, c, t)) :
    readRow part ch addr s = onPartBase part (emit (.regData part ch w (shownCode part c))) t := by
  rw [readRow, h]
theorem writeRow_of {addr c : Nat} {be : BitVec 4} {data : Word} {t : State} (h : writeAccess part ch.toNat addr be data s = (c, t)) :
    writeRow part ch addr be data s = onPartBase part (emit (.regAck part ch (shownCode part c))) t := by
  rw [writeRow, h]

/-! ## PAGE_LOCK (R552) -/

/-- The machine whose part has the lock of a page taken. -/
def lockTaken (part : Part) (p : Nat) (s : State) : State := onPartBase part (wr (pageAddr p 0x020) 0x80000000) s

theorem lockRead_of_free {p : Nat} (hv : rd (partBase s part) (pageAddr p 0x020) = 0)
    (hu : part = .unit → p ≠ 0x0A ∨ (cfgOf s.unit.base).w64 = false)
    (hd : part = .dist → rootOnly p = false ∨ isRoot s.dist = true) : lockRead part p s = (0, lockTaken part p s) := by
  have h31 : bitOf 0 31 = false := by decide
  unfold lockRead
  extract_lets a v absent
  have hv0 : v = 0 := hv
  have habs : absent = false := by
    cases part
    · rcases hu rfl with h | h
      · exact Bool.and_eq_false_iff.mpr (.inl (beq_false_of_ne h))
      · exact Bool.and_eq_false_iff.mpr (.inr h)
    · rcases hd rfl with h | h
      · exact Bool.and_eq_false_iff.mpr (.inl h)
      · exact Bool.and_eq_false_iff.mpr (.inr (by rw [h]; rfl))
  rw [habs, hv0, h31, Bool.or_false, if_neg Bool.false_ne_true]
  rfl
theorem lockRead_of_taken {p : Nat} (hv : bitOf (rd (partBase s part) (pageAddr p 0x020)) 31 = true) :
    lockRead part p s = (rd (partBase s part) (pageAddr p 0x020), s) := by
  unfold lockRead
  extract_lets a v absent
  have hv1 : bitOf v 31 = true := hv
  rw [hv1, Bool.or_true, if_pos rfl]

theorem readReg_lock {p : Nat} (hw : pageWindow (partBase s part).kind p = false) {ch : Nat} :
    readReg part ch p 0x020 s = lockRead part p s := by
  have ha : readActs part ch p 0x020 s = some (lockRead part p s) := if_pos ⟨rfl, by rw [hw]; rfl⟩
  rw [readReg, ha]

theorem pageAddr_page {p o : Nat} (ho : o < 0x1000) : pageAddr p o / 0x1000 = p ∧ pageAddr p o % 0x1000 = o := by
  rw [pageAddr]
  omega

theorem readRow_lock {p : Nat} {w : Word} (hc : accessCode s part ch.toNat (pageAddr p 0x020) false = 0)
    (hw : pageWindow (partBase s part).kind p = false) (hr : lockRead part p s = (w, t)) :
    readRow part ch (pageAddr p 0x020) s = onPartBase part (emit (.regData part ch w (shownCode part 0))) t := by
  have hp : pageAddr p 0x020 / 0x1000 = p ∧ pageAddr p 0x020 % 0x1000 = 0x020 := pageAddr_page (by decide)
  refine readRow_of ((readAccess_of_served hc).trans ?_)
  rw [hp.1, hp.2, readReg_lock hw, hr]

theorem lockTaken_rd {p : Nat} {o : Out} :
    rd (partBase (onPartBase part (emit o) (lockTaken part p s)) part) (pageAddr p 0x020) = 0x80000000 := by
  rw [partBase_onPartBase_same, lockTaken, partBase_onPartBase_same]
  exact (rd_wr_same : rd (wr (pageAddr p 0x020) 0x80000000 (partBase s part)) (pageAddr p 0x020) = 0x80000000)
theorem lockTaken_outs {p : Nat} {o : Out} :
    (partBase (onPartBase part (emit o) (lockTaken part p s)) part).outs = (partBase s part).outs ++ [o] := by
  rw [partBase_onPartBase_same, lockTaken, partBase_onPartBase_same]
  rfl

end

/-! ## SMBus (R634) -/

theorem smbRead_of_requested {w : Word} {c : Nat} (h : s.dist.adm.smb = some (w, c)) :
    (smbRead s).dist.adm.smb = some (w, 0x0F) ∧
    (smbRead s).dist.base.outs = s.dist.base.outs ++ [.smbus true (BitVec.ofNat 8 c :: wordBytes w)] := by
  rw [smbRead, h, Option.getD_some]
  exact ⟨rfl, rfl⟩
theorem smbRead_of_none (h : s.dist.adm.smb = none) :
    (smbRead s).dist.base.outs = s.dist.base.outs ++ [.smbus true (0x0F :: wordBytes 0)] := by
  rw [smbRead, h, Option.getD_none]
  rfl

end

/-- O59's clauses about an access on a channel that a live part has. -/
theorem accessesAnswer {part : Part} {ch : BitVec 3} {s : State} (hc : chExists s part ch.toNat = true)
    (hl : live (partBase s part) = true) :
    (∀ (addr : BitVec 22) (c : Nat), accessCode s part ch.toNat addr.toNat false = c → c ≠ 0 →
      exec (.registerRead part ch addr) s = .next (onPartBase part (emit (.regData part ch 0xFFFFFFFF (shownCode part c)))
        (noteError part ch.toNat addr.toNat c false s))) ∧
    (∀ (addr : BitVec 22) be data (c : Nat), accessCode s part ch.toNat addr.toNat true = c → c ≠ 0 →
      exec (.registerWrite part ch addr be data) s = .next (onPartBase part (emit (.regAck part ch (shownCode part c)))
        (noteError part ch.toNat addr.toNat c true s))) :=
  ⟨fun _ _ h hn => next_of_channel hc hl (readRow_of (readAccess_of_code h hn)),
    fun _ _ _ _ h hn => next_of_channel hc hl (writeRow_of (writeAccess_of_code h hn))⟩

/-- Settles O59: an access through its channel, then by the code of R569; PAGE_LOCK by what the register holds. -/
theorem registersAnswer : Obligations.RegistersAnswer := by
  refine ⟨fun part ch s => ⟨fun h addr be data wr page => ⟨next_of_no_channel h, next_of_no_channel h, next_of_no_channel h,
      next_of_no_channel h⟩, fun hc hl => ?_⟩, fun s => ⟨fun ch gen hc hl => next_of_channel hc hl rfl,
      fun ch be data hc hl => next_of_channel hc hl rfl,
      fun ch gen be data h => ⟨next_of_no_channel h, next_of_no_channel h⟩,
      fun addr data hl => next_of_distLive hl (if_neg Bool.false_ne_true), fun addr data hl => next_of_distLive hl (if_pos rfl),
      fun addr hl => next_of_distLive hl (if_neg Bool.false_ne_true), fun addr hl => ⟨_, next_of_distLive hl (if_pos rfl), rfl⟩,
      fun w c hl hw => ⟨_, next_of_distLive hl rfl, smbRead_of_requested hw⟩,
      fun hl hw => ⟨_, next_of_distLive hl rfl, smbRead_of_none hw⟩,
      fun hl => ⟨congrArg Host.Outcome.next (ifDist_of_not_live hl), fun addr data ok =>
        ⟨congrArg Host.Outcome.next (ifDist_of_not_live hl), congrArg Host.Outcome.next (ifDist_of_not_live hl)⟩⟩⟩⟩
  obtain ⟨hread, hwrite⟩ := accessesAnswer hc hl
  refine ⟨fun addr ha => hread addr 5 (accessCode_of_misaligned ha) (by decide),
    fun addr be data ha => hwrite addr be data 5 (accessCode_of_misaligned ha) (by decide), hread, hwrite,
    fun addr h => ⟨_, rfl, next_of_channel hc hl (readRow_of (readAccess_of_served h))⟩,
    fun addr be data h => next_of_channel hc hl (writeRow_of (writeAccess_of_served h)),
    fun addr => next_of_channel hc hl rfl, fun addr => next_of_channel hc hl rfl, fun page => next_of_channel hc hl rfl,
    fun page h hw hv hu hd => ⟨_, next_of_channel hc hl (readRow_lock h hw (lockRead_of_free hv hu hd)), lockTaken_rd,
      lockTaken_outs⟩,
    fun page h hw hv => next_of_channel hc hl (readRow_lock h hw (lockRead_of_taken hv))⟩

end Sys2Proof.Proofs
end


section
/-! PROOFS. A protected register outside a presence window (O60). -/

namespace Sys2Proof.Proofs
open Sys2Proof Sys2Proof.Machine

section
variable {part : Part} {s : State} {be : BitVec 4} {data : Word}

/-! ## Protected fields outside a window (R13, R555) -/

/-- A write of protected fields alone leaves a register as it is while no window is open. -/
theorem writeFlds_closed {l : List Fld} (hl : ∀ f ∈ l, f.acc = .prw) {old : Word} : writeFlds l false be old data = old := by
  unfold writeFlds
  generalize mergeBytes be old data = merged
  induction l with
  | nil => rfl
  | cons f l ih =>
    have hf : writeFld false be data merged old f = old := by
      simp only [writeFld, hl f List.mem_cons_self, Bool.false_and, Bool.false_eq_true, if_false]
    rw [List.foldl_cons, hf]
    exact ih fun g hg => hl g (List.mem_cons_of_mem f hg)

/-- The part with one of its registers written as it stands. -/
def restored (part : Part) (a : Nat) (s : State) : State := onPartBase part (wr a (rd (partBase s part) a)) s

theorem rd_restored {a a' : Nat} : rd (partBase (restored part a s) part) a' = rd (partBase s part) a' := by
  rw [restored, partBase_onPartBase_same]
  by_cases h : a' = a
  · rw [h, rd_wr_same]
  · rw [rd_wr_other h]

/-- What a write of one register of protected fields does outside a window: the register stands, and a field that the write
carries is logged. -/
theorem store_closed {p : Nat} {flds : Nat → List Fld} {w : RegW} (hw : windowOpen (partBase s part) = false)
    (hf : ∀ f ∈ flds w.o, f.acc = .prw) (hs : ∀ v, settleWord part p w.o v = v) :
    store part p flds [w] s = if carriesPrw (flds w.o) (regOld s part p w) (regMerged s part p w) = true then
        logPart part uPresenceDenied dPresenceDenied (regObj p w.o) (regAux w.o) (restored part (heldAt s part p w.o) s)
      else restored part (heldAt s part p w.o) s := by
  have hone : storeOne part p false (flds w.o) w s = restored part (heldAt s part p w.o) s := by
    rw [storeOne, hs, writeFlds_closed hf, restored, regOld]
  rw [store, hw]
  simp only [List.any_cons, List.any_nil, Bool.or_false, List.foldl_cons, List.foldl_nil, List.getLast?_singleton,
    Option.map_some, Option.getD_some, Bool.not_false, Bool.and_true, Bool.and_false, Bool.false_eq_true, if_false, hone]

/-! ## The count of a happening (R458) -/

theorem toNat_rd_inc {a : Nat} {b : Base} : (rd (inc a b) a).toNat = satInc 0xFFFFFFFF (rd b a).toNat := by
  rw [rd_inc_same, satInc]
  split
  next h => rw [h]; rfl
  next h =>
    rw [if_pos (by bv_omega)]
    bv_omega

theorem logB_count {h : Hap} {port obj uid aux : Nat} {b : Base} (hk : h.kind < 4) :
    (rd (logB h port obj uid aux b) (cntAddr b h.kind)).toNat = satInc 0xFFFFFFFF (rd b (cntAddr b h.kind)).toNat := by
  have hkind : (mkEntry b (hapCode h) h port obj uid aux).kind.toNat = h.kind := by
    rw [mkEntry, BitVec.toNat_ofNat, Nat.mod_eq_of_lt hk]
  have hcnt := rd_addEntry_cnt (pg := some (h.page, h.idx)) (e := mkEntry b (hapCode h) h port obj uid aux) (b := b)
  rw [hkind] at hcnt
  rw [logB, hcnt, toNat_rd_inc]

/-- A happening that is not reported counts at the unit. -/
theorem logU_count {h : Hap} {port obj uid aux : Nat} (hk : h.kind < 4) (hr : reportsBoth h = false) :
    (rd (logU h port obj uid aux s).unit.base (cntAddr s.unit.base h.kind)).toNat =
      satInc 0xFFFFFFFF (rd s.unit.base (cntAddr s.unit.base h.kind)).toNat := by
  have hpage : cntAddr s.unit.base h.kind / 0x1000 ≠ 0x16 := by
    rw [cntAddr, pageAddr]
    rcases fltPage_cases (b := s.unit.base) with hf | hf <;> rw [hf] <;> omega
  rw [logU, hr]
  simp only [Bool.false_and, Bool.false_eq_true, if_false, onUnit_unit]
  rw [rd_traceOnFault hpage, uB_base, logB_count hk]

/-! ## LIM.STEER of each part (R154) -/

/-- LIM.STEER's one field. -/
def steerFlds : List Fld := [prwR 0 10 1 500]

/-- A write of LIM.STEER of a part, and what it is outside a window. -/
def steerWrite (be : BitVec 4) (data : Word) : RegW := { o := 0x044, be := be, data := data }
def steerDenied (part : Part) (p : Nat) (be : BitVec 4) (data : Word) (s : State) : State :=
  if carriesPrw steerFlds (rd (partBase s part) (pageAddr p 0x044))
      (mergeBytes be (rd (partBase s part) (pageAddr p 0x044)) data) = true then
    logPart part uPresenceDenied dPresenceDenied (regObj p 0x044) (regAux 0x044) (restored part (pageAddr p 0x044) s)
  else restored part (pageAddr p 0x044) s

theorem steerFlds_prw : ∀ f ∈ steerFlds, f.acc = .prw := by decide

/-! ### What a denied write leaves -/

theorem steerDenied_unit_dist {p : Nat} : (steerDenied .unit p be data s).dist = s.dist := by
  unfold steerDenied
  split
  · exact logU_dist _ _ _ _ _ _
  · rfl
theorem steerDenied_dist_unit {p : Nat} : (steerDenied .dist p be data s).unit = s.unit := by
  unfold steerDenied
  split
  · exact logD_unit _ _ _ _ _ _
  · rfl

theorem steerDenied_unit_rd : rd (steerDenied .unit 0x14 be data s).unit.base 0x14044 = rd s.unit.base 0x14044 := by
  have hr : rd (restored .unit (pageAddr 0x14 0x044) s).unit.base 0x14044 = rd s.unit.base 0x14044 := rd_restored (part := .unit)
  unfold steerDenied
  split
  · refine (rd_logU uPresenceDenied _ _ _ _ _ ?_ (by decide) (by decide)).trans hr
    rcases fltPage_cases (b := (restored .unit (pageAddr 0x14 0x044) s).unit.base) with hf | hf <;> rw [hf] <;> decide
  · exact hr
theorem steerDenied_dist_rd : rd (steerDenied .dist 0x0E be data s).dist.base 0x0E044 = rd s.dist.base 0x0E044 := by
  have hr : rd (restored .dist (pageAddr 0x0E 0x044) s).dist.base 0x0E044 = rd s.dist.base 0x0E044 := rd_restored (part := .dist)
  unfold steerDenied
  split
  · refine (rd_logD dPresenceDenied _ _ _ _ _ ?_ (by decide)).trans hr
    rcases fltPage_cases (b := (restored .dist (pageAddr 0x0E 0x044) s).dist.base) with hf | hf <;> rw [hf] <;> decide
  · exact hr

theorem steerDenied_unit_count
    (hc : carriesPrw steerFlds (rd s.unit.base 0x14044) (mergeBytes be (rd s.unit.base 0x14044) data) = true) :
    (rd (steerDenied .unit 0x14 be data s).unit.base (cntAddr s.unit.base uPresenceDenied.kind)).toNat =
      satInc 0xFFFFFFFF (rd s.unit.base (cntAddr s.unit.base uPresenceDenied.kind)).toNat := by
  have hcnt := logU_count (h := uPresenceDenied) (port := noPort) (obj := regObj 0x14 0x044) (uid := 0) (aux := regAux 0x044)
    (s := restored .unit (pageAddr 0x14 0x044) s) (by decide) (by decide)
  have haddr : cntAddr (restored .unit (pageAddr 0x14 0x044) s).unit.base uPresenceDenied.kind =
    cntAddr s.unit.base uPresenceDenied.kind := rfl
  have hr : ∀ a, rd (restored .unit (pageAddr 0x14 0x044) s).unit.base a = rd s.unit.base a :=
    fun _ => rd_restored (part := .unit)
  rw [haddr, hr] at hcnt
  have hd : steerDenied .unit 0x14 be data s =
    logU uPresenceDenied noPort (regObj 0x14 0x044) 0 (regAux 0x044) (restored .unit (pageAddr 0x14 0x044) s) := if_pos hc
  rw [hd]
  exact hcnt
theorem steerDenied_dist_count
    (hc : carriesPrw steerFlds (rd s.dist.base 0x0E044) (mergeBytes be (rd s.dist.base 0x0E044) data) = true) :
    (rd (steerDenied .dist 0x0E be data s).dist.base (cntAddr s.dist.base dPresenceDenied.kind)).toNat =
      satInc 0xFFFFFFFF (rd s.dist.base (cntAddr s.dist.base dPresenceDenied.kind)).toNat := by
  have hcnt := logB_count (h := dPresenceDenied) (port := noPort) (obj := regObj 0x0E 0x044) (uid := 0) (aux := regAux 0x044)
    (b := (restored .dist (pageAddr 0x0E 0x044) s).dist.base) (by decide)
  have haddr : cntAddr (restored .dist (pageAddr 0x0E 0x044) s).dist.base dPresenceDenied.kind =
    cntAddr s.dist.base dPresenceDenied.kind := rfl
  have hr : ∀ a, rd (restored .dist (pageAddr 0x0E 0x044) s).dist.base a = rd s.dist.base a :=
    fun _ => rd_restored (part := .dist)
  rw [haddr, hr] at hcnt
  have hd : steerDenied .dist 0x0E be data s =
    logD dPresenceDenied noPort (regObj 0x0E 0x044) 0 (regAux 0x044) (restored .dist (pageAddr 0x0E 0x044) s) := if_pos hc
  rw [hd, logD, onDist_dist, dB_base]
  exact hcnt

/-! ### The write as the register block serves it -/

theorem unitAfter_steer {old : Base} (h : changed 0x14044 old s.unit.base = false) : unitAfter 0x14 0x044 be old s = s :=
  if_neg fun hc => Bool.eq_false_iff.mp h hc.2

theorem distAfter_steer {old : Base} (h : changed 0x0E044 old s.dist.base = false) : distAfter 0x0E 0x044 old s = s := by
  have hlow : distAfterLow 0x0E 0x044 old s = s := if_neg fun hc => Bool.eq_false_iff.mp h hc.2
  exact hlow

theorem kind_of_isUnit {b : Base} (h : isUnit b = true) : ∃ c, b.kind = .unit c := by
  unfold isUnit at h
  split at h
  next c hk => exact ⟨c, hk⟩
  next => exact nomatch h
theorem kind_of_not_isUnit {b : Base} (h : isUnit b = false) : ∃ st, b.kind = .dist st := by
  unfold isUnit at h
  split at h
  next => exact nomatch h
  next st hk => exact ⟨st, hk⟩

section
variable {c : UnitCfg} (hk : s.unit.base.kind = .unit c)
include hk

theorem fldsAt_unitSteer : fldsAt s .unit 0x14 0x044 = steerFlds := by
  unfold fldsAt
  rw [partBase, hk]
  rfl

theorem store_unitSteer (hw : windowOpen s.unit.base = false) :
    store .unit 0x14 (fldsAt s .unit 0x14) [steerWrite be data] s = steerDenied .unit 0x14 be data s := by
  have hflds := fldsAt_unitSteer hk
  have hprw : ∀ f ∈ fldsAt s .unit 0x14 (steerWrite be data).o, f.acc = .prw := by
    rw [steerWrite, hflds]
    exact steerFlds_prw
  have hsettle : ∀ v, settleWord .unit 0x14 (steerWrite be data).o v = v := fun _ => rfl
  rw [store_closed (part := .unit) hw hprw hsettle, steerWrite, hflds]
  rfl

/-- A write of the unit's LIM.STEER while no window is open. -/
theorem writeReg_unitSteer {ch : Nat} (hw : windowOpen s.unit.base = false) :
    writeReg .unit ch 0x14 0x044 be data s = steerDenied .unit 0x14 be data s := by
  have hflds := fldsAt_unitSteer hk
  have hwin : pageWindow (partBase s .unit).kind 0x14 = false := by
    rw [partBase, hk]
    rfl
  have hown : unitOwn 0x14 0x044 be data s = none := rfl
  have hput : putReg .unit ch 0x14 { o := 0x044, be := be, data := data } s = steerDenied .unit 0x14 be data s :=
    store_unitSteer hk hw
  have hsame : changed 0x14044 s.unit.base (steerDenied .unit 0x14 be data s).unit.base = false := by
    rw [changed, steerDenied_unit_rd, bne_self_eq_false]
  have hafter : unitAfter 0x14 0x044 be (partBase s .unit) (steerDenied .unit 0x14 be data s) = steerDenied .unit 0x14 be data s :=
    unitAfter_steer hsame
  have hcmd : (steerFlds.any fun f => decide (f.acc = .cmd)) = false := by decide
  have hempty : steerFlds.isEmpty = false := rfl
  have h20 : ¬ ((0x044 : Nat) = 0x020 ∧ (!false) = true) := by decide
  have h40 : ¬ (0x044 : Nat) < 0x040 := by decide
  unfold writeReg
  simp only [hwin, Bool.false_eq_true, if_false, hown, hflds, if_neg h20, hempty, hput, if_neg h40, hafter, hcmd]

end

section
variable {st : Straps} (hk : s.dist.base.kind = .dist st)
include hk

theorem fldsAt_distSteer : fldsAt s .dist 0x0E 0x044 = steerFlds := by
  unfold fldsAt
  rw [partBase, hk]
  rfl

theorem store_distSteer (hw : windowOpen s.dist.base = false) :
    store .dist 0x0E (fldsAt s .dist 0x0E) [steerWrite be data] s = steerDenied .dist 0x0E be data s := by
  have hflds := fldsAt_distSteer hk
  have hprw : ∀ f ∈ fldsAt s .dist 0x0E (steerWrite be data).o, f.acc = .prw := by
    rw [steerWrite, hflds]
    exact steerFlds_prw
  have hsettle : ∀ v, settleWord .dist 0x0E (steerWrite be data).o v = v := fun _ => rfl
  rw [store_closed (part := .dist) hw hprw hsettle, steerWrite, hflds]
  rfl

/-- A write of the distributor's LIM.STEER while no window is open. -/
theorem writeReg_distSteer {ch : Nat} (hw : windowOpen s.dist.base = false) :
    writeReg .dist ch 0x0E 0x044 be data s = steerDenied .dist 0x0E be data s := by
  have hflds := fldsAt_distSteer hk
  have hwin : pageWindow (partBase s .dist).kind 0x0E = false := by
    rw [partBase, hk]
    rfl
  have hown : distOwn 0x0E 0x044 be data s = none := rfl
  have hput : putReg .dist ch 0x0E { o := 0x044, be := be, data := data } s = steerDenied .dist 0x0E be data s :=
    store_distSteer hk hw
  have hsame : changed 0x0E044 s.dist.base (steerDenied .dist 0x0E be data s).dist.base = false := by
    rw [changed, steerDenied_dist_rd, bne_self_eq_false]
  have hafter : distAfter 0x0E 0x044 (partBase s .dist) (steerDenied .dist 0x0E be data s) = steerDenied .dist 0x0E be data s :=
    distAfter_steer hsame
  have hcmd : (steerFlds.any fun f => decide (f.acc = .cmd)) = false := by decide
  have hempty : steerFlds.isEmpty = false := rfl
  have h20 : ¬ ((0x044 : Nat) = 0x020 ∧ (!false) = true) := by decide
  have h40 : ¬ ((0x044 : Nat) < 0x040 ∧ (!false) = true) := by decide
  unfold writeReg
  simp only [hwin, Bool.false_eq_true, if_false, hown, hflds, if_neg h20, hempty, hput, if_neg h40, hafter, hcmd]

end

/-! ### The access -/

/-- A part that runs serves a write of a word of an assigned page that is no window. -/
theorem accessCode_write {ch addr : Nat} (ha : addr % 4 = 0) (hp : pageAssigned (partBase s part).kind (addr / 0x1000) = true)
    (hw : pageWindow (partBase s part).kind (addr / 0x1000) = false) (hr : (partBase s part).phase = .run) :
    accessCode s part ch addr true = 0 := by
  simp only [accessCode, ha, hp, hw, hr, ne_eq, not_true_eq_false, if_false, Bool.not_true, Bool.and_false, Bool.or_false,
    decide_false, Bool.false_and, Bool.false_eq_true]

theorem answered_unit_rd {o : Out} {a : Nat} : rd (onPartBase .unit (emit o) s).unit.base a = rd s.unit.base a := rfl
theorem answered_dist_rd {o : Out} {a : Nat} : rd (onPartBase .dist (emit o) s).dist.base a = rd s.dist.base a := rfl

theorem exec_unitSteer {ch : BitVec 3} (hp : s.unit.base.phase = .run) (hi : isUnit s.unit.base = true)
    (hc : chExists s .unit ch.toNat = true) (hw : windowOpen s.unit.base = false) :
    exec (.registerWrite .unit ch 0x14044 be data) s = .next (onPartBase .unit (emit (.regAck .unit ch (shownCode .unit 0)))
      (steerDenied .unit 0x14 be data s)) := by
  obtain ⟨c, hk⟩ := kind_of_isUnit hi
  have hpage : pageAssigned s.unit.base.kind 0x14 = true ∧ pageWindow s.unit.base.kind 0x14 = false := by
    rw [hk]
    exact ⟨rfl, rfl⟩
  have hcode : accessCode s .unit ch.toNat 0x14044 true = 0 := accessCode_write (by decide) hpage.1 hpage.2 hp
  exact next_of_channel hc (live_of_run hp) (writeRow_of ((writeAccess_of_served hcode).trans
    (congrArg (Prod.mk 0) (writeReg_unitSteer hk hw))))

theorem exec_distSteer {ch : BitVec 3} (hp : s.dist.base.phase = .run) (hi : isUnit s.dist.base = false)
    (hc : chExists s .dist ch.toNat = true) (hw : windowOpen s.dist.base = false) :
    exec (.registerWrite .dist ch 0x0E044 be data) s = .next (onPartBase .dist (emit (.regAck .dist ch (shownCode .dist 0)))
      (steerDenied .dist 0x0E be data s)) := by
  obtain ⟨st, hk⟩ := kind_of_not_isUnit hi
  have hpage : pageAssigned s.dist.base.kind 0x0E = true ∧ pageWindow s.dist.base.kind 0x0E = false := by
    rw [hk]
    exact ⟨rfl, rfl⟩
  have hcode : accessCode s .dist ch.toNat 0x0E044 true = 0 := accessCode_write (by decide) hpage.1 hpage.2 hp
  exact next_of_channel hc (live_of_run hp) (writeRow_of ((writeAccess_of_served hcode).trans
    (congrArg (Prod.mk 0) (writeReg_distSteer hk hw))))

end

/-- Settles O60: the register's one field is protected, so it stands; a carried field is logged, and every happening counts. -/
theorem closedWindowDenies : Obligations.ClosedWindowDenies := by
  intro s ch be data hinv
  obtain ⟨⟨hu, -, -⟩, ⟨hd, -, -⟩⟩ := hinv
  refine ⟨fun hc hp hw => ⟨_, exec_unitSteer hp hu hc hw, answered_unit_rd.trans steerDenied_unit_rd, steerDenied_unit_dist,
      fun hf => ?_⟩,
    fun hc hp hw => ⟨_, exec_distSteer hp hd hc hw, answered_dist_rd.trans steerDenied_dist_rd, steerDenied_dist_unit,
      fun hf => ?_⟩⟩
  · rw [answered_unit_rd]
    exact steerDenied_unit_count hf
  · rw [answered_dist_rd]
    exact steerDenied_dist_count hf

end Sys2Proof.Proofs
end
